-- ==== Sys2Proof/Word.lean ====
section
/-!
DEFINITION. The word types, the fixed-size tables and the plainest arithmetic the model uses.
-/

namespace Sys2Proof

/-- A 64-bit word: an s register, a register of the map, a Swiard instruction word. -/
abbrev Word := BitVec 64

/-- One 32-bit lane of a v register or element of a tile. -/
abbrev Lane := BitVec 32

/-- One byte. -/
abbrev Byte := BitVec 8

/-- A table of `n` entries given by a function on its indices. -/
def vecOf {α : Type} (n : Nat) (f : Fin n → α) : Vector α n :=
  ⟨⟨(List.finRange n).map f⟩, by simp⟩

/-- A table with entry `i` replaced. -/
def upd {α : Type} {n : Nat} (v : Vector α n) (i : Fin n) (x : α) : Vector α n :=
  v.set i.val x i.isLt

/-- A table of `n` equal entries. -/
def rep {α : Type} (n : Nat) (x : α) : Vector α n := vecOf n fun _ => x

@[simp] theorem get_vecOf {α : Type} (n : Nat) (f : Fin n → α) (i : Fin n) :
    (vecOf n f).get i = f i := by
  rw [Vector.get_eq_getElem]; simp [vecOf]

@[simp] theorem get_rep {α : Type} (n : Nat) (x : α) (i : Fin n) : (rep n x).get i = x := by
  simp [rep]

@[simp] theorem get_upd_same {α : Type} {n : Nat} (v : Vector α n) (i : Fin n) (x : α) :
    (upd v i x).get i = x := by
  rw [Vector.get_eq_getElem]; simp [upd]

theorem get_upd_ne {α : Type} {n : Nat} (v : Vector α n) {i j : Fin n} (x : α) (h : j ≠ i) :
    (upd v i x).get j = v.get j := by
  have h' : i.val ≠ j.val := fun e => h (Fin.ext e.symm)
  rw [Vector.get_eq_getElem, Vector.get_eq_getElem]; simp [upd, h']

theorem get_upd {α : Type} {n : Nat} (v : Vector α n) (i j : Fin n) (x : α) :
    (upd v i x).get j = if j = i then x else v.get j := by
  by_cases h : j = i
  · subst h; simp
  · simp [h, get_upd_ne v x h]

/-- The nearest natural number of an integer, 0 for negative ones. -/
def natOf (i : Int) : Nat := i.toNat

/-- Bits `lo` to `lo + w - 1` of a natural number, as a number. -/
def bitsOf (n lo w : Nat) : Nat := n / 2 ^ lo % 2 ^ w

/-- 1 for true, 0 for false. -/
def b2n (b : Bool) : Nat := if b then 1 else 0

/-- A field of `w` bits placed at bit `lo`. -/
def fld (v lo w : Nat) : Nat := (v % 2 ^ w) * 2 ^ lo

end Sys2Proof
end

