-- ==== Sys2Proof/Syntax.lean ====
section
/-!
DEFINITION. The commands of the OVK-T8: one constructor of `Instr` for each row of spec/opcode_table.json.
Register, unit and queue numbers are `Fin`s, so a command cannot name a unit the device lacks.
-/

namespace Sys2Proof

/-- The format codes of 02 R36; `rsv` is the reserved code 0xF. -/
inductive Fmt where
  | fp32 | bf16x2 | bf16 | fp16 | e4m3 | e5m2 | e3m2 | e2m3 | e2m1 | e8m0
  | i32 | i16 | i8 | u8 | i4 | rsv
  deriving DecidableEq, Repr

/-- The rounding modes of 02 R49. -/
inductive RM where
  | rne | rtz | sr | rha
  deriving DecidableEq, Repr

/-- What every Swiard word carries besides its operands (06 R141): the spindle it is presented to,
the end-of-bundle bit and the predicate register. -/
structure Hdr where
  sp   : Fin 136
  e    : Bool
  pred : Fin 8
  deriving DecidableEq, Repr

/-- Second operand of a compare (07 R173). -/
inductive CmpSrc where
  | reg (r : Fin 32)
  | imm (v : BitVec 32)
  deriving DecidableEq, Repr

/-- A number from 0 to 127 in the word, or the number of the s register that holds the operand
(06 R145 `MR`, R146 `RI`, R147 `NR`). A count field holds the count less one. -/
inductive Num7 where
  | imm (n : Fin 128)
  | reg (r : Fin 32)
  deriving DecidableEq, Repr

/-- Second source of a vector operation: a v register, or an s register broadcast (06 R146 `SB`). -/
inductive VSrc where
  | v (r : Fin 32)
  | s (r : Fin 32)
  deriving DecidableEq, Repr

/-- The modes of an `mma` (03 R71). -/
inductive MmaMode where
  | set | acc | sub
  deriving DecidableEq, Repr

/-- The mask operand of the soft-maximum passes (04 R99). -/
inductive Mask where
  | none
  | causal (sb : Fin 32)
  | bits (sb : Fin 32)
  deriving DecidableEq, Repr

/-- The quantity `rstat.get` writes (07 R185). -/
inductive Stat where
  | mean | var | rstd | msq | max | min
  deriving DecidableEq, Repr

/-- The granularity operand of a quantiser instruction with its exponent source (07 R186). -/
inductive Gran where
  | tensor (k : Fin 8)
  | col (vb : Fin 32)
  | row (vb : Fin 32)
  | blk
  | blks (sb : Fin 32)
  deriving DecidableEq, Repr

/-- The granularity of `rsc`, which names no exponent (07 R187). -/
inductive GTag where
  | tensor | col | row | blk | blks
  deriving DecidableEq, Repr

/-- Destination and granularity of `qexp` (05 R122). -/
inductive QDst where
  | tensor (k : Fin 8)
  | col (vd : Fin 32)
  | row (vd : Fin 32)
  | blk
  | blks
  deriving DecidableEq, Repr

/-- Reel cache hints of a move (06 R148, 09 R247). -/
inductive Hint where
  | none | stream | keep | last
  deriving DecidableEq, Repr

/-- What a move does when it misses its deadline (06 R148, 08 R213). -/
inductive Path where
  | hold | shadow | skip
  deriving DecidableEq, Repr

/-- The operands of a flyer instruction (06 R148, format FL). -/
structure Fl where
  t      : Fin 16
  sd     : Fin 32
  ss     : Fin 32
  sn     : Fin 32
  fs     : Fmt
  fd     : Fmt
  tr     : Bool
  rm     : RM
  satInf : Bool
  hint   : Hint
  path   : Path
  sp     : Fin 32
  scs    : Bool
  scd    : Bool
  deriving DecidableEq, Repr

/-- Header of a received Twine frame as far as the device acts on it (14 R372), with the port it came
in on. Its ICV verifies under the key phase that `kphase` names. Its addresses stand as 14 R376 writes them, its UDP ports
and its tag as it carries them (13 R357, 14 R370). -/
structure FrameHdr where
  port   : Fin 32
  strand : Fin 2048
  psn    : BitVec 32
  ackPsn : BitVec 32
  ts     : BitVec 32
  tsEcho : BitVec 32
  ackReq : Bool
  retx   : Bool
  kphase : Bool
  lastf  : Bool
  src    : Nat := 0
  dst    : Nat := 0
  sport  : BitVec 16 := 49152
  dport  : BitVec 16 := 47130
  /-- PCP of a tagged frame -/
  pcp    : Option (BitVec 3) := none
  txcLo  : BitVec 16 := 0
  deriving DecidableEq, Repr

/-- Payload of a HELLO (14 R378). -/
structure HelloMsg where
  fuse   : BitVec 128
  nonce  : Word
  warm   : BitVec 32
  port   : Fin 32
  group  : Fin 8
  opens  : Bool
  reply  : Bool
  pending : Bool
  src    : Fin 2048
  dst    : Fin 2048
  epoch  : BitVec 32
  count  : Word
  /-- addresses of the sender and of the datagram, and its UDP port (14 R370): the IPv4 broadcast address unless given -/
  ip     : Nat := 0
  dest   : Nat := 0xFFFFFFFFFFFF
  dport  : BitVec 16 := 47130
  deriving DecidableEq, Repr

/-- What issued a move: a flyer instruction with its token, or a MOVE descriptor (08 "Flyers"). -/
inductive Origin where
  | instr (sp : Fin 136) (t : Fin 16)
  | desc (q : Fin 4096) (seq : Nat)
  deriving DecidableEq, Repr

/-- What the other side of an adoption holds (15 R426): the epoch, and of a group the step of its `EPOCH_STEP`. -/
structure GroupEpoch where
  epoch : BitVec 32
  step  : BitVec 32 := 0
  deriving DecidableEq, Repr

/-- A member's part of a signature round (15 R406), with the `EPOCH` that the member holds: the master's counts (R412). -/
structure SigPart where
  member : Fin 64
  cop    : Nat
  count  : Nat
  fmt    : Nat
  alg    : Nat
  root   : Nat
  step   : Nat
  crc    : Option Word
  epoch  : BitVec 32 := 0
  deriving DecidableEq, Repr

/-- A member's contribution to a skip-step decision (15 R413). -/
structure SkipPart where
  member : Fin 64
  step   : Nat
  nb     : Nat
  skip   : Bool
  map    : List Byte
  deriving DecidableEq, Repr

/-- A member's contribution to a digest comparison (15 R414). -/
structure DigestPart where
  member : Fin 64
  shard  : Nat
  step   : Nat
  mask   : Nat
  planes : Nat
  entries : List Byte
  deriving DecidableEq, Repr

/-- A member's configuration as exchanged with the master (15 R398, R403). -/
structure GroupPart where
  member  : Fin 64
  group   : Nat
  members : Nat
  nodeLog2 : Nat
  bucketLog2 : Nat
  deriving DecidableEq, Repr

/-- What the treadle has measured when it divides the cap (17 R464, R465): powers in mW of the work that no phase has
taught, those of skeins at 2.0 GHz, and the queued work of each skein; and of the tagged work in flight its phase, the stacks
it touches and the hundreds of Gb/s it carries. -/
structure GrantIn where
  reserved : Nat
  stackMw : Nat
  linkMw  : Nat
  skeins  : List Nat
  distaff : Nat
  work    : List Nat
  tagged  : List (Fin 256 × Nat × Nat) := []
  deriving DecidableEq, Repr

/-- What the temperature sensors read in °C, before the offsets of the trim table: four of each skein, skein by skein, two of
the I/O die, one of each base die (17 R473, 18 R493; log 164). -/
structure ThermIn where
  skeins : List Nat
  io     : List Nat
  bases  : List Nat
  deriving DecidableEq, Repr

/-- The levels that hold the device in reset besides RESET_N: whether the reference is there, whether every rail has been in
range for 1 ms, and TEST_EN (19 R519, R530). -/
structure PowerGood where
  refclk : Bool
  rails  : Bool := true
  testEn : Bool := false
  deriving DecidableEq, Repr

/-- A power state of a skein or of the device (17 R471). -/
inductive PwrUnit where
  | p1 (k : Fin 8)
  | p2 (k : Fin 8)
  | p3
  | p4
  deriving DecidableEq, Repr

/-- The credential that a session's requester proves (16 R449). -/
inductive Cred where
  | none | operator | tenant
  deriving DecidableEq, Repr

/-- A TAP instruction, EXTEST and SAMPLE/PRELOAD with what they shift into the boundary cells (16 R451); or a level of
TRST_N (19 R526). -/
inductive Tap where
  | bypass | idcode
  | sample (cells : Nat)
  | extest (cells : Nat)
  | priv (n : Nat)
  | trst (high : Bool)
  deriving DecidableEq, Repr

/-- What the board configuration block sets (18 R485): the port mode, `PMD` by port, CXL bifurcation, `SCRUB_MODE`,
`WAKE_EN`, the SMBus target address, the PMBus address of each regulator and the AVSBus interface and rail select of each rail
(17 R459, 19 R526), and where it sets them `TWINE_CFG` and the IPv4 and IPv6 addresses of the port groups (14 R395). -/
structure BoardCfg where
  mode   : Nat
  pmd    : List Nat
  bifur  : Bool
  scrub  : Bool
  wakeEn : BitVec 32
  sbAddr : BitVec 7
  twine  : Option Word := none
  addrs  : List (Option Nat × Option Nat) := []
  pmbus  : List Nat := []
  avs    : List (Nat × Nat) := []
  deriving DecidableEq, Repr

/-- A copy of the board configuration block as the flash holds it, and the CRC-32C it ends in (18 R483, R485). -/
structure CfgCopy where
  cfg : BoardCfg
  crc : BitVec 32
  deriving DecidableEq, Repr

/-- What finishes in a bring-up (18 R484, R488, R490): the boot ROM has read the flash, image slots that do not read back marked
in `misread`, with the copies of the configuration block, and the trim store, lost copies marked; no flash answers; a stack
trains with the channels that pass, or not at all; a skein's self-test ends with the spindles and flyers that pass; the far tier
is enumerated. -/
inductive Boots where
  | firmware (misread : BitVec 2) (copies : List CfgCopy) (trimLost : BitVec 2)
  | recovery
  | stack (k : Fin 8) (channels : BitVec 32)
  | skein (k : Fin 8) (spindles : BitVec 17) (flyers : BitVec 4)
  | cxl (gib0 gib1 : Nat) (kept : BitVec 2)
  deriving DecidableEq, Repr

/-- A unit that UNIT_CTRL names (18 R512). -/
inductive UnitRef where
  | spindle (p : Fin 136)
  | flyer (k : Fin 8) (f : Fin 4)
  | channel (c : Fin 256)
  | port (p : Fin 32)
  | other (unit index : Nat)
  deriving DecidableEq, Repr

/-- The commands of the block, in the order of the table. -/
inductive Instr where
  -- 07 R171 to R175: scalar class
  | add (h : Hdr) (rd ra rb : Fin 32)
  | sub (h : Hdr) (rd ra rb : Fin 32)
  | and (h : Hdr) (rd ra rb : Fin 32)
  | or (h : Hdr) (rd ra rb : Fin 32)
  | xor (h : Hdr) (rd ra rb : Fin 32)
  | sll (h : Hdr) (rd ra rb : Fin 32)
  | srl (h : Hdr) (rd ra rb : Fin 32)
  | sra (h : Hdr) (rd ra rb : Fin 32)
  | mul (h : Hdr) (rd ra rb : Fin 32)
  | mulhu (h : Hdr) (rd ra rb : Fin 32)
  | min (h : Hdr) (rd ra rb : Fin 32)
  | max (h : Hdr) (rd ra rb : Fin 32)
  | minu (h : Hdr) (rd ra rb : Fin 32)
  | maxu (h : Hdr) (rd ra rb : Fin 32)
  | addi (h : Hdr) (rd ra : Fin 32) (imm : BitVec 32)
  | andi (h : Hdr) (rd ra : Fin 32) (imm : BitVec 32)
  | ori (h : Hdr) (rd ra : Fin 32) (imm : BitVec 32)
  | xori (h : Hdr) (rd ra : Fin 32) (imm : BitVec 32)
  | slli (h : Hdr) (rd ra : Fin 32) (sh : Fin 64)
  | srli (h : Hdr) (rd ra : Fin 32) (sh : Fin 64)
  | srai (h : Hdr) (rd ra : Fin 32) (sh : Fin 64)
  | movi (h : Hdr) (rd : Fin 32) (imm : BitVec 32)
  | movhi (h : Hdr) (rd ra : Fin 32) (imm : BitVec 32)
  | cmpEq (h : Hdr) (pd : Fin 8) (ra : Fin 32) (b : CmpSrc)
  | cmpNe (h : Hdr) (pd : Fin 8) (ra : Fin 32) (b : CmpSrc)
  | cmpLt (h : Hdr) (pd : Fin 8) (ra : Fin 32) (b : CmpSrc)
  | cmpGe (h : Hdr) (pd : Fin 8) (ra : Fin 32) (b : CmpSrc)
  | cmpLtu (h : Hdr) (pd : Fin 8) (ra : Fin 32) (b : CmpSrc)
  | cmpGeu (h : Hdr) (pd : Fin 8) (ra : Fin 32) (b : CmpSrc)
  | pand (h : Hdr) (pd pa pb : Fin 8)
  | por (h : Hdr) (pd pa pb : Fin 8)
  | pxor (h : Hdr) (pd pa pb : Fin 8)
  | pnot (h : Hdr) (pd pa : Fin 8)
  | ld1 (h : Hdr) (rd ra : Fin 32) (off : BitVec 32)
  | ld2 (h : Hdr) (rd ra : Fin 32) (off : BitVec 32)
  | ld4 (h : Hdr) (rd ra : Fin 32) (off : BitVec 32)
  | ld8 (h : Hdr) (rd ra : Fin 32) (off : BitVec 32)
  | ld1u (h : Hdr) (rd ra : Fin 32) (off : BitVec 32)
  | ld2u (h : Hdr) (rd ra : Fin 32) (off : BitVec 32)
  | ld4u (h : Hdr) (rd ra : Fin 32) (off : BitVec 32)
  | st1 (h : Hdr) (rs ra : Fin 32) (off : BitVec 32)
  | st2 (h : Hdr) (rs ra : Fin 32) (off : BitVec 32)
  | st4 (h : Hdr) (rs ra : Fin 32) (off : BitVec 32)
  | st8 (h : Hdr) (rs ra : Fin 32) (off : BitVec 32)
  -- 07 R176 to R179: branch and system classes
  | br (h : Hdr) (off : BitVec 32)
  | bdec (h : Hdr) (ra : Fin 32) (off : BitVec 32)
  | call (h : Hdr) (off : BitVec 32)
  | jr (h : Hdr) (ra : Fin 32)
  | ret (h : Hdr)
  | nop (h : Hdr)
  | endShare (h : Hdr)
  | brk (h : Hdr) (code : BitVec 8)
  | csrr (h : Hdr) (rd : Fin 32) (csr : BitVec 12)
  | csrw (h : Hdr) (csr : BitVec 12) (ra : Fin 32)
  -- 07 R180: matrix class
  | ldw (h : Hdr) (m : Fin 2) (ra : Fin 32) (fb : Fmt) (scb : Bool)
  | mma (h : Hdr) (c : Fin 4) (m : Fin 2) (ra : Fin 32) (mr : Num7) (mode : MmaMode)
      (fa : Fmt) (sca : Bool) (fb : Fmt) (scb : Bool)
  -- 07 R181 to R184: vector class
  | vadd (h : Hdr) (vd va : Fin 32) (vb : VSrc) (f : Fmt) (rm : RM) (np : Bool)
  | vmul (h : Hdr) (vd va : Fin 32) (vb : VSrc) (f : Fmt) (rm : RM) (np : Bool)
  | vfma (h : Hdr) (vd va : Fin 32) (vb : VSrc) (vc : Fin 32) (f : Fmt) (rm : RM) (np nc : Bool)
  | vmin (h : Hdr) (vd va : Fin 32) (vb : VSrc) (f : Fmt)
  | vmax (h : Hdr) (vd va : Fin 32) (vb : VSrc) (f : Fmt)
  | vcvt (h : Hdr) (vd va vb : Fin 32) (f f2 : Fmt) (rm : RM) (satInf np : Bool) (ix : Fin 32)
  | vexp2 (h : Hdr) (vd va : Fin 32) (f : Fmt) (rm : RM) (ix : Fin 32)
  | vlog2 (h : Hdr) (vd va : Fin 32) (f : Fmt) (rm : RM) (ix : Fin 32)
  | vrcp (h : Hdr) (vd va : Fin 32) (f : Fmt) (rm : RM) (ix : Fin 32)
  | vrsq (h : Hdr) (vd va : Fin 32) (f : Fmt) (rm : RM) (ix : Fin 32)
  | vtanh (h : Hdr) (vd va : Fin 32) (f : Fmt) (rm : RM) (ix : Fin 32)
  | vsin (h : Hdr) (vd va : Fin 32) (f : Fmt) (rm : RM) (ix : Fin 32)
  | vcos (h : Hdr) (vd va : Fin 32) (f : Fmt) (rm : RM) (ix : Fin 32)
  | vsig (h : Hdr) (vd va : Fin 32) (f : Fmt) (rm : RM) (ix : Fin 32)
  | vgelu (h : Hdr) (vd va : Fin 32) (f : Fmt) (rm : RM) (ix : Fin 32)
  | vsilu (h : Hdr) (vd va : Fin 32) (f : Fmt) (rm : RM) (ix : Fin 32)
  | vrd (h : Hdr) (vd : Fin 32) (c : Fin 4) (row : Num7)
  | vwr (h : Hdr) (c : Fin 4) (row : Num7) (vs : Fin 32)
  | vscr (h : Hdr) (c : Fin 4) (vs : Fin 32)
  | vld (h : Hdr) (vd ra : Fin 32) (off : BitVec 16)
  | vst (h : Hdr) (vs ra : Fin 32) (off : BitVec 16)
  -- 07 R185: row unit
  | smaxP1 (h : Hdr) (c : Fin 4) (n : Num7) (sc : Fin 32) (mask : Mask) (init : Bool)
  | smaxP2 (h : Hdr) (cd ct : Fin 4) (n : Num7) (sc : Fin 32) (mask : Mask) (raw : Bool)
  | smaxFac (h : Hdr) (vd : Fin 32)
  | smaxLse (h : Hdr) (vd : Fin 32)
  | smaxMerge (h : Hdr) (va vb : Fin 32)
  | rstatP1 (h : Hdr) (c : Fin 4) (n : Num7) (init : Bool)
  | rstatP2 (h : Hdr) (c : Fin 4) (n : Num7)
  | rstatGet (h : Hdr) (vd : Fin 32) (q : Stat)
  | rnormLn (h : Hdr) (cd ct : Fin 4) (n : Num7) (se : Fin 32)
  | rnormRms (h : Hdr) (cd ct : Fin 4) (n : Num7) (se : Fin 32)
  | rdot (h : Hdr) (vd : Fin 32) (ca cb : Fin 4) (n : Num7)
  | rsum (h : Hdr) (vd : Fin 32) (ca : Fin 4) (n : Num7)
  | rsave (h : Hdr) (ra : Fin 32)
  | rload (h : Hdr) (ra : Fin 32)
  -- 07 R186 to R188: quantiser
  | emov (h : Hdr) (k : Fin 8) (ra : Fin 32)
  | emovs (h : Hdr) (rd : Fin 32) (k : Fin 8)
  | eadd (h : Hdr) (k j : Fin 8) (imm : BitVec 8)
  | qnt (h : Hdr) (ra vs : Fin 32) (fmt : Fmt) (rm : RM) (satInf : Bool) (g : Gran) (ix : Fin 32)
  | qntt (h : Hdr) (ra : Fin 32) (ct : Fin 4) (n : Num7) (fmt : Fmt) (rm : RM) (satInf : Bool)
      (g : Gran) (ix : Fin 32)
  | qexp (h : Hdr) (dst : QDst) (ct : Fin 4) (n : Num7) (fmt : Fmt)
  | dqnt (h : Hdr) (ct : Fin 4) (ra : Fin 32) (n : Num7) (fmt : Fmt) (g : Gran)
  | qgrad (h : Hdr) (cd cx cg : Fin 4) (n : Num7) (va : Fin 32) (fmt : Fmt) (rm : RM)
      (satInf : Bool) (g : Gran) (ix : Fin 32)
  | rsc (h : Hdr) (ra : Fin 32) (ct : Fin 4) (n : Num7) (fmt : Fmt) (rm : RM) (g : GTag)
      (vm vs : Fin 32)
  -- 07 R189 to R193: flyer and sync classes
  | fmv (h : Hdr) (f : Fl)
  | fadd (h : Hdr) (f : Fl)
  | ffill (h : Hdr) (t : Fin 16) (sd sv sn : Fin 32) (fs fd : Fmt) (hint : Hint)
  | twait (h : Hdr) (t : Fin 16)
  | tpoll (h : Hdr) (pd : Fin 8) (t : Fin 16)
  | tstat (h : Hdr) (rd : Fin 32) (t : Fin 16)
  | sfence (h : Hdr)
  | cread (h : Hdr) (rd ra : Fin 32)
  | cwait (h : Hdr) (ra rb : Fin 32)
  -- 08, 06: units of a spindle and moves
  | ldwLoadDone (p : Fin 136)
  | mmaStart (p : Fin 136)
  | mmaCommit (p : Fin 136)
  | vectorResultWrite (p : Fin 136)
  | rowUnitComplete (p : Fin 136)
  | quantiserComplete (p : Fin 136)
  | exceptionTaken (p : Fin 136)
  | saveImageFreed (p : Fin 136)
  | shareEnd (p : Fin 136)
  | shareLaunch (q : Fin 4096) (p : Fin 136)
  | flyerMoveComplete (k : Fin 8) (f : Fin 4) (hanks : Nat)
  | moveDeadlineExpiry (o : Origin) (hanks : Nat) (readDone : Bool)
  -- 00 R11 to R14: writes of the lease holder
  | registerWrite (off : Nat) (v : Word)
  | creelQuotaCommit
  | memErrCommit
  | queueCommit (q : Fin 4096)
  | ethCommit
  | strandCommit (n : Fin 2048)
  | twineCommit
  | peerCommit
  | plyCommit (k : Fin 8)
  | pwrCommit
  | scrubCommit
  | mapOut (c : Fin 256)
  | rebuild
  | farReenable (i : Fin 2)
  | keepWaysWrite (k : Fin 8) (w : Fin 16)
  | queueDrain (q : Fin 4096)
  | queueRelease (q : Fin 4096)
  | resetSeq (q : Fin 4096)
  | strandClose (n : Fin 2048)
  | plyFail (k : Fin 8) (m : Fin 64)
  | cancelPace (k : Fin 8)
  | wakeEnWrite (v : Word)
  | fwStage
  | fwStageDone (same : Bool)
  | fwConfirm
  | fwCancel
  | trimWrite
  | trimWriteDone
  | mgmtStop (stop : Bool)
  | warm
  | warmResetResume
  | mgmtRestart
  | mgmtRestartEnd
  | faultAck (slot : Fin 256)
  | retire (u : UnitRef)
  | restore (u : UnitRef)
  | restoreSelftestDone (pass : Bool)
  | mapChangeApply (k : Fin 8)
  -- 12: doorbells, dispatch and completion
  | doorbell (h : FrameHdr) (q : Fin 4096) (drain release : Bool) (tail : Word)
  | acceptanceResume (q : Fin 4096)
  | kernel (q : Fin 4096)
  | copy (q : Fin 4096)
  | moveAdd (q : Fin 4096)
  | fill (q : Fin 4096)
  | bind (q : Fin 4096)
  | evictionComplete (k : Fin 8)
  | bindFill (q : Fin 4096) (slot : Fin 64) (sector : Nat)
  | flush (q : Fin 4096)
  | moveRelease (q : Fin 4096)
  | pin (q : Fin 4096)
  | unpin (q : Fin 4096)
  | rmaWrite (q : Fin 4096)
  | rmaWriteFlagged (q : Fin 4096)
  | rmaRead (q : Fin 4096)
  | rmaAtomicAdd (q : Fin 4096)
  | allReduce (q : Fin 4096)
  | reduceScatter (q : Fin 4096)
  | allGather (q : Fin 4096)
  | broadcast (q : Fin 4096)
  | allToAll (q : Fin 4096)
  | barrier (q : Fin 4096)
  | checkpointBarrier (q : Fin 4096)
  | adamw (q : Fin 4096)
  | lion (q : Fin 4096)
  | sgdWithMomentum (q : Fin 4096)
  | check (q : Fin 4096)
  | digest (q : Fin 4096)
  | wait (q : Fin 4096)
  | fence (q : Fin 4096)
  | mark (q : Fin 4096)
  | tableUpdate (q : Fin 4096)
  | resume (q : Fin 4096)
  | tableUpdateApply (q : Fin 4096)
  | tableUpdateComplete (q : Fin 4096)
  | sweepUnitDone (q : Fin 4096) (k : Fin 8)
  | sweepComplete (q : Fin 4096)
  | sweepRecovery (k : Fin 8)
  | descriptorComplete (q : Fin 4096) (spin stack net : Nat)
  | drainComplete (q : Fin 4096)
  | tally (h : FrameHdr) (id : BitVec 32)
  | tallyFreeze
  | mirrorRebuildComplete
  -- 09, 10, 01: events of memory and units
  | patrolScrub (c : Fin 256) (ces : Nat) (ues : List Nat)
  | channelFault (c : Fin 256)
  | migrationGranuleCopy (ues : List Nat)
  | migrationEnd
  | channelRestoreJoin (c : Fin 256)
  | stackLost (k : Fin 8)
  | cxlLinkDrop (i : Fin 2)
  | cxlRetrain (i : Fin 2) (up : Bool)
  | distaffFail (c : Fin 256)
  | spindleFail (p : Fin 136)
  | flyerFail (k : Fin 8) (f : Fin 4)
  | d2dLinkRetry
  | refclkLoss
  -- 14: Twine frames and timers
  | write (h : FrameHdr) (addr : Word) (data : List Byte)
  | writeFlagged (h : FrameHdr) (addr : Word) (data : List Byte)
  | read (h : FrameHdr) (addr : Word) (len : BitVec 32)
  | readResp (h : FrameHdr) (addr : Word) (data : List Byte)
  | atomicAdd (h : FrameHdr) (aty : Fin 8) (fetch : Bool) (addr : Word) (data : List Byte)
  | ack (h : FrameHdr) (bits : List (Fin 1024)) (sts : List (BitVec 32 × BitVec 8))
  | ackDelayExpiry (n : Fin 2048)
  | frameTransmit (n : Fin 2048)
  | retransmitTimeout (n : Fin 2048)
  | pathLostExpiry (n : Fin 2048)
  | warmHoldExpiry (n : Fin 2048)
  | hello (p : Fin 32) (m : HelloMsg)
  | helloTimer (p : Fin 32)
  | openingHelloTimer (n : Fin 2048)
  | keyPhaseAdvance (n : Fin 2048)
  | oldKeyPhaseExpiry (n : Fin 2048)
  | reservedTypeFrame (p : Fin 32)
  | wake (p : Fin 32) (magic genuine : Bool) (ctr : Word)
  | lag (h : FrameHdr) (w0 w1 : Word)
  | lagTrigger (k : Fin 8) (dur : BitVec 16) (recovered : Bool)
  | pace (h : FrameHdr) (w0 w1 : Word)
  | paceExpiry (k : Fin 8)
  -- 16: attestation, sessions, authorisations
  | getVersion
  | getCapabilities
  | negotiateAlgorithms (supported : Bool)
  | getDigests
  | getCertificate (slot : Nat)
  | challenge (nonce : BitVec 256)
  | getMeasurements (index : Nat)
  | keyExchange (id : Nat) (cred : Cred)
  | finish (id : Nat)
  | endSession (id : Nat)
  | keyUpdate (id : Nat)
  | heartbeat (id : Nat)
  | sessionIdleTimeout (id : Nat)
  | leaseRequest (id : Nat) (epoch : BitVec 32) (ctrl : BitVec 16)
  | wakeKeyFetch (id : Nat)
  | submit (session : Option Nat) (bytes : List Byte)
  | tenancyOnSet
  | tenancyKeyErase
  | scrubEnd
  | keyRewriteDrained (slot : Fin 4)
  | transitOldExpiry
  -- 13: ports
  | portDown (p : Fin 32)
  | portLinkUp (p : Fin 32)
  | portJoin (p : Fin 32)
  | trainingRestart (p : Fin 32)
  | portFail (p : Fin 32)
  | arpRequest (p : Fin 32) (ip : Nat) (v6 : Bool)
  | lldpduReceive (p : Fin 32) (ttl : Nat) (data : List Byte)
  | lldpTimer (p : Fin 32)
  | lldpTtlExpiry (p : Fin 32)
  | pauseFrame (p : Fin 32) (pfc : Bool) (prios : BitVec 8) (quanta : BitVec 16)
  | pauseExpiry (p : Fin 32) (prios : BitVec 8)
  | otherFrameDiscard (p : Fin 32)
  | xoffResend (p : Fin 32) (bytes : Nat)
  | xon (p : Fin 32) (bytes : Nat)
  | pauseStorm (p : Fin 32)
  | stormEnd (p : Fin 32)
  -- 15: ply groups
  | groupReady (k : Fin 8) (parts : List GroupPart)
  | signatureRoundComplete (k : Fin 8) (parts : List SigPart)
  | collectiveChunkAcked (k : Fin 8) (data : List Byte)
  | skipDecision (k : Fin 8) (parts : List SkipPart)
  | digestComparison (k : Fin 8) (parts : List DigestPart)
  | memberFail (k : Fin 8) (m : Fin 64)
  | adoptionAdmit (k : Fin 8) (epoch : GroupEpoch)
  -- 17: power, clocks, temperature
  | estimatorSample (r : Fin 7) (amps : Nat) (skeins : BitVec 8)
  | dividerStepDown (r : Fin 7) (amps : Nat)
  | stretchEnd (k : Fin 8)
  | droopDetect (k : Fin 8)
  | regulatorRead (r : Fin 7) (amps mv est : Nat)
  | statusWordPoll (faults : BitVec 7)
  | regulatorFaultCleared
  | inletPoll (temp : Option (BitVec 8))
  | readingsMissing (r : Fin 7)
  | grantTick (g : GrantIn)
  | burstExpiry
  | energyAttribution (skeins : List Nat) (served : List (Nat × List (Fin 4096 × Nat × Nat))) (idle : Nat)
  | powerStateEntry (u : PwrUnit)
  | powerStateExit (u : PwrUnit)
  | thermalThreshold (t : ThermIn)
  | thermalStepTimer (k : Fin 8)
  | thermtrip
  | airFaultAssert
  | airFaultPowerDown
  | airFaultClear
  | overrideExpiry
  -- 18, 19: resets, bring-up, sideband, pins
  | coldReset
  | resetNRise (pins : PowerGood)
  | whorlLockRetry (pins : PowerGood)
  | bringupPhaseAdvance (e : Boots)
  | fullService
  | mgmtWatchdogExpiry
  | testEnHigh
  | sbId (pec : Bool)
  | sbStatus (pec : Bool)
  | sbPower (pec : Bool)
  | sbTemp (pec : Bool)
  | sbCap (pec : Bool) (w : Option (BitVec 16))
  | sbRun (pec : Bool) (w : Option (BitVec 8))
  | sbWake (pec : Bool) (v : BitVec 8)
  | sbWarmReset (pec : Bool) (v : BitVec 8)
  | sbMgmtRestart (pec : Bool) (v : BitVec 8)
  | sbFault (pec : Bool)
  | sbEvents (pec : Bool) (w : Option (BitVec 16))
  | sbRecovery (pec : Bool) (data : List Byte)
  | smbusLineHeld (clk : Bool)
  | pmbusLineHeld
  | packagePowerLoss
  -- rows after the table's first listing
  | malformedBundle (p : Fin 136) (ws : List (BitVec 64))
  | fcsBadFrame (p : Fin 32) (fec : Bool)
  | airFaultRise (short : Bool)
  | tapInstruction (i : Tap)
  | powerStateExitDone (u : PwrUnit)
  | otherSidebandCode (code : BitVec 8)
  deriving DecidableEq, Repr

end Sys2Proof
end

