-- ==== Sys2Proof/Types.lean ====
section
/-!
DEFINITION. Values the state and the arithmetic share: exact numbers, the sticky flags, row-state
entries, device statuses.
-/

namespace Sys2Proof

/-- An exact value: NaN, a signed infinity, or plus or minus `m` times two to the `e`. Every finite
value of the formats of 02 R36, every product and every sum of them is of this form. -/
inductive Ext where
  | nan
  | inf (neg : Bool)
  | fin (neg : Bool) (m : Nat) (e : Int)
  deriving DecidableEq, Repr, Inhabited

/-- The four sticky flags (02 R61). -/
structure Flags where
  nv : Bool := false
  ovf : Bool := false
  uf : Bool := false
  msk : Bool := false
  deriving DecidableEq, Repr, Inhabited

/-- A number in the wide format (04 R98): a pair of FP32 significands with one exponent of 10 bits, biased so that
magnitudes run to two to the 511 (log 20). -/
structure Wide where
  neg : Bool := false
  hi  : BitVec 24 := 0
  lo  : BitVec 24 := 0
  exp : BitVec 10 := 0
  deriving DecidableEq, Repr, Inhabited

/-- One entry of the row-state file (04 R98). STAT marks the NaN and the infinities of its row. -/
inductive RowEntry where
  | empty
  | smax (m s f : Lane)
  | stat (mx mn : Lane) (n : BitVec 32) (sum sq : Wide) (mean : Option Lane) (dev : Wide) (nan pinf ninf : Bool)
  deriving DecidableEq, Repr, Inhabited

/-- Device-wide statuses (00 R15). -/
inductive Status where
  | ok | faulted | interrupted | access | page | keyErased | pathLost | deadline
  | digestMismatch | refused | format | quota | staleGeneration
  deriving DecidableEq, Repr, Inhabited

/-- The code of a status (00 R15). -/
def Status.code : Status → Nat
  | .ok => 0x00
  | .faulted => 0x01
  | .interrupted => 0x02
  | .access => 0x03
  | .page => 0x04
  | .keyErased => 0x05
  | .pathLost => 0x06
  | .deadline => 0x07
  | .digestMismatch => 0x08
  | .refused => 0x09
  | .format => 0x0A
  | .quota => 0x0B
  | .staleGeneration => 0x0C

/-- Who a queue, a kernel or a strand belongs to (08 R198, 12 R310). -/
inductive Owner where
  | controller | tenant
  deriving DecidableEq, Repr, Inhabited

end Sys2Proof
end

