-- ==== Sys2Proof/Machine/Num.lean ====
section
/-!
DEFINITION. The number formats of 02: decoding, rounding, conversion, the twist generator and exact
arithmetic on the values of `Ext`.
-/

namespace Sys2Proof

/-! ## Flags -/

/-- Flags set by either of two causes. -/
def Flags.or (a b : Flags) : Flags :=
  ⟨a.nv || b.nv, a.ovf || b.ovf, a.uf || b.uf, a.msk || b.msk⟩

def noFlags : Flags := {}
def flagNV : Flags := { nv := true }
def flagOF : Flags := { ovf := true }
def flagUF : Flags := { uf := true }
def flagMK : Flags := { msk := true }

/-- A flag set when the condition holds. -/
def Flags.when (f : Flags) (c : Bool) : Flags := if c then f else noFlags

/-! ## Format codes -/

/-- The 4-bit code of a format (02 R36). -/
def fmtCode : Fmt → Nat
  | .fp32 => 0 | .bf16x2 => 1 | .bf16 => 2 | .fp16 => 3 | .e4m3 => 4 | .e5m2 => 5 | .e3m2 => 6
  | .e2m3 => 7 | .e2m1 => 8 | .e8m0 => 9 | .i32 => 10 | .i16 => 11 | .i8 => 12 | .u8 => 13
  | .i4 => 14 | .rsv => 15

/-- The format of a 4-bit code (02 R36). -/
def fmtOf (n : Nat) : Fmt :=
  [Fmt.fp32, .bf16x2, .bf16, .fp16, .e4m3, .e5m2, .e3m2, .e2m3, .e2m1, .e8m0, .i32, .i16, .i8,
    .u8, .i4].getD n .rsv

/-- Width of a format in bits (02 R36). -/
def fmtWidth : Fmt → Nat
  | .fp32 | .bf16x2 | .i32 => 32
  | .bf16 | .fp16 | .i16 => 16
  | .e4m3 | .e5m2 | .e8m0 | .i8 | .u8 => 8
  | .e3m2 | .e2m3 => 6
  | .e2m1 | .i4 => 4
  | .rsv => 8

/-- The rounding mode of a 2-bit code (02 R49). -/
def rmOf (n : Nat) : RM :=
  match n with
  | 0 => .rne | 1 => .rtz | 2 => .sr | _ => .rha

/-- FP8, FP6 and FP4: the formats that may carry block scales (02 R44). -/
def fmtScalable : Fmt → Bool
  | .e4m3 | .e5m2 | .e3m2 | .e2m3 | .e2m1 => true
  | _ => false

/-- INT32 to INT4. -/
def fmtInt : Fmt → Bool
  | .i32 | .i16 | .i8 | .u8 | .i4 => true
  | _ => false

/-- A binary floating-point format (02 R36): mantissa bits, bias, width, the magnitude code of the
largest finite value, and those of infinity and of the canonical NaN (02 R48). -/
structure FPar where
  mb    : Nat
  bias  : Nat
  width : Nat
  maxC  : Nat
  infC  : Option Nat
  nanC  : Option Nat

def fpar32 : FPar := ⟨23, 127, 32, 0x7F7FFFFF, some 0x7F800000, some 0x7FC00000⟩
def fparB16 : FPar := ⟨7, 127, 16, 0x7F7F, some 0x7F80, some 0x7FC0⟩

/-- The parameters of the floating-point formats; `none` for the others. -/
def fpar : Fmt → Option FPar
  | .fp32 => some fpar32
  | .bf16 => some fparB16
  | .fp16 => some ⟨10, 15, 16, 0x7BFF, some 0x7C00, some 0x7E00⟩
  | .e4m3 => some ⟨3, 7, 8, 0x7E, none, some 0x7F⟩
  | .e5m2 => some ⟨2, 15, 8, 0x7B, some 0x7C, some 0x7E⟩
  | .e3m2 => some ⟨2, 3, 6, 0x1F, none, none⟩
  | .e2m3 => some ⟨3, 1, 6, 0x1F, none, none⟩
  | .e2m1 => some ⟨1, 1, 4, 0x7, none, none⟩
  | _ => none

/-! ## Exact values -/

/-- Plus zero. -/
def Ext.zero : Ext := .fin false 0 0

/-- An integer as an exact value. -/
def Ext.ofInt (i : Int) : Ext := .fin (i < 0) i.natAbs 0

/-- Two to the `e`. -/
def Ext.pow2 (e : Int) : Ext := .fin false 1 e

def Ext.isNan : Ext → Bool
  | .nan => true
  | _ => false

def Ext.isInf : Ext → Bool
  | .inf _ => true
  | _ => false

def Ext.isZero : Ext → Bool
  | .fin _ m _ => m == 0
  | _ => false

def Ext.isNeg : Ext → Bool
  | .nan => false
  | .inf n => n
  | .fin n _ _ => n

def Ext.neg : Ext → Ext
  | .nan => .nan
  | .inf n => .inf (!n)
  | .fin n m e => .fin (!n) m e

def Ext.abs : Ext → Ext
  | .nan => .nan
  | .inf _ => .inf false
  | .fin _ m e => .fin false m e

/-- A value times two to the `k`. -/
def Ext.scale (x : Ext) (k : Int) : Ext :=
  match x with
  | .fin n m e => .fin n m (e + k)
  | y => y

/-- A finite value as an integer number of units of two to the `u`, `u` at most its exponent. -/
def unitsAt (n : Bool) (m : Nat) (e u : Int) : Int :=
  let k : Int := m * 2 ^ natOf (e - u)
  if n then -k else k

/-- The exact sum. Opposite infinities create a NaN; an exact zero of unlike signs is +0 (02 R48,
IEEE 754 under RNE and RTZ). -/
def Ext.add (a b : Ext) : Ext :=
  match a, b with
  | .nan, _ => .nan
  | _, .nan => .nan
  | .inf x, .inf y => if x == y then .inf x else .nan
  | .inf x, _ => .inf x
  | _, .inf y => .inf y
  | .fin n m e, .fin n' m' e' =>
    let u := min e e'
    let k := unitsAt n m e u + unitsAt n' m' e' u
    if k = 0 then .fin (n && n') 0 0 else .fin (k < 0) k.natAbs u

/-- The exact product. Zero times infinity creates a NaN (02 R48). -/
def Ext.mul (a b : Ext) : Ext :=
  match a, b with
  | .nan, _ => .nan
  | _, .nan => .nan
  | .inf x, .inf y => .inf (x != y)
  | .inf x, .fin n m _ => if m = 0 then .nan else .inf (x != n)
  | .fin n m _, .inf x => if m = 0 then .nan else .inf (x != n)
  | .fin n m e, .fin n' m' e' => .fin (n != n') (m * m') (e + e')

/-- NV: a NaN made from operands of which none is a NaN (02 R48, R61). -/
def madeNan (r : Ext) (ops : List Ext) : Flags :=
  flagNV.when (r.isNan && !ops.any Ext.isNan)

/-- The quotient, to 256 bits below its leading bit with a sticky bit: any later rounding of it is
the rounding of the exact quotient. Division by a positive natural number. -/
def Ext.divNat (a : Ext) (d : Nat) : Ext :=
  match a with
  | .fin n m e =>
    if d = 0 then .nan else
    let k := 256 + Nat.log2 (d + 1)
    let q := m * 2 ^ k / d
    let st := if m * 2 ^ k % d = 0 then 0 else 1
    .fin n (2 * q + st) (e - k - 1)
  | y => y

/-- A quotient exact enough to be rounded once to FP32: 64 fraction bits and a sticky bit. -/
def Ext.quot (a b : Ext) : Ext :=
  match a, b with
  | .nan, _ => .nan
  | _, .nan => .nan
  | .inf _, .inf _ => .nan
  | .inf n, b => .inf (n != b.isNeg)
  | .fin n _ _, .inf m => .fin (n != m) 0 0
  | .fin n ma ea, .fin m mb eb =>
    if mb = 0 then (if ma = 0 then .nan else .inf (n != m)) else
    let k := 64 + Nat.log2 mb
    let q := ma * 2 ^ k / mb
    let st := b2n (ma * 2 ^ k % mb != 0)
    .fin (n != m) (2 * q + st) (ea - eb - k - 1)

/-- Binary digits of a square root, `k` of them to come. -/
def sqrtDigits (x : Nat) : Nat → Nat → Nat
  | 0, r => r
  | k + 1, r => sqrtDigits x k (if (r + 2 ^ k) * (r + 2 ^ k) ≤ x then r + 2 ^ k else r)

/-- The square root of a natural number, rounded down. -/
def isqrt (x : Nat) : Nat := sqrtDigits x (Nat.log2 x / 2 + 1) 0

/-- A square root exact enough to be rounded once to FP32. -/
def Ext.root (a : Ext) : Ext :=
  match a with
  | .nan => .nan
  | .inf n => if n then .nan else .inf false
  | .fin n m e =>
    if m = 0 then .fin n 0 0 else if n then .nan else
    let sh : Nat := if e % 2 = 0 then 128 else 129
    let x := m * 2 ^ sh
    let r := isqrt x
    .fin false (2 * r + b2n (r * r != x)) ((e - sh) / 2 - 1)

/-- Strict order of non-NaN values, with −0 below +0 (04 R89). -/
def Ext.lt (a b : Ext) : Bool :=
  match a, b with
  | .nan, _ => false
  | _, .nan => false
  | .inf x, .inf y => x && !y
  | .inf x, _ => x
  | _, .inf y => !y
  | .fin n m e, .fin n' m' e' =>
    let u := min e e'
    let k := unitsAt n m e u
    let k' := unitsAt n' m' e' u
    k < k' || (k == 0 && k' == 0 && n && !n')

/-- Equality of values, zeros of either sign being equal. -/
def Ext.same (a b : Ext) : Bool :=
  match a, b with
  | .nan, _ => false
  | _, .nan => false
  | .inf x, .inf y => x == y
  | .inf _, _ => false
  | _, .inf _ => false
  | .fin n m e, .fin n' m' e' =>
    let u := min e e'
    unitsAt n m e u == unitsAt n' m' e' u

/-- floor(log2) of a non-zero finite magnitude. -/
def topOf (m : Nat) (e : Int) : Int := e + Nat.log2 m

/-! ## Rounding -/

/-- Whether a discarded fraction `rem / 2^sh` above an integer `lo` rounds up (02 R49, R51). -/
def roundsUp (rm : RM) (r lo rem sh : Nat) : Bool :=
  match rm with
  | .rne => 2 * rem > 2 ^ sh || (2 * rem == 2 ^ sh && lo % 2 == 1)
  | .rtz => false
  | .sr => rem * 2 ^ 32 / 2 ^ sh + r ≥ 2 ^ 32
  | .rha => 2 * rem ≥ 2 ^ sh

/-- `m * 2^e` as a multiple of `2^q`: the rounded multiple and whether it differs. -/
def roundAt (rm : RM) (r m : Nat) (e q : Int) : Nat × Bool :=
  if q ≤ e then (m * 2 ^ natOf (e - q), false)
  else
    let sh := natOf (q - e)
    let lo := m / 2 ^ sh
    let rem := m % 2 ^ sh
    (if roundsUp rm r lo rem sh then lo + 1 else lo, rem != 0)

/-- The magnitude code of a finite magnitude in a floating-point format, with an unbounded exponent
field, and whether rounding changed it (02 R47, R50, R51). -/
def roundCode (p : FPar) (rm : RM) (r m : Nat) (e : Int) : Nat × Bool :=
  if m = 0 then (0, false) else
  let qmin : Int := 1 - (p.bias : Int) - p.mb
  let q := max (topOf m e - p.mb) qmin
  let (k, inx) := roundAt rm r m e q
  (natOf (q - qmin) * 2 ^ p.mb + k, inx)

/-- A value in a floating-point format (02 R48, R56, R57, R61). `toInf`: overflow and infinity keep
infinity where the format has it. -/
def encodeFP (p : FPar) (toInf : Bool) (rm : RM) (r : Nat) (x : Ext) : Nat × Flags :=
  let sgn (n : Bool) := if n then 2 ^ (p.width - 1) else 0
  let inf? := if toInf then p.infC else none
  match x with
  | .nan =>
    match p.nanC with
    | some c => (c, noFlags)
    | none => (p.maxC, flagNV)
  | .inf n =>
    match inf? with
    | some c => (sgn n + c, noFlags)
    | none => (sgn n + p.maxC, flagOF)
  | .fin n m e =>
    let (c, inx) := roundCode p rm r m e
    if c > p.maxC then
      match inf?, rm with
      | some i, .rne => (sgn n + i, flagOF)
      | some i, .sr => (sgn n + i, flagOF)
      | some i, .rha => (sgn n + i, flagOF)
      | _, _ => (sgn n + p.maxC, flagOF)
    else
      (sgn n + c, flagUF.when (inx && (topOf m e < 1 - (p.bias : Int))))

/-- The exact value of a code of a floating-point format (02 R36, R48). -/
def decodeFP (p : FPar) (c : Nat) : Ext :=
  let n : Bool := c / 2 ^ (p.width - 1) % 2 == 1
  let mag := c % 2 ^ (p.width - 1)
  if mag > p.maxC then
    if p.infC == some mag then .inf n else .nan
  else
    let ef := mag / 2 ^ p.mb
    let mf := mag % 2 ^ p.mb
    let qmin : Int := 1 - (p.bias : Int) - p.mb
    if ef = 0 then .fin n mf qmin else .fin n (mf + 2 ^ p.mb) (qmin + ef - 1)

/-- FP32 value of a lane. -/
def f32 (x : Lane) : Ext := decodeFP fpar32 x.toNat

/-- An exact value rounded once to FP32. -/
def toF32 (rm : RM) (r : Nat) (x : Ext) : Lane × Flags :=
  let (c, f) := encodeFP fpar32 true rm r x
  (BitVec.ofNat 32 c, f)

/-- Rounded to FP32 by RNE. -/
def rne32 (x : Ext) : Lane × Flags := toF32 .rne 0 x

/-- A signed number from the low `w` bits of a natural number. -/
def signedOf (w c : Nat) : Int :=
  if c % 2 ^ w < 2 ^ (w - 1) then (c % 2 ^ w : Int) else (c % 2 ^ w : Int) - 2 ^ w

/-- The range of an integer format (02 R36). -/
def intRange : Fmt → Int × Int
  | .i32 => (-2147483648, 2147483647)
  | .i16 => (-32768, 32767)
  | .i8 => (-128, 127)
  | .u8 => (0, 255)
  | _ => (-8, 7)

/-- Clamp to a range, and whether that changed the value. -/
def clampTo (lo hi i : Int) : Int × Bool :=
  if i < lo then (lo, true) else if hi < i then (hi, true) else (i, false)

/-- The exact value of an element of a format (02 R36, R40, R41). Only the low bits of the format's
width are read. -/
def decode (f : Fmt) (c : Nat) : Ext :=
  match f with
  | .bf16x2 =>
    let hi := decodeFP fparB16 (c / 2 ^ 16 % 2 ^ 16)
    let lo := decodeFP fparB16 (c % 2 ^ 16)
    match hi, lo with
    | .fin n _ _, .fin _ _ _ =>
      let s := hi.add lo
      if s.isZero then .fin n 0 0 else s
    | .fin _ _ _, _ => lo
    | _, _ => hi
  | .e8m0 =>
    let b := c % 256
    if b = 255 then .nan else .pow2 ((b : Int) - 127)
  | .i32 => .ofInt (signedOf 32 c)
  | .i16 => .ofInt (signedOf 16 c)
  | .i8 => .ofInt (signedOf 8 c)
  | .u8 => .ofInt (c % 256 : Nat)
  | .i4 => .ofInt (signedOf 4 c)
  | f =>
    match fpar f with
    | some p => decodeFP p (c % 2 ^ p.width)
    | none => .zero

/-- A finite value rounded to an integer by `rm` (02 R58). -/
def roundInt (rm : RM) (r : Nat) (n : Bool) (m : Nat) (e : Int) : Int :=
  let k : Int := (roundAt rm r m e 0).1
  if n then -k else k

/-- A value in an integer format (02 R57, R58, R59). -/
def encodeInt (f : Fmt) (rm : RM) (r : Nat) (x : Ext) : Nat × Flags :=
  let (lo, hi) := intRange f
  let code (i : Int) : Nat := natOf (i % 2 ^ fmtWidth f)
  match x with
  | .nan => (code hi, flagNV)
  | .inf n => (code (if n then lo else hi), flagOF)
  | .fin n m e =>
    let (i, ch) := clampTo lo hi (roundInt rm r n m e)
    (code i, flagOF.when ch)

/-- A value in E8M0 (02 R56, R57, R60). -/
def encodeE8M0 (rm : RM) (r : Nat) (x : Ext) : Nat × Flags :=
  match x with
  | .nan => (0xFF, noFlags)
  | .inf n => (0xFE, Flags.or flagOF (flagNV.when n))
  | .fin n m e =>
    if m = 0 then (0, flagUF) else
    let t := Nat.log2 m
    let frac := m - 2 ^ t
    let c : Int := e + t + 127
    let up := match rm with
      | .rne => 2 * frac > 2 ^ t || (2 * frac == 2 ^ t && c % 2 == 1)
      | .sr => frac * 2 ^ 32 / 2 ^ t + r ≥ 2 ^ 32
      | _ => false
    let c' := if up then c + 1 else c
    let nv := flagNV.when n
    let uf := flagUF.when (decide (topOf m e < -127))
    if c' < 0 then (0, Flags.or uf nv)
    else if c' > 254 then (0xFE, Flags.or flagOF nv)
    else (natOf c', Flags.or uf nv)

/-- A value in BF16x2 (02 R42). A difference beyond the largest BF16 value leaves that value in lo, so that a finite source
stays finite (log 152). UF when the value is tiny and the element differs from it (R61). -/
def encodeX2 (rm : RM) (r : Nat) (x : Ext) : Nat × Flags :=
  match x with
  | .nan => (0x7FC00000, noFlags)
  | .inf n => ((if n then 0xFF80 else 0x7F80) * 2 ^ 16, noFlags)
  | .fin n m e =>
    if m = 0 then ((if n then 0x8000 else 0) * 2 ^ 16, noFlags) else
    let hi := (encodeFP fparB16 false .rne 0 x).1
    let rest := x.add (decodeFP fparB16 hi).neg
    let lo := if rest.isZero then 0 else (encodeFP fparB16 false rm r rest).1
    let back := (decodeFP fparB16 hi).add (decodeFP fparB16 lo)
    (hi * 2 ^ 16 + lo, flagUF.when (topOf m e < -126 && !back.same x))

/-- A value in a format, as a code of the format's width (02 R50 to R60). -/
def encode (f : Fmt) (satInf : Bool) (rm : RM) (r : Nat) (x : Ext) : Nat × Flags :=
  match f with
  | .bf16x2 => encodeX2 rm r x
  | .e8m0 => encodeE8M0 rm r x
  | .i32 | .i16 | .i8 | .u8 | .i4 => encodeInt f rm r x
  | .e5m2 =>
    match fpar .e5m2 with
    | some p => encodeFP p satInf rm r x
    | none => (0, noFlags)
  | f =>
    match fpar f with
    | some p => encodeFP p true rm r x
    | none => (0, noFlags)

/-! ## The conversion matrix (02 R55) -/

inductive Mark where
  | x | r | n | no
  deriving DecidableEq, Repr

/-- The columns of a row of R55 from a row written as digits: 0 X, 1 R, 2 N, 3 unsupported, FP32 first. -/
def markRow : Fmt → List Nat
  | .fp32 => [0, 1, 1, 1, 1, 1, 1, 1, 1, 1, 1, 1, 1, 1, 1]
  | .bf16x2 => [1, 0, 1, 1, 1, 1, 1, 1, 1, 1, 1, 1, 1, 1, 1]
  | .bf16 => [0, 0, 0, 1, 1, 1, 1, 1, 1, 1, 1, 1, 1, 1, 1]
  | .fp16 => [0, 0, 1, 0, 1, 1, 1, 1, 1, 1, 1, 1, 1, 1, 1]
  | .e4m3 => [0, 0, 0, 0, 0, 1, 1, 1, 1, 3, 3, 3, 3, 3, 3]
  | .e5m2 => [0, 0, 0, 0, 1, 0, 1, 1, 1, 3, 3, 3, 3, 3, 3]
  | .e3m2 => [0, 0, 0, 0, 0, 0, 0, 1, 1, 3, 3, 3, 3, 3, 3]
  | .e2m3 => [0, 0, 0, 0, 0, 1, 1, 0, 1, 3, 3, 3, 3, 3, 3]
  | .e2m1 => [0, 0, 0, 0, 0, 0, 0, 0, 0, 3, 3, 3, 3, 3, 3]
  | .e8m0 => [0, 0, 0, 1, 3, 3, 3, 3, 3, 0, 3, 3, 3, 3, 3]
  | .i32 => [1, 1, 1, 1, 3, 3, 3, 3, 3, 3, 0, 2, 2, 2, 2]
  | .i16 => [0, 0, 1, 1, 3, 3, 3, 3, 3, 3, 0, 0, 2, 2, 2]
  | .i8 => [0, 0, 0, 0, 3, 3, 3, 3, 3, 3, 0, 0, 0, 2, 2]
  | .u8 => [0, 0, 0, 0, 3, 3, 3, 3, 3, 3, 0, 0, 2, 0, 2]
  | .i4 => [0, 0, 0, 0, 3, 3, 3, 3, 3, 3, 0, 0, 0, 2, 0]
  | .rsv => []

/-- The mark of a pair in R55. -/
def convMark (src dst : Fmt) : Mark :=
  match (markRow src).getD (fmtCode dst) 3 with
  | 0 => .x
  | 1 => .r
  | 2 => .n
  | _ => .no

/-- FORMAT details of a conversion pair with its rounding mode (06 R161, 02 R49): the reserved code,
an unsupported pair, SR on a pair that never rounds, RHA. A pair with code 0xF is 0x05 and not 0x01, though R55 lists it
neither (log 81). -/
def convCheck (src dst : Fmt) (rm : RM) : Option Nat :=
  if src = .rsv ∨ dst = .rsv then some 0x05
  else match convMark src dst, rm with
    | .no, _ => some 0x01
    | _, .rha => some 0x06
    | .r, .sr => none
    | _, .sr => some 0x06
    | _, _ => none

/-! ## The twist generator (02 R52) -/

def mix (z0 : Word) : Word :=
  let z1 := (z0 ^^^ (z0 >>> 30)) * 0xBF58476D1CE4E5B9#64
  let z2 := (z1 ^^^ (z1 >>> 27)) * 0x94D049BB133111EB#64
  z2 ^^^ (z2 >>> 31)

def twist (seed index : Word) (step : BitVec 32) : Nat :=
  let k := mix (seed + step.setWidth 64 * 0x9E3779B97F4A7C15#64)
  let z := mix (mix (index ^^^ k) + k)
  (z >>> 32).toNat

/-! ## Block scales -/

/-- The constant of 02 R46, and of 05 R122 for the integer formats. -/
def scaleK : Fmt → Int
  | .e4m3 => 8
  | .e5m2 => 15
  | .e3m2 => 4
  | .e2m3 | .e2m1 => 2
  | .i8 | .u8 => 6
  | _ => 2

/-- The largest finite magnitude of a list, and whether it holds a NaN or an infinity. -/
def largest (xs : List Ext) : Ext × Bool :=
  xs.foldl (fun (a : Ext × Bool) x =>
    (if a.1.lt x.abs && !x.isInf then x.abs else a.1, a.2 || x.isNan || x.isInf)) (.zero, false)

/-- floor(log2) of the largest magnitude less the format's constant, clamped to −127 to 127, and
whether the clamp acted; `none` for a group of zeros. -/
def groupExp (f : Fmt) (a : Ext) : Option (Int × Bool) :=
  match a with
  | .fin _ m e => if m = 0 then none else some (clampTo (-127) 127 (topOf m e - scaleK f))
  | _ => none

/-- The scale code of a block (02 R46): 0xFF with NV for a NaN or an infinity. -/
def blockScale (f : Fmt) (xs : List Ext) : Nat × Flags :=
  let (a, bad) := largest xs
  if bad then (0xFF, flagNV)
  else match groupExp f a with
    | none => (0x7F, noFlags)
    | some (k, _) => (natOf (k + 127), noFlags)

end Sys2Proof
end

