-- ==== Sys2Proof/Decode.lean ====
section
/-!
DEFINITION. The Swiard words: their encoding checks (06 R137, R141 to R149, R160; 07 R170 to R194) and the
instruction that each well-formed word spells. The command table gives no bits of its own: what
`decodeTableWord` reads is a Swiard word, presented to spindle 0 (log 129).
-/

namespace Sys2Proof

/-- Bits `hi` to `lo` of a word. -/
def Word.bits (w : Word) (hi lo : Nat) : Nat := bitsOf w.toNat lo (hi + 1 - lo)

/-- The number whose set bits are those of the fields, each given by its high and low bit. -/
def maskOf : List (Nat × Nat) → Nat
  | [] => 0
  | (hi, lo) :: fs => (2 ^ (hi + 1 - lo) - 1) * 2 ^ lo + maskOf fs

/-- The count field of format RQ (06 R147). -/
def countFields (w : Word) : List (Nat × Nat) :=
  if w.bits 18 18 = 1 then [(18, 18), (15, 11)] else [(18, 11)]

/-- The exponent source of a granularity (07 R186). -/
def expFields (w : Word) : List (Nat × Nat) :=
  match w.bits 22 20 with
  | 0 => [(2, 0)]
  | 1 | 2 | 4 => [(10, 6)]
  | _ => []

/-- The SR index register of a quantiser instruction (07 R186). -/
def srFields (w : Word) : List (Nat × Nat) := if w.bits 25 24 = 2 then [(39, 35)] else []

/-- The fields of bits [48:0] that a word of an assigned opcode uses; `none` for an unassigned opcode. -/
def wordFields (w : Word) : Option (List (Nat × Nat)) :=
  let opc := w.bits 59 52
  match w.bits 62 60 with
  | 0 =>
    if opc ≤ 0x0D then some [(48, 34)]
    else if 0x10 ≤ opc ∧ opc ≤ 0x13 then some [(48, 39), (31, 0)]
    else if 0x14 ≤ opc ∧ opc ≤ 0x16 then some [(48, 39), (5, 0)]
    else if opc = 0x17 then some [(48, 44), (31, 0)]
    else if opc = 0x18 then some [(48, 39), (31, 0)]
    else if 0x20 ≤ opc ∧ opc ≤ 0x25 then
      some ([(46, 44), (43, 39), (33, 33)] ++ if w.bits 33 33 = 1 then [(31, 0)] else [(38, 34)])
    else if 0x28 ≤ opc ∧ opc ≤ 0x2A then some [(48, 40)]
    else if opc = 0x2B then some [(48, 43)]
    else if (0x30 ≤ opc ∧ opc ≤ 0x36) ∨ (0x38 ≤ opc ∧ opc ≤ 0x3B) then some [(48, 39), (31, 0)]
    else none
  | 1 =>
    match opc with
    | 0 => some [(31, 0)]
    | 1 => some [(48, 44), (31, 0)]
    | 2 => some [(31, 0)]
    | 3 => some [(48, 44)]
    | 4 => some []
    | _ => none
  | 2 =>
    match opc with
    | 0 => some [(48, 38)]
    | 1 => some (if w.bits 40 40 = 1 then [(48, 40), (37, 21)] else [(48, 21)])
    | _ => none
  | 3 =>
    if opc ≤ 1 then some [(48, 34), (28, 25), (20, 19), (17, 16)]
    else if opc = 2 then some [(48, 25), (20, 19), (17, 15)]
    else if opc ≤ 4 then some [(48, 34), (28, 25), (17, 17)]
    else if opc = 8 then
      some ([(48, 34), (28, 18), (16, 16)] ++ if w.bits 20 19 = 2 then [(33, 29)] else [])
    else if 0x10 ≤ opc ∧ opc ≤ 0x19 then
      some ([(48, 39), (28, 25), (20, 19)] ++ if w.bits 20 19 = 2 then [(33, 29)] else [])
    else if opc = 0x20 ∨ opc = 0x21 then
      some (if w.bits 41 41 = 1 then [(48, 41), (38, 34)] else [(48, 34)])
    else if opc = 0x22 then some [(48, 42)]
    else if opc = 0x23 ∨ opc = 0x24 then some [(48, 44), (33, 13)]
    else none
  | 4 =>
    let mask := if w.bits 22 20 = 0 then [] else [(39, 35)]
    match opc with
    | 0x00 => some ([(48, 47), (44, 40), (22, 19)] ++ mask ++ countFields w)
    | 0x01 => some ([(48, 45), (44, 40), (22, 19)] ++ mask ++ countFields w)
    | 0x02 => some [(34, 30)]
    | 0x03 => some [(34, 30)]
    | 0x04 => some [(34, 30), (10, 6)]
    | 0x08 => some ([(48, 47), (19, 19)] ++ countFields w)
    | 0x09 => some ((48, 47) :: countFields w)
    | 0x0A => some [(34, 30), (3, 0)]
    | 0x0B => some ([(48, 45), (44, 40)] ++ countFields w)
    | 0x0C => some ([(48, 45), (44, 40)] ++ countFields w)
    | 0x0D => some ([(48, 45), (34, 30)] ++ countFields w)
    | 0x0E => some ([(48, 47), (34, 30)] ++ countFields w)
    | 0x0F => some [(44, 40)]
    | 0x10 => some [(44, 40)]
    | 0x20 => some [(44, 40), (2, 0)]
    | 0x21 => some [(44, 40), (2, 0)]
    | 0x22 => some [(22, 20), (17, 10), (2, 0)]
    | 0x28 => some ([(44, 40), (34, 30), (29, 20)] ++ expFields w ++ srFields w)
    | 0x29 => some ([(48, 47), (44, 40), (29, 20)] ++ countFields w ++ expFields w ++ srFields w)
    | 0x2A =>
      some ([(48, 47), (29, 26), (22, 20)] ++ countFields w ++
        match w.bits 22 20 with
        | 0 => [(2, 0)]
        | 1 | 2 => [(34, 30)]
        | _ => [])
    | 0x2B => some ([(48, 47), (44, 40), (29, 26), (22, 20)] ++ countFields w ++ expFields w)
    | 0x2C => some ([(48, 45), (34, 30), (29, 20), (5, 4)] ++ countFields w ++ expFields w ++ srFields w)
    | 0x2D => some ([(48, 47), (44, 40), (34, 30), (29, 24), (22, 20), (10, 6)] ++ countFields w)
    | _ => none
  | 5 =>
    match opc with
    | 0 => some [(48, 7)]
    | 1 => some [(48, 7)]
    | 2 => some [(48, 22), (17, 16)]
    | _ => none
  | 6 =>
    match opc with
    | 0 => some [(48, 45)]
    | 1 => some [(48, 45), (42, 40)]
    | 2 => some [(48, 40)]
    | 3 => some []
    | 4 => some [(44, 35)]
    | 5 => some [(39, 30)]
    | _ => none
  | _ =>
    match opc with
    | 0 => some []
    | 1 => some []
    | 2 => some [(7, 0)]
    | 3 => some [(48, 32)]
    | 4 => some [(48, 32)]
    | _ => none

/-- Whether a field of the word holds a reserved value (06 R145, R147, R148; 07 R185, R190). -/
def wordReserved (w : Word) : Bool :=
  let opc := w.bits 59 52
  match w.bits 62 60 with
  | 2 => opc == 1 && w.bits 32 31 == 3
  | 4 =>
    if opc ≤ 1 then decide (2 < w.bits 22 20)
    else if opc = 0x0A then decide (5 < w.bits 3 0)
    else if 0x28 ≤ opc ∧ opc ≤ 0x2D then decide (4 < w.bits 22 20)
    else false
  | 5 =>
    if opc ≤ 1 then
      decide (30 ≤ w.bits 13 9) || w.bits 15 14 == 3 || (w.bits 15 14 == 1 && w.bits 13 9 == 0) ||
        (opc == 1 && w.bits 15 14 != 0)
    else false
  | _ => false

/-- The encoding error of a word, in the order of 06 R160: unassigned opcode, reserved field or value,
unassigned control and status register. -/
def wordError (w : Word) : Option Nat :=
  match wordFields w with
  | none => some 0x01
  | some fs =>
    if w.toNat % 2 ^ 49 &&& (2 ^ 49 - 1 - maskOf fs) ≠ 0 ∨ wordReserved w then some 0x02
    else if w.bits 62 60 = 7 ∧ (w.bits 59 52 = 3 ∨ w.bits 59 52 = 4) ∧ 5 < w.bits 43 32 then some 0x08
    else none

/-- The slot of a class: C 0, X 1, V 2, F 3 (06 R137). -/
def classSlot : Nat → Nat
  | 2 => 1
  | 3 => 2
  | 4 => 2
  | 5 => 3
  | 6 => 3
  | _ => 0

/-- Whether the words form a bundle: one to four, `E` on the last only, one word per slot (06 R137). -/
def wordsWhole : List Word → Bool
  | [] => false
  | ws =>
    decide (ws.length ≤ 4) && (ws.map fun w => w.bits 63 63) == List.replicate (ws.length - 1) 0 ++ [1] &&
    decide (ws.map fun w => classSlot (w.bits 62 60)).Nodup

/-- The words of a bundle in slot order. -/
def wordsBySlot (ws : List Word) : List Word :=
  [0, 1, 2, 3].flatMap fun k => ws.filter fun w => classSlot (w.bits 62 60) = k

/-- A 5-bit register field whose high bit is `hi`. -/
def Word.r (w : Word) (hi : Nat) : Fin 32 := Fin.ofNat 32 (w.bits hi (hi - 4))

/-- A tile field, and the 3-bit and 4-bit fields of predicates, e registers and tokens (06 R141). -/
def Word.tile (w : Word) (hi : Nat) : Fin 4 := Fin.ofNat 4 (w.bits hi (hi - 1))

def Word.three (w : Word) (hi : Nat) : Fin 8 := Fin.ofNat 8 (w.bits hi (hi - 2))

def Word.four (w : Word) (hi : Nat) : Fin 16 := Fin.ofNat 16 (w.bits hi (hi - 3))

/-- One bit of a word as a flag. -/
def Word.flag (w : Word) (k : Nat) : Bool := w.bits k k == 1

/-- A format code whose high bit is `hi`, a rounding mode (06 R141). -/
def Word.fmt (w : Word) (hi : Nat) : Fmt := fmtOf (w.bits hi (hi - 3))

def Word.rm (w : Word) (hi : Nat) : RM := rmOf (w.bits hi (hi - 1))

/-- The low 32 bits: an immediate, or the offset of a branch or of a scalar access. -/
def Word.imm (w : Word) : BitVec 32 := BitVec.ofNat 32 (w.bits 31 0)

/-- What every word carries besides its operands (06 R141). -/
def Word.hdr (w : Word) (p : Fin 136) : Hdr := { sp := p, e := w.flag 63, pred := w.three 51 }

/-- A count or row field of seven bits below `hi`, or a register in its low five, as the bit above it says. -/
def Word.num (w : Word) (hi : Nat) : Num7 :=
  if w.flag (hi + 1) then .reg (w.r (hi - 2)) else .imm (Fin.ofNat 128 (w.bits hi (hi - 6)))

/-- `VB` of format VR, a v register or a broadcast s register (06 R146). -/
def Word.vb (w : Word) : VSrc := if w.flag 17 then .s (w.r 38) else .v (w.r 38)

/-- The mask operand of the soft maximum (07 R185). -/
def Word.mask (w : Word) : Mask := match w.bits 22 20 with
  | 1 => .causal (w.r 39)
  | 2 => .bits (w.r 39)
  | _ => .none

/-- The granularity operand with its exponent source (07 R186). -/
def Word.gran (w : Word) : Gran := match w.bits 22 20 with
  | 0 => .tensor (w.three 2)
  | 1 => .col (w.r 10)
  | 2 => .row (w.r 10)
  | 3 => .blk
  | _ => .blks (w.r 10)

/-- The granularity of `rsc` (07 R187). -/
def Word.gtag (w : Word) : GTag := match w.bits 22 20 with
  | 0 => .tensor
  | 1 => .col
  | 2 => .row
  | 3 => .blk
  | _ => .blks

/-- Destination and granularity of `qexp` (07 R187). -/
def Word.qdst (w : Word) : QDst := match w.bits 22 20 with
  | 0 => .tensor (w.three 2)
  | 1 => .col (w.r 34)
  | 2 => .row (w.r 34)
  | 3 => .blk
  | _ => .blks

/-- Second operand of a compare (07 R173). -/
def Word.cmp (w : Word) : CmpSrc := if w.flag 33 then .imm w.imm else .reg (w.r 38)

/-- The operands of a flyer word (06 R148). -/
def Word.fl (w : Word) : Fl :=
  { t := w.four 48, sd := w.r 44, ss := w.r 39, sn := w.r 34, fs := w.fmt 29, fd := w.fmt 25, tr := w.flag 21
    rm := w.rm 20, satInf := w.flag 18
    hint := match w.bits 17 16 with
      | 0 => .none
      | 1 => .stream
      | 2 => .keep
      | _ => .last
    path := match w.bits 15 14 with
      | 0 => .hold
      | 1 => .shadow
      | _ => .skip
    sp := w.r 13, scs := w.flag 8, scd := w.flag 7 }

/-- Scalar words: formats S3, SI and SP (06 R142, 07 R171 to R174). -/
def decodeScalar (h : Hdr) (w : Word) : Option Instr :=
  let d := w.r 48
  let a := w.r 43
  let b := w.r 38
  let i := w.imm
  let sh : Fin 64 := Fin.ofNat 64 (w.bits 5 0)
  match w.bits 59 52 with
  | 0x00 => some (.add h d a b)
  | 0x01 => some (.sub h d a b)
  | 0x02 => some (.and h d a b)
  | 0x03 => some (.or h d a b)
  | 0x04 => some (.xor h d a b)
  | 0x05 => some (.sll h d a b)
  | 0x06 => some (.srl h d a b)
  | 0x07 => some (.sra h d a b)
  | 0x08 => some (.mul h d a b)
  | 0x09 => some (.mulhu h d a b)
  | 0x0A => some (.min h d a b)
  | 0x0B => some (.max h d a b)
  | 0x0C => some (.minu h d a b)
  | 0x0D => some (.maxu h d a b)
  | 0x10 => some (.addi h d a i)
  | 0x11 => some (.andi h d a i)
  | 0x12 => some (.ori h d a i)
  | 0x13 => some (.xori h d a i)
  | 0x14 => some (.slli h d a sh)
  | 0x15 => some (.srli h d a sh)
  | 0x16 => some (.srai h d a sh)
  | 0x17 => some (.movi h d i)
  | 0x18 => some (.movhi h d a i)
  | 0x20 => some (.cmpEq h (w.three 46) a w.cmp)
  | 0x21 => some (.cmpNe h (w.three 46) a w.cmp)
  | 0x22 => some (.cmpLt h (w.three 46) a w.cmp)
  | 0x23 => some (.cmpGe h (w.three 46) a w.cmp)
  | 0x24 => some (.cmpLtu h (w.three 46) a w.cmp)
  | 0x25 => some (.cmpGeu h (w.three 46) a w.cmp)
  | 0x28 => some (.pand h (w.three 48) (w.three 45) (w.three 42))
  | 0x29 => some (.por h (w.three 48) (w.three 45) (w.three 42))
  | 0x2A => some (.pxor h (w.three 48) (w.three 45) (w.three 42))
  | 0x2B => some (.pnot h (w.three 48) (w.three 45))
  | 0x30 => some (.ld1 h d a i)
  | 0x31 => some (.ld2 h d a i)
  | 0x32 => some (.ld4 h d a i)
  | 0x33 => some (.ld8 h d a i)
  | 0x34 => some (.ld1u h d a i)
  | 0x35 => some (.ld2u h d a i)
  | 0x36 => some (.ld4u h d a i)
  | 0x38 => some (.st1 h d a i)
  | 0x39 => some (.st2 h d a i)
  | 0x3A => some (.st4 h d a i)
  | 0x3B => some (.st8 h d a i)
  | _ => none

/-- Branch words: format B (06 R143, 07 R176). -/
def decodeBranch (h : Hdr) (w : Word) : Option Instr := match w.bits 59 52 with
  | 0 => some (.br h w.imm)
  | 1 => some (.bdec h (w.r 48) w.imm)
  | 2 => some (.call h w.imm)
  | 3 => some (.jr h (w.r 48))
  | 4 => some (.ret h)
  | _ => none

/-- Matrix words: formats MW and MM (06 R145, 07 R180). -/
def decodeMatrix (h : Hdr) (w : Word) : Option Instr := match w.bits 59 52 with
  | 0 => some (.ldw h (Fin.ofNat 2 (w.bits 48 48)) (w.r 47) (w.fmt 42) (w.flag 38))
  | 1 => some (.mma h (w.tile 48) (Fin.ofNat 2 (w.bits 46 46)) (w.r 45) (w.num 39)
      (match w.bits 32 31 with
        | 0 => .set
        | 1 => .acc
        | _ => .sub) (w.fmt 30) (w.flag 26) (w.fmt 25) (w.flag 21))
  | _ => none

/-- Vector words: formats VR and VT (06 R146, 07 R181 to R184). -/
def decodeVector (h : Hdr) (w : Word) : Option Instr :=
  let d := w.r 48
  let a := w.r 43
  let f := w.fmt 28
  let m := w.rm 20
  let c := w.r 33
  let off : BitVec 16 := BitVec.ofNat 16 (w.bits 28 13)
  match w.bits 59 52 with
  | 0x00 => some (.vadd h d a w.vb f m (w.flag 16))
  | 0x01 => some (.vmul h d a w.vb f m (w.flag 16))
  | 0x02 => some (.vfma h d a w.vb c f m (w.flag 16) (w.flag 15))
  | 0x03 => some (.vmin h d a w.vb f)
  | 0x04 => some (.vmax h d a w.vb f)
  | 0x08 => some (.vcvt h d a (w.r 38) f (w.fmt 24) m (w.flag 18) (w.flag 16) c)
  | 0x10 => some (.vexp2 h d a f m c)
  | 0x11 => some (.vlog2 h d a f m c)
  | 0x12 => some (.vrcp h d a f m c)
  | 0x13 => some (.vrsq h d a f m c)
  | 0x14 => some (.vtanh h d a f m c)
  | 0x15 => some (.vsin h d a f m c)
  | 0x16 => some (.vcos h d a f m c)
  | 0x17 => some (.vsig h d a f m c)
  | 0x18 => some (.vgelu h d a f m c)
  | 0x19 => some (.vsilu h d a f m c)
  | 0x20 => some (.vrd h d (w.tile 43) (w.num 40))
  | 0x21 => some (.vwr h (w.tile 43) (w.num 40) d)
  | 0x22 => some (.vscr h (w.tile 43) d)
  | 0x23 => some (.vld h d c off)
  | 0x24 => some (.vst h d c off)
  | _ => none

/-- Row and quantiser words: format RQ (06 R147, 07 R185 to R188). -/
def decodeRow (h : Hdr) (w : Word) : Option Instr :=
  let ca := w.tile 48
  let cb := w.tile 46
  let sa := w.r 44
  let sb := w.r 39
  let va := w.r 34
  let n := w.num 17
  let f := w.fmt 29
  let m := w.rm 25
  match w.bits 59 52 with
  | 0x00 => some (.smaxP1 h ca n sa w.mask (w.flag 19))
  | 0x01 => some (.smaxP2 h ca cb n sa w.mask (w.flag 19))
  | 0x02 => some (.smaxFac h va)
  | 0x03 => some (.smaxLse h va)
  | 0x04 => some (.smaxMerge h va (w.r 10))
  | 0x08 => some (.rstatP1 h ca n (w.flag 19))
  | 0x09 => some (.rstatP2 h ca n)
  | 0x0A => some (.rstatGet h va (match w.bits 3 0 with
    | 0 => .mean
    | 1 => .var
    | 2 => .rstd
    | 3 => .msq
    | 4 => .max
    | _ => .min))
  | 0x0B => some (.rnormLn h ca cb n sa)
  | 0x0C => some (.rnormRms h ca cb n sa)
  | 0x0D => some (.rdot h va ca cb n)
  | 0x0E => some (.rsum h va ca n)
  | 0x0F => some (.rsave h sa)
  | 0x10 => some (.rload h sa)
  | 0x20 => some (.emov h (w.three 2) sa)
  | 0x21 => some (.emovs h sa (w.three 2))
  | 0x22 => some (.eadd h (w.three 2) (w.three 22) (BitVec.ofNat 8 (w.bits 17 10)))
  | 0x28 => some (.qnt h sa va f m (w.flag 23) w.gran sb)
  | 0x29 => some (.qntt h sa ca n f m (w.flag 23) w.gran sb)
  | 0x2A => some (.qexp h w.qdst ca n f)
  | 0x2B => some (.dqnt h ca sa n f w.gran)
  | 0x2C => some (.qgrad h ca cb (w.tile 5) n va f m (w.flag 23) w.gran sb)
  | 0x2D => some (.rsc h sa ca n f m w.gtag va (w.r 10))
  | _ => none

/-- Flyer words: format FL (06 R148, 07 R189 to R191). -/
def decodeFlyer (h : Hdr) (w : Word) : Option Instr := match w.bits 59 52 with
  | 0 => some (.fmv h w.fl)
  | 1 => some (.fadd h w.fl)
  | 2 => some (.ffill h (w.four 48) (w.r 44) (w.r 39) (w.r 34) (w.fmt 29) (w.fmt 25) w.fl.hint)
  | _ => none

/-- Sync words: format SY (06 R149, 07 R192). -/
def decodeSync (h : Hdr) (w : Word) : Option Instr := match w.bits 59 52 with
  | 0 => some (.twait h (w.four 48))
  | 1 => some (.tpoll h (w.three 42) (w.four 48))
  | 2 => some (.tstat h (w.r 44) (w.four 48))
  | 3 => some (.sfence h)
  | 4 => some (.cread h (w.r 44) (w.r 39))
  | 5 => some (.cwait h (w.r 39) (w.r 34))
  | _ => none

/-- System words: format Y (06 R144, 07 R177). -/
def decodeSystem (h : Hdr) (w : Word) : Option Instr :=
  let csr : BitVec 12 := BitVec.ofNat 12 (w.bits 43 32)
  match w.bits 59 52 with
  | 0 => some (.nop h)
  | 1 => some (.endShare h)
  | 2 => some (.brk h (BitVec.ofNat 8 (w.bits 7 0)))
  | 3 => some (.csrr h (w.r 48) csr)
  | 4 => some (.csrw h csr (w.r 48))
  | _ => none

/-- The instruction that a word spells on a spindle; none where the word has an encoding error, which raises
ILLEGAL (06 R137, R141). -/
def decodeWord (p : Fin 136) (w : Word) : Option Instr :=
  if (wordError w).isSome then none else
  let h := w.hdr p
  match w.bits 62 60 with
  | 0 => decodeScalar h w
  | 1 => decodeBranch h w
  | 2 => decodeMatrix h w
  | 3 => decodeVector h w
  | 4 => decodeRow h w
  | 5 => decodeFlyer h w
  | 6 => decodeSync h w
  | _ => decodeSystem h w

/-- The command that 64 bits spell: the Swiard word on spindle 0 (log 129). -/
def decodeTableWord (nbits w : Nat) : Option Instr := if nbits = 64 then decodeWord 0 (BitVec.ofNat 64 w) else none

end Sys2Proof
end

