-- ==== Sys2Proof/Config.lean ====
section
/-!
DEFINITION. What one device fixes and the values the spec leaves open. Every constant here is opaque:
no statement can rest on a particular value of it.
-/

namespace Sys2Proof.Config

/-! The tables of the special functions, by the reduced argument: each picks one of the FP32 values that the bounds of
04 R93 allow (04 R92; log 10). -/

opaque exp2Tab : Ext → Nat
opaque log2Tab : Ext → Nat
opaque rcpTab : Ext → Nat
opaque rsqTab : Ext → Nat
opaque tanhTab : Ext → Nat
opaque sinTab : Ext → Nat
opaque cosTab : Ext → Nat

/-- Whether a magnitude between two values of the wide format is rounded up (04 R98, R105; log 20). -/
opaque wideUp : Ext → Bool

/-- `rstat.get` of rstd: the spec names no ε for it (log 10). -/
opaque rstdOf : RowEntry → Lane

/-- `rnorm.ln` on an entry whose mean no `rstat.p2` has fixed: the spec states no result (log 10). -/
opaque normOf : RowEntry → Lane → Lane

/-- The factor kept in an entry that `smax.merge` made out of EMPTY: no `smax.p1` has set one (04 R102, R103;
log 83). -/
opaque factorOf : Lane → Lane → Lane

/-- What the device's layout adds to byte `i` of the 64 B of a row-state entry (04 R98, R114; log 11). -/
opaque rowMask : Nat → Byte

/-- What `qgrad` leaves in a lane whose group holds a term under a NaN scale (05 R126; log 137). -/
opaque gradOf : Lane → List (Option Ext) → Lane

/-- Where in the device reserve the save images lie (06 R166, 11 R303; log 140). -/
opaque saveArea : Nat

/-- The factor `smax.fac` reads in an EMPTY entry, in which no `smax.p1` has set one (04 R102; log 83). -/
opaque emptyFactor : Lane

/-- What a byte of a creel window shows, by the bindings' data, the skein and the offset (08 R196, R197; log 139). -/
opaque creelWindow : List (List (Nat × Byte)) → Nat → Nat → Byte

/-- A free word, applied to the counter `free` of the state (log 4). -/
opaque freeWord : Nat → Word

/-- Byte `i` of the `n`th block of bytes whose contents the spec leaves open (log 4). -/
opaque freeByte : Nat → Nat → Byte

/-- The fuse identity, 128 bits (00 R1). -/
opaque fuseId : BitVec 128

/-- The fleet identity (16 R430). -/
opaque fleetId : BitVec 32

/-- The root secret of the device and the fleet link key, which no interface reads (16 R430). -/
opaque root : BitVec 256
opaque fleetKey : BitVec 256

/-- HKDF-SHA-384 (RFC 5869): the output for input key material, salt, and an info of a name and numbers (16 R431). -/
opaque hkdf : Nat → Nat → String → List Nat → Nat

/-- The secret of the `n`th SPDM session since reset, from which the key of its session strand comes (14 R379, 16 R449). -/
opaque sessionSecret : Nat → Nat

/-- The ICV of AES-256-GCM, or of GMAC: by key and salt, counter, header, and data (14 R379). -/
opaque gcm : Nat → Nat → List (BitVec 8) → List (BitVec 8) → BitVec 128

/-- Bytes of an SPDM message, by its code and fields (16 R448; log 40). -/
opaque spdmLen : Nat → List Nat → Nat

/-- What a port finds in the nanosecond that ends at a time: codewords corrected, and whether the symbols corrected in the
last second exceed 10^-5 (13 R366; log 115). -/
opaque fecCorrected : Nat → Nat → Nat
opaque fecDegraded : Nat → Nat → Bool

/-- The fused base of the port MAC addresses (13 R353). -/
opaque baseMac : BitVec 48

/-- The nonce drawn at the `n`th cold reset (14 R394). -/
opaque bootNonce : Nat → Word

/-- Bytes that one copy of a stage's tables takes for a number of mapped pages (11 R297, R307; log 31). -/
opaque tableBytes : Nat → Nat

/-- Which line of the table copy the `n`th read of a walk takes, and from which copy, by stage and virtual address
(11 R301; log 13). -/
opaque tableLine : Nat → Nat → Nat → Nat

/-- The fused SHA-384 of the operator's public key (16 R430, R437). -/
opaque opDigest : BitVec 384

/-- Whether an ECDSA P-384 signature verifies under a public key that has a given SHA-384: digest, message, signature
(16 R430, R438; log 158). -/
opaque verifyHashed : BitVec 384 → List Byte → List Byte → Bool

/-- Whether an ECDSA P-384 signature verifies: key, message, signature (16 R438). -/
opaque verify : List Byte → List Byte → List Byte → Bool

/-- `STATUS` of a fault record of a kind for which 18 R509 and R510 name no status, by its kind: a code that the device
reports (00 R16). -/
opaque recStatus : Nat → Status

/-- Flags of the adds of a remote ATOMIC_ADD, which no frame of 14 R378 to R386 carries back to the requester that is to
report them (10 R263, log 143). -/
opaque remoteFlags : Nat → Flags

/-- What of a group operation no command tells at a time, by its queue and number: whether it progresses (0), whether frames of
it are in flight or held by the window (1), whether it awaits the reel cache (2), whether member `i` has sent its part (3 + i)
(15 R418, log 128). -/
opaque opShows : Nat → Nat → Nat → Nat → Bool

/-- SHA-384 (16 R439). -/
opaque sha384 : List Byte → BitVec 384

/-- Whether a frame asks for an ACK at once, by its strand and its transmission counter: the spec does not say which frames
do (14 R372, log 145). -/
opaque ackReq : Nat → Nat → Bool

/-- Port number, as an index into the joined ports, that a strand number and a path counter hash to (14 R391). -/
opaque pathHash : Nat → Nat → Nat

/-- The 14 bits of path entropy of a strand and a path counter (14 R370, R391). -/
opaque pathEntropy : Nat → Nat → BitVec 14

/-- The serial number of the fuse identity, in the characters of a system name (13 R362, log 7). -/
opaque serialNumber : List Byte

/-- Check of a firmware image as delivered: its manifest's length, hash result, signature result and
security version (18 R484, R486). -/
opaque imageLen : List Byte → Nat
opaque imageHashes : List Byte → Bool
opaque imageSigned : List Byte → Bool
opaque imageSvn : List Byte → Nat
opaque imageVersion : List Byte → Word

/-- The image of a slot of the flash as it left manufacture (18 R483; log 171). -/
opaque factoryImage : Bool → List Byte

/-- The bytes of a board configuration block that its CRC-32C covers (18 R485; log 171). -/
opaque cfgBytes : BoardCfg → List Byte

/-- What a trim table states (18 R493, R495; log 172): the device it names, its version, whether the device supports a version,
its CRC-64 and the bytes that this covers. -/
opaque trimFuse : List Byte → BitVec 128
opaque trimVersion : List Byte → Nat
opaque trimSupported : Nat → Bool
opaque trimCrc : List Byte → Nat
opaque trimCovered : List Byte → List Byte

/-- Byte of the trailer of a table: by its `FACTORY`, its signature, and the byte's offset (18 R494; log 172). -/
opaque trailerByte : Nat → Nat → Nat → Byte

/-- The trim table from manufacture, and what a copy without a whole table reads as (18 R493; log 172). -/
opaque factoryTrim : Nat → Byte
opaque tornTrim : Nat → Byte

/-- The offset of a temperature sensor in 0.1 °C, by the trim table (18 R493, log 172). -/
opaque trimOffset : List Byte → Nat → Int

/-- The current-sense gain of a rail's regulator less 0.1%, in 0.1%: by the trim table, and the fixed default (17 R460,
log 159). -/
opaque trimGain : List Byte → Nat → Nat
opaque defaultGain : Nat → Nat

/-- An ECDSA P-384 signature by a private scalar (16 R430, R448). -/
opaque sign : Nat → List Nat → Nat

/-- The order of the curve P-384 (16 R431). -/
opaque curveOrder : Nat

/-- SHA-384 of the boot ROM (16 R450), the certificate chain of slot 0 and its digest (16 R448). -/
opaque romHash : Nat
opaque certChain : Nat
opaque certDigest : Nat

/-- SHA-384 of the stage-2 tables, whose stored form the spec leaves open (16 R450). -/
opaque stage2Hash : List (List Nat) → Nat

/-- Whether the counter of a tenancy that changes shows its new value by a given time (16 R442, R443; log 162). -/
opaque ctrShows : Nat → Bool

/-- What a private TAP instruction shifts out: by its number, what of the device's state the spec names as open to it, and
the counter `free` (16 R446, R451; log 131). -/
opaque inspect : Nat → List Nat → Nat → Nat

/-- Levels of the pins a SAMPLE captures (16 R451). -/
opaque pinSample : Nat → Nat

end Sys2Proof.Config
end

