-- ==== Sys2Proof/Machine/State.lean ====
section
/-!
DEFINITION. The state of the OVK-T8, as plain data, and the state right after power-on reset.
A field's default value is its reset value; INVENTORY.md names the rule of each.
-/

namespace Sys2Proof.Machine

/-- Why a command stops the block. The model raises none: every effect the spec gives is a next
state, so this type has no constructor that a meaning uses; `stuck` is kept for the interface
(safe: it can only stop a run). -/
inductive Fault where
  | stuck
  deriving DecidableEq, Repr

/-- Why a command has no meaning. `notModelled`: the arm is not written yet (safe: the run stops). Every command of the
table has its meaning, so none raises it. -/
inductive Refusal where
  | notModelled (mnemonic : String)
  deriving DecidableEq, Repr

/-! ## Spindles -/

abbrev VReg := Vector Lane 128

/-- A flyer completion token (06 R156); DONE holds the status code of its move. -/
inductive Token where
  | free
  | busy
  | done (st : Status)
  deriving DecidableEq, Repr, Inhabited

/-- The type tag of a tile (03 R65): FP32 or INT32 elements. -/
inductive Tag where
  | fp | int
  deriving DecidableEq, Repr, Inhabited

/-- An accumulator tile with its tag (03 R65, R84). -/
structure Tile where
  tag  : Tag := .fp
  rows : Vector VReg 128 := rep 128 (rep 128 0)
  deriving DecidableEq, Repr

/-- A weight slot (03 R65, R84): load format and scale setting, block rows of 128 element codes, and
the scale bytes of the block's hanks. A slot that no `ldw` of the kernel has loaded has no format. -/
structure WSlot where
  fmt    : Option Fmt := none
  scaled : Bool := false
  rows   : List (List Lane) := []
  scales : List Byte := []
  deriving DecidableEq, Repr

/-- A register, tile, row-state or bobbin write that a unit performs when its result is due. -/
inductive Wr where
  | s (r : Fin 32) (x : Word)
  | p (r : Fin 8) (x : Bool)
  | v (r : Fin 32) (x : VReg)
  | e (k : Fin 8) (x : Byte)
  | tileRow (c : Fin 4) (i : Fin 128) (x : VReg)
  | tile (c : Fin 4) (t : Tile)
  | rowFile (f : Vector RowEntry 128)
  | mem (off : Nat) (bs : List Byte)
  deriving DecidableEq, Repr

/-- A result that a V-slot unit has not written yet (04 R91, R111; 05 R131): the cycle its
instruction issued, the cycle from which the unit is free of it, the cycle its result is due, the
bobbin bytes it has yet to read with the cycle of each read, its writes and its flags. -/
structure Pend where
  at_   : Nat
  busy  : Nat
  due   : Nat
  reads : List (Nat × Nat × Nat)
  wrs   : List Wr
  flags : Flags
  deriving DecidableEq, Repr

/-- An `ldw` or `mma` in the array queue (03 R65), with the cycle it issued. `block` is what the `ldw` will have
loaded: no write of its bytes overtakes its reads (07 R175). -/
inductive ArrOp where
  | ldw (m : Fin 2) (off : Nat) (fb : Fmt) (scb : Bool) (block : WSlot)
  | mma (c : Fin 4) (m : Fin 2) (off : Nat) (rows : Nat) (mode : MmaMode)
      (fa : Fmt) (sca : Bool) (fb : Fmt) (scb : Bool)
  deriving DecidableEq, Repr

/-- An `mma` that has started streaming and not committed (03 R79): its start and commit cycles, the
bobbin range of each row it reads, its block sums in the order of its passes and their flags. -/
structure Flight where
  c      : Fin 4
  m      : Fin 2
  mode   : MmaMode
  tag    : Tag
  rows   : Nat
  start  : Nat
  ends   : Nat
  due    : Nat
  reads  : List (Nat × Nat × Nat)
  sums   : List (List (List Lane))
  flags  : Flags
  deriving DecidableEq, Repr

/-- The exceptions of Swiard (06 R140 `CODE`). -/
inductive Exc where
  | page | illegal | format | align | brk
  deriving DecidableEq, Repr, Inhabited

/-- An exception raised and not yet taken (06 R159): `CAUSE` and, for PAGE, the fault's address,
stage, access, reason and side (11 R304). -/
structure Trap where
  exc    : Exc
  cause  : Word
  va     : Nat := 0
  ia     : Nat := 0
  stage  : Nat := 0
  acc    : Nat := 0
  why    : Nat := 0
  side   : Nat := 0
  /-- generations of both stages that the translation used (11 R304) -/
  gen1   : Word := 0
  gen2   : Word := 0
  /-- words of the bundle: RESUME after BREAK goes on behind it (06 R162) -/
  len    : Nat := 0
  deriving DecidableEq, Repr

/-- Where a share stands. `ending`: `end` has issued (06 R167). `trapping`: an exception waits for
earlier work. `ended`: an exception of R162 has ended the share and SHARE_END follows. `halted`: by
BREAK. `noImage`: halted in place for want of a save image, its page-fault record sent or not for
want of a record slot too (11 R303, 18 R508). -/
inductive Phase where
  | running
  | ending
  | trapping (t : Trap)
  | ended (st : Status)
  | halted (len : Nat)
  | noImage (t : Trap) (recorded : Bool)
  deriving DecidableEq, Repr

/-- One share of a kernel on a spindle (06 R135, R163). -/
structure Share where
  queue    : Fin 4096
  seq      : Nat
  index    : Nat
  count    : Nat
  logical  : Fin 128
  imageLen : Nat
  owner    : Owner
  phase    : Phase := .running
  /-- a move's token became DONE with FAULTED (06 R156) -/
  moveFaulted : Bool := false
  /-- flags of the share's flyer moves (07 R189) -/
  moveFlags : Flags := {}
  drained  : Bool := false
  deriving DecidableEq, Repr

/-- One physical spindle (06 R139, R140). -/
structure Spindle where
  s        : Vector Word 32 := rep 32 0
  sReady   : Vector Nat 32 := rep 32 0
  p        : Vector Bool 8 := rep 8 false
  v        : Vector VReg 32 := rep 32 (rep 128 0)
  e        : Vector Byte 8 := rep 8 0
  tok      : Vector Token 16 := rep 16 .free
  tile     : Vector Tile 4 := rep 4 {}
  slot     : Vector WSlot 2 := rep 2 {}
  rowFile  : Vector RowEntry 128 := rep 128 .empty
  flags    : Flags := {}
  /-- the cycle in which flags were last set, and those set in it: a clear in that cycle leaves them (02 R63) -/
  setAt    : Nat := 0
  setNow   : Flags := {}
  seed     : Word := 0
  /-- in units of 8 B; one bit wider than `PC` to tell the end of a 16 MiB image (log 15) -/
  pc       : BitVec 22 := 0
  cause    : Word := 0
  step     : BitVec 32 := 0
  cycle    : Word := 0
  counting : Bool := false
  bobbin   : List Host.Cell := []
  owner    : Option Owner := none
  share    : Option Share := none
  fetched  : List Instr := []
  nextIssue : Nat := 0
  arrayQ   : List (Nat × ArrOp) := []
  flight   : List Flight := []
  loadFree : Nat := 0
  streamFree : Nat := 0
  slotFree : Vector Nat 2 := rep 2 0
  vpend    : List Pend := []
  vFree    : Nat := 0
  rq       : List Pend := []
  qq       : List Pend := []
  clk      : Nat := 0
  prof     : Vector Word 8 := rep 8 0
  deriving DecidableEq, Repr

/-! ## Moves, flyers, creel and skeins -/

/-- A translated piece of a range: `len` bytes named from `va` on, standing at physical `pa`. -/
structure Seg where
  va  : Nat
  pa  : Nat
  len : Nat
  deriving DecidableEq, Repr

inductive MoveOp where
  | copy | add | fill
  deriving DecidableEq, Repr

/-- A move in a flyer queue or on a flyer (08 R205 to R216), with the translations it captured when
it started (11 R299) and the twist inputs of 02 R53. -/
structure Move where
  origin   : Origin
  queue    : Fin 4096
  op       : MoveOp
  src      : Nat
  dst      : Nat
  shadow   : Nat
  srcSegs  : List Seg
  dstSegs  : List Seg
  shSegs   : List Seg
  fillv    : Lane
  shape    : Word
  fs       : Fmt
  fd       : Fmt
  tr       : Bool
  rm       : RM
  satInf   : Bool
  hint     : Hint
  path     : Path
  scs      : Bool
  scd      : Bool
  seed     : Word
  step     : BitVec 32
  ix       : Word
  deadline : Nat
  missed   : Bool := false
  switched : Bool := false
  /-- destination hanks the primary source had written at the switch (08 R214) -/
  primary  : Nat := 0
  dropped  : Bool := false
  faulted  : Bool := false
  /-- a drain stops the move at a hank boundary (12 R333) -/
  stopped  : Bool := false
  /-- table updates that wait for the move, by queue and sequence number (11 R300) -/
  blocks   : List (Fin 4096 × Nat) := []
  /-- replayed after a channel fault: it starts once the migration has passed its ranges (09 R241) -/
  waitMig  : Bool := false
  deriving DecidableEq, Repr

/-- One flyer of a skein (08 R207, 18 R513). -/
structure Flyer where
  move    : Option Move := none
  failed  : Bool := false
  retired : Bool := false
  deriving DecidableEq, Repr

/-- State of a 4 KiB sector of a binding (08 R220). -/
inductive Sector where
  | invalid | clean | dirty
  deriving DecidableEq, Repr, Inhabited

/-- A creel binding (08 R218 to R225); a skein keeps its bindings oldest first, by the time of their BINDs. `data` holds the bytes written through it and not yet written
back, by their physical address. -/
structure Binding where
  queue    : Fin 4096
  slot     : Fin 64
  backing  : Nat
  segs     : List Seg
  leas     : Nat
  fill     : Bool
  pinned   : Bool
  hint     : Hint
  sectors  : List Sector
  data     : List Host.Cell
  evicting : Bool := false
  /-- table updates that wait for the eviction (11 R300) -/
  blocks   : List (Fin 4096 × Nat) := []
  /-- the time of its BIND, counted in the BINDs of its skein (08 R224) -/
  age      : Nat := 0
  /-- the BIND that evicted it, which waits for the write-back (08 R225) -/
  evictor  : Option (Fin 4096 × Nat) := none
  deriving DecidableEq, Repr

/-- A BIND in flight (08 R224): its translated backing, its age, and the table updates that changed a translation it
holds (11 R299, R300). -/
structure BindWait where
  queue  : Fin 4096
  seq    : Nat
  segs   : List Seg
  age    : Nat
  blocks : List (Fin 4096 × Nat) := []
  deriving DecidableEq, Repr

/-- A change of a skein's map waiting for its kernel boundary (01 R21, R25; 18 R513, R514). -/
inductive MapChange where
  | leave (l : Fin 17)
  | join (l : Fin 17)
  deriving DecidableEq, Repr

inductive PState where
  | p0 | p1 | p2 | p3 | p4
  deriving DecidableEq, Repr, Inhabited

/-- A TLB entry (11 R294, R301): virtual, intermediate and physical address of a page, its size and the
permissions that both stages leave. -/
structure TlbEntry where
  va   : Nat
  ia   : Nat
  pa   : Nat
  size : Nat
  r    : Bool
  w    : Bool
  x    : Bool
  rmt  : Bool
  deriving DecidableEq, Repr

/-- One skein (01 R18, R24). -/
structure Skein where
  phys     : Vector (Fin 32) 16 := vecOf 16 fun i => ⟨i.val, by omega⟩
  healthy  : BitVec 17 := 0x1FFFF
  spare    : Fin 32 := 16
  mapGen   : BitVec 16 := 0
  changes  : List MapChange := []
  divider  : Nat := 6
  /-- N of the current-limit stretches of VDD_CORE and VDD_SRAM, and of a droop stretch (17 R457, R458) -/
  stretch  : Vector (Option Nat) 2 := rep 2 none
  droopN   : Option Nat := none
  /-- dividers the caps of 17 R465, R473 and 15 R423 ask for -/
  stepDiv  : Nat := 6
  thermDiv : Nat := 6
  paceDiv  : Nat := 6
  phase    : Nat := 0
  edges    : Nat := 0
  fq       : List Move := []
  fly      : Vector Flyer 4 := rep 4 {}
  bindings : List Binding := []
  /-- BINDs that wait for leas, oldest first (08 R224, R225), and the number of BINDs so far -/
  bindWait : List BindWait := []
  bindSeq  : Nat := 0
  evictions : Nat := 0
  wbBytes  : Nat := 0
  tlb      : List TlbEntry := []
  hits     : Nat := 0
  misses   : Nat := 0
  energy   : Word := 0
  pstate   : PState := .p0
  exiting  : Bool := false
  /-- by spindle and priority class, the queue whose kernel was served last (12 R327) -/
  lastQ    : Vector (Vector (Fin 4096) 8) 17 := rep 17 (rep 8 4095)
  /-- by priority class, the queue whose MOVE its flyers took in last (12 R327) -/
  lastF    : Vector (Fin 4096) 8 := rep 8 4095
  deriving DecidableEq, Repr

/-! ## Address translation -/

/-- A mapped page of a stage (11 R294, R295). -/
structure Page where
  inp  : Nat
  out  : Nat
  size : Nat
  r    : Bool
  w    : Bool
  x    : Bool
  rmt  : Bool
  deriving DecidableEq, Repr

/-- The work a save image or a page fault belongs to (11 R302, R303). -/
inductive FaultWork where
  | share (logical : Fin 128) (seq : Nat)
  | desc (seq : Nat)
  deriving DecidableEq, Repr

/-- An open page fault (11 R304), or a halted BREAK that RESUME may continue (06 R162, log 21). -/
structure PFault where
  id    : Nat
  queue : Fin 4096
  work  : FaultWork
  brk   : Bool := false
  /-- slot of its fault record -/
  slot  : Nat := 0
  deriving DecidableEq, Repr

/-- A save image (06 R166): a switched-out share with its spindle's state. -/
structure SaveImage where
  queue  : Fin 4096
  /-- which of the 256 images of the reserve it is -/
  slot   : Nat := 0
  share  : Share
  regs   : Spindle
  /-- RESUME has named its fault: the share waits for its spindle's kernel boundary -/
  resume : Bool := false
  deriving DecidableEq, Repr

/-- A TABLE_UPDATE that has dispatched (11 R297 to R300): its records as (first input, first output,
page size, count, permissions R W X RMT, valid). -/
structure TRec where
  inp   : Nat
  out   : Nat
  size  : Nat
  count : Nat
  r     : Bool
  w     : Bool
  x     : Bool
  rmt   : Bool
  valid : Bool
  deriving DecidableEq, Repr

structure TUpdate where
  queue   : Fin 4096
  seq     : Nat
  stage   : Nat
  gen     : Nat
  recs    : List TRec
  auth    : Nat
  raw     : List Byte
  applied : Bool := false
  deriving DecidableEq, Repr

/-- Translation state (11). -/
structure Trans where
  s1        : List Page := []
  s2        : List Page := []
  gen1      : Word := 0
  gen2      : Word := 0
  /-- base, bytes and the interleave that the base names its bytes by (11 R292, 09 R231) -/
  footprint : List (Nat × Nat × List (Fin 8)) := []
  images    : List SaveImage := []
  faults    : List PFault := []
  nextFault : Nat := 1
  updates   : List TUpdate := []
  /-- upper-level entries of the walker cache, by stage and region of 1 GiB, oldest first (11 R301, log 13) -/
  walker    : List (Nat × Nat) := []
  deriving DecidableEq, Repr

/-! ## Queues -/

inductive QState where
  | off | opened | waitPage | held | draining
  deriving DecidableEq, Repr, Inhabited

/-- Where an accepted descriptor stands. `finished`: it waits to be counted in sequence (12 R330). -/
inductive DState where
  | accepted
  | running
  | finished (st : Status) (flags : Flags) (code detail : Nat) (value : Word)
  deriving DecidableEq, Repr

/-- An accepted descriptor: its entries as accepted, and what its completion record needs. -/
structure Desc where
  seq      : Nat
  raw      : List Byte
  dchk     : BitVec 32
  st       : DState := .accepted
  replayed : Bool := false
  start    : Nat := 0
  energy   : Nat := 0
  flags    : Flags := {}
  warm     : Bool := false
  /-- replayed after a channel fault: it starts once the migration has passed its ranges (09 R241) -/
  waitMig  : Bool := false
  /-- a warm reset or stop interrupted it: it finishes before later ones dispatch (12 R340) -/
  intr     : Bool := false
  /-- `SEED` of the queue when it first dispatched: a replay keeps it (12 R328, R338) -/
  seed     : Option Word := none
  deriving DecidableEq, Repr

/-- A kernel in flight: shares not yet launched as (index, logical), shares ended with their status,
cause, flags and EPC (06 R167). -/
structure Kernel where
  queue   : Fin 4096
  seq     : Nat
  segs    : List Seg
  args    : List Seg
  seed    : Word
  warm    : Bool
  count   : Nat
  waiting : List (Nat × Fin 128)
  ended   : List (Nat × Fin 128 × Status × Word × Flags)
  blocks  : List (Fin 4096 × Nat) := []
  /-- stopped with the mill die, with the shares that it took off their spindles and their flags, until it is finished
  (12 R338, R340; 17 R475) -/
  stopped : Bool := false
  cut     : List (Nat × Fin 128 × Flags) := []
  deriving DecidableEq, Repr

/-- The staged group of a queue (12 R311). -/
structure QCfg where
  ringOff   : Nat := 0
  cplOff    : Nat := 0
  log2n     : Nat := 6
  prio      : Nat := 0
  enable    : Bool := false
  stopOnErr : Bool := true
  seed      : Word := 0
  deriving DecidableEq, Repr

/-- One queue (12 R311). -/
structure Queue where
  cfg     : QCfg := {}
  /-- staged words by register offset (00 R11, R14) -/
  staged  : List (Nat × Word) := []
  result  : Status := .ok
  st      : QState := .off
  held    : Bool := false
  la      : Nat := 0
  lc      : Nat := 0
  head    : Nat := 0
  tail    : Nat := 0
  bad     : Nat := 0
  descs   : List Desc := []
  /-- strand of the latest accepted doorbell (12 R331) -/
  strand  : Option (Fin 2048) := none
  /-- doorbells whose entries are not all read: their `TAIL` and strand, oldest first (12 R325) -/
  rings   : List (Nat × Option (Fin 2048)) := []
  /-- a tenancy end turns the drained queue OFF (12 R344) -/
  closing : Bool := false
  leas    : Nat := 32
  pin     : Nat := 0
  quotaSt : Option Word := none
  miss    : Nat := 0
  shadows : Nat := 0
  dropped : Nat := 0
  evicted : Nat := 0
  energy  : Word := 0
  deriving DecidableEq, Repr

/-- The journal (12 R324, R341, R342). -/
structure Journal where
  mirrorA    : Fin 8 := 0
  mirrorB    : Fin 8 := 1
  rebuilding : Bool := false
  lostBoth   : Bool := false
  deriving DecidableEq, Repr

/-! ## Stacked and far memory -/

/-- `STATE` of a channel (09 R255). -/
inductive ChanSt where
  | inService | draining | mappedOut | restoring | notTrained
  deriving DecidableEq, Repr, Inhabited

/-- One memory channel (09 R255, R237): counters since the tenancy began and in the window. -/
structure Chan where
  st     : ChanSt := .notTrained
  ce     : Nat := 0
  ue     : Nat := 0
  /-- errors counted in the window: time in µs, CEs, UEs (09 R237) -/
  recent : List (Nat × Nat × Nat) := []
  cause  : Nat := 0
  deriving DecidableEq, Repr

/-- A line of a reel cache (09 R247); a cache keeps its lines most recent first. -/
structure ReelLine where
  line  : Nat
  dirty : Bool
  keep  : Bool
  deriving DecidableEq, Repr

/-- One reel cache (09 R247, R258). -/
structure Reel where
  lines    : List ReelLine := []
  keepWays : Fin 16 := 12
  hit      : Word := 0
  miss     : Word := 0
  wb       : Word := 0
  /-- by channel of the stack, lines of external traffic that have gone to it with profiling consent (16 R451) -/
  traffic  : Vector Nat 32 := rep 32 0
  deriving DecidableEq, Repr

/-- One stack (09 R230, R243, R254) with its distaffs' registers (10 R288). `reachable`: its alias
window is mapped. -/
structure Stack where
  /-- trained, and waiting for full service where it is not stack 0 or 1 (09 R233) -/
  trained   : Bool := false
  up        : Bool := false
  lost      : Bool := false
  channels  : Nat := 0
  granule   : Nat := 0
  distFailed : BitVec 32 := 0
  /-- distaff work waits for the migration of a fault to pass its ranges (10 R285) -/
  distWait  : Bool := false
  /-- a redo record is being re-applied (10 R288) -/
  distRedo  : Bool := false
  units     : Nat := 0
  addBytes  : Nat := 0
  /-- by priority class, the queue whose sweep its distaffs served last (12 R327) -/
  lastQ     : Vector (Fin 4096) 8 := rep 8 4095
  deriving DecidableEq, Repr

/-- Why and how a stack re-interleaves (09 R238, R242): a channel leaves or joins. -/
structure Migration where
  chan     : Fin 256
  joins    : Bool
  cause    : Nat
  deriving DecidableEq, Repr

/-- State of a CXL link (09 R259). -/
inductive CxlLink where
  | down | training | up | unmapped
  deriving DecidableEq, Repr, Inhabited

/-- One expander window (09 R251, R259). -/
structure Far where
  link : CxlLink := .down
  gib  : Nat := 0
  mapped : Bool := false
  /-- the contents are unspecified since the window was mapped again: the free block they come from -/
  fresh : Option Nat := none
  /-- the reference clock output of the link is on (19 R522) -/
  clkOut : Bool := true
  /-- `CXL_PERST_N` of the link is asserted (19 R524) -/
  perst  : Bool := true
  deriving DecidableEq, Repr

/-- Memory and its controllers (09). `il`: the stacks of the interleave, ascending. -/
structure Mem where
  cells    : List Host.Cell := []
  poison   : List Nat := []
  /-- bursts whose bytes in the creel a creel error has spoilt (09 R234) -/
  creelPoison : List Nat := []
  /-- what a stacked byte reads as that nothing has written since a change of keys or a restoration: in the
  newest range that holds its key, a free value or 0 (16 R433, 09 R242); in none, 0 (log 2) -/
  base     : List (Nat × Nat × Option Nat) := []
  il       : List (Fin 8) := []
  /-- the interleave before a warm reset, which full service maps again (09 R233, 18 R491) -/
  ilKept   : List (Fin 8) := []
  ilMib    : Nat := 0
  memGen   : BitVec 16 := 0
  stack    : Vector Stack 8 := rep 8 {}
  chan     : Vector Chan 256 := rep 256 {}
  mig      : Option Migration := none
  migWait  : List Migration := []
  heldCtrl : List Word := []
  ceLimit  : Nat := 4096
  ceWindow : Nat := 3600
  ueLimit  : Nat := 2
  limSt    : List (Nat × Word) := []
  limRes   : Status := .ok
  /-- a REBUILD written before full service: the interleave forms there (09 R233, R257) -/
  rebuildDue : Bool := false
  reel     : Vector Reel 8 := rep 8 {}
  bifur    : Bool := false
  far      : Vector Far 2 := rep 2 {}
  deriving DecidableEq, Repr

/-! ## Distaff work -/

inductive SweepKind where
  | optim | check | digest
  deriving DecidableEq, Repr

/-- A segment of a sweep block that is present (10 R269) and the units of it that are done (R285).
`base` holds the plane bases W, P, M, V, G. -/
structure SweepSeg where
  stack   : Fin 8
  count   : Nat
  kind    : Bool
  nodecay : Bool
  ix      : Nat
  base    : List Nat
  segs    : List Seg
  bucket0 : Nat
  done    : Nat := 0
  /-- its stack is lost: no further unit runs -/
  lost    : Bool := false
  deriving DecidableEq, Repr

/-- OPTIM and DIGEST work in progress (10 R268 to R287): the block as read at dispatch. -/
structure Sweep where
  queue    : Fin 4096
  seq      : Nat
  kind     : SweepKind
  step     : BitVec 32
  seed     : Word
  block    : List Byte
  blockSeg : List Seg
  tabSegs  : List Seg
  decSegs  : List Seg
  resSegs  : List Seg
  parts    : List SweepSeg
  skip     : Bool
  /-- overflow map of the decision area, as read at dispatch -/
  map      : List Byte := []
  /-- a unit met poison or its stack was lost (10 R285) -/
  bad      : Bool := false
  flags    : Flags := {}
  blocks   : List (Fin 4096 × Nat) := []
  deriving DecidableEq, Repr

/-! ## Twine (14) -/

/-- Where a NOTIFY goes: a strand, or the session strand of the controller or the tenant runtime. -/
inductive Party where
  | strand (n : Fin 2048)
  | controller
  | tenant
  deriving DecidableEq, Repr

/-- A record of an ACCEPT frame (12 R325). -/
structure AccRec where
  queue  : Fin 4096
  result : Status
  old    : Bool
  dchk   : BitVec 32
  seq    : Nat
  head   : Nat
  deriving DecidableEq, Repr

/-- A sequenced frame that waits on a strand (14 R373). `rma`: frame `i` of an RMA descriptor. -/
inductive Msg where
  | notify (kind queue result : Nat) (body : List Byte)
  | accept (recs : List AccRec)
  | rma (queue : Fin 4096) (seq i : Nat)
  /-- `mgmt`: the management domain answers, from the register space -/
  | readResp (req : BitVec 32) (off : Nat) (last : Bool) (data : List Byte) (mgmt : Bool)
  | lag (w0 w1 : Word)
  | pace (w0 w1 : Word)
  deriving DecidableEq, Repr

/-- The datagram that carries a frame (14 R370): its addresses and UDP ports, DSCP, TTL or hop limit, and its tag's VID
and PCP; `icv`: the integrity check value that follows the data (14 R372, R379). -/
structure Encap where
  src   : Nat
  dst   : Nat
  sport : Nat
  dport : Nat
  dscp  : Nat
  ttl   : Nat
  tag   : Option (Nat × Nat)
  icv   : List Byte := []
  deriving DecidableEq, Repr

/-- What a frame's header takes from its operation (14 R372). -/
structure Head where
  type  : Nat
  aty   : Nat := 0
  fetch : Bool := false
  last  : Bool := true
  addr  : Nat := 0
  deriving DecidableEq, Repr

/-- Everything the device sends: frames with the 32 bytes of their headers and what carries them, sideband answers, SPDM responses, pins and pulses (the model's
record of its pins), newest first. -/
inductive Out where
  | frame (port : Fin 32) (strand : Fin 2048) (psn : BitVec 32) (retx : Bool) (msg : Msg) (data : List Byte)
      (hdr : List Byte) (enc : Encap)
  | ack (port : Fin 32) (strand : Fin 2048) (ackPsn : BitVec 32) (bits : List Nat) (sts : List (BitVec 32 × Nat))
      (hdr : List Byte) (enc : Encap)
  /-- `bytes`: header, payload and ICV -/
  | hello (port : Fin 32) (m : HelloMsg) (bytes : List Byte)
  | mac (port : Fin 32) (what : Nat) (fields : List Nat)
  | sideband (code : Nat) (body : List Nat)
  | nack (code : Nat)
  /-- an SPDM message outside a session and within one, with the header of its frame (16 R448) -/
  | spdm (name : Nat) (body : List Nat) (hdr : List Byte)
  | session (id : Nat) (name : Nat) (body : List Nat) (hdr : List Byte)
  | tap (instr : Nat) (dr : Nat)
  /-- levels that EXTEST drives onto the pins, by boundary cell (19 R527) -/
  | drive (cells : Nat)
  | pin (name : Nat) (level : Bool)
  deriving DecidableEq, Repr

/-- What a received sequenced frame asks for. -/
inductive RxBody where
  | write (addr : Word) (data : List Byte)
  | writeFlagged (addr : Word) (data : List Byte)
  | read (addr : Word) (len : BitVec 32)
  | readResp (addr : Word) (data : List Byte)
  | atomicAdd (aty : Nat) (fetch : Bool) (addr : Word) (data : List Byte)
  | doorbell (q : Fin 4096) (drain release : Bool) (tail : Word)
  | tally (id : BitVec 32)
  | lag (w0 w1 : Word)
  | pace (w0 w1 : Word)
  deriving DecidableEq, Repr

/-- `at_`: its receive stamp (13 R358). -/
structure RxFrame where
  h    : FrameHdr
  body : RxBody
  at_  : Nat := 0
  deriving DecidableEq, Repr

/-- A frame sent and not acknowledged (14 R387). -/
structure TxFrame where
  psn   : BitVec 32
  msg   : Msg
  head  : Head
  data  : List Byte
  size  : Nat
  sent  : Nat
  retx  : Bool := false
  again : Bool := false
  deriving DecidableEq, Repr

/-- `STATE` of a strand (14 R376). -/
inductive StrandSt where
  | closed | opening | opened | stalled | lost
  deriving DecidableEq, Repr, Inhabited

/-- `STRAND_CFG` and the peer address in effect (14 R376). -/
structure StrandCfg where
  peerStrand : Nat := 0
  group  : Fin 8 := 0
  owner  : Nat := 0
  enable : Bool := false
  udp    : Nat := 47130
  ip     : Nat := 0
  deriving DecidableEq, Repr

/-- One strand (14 R375 to R394). Times in ns. -/
structure Strand where
  cfg     : StrandCfg := {}
  staged  : List (Nat × Word) := []
  result  : Status := .ok
  st      : StrandSt := .closed
  session : Bool := false
  port    : Fin 32 := 0
  path    : Nat := 0
  hold    : Bool := false
  epoch   : BitVec 32 := 0
  /-- `OPEN_EPOCH` of the peer's opening, where its HELLO has told it (14 R377, log 153) -/
  peerEpoch : Option (BitVec 32) := none
  /-- `FUSE_ID` and `BOOT_NONCE` of the peer's last valid HELLO -/
  peerId  : Nat := 0
  peerNonce : Option Word := none
  helloAt : Option Nat := none
  nextPsn : BitVec 32 := 0
  txq     : List Msg := []
  unacked : List TxFrame := []
  window  : Nat := 0
  srtt    : Option Nat := none
  rttvar  : Nat := 0
  samples : List (Nat × Nat) := []
  /-- time and RTT sample of the last cut of the window (14 R390) -/
  cut     : Option (Nat × Nat) := none
  /-- consecutive expiries without progress, and those on the present path (14 R387, R391) -/
  backoff : Nat := 0
  pathExp : Nat := 0
  expired : List (Fin 32) := []
  /-- a change of the group's membership makes the next window update choose the path again -/
  rechoose : Bool := false
  rxC     : BitVec 32 := 0
  rxBits  : List (BitVec 32) := []
  rxSt    : List (BitVec 32 × Nat) := []
  held    : List RxFrame := []
  ackDue  : Nat := 0
  /-- `TS` of the frame applied last, and when it came (14 R389) -/
  tsEcho  : BitVec 32 := 0
  tsAt    : Option Nat := none
  txc     : Nat := 0
  rxc     : Nat := 0
  txPhase : Nat := 0
  /-- TXC at which the sender's key phase began (14 R379) -/
  phaseAt : Nat := 0
  rxPhase : Nat := 0
  oldPhase : Bool := false
  /-- generations of TRANSIT under which the peer of a tenant-owned strand sends, in this key phase and in the one before
  it (16 R436) -/
  rxGen   : BitVec 32 := 0
  oldGen  : BitVec 32 := 0
  deriving DecidableEq, Repr

/-- An RMA descriptor in flight (14 R381). `resp`: requests whose responses are not all written, as
(PSN, frame, bytes missing). -/
structure Rma where
  queue   : Fin 4096
  seq     : Nat
  strand  : Fin 2048
  rop     : Nat
  aty     : Nat
  fetch   : Bool
  len     : Nat
  remote  : Nat
  base    : Nat
  segs    : List Seg
  resBase : Nat
  resSegs : List Seg
  d       : Nat
  acked   : Nat := 0
  resp    : List (BitVec 32 × Nat × Nat) := []
  st      : Status := .ok
  /-- generation of TRANSIT that it captured (16 R435) -/
  keyGen  : Nat := 0
  blocks  : List (Fin 4096 × Nat) := []
  deriving DecidableEq, Repr

/-- `GROUP_ADDR` of a port group (14 R395). -/
structure GroupAddr where
  v4   : Nat := 0
  v4en : Bool := false
  v6en : Bool := false
  v6   : Nat := 0
  deriving DecidableEq, Repr

/-- The Twine engine (14 R395, R396). -/
structure Twine where
  udp      : Nat := 47130
  target   : Nat := 10
  pathLost : Nat := 2000
  warmHold : Nat := 30
  rtoInit  : Nat := 100
  groups   : Vector GroupAddr 8 := rep 8 {}
  staged   : List (Nat × Word) := []
  result   : Status := .ok
  retx     : Nat := 0
  dups     : Nat := 0
  bad      : Nat := 0
  viol     : Nat := 0
  strands  : Vector Strand 2048 := rep 2048 {}
  rmas     : List Rma := []
  helloCnt : Nat := 0
  /-- HELLO counters accepted, by `FUSE_ID` and `BOOT_NONCE` (14 R378) -/
  heard    : List (Nat × Word × Nat) := []
  nonce    : Word := Config.bootNonce 0
  /-- frames that wait for the exit from P3 in the receive buffers (17 R471) -/
  waiting  : List RxFrame := []
  /-- headers, addresses and lengths that a compatibility scrub left in the receive buffers (16 R446) -/
  residue  : List (FrameHdr × Word × Nat) := []
  deriving DecidableEq, Repr

/-! ## Ports (13) -/

inductive Link where
  | down | training | up | off
  deriving DecidableEq, Repr, Inhabited

/-- `PORT_CFG` and `PORT_FC` in effect (13 R352). `pmd` resets to what the boot image sets (log 7). -/
structure PortCfg where
  enable  : Bool := true
  pmd     : Nat := 1
  fec     : Nat := 0
  an      : Bool := true
  precode : Bool := false
  pause   : Bool := false
  pfc     : BitVec 8 := 0
  group   : Fin 8 := 0
  vlan    : Bool := false
  vid     : Nat := 0
  dataPcp : Nat := 3
  ctrlPcp : Nat := 6
  maxFrame : Nat := 9216
  xoff    : Nat := 75
  xon     : Nat := 50
  upHold  : Nat := 100
  storm   : Nat := 100
  deriving DecidableEq, Repr

structure Port where
  cfg      : PortCfg := {}
  link     : Link := .off
  joined   : Bool := false
  degraded : Bool := false
  lldp     : Bool := false
  twine    : Bool := false
  xoffTx   : BitVec 8 := 0
  xoffRx   : BitVec 8 := 0
  storm    : Bool := false
  failed   : Bool := false
  retired  : Bool := false
  flaps    : Nat := 0
  rxDrop   : Nat := 0
  fecCorr  : Nat := 0
  fecUncorr : Nat := 0
  fcsBad   : Nat := 0
  attempts : Nat := 0
  /-- bytes of its receive buffer as last told (13 R359) -/
  fill     : Nat := 0
  /-- control frames that a received pause holds back, oldest first (13 R360) -/
  ctrlQ    : List Out := []
  deriving DecidableEq, Repr

structure Eth where
  mode    : Nat := 2
  staged  : List (Nat × Word) := []
  result  : Status := .ok
  ports   : Vector Port 32 := rep 32 {}
  wakeEn  : BitVec 32 := 1
  magic   : Bool := false
  twineWake : Bool := true
  deriving DecidableEq, Repr

/-! ## Ply groups (15) -/

/-- Peer table entry (15 R401). -/
structure Peer where
  strand : Fin 2048 := 0
  fuseLo : Word := 0
  failed : Bool := false
  lagPm  : Nat := 1000
  hello  : Nat := 0
  deriving DecidableEq, Repr

inductive PlySt where
  | off | forming | ready | degraded | adopting
  deriving DecidableEq, Repr, Inhabited

/-- `PLY_CFG`, `PLY_CFG2`, `PLY_MAP`, `PLY_ADOPT` in effect (15 R402). -/
structure PlyCfg where
  group    : Nat := 0
  members  : Nat := 1
  index    : Nat := 0
  enable   : Bool := false
  step     : Bool := false
  master   : Nat := 0
  masterSet : Bool := false
  nodeLog2 : Nat := 0
  digestN  : Nat := 0
  bucketLog2 : Nat := 0
  gen      : Nat := 0
  shard    : Nat := 0
  paceEn   : Bool := false
  pacePct  : Nat := 95
  paceMin  : Nat := 50
  map      : List Nat := List.replicate 64 0xFF
  adoptEpoch : Nat := 0
  adopt    : Bool := false
  deriving DecidableEq, Repr

/-- One transfer of a collective's schedule: the bytes of DST or SRC that a chunk from a peer is added to
or written to; none where this member only sends (15 R407 to R409). -/
inductive Xfer where
  | send
  | add (addr n : Nat)
  | store (addr n : Nat)
  deriving DecidableEq, Repr

inductive GKind where
  | collective (cop : Nat)
  | check
  | digest
  deriving DecidableEq, Repr

/-- A group operation (15 R405): it waits for the slot and the operations before it, then for the
members' contributions, then moves data. `plan` holds the transfers still to come. -/
structure GOp where
  queue  : Fin 4096
  seq    : Nat
  slot   : Fin 8
  kind   : GKind
  fmt    : Nat := 0
  count  : Nat := 0
  step   : Nat := 0
  alg    : Nat := 0
  root   : Nat := 0
  crc    : Option Word := none
  src    : Nat := 0
  dst    : Nat := 0
  srcSegs : List Seg := []
  dstSegs : List Seg := []
  data   : Bool := false
  plan   : List Xfer := []
  flags  : Flags := {}
  /-- what a CHECK or DIGEST contributes: `NBUCKETS`, `SKIP`, `SEG_MASK`, `DPLANES`, the map or the entries -/
  nb     : Nat := 0
  skip   : Bool := false
  mask   : Nat := 0
  planes : Nat := 0
  body   : List Byte := []
  decSegs : List Seg := []
  decBase : Nat := 0
  value  : List (Nat × List Byte) := []
  resSegs : List Seg := []
  blocks : List (Fin 4096 × Nat) := []
  deriving DecidableEq, Repr

/-- A LAG held by a master (15 R422). -/
structure Lag where
  member : Nat
  rate   : Nat
  dur    : Nat
  deriving DecidableEq, Repr

/-- One group slot (15 R402, R419). -/
structure Ply where
  cfg     : PlyCfg := {}
  staged  : List (Nat × Word) := []
  result  : Status := .ok
  st      : PlySt := .off
  failed  : BitVec 64 := 0
  pacePm  : Nat := 1000
  match_  : BitVec 32 := 0
  epoch   : BitVec 32 := 0
  epochStep : Nat := 0
  lags    : List Lag := []
  /-- last LAG that this device sent, and its `RATE_PM` -/
  lagSent : Option Nat := none
  paceOut : Nat := 0
  paceIn  : Nat := 0
  pacing  : Bool := false
  /-- duration of the pace in ms, 0 until ended (15 R421) -/
  paceDur : Nat := 0
  /-- as master, this device has ordered a pace that it has not ended (15 R422) -/
  paceOn  : Bool := false
  lastStep : Nat := 0
  freshDigest : Bool := false
  idlePeer : Vector Word 64 := rep 64 0
  idleMem : Word := 0
  idleNet : Word := 0
  /-- THROTTLE_SELF in thousandths of a cycle -/
  idleSelf : Nat := 0
  idleTpeer : Word := 0
  /-- this device is the spare that adopts an index (15 R426) -/
  spare   : Bool := false
  /-- FAILED members whose entries a commit has given to a spare (15 R426) -/
  adopted : BitVec 64 := 0
  /-- by priority class, the queue whose collective was dispatched last (12 R327) -/
  lastQ   : Vector (Fin 4096) 8 := rep 8 4095
  deriving DecidableEq, Repr

structure Groups where
  slots   : Vector Ply 8 := rep 8 {}
  peers   : Vector Peer 64 := rep 64 {}
  peerSt  : List (Nat × Word) := []
  peerRes : Status := .ok
  ops     : List GOp := []
  deriving DecidableEq, Repr

/-! ## Security (16) -/

/-- A key slot (16 R434). -/
inductive KeySt where
  | empty | loaded | draining | next
  deriving DecidableEq, Repr, Inhabited

/-- A key slot: `key` is the key derived for the generation in effect (16 R431, R434). -/
structure KeySlot where
  st   : KeySt := .empty
  gen  : BitVec 32 := 0
  key  : Option Nat := none
  deriving DecidableEq, Repr

/-- A kernel that completed while its trace was recorded: when it started and ended (16 R451). -/
structure KernelTrace where
  queue : Fin 4096
  seq   : Nat
  start : Nat
  stop  : Nat
  deriving DecidableEq, Repr

/-- An SPDM session (16 R449). -/
structure Session where
  id     : Nat
  party  : Option Owner
  ready  : Bool := false
  strand : Option (Fin 2048) := none
  /-- its number among the sessions since reset: its secrets are its own -/
  no     : Nat := 0
  /-- it has been granted the lease under the pair in force (18 R499) -/
  holds  : Bool := false
  deriving DecidableEq, Repr

/-- A lodged STAGE2_WIDEN authorisation (16 R440). -/
structure Lodged where
  aseq : Nat
  gen  : Nat
  hash : BitVec 384
  deriving DecidableEq, Repr

/-- Where a tenancy's start or end stands (16 R442, R443). -/
inductive TenPhase where
  | none | starting | draining | scrubbing
  deriving DecidableEq, Repr, Inhabited

/-- The security controller (16). Non-volatile values are those of a new device (log 8). -/
structure Sec where
  tenancyOn : Bool := false
  /-- non-volatile: a tenancy that a cold reset has ended and no boot has yet recorded (16 R444) -/
  stale     : Bool := false
  phase     : TenPhase := .none
  /-- the counter has yet to show the change in progress (16 R442, R443) -/
  ctrDue    : Bool := false
  /-- when the start in progress was accepted, while its keys are yet to be loaded (16 R442) -/
  keysDue   : Option Nat := none
  debug     : Bool := false
  profile   : Bool := false
  /-- a debugger is attached, and the kernel traces recorded (16 R451) -/
  attached  : Bool := false
  /-- TRST_N, which its pull-down holds low, the TAP's current instruction by the number it answers with, IDCODE after a reset
  of the TAP, and the boundary cells (19 R526, R527) -/
  trst      : Bool := false
  tapNow    : Nat := 1
  tapCells  : Nat := 0
  trace     : List KernelTrace := []
  scrubMode : Bool := false
  scrubSt   : List (Nat × Word) := []
  scrubRes  : Status := .ok
  override  : Bool := false
  /-- when the override's duration expires (17 R477) -/
  overrideEnd : Nat := 0
  ctr       : Nat := 0
  lodged    : List Lodged := []
  authRes   : Status := .ok
  lastAseq  : Nat := 0
  /-- authorisations that wait for the effect of the one before them: session, or none for the lodging
  area -/
  authWait  : List (Option Nat × List Byte) := []
  /-- `AKIND` and `ASEQ` of the start or end in progress -/
  authNow   : Nat × Nat := (0, 0)
  keys      : Vector KeySlot 4 := rep 4 {}
  transitNext : Option (List Byte) := none
  /-- TRANSIT values activated and not yet in effect, oldest first (16 R435) -/
  transitPend : List (List Byte) := []
  /-- when the rewrite in progress began (16 R435) -/
  rewriteAt : Nat := 0
  oldTransit : Bool := false
  /-- the operator credential of the last OPERATOR_ROTATE; none: that of the fused digest (16 R437) -/
  opKey     : Option (List Byte) := none
  tnKey     : List Byte := []
  transit   : List Byte := []
  sessions  : List Session := []
  /-- sessions that END_SESSION has ended: their request is answered again (16 R448) -/
  ended     : List Nat := []
  nextSession : Nat := 0
  /-- SPDM answers that wait for a port that sends control frames, oldest first (13 R360) -/
  spdmQ     : List Out := []
  /-- epoch and ID of the lease holder, and the session granted last (18 R498) -/
  lease     : Option (Nat × Nat × Nat) := none
  leaseEpoch : Nat := 0
  wakeCtr   : Nat := 0
  deriving DecidableEq, Repr

/-! ## Power (17) -/

/-- `RAIL_MEAS` of a rail (17 R472), with what R460 and R461 keep: `us` is the 1 µs estimate, `div` and `distPm` the
divider and the bank time by thousandths that its 100 µs limit asks for (17 R456). -/
structure Rail where
  est     : Nat := 0
  us      : Nat := 0
  div     : Nat := 6
  distPm  : Nat := 1000
  reg     : Nat := 0
  mv      : Nat := 0
  gainErr : BitVec 8 := 0
  /-- sum of the corrections of the estimator's gain, in 0.1% (17 R460) -/
  gain    : Int := 0
  missing : Bool := false
  streak  : Nat := 0
  fault   : Bool := false
  deriving DecidableEq, Repr

/-- Phase table entry (17 R464). -/
structure PhaseEnt where
  spin    : Nat := 0
  stack   : Nat := 0
  net     : Nat := 0
  samples : Nat := 0
  deriving DecidableEq, Repr

/-- The treadle (17). Temperatures in °C. -/
structure Pwr where
  cap     : Nat := 850
  burst   : Nat := 950
  window  : Nat := 1000
  staged  : List (Nat × Word) := []
  result  : Status := .ok
  latTol  : Nat := 50
  allowP4 : Bool := false
  idleP4  : Nat := 60
  pstate  : PState := .p0
  exiting : Bool := false
  boardCap : Nat := 850
  pkgW    : Nat := 0
  /-- start of the burst in progress, and until when the average stays at the cap after one (17 R462) -/
  burstAt : Option Nat := none
  holdUntil : Nat := 0
  /-- package energies of the last ten intervals of 10 µs, in µJ, newest first -/
  recent  : List Nat := []
  /-- package energies of the full milliseconds of the window, newest first, and of the one in progress with its intervals
  (17 R462) -/
  msUj    : List Nat := []
  msAcc   : Nat := 0
  msCnt   : Nat := 0
  /-- the treadle's last measurements, and whether a dispatch of tagged work asks for a grant (17 R465) -/
  grantIn : Option GrantIn := none
  grantDue : Bool := false
  rails   : Vector Rail 7 := rep 7 {}
  phases  : Vector PhaseEnt 256 := rep 256 {}
  pkgUj   : Word := 0
  unattr  : Word := 0
  /-- PMBus address of each regulator, AVSBus interface and rail select of each rail (18 R485) -/
  pmbus   : List Nat := []
  avs     : List (Nat × Nat) := []
  inlet   : Nat := 0xFF
  /-- inlet temperatures read in the last second, newest first (17 R478) -/
  inlets  : List Nat := []
  tj      : Vector Nat 8 := rep 8 0
  tjIo    : Nat := 0
  tBase   : Vector Nat 8 := rep 8 0
  /-- stacks whose distaff work temperature has stopped, base dies that hold every skein at ÷24, and bank time by
  thousandths (17 R465, R473) -/
  distHot : BitVec 8 := 0
  baseHot : BitVec 8 := 0
  ioHot   : Bool := false
  distPm  : Nat := 1000
  pacePm  : Nat := 1000
  /-- what the limit of VDD_SERDES leaves of the pacing rate (17 R456) -/
  railPacePm : Nat := 1000
  regFault : Bool := false
  airLow  : Bool := false
  /-- stopped by an airflow fault or a thermal trip (17 R474, R475) -/
  stopped : Bool := false
  dieOff  : Bool := false
  /-- wake frame whose check waits for the exit from P4: port, magic, genuine, counter (13 R368) -/
  wake    : Option (Fin 32 × Bool × Bool × Word) := none
  tripped : Bool := false
  /-- stopped by a thermal trip that no warm reset has yet released (17 R474) -/
  tripHold : Bool := false
  deriving DecidableEq, Repr

/-! ## Management (18) -/

/-- `PHASE` of bring-up (18 R492). -/
inductive Boot where
  | reset | mgmt | warmup | full | stopped | recovery
  deriving DecidableEq, Repr, Inhabited

/-- An open fault record in its snapshot slot: eight words (18 R508). -/
structure FaultRec where
  slot  : Nat
  words : List Word
  deriving DecidableEq, Repr

/-- The order that `UNIT_CTRL` runs (18 R512 to R514). -/
structure UnitOrder where
  unit  : Nat := 0
  index : Nat := 0
  busy  : Bool := false
  result : Status := .ok
  /-- unit and index of the order that runs -/
  runUnit  : Nat := 0
  runIndex : Nat := 0
  deriving DecidableEq, Repr

/-- An image slot of the flash (18 R483, R486): as it left manufacture, as a write that has not ended or has failed leaves it, or
holding an image that the device wrote, its segments encrypted under a FIRMWARE key. -/
inductive FlashSlot where
  | made
  | torn
  | image (bytes : List Byte) (key : Nat)
  deriving DecidableEq, Repr

/-- A copy of the trim table (18 R493, R495): as it left manufacture, as an unfinished write or a loss leaves it, or written, as
an exported factory table or not. -/
inductive TrimCopy where
  | made
  | torn
  | table (bytes : List Byte) (factory : Bool)
  deriving DecidableEq, Repr

/-- What a snapshot of queues and journal is taken from, as last recorded before a stop (12 R347): the queues, the bindings
that they hold by skein, `JOURNAL`, and whether the journal paused acceptance. -/
structure AtStop where
  queues  : Vector Queue 4096
  binds   : Vector (List Binding) 8
  journal : Nat
  pauses  : Bool
  deriving DecidableEq, Repr

/-- Management controller (18). Fault records stand oldest first. `win`: the byte-addressed windows of
the register space, by their offset. -/
structure Mgmt where
  phase   : Boot := .reset
  faults  : List FaultRec := []
  dropped : Nat := 0
  warmBoot : Bool := false
  slot    : Bool := false
  fallback : Bool := false
  /-- non-volatile: the slot of the last boot, B or A, tried first unless the other is marked (18 R484, R487) -/
  lastB   : Bool := false
  cfgDefault : Bool := false
  /-- SMBus target address (18 R485) -/
  sbAddr  : BitVec 7 := 0x4A
  skeinsUp : BitVec 8 := 0
  stacksUp : BitVec 8 := 0
  cxlDone : Bool := false
  resetAt : Nat := 0
  coldAt  : Nat := 0
  warms   : Nat := 0
  /-- RESET_N and TEST_EN as seen, and loss of the reference (19 R526, R519; 01 R35) -/
  resetN  : Bool := false
  testEn  : Bool := false
  /-- the supply monitors have seen every rail in range for 1 ms since RESET_N rose (19 R530) -/
  railsOk : Bool := false
  clockLost : Bool := false
  /-- a warm reset that has begun and not resumed (12 R340) -/
  warming : Bool := false
  restarting : Bool := false
  stop    : Bool := false
  run     : Bool := true
  /-- phase to return to when both sides say RUN -/
  resume  : Boot := .full
  sbEvents : BitVec 3 := 0
  recovered : Nat := 0
  /-- the image being written to the inactive slot -/
  fwStage : Option (List Byte) := none
  /-- non-volatile: the image slots A and B of the flash (18 R483) -/
  flash   : Vector FlashSlot 2 := rep 2 .made
  fwRes   : Status := .ok
  marked  : Bool := false
  minSvn  : Nat := 0
  svn     : Nat := 0
  fwVersion : Word := 0
  fwHash  : BitVec 384 := 0
  fwLen   : Nat := 0
  trimBusy : Bool := false
  trimRes : Status := .ok
  /-- non-volatile: the two copies of the trim table, and whether the second is the one in use (18 R493, R495) -/
  trims   : Vector TrimCopy 2 := rep 2 .made
  trimB   : Bool := false
  /-- a table being written, and whether it is an exported factory table -/
  trimNew : Option (List Byte × Bool) := none
  calValid : Bool := true
  calFactory : Bool := true
  ackWord : Word := 0
  unit    : UnitOrder := {}
  d2d     : Word := 0
  win     : List Host.Cell := []
  /-- TALLYs that wait to be taken, oldest first, with the strands they came on (12 R345) -/
  tally   : List (BitVec 32 × Fin 2048) := []
  frozen  : Bool := false
  /-- moves of descriptors that a stop took off their flyers, with the flags they had set, until they are finished
  (12 R338, R340) -/
  parked  : List (Move × Flags) := []
  /-- what the queue section showed last before the stop that powers the mill die off (12 R347) -/
  atStop  : Option AtStop := none
  deriving DecidableEq, Repr

/-- The state of the block. -/
structure State where
  spindles : Vector Spindle 136 := rep 136 {}
  skeins   : Vector Skein 8 := rep 8 {}
  mem      : Mem := {}
  sweeps   : List Sweep := []
  trans    : Trans := {}
  queues   : Vector Queue 4096 :=
    upd (rep 4096 {}) 0 { cfg := { cplOff := 0x1000, prio := 7, enable := true }, st := .opened }
  /-- `RESULT` of `CREEL_QUOTA_COMMIT` (08 R227) -/
  quotaRes : Status := .ok
  kernels  : List Kernel := []
  jrn      : Journal := {}
  twine    : Twine := {}
  eth      : Eth := {}
  ply      : Groups := {}
  sec      : Sec := {}
  pwr      : Pwr := {}
  mgmt     : Mgmt := {}
  out      : List Out := []
  now      : Nat := 0
  free     : Nat := 0
  pending  : List Instr := []
  deriving DecidableEq, Repr

/-- The machine right after power-on reset, before RESET_N rises. -/
def State.reset : State := {}

end Sys2Proof.Machine
end

