-- ==== Sys2Proof/Machine/Ops.lean ====
section
/-!
DEFINITION. The named operations over memory and the register tables: canonical byte lists, the
physical address map, creel coherence, poison, reel cache lines.
-/

namespace Sys2Proof.Machine

/-- What a meaning answers. -/
abbrev Res := Host.Outcome State Fault Refusal

/-! ## Byte lists -/

/-- The byte at `a`; an unlisted byte reads 0 (log 2). -/
def cellGet : List Host.Cell → Nat → Byte
  | [], _ => 0
  | (k, b) :: m, a => if k = a then b else cellGet m a

/-- The list with byte `b` at `a`, in the canonical form: addresses rise, no entry is 0. -/
def cellSet : List Host.Cell → Nat → Byte → List Host.Cell
  | [], a, b => if b = 0 then [] else [(a, b)]
  | (k, c) :: m, a, b =>
    if a < k then (if b = 0 then (k, c) :: m else (a, b) :: (k, c) :: m)
    else if a = k then (if b = 0 then m else (a, b) :: m)
    else (k, c) :: cellSet m a b

/-- The canonical form of a memory: strictly rising addresses, no entry equal to 0. -/
def Memory.wf : List Host.Cell → Bool
  | [] => true
  | [(_, b)] => b != 0
  | (k, b) :: (k', b') :: m => decide (k < k') && b != 0 && Memory.wf ((k', b') :: m)

/-- `n` bytes from `a` on. -/
def cellsRead (m : List Host.Cell) (a n : Nat) : List Byte :=
  (List.range n).map fun i => cellGet m (a + i)

/-- Consecutive bytes written from `a` on. -/
def cellsWrite : List Host.Cell → Nat → List Byte → List Host.Cell
  | m, _, [] => m
  | m, a, b :: bs => cellsWrite (cellSet m a b) (a + 1) bs

/-- The byte at `a` where the list holds one. -/
def overlayGet : List Host.Cell → Nat → Option Byte
  | [], _ => none
  | (k, b) :: m, a => if k = a then some b else overlayGet m a

/-- The list with an entry for `a`, zero or not, addresses rising. -/
def overlayPut : List Host.Cell → Nat → Byte → List Host.Cell
  | [], a, b => [(a, b)]
  | (k, c) :: m, a, b =>
    if a < k then (a, b) :: (k, c) :: m
    else if a = k then (a, b) :: m
    else (k, c) :: overlayPut m a b

/-- The number whose little-endian bytes are given (00 R9). -/
def leNat : List Byte → Nat
  | [] => 0
  | b :: bs => b.toNat + 256 * leNat bs

/-- The `n` little-endian bytes of a number. -/
def leBytes : Nat → Nat → List Byte
  | 0, _ => []
  | n + 1, x => BitVec.ofNat 8 x :: leBytes n (x / 256)

/-- A 64-bit little-endian word at byte `o` of a byte list. -/
def word64 (bs : List Byte) (o : Nat) : Nat := leNat ((bs.drop o).take 8)

/-- Bits `lo` to `hi` of the 64-bit word at byte `o`. -/
def fieldAt (bs : List Byte) (o lo hi : Nat) : Nat := bitsOf (word64 bs o) lo (hi + 1 - lo)

/-- `n` elements of `w` bits from a little-endian byte list (02 R37). -/
def elems (w n : Nat) (bs : List Byte) : List Nat :=
  let x := leNat bs
  (List.range n).map fun i => bitsOf x (w * i) w

/-- Elements of `w` bits packed into a number (02 R37). -/
def packNat (w : Nat) : List Nat → Nat
  | [] => 0
  | c :: cs => c % 2 ^ w + 2 ^ w * packNat w cs

/-- Elements of `w` bits packed into bytes (02 R37). -/
def packBytes (w : Nat) (cs : List Nat) : List Byte := leBytes ((w * cs.length + 7) / 8) (packNat w cs)

/-- Elements packed over old bytes, whose bits beyond the last element keep their value (08 R209). -/
def packOver (w : Nat) (cs : List Nat) (old : List Byte) : List Byte :=
  let k := w * cs.length
  leBytes ((k + 7) / 8) (packNat w cs + leNat (old.take ((k + 7) / 8)) / 2 ^ k * 2 ^ k)

/-! ## Tables -/

def State.sp (s : State) (p : Fin 136) : Spindle := s.spindles.get p
def State.setSp (s : State) (p : Fin 136) (x : Spindle) : State :=
  { s with spindles := upd s.spindles p x }
def State.sk (s : State) (k : Fin 8) : Skein := s.skeins.get k
def State.setSk (s : State) (k : Fin 8) (x : Skein) : State :=
  { s with skeins := upd s.skeins k x }
def State.q (s : State) (q : Fin 4096) : Queue := s.queues.get q
def State.setQ (s : State) (q : Fin 4096) (x : Queue) : State :=
  { s with queues := upd s.queues q x }
def State.setMem (s : State) (m : Mem) : State := { s with mem := m }
def State.setTrans (s : State) (t : Trans) : State := { s with trans := t }
/-- A frame or answer sent. -/
def State.say (s : State) (o : Out) : State := { s with out := o :: s.out }
def State.strand (s : State) (n : Fin 2048) : Strand := s.twine.strands.get n
def State.setStrand (s : State) (n : Fin 2048) (x : Strand) : State :=
  { s with twine := { s.twine with strands := upd s.twine.strands n x } }
def State.port (s : State) (p : Fin 32) : Port := s.eth.ports.get p
def State.setPort (s : State) (p : Fin 32) (x : Port) : State :=
  { s with eth := { s.eth with ports := upd s.eth.ports p x } }
def State.slot (s : State) (k : Fin 8) : Ply := s.ply.slots.get k
def State.setSlot (s : State) (k : Fin 8) (x : Ply) : State :=
  { s with ply := { s.ply with slots := upd s.ply.slots k x } }
def State.setMgmt (s : State) (m : Mgmt) : State := { s with mgmt := m }
def State.setSec (s : State) (x : Sec) : State := { s with sec := x }
def State.setPwr (s : State) (x : Pwr) : State := { s with pwr := x }
/-- Whether the device is in service: in warm-up and full service, unless a stop, a warm reset, the loss of the
reference or a powered-down die holds it (12 R335, R340; 17 R475; 18 R504; 01 R35). -/
def State.inService (s : State) : Bool :=
  (s.mgmt.phase == .warmup || s.mgmt.phase == .full) && !s.mgmt.warming && !s.mgmt.clockLost &&
  !s.pwr.stopped && !s.pwr.dieOff
/-- Whether the mill die works: in service and awake, since in P3 and P4 the stacks are in self-refresh (17 R471). -/
def State.serving (s : State) : Bool := s.inService && s.pwr.pstate != .p3 && s.pwr.pstate != .p4
/-- Whether the work of a queue goes on: before full service that of queues 0 to 15 alone (12 R335; 18 R489, R491). -/
def State.worksFor (s : State) (q : Fin 4096) : Bool :=
  s.serving && (s.mgmt.phase == .full || decide (q.val < 16))
/-- A staged word: a register of a staged group keeps its latest word (00 R11). -/
def stageWord (l : List (Nat × Word)) (off : Nat) (w : Word) : List (Nat × Word) :=
  (off, w) :: l.filter fun x => x.1 != off
/-- The staged word of a register, or the word in effect. -/
def stagedOr (l : List (Nat × Word)) (off : Nat) (w : Word) : Word :=
  ((l.find? fun x => x.1 == off).map (·.2)).getD w
/-- A counter that saturates at `w` bits. -/
def satAdd (w n : Nat) : Nat := min (2 ^ w - 1) (n + 1)
/-- The next free value and the state that has drawn it (log 4). -/
def State.draw (s : State) : Word × State := (Config.freeWord s.free, { s with free := s.free + 1 })

/-- The skein of a physical spindle (01 R18). -/
def skeinOf (p : Fin 136) : Fin 8 := ⟨p.val / 17, by omega⟩
/-- The local index of a physical spindle. -/
def localOf (p : Fin 136) : Fin 17 := ⟨p.val % 17, Nat.mod_lt _ (by omega)⟩
/-- Physical spindle `l` of skein `k`. -/
def physOf (k : Fin 8) (l : Fin 17) : Fin 136 := ⟨k.val * 17 + l.val, by omega⟩
/-- The owner of a queue (12 R310). -/
def queueOwner (q : Fin 4096) : Owner := if q.val < 16 then .controller else .tenant

/-- Bobbin base address of a physical spindle (08 R196). -/
def bobbinBase (p : Fin 136) : Nat := p.val * 0x100000

/-! ## The physical address map (08 R196, 09 R231 to R233) -/

/-- Where a physical address leads. A stacked byte is keyed by its alias address, a byte of the
reserve by its interleaved address, a far byte by its address. -/
inductive Loc where
  | bobbin (p : Fin 136) (off : Nat)
  | creel (k : Fin 8) (off : Nat)
  | reg (off : Nat)
  | reserve (key : Nat)
  | stacked (key : Nat)
  | far (key : Nat)
  | unmapped
  deriving DecidableEq, Repr

def ilBase : Nat := 0x1000000000
def aliasBase (k : Nat) : Nat := 0x10000000000 + k * 0x1000000000
def mib : Nat := 0x100000

/-- Size in bytes of stack `k`'s alias window (09 R231). -/
def aliasSize (m : Mem) (k : Fin 8) : Nat := (m.stack.get k).channels * (1536 * mib)

/-- Whether alias window `k` is mapped (09 R233, R243). -/
def aliasMapped (m : Mem) (k : Fin 8) : Bool := (m.stack.get k).up && !(m.stack.get k).lost

/-- Top of the reserve part of the interleaved range (09 R232). -/
def reserveTop (m : Mem) : Nat :=
  ilBase + (if m.il.length = 0 then 8 else m.il.length) * (512 * mib)

/-- The stacks that serve the interleaved range: those of the interleave, or for its reserve part, where there is none, the
stacks in service (09 R232, R233, R243). -/
def servers (m : Mem) : List (Fin 8) := if m.il = [] then (List.finRange 8).filter (aliasMapped m) else m.il

/-- Alias address of a byte of the interleaved range (09 R231). -/
def aliasOf (m : Mem) (a : Nat) : Nat :=
  let g := (a - ilBase) / 4096
  let l := servers m
  let k := l.getD (g % l.length) 0
  aliasBase k.val + g / l.length * 4096 + a % 4096

/-- The name of an alias address in an interleave over given stacks (09 R231); another address has none. -/
def ilNameIn (il : List (Fin 8)) (key : Nat) : Option Nat :=
  if key < 0x10000000000 then none else
  (il.findIdx? (fun x => x.val = (key - 0x10000000000) / 0x1000000000)).map fun i =>
    ilBase + (key % 0x1000000000 / 4096 * il.length + i) * 4096 + key % 4096

/-- The interleaved name of an alias address whose stack is in the interleave (09 R231). -/
def ilName (m : Mem) (key : Nat) : Option Nat := ilNameIn m.il key

/-- The interleave by which a physical address now named will be served: before full service the one of before the warm
reset, or that of all stacks (09 R233). -/
def ilNaming (m : Mem) : List (Fin 8) :=
  if m.il ≠ [] then m.il
  else if m.ilKept ≠ [] then m.ilKept
  else if m.stack.toList.all (fun y => !y.lost) then List.finRange 8 else []

/-- Interleaved address of a stacked byte, where it has one. -/
def ilOf (m : Mem) (key : Nat) : Option Nat :=
  (ilName m key).filter fun a => a < ilBase + m.ilMib * mib

/-- Where a physical address leads in the present memory map. -/
def physLoc (m : Mem) (a : Nat) : Loc :=
  if h : a < 0x8800000 then .bobbin ⟨a / 0x100000, by omega⟩ (a % 0x100000)
  else if a < 0x10000000 then .unmapped
  else if h : a < 0x18000000 then .creel ⟨(a - 0x10000000) / 0x1000000, by omega⟩ (a % 0x1000000)
  else if a < 0xF0000000 then .unmapped
  else if a < 0x100000000 then .reg (a - 0xF0000000)
  else if a < ilBase then .unmapped
  else if a < 0x7000000000 then
    if a < reserveTop m then .reserve a
    else if a < ilBase + m.ilMib * mib then .stacked (aliasOf m a)
    else .unmapped
  else if a < 0x10000000000 then .unmapped
  else if h : a < 0x18000000000 then
    let k : Fin 8 := ⟨(a - 0x10000000000) / 0x1000000000, by omega⟩
    let off := a % 0x1000000000
    if !aliasMapped m k ∨ off ≥ aliasSize m k then .unmapped
    else if off < 512 * mib then .reserve ((ilName m a).getD a) else .stacked a
  else if a < 0x100000000000 then .unmapped
  else if a < 0x140000000000 then
    let i : Fin 2 := if m.bifur && a ≥ 0x120000000000 then 1 else 0
    let off := if i = 1 then a - 0x120000000000 else a - 0x100000000000
    if (m.far.get i).mapped && off < (m.far.get i).gib * 0x40000000 then .far a else .unmapped
  else .unmapped

/-- Key of a memory byte, where the address names one. -/
def locKey : Loc → Option Nat
  | .reserve k => some k
  | .stacked k => some k
  | .far k => some k
  | _ => none

/-- Stack of a memory key: alias windows by their window, the reserve by its granule. -/
def keyStack (m : Mem) (key : Nat) : Option (Fin 8) :=
  if h : 0x10000000000 ≤ key ∧ key < 0x18000000000 then
    some ⟨(key - 0x10000000000) / 0x1000000000, by omega⟩
  else if ilBase ≤ key ∧ key < 0x7000000000 then
    (servers m)[(key - ilBase) / 4096 % (servers m).length]?
  else none

/-! ## Channels (09 R230, R231) -/

/-- Stack of a global channel (09 R230). -/
def stackOf (c : Fin 256) : Fin 8 := ⟨c.val / 32, by omega⟩

/-- Global channel of a stack's channel. -/
def chanOf (k : Fin 8) (i : Fin 32) : Fin 256 := ⟨k.val * 32 + i.val, by omega⟩

/-- The channels that hold a stack's granules, ascending (09 R231): those in service and the one that drains. -/
def chanList (m : Mem) (k : Fin 8) : List (Fin 256) :=
  ((List.finRange 32).map (chanOf k)).filter fun c =>
    (m.chan.get c).st == .inService || (m.chan.get c).st == .draining

/-- The channels that hold a stack's granules once a migration has ended. -/
def chanListAfter (m : Mem) (k : Fin 8) (g : Migration) : List (Fin 256) :=
  ((List.finRange 32).map (chanOf k)).filter fun c =>
    if c = g.chan then g.joins else (m.chan.get c).st == .inService || (m.chan.get c).st == .draining

/-- Granules of one channel: 1.5 GiB in 4 KiB (09 R230). -/
def chanGranules : Nat := 393216

/-- Channel of granule `j` of a stack's alias window: while the stack migrates, its new place once it has been copied
or where it had no old one (09 R240, R242). -/
def granuleChan (m : Mem) (k : Fin 8) (j : Nat) : Option (Fin 256) :=
  let old := chanList m k
  let l := match m.mig with
    | some g =>
      if stackOf g.chan = k ∧ (j < (m.stack.get k).granule ∨ old.length * chanGranules ≤ j) then chanListAfter m k g else old
    | none => old
  l[j % l.length]?

/-- Channel of a memory byte named by its key. -/
def keyChan (m : Mem) (key : Nat) : Option (Fin 256) :=
  match keyStack m key with
  | some k =>
    let a := if key < 0x7000000000 then aliasOf m key else key
    granuleChan m k (a % 0x1000000000 / 4096)
  | none => none

/-! ## Creel coherence (01 R27, 08 R220) -/

/-- Offset of a stacked byte in the backing range of a binding, by either of its names. -/
def segOffset (segs : List Seg) (base a : Nat) : Option Nat :=
  (segs.find? fun g => g.pa ≤ a && a < g.pa + g.len).map fun g => g.va + (a - g.pa) - base

def bindingOff (m : Mem) (b : Binding) (key : Nat) : Option Nat :=
  match segOffset b.segs b.backing key with
  | some o => some o
  | none => (ilOf m key).bind (segOffset b.segs b.backing)

/-- The value of a stacked byte: what a binding holds, else what memory holds. -/
def creelByte (s : State) (key : Nat) : Option Byte :=
  (s.skeins.toList.flatMap (·.bindings)).findSome? fun b => overlayGet b.data key

/-- A free byte, or 0. -/
def openByte (key : Nat) : Option Nat → Byte
  | none => 0
  | some n => Config.freeByte n key

/-- What a byte that nothing has written reads as: a far byte since its window was mapped again (09 R253), a
stacked byte since its keys changed (16 R433). The cells hold the difference from it. -/
def farBase (m : Mem) (key : Nat) : Byte :=
  if 0x100000000000 ≤ key then openByte key (m.far.get (if m.bifur && key ≥ 0x120000000000 then 1 else 0)).fresh
  else match m.base.find? fun b => decide (b.1 ≤ key) && decide (key < b.2.1) with
    | some b => openByte key b.2.2
    | none => 0

/-- One byte of memory by key. -/
def memByte (s : State) (key : Nat) : Byte :=
  (creelByte s key).getD (cellGet s.mem.cells key ^^^ farBase s.mem key)

/-- A sector list with sector `i` set. -/
def setSector (l : List Sector) (i : Nat) (x : Sector) : List Sector := l.set i x

/-- A binding after a write of byte `key` at backing offset `off` (08 R220). -/
def Binding.put (b : Binding) (off key : Nat) (x : Byte) : Binding :=
  { b with sectors := setSector b.sectors (off / 4096) .dirty, data := overlayPut b.data key x }

/-- Whether a write at backing offset `off` lands in the creel: always while the binding lives, and
while it evicts until its sector has been written back (08 R225). -/
def Binding.takes (b : Binding) (off : Nat) : Bool :=
  !b.evicting || b.sectors.getD (off / 4096) .invalid != .invalid

/-- The write of a byte offered to each binding of a list; `none` when none takes it. A byte that a binding holds
is written there, whatever the memory map has become since (08 R221). -/
def bindingsPut (m : Mem) (key : Nat) (x : Byte) : List Binding → Option (List Binding)
  | [] => none
  | b :: bs =>
    if (overlayGet b.data key).isSome then some ({ b with data := overlayPut b.data key x } :: bs) else
    match bindingOff m b key with
    | some off => if b.takes off then some (b.put off key x :: bs) else (bindingsPut m key x bs).map (b :: ·)
    | none => (bindingsPut m key x bs).map (b :: ·)

/-- One byte of memory written by key: into the creel where a live binding covers it (01 R27). -/
def putByte (s : State) (key : Nat) (x : Byte) : State :=
  match (List.finRange 8).findSome? (fun k =>
      (bindingsPut s.mem key x (s.sk k).bindings).map fun bs => (k, bs)) with
  | some (k, bs) => s.setSk k { s.sk k with bindings := bs }
  | none => s.setMem { s.mem with cells := cellSet s.mem.cells key (x ^^^ farBase s.mem key) }

/-! ## Reading and writing physical ranges -/

/-- One byte at a physical address; 0 where nothing is mapped. Bound data is never reached through the creel window
(08 R197): what the window shows is free, and a write of it changes nothing (log 139). -/
def readByte (s : State) (a : Nat) : Byte :=
  match physLoc s.mem a with
  | .bobbin p o => cellGet (s.sp p).bobbin o
  | .creel k o => Config.creelWindow ((s.sk k).bindings.map (·.data)) k.val o
  | l => match locKey l with
    | some k => memByte s k
    | none => 0

def readPhys (s : State) (a n : Nat) : List Byte := (List.range n).map fun i => readByte s (a + i)

/-- A byte of a spindle's bobbin written. -/
def Spindle.poke (x : Spindle) (off : Nat) (bs : List Byte) : Spindle :=
  { x with bobbin := cellsWrite x.bobbin off bs }

def writeByte (s : State) (a : Nat) (x : Byte) : State :=
  match physLoc s.mem a with
  | .bobbin p o => s.setSp p ((s.sp p).poke o [x])
  | l => match locKey l with
    | some k => putByte s k x
    | none => s

def writePhys : State → Nat → List Byte → State
  | s, _, [] => s
  | s, a, b :: bs => writePhys (writeByte s a b) (a + 1) bs

/-- The burst of a physical address that is poisoned where the address is served: in the creel, or in memory (09 R234,
R235). -/
def poisonAt (s : State) (a : Nat) : Option Nat :=
  match locKey (physLoc s.mem a) with
  | some k =>
    if (if (creelByte s k).isSome then s.mem.creelPoison else s.mem.poison).contains (k / 32) then some (k / 32) else none
  | none => none

/-- Whether a read of a physical range meets poison (09 R235). -/
def readPoisoned (s : State) (a n : Nat) : Bool := (List.range n).any fun i => (poisonAt s (a + i)).isSome

/-- Whether a write of a range covers part of a poisoned burst only (09 R235): such a partial write is
not applied. -/
def partPoisoned (s : State) (a n : Nat) : Bool :=
  (List.range n).any fun i =>
    (poisonAt s (a + i)).isSome && !(decide (a ≤ (a + i) / 32 * 32) && decide ((a + i) / 32 * 32 + 32 ≤ a + n))

/-- Whether a write of a stacked byte lands in the creel (01 R27). -/
def landsInCreel (s : State) (key : Nat) : Bool :=
  s.skeins.toList.any fun k => (bindingsPut s.mem key 0 k.bindings).isSome

/-- The poisoned bursts that a write of the range covers whole lose their poison where it lands (09 R235): a write into the
creel leaves the burst in memory as it is until the write-back (08 R221). -/
def clearPoison (s : State) (a n : Nat) : State :=
  let keys := (List.range n).filterMap fun i => if (poisonAt s (a + i)).isSome then locKey (physLoc s.mem (a + i)) else none
  let inMem := (keys.filter fun k => !landsInCreel s k).map (· / 32)
  let inCreel := (keys.filter fun k => landsInCreel s k).map (· / 32)
  s.setMem { s.mem with
    poison := s.mem.poison.filter fun b => !inMem.contains b
    creelPoison := s.mem.creelPoison.filter fun b => !inCreel.contains b }

/-- Spoilt bursts of the creel that no binding holds any more are gone. -/
def settleCreel (s : State) : State :=
  let here (b : Nat) : Bool := (List.range 32).any fun i => (creelByte s (32 * b + i)).isSome
  s.setMem { s.mem with creelPoison := s.mem.creelPoison.filter here }

/-- A write of a physical range, `false` when part of it was not applied because of poison. -/
def writeChecked (s : State) (a : Nat) (bs : List Byte) : State × Bool :=
  if partPoisoned s a bs.length then (s, false)
  else (writePhys (clearPoison s a bs.length) a bs, true)

/-! ## Reel cache lines (09 R247, R258) -/

/-- The set of a line: its number modulo 2,048 (log 12). -/
def reelSet (line : Nat) : Nat := line % 2048

/-- At most `w` KEEP lines of the set of `line` stay KEEP, the most recent ones (09 R247). -/
def demote (w : Nat) (set : Nat) : Nat → List ReelLine → List ReelLine
  | _, [] => []
  | n, l :: ls =>
    if reelSet l.line = set ∧ l.keep then
      (if n < w then l :: demote w set (n + 1) ls else { l with keep := false } :: demote w set (n + 1) ls)
    else l :: demote w set n ls

/-- Room for one more line in a set of 16 ways: the least recent normal line leaves; `true` when it
was dirty. -/
def evictLine (set : Nat) (ls : List ReelLine) : List ReelLine × Bool :=
  if (ls.filter fun l => reelSet l.line = set).length < 16 then (ls, false)
  else match ls.reverse.find? (fun l => reelSet l.line = set && !l.keep) with
    | some v => (ls.filter (fun l => l.line != v.line), v.dirty)
    | none => (ls, false)

/-- One access to a line (09 R247). A further KEEP line first makes the oldest KEEP line normal, with its age; then
the least recent normal line makes room. A KEEP access that hits makes its line the most recent, and a LAST write that hits a
dirty line counts no write-back (DESIGN CHOICE, log 167). -/
def Reel.access (c : Reel) (line : Nat) (h : Hint) (wr : Bool) : Reel :=
  let h := if h = .keep ∧ c.keepWays.val = 0 then Hint.none else h
  let alloc (keep : Bool) : Reel :=
    let ls := if keep then demote (c.keepWays.val - 1) (reelSet line) 0 c.lines else c.lines
    let (ls, d) := evictLine (reelSet line) ls
    let ls := { line, dirty := wr, keep } :: ls
    { c with lines := ls, wb := if d then c.wb + 1 else c.wb }
  match c.lines.find? (fun l => l.line = line) with
  | some l =>
    let rest := c.lines.filter fun x => x.line != line
    let c := { c with hit := c.hit + 1 }
    match h with
    | .none => { c with lines := { l with dirty := l.dirty || wr } :: rest }
    | .stream => { c with lines := c.lines.map fun x => if x.line = line then { x with dirty := x.dirty || wr } else x }
    | .keep =>
      { c with lines := demote c.keepWays.val (reelSet line) 0 ({ l with dirty := l.dirty || wr, keep := true } :: rest) }
    | .last => { c with lines := rest, wb := if l.dirty && !wr then c.wb + 1 else c.wb }
  | none =>
    let c' := alloc (h = .keep)
    match h with
    | .none | .keep => { c' with miss := c.miss + 1 }
    | _ => { c with miss := c.miss + 1 }

/-- The lines of a physical range that lie in stacked memory, as (stack, line). -/
def reelLines (m : Mem) (a n : Nat) : List (Fin 8 × Nat) :=
  ((List.range ((a + n + 127) / 128 - a / 128)).filterMap fun i =>
    match locKey (physLoc m (max a ((a / 128 + i) * 128))) with
    | some key => (keyStack m key).map fun k => (k, key / 128)
    | none => none)

/-- A line that has gone to its channel of a stack counts in the channel's traffic (16 R451). -/
def Reel.count (c : Reel) (ch : Option (Fin 256)) : Reel :=
  match ch with
  | none => c
  | some x =>
    let i : Fin 32 := ⟨x.val % 32, Nat.mod_lt _ (by omega)⟩
    { c with traffic := upd c.traffic i (c.traffic.get i + 1) }

/-- One line of a stack's reel cache accessed. With profiling consent, a line that the cache does not hold counts as traffic of
its channel (16 R451, log 131). -/
def reelLine (s : State) (kl : Fin 8 × Nat) (h : Hint) (wr : Bool) : State :=
  let c := s.mem.reel.get kl.1
  let held : Bool := c.lines.any fun l => l.line == kl.2
  let c' := c.access kl.2 h wr
  s.setMem { s.mem with
    reel := upd s.mem.reel kl.1 (if s.sec.profile && !held then c'.count (keyChan s.mem (128 * kl.2)) else c') }

/-- Sectors of a binding that an access to bytes `lo` to `hi - 1` of its backing range must fetch: the
INVALID ones that are read, or written in part (08 R220). -/
def Binding.fetches (b : Binding) (lo hi : Nat) (wr : Bool) : List Nat :=
  (List.range b.sectors.length).filter fun i =>
    b.sectors.getD i .clean == .invalid && decide (lo < 4096 * (i + 1)) && decide (4096 * i < hi) &&
      !(wr && decide (lo ≤ 4096 * i) && decide (4096 * (i + 1) ≤ hi))

/-- A binding after sectors have been fetched. -/
def Binding.fetched (b : Binding) (is : List Nat) : Binding :=
  { b with sectors := is.foldl (fun l i => setSector l i .clean) b.sectors }

/-- The binding of a byte among those of all skeins, with the byte's offset in its backing range. -/
def boundAt (s : State) (a : Nat) : Option (Fin 8 × Binding × Nat) :=
  match locKey (physLoc s.mem a) with
  | none => none
  | some key => (List.finRange 8).findSome? fun k =>
      (s.sk k).bindings.findSome? fun b => (bindingOff s.mem b key).map fun o => (k, b, o)

/-- Lines that a fetch of sector `i` of a binding reads from its stacks. -/
def sectorLines (m : Mem) (b : Binding) (i : Nat) : List (Fin 8 × Nat) :=
  match b.segs.find? fun g => g.va ≤ b.backing + 4096 * i && b.backing + 4096 * i < g.va + g.len with
  | some g => reelLines m (g.pa + (b.backing + 4096 * i - g.va)) 4096
  | none => []

/-- An access of a physical range that lies in one 4 KiB unit: through the creel where it is bound, with
the fetch of an INVALID sector, else through the reel cache (01 R27, 08 R220, 09 R247). -/
def touchUnit (s : State) (a n : Nat) (h : Hint) (wr : Bool) : State :=
  match boundAt s a with
  | none => (reelLines s.mem a n).foldl (fun s kl => reelLine s kl h wr) s
  | some (k, b, o) =>
    let is := b.fetches o (o + n) wr
    let s := s.setSk k { s.sk k with bindings := (s.sk k).bindings.map fun c => if c = b then b.fetched is else c }
    (is.flatMap (sectorLines s.mem b)).foldl (fun s kl => reelLine s kl .none false) s

/-- External traffic over a physical range (09 R247). -/
def reelTouch (s : State) (a n : Nat) (h : Hint) (wr : Bool) : State :=
  (List.range ((a + n + 4095) / 4096 - a / 4096)).foldl (fun s i =>
    let lo := max a ((a / 4096 + i) * 4096)
    touchUnit s lo (min (a + n) ((a / 4096 + i + 1) * 4096) - lo) h wr) s

/-- A reel cache without the lines that `f` names: dirty ones are written back first. -/
def Reel.drop (c : Reel) (f : Nat → Bool) : Reel :=
  { c with
    lines := c.lines.filter fun l => !f l.line
    wb := c.wb + BitVec.ofNat 64 (c.lines.filter fun l => f l.line && l.dirty).length }

/-- Whether a cached line holds a byte of a physical range, by any name of the byte (09 R231). -/
def lineIn (m : Mem) (a n line : Nat) : Bool :=
  let hit (b : Nat) : Bool := decide (b < a + n) && decide (a < b + 128)
  hit (128 * line) || ((ilName m (128 * line)).map hit).getD false

/-- Distaff work drops every line of its range, dirty ones written back (09 R248). -/
def reelDrop (s : State) (a n : Nat) : State :=
  if n = 0 then s else s.setMem { s.mem with reel := s.mem.reel.map fun c => c.drop (lineIn s.mem a n) }

end Sys2Proof.Machine
end

