-- ==== Sys2Proof/Machine/Translate.lean ====
section
/-!
DEFINITION. Address translation (11): pages, permissions, faults, the ranges each requester may reach
(08 R196 to R198, R531), the tenancy's footprint and the TLB counters.
-/

namespace Sys2Proof.Machine

/-- The permission an access needs (11 R294). -/
inductive Perm where
  | read | write | add | fetch | remoteRead | remoteWrite | remoteAdd
  deriving DecidableEq, Repr

/-- Stage-1 permission bits of an access. -/
def Perm.ok1 (p : Perm) (g : Page) : Bool :=
  match p with
  | .read => g.r
  | .write => g.w
  | .add => g.r && g.w
  | .fetch => g.x
  | .remoteRead => g.r && g.rmt
  | .remoteWrite => g.w && g.rmt
  | .remoteAdd => g.r && g.w && g.rmt

/-- Stage-2 permission bits of an access: the remote bit is of stage 1 only. -/
def Perm.ok2 (p : Perm) (g : Page) : Bool :=
  match p with
  | .read | .remoteRead => g.r
  | .write | .remoteWrite => g.w
  | .add | .remoteAdd => g.r && g.w
  | .fetch => g.x

/-- `ACC` of a page-fault record (11 R304). -/
def Perm.acc : Perm → Nat
  | .read | .remoteRead => 0
  | .write | .remoteWrite => 1
  | .add | .remoteAdd => 2
  | .fetch => 3

/-- A translation that failed (11 R302): stage, `WHY` (0 not present, 1 refused) and addresses. -/
structure TFault where
  stage : Nat
  why   : Nat
  va    : Nat
  ia    : Nat
  deriving DecidableEq, Repr

/-- The page that maps an address in a stage. -/
def findPage (ps : List Page) (a : Nat) : Option Page := ps.find? fun g => g.inp ≤ a && a < g.inp + g.size

/-- One tenant virtual address (11 R290, R294): its physical address and the end of the smaller page. -/
def translate (t : Trans) (pm : Perm) (va : Nat) : Except TFault (Nat × Nat) :=
  match findPage t.s1 va with
  | none => .error ⟨1, 0, va, 0⟩
  | some g1 =>
    if !pm.ok1 g1 then .error ⟨1, 1, va, 0⟩ else
    let ia := g1.out + (va - g1.inp)
    match findPage t.s2 ia with
    | none => .error ⟨2, 0, va, ia⟩
    | some g2 =>
      if !pm.ok2 g2 then .error ⟨2, 1, va, ia⟩ else
      .ok (g2.out + (ia - g2.inp), va + min (g1.inp + g1.size - va) (g2.inp + g2.size - ia))

/-- A range of tenant virtual addresses, page by page. `fuel` bounds the pages. -/
def translateRange (t : Trans) (pm : Perm) : Nat → Nat → Nat → Except TFault (List Seg)
  | 0, _, _ => .ok []
  | fuel + 1, va, len =>
    if len = 0 then .ok [] else
    if va ≥ 2 ^ 48 then .error ⟨1, 0, va, 0⟩ else
    match translate t pm va with
    | .error f => .error f
    | .ok (pa, e) =>
      let n := min len (e - va)
      match translateRange t pm fuel (va + n) (len - n) with
      | .error f => .error f
      | .ok gs => .ok (⟨va, pa, n⟩ :: gs)

/-- Pages of 64 KiB a range can touch. -/
def pageFuel (va len : Nat) : Nat := (va + len) / 0x10000 + 1 - va / 0x10000

/-- A range of the footprint, named as the memory map stands. -/
def footEntry (s : State) (a n : Nat) : Nat × Nat × List (Fin 8) := (a, n, ilNaming s.mem)

/-- Whether a stacked or far byte lies in the tenancy's footprint, under any of its names (11 R292): those it had
when it was mapped, and the one by which a stage-2 entry maps it now. -/
def inFootprint (s : State) (key : Nat) : Bool :=
  (s.trans.footprint.any fun g =>
    let hit (a : Nat) : Bool := decide (g.1 ≤ a) && decide (a < g.1 + g.2.1)
    hit key || ((ilNameIn g.2.2 key).map hit).getD false) ||
  ((ilOf s.mem key).map fun a => s.trans.s2.any fun g => decide (g.out ≤ a) && decide (a < g.out + g.size)).getD false

/-- Whether a physical spindle serves a logical ID of its skein (01 R24). -/
def inService (s : State) (p : Fin 136) : Bool :=
  (s.sk (skeinOf p)).phys.toList.any fun l => l.val = (localOf p).val

/-- Whether a requester from outside a spindle may reach its bobbin (08 R198). -/
def bobbinOpen (s : State) (own : Owner) (p : Fin 136) : Bool :=
  (s.sp p).owner == some own && inService s p

/-- Whether controller work may reach a physical byte (08 R196, 11 R291). -/
def ctrlReaches (s : State) (a : Nat) : Bool :=
  match physLoc s.mem a with
  | .stacked k => !(s.sec.tenancyOn && inFootprint s k)
  | .far k => !(s.sec.tenancyOn && inFootprint s k)
  | .bobbin p _ => bobbinOpen s .controller p
  | .creel _ _ => true
  | .reserve _ => false
  | .reg _ => false
  | .unmapped => false

/-- Whether translated tenant work may reach a physical byte (11 R290). -/
def tenantReaches (s : State) (a : Nat) : Bool :=
  match physLoc s.mem a with
  | .stacked _ => true
  | .far _ => true
  | _ => false

/-- Every byte at which the memory map can change within a range: its ends and 4 KiB steps. -/
def probePoints (a len : Nat) : List Nat :=
  if len = 0 then [] else
  a :: (a + len - 1) :: ((List.range ((a + len) / 4096 - a / 4096)).map fun i => (a / 4096 + i + 1) * 4096).filter (· < a + len)

/-- Whether the migration of a map-out, running or waiting, has passed a captured range (09 R241). -/
def migPassed (s : State) (segs : List Seg) : Bool :=
  let m := s.mem
  segs.all fun g => (probePoints g.pa g.len).all fun a =>
    match locKey (physLoc m a) with
    | none => true
    | some key => match keyStack m key with
      | none => true
      | some k =>
        let j := (if key < 0x7000000000 then aliasOf m key else key) % 0x1000000000 / 4096
        let out (x : Migration) : Bool := stackOf x.chan == k && !x.joins
        !m.migWait.any out && (m.mig.toList.all fun x => !out x || decide (j < (m.stack.get k).granule))

/-- What resolving a range answers. -/
inductive Reach where
  | ok (segs : List Seg)
  | access
  | fault (f : TFault)
  deriving DecidableEq, Repr

/-- A range of controller work, which is not translated (11 R291). -/
def resolvePhys (s : State) (a len : Nat) : Reach :=
  if (probePoints a len).all (ctrlReaches s) then .ok [⟨a, a, len⟩] else .access

/-- A range of tenant virtual addresses (11 R290). -/
def resolveVirt (s : State) (pm : Perm) (a len : Nat) : Reach :=
  match translateRange s.trans pm (pageFuel a len) a len with
  | .error f => .fault f
  | .ok gs =>
    if gs.all fun g => (probePoints g.pa g.len).all (tenantReaches s) then .ok gs else .access

/-- Whether a physical address lies in a bobbin open to a requester from outside. -/
def inOpenBobbin (s : State) (own : Owner) (a : Nat) : Bool :=
  match physLoc s.mem a with
  | .bobbin p _ => bobbinOpen s own p
  | _ => false

/-- A bobbin range named from outside its spindle: every bobbin it touches is open to the requester (08 R198, R531). An
empty range touches none. -/
def resolveBobbin (s : State) (own : Owner) (a len : Nat) : Reach :=
  if len = 0 then .ok []
  else if a + len ≤ 0x8800000 ∧
      (List.range ((a + len - 1) / 0x100000 - a / 0x100000 + 1)).all (fun i =>
        inOpenBobbin s own ((a / 0x100000 + i) * 0x100000)) then .ok [⟨a, a, len⟩] else .access

/-- A range named by a descriptor of a queue (08 R198, R531, 11 R290, R291). `mv`: a MOVE or a Twine operation, which alone
may name a bobbin, a tenant's with bit 63. -/
def resolveDesc (s : State) (q : Fin 4096) (mv : Bool) (pm : Perm) (a len : Nat) : Reach :=
  match queueOwner q with
  | .controller =>
    if a < 0x8800000 then (if mv ∨ len = 0 then resolveBobbin s .controller a len else .access)
    else resolvePhys s a len
  | .tenant =>
    if a ≥ 2 ^ 63 then
      (if mv ∧ a - 2 ^ 63 < 2 ^ 52 then
        (match resolveBobbin s .tenant (a - 2 ^ 63) len with
         | .ok _ => .ok [⟨a, a - 2 ^ 63, len⟩]
         | r => r)
       else .access)
    else if a + len > 2 ^ 48 then .access
    else resolveVirt s pm a len

/-- A range named by a flyer instruction (08 R531, 06 R158): `some` own bobbin only. -/
def resolveInstr (s : State) (p : Fin 136) (own : Owner) (pm : Perm) (a len : Nat) : Reach :=
  if a < 0x8800000 then
    (if bobbinBase p ≤ a ∧ a + len ≤ bobbinBase p + 0x100000 then .ok [⟨a, a, len⟩] else .access)
  else match own with
    | .controller => resolvePhys s a len
    | .tenant => resolveVirt s pm a len

/-- Physical address of a byte of a captured translation. -/
def segPa (segs : List Seg) (a : Nat) : Nat :=
  match segs.find? (fun g => g.va ≤ a && a < g.va + g.len) with
  | some g => g.pa + (a - g.va)
  | none => 0

/-- Bytes of a captured range. -/
def readSegs (s : State) (segs : List Seg) (a n : Nat) : List Byte :=
  (List.range n).map fun i => readByte s (segPa segs (a + i))

/-- The physical pieces of a part of a captured range, in order. -/
def pieces (segs : List Seg) (a n : Nat) : List (Nat × Nat × Nat) :=
  segs.filterMap fun g =>
    let lo := max a g.va
    let hi := min (a + n) (g.va + g.len)
    if lo < hi then some (g.pa + (lo - g.va), lo - a, hi - lo) else none

def segsPoisoned (s : State) (segs : List Seg) (a n : Nat) : Bool :=
  (pieces segs a n).any fun x => readPoisoned s x.1 x.2.2

/-- Physical address of the first poisoned burst of a part of a captured range. -/
def firstPoison (s : State) (segs : List Seg) (a n : Nat) : Option Nat :=
  (pieces segs a n).findSome? fun y =>
    (List.range y.2.2).findSome? fun i => (poisonAt s (y.1 + i)).map fun _ => (y.1 + i) / 32 * 32

/-- Physical address of the first poisoned burst that a write covers in part (09 R235). -/
def firstPart (s : State) (segs : List Seg) (a n : Nat) : Option Nat :=
  (pieces segs a n).findSome? fun y =>
    (List.range y.2.2).findSome? fun i =>
      let b := (y.1 + i) / 32 * 32
      if (poisonAt s (y.1 + i)).isSome && !(decide (y.1 ≤ b) && decide (b + 32 ≤ y.1 + y.2.2)) then some b else none

/-- A write through a captured translation; `false` where poison kept part of it out (09 R235). -/
def writeSegs (s : State) (segs : List Seg) (a : Nat) (bs : List Byte) : State × Bool :=
  (pieces segs a bs.length).foldl (fun (r : State × Bool) x =>
    let (s', ok) := writeChecked r.1 x.1 ((bs.drop x.2.1).take x.2.2)
    (s', r.2 && ok)) (s, true)

/-! ## TLBs and walks (11 R301, R308) -/

/-- The entry that maps a virtual address: the smaller of its stage-1 and stage-2 pages (11 R294). -/
def pageEntry (t : Trans) (va : Nat) : Option TlbEntry :=
  (findPage t.s1 va).bind fun g1 =>
    let ia := g1.out + (va - g1.inp)
    (findPage t.s2 ia).map fun g2 =>
      let n := min g1.size g2.size
      { va := va - va % n, ia := ia - ia % n, pa := g2.out + (ia - ia % n - g2.inp), size := n
        r := g1.r && g2.r, w := g1.w && g2.w, x := g1.x && g2.x, rmt := g1.rmt }

/-- The entries that captured ranges touch, each once (06 R158). Bobbin addresses are not translated. -/
def pageEntries (t : Trans) (segs : List Seg) : List TlbEntry :=
  (segs.filterMap fun g => if g.pa < 0x8800000 then none else pageEntry t g.va).eraseDups

/-- Whether an entry maps a virtual address. An entry that an update has changed is gone (11 R298), so one that is held is
valid, be the page behind it split since. -/
def TlbEntry.maps (e : TlbEntry) (va : Nat) : Bool := decide (e.va ≤ va) && decide (va < e.va + e.size)

/-- Whether a skein's TLB holds an entry for a virtual address. -/
def Skein.holds (k : Skein) (va : Nat) : Bool := k.tlb.any fun e => e.maps va

/-- A page looked up in a skein's TLB. Entries leave oldest first when 2,048 are held (log 13). -/
def Skein.lookUp (k : Skein) (e : TlbEntry) : Skein :=
  if k.holds e.va then { k with hits := k.hits + 1 }
  else { k with misses := k.misses + 1, tlb := (k.tlb ++ [e]).drop (k.tlb.length - 2047) }

/-- A line of a stack's reserve: line `t` of those that stand there. -/
def reserveLine (m : Mem) (k : Fin 8) (t : Nat) : Nat :=
  let l := servers m
  (ilBase + ((t / 32 % 131072) * l.length + l.idxOf k) * 4096) / 128 + t % 32

/-- A read of the tables, in one of their two copies, through the reel cache (11 R298, R301). Which line it is the spec
leaves open (log 13). -/
def tableRead (s : State) (stage va i : Nat) : State :=
  let t := Config.tableLine stage va i
  let k := if t % 2 = 0 then s.jrn.mirrorA else s.jrn.mirrorB
  reelLine s (k, reserveLine s.mem k (t / 2)) .none false

/-- The upper-level entries that the walk of a virtual address uses: its region of 1 GiB in stage 1, and that of its
intermediate address in stage 2. -/
def upperOf (t : Trans) (va : Nat) : List (Nat × Nat) :=
  (1, va / 2 ^ 30) :: ((findPage t.s1 va).map fun g => (2, (g.out + (va - g.inp)) / 2 ^ 30)).toList

/-- A walk: two table reads where the walker cache holds the upper levels, else eight (11 R301). -/
def walkPage (s : State) (va : Nat) : State :=
  let ups := upperOf s.trans va
  let new := ups.filter fun u => !s.trans.walker.contains u
  let n := if new = [] then 2 else 8
  let s := (List.range n).foldl (fun s i => tableRead s (1 + i % 2) va i) s
  s.setTrans { s.trans with walker := (s.trans.walker ++ new).drop (s.trans.walker.length + new.length - 4096) }

/-- A page looked up by the work of a skein: a miss is walked. -/
def lookUpPage (k : Fin 8) (s : State) (e : TlbEntry) : State :=
  let s := if (s.sk k).holds e.va then s else walkPage s e.va
  s.setSk k ((s.sk k).lookUp e)

/-- The pages of captured ranges looked up in a skein: only tenant work is translated (11 R291). -/
def lookUpSegs (s : State) (k : Fin 8) (own : Owner) (segs : List Seg) : State :=
  match own with
  | .controller => s
  | .tenant => (pageEntries s.trans segs).foldl (lookUpPage k) s

/-- The look-up of a page whose translation faults: a hit where an entry maps it without the permission, else a walk that
leaves no entry. Of the ranges of work that faults no other page is looked up (11 R301, R308; log 13). -/
def lookUpFault (s : State) (k : Fin 8) (va : Nat) : State :=
  if (s.sk k).holds va then s.setSk k { s.sk k with hits := (s.sk k).hits + 1 }
  else
    let s := walkPage s va
    s.setSk k { s.sk k with misses := (s.sk k).misses + 1 }

/-- The look-up of the page at which a range faults, where it does. -/
def lookUpReach (s : State) (k : Fin 8) (r : Reach) : State :=
  match r with
  | .fault f => lookUpFault s k f.va
  | _ => s

/-- The walks of work that no skein's TLB serves: distaff and Twine operations (log 13). -/
def walkSegs (s : State) (own : Owner) (segs : List Seg) : State :=
  match own with
  | .controller => s
  | .tenant => (pageEntries s.trans segs).foldl (fun s e => walkPage s e.va) s

/-- The walks of a range of tenant virtual addresses that a Twine frame names: of its pages, or of the one that faults. -/
def walkReach (s : State) (r : Reach) : State :=
  match r with
  | .ok segs => walkSegs s .tenant segs
  | .fault f => walkPage s f.va
  | .access => s

/-- The walk that finds the first fault among the ranges of a descriptor that no skein's TLB serves. -/
def walkFirst (s : State) (q : Fin 4096) (tw : Bool) (rs : List (Perm × Nat × Nat)) : State :=
  match rs.findSome? fun r => match resolveDesc s q tw r.1 r.2.1 r.2.2 with
    | .fault f => some f.va
    | _ => none with
  | some va => walkPage s va
  | none => s

end Sys2Proof.Machine
end

