-- ==== Sys2Proof/Machine/Moves.lean ====
section
/-!
DEFINITION. Moves (08 R201 to R217): hank images, the shape word, conversion and transposition, and
what the end of a move writes.
-/

namespace Sys2Proof.Machine

/-- Row pitch of a hank image in bytes (08 R201). -/
def hankPitch (f : Fmt) : Nat := 16 * fmtWidth f
/-- Bytes of the elements of a hank (08 R201). -/
def hankBytes (f : Fmt) : Nat := 128 * hankPitch f
/-- Size of a hank image, with its 512 scale bytes where scaled (08 R201). -/
def imageBytes (f : Fmt) (scaled : Bool) : Nat := hankBytes f + if scaled then 512 else 0

/-- The shape word (08 R205). -/
structure Shape where
  hc  : Nat
  hr  : Nat
  tc  : Nat
  trw : Nat
  sl  : Bool
  dl  : Bool
  bos : Bool
  bod : Bool
  ps  : Nat
  pd  : Nat
  deriving DecidableEq, Repr

/-- The fields of a shape word (08 R205). -/
def shapeOf (w : Word) : Shape :=
  let n := w.toNat
  let full (x : Nat) := if x = 0 then 128 else x
  { hc := bitsOf n 0 8 + 1, hr := bitsOf n 8 8 + 1,
    tc := full (bitsOf n 16 7), trw := full (bitsOf n 23 7),
    sl := bitsOf n 30 1 == 1, dl := bitsOf n 31 1 == 1,
    bos := bitsOf n 32 1 == 1, bod := bitsOf n 33 1 == 1,
    ps := bitsOf n 34 15 * 64, pd := bitsOf n 49 15 * 64 }

/-- Valid rows and columns of the source region (08 R205). -/
def Shape.rows (s : Shape) : Nat := (s.hr - 1) * 128 + s.trw
def Shape.cols (s : Shape) : Nat := (s.hc - 1) * 128 + s.tc

/-- One side of a move: its layout, pitch, size in hanks and elements, format and scales. -/
structure Side where
  base   : Nat
  segs   : List Seg
  images : Bool
  pitch  : Nat
  hr     : Nat
  hc     : Nat
  rows   : Nat
  cols   : Nat
  fmt    : Fmt
  scaled : Bool
  /-- scales along columns (08 R203) -/
  bycol  : Bool

/-- Bytes from the base to the end of a side: the bounding range of 06 R157. -/
def Side.len (d : Side) : Nat :=
  if d.images then d.hr * d.hc * imageBytes d.fmt d.scaled
  else (d.rows - 1) * d.pitch + (d.cols * fmtWidth d.fmt + 7) / 8

/-- The source side of a shape. -/
def Shape.srcSide (s : Shape) (base : Nat) (segs : List Seg) (f : Fmt) (sc : Bool) : Side :=
  ⟨base, segs, s.sl, s.ps, s.hr, s.hc, s.rows, s.cols, f, sc, s.bos⟩

/-- The destination side of a shape: rows and columns change places under `TR` (08 R208). -/
def Shape.dstSide (s : Shape) (tr : Bool) (base : Nat) (segs : List Seg) (f : Fmt) (sc : Bool) : Side :=
  if tr then ⟨base, segs, s.dl, s.pd, s.hc, s.hr, s.cols, s.rows, f, sc, s.bod⟩
  else ⟨base, segs, s.dl, s.pd, s.hr, s.hc, s.rows, s.cols, f, sc, s.bod⟩

/-- The shadow copy: FP4 images scaled along rows, one for each source hank (08 R214). -/
def Shape.shadowSide (s : Shape) (base : Nat) (segs : List Seg) : Side :=
  ⟨base, segs, true, 0, s.hr, s.hc, s.rows, s.cols, .e2m1, true, false⟩

/-- The pitch conditions of 08 R206. -/
def Side.pitchOk (d : Side) : Bool :=
  if d.images then d.pitch == 0 else d.pitch != 0 && decide ((d.cols * fmtWidth d.fmt + 7) / 8 ≤ d.pitch)

/-- Address and first bit of element (`r`, `c`). -/
def Side.elemAt (d : Side) (r c : Nat) : Nat × Nat :=
  let w := fmtWidth d.fmt
  if d.images then
    let img := (r / 128) * d.hc + c / 128
    let bit := (c % 128) * w
    (d.base + img * imageBytes d.fmt d.scaled + (r % 128) * hankPitch d.fmt + bit / 8, bit % 8)
  else (d.base + r * d.pitch + c * w / 8, c * w % 8)

/-- The code of element (`r`, `c`). -/
def Side.code (d : Side) (s : State) (r c : Nat) : Nat :=
  let (a, b) := d.elemAt r c
  bitsOf (leNat (readSegs s d.segs a ((b + fmtWidth d.fmt + 7) / 8))) b (fmtWidth d.fmt)

/-- The scale byte of element (`r`, `c`) (08 R203). -/
def Side.scaleAddr (d : Side) (r c : Nat) : Nat :=
  let img := (r / 128) * d.hc + c / 128
  let (v, b) := if d.bycol then (c % 128, r % 128 / 32) else (r % 128, c % 128 / 32)
  d.base + img * imageBytes d.fmt d.scaled + hankBytes d.fmt + 4 * v + b

/-- The exact value of element (`r`, `c`) and the flags of reading it (02 R44, R45). -/
def Side.value (d : Side) (s : State) (r c : Nat) : Ext × Flags :=
  let x := decode d.fmt (d.code s r c)
  if d.scaled then
    let k := leNat (readSegs s d.segs (d.scaleAddr r c) 1)
    if k = 255 then (.nan, flagNV) else (x.scale ((k : Int) - 127), noFlags)
  else (x, noFlags)

/-- What a move writes: bytes at named addresses, and the flags it sets. -/
abbrev Writes := List (Nat × List Byte) × Flags

def orFlags (fs : List Flags) : Flags := fs.foldl Flags.or noFlags

/-- The side that destination hank number `n` is read from (08 R214): the shadow once the move has
switched and the primary source had not written that hank. The hanks it had written are the first ones in the order of the
destination, also of a transposing move (DESIGN CHOICE, log 167; their number: log 89). -/
def Move.source (m : Move) (n : Nat) : Side :=
  let sh := shapeOf m.shape
  if m.switched && decide (m.primary ≤ n) then sh.shadowSide m.shadow m.shSegs
  else sh.srcSide m.src m.srcSegs m.fs m.scs

/-- Whether a hank is copied bit for bit (08 R208). -/
def rawCopy (tr : Bool) (a d : Side) : Bool :=
  a.fmt == d.fmt && a.scaled == d.scaled && (!a.scaled || (d.bycol == (a.bycol != tr)))

/-- Twist output for destination element (`r`, `c`) (08 R210). -/
def Move.rnd (m : Move) (d : Side) (r c : Nat) : Nat :=
  twist m.seed (m.ix + BitVec.ofNat 64 (r * (128 * d.hc) + c)) m.step

/-- The padding element of a hank image: +0, or 1.0 in E8M0 (08 R209). -/
def padCode (f : Fmt) : Nat := if f = .e8m0 then 0x7F else 0

/-- Codes and scale codes of destination hank `n` at hank row `h`, hank column `g` of a COPY: rows of
128 codes (fewer where the row-major region ends) and the 512 scale bytes. -/
def Move.copyHank (m : Move) (s : State) (d : Side) (h g : Nat) : List (List Nat) × List Nat × Flags :=
  let a := m.source (h * d.hc + g)
  let valid (i j : Nat) : Bool := decide (128 * h + i < d.rows) && decide (128 * g + j < d.cols)
  let src (i j : Nat) : Nat × Nat :=
    if m.tr then (128 * g + j, 128 * h + i) else (128 * h + i, 128 * g + j)
  let idx := List.range 128
  if rawCopy m.tr a d then
    (idx.map fun i => idx.map fun j =>
        if valid i j then a.code s (src i j).1 (src i j).2 else padCode d.fmt,
     (List.range 512).map fun k =>
        let (i, j) := if d.bycol then (k % 4 * 32, k / 4) else (k / 4, k % 4 * 32)
        if d.scaled && valid i j then
          leNat (readSegs s a.segs (a.scaleAddr (src i j).1 (src i j).2) 1) else 0x7F,
     noFlags)
  else
    let vals := idx.map fun i => idx.map fun j =>
      if valid i j then some (a.value s (src i j).1 (src i j).2) else none
    let at_ (i j : Nat) := (vals.getD i []).getD j none
    let fl0 := orFlags (vals.flatMap fun r => r.map fun x => (x.map (·.2)).getD noFlags)
    let scales := (List.range 512).map fun k =>
      let blk := (List.range 32).filterMap fun e =>
        if d.bycol then at_ (k % 4 * 32 + e) (k / 4) else at_ (k / 4) (k % 4 * 32 + e)
      if d.scaled && !blk.isEmpty then blockScale d.fmt (blk.map (·.1)) else (0x7F, noFlags)
    let scaleOf (i j : Nat) : Nat :=
      (scales.getD (if d.bycol then 4 * j + i / 32 else 4 * i + j / 32) (0x7F, noFlags)).1
    let outs := idx.map fun i => idx.map fun j =>
      match at_ i j with
      | none => (padCode d.fmt, noFlags)
      | some (x, _) =>
        let k := scaleOf i j
        if d.scaled && k == 255 then (0, noFlags) else
        let x := if d.scaled then x.scale (127 - (k : Int)) else x
        encode d.fmt m.satInf m.rm (m.rnd d (128 * h + i) (128 * g + j)) x
    (outs.map fun r => r.map (·.1), scales.map (·.1),
     Flags.or fl0 (Flags.or (orFlags (scales.map (·.2))) (orFlags (outs.flatMap fun r => r.map (·.2)))))

/-- The bytes a hank's codes and scales become at the destination (08 R202, R204, R209). -/
def hankWrites (s : State) (d : Side) (h g : Nat) (codes : List (List Nat)) (scales : List Nat) :
    List (Nat × List Byte) :=
  let w := fmtWidth d.fmt
  if d.images then
    let base := d.base + (h * d.hc + g) * imageBytes d.fmt d.scaled
    (base, codes.flatMap (packBytes w)) ::
      (if d.scaled then [(base + hankBytes d.fmt, scales.map (BitVec.ofNat 8 ·))] else [])
  else
    (List.range (min 128 (d.rows - 128 * h))).map fun i =>
      let n := min 128 (d.cols - 128 * g)
      let a := (d.elemAt (128 * h + i) (128 * g)).1
      (a, packOver w ((codes.getD i []).take n) (readSegs s d.segs a ((w * n + 7) / 8)))

/-- Every hank of a side as (row, column). -/
def Side.hanks (d : Side) : List (Nat × Nat) :=
  (List.range d.hr).flatMap fun h => (List.range d.hc).map fun g => (h, g)

/-- The destination of a move. -/
def Move.dest (m : Move) : Side := (shapeOf m.shape).dstSide m.tr m.dst m.dstSegs m.fd m.scd

/-- What a COPY writes of the hanks given (08 R208, R209). -/
def Move.copyWrites (m : Move) (s : State) (hanks : List (Nat × Nat)) : Writes :=
  let d := m.dest
  let hs := hanks.map fun hg => (hg, m.copyHank s d hg.1 hg.2)
  (hs.flatMap fun x => hankWrites s d x.1.1 x.1.2 x.2.1 x.2.2.1, orFlags (hs.map fun x => x.2.2.2))

/-- What a FILL writes (07 R189, R191): every valid element takes the low bits of the value. -/
def Move.fillWrites (m : Move) (s : State) (hanks : List (Nat × Nat)) : Writes :=
  let d := m.dest
  let v := m.fillv.toNat % 2 ^ fmtWidth d.fmt
  (hanks.flatMap fun hg =>
    let codes := (List.range 128).map fun i => (List.range 128).map fun j =>
      if 128 * hg.1 + i < d.rows ∧ 128 * hg.2 + j < d.cols then v else padCode d.fmt
    hankWrites s d hg.1 hg.2 codes (List.replicate 512 0x7F), noFlags)

/-- What an ADD writes (07 R190, 10 R263): each valid element is added once with one rounding. -/
def Move.addWrites (m : Move) (s : State) (hanks : List (Nat × Nat)) : Writes :=
  let d := m.dest
  let a := (shapeOf m.shape).srcSide m.src m.srcSegs m.fs m.scs
  let cells := hanks.flatMap fun hg => (List.range (min 128 (d.rows - 128 * hg.1))).flatMap fun i =>
    (List.range (min 128 (d.cols - 128 * hg.2))).map fun j =>
      let r := 128 * hg.1 + i
      let c := 128 * hg.2 + j
      let (x, f) := if m.tr then a.value s c r else a.value s r c
      let old := decode d.fmt (d.code s r c)
      let sum := old.add x
      let (k, f') := encode d.fmt m.satInf m.rm 0 sum
      ((d.elemAt r c).1, leBytes (fmtWidth d.fmt / 8) k, Flags.or f (Flags.or f' (madeNan sum [old, x])))
  (cells.map fun x => (x.1, x.2.1), orFlags (cells.map fun x => x.2.2))

/-- What a move writes of the hanks given, from the state in which it ends. -/
def Move.writes (m : Move) (s : State) (hanks : List (Nat × Nat)) : Writes :=
  match m.op with
  | .copy => m.copyWrites s hanks
  | .fill => m.fillWrites s hanks
  | .add => m.addWrites s hanks

/-- The sides a move reads, with the hanks it reads of each. -/
def Move.reads (m : Move) : List (Side × Nat × Nat) :=
  let d := m.dest
  match m.op with
  | .fill => []
  | _ => d.hanks.map fun hg =>
      let a := m.source (hg.1 * d.hc + hg.2)
      if m.tr then (a, hg.2, hg.1) else (a, hg.1, hg.2)

/-- Byte ranges of the valid elements of hank (`h`, `g`) of a side and of their scales (08 R202, R204, R209): bytes
outside the valid region are not read. -/
def Side.hankRanges (d : Side) (h g : Nat) : List (Nat × Nat) :=
  if d.images then
    let base := d.base + (h * d.hc + g) * imageBytes d.fmt d.scaled
    let nr := min 128 (d.rows - 128 * h)
    let nc := min 128 (d.cols - 128 * g)
    ((List.range nr).map fun i => (base + i * hankPitch d.fmt, (fmtWidth d.fmt * nc + 7) / 8)) ++
    (if d.scaled then
      (if d.bycol then (List.range nc).map fun j => (base + hankBytes d.fmt + 4 * j, (nr + 31) / 32)
       else (List.range nr).map fun i => (base + hankBytes d.fmt + 4 * i, (nc + 31) / 32))
     else [])
  else (List.range (min 128 (d.rows - 128 * h))).map fun i =>
    ((d.elemAt (128 * h + i) (128 * g)).1, (fmtWidth d.fmt * min 128 (d.cols - 128 * g) + 7) / 8)

/-- Whether a read of the move meets poison (09 R235). -/
def Move.meetsPoison (m : Move) (s : State) : Bool :=
  m.reads.any fun x => (x.1.hankRanges x.2.1 x.2.2).any fun r => segsPoisoned s x.1.segs r.1 r.2

/-- Bytes with unspecified contents in place of what was to be written (06 R156, 08 R211). -/
def freeWrites (k : Nat) (ws : List (Nat × List Byte)) : List (Nat × List Byte) :=
  ws.map fun w => (w.1, (List.range w.2.length).map fun i => Config.freeByte k (w.1 + i))

/-- A list of writes through a captured translation. -/
def applyWrites (s : State) (segs : List Seg) (ws : List (Nat × List Byte)) : State × Bool :=
  ws.foldl (fun (r : State × Bool) w =>
    let (s', ok) := writeSegs r.1 segs w.1 w.2
    (s', r.2 && ok)) (s, true)

/-- An add into a physical range in the base dies: it drops the reel lines and is counted (09 R248, 10 R288). A bound
part is added to in the creel, which fetches its sector first (08 R220). -/
def addTouch (s : State) (a n : Nat) : State :=
  (List.range ((a + n + 4095) / 4096 - a / 4096)).foldl (fun s i =>
    let lo := max a ((a / 4096 + i) * 4096)
    let k := min (a + n) ((a / 4096 + i + 1) * 4096) - lo
    if (boundAt s lo).isSome then touchUnit s lo k .none true
    else
      let s := reelDrop s lo k
      match (locKey (physLoc s.mem lo)).bind (keyStack s.mem) with
      | some j =>
        let st := s.mem.stack.get j
        s.setMem { s.mem with stack := upd s.mem.stack j { st with addBytes := st.addBytes + k } }
      | none => s) s

/-- The traffic of a move through the reel caches and the distaffs (09 R247, R248, 10 R288). -/
def Move.traffic (m : Move) (s : State) (ws : List (Nat × List Byte)) : State :=
  let s := m.reads.foldl (fun s x => (x.1.hankRanges x.2.1 x.2.2).foldl (fun s r =>
    (pieces x.1.segs r.1 r.2).foldl (fun s y => reelTouch s y.1 y.2.2 m.hint false) s) s) s
  ws.foldl (fun s w => (pieces m.dstSegs w.1 w.2.length).foldl (fun s y =>
    if m.op = .add then addTouch s y.1 y.2.2
    else reelTouch s y.1 y.2.2 m.hint true) s) s

/-- Whether an add into a physical range meets a channel whose distaff has failed: it waits until the migration has taken its
granule to a healthy one (10 R265, R289). An add into the creel meets none. -/
def addBlocked (s : State) (a n : Nat) : Bool :=
  (probePoints a n).any fun b => (boundAt s b).isNone &&
    match (locKey (physLoc s.mem b)).bind (keyChan s.mem) with
    | some c => (s.mem.stack.get (stackOf c)).distFailed.getLsbD (c.val % 32)
    | none => false

/-- Whether an add through a captured range waits for a migration. -/
def addsWait (s : State) (segs : List Seg) : Bool := segs.any fun g => addBlocked s g.pa g.len

/-- The traffic of an access to a part of a captured range (01 R27, 08 R220, 09 R247): an INVALID sector it meets is
fetched. -/
def touchSegs (s : State) (segs : List Seg) (a n : Nat) (wr : Bool) : State :=
  (pieces segs a n).foldl (fun s y => reelTouch s y.1 y.2.2 .none wr) s

/-- The hanks a move writes: all, or the first `n` of a move stopped at a hank boundary (12 R333). -/
def Move.ends (m : Move) (n : Nat) : List (Nat × Nat) := if m.stopped then m.dest.hanks.take n else m.dest.hanks

/-- Whether a physical address is still served: mapped (09 R239, R241), and a bobbin's spindle in service (01 R23). -/
def addrServed (s : State) (a : Nat) : Bool :=
  match physLoc s.mem a with
  | .unmapped => false
  | .bobbin p _ => inService s p
  | _ => true

/-- Whether every piece of a captured range is still served. -/
def segsMapped (s : State) (segs : List Seg) : Bool :=
  segs.all fun g => (probePoints g.pa g.len).all (addrServed s)

/-- The end of a move's data work (08 R211, 06 R156): the state after its writes, its status and its
flags. A move that meets poison, or that a far link fault interrupted, is FAULTED: the bytes it was to
write hold unspecified contents. A SKIP move that its deadline has dropped moved nothing and reports no flags (log 135). -/
def Move.perform (m : Move) (n : Nat) (s : State) : State × Status × Flags :=
  if m.dropped then (s, .deadline, noFlags) else
  if !m.faulted && !(segsMapped s (m.srcSegs ++ m.dstSegs ++ m.shSegs)) then (s, .access, noFlags) else
  let (ws, fl) := m.writes s (m.ends n)
  if m.faulted || m.meetsPoison s then
    ({ (applyWrites s m.dstSegs (freeWrites s.free ws)).1 with free := s.free + 1 }, .faulted, fl)
  else
    let (s', ok) := applyWrites (m.traffic s ws) m.dstSegs ws
    (s', if !ok then .faulted else if m.stopped then .interrupted else .ok, fl)

end Sys2Proof.Machine
end

