-- ==== Sys2Proof/Machine/Bundle.lean ====
section
/-!
DEFINITION. Bundles (06 R137 to R161): what one Swiard word asks for, the checks and interlocks of
issue, exceptions, and the effect of a bundle that issues.
-/

namespace Sys2Proof.Machine

/-- The slots of a bundle (06 R137). -/
inductive Slot where
  | c | x | v | f
  deriving DecidableEq, Repr

def Slot.num : Slot → Nat
  | .c => 0 | .x => 1 | .v => 2 | .f => 3

/-- A destination that two words of a bundle may not share (06 R153). -/
inductive Dest where
  | s (r : Fin 32)
  | p (r : Fin 8)
  | v (r : Fin 32)
  | e (k : Fin 8)
  | tile (c : Fin 4)
  | tok (t : Fin 16)
  deriving DecidableEq, Repr

/-- What a bundle that issues does for one of its words. -/
inductive Act where
  | wr (w : Wr)
  | late (r : Fin 32) (x : Word) (lat : Nat)
  | jump (target : Nat)
  | link
  | ends
  | clearFlags (x : Word)
  | setSeed (x : Word)
  | array (op : ArrOp)
  | vec (interval : Nat) (q : Pend)
  | row (q : Pend)
  | quant (q : Pend)
  | move (t : Fin 16) (m : Move)
  deriving DecidableEq, Repr

/-- An exception a word raises, with the failed translation of a PAGE (06 R161). -/
structure Raise where
  exc    : Exc
  detail : Nat
  tf     : Option TFault := none
  acc    : Nat := 0
  side   : Nat := 0
  deriving DecidableEq, Repr

/-- Why a bundle cannot issue yet: the stall counters of 18 R511, by their number. -/
inductive Stall where
  | arrayQ | operands | token | unitQ | wait | bobbin
  deriving DecidableEq, Repr

def Stall.num : Stall → Fin 8
  | .arrayQ => 1 | .operands => 2 | .token => 3 | .unitQ => 4 | .wait => 5 | .bobbin => 6

/-- What one word of a bundle asks for, read at issue. -/
structure Eff where
  e     : Bool
  slot  : Slot
  cls   : Nat
  opc   : Nat
  on    : Bool
  enc   : Option Nat := none
  dests : List Dest := []
  exc   : List Raise := []
  stall : List Stall := []
  acts  : List Act := []
  deriving DecidableEq, Repr

/-! ## Reading registers -/

/-- An s register; s0 reads 0 (06 R139). -/
def Spindle.rs (x : Spindle) (r : Fin 32) : Word := if r = 0 then 0 else x.s.get r
/-- A p register; p0 reads 1 (06 R139). -/
def Spindle.rp (x : Spindle) (r : Fin 8) : Bool := if r = 0 then true else x.p.get r
/-- A write of an s register; one of s0 is discarded. -/
def Spindle.ws (x : Spindle) (r : Fin 32) (v : Word) : Spindle :=
  if r = 0 then x else { x with s := upd x.s r v }
/-- A write of a p register; one of p0 is discarded. -/
def Spindle.wp (x : Spindle) (r : Fin 8) (v : Bool) : Spindle :=
  if r = 0 then x else { x with p := upd x.p r v }

/-- Byte offset of the current bundle in the image (06 R138). -/
def Spindle.pcBytes (x : Spindle) : Nat := x.pc.toNat * 8

/-! ## Interlocks (06 R154, R157; 07 R175) -/

def overlap (a n b m : Nat) : Bool := decide (0 < n) && decide (0 < m) && decide (a < b + m) && decide (b < a + n)

/-- Results no unit has written yet. -/
def Spindle.pends (x : Spindle) : List Pend := x.vpend ++ x.rq ++ x.qq

def Spindle.pendAny (x : Spindle) (f : Wr → Bool) : Bool := x.pends.any fun q => q.wrs.any f

def Wr.isV (r : Fin 32) : Wr → Bool
  | .v k _ => k == r
  | _ => false
def Wr.isS (r : Fin 32) : Wr → Bool
  | .s k _ => k == r
  | _ => false
def Wr.isE (r : Fin 8) : Wr → Bool
  | .e k _ => k == r
  | _ => false
def Wr.isTile (c : Fin 4) : Wr → Bool
  | .tile k _ => k == c
  | .tileRow k _ _ => k == c
  | _ => false
def Wr.isMem (off n : Nat) : Wr → Bool
  | .mem o bs => overlap o bs.length off n
  | _ => false

/-- Operand stalls of a list of s registers; s0 is never awaited. -/
def Spindle.needS (x : Spindle) (rs : List (Fin 32)) : List Stall :=
  if rs.any fun r => r != 0 && (decide (x.clk < x.sReady.get r) || x.pendAny (Wr.isS r)) then [.operands] else []
def Spindle.needV (x : Spindle) (rs : List (Fin 32)) : List Stall :=
  if rs.any fun r => x.pendAny (Wr.isV r) then [.operands] else []
def Spindle.needE (x : Spindle) (rs : List (Fin 8)) : List Stall :=
  if rs.any fun r => x.pendAny (Wr.isE r) then [.operands] else []
/-- A V-slot read of a tile waits for earlier V-slot writes of it only (06 R154, 03 R82). -/
def Spindle.needTile (x : Spindle) (cs : List (Fin 4)) : List Stall :=
  if cs.any fun c => x.pendAny (Wr.isTile c) then [.operands] else []

/-- Whether an `mma` into a tile is queued or has not committed. -/
def Spindle.mmaInto (x : Spindle) (c : Fin 4) : Bool :=
  (x.arrayQ.any fun a => match a.2 with
    | .mma c' .. => c' == c
    | _ => false) || x.flight.any fun f => f.c == c

/-- A write of a tile by another slot waits for every `mma` into it and every earlier write (03 R81). -/
def Spindle.freeTile (x : Spindle) (c : Fin 4) : List Stall :=
  if x.mmaInto c || x.pendAny (Wr.isTile c) then [.operands] else []

/-- Moves of a spindle's flyer instructions that have not completed. -/
def movesOf (s : State) (p : Fin 136) : List Move :=
  let k := s.sk (skeinOf p)
  (k.fq ++ k.fly.toList.filterMap (·.move)).filter fun m => match m.origin with
    | .instr p' _ => p' == p
    | _ => false

/-- Bounding source ranges of a move, the shadow's among them (06 R157). -/
def Move.srcRanges (m : Move) : List (Nat × Nat) :=
  let sh := shapeOf m.shape
  (if m.op = .fill then [] else [(m.src, (sh.srcSide m.src m.srcSegs m.fs m.scs).len)]) ++
  (if m.path = .shadow then [(m.shadow, (sh.shadowSide m.shadow m.shSegs).len)] else [])
def Move.dstRange (m : Move) : Nat × Nat := (m.dst, m.dest.len)

def hits (a n : Nat) (rs : List (Nat × Nat)) : Bool := rs.any fun r => overlap a n r.1 r.2

/-- Bytes of a weight block in the bobbin with its scales, as (offset, length) (03 R67, R70). -/
def ldwRanges (off : Nat) (fb : Fmt) (scb : Bool) : List (Nat × Nat) :=
  match fb with
  | .e2m1 | .i4 => [(off, 2 * imageBytes fb scb)]
  | .bf16 | .fp16 | .bf16x2 => [(off, 64 * hankPitch fb)]
  | .fp32 => [(off, 4 * hankPitch fb)]
  | _ => [(off, imageBytes fb scb)]

/-- The reduction depth of a format's class (03 R66). -/
def depthOf : Fmt → Nat
  | .e2m1 | .i4 => 256
  | .bf16 | .fp16 | .bf16x2 => 64
  | .fp32 => 4
  | _ => 128

/-- The reduction depth of a pair: that of its slower class (03 R69). -/
def pairDepth (fa fb : Fmt) : Nat := min (depthOf fa) (depthOf fb)

/-- Bytes of activation row `i`, its scale bytes among them (03 R68, R70). -/
def rowRanges (off i : Nat) (fa : Fmt) (sca : Bool) (k : Nat) : List (Nat × Nat) :=
  let p := hankPitch fa
  let o := off % p
  let n := (min k 128) * fmtWidth fa / 8
  let img := off - o
  let one (b : Nat) := [(b + i * p + o, n)] ++ (if sca then [(b + hankBytes fa + 4 * i, 4)] else [])
  one img ++ (if k = 256 then one (img + imageBytes fa sca) else [])

/-- The reads of an `ldw` that starts in cycle `t`, as (offset, length, cycle): block row `i` in cycle `t` + `i`, the
scale bytes of a hank by its last row (03 R67). -/
def ldwReads (off : Nat) (fb : Fmt) (scb : Bool) (t : Nat) : List (Nat × Nat × Nat) :=
  let k := depthOf fb
  let img (i : Nat) : Nat := off + i / 128 * imageBytes fb scb
  ((List.range k).map fun i => (img i + i % 128 * hankPitch fb, hankPitch fb, t + i)) ++
  (if scb then [(off + hankBytes fb, 512, t + min k 128 - 1)] ++
    (if k = 256 then [(img 128 + hankBytes fb, 512, t + 255)] else []) else [])

/-- Every range an `mma` reads in the bobbin. -/
def mmaRanges (off rows : Nat) (fa : Fmt) (sca : Bool) (k : Nat) : List (Nat × Nat) :=
  (List.range rows).flatMap fun i => rowRanges off i fa sca k

/-- Slot of the first `ldw` in a queue. -/
def nextLoad : List (Nat × ArrOp) → Option (Fin 2)
  | [] => none
  | (_, .ldw m ..) :: _ => some m
  | _ :: q => nextLoad q

/-- Start cycle of the `ldw` that the load port runs (03 R67, R81): none while an earlier `mma` has yet to read its
slot. -/
def Spindle.loading (x : Spindle) : List (Nat × ArrOp) → Option Nat
  | [] => none
  | (t, .ldw m ..) :: _ => some (max t (max x.loadFree (x.slotFree.get m)))
  | (_, .mma _ m ..) :: q =>
    if nextLoad q = some m then none else x.loading q

/-- Bobbin bytes that queued or running work has yet to read (07 R175): of queued array work all, of a load in
progress and of a streaming `mma` the rows whose cycle has not come, of quantiser work the reads whose cycle has
not. -/
def Spindle.unreadOf (x : Spindle) (start : Option Nat) : List (Nat × ArrOp) → List (Nat × Nat)
  | [] => []
  | (_, .ldw _ off fb scb _) :: q =>
    (match start with
      | some t => ((ldwReads off fb scb t).filter fun r => decide (x.clk ≤ r.2.2)).map fun r => (r.1, r.2.1)
      | none => ldwRanges off fb scb) ++ x.unreadOf none q
  | (_, .mma _ _ off rows _ fa sca fb _) :: q => mmaRanges off rows fa sca (pairDepth fa fb) ++ x.unreadOf start q

def Spindle.unread (x : Spindle) : List (Nat × Nat) :=
  x.unreadOf (x.loading x.arrayQ) x.arrayQ ++
  (x.flight.flatMap fun f => (f.reads.filter fun r => x.clk ≤ r.2.2).map fun r => (r.1, r.2.1)) ++
  (x.pends.flatMap fun q => (q.reads.filter fun r => x.clk ≤ r.2.2).map fun r => (r.1, r.2.1))

/-- Stalls of a spindle instruction that reads bobbin bytes (06 R157, 05 R132). -/
def readStall (s : State) (p : Fin 136) (off n : Nat) : List Stall :=
  if (s.sp p).pendAny (Wr.isMem off n) ||
      (movesOf s p).any (fun m => overlap (bobbinBase p + off) n m.dstRange.1 m.dstRange.2)
  then [.bobbin] else []

/-- Stalls of a spindle instruction that writes bobbin bytes (06 R157, 07 R175). -/
def writeStall (s : State) (p : Fin 136) (off n : Nat) : List Stall :=
  if (s.sp p).pendAny (Wr.isMem off n) || hits off n (s.sp p).unread ||
      (movesOf s p).any (fun m =>
        overlap (bobbinBase p + off) n m.dstRange.1 m.dstRange.2 || hits (bobbinBase p + off) n m.srcRanges)
  then [.bobbin] else []

/-! ## Performing writes -/

/-- One write of a unit. -/
def Spindle.write (x : Spindle) (w : Wr) : Spindle :=
  match w with
  | .s r v => x.ws r v
  | .p r v => x.wp r v
  | .v r v => { x with v := upd x.v r v }
  | .e k v => { x with e := upd x.e k v }
  | .tileRow c i v =>
    { x with tile := upd x.tile c { x.tile.get c with rows := upd (x.tile.get c).rows i v } }
  | .tile c t => { x with tile := upd x.tile c t }
  | .rowFile f => { x with rowFile := f }
  | .mem off bs => x.poke off bs

/-- Sticky flags set in the present cycle (02 R63). -/
def Spindle.setFlags (x : Spindle) (f : Flags) : Spindle :=
  { x with flags := x.flags.or f, setAt := x.clk, setNow := if x.setAt = x.clk then x.setNow.or f else f }

/-- Sticky flags cleared by a write of ones; those set in the same cycle stay set (02 R63, 07 R179). -/
def Spindle.clearFlags (x : Spindle) (v : Word) : Spindle :=
  let kept : Flags := if x.setAt = x.clk then x.setNow else noFlags
  { x with flags :=
      ⟨x.flags.nv && (!v.getLsbD 0 || kept.nv), x.flags.ovf && (!v.getLsbD 1 || kept.ovf),
       x.flags.uf && (!v.getLsbD 2 || kept.uf), x.flags.msk && (!v.getLsbD 3 || kept.msk)⟩ }

/-- The writes and flags of a result that is due (04 R89, R112; 05 R132). -/
def Spindle.finish (x : Spindle) (q : Pend) : Spindle := (q.wrs.foldl Spindle.write x).setFlags q.flags

/-- `CAUSE` of an exception (06 R140, R161). -/
def causeWord (code slot detail cls opc epc : Nat) : Word :=
  BitVec.ofNat 64 (fld code 0 4 + fld slot 4 2 + fld detail 8 8 + fld cls 16 3 + fld opc 19 8 + fld epc 32 24)

def Exc.code : Exc → Nat
  | .page => 1 | .illegal => 2 | .format => 3 | .align => 4 | .brk => 5

/-- A share stopped by an exception that is taken later (06 R159). -/
def raise (x : Spindle) (sh : Share) (r : Raise) (slot cls opc len : Nat) (g1 g2 : Word := 0) : Spindle :=
  let tf := r.tf.getD ⟨0, 0, 0, 0⟩
  let t : Trap :=
    { exc := r.exc, cause := causeWord r.exc.code slot r.detail cls opc x.pcBytes,
      va := tf.va, ia := tf.ia, stage := tf.stage, acc := r.acc, why := tf.why, side := r.side, gen1 := if r.tf.isSome then g1 else 0
      gen2 := if r.tf.isSome then g2 else 0, len }
  { x with fetched := [], share := some { sh with phase := .trapping t } }

/-- The oldest waiting move that may start handed to the first free flyer in service (01 R28): one replayed after a channel
fault waits for the migration (09 R241). -/
def feed (k : Skein) : Skein :=
  match k.fq.find? (fun m => !m.waitMig), (List.finRange 4).find? (fun i =>
      (k.fly.get i).move.isNone && !(k.fly.get i).failed && !(k.fly.get i).retired) with
  | some m, some i => { k with fq := k.fq.erase m, fly := upd k.fly i { k.fly.get i with move := some m } }
  | _, _ => k

/-- One act of a bundle that issues. `n` is the number of its words. -/
def Act.perform (a : Act) (p : Fin 136) (s : State) : State :=
  let x := s.sp p
  match a with
  | .wr w => s.setSp p (x.write w)
  | .late r v lat => s.setSp p { x.ws r v with sReady := upd x.sReady r (x.clk + lat) }
  | .jump t => s.setSp p { x with pc := BitVec.ofNat 22 (t / 8), nextIssue := x.clk + 3 }
  | .link => s.setSp p { x.ws 31 (BitVec.ofNat 64 x.pcBytes) with sReady := upd x.sReady 31 (x.clk + 1) }
  | .ends => s.setSp p { x with fetched := [], share := x.share.map fun h => { h with phase := .ending } }
  | .clearFlags v => s.setSp p (x.clearFlags v)
  | .setSeed v => s.setSp p { x with seed := v }
  | .array op => s.setSp p { x with arrayQ := x.arrayQ ++ [(x.clk, op)] }
  | .vec iv q => s.setSp p { x with vpend := x.vpend ++ [q], vFree := x.clk + iv }
  | .row q => s.setSp p { x with rq := x.rq ++ [q] }
  | .quant q => s.setSp p { x with qq := x.qq ++ [q] }
  | .move t m =>
    let k := skeinOf p
    let own := (x.share.map (·.owner)).getD .controller
    let s := lookUpSegs (s.setSp p { x with tok := upd x.tok t .busy }) k own (m.srcSegs ++ m.dstSegs ++ m.shSegs)
    s.setSk k (feed { s.sk k with fq := (s.sk k).fq ++ [m] })

/-! ## Issue -/

/-- The effects of a bundle in slot order (06 R160). -/
def bySlot (es : List Eff) : List Eff :=
  [Slot.c, .x, .v, .f].flatMap fun k => es.filter fun e => e.slot = k

/-- Whether two words of a bundle take one slot (06 R137). -/
def sameSlot : List Eff → Bool
  | [] => false
  | e :: es => es.any (fun d => d.slot == e.slot) || sameSlot es

/-- The later of two writers of one destination, s0 and p0 excepted (06 R153, R161). -/
def twoWriters : List Dest → List Eff → Option Eff
  | _, [] => none
  | seen, e :: es =>
    if e.dests.any fun d => d != .s 0 && d != .p 0 && seen.contains d then some e
    else twoWriters (seen ++ e.dests) es

/-- The exception `CAUSE` records among those of a bundle whose words encode well (06 R160). -/
def pickRaise (es : List Eff) : Option (Eff × Raise) :=
  [Exc.illegal, .align, .format, .page, .brk].findSome? fun k =>
    es.findSome? fun e =>
      if e.on then (e.exc.find? fun r => r.exc = k).map fun r => (e, r) else none

/-- What issue does with a bundle. -/
inductive Verdict where
  | trap (r : Raise) (slot cls opc : Nat)
  | stall (w : Stall)
  | go (es : List Eff)
  deriving DecidableEq, Repr

/-- A write of an s register waits for a unit's earlier write of it (06 R154). -/
def Eff.waitS (e : Eff) (x : Spindle) : List Stall :=
  if e.dests.any fun d => match d with
    | .s r => r != 0 && x.pendAny (Wr.isS r)
    | _ => false
  then [.operands] else []

/-- Why the words of a bundle that are on wait. -/
def stallsOf (x : Spindle) (es : List Eff) : List Stall :=
  (es.filter fun e => e.on).flatMap fun e => e.stall ++ e.waitS x

/-- What issue does with a bundle. Its form is checked as it is fetched; a well-formed bundle waits by the interlocks of
06 R152, and the checks of its words are made as it issues, on operands that are ready, in the order of R160. -/
def judge (x : Spindle) (sh : Share) (words : Nat) (whole : Bool) (es : List Eff) : Verdict :=
  let es := bySlot es
  if sh.imageLen < x.pcBytes + 8 * words then .trap ⟨.illegal, 0x07, none, 0, 0⟩ 0 0 0
  else if !whole || sameSlot es then .trap ⟨.illegal, 0x03, none, 0, 0⟩ 0 0 0
  else match stallsOf x es with
  | w :: _ => .stall w
  | [] =>
  match es.find? fun e => e.enc.isSome with
  | some e => .trap ⟨.illegal, e.enc.getD 0, none, 0, 0⟩ e.slot.num e.cls e.opc
  | none =>
  match twoWriters [] es with
  | some e => .trap ⟨.illegal, 0x04, none, 0, 0⟩ e.slot.num e.cls e.opc
  | none =>
  match pickRaise es with
  | some (e, r) => .trap r e.slot.num e.cls e.opc
  | none => .go (es.filter fun e => e.on)

/-- A counter of 18 R511 advanced. -/
def Spindle.count (x : Spindle) (i : Fin 8) (n : Nat) : Spindle :=
  { x with prof := upd x.prof i (x.prof.get i + BitVec.ofNat 64 n) }

/-- The spindle as a bundle of `n` words issues: the next bundle is the one after it, a cycle later. -/
def Spindle.advance (x : Spindle) (n : Nat) (rest : List Instr) : Spindle :=
  { x.count 0 1 with
    pc := x.pc + BitVec.ofNat 22 n
    fetched := rest
    nextIssue := x.clk + 1
    counting := true }

/-- A bundle that issues: every word has read its operands before the first act (06 R153). -/
def goBundle (s : State) (p : Fin 136) (n : Nat) (rest : List Instr) (es : List Eff) : State :=
  (es.flatMap fun e => e.acts).foldl (fun s a => a.perform p s)
    (s.setSp p ((s.sp p).advance n rest))

/-- The first bundle of a word list: its words, the rest, and whether it is complete. Four words
without `E` are a malformed bundle (06 R137). -/
def splitBundle (isEnd : Instr → Bool) : Nat → List Instr → Option (List Instr × List Instr × Bool)
  | 0, ws => some ([], ws, false)
  | _ + 1, [] => none
  | k + 1, w :: ws =>
    if isEnd w then some ([w], ws, true)
    else (splitBundle isEnd k ws).map fun r => (w :: r.1, r.2.1, r.2.2)

/-- The walk that found the fault of a PAGE exception (11 R301, R308): of the pages that the instruction names, the one that
faults alone is looked up (DESIGN CHOICE, log 167). -/
def walkFault (s : State) (p : Fin 136) (r : Raise) : State :=
  match r.tf with
  | some f => lookUpFault s (skeinOf p) f.va
  | none => s

/-- The next bundle of a spindle issues if it can (06 R152). -/
def tryIssue (eff : Instr → State → Eff) (s : State) (p : Fin 136) : State :=
  let x := s.sp p
  match x.share with
  | none => s
  | some sh =>
    if sh.phase ≠ .running ∨ !s.serving ∨ x.clk < x.nextIssue then s else
    match splitBundle (fun w => (eff w s).e) 4 x.fetched with
    | none => s
    | some (ws, rest, whole) =>
      match judge x sh ws.length whole (ws.map fun w => eff w s) with
      | .trap r slot cls opc =>
        (walkFault s p r).setSp p (raise x sh r slot cls opc ws.length s.trans.gen1 s.trans.gen2)
      | .stall w => s.setSp p (x.count w.num 1)
      | .go es => goBundle s p ws.length rest es

/-- A word presented to a spindle: it joins the words fetched and not issued, and the next bundle
issues if it can. Without a running share nothing is fetched (log 14). -/
def presentWord (eff : Instr → State → Eff) (w : Instr) (p : Fin 136) (s : State) : State :=
  let x := s.sp p
  match x.share with
  | none => s
  | some sh =>
    if sh.phase ≠ .running then s
    else tryIssue eff (s.setSp p { x with fetched := x.fetched ++ [w] }) p

end Sys2Proof.Machine
end

