-- ==== Sys2Proof/Machine/Scalar.lean ====
section
/-!
DEFINITION. Scalar class (06 R142, 07 R171 to R175): register and immediate operations, compares,
predicate logic, bobbin loads and stores. An `eff…` is the meaning of a word: what it asks for at issue.
-/

namespace Sys2Proof.Machine

/-- The parts of an effect that the header gives. -/
def mkEff (h : Hdr) (slot : Slot) (cls opc : Nat) (s : State) : Eff :=
  { e := h.e, slot, cls, opc, on := (s.sp h.sp).rp h.pred }

/-- A word that writes one s register from s registers (06 R155). -/
def effToS (h : Hdr) (opc lat : Nat) (rd : Fin 32) (need : List (Fin 32)) (v : Word) (s : State) : Eff :=
  { mkEff h .c 0 opc s with
    dests := [.s rd], stall := (s.sp h.sp).needS need, acts := [.late rd v lat] }

/-- Format S3 (06 R142). -/
def effS3 (h : Hdr) (opc lat : Nat) (rd ra rb : Fin 32) (f : Word → Word → Word) (s : State) : Eff :=
  effToS h opc lat rd [ra, rb] (f ((s.sp h.sp).rs ra) ((s.sp h.sp).rs rb)) s

/-- Format SI with one source (06 R142). -/
def effSI (h : Hdr) (opc : Nat) (rd ra : Fin 32) (f : Word → Word) (s : State) : Eff :=
  effToS h opc 1 rd [ra] (f ((s.sp h.sp).rs ra)) s

/-- The shift amount of a register shift (07 R171). -/
def shiftAmt (b : Word) : Nat := b.toNat % 64

/-- An immediate sign-extended to 64 bits (06 R142). -/
def sext (i : BitVec 32) : Word := i.signExtend 64

/-- `add` (07 R171). -/
def effAdd (h : Hdr) (rd ra rb : Fin 32) (s : State) : Eff :=
  effS3 h 0x00 1 rd ra rb (fun a b => a + b) s

/-- `sub` (07 R171). -/
def effSub (h : Hdr) (rd ra rb : Fin 32) (s : State) : Eff :=
  effS3 h 0x01 1 rd ra rb (fun a b => a - b) s

/-- `and` (07 R171). -/
def effAnd (h : Hdr) (rd ra rb : Fin 32) (s : State) : Eff :=
  effS3 h 0x02 1 rd ra rb (fun a b => a &&& b) s

/-- `or` (07 R171). -/
def effOr (h : Hdr) (rd ra rb : Fin 32) (s : State) : Eff :=
  effS3 h 0x03 1 rd ra rb (fun a b => a ||| b) s

/-- `xor` (07 R171). -/
def effXor (h : Hdr) (rd ra rb : Fin 32) (s : State) : Eff :=
  effS3 h 0x04 1 rd ra rb (fun a b => a ^^^ b) s

/-- `sll` (07 R171). -/
def effSll (h : Hdr) (rd ra rb : Fin 32) (s : State) : Eff :=
  effS3 h 0x05 1 rd ra rb (fun a b => a <<< shiftAmt b) s

/-- `srl` (07 R171). -/
def effSrl (h : Hdr) (rd ra rb : Fin 32) (s : State) : Eff :=
  effS3 h 0x06 1 rd ra rb (fun a b => a >>> shiftAmt b) s

/-- `sra` (07 R171). -/
def effSra (h : Hdr) (rd ra rb : Fin 32) (s : State) : Eff :=
  effS3 h 0x07 1 rd ra rb (fun a b => a.sshiftRight (shiftAmt b)) s

/-- `mul` (07 R171). -/
def effMul (h : Hdr) (rd ra rb : Fin 32) (s : State) : Eff :=
  effS3 h 0x08 3 rd ra rb (fun a b => a * b) s

/-- `mulhu` (07 R171). -/
def effMulhu (h : Hdr) (rd ra rb : Fin 32) (s : State) : Eff :=
  effS3 h 0x09 3 rd ra rb (fun a b => BitVec.ofNat 64 (a.toNat * b.toNat / 2 ^ 64)) s

/-- `min` (07 R171). -/
def effMin (h : Hdr) (rd ra rb : Fin 32) (s : State) : Eff :=
  effS3 h 0x0A 1 rd ra rb (fun a b => if a.slt b then a else b) s

/-- `max` (07 R171). -/
def effMax (h : Hdr) (rd ra rb : Fin 32) (s : State) : Eff :=
  effS3 h 0x0B 1 rd ra rb (fun a b => if a.slt b then b else a) s

/-- `minu` (07 R171). -/
def effMinu (h : Hdr) (rd ra rb : Fin 32) (s : State) : Eff :=
  effS3 h 0x0C 1 rd ra rb (fun a b => if a.ult b then a else b) s

/-- `maxu` (07 R171). -/
def effMaxu (h : Hdr) (rd ra rb : Fin 32) (s : State) : Eff :=
  effS3 h 0x0D 1 rd ra rb (fun a b => if a.ult b then b else a) s

/-- `addi` (07 R172). -/
def effAddi (h : Hdr) (rd ra : Fin 32) (imm : BitVec 32) (s : State) : Eff :=
  effSI h 0x10 rd ra (fun a => a + sext imm) s

/-- `andi` (07 R172). -/
def effAndi (h : Hdr) (rd ra : Fin 32) (imm : BitVec 32) (s : State) : Eff :=
  effSI h 0x11 rd ra (fun a => a &&& sext imm) s

/-- `ori` (07 R172). -/
def effOri (h : Hdr) (rd ra : Fin 32) (imm : BitVec 32) (s : State) : Eff :=
  effSI h 0x12 rd ra (fun a => a ||| sext imm) s

/-- `xori` (07 R172). -/
def effXori (h : Hdr) (rd ra : Fin 32) (imm : BitVec 32) (s : State) : Eff :=
  effSI h 0x13 rd ra (fun a => a ^^^ sext imm) s

/-- `slli` (07 R172). -/
def effSlli (h : Hdr) (rd ra : Fin 32) (sh : Fin 64) (s : State) : Eff :=
  effSI h 0x14 rd ra (fun a => a <<< sh.val) s

/-- `srli` (07 R172). -/
def effSrli (h : Hdr) (rd ra : Fin 32) (sh : Fin 64) (s : State) : Eff :=
  effSI h 0x15 rd ra (fun a => a >>> sh.val) s

/-- `srai` (07 R172). -/
def effSrai (h : Hdr) (rd ra : Fin 32) (sh : Fin 64) (s : State) : Eff :=
  effSI h 0x16 rd ra (fun a => a.sshiftRight sh.val) s

/-- `movi` (07 R172). -/
def effMovi (h : Hdr) (rd : Fin 32) (imm : BitVec 32) (s : State) : Eff :=
  effToS h 0x17 1 rd [] (sext imm) s

/-- `movhi`: bits 63 to 32 from the immediate (07 R172). -/
def effMovhi (h : Hdr) (rd ra : Fin 32) (imm : BitVec 32) (s : State) : Eff :=
  effSI h 0x18 rd ra (fun a => imm.setWidth 64 <<< 32 + (a &&& 0xFFFFFFFF#64)) s

/-- A compare into a predicate (07 R173). -/
def effCmp (h : Hdr) (opc : Nat) (pd : Fin 8) (ra : Fin 32) (b : CmpSrc) (f : Word → Word → Bool)
    (s : State) : Eff :=
  let x := s.sp h.sp
  let (v, need) := match b with
    | .reg r => (x.rs r, [ra, r])
    | .imm i => (sext i, [ra])
  { mkEff h .c 0 opc s with
    dests := [.p pd], stall := x.needS need, acts := [.wr (.p pd (f (x.rs ra) v))] }

/-- `cmp.eq` (07 R173). -/
def effCmpEq (h : Hdr) (pd : Fin 8) (ra : Fin 32) (b : CmpSrc) (s : State) : Eff :=
  effCmp h 0x20 pd ra b (fun a b => a == b) s

/-- `cmp.ne` (07 R173). -/
def effCmpNe (h : Hdr) (pd : Fin 8) (ra : Fin 32) (b : CmpSrc) (s : State) : Eff :=
  effCmp h 0x21 pd ra b (fun a b => a != b) s

/-- `cmp.lt` (07 R173). -/
def effCmpLt (h : Hdr) (pd : Fin 8) (ra : Fin 32) (b : CmpSrc) (s : State) : Eff :=
  effCmp h 0x22 pd ra b (fun a b => a.slt b) s

/-- `cmp.ge` (07 R173). -/
def effCmpGe (h : Hdr) (pd : Fin 8) (ra : Fin 32) (b : CmpSrc) (s : State) : Eff :=
  effCmp h 0x23 pd ra b (fun a b => !a.slt b) s

/-- `cmp.ltu` (07 R173). -/
def effCmpLtu (h : Hdr) (pd : Fin 8) (ra : Fin 32) (b : CmpSrc) (s : State) : Eff :=
  effCmp h 0x24 pd ra b (fun a b => a.ult b) s

/-- `cmp.geu` (07 R173). -/
def effCmpGeu (h : Hdr) (pd : Fin 8) (ra : Fin 32) (b : CmpSrc) (s : State) : Eff :=
  effCmp h 0x25 pd ra b (fun a b => !a.ult b) s

/-- Predicate logic (07 R173). -/
def effPred (h : Hdr) (opc : Nat) (pd : Fin 8) (v : Bool) (s : State) : Eff :=
  { mkEff h .c 0 opc s with dests := [.p pd], acts := [.wr (.p pd v)] }

/-- `pand` (07 R173). -/
def effPand (h : Hdr) (pd pa pb : Fin 8) (s : State) : Eff :=
  effPred h 0x28 pd ((s.sp h.sp).rp pa && (s.sp h.sp).rp pb) s

/-- `por` (07 R173). -/
def effPor (h : Hdr) (pd pa pb : Fin 8) (s : State) : Eff :=
  effPred h 0x29 pd ((s.sp h.sp).rp pa || (s.sp h.sp).rp pb) s

/-- `pxor` (07 R173). -/
def effPxor (h : Hdr) (pd pa pb : Fin 8) (s : State) : Eff :=
  effPred h 0x2A pd ((s.sp h.sp).rp pa != (s.sp h.sp).rp pb) s

/-- `pnot` (07 R173). -/
def effPnot (h : Hdr) (pd pa : Fin 8) (s : State) : Eff :=
  effPred h 0x2B pd (!(s.sp h.sp).rp pa) s

/-! ## Bobbin access (07 R174) -/

/-- The address of a scalar access, and the bobbin offset it names. -/
def scalarAddr (x : Spindle) (ra : Fin 32) (off : BitVec 32) : Nat := (x.rs ra + sext off).toNat

/-- Whether `n` bytes at an address lie in a spindle's own bobbin. -/
def ownBobbin (p : Fin 136) (a n : Nat) : Bool :=
  decide (bobbinBase p ≤ a) && decide (a + n ≤ bobbinBase p + 0x100000)

/-- ILLEGAL 0x06 and ALIGN of a bobbin access (06 R161). -/
def bobbinRaise (p : Fin 136) (a n align detail : Nat) : List Raise :=
  (if ownBobbin p a n then [] else [{ exc := .illegal, detail := 0x06 }]) ++
  (if a % align = 0 then [] else [{ exc := .align, detail }])

/-- A load of `n` bytes, signed or not (07 R174). -/
def effLoad (h : Hdr) (opc n : Nat) (signed : Bool) (rd ra : Fin 32) (off : BitVec 32) (s : State) : Eff :=
  let x := s.sp h.sp
  let a := scalarAddr x ra off
  let o := a - bobbinBase h.sp
  let v := leNat (cellsRead x.bobbin o n)
  let d : Word := if signed then BitVec.ofInt 64 (signedOf (8 * n) v) else BitVec.ofNat 64 v
  { mkEff h .c 0 opc s with
    dests := [.s rd], exc := bobbinRaise h.sp a n n 0x04
    stall := x.needS [ra] ++ (if ownBobbin h.sp a n then readStall s h.sp o n else []), acts := [.late rd d 4] }

/-- A store of the low `n` bytes (07 R174). -/
def effStore (h : Hdr) (opc n : Nat) (rs ra : Fin 32) (off : BitVec 32) (s : State) : Eff :=
  let x := s.sp h.sp
  let a := scalarAddr x ra off
  let o := a - bobbinBase h.sp
  { mkEff h .c 0 opc s with
    exc := bobbinRaise h.sp a n n 0x04
    stall := x.needS [ra, rs] ++ (if ownBobbin h.sp a n then writeStall s h.sp o n else [])
    acts := [.wr (.mem o (leBytes n (x.rs rs).toNat))] }

/-- `ld1` (07 R174). -/
def effLd1 (h : Hdr) (rd ra : Fin 32) (off : BitVec 32) (s : State) : Eff :=
  effLoad h 0x30 1 true rd ra off s

/-- `ld2` (07 R174). -/
def effLd2 (h : Hdr) (rd ra : Fin 32) (off : BitVec 32) (s : State) : Eff :=
  effLoad h 0x31 2 true rd ra off s

/-- `ld4` (07 R174). -/
def effLd4 (h : Hdr) (rd ra : Fin 32) (off : BitVec 32) (s : State) : Eff :=
  effLoad h 0x32 4 true rd ra off s

/-- `ld8` (07 R174). -/
def effLd8 (h : Hdr) (rd ra : Fin 32) (off : BitVec 32) (s : State) : Eff :=
  effLoad h 0x33 8 true rd ra off s

/-- `ld1u` (07 R174). -/
def effLd1u (h : Hdr) (rd ra : Fin 32) (off : BitVec 32) (s : State) : Eff :=
  effLoad h 0x34 1 false rd ra off s

/-- `ld2u` (07 R174). -/
def effLd2u (h : Hdr) (rd ra : Fin 32) (off : BitVec 32) (s : State) : Eff :=
  effLoad h 0x35 2 false rd ra off s

/-- `ld4u` (07 R174). -/
def effLd4u (h : Hdr) (rd ra : Fin 32) (off : BitVec 32) (s : State) : Eff :=
  effLoad h 0x36 4 false rd ra off s

/-- `st1` (07 R174). -/
def effSt1 (h : Hdr) (rs ra : Fin 32) (off : BitVec 32) (s : State) : Eff :=
  effStore h 0x38 1 rs ra off s

/-- `st2` (07 R174). -/
def effSt2 (h : Hdr) (rs ra : Fin 32) (off : BitVec 32) (s : State) : Eff :=
  effStore h 0x39 2 rs ra off s

/-- `st4` (07 R174). -/
def effSt4 (h : Hdr) (rs ra : Fin 32) (off : BitVec 32) (s : State) : Eff :=
  effStore h 0x3A 4 rs ra off s

/-- `st8` (07 R174). -/
def effSt8 (h : Hdr) (rs ra : Fin 32) (off : BitVec 32) (s : State) : Eff :=
  effStore h 0x3B 8 rs ra off s

end Sys2Proof.Machine
end

