-- ==== Sys2Proof/Machine/Branch.lean ====
section
/-!
DEFINITION. Branch and system classes (06 R143, R144; 07 R176 to R179).
-/

namespace Sys2Proof.Machine

/-- Image offset `OFF` bytes from the bundle (06 R143), modulo the 24 bits of `PC`. -/
def branchTarget (x : Spindle) (off : BitVec 32) : Nat :=
  (BitVec.ofNat 64 x.pcBytes + sext off).toNat

/-- ALIGN 0x03 of a target (06 R143). -/
def targetRaise (t : Nat) : List Raise := if t % 8 = 0 then [] else [{ exc := .align, detail := 0x03 }]

/-- A target's place in `PC`: one past every image where the target exceeds the register, so that the
bundle there is outside the image (06 R143, log 15). -/
def pcTarget (t : Nat) : Nat := if t < 0x1000000 then t else 0x1000000

/-- `br` (07 R176). -/
def effBr (h : Hdr) (off : BitVec 32) (s : State) : Eff :=
  let t := branchTarget (s.sp h.sp) off
  { mkEff h .c 1 0x00 s with exc := targetRaise t, acts := [.jump (pcTarget t)] }

/-- `bdec` (07 R176): the branch is taken while the new value is not 0. -/
def effBdec (h : Hdr) (ra : Fin 32) (off : BitVec 32) (s : State) : Eff :=
  let x := s.sp h.sp
  let t := branchTarget x off
  let v := x.rs ra - 1
  { mkEff h .c 1 0x01 s with
    dests := [.s ra], exc := targetRaise t, stall := x.needS [ra]
    acts := .late ra v 1 :: (if v = 0 then [] else [.jump (pcTarget t)]) }

/-- `call` (07 R176): s31 takes the offset of the next bundle. -/
def effCall (h : Hdr) (off : BitVec 32) (s : State) : Eff :=
  let t := branchTarget (s.sp h.sp) off
  { mkEff h .c 1 0x02 s with
    dests := [.s 31], exc := targetRaise t, acts := [.link, .jump (pcTarget t)] }

/-- `jr` (07 R176). -/
def effJr (h : Hdr) (ra : Fin 32) (s : State) : Eff :=
  let x := s.sp h.sp
  { mkEff h .c 1 0x03 s with
    exc := targetRaise (x.rs ra).toNat, stall := x.needS [ra]
    acts := [.jump (pcTarget (x.rs ra).toNat)] }

/-- `ret` (07 R176). -/
def effRet (h : Hdr) (s : State) : Eff :=
  let x := s.sp h.sp
  { mkEff h .c 1 0x04 s with
    exc := targetRaise (x.rs 31).toNat, stall := x.needS [31]
    acts := [.jump (pcTarget (x.rs 31).toNat)] }

/-- `nop` (07 R177). -/
def effNop (h : Hdr) (s : State) : Eff := mkEff h .c 7 0x00 s

/-- `end` (07 R177). -/
def effEnd (h : Hdr) (s : State) : Eff := { mkEff h .c 7 0x01 s with acts := [.ends] }

/-- `brk` (07 R177). -/
def effBrk (h : Hdr) (code : BitVec 8) (s : State) : Eff :=
  { mkEff h .c 7 0x02 s with exc := [{ exc := .brk, detail := code.toNat }] }

/-- `FLAGS` as a word (02 R62). -/
def flagsWord (f : Flags) : Nat := b2n f.nv + 2 * b2n f.ovf + 4 * b2n f.uf + 8 * b2n f.msk

/-- A control and status register of a spindle (06 R140). -/
def csrValue (x : Spindle) (n : Nat) : Word :=
  match n with
  | 0 => BitVec.ofNat 64 (flagsWord x.flags)
  | 1 => x.seed
  | 2 => BitVec.ofNat 64 (x.pcBytes % 2 ^ 24)
  | 3 => x.cause
  | 4 => x.step.setWidth 64
  | 5 => x.cycle
  | _ => 0

/-- ILLEGAL 0x08 of a register number that is not assigned (06 R140). -/
def csrEnc (csr : BitVec 12) : Option Nat := if csr.toNat ≤ 5 then none else some 0x08

/-- `csrr` (07 R177). -/
def effCsrr (h : Hdr) (rd : Fin 32) (csr : BitVec 12) (s : State) : Eff :=
  { mkEff h .c 7 0x03 s with
    enc := csrEnc csr, dests := [.s rd], acts := [.late rd (csrValue (s.sp h.sp) csr.toNat) 2] }

/-- `csrw` (07 R177, R179): `FLAGS` is W1C, `SEED` RW, the others RO (06 R140). -/
def effCsrw (h : Hdr) (csr : BitVec 12) (ra : Fin 32) (s : State) : Eff :=
  let x := s.sp h.sp
  { mkEff h .c 7 0x04 s with
    enc := csrEnc csr, stall := x.needS [ra]
    acts := match csr.toNat with
      | 0 => [.clearFlags (x.rs ra)]
      | 1 => [.setSeed (x.rs ra)]
      | _ => [] }

end Sys2Proof.Machine
end

