-- ==== Sys2Proof/Machine/Matrix.lean ====
section
/-!
DEFINITION. Matrix class and the array (03, 06 R145, 07 R180): `ldw`, `mma`, the load and stream ports
and the commit of a block sum.
-/

namespace Sys2Proof.Machine

/-- Formats the array takes as an operand (03 R69). -/
def arrayFmt : Fmt → Bool
  | .i32 | .i16 | .e8m0 | .rsv => false
  | _ => true

/-- Whether a pair runs, and how it accumulates (03 R69). -/
def pairTag (fa fb : Fmt) : Option Tag :=
  if !arrayFmt fa || !arrayFmt fb then none
  else if fmtInt fa && fmtInt fb then some .int
  else if fmtInt fa || fmtInt fb then none
  else
    let x2ok (a b : Fmt) : Bool := a != .bf16x2 || b == .bf16x2 || b == .bf16 || b == .fp16
    if x2ok fa fb && x2ok fb fa then some .fp else none

/-- Passes of a pair over its rows (03 R77). -/
def pairPasses (fa fb : Fmt) : Nat := if fa = .bf16x2 ∨ fb = .bf16x2 then 3 else 1

/-- The value of a number operand of 7 bits or of a register (06 R145, R147). -/
def num7 (x : Spindle) : Num7 → Nat
  | .imm n => n.val
  | .reg r => (x.rs r).toNat

/-- A count operand: the field holds the count less one (06 R145, R147). -/
def count7 (x : Spindle) : Num7 → Nat
  | .imm n => n.val + 1
  | .reg r => (x.rs r).toNat

def num7Regs : Num7 → List (Fin 32)
  | .imm _ => []
  | .reg r => [r]

/-- ILLEGAL 0x05 of a count (06 R161). -/
def countRaise (n : Nat) : List Raise :=
  if n = 0 ∨ 128 < n then [{ exc := .illegal, detail := 0x05 }] else []

/-- ILLEGAL 0x06 when one of several ranges, given by bobbin offset, leaves the bobbin. -/
def rangesRaise (rs : List (Nat × Nat)) : List Raise :=
  if rs.all fun r => decide (r.1 + r.2 ≤ 0x100000) then [] else [{ exc := .illegal, detail := 0x06 }]

def raiseIf (c : Bool) (e : Exc) (d : Nat) : List Raise := if c then [{ exc := e, detail := d }] else []

/-- Entries of the array queue in use: an `mma` holds its entry until its last row has streamed (03 R65). -/
def Spindle.arrayUse (x : Spindle) : Nat :=
  x.arrayQ.length + (x.flight.filter fun f => x.clk < f.ends).length

def Spindle.arrayStall (x : Spindle) : List Stall := if 8 ≤ x.arrayUse then [.arrayQ] else []

/-- The block an `ldw` loads, read from the bobbin in the hank layout of 02 R37. -/
def loadBlock (x : Spindle) (off : Nat) (fb : Fmt) (scb : Bool) : WSlot :=
  let k := depthOf fb
  let one (b n : Nat) : List (List Lane) :=
    (List.range n).map fun i =>
      (elems (fmtWidth fb) 128 (cellsRead x.bobbin (b + i * hankPitch fb) (hankPitch fb))).map (BitVec.ofNat 32 ·)
  let sc (b : Nat) : List Byte := if scb then cellsRead x.bobbin (b + hankBytes fb) 512 else []
  let next := off + imageBytes fb scb
  { fmt := some fb, scaled := scb
    rows := one off (min k 128) ++ (if k = 256 then one next 128 else [])
    scales := sc off ++ (if k = 256 then sc next else []) }

/-- `ldw` (03 R67, R86; 07 R180). The whole block is read as the instruction issues, so that a write from outside the
spindle that lands later is not seen; 08 R199 leaves the cycle open (DESIGN CHOICE, log 136). -/
def effLdw (h : Hdr) (m : Fin 2) (ra : Fin 32) (fb : Fmt) (scb : Bool) (s : State) : Eff :=
  let x := s.sp h.sp
  let a := (x.rs ra).toNat
  let off := a - bobbinBase h.sp
  let rs := ldwRanges off fb scb
  { mkEff h .x 2 0x00 s with
    exc := (if bobbinBase h.sp ≤ a then rangesRaise rs else [{ exc := .illegal, detail := 0x06 }]) ++
      raiseIf (a % 16 != 0) .align 0x01 ++
      raiseIf (fb != .rsv && !arrayFmt fb) .format 0x01 ++
      raiseIf (scb && !fmtScalable fb) .format 0x02 ++
      raiseIf (fb == .rsv) .format 0x05
    stall := x.needS [ra] ++ x.arrayStall ++ rs.flatMap (fun r => readStall s h.sp r.1 r.2)
    acts := [.array (.ldw m off fb scb (loadBlock x off fb scb))] }

/-- Format and scale setting that a slot will hold when queued loads are done (03 R87). -/
def Spindle.slotFmt (x : Spindle) (m : Fin 2) : Option (Fmt × Bool) :=
  match x.arrayQ.reverse.findSome? (fun a => match a.2 with
    | .ldw m' _ fb scb _ => if m' = m then some (fb, scb) else none
    | _ => none) with
  | some y => some y
  | none => (x.slot.get m).fmt.map fun f => (f, (x.slot.get m).scaled)

/-- Tag that a tile will carry when every earlier instruction into it is done (03 R71, log 16). -/
def Spindle.tileTag (x : Spindle) (c : Fin 4) : Tag :=
  let queued := x.arrayQ.reverse.findSome? fun a => match a.2 with
    | .mma c' _ _ _ .set fa _ fb _ => if c' = c then pairTag fa fb else none
    | _ => none
  let flying := x.flight.reverse.findSome? fun f =>
    if f.c = c ∧ f.mode = .set then some f.tag else none
  let pending := x.pends.reverse.findSome? fun q => q.wrs.findSome? fun w => match w with
    | .tile c' t => if c' = c then some t.tag else none
    | _ => none
  match queued, flying, pending with
  | some t, _, _ => t
  | none, some t, _ => t
  | none, none, some t => t
  | none, none, none => (x.tile.get c).tag

/-- `mma` (03 R68 to R71, R86; 07 R180). Of an A that is neither 16-byte aligned nor at a multiple of K elements it records
ALIGN 0x01, and for a format code 0xF or a pair that R69 does not list it checks the range and the offset with the K of
the slower class, 128 elements of 8 bits for 0xF, before FORMAT (DESIGN CHOICE, log 138). -/
def effMma (h : Hdr) (c : Fin 4) (m : Fin 2) (ra : Fin 32) (mr : Num7) (mode : MmaMode)
    (fa : Fmt) (sca : Bool) (fb : Fmt) (scb : Bool) (s : State) : Eff :=
  let x := s.sp h.sp
  let a := (x.rs ra).toNat
  let off := a - bobbinBase h.sp
  let rows := count7 x mr
  let k := pairDepth fa fb
  let rs := if rows ≤ 128 then mmaRanges off rows fa sca k else []
  let rsv := fa == .rsv || fb == .rsv
  { mkEff h .x 2 0x01 s with
    dests := [.tile c]
    exc := countRaise rows ++
      (if bobbinBase h.sp ≤ a then rangesRaise rs else [{ exc := .illegal, detail := 0x06 }]) ++
      raiseIf (a % 16 != 0) .align 0x01 ++
      raiseIf (off % hankPitch fa * 8 % (k * fmtWidth fa) != 0) .align 0x02 ++
      raiseIf (!rsv && (pairTag fa fb).isNone) .format 0x01 ++
      raiseIf ((sca && !fmtScalable fa) || (scb && !fmtScalable fb)) .format 0x02 ++
      raiseIf (mode != .set && (pairTag fa fb).isSome && pairTag fa fb != some (x.tileTag c)) .format 0x03 ++
      raiseIf (x.slotFmt m != some (fb, scb)) .format 0x04 ++
      raiseIf rsv .format 0x05
    stall := x.needS (ra :: num7Regs mr) ++ x.arrayStall ++ rs.flatMap (fun r => readStall s h.sp r.1 r.2)
    acts := [.array (.mma c m off rows mode fa sca fb scb)] }

/-! ## The load port (03 R67, R81) -/

/-- The first entry of a list that satisfies a test, with what stands before and after it. -/
def takeFirst {α : Type} (f : α → Bool) : List α → Option (List α × α × List α)
  | [] => none
  | a :: as => if f a then some ([], a, as) else (takeFirst f as).map fun r => (a :: r.1, r.2.1, r.2.2)

def ArrOp.isLdw : ArrOp → Bool
  | .ldw .. => true
  | _ => false

def ArrOp.readsSlot (m : Fin 2) : ArrOp → Bool
  | .mma _ m' .. => m' == m
  | _ => false

/-- LDW_LOAD_DONE: the load port's oldest `ldw` has loaded its last block row (03 R67, R81). It started
when it had issued, the port was free and every earlier `mma` of its slot had streamed. -/
def doLdwLoadDone (p : Fin 136) (s : State) : State :=
  if s.mgmt.clockLost then s else
  let x := s.sp p
  match takeFirst (fun a => a.2.isLdw) x.arrayQ with
  | some (before, (t, .ldw m _ fb _ block), after) =>
    let start := max t (max x.loadFree (x.slotFree.get m))
    if before.any (fun a => a.2.readsSlot m) ∨ x.clk < start + depthOf fb then s
    else s.setSp p { x with
      arrayQ := before ++ after, slot := upd x.slot m block, loadFree := start + depthOf fb }
  | _ => s

/-! ## The stream port (03 R70 to R77) -/

/-- The part of an operand code that a pass takes: the whole value, or hi or lo of a BF16x2 pair
(03 R77). An infinite or NaN hi is the whole value, its lo being ignored (02 R41). -/
def passPart (three lo : Bool) (f : Fmt) (c : Nat) : Ext :=
  if !three then decode f c
  else if f = .bf16x2 then
    let hi := decodeFP fparB16 (c / 2 ^ 16 % 2 ^ 16)
    if !lo then hi else if hi.isNan || hi.isInf then .zero else decodeFP fparB16 (c % 2 ^ 16)
  else if lo then .zero else decode f c

/-- A part with its block scale (02 R44, R45). -/
def scaled (sc : Option Nat) (v : Ext) : Ext × Flags :=
  match sc with
  | none => (v, noFlags)
  | some 255 => (.nan, flagNV)
  | some k => (v.scale ((k : Int) - 127), noFlags)

/-- Codes and scale codes of activation row `i` in ascending k (03 R68, R70). -/
def actRow (x : Spindle) (off i : Nat) (fa : Fmt) (sca : Bool) (k : Nat) : List (Nat × Option Nat) :=
  let w := fmtWidth fa
  let pitch := hankPitch fa
  let o := off % pitch
  let img := off - o
  let o8 := o * 8 / w
  let one (b start n : Nat) : List (Nat × Option Nat) :=
    let cs := elems w 128 (cellsRead x.bobbin (b + i * pitch) pitch)
    (List.range n).map fun e =>
      (cs.getD (start + e) 0,
       if sca then some (cellGet x.bobbin (b + hankBytes fa + 4 * i + (start + e) / 32)).toNat else none)
  one img o8 (min k 128) ++ (if k = 256 then one (img + imageBytes fa sca) 0 128 else [])

/-- Codes and scale codes of block column `n` in ascending k (03 R67, R70). -/
def blockCol (b : WSlot) (n k : Nat) : List (Nat × Option Nat) :=
  ((b.rows.take k).zipIdx).map fun ri =>
    ((ri.1.getD n 0).toNat,
     if b.scaled then some (b.scales.getD (ri.2 / 128 * 512 + 4 * n + ri.2 % 128 / 32) 0).toNat else none)

/-- One element of an FP block sum: products in ascending k, one RNE rounding a step (03 R72, R74). -/
def dotFP (as bs : List (Ext × Flags)) : Lane × Flags :=
  let r := (as.zip bs).foldl (fun (acc : Option Lane × Flags) ab =>
    let a := ab.1.1
    let b := ab.2.1
    let pr := a.mul b
    let f := Flags.or (madeNan pr [a, b]) (Flags.or ab.1.2 ab.2.2)
    let sum := match acc.1 with
      | none => pr
      | some t => (f32 t).add pr
    let nv := match acc.1 with
      | none => noFlags
      | some t => madeNan sum [f32 t, pr]
    let (y, g) := rne32 sum
    (some y, Flags.or acc.2 (Flags.or f (Flags.or nv g)))) (none, noFlags)
  (r.1.getD 0, r.2)

/-- One element of an INT block sum, exact (03 R73). -/
def dotInt (fa fb : Fmt) (as bs : List (Nat × Option Nat)) : Lane :=
  let v (f : Fmt) (c : Nat) : Int :=
    match f with
    | .u8 => (c % 256 : Nat)
    | f => signedOf (fmtWidth f) c
  BitVec.ofInt 32 ((as.zip bs).foldl (fun t ab => t + v fa ab.1.1 * v fb ab.2.1) 0)

/-- The block sum of one pass: M rows of 128 lanes and its flags. -/
def blockSum (fa fb : Fmt) (three loA loB : Bool) (acts cols : List (List (Nat × Option Nat))) :
    List (List Lane) × Flags :=
  let part (lo : Bool) (f : Fmt) (l : List (Nat × Option Nat)) := l.map fun c => scaled c.2 (passPart three lo f c.1)
  let cs := cols.map (part loB fb)
  let out := acts.map fun r => cs.map (dotFP (part loA fa r))
  (out.map fun r => r.map (·.1), orFlags (out.flatMap fun r => r.map (·.2)))

/-- The block sums of an `mma` in the order of its passes (03 R72, R73, R77). -/
def mmaSums (x : Spindle) (b : WSlot) (off rows : Nat) (fa : Fmt) (sca : Bool) (fb : Fmt) :
    List (List (List Lane)) × Flags :=
  let k := pairDepth fa fb
  let acts := (List.range rows).map fun i => actRow x off i fa sca k
  let cols := (List.range 128).map fun n => blockCol b n k
  if pairTag fa fb = some .int then
    ([acts.map fun r => cols.map fun c => dotInt fa fb r c], noFlags)
  else if pairPasses fa fb = 3 then
    let p1 := blockSum fa fb true false false acts cols
    let p2 := blockSum fa fb true false true acts cols
    let p3 := blockSum fa fb true true false acts cols
    ([p1.1, p2.1, p3.1], Flags.or p1.2 (Flags.or p2.2 p3.2))
  else
    let p := blockSum fa fb false false false acts cols
    ([p.1], p.2)

/-- MMA_START: the stream port's oldest `mma` starts once its interlocks clear (03 R79, R81): its slot
is loaded, every earlier `mma` into its tile has committed, every earlier write of the tile by another
slot has been performed, and the port is free. Every activation row is read in the start cycle: 08 R199 leaves open
which cycle sees a write from outside the spindle (DESIGN CHOICE, log 136). For the store that waits for a row (07 R175), row
`i` of a three-pass `mma` counts as read in its last pass, cycle t + 2M + `i` (DESIGN CHOICE, log 161). -/
def doMmaStart (p : Fin 136) (s : State) : State :=
  if s.mgmt.clockLost then s else
  let x := s.sp p
  match takeFirst (fun a => !a.2.isLdw) x.arrayQ with
  | some (before, (t, .mma c m off rows mode fa sca fb _), after) =>
    let loading := before.any fun a => match a.2 with
      | .ldw m' .. => m' == m
      | _ => false
    let written := x.pends.any fun q => decide (q.at_ < t) && q.wrs.any (Wr.isTile c)
    if loading ∨ written ∨ (x.flight.any fun f => f.c = c) ∨ x.clk < x.streamFree then s
    else
      let r := pairPasses fa fb * rows
      let (sums, fl) := mmaSums x (x.slot.get m) off rows fa sca fb
      let reads := (List.range rows).flatMap fun i =>
        (rowRanges off i fa sca (pairDepth fa fb)).map fun g => (g.1, g.2, x.clk + r - rows + i)
      let f : Flight :=
        { c, m, mode, tag := (pairTag fa fb).getD .fp, rows, start := x.clk, ends := x.clk + r
          due := x.clk + r + 270, reads, sums, flags := fl }
      s.setSp p { x with
        arrayQ := before ++ after, flight := x.flight ++ [f], streamFree := x.clk + r
        slotFree := upd x.slotFree m (x.clk + r) }
  | _ => s

/-- A tile element combined with a block-sum element (03 R71 to R74). -/
def combine (tag : Tag) (mode : MmaMode) (t u : Lane) : Lane × Flags :=
  match mode, tag with
  | .set, _ => (u, noFlags)
  | .acc, .fp =>
    let r := (f32 t).add (f32 u)
    let (y, g) := rne32 r
    (y, Flags.or g (madeNan r [f32 t, f32 u]))
  | .sub, .fp =>
    let r := (f32 t).add (f32 u).neg
    let (y, g) := rne32 r
    (y, Flags.or g (madeNan r [f32 t, f32 u]))
  | .acc, .int =>
    let (i, c) := clampTo (-2147483648) 2147483647 (t.toInt + u.toInt)
    (BitVec.ofInt 32 i, flagOF.when c)
  | .sub, .int =>
    let (i, c) := clampTo (-2147483648) 2147483647 (t.toInt - u.toInt)
    (BitVec.ofInt 32 i, flagOF.when c)

/-- Rows of a tile combined with one block sum. -/
def combineRows (tag : Tag) (mode : MmaMode) (rows : Vector VReg 128) (sum : List (List Lane)) :
    Vector (Vector (Lane × Flags) 128) 128 :=
  vecOf 128 fun i => vecOf 128 fun j =>
    match sum[i.val]? with
    | some r => combine tag mode ((rows.get i).get j) (r.getD j.val 0)
    | none => ((rows.get i).get j, noFlags)

def vflags (v : Vector (Lane × Flags) 128) : Flags := orFlags (v.toList.map (·.2))

/-- The tile after an `mma` commits, with its flags (03 R71, R77, R80). -/
def commitTile (t : Tile) (f : Flight) : Tile × Flags :=
  let base : Vector VReg 128 :=
    if f.mode = .set ∧ t.tag ≠ f.tag then
      vecOf 128 fun i => if i.val < f.rows then t.rows.get i else rep 128 0
    else t.rows
  let r := (f.sums.zipIdx).foldl (fun (a : Vector VReg 128 × Flags) su =>
    let mode := if f.mode = .set ∧ su.2 ≠ 0 then .acc else f.mode
    let z := combineRows f.tag mode a.1 su.1
    (vecOf 128 fun i => vecOf 128 fun j => ((z.get i).get j).1,
     Flags.or a.2 (orFlags (z.toList.map vflags)))) (base, noFlags)
  ({ tag := f.tag, rows := r.1 }, r.2)

/-- MMA_COMMIT: the oldest started `mma` writes its tile and sets its flags in its commit cycle
(03 R75, R79, R80). -/
def doMmaCommit (p : Fin 136) (s : State) : State :=
  if s.mgmt.clockLost then s else
  let x := s.sp p
  match x.flight with
  | [] => s
  | f :: fs =>
    if x.clk < f.due then s
    else
      let (t, fl) := commitTile (x.tile.get f.c) f
      s.setSp p ({ x with flight := fs, tile := upd x.tile f.c t }.setFlags (Flags.or f.flags fl))

/-- The command LDW_LOAD_DONE (03 R67). -/
def execLdwLoadDone (p : Fin 136) (s : State) : Res := .next (doLdwLoadDone p s)
/-- The command MMA_START (03 R79, R81). -/
def execMmaStart (p : Fin 136) (s : State) : Res := .next (doMmaStart p s)
/-- The command MMA_COMMIT (03 R75, R80). -/
def execMmaCommit (p : Fin 136) (s : State) : Res := .next (doMmaCommit p s)

end Sys2Proof.Machine
end

