-- ==== Sys2Proof/Machine/Fn.lean ====
section
/-!
DEFINITION. Special functions (04 R92 to R97) and the wide format (04 R98): the exact functions to more than 60 bits,
the tables as free FP32 values inside the bounds of R93, the reductions and compositions of R92.
-/

namespace Sys2Proof.Machine

/-! ## Lanes -/

def nan32 : Lane := 0x7FC00000
def inf32 (n : Bool) : Lane := if n then 0xFF800000 else 0x7F800000
def zero32 (n : Bool) : Lane := if n then 0x80000000 else 0
def one32 (n : Bool) : Lane := if n then 0xBF800000 else 0x3F800000

/-- Whether a lane holds a value below the smallest normal magnitude. -/
def tiny32 (x : Lane) : Bool := decide (x.toNat % 2 ^ 31 < 2 ^ 23)
def isInf32 (x : Lane) : Bool := x.toNat % 2 ^ 31 == 0x7F800000

/-- A lane rounded by RNE with the flags of the rounding and of a NaN made from the operands. -/
def rneOf (r : Ext) (ops : List Ext) : Lane × Flags :=
  let (y, g) := rne32 r
  (y, Flags.or g (madeNan r ops))

def mul32 (a b : Lane) : Lane × Flags := rneOf ((f32 a).mul (f32 b)) [f32 a, f32 b]
def sub32 (a b : Lane) : Lane × Flags := rneOf ((f32 a).add (f32 b).neg) [f32 a, f32 b]
def add32 (a b : Lane) : Lane × Flags := rneOf ((f32 a).add (f32 b)) [f32 a, f32 b]

/-- `rne(a * b + c)`, fused. -/
def fma32 (a b c : Lane) : Lane × Flags :=
  rneOf (((f32 a).mul (f32 b)).add (f32 c)) [f32 a, f32 b, f32 c]

/-- The FP32 value at a place in ascending order: −0 stands at −1, +0 at 0. -/
def ordLane (i : Int) : Lane := if 0 ≤ i then BitVec.ofInt 32 i else BitVec.ofInt 32 (2147483647 - i)

/-- The magnitude code at or below a finite magnitude, and whether the magnitude lies above it. -/
def codeBelow (m : Nat) (e : Int) : Nat × Bool :=
  let r := roundCode fpar32 .rtz 0 m e
  if 0x7F7FFFFF < r.1 then (0x7F7FFFFF, true) else r

/-- Place of the greatest FP32 value at or below an exact value. -/
def floorOrd : Ext → Int
  | .fin n m e =>
    let r := codeBelow m e
    if n && m != 0 then -((r.1 + b2n r.2 : Nat) : Int) - 1 else (r.1 : Nat)
  | .inf n => if n then -0x7F800001 else 0x7F800000
  | .nan => 0

/-- Place of the least FP32 value at or above an exact value. -/
def ceilOrd : Ext → Int
  | .fin n m e =>
    let r := codeBelow m e
    if n && m != 0 then -((r.1 : Nat) : Int) - 1 else ((r.1 + b2n r.2 : Nat) : Int)
  | .inf n => if n then -0x7F800001 else 0x7F800000
  | .nan => 0

/-- One of the FP32 values from `lo` to `hi`, by a free number. -/
def pickIn (lo hi : Ext) (k : Nat) : Lane :=
  let a := ceilOrd lo
  let b := floorOrd hi
  if a ≤ b then ordLane (a + (k : Int) % (b - a + 1)) else ordLane a

/-- A lane brought into `lo` to `hi` where an FP32 value lies in there. -/
def clampIn (lo hi : Ext) (y : Lane) : Lane :=
  let a := ceilOrd lo
  let b := floorOrd hi
  if b < a then y
  else if (f32 y).lt lo then ordLane a
  else if hi.lt (f32 y) then ordLane b
  else y

/-! ## Exact functions -/

def extOne : Ext := .ofInt 1

/-- `num / den`. -/
def ratio (num den : Nat) : Ext := (Ext.ofInt num).divNat den

/-- A value as an integer number of units of two to the −160, rounded down. -/
def fix160 : Ext → Int
  | .fin n m e =>
    let k : Int := if n then -(m : Int) else m
    if 0 ≤ e + 160 then k * 2 ^ natOf (e + 160) else k / 2 ^ natOf (-(e + 160))
  | _ => 0

/-- ln 2 and log2 e in units of two to the −160, and 2π as a number of 200 bits, 197 of them fraction bits. -/
def ln2Fix : Nat := 1013035739299659071135698605846798551586536899366
def log2eFix : Nat := 2108501164428393954197770173035669514763056903505
def twoPi : Nat := 1262086188654498467993352535310609209053660855372165742883842

def log2e : Ext := .fin false log2eFix (-160)

/-- Terms of the exponential series of `z` from the `k`th, in units of two to the −160. -/
def expTerms (z : Nat) : Nat → Nat → Nat → Nat
  | 0, _, _ => 0
  | fuel + 1, k, term => term + expTerms z fuel (k + 1) (term * z / 2 ^ 160 / (k + 1))

/-- Two to the `f`, `f` in [0, 1) and the result in units of two to the −160. -/
def exp2Fix (f : Nat) : Nat := expTerms (f * ln2Fix / 2 ^ 160) 45 0 (2 ^ 160)

/-- Two to the `t`; below 2^−1100 the least value the model tells apart. -/
def exp2Of (t : Ext) : Ext :=
  let i := max (-1100 * 2 ^ 160) (min (1100 * 2 ^ 160) (fix160 t))
  .fin false (exp2Fix (natOf (i % 2 ^ 160))) (i / 2 ^ 160 - 160)

/-- Binary digits of log2 of `y` / 2^160, `y` / 2^160 in [1, 2). -/
def log2Digits : Nat → Nat → Nat → Nat
  | 0, _, acc => acc
  | fuel + 1, y, acc =>
    let z := y * y / 2 ^ 160
    if 2 ^ 161 ≤ z then log2Digits fuel (z / 2) (2 * acc + 1) else log2Digits fuel z (2 * acc)

/-- log2 of `m * 2^e`, `m` not 0, to 80 fraction bits. -/
def log2Of (m : Nat) (e : Int) : Ext :=
  let t := Nat.log2 m
  let y := m * 2 ^ 160 / 2 ^ t
  let i : Int := topOf m e * 2 ^ 80 + (log2Digits 80 y 0 : Nat)
  .fin (i < 0) i.natAbs (-80)

/-- tanh of a value of either sign. -/
def tanhOf (z : Ext) : Ext :=
  let v := exp2Of ((z.abs.mul log2e).scale 1).neg
  let t := Ext.quot (extOne.add v.neg) (extOne.add v)
  if z.isNeg then t.neg else t

/-- 1 / (1 + e^−x). -/
def sigOf (x : Ext) : Ext := Ext.quot extOne (extOne.add (exp2Of (x.neg.mul log2e)))

/-- The tanh form of GELU (04 R92). -/
def geluOf (x : Ext) : Ext :=
  let z := (ratio 7978846 10000000).mul (x.add ((ratio 44715 1000000).mul (x.mul (x.mul x))))
  (x.mul (extOne.add (tanhOf z))).scale (-1)

/-- Terms of the sine or cosine series of `y` / 2^197: the next divides by `k` and `k` + 1. -/
def trigTerms (y2 : Nat) : Nat → Nat → Int → Int
  | 0, _, _ => 0
  | fuel + 1, k, term => term + trigTerms y2 fuel (k + 2) (-(term * y2 / 2 ^ 394) / (k * (k + 1) : Nat))

def sinOf (y : Nat) : Ext := (Ext.ofInt (trigTerms (y * y) 30 2 y)).scale (-197)
def cosOf (y : Nat) : Ext := (Ext.ofInt (trigTerms (y * y) 30 1 (2 ^ 197))).scale (-197)

/-! ## Tables (04 R92, R93; log 10) -/

/-- A value rounded by RNE to the 24 significant bits of FP32, with no limit on the exponent. -/
def rne24 (x : Ext) : Ext :=
  match x with
  | .fin n m e =>
    if m = 0 then x else
    let q := topOf m e - 23
    .fin n (roundAt .rne 0 m e q).1 q
  | y => y

/-- Errors of R93 as fractions of 10^6. -/
def parts (k : Nat) (x : Ext) : Ext := (ratio k 1000000).mul x.abs

/-- The bounds about an exact value. -/
def about (x tol : Ext) : Ext × Ext := (x.add tol.neg, x.add tol)

/-- A value held to bounds. -/
def holdTo (b : Ext × Ext) (y : Lane) : Lane := clampIn b.1 b.2 y

/-- A table entry: a free FP32 value in the bounds. -/
def entryIn (b : Ext × Ext) (k : Nat) : Ext := f32 (pickIn b.1 b.2 k)

/-- The smaller of two tolerances. -/
def tighter (a b : Ext) : Ext := if a.lt b then a else b

/-- The exp2 table at `f` / 2^160. Where 127 + *f* is an FP32 number the entry is below 2, so that no finite result
leaves FP32. -/
def exp2Entry (f : Nat) : Ext :=
  let x : Ext := .fin false f (-160)
  let g : Ext := .fin false (exp2Fix f) (-160)
  if f = 0 then extOne else
  let b := about g (parts 120 g)
  entryIn (if f % 2 ^ 143 = 0 then (b.1, tighter b.2 (.fin false 0xFFFFFF (-23))) else b) (Config.exp2Tab x)

/-- 2^*n* × table(*f*) of an argument, with no limit on the exponent. -/
def exp2By (t : Ext) : Ext :=
  let i := fix160 t
  if i < -1100 * 2 ^ 160 then .zero
  else (exp2Entry (natOf (i % 2 ^ 160))).scale (i / 2 ^ 160)

/-- A value that lies in bounds. -/
def within (b : Ext × Ext) (x : Ext) : Bool := !x.lt b.1 && !b.2.lt x

/-- A table entry in the bounds `b` that also meets `ok`. A free value that does not is brought into `t`; where that does not help
either, the entry is the exact value `r` rounded. -/
def entryFor (ok : Ext → Bool) (b t : Ext × Ext) (r : Ext) (k : Nat) : Ext :=
  let y := pickIn b.1 b.2 k
  if ok (f32 y) then f32 y else if ok (f32 (holdTo t y)) then f32 (holdTo t y) else f32 (rne32 r).1

/-- A value rounded by RNE to FP32. -/
def inFp32 (x : Ext) : Ext := f32 (rne32 x).1

/-- A first Newton step of 04 R95 for 1/`x` from `y`. -/
def rcpStep (x y : Ext) : Ext := rne24 ((y.mul (rne24 (extOne.add (x.mul y).neg))).add y)

/-- A first Newton step of 04 R95 for 1/√`x` from `y`. -/
def rsqStep24 (x y : Ext) : Ext :=
  rne24 (((y.scale (-1)).mul (rne24 (extOne.add (x.mul (rne24 (y.mul y))).neg))).add y)

/-- The same step in FP32 for 1/(2^`k` × `x`), where the reciprocal is subnormal. -/
def rcpStepAt (x y : Ext) (k : Int) : Ext :=
  let z := inFp32 (y.scale (-k))
  inFp32 ((z.mul (inFp32 (extOne.add ((x.scale k).mul z).neg))).add z)

/-- The same step in FP32 for 1/√(4^`h` × `x`), where the square of the table value is subnormal. -/
def rsqStepAt (x y : Ext) (h : Int) : Ext :=
  let z := inFp32 (y.scale (-h))
  inFp32 (((z.scale (-1)).mul (inFp32 (extOne.add ((x.scale (2 * h)).mul (inFp32 (z.mul z))).neg))).add z)

/-- The error of the first step for 1/`x` at every exponent: with no limit on it, and where the reciprocal is subnormal
(04 R96). -/
def rcpStepOk (x y : Ext) : Bool :=
  let b := about extOne (ratio 25 100000000)
  within b ((rcpStep x y).mul x) && [126, 127].all fun k => within b ((rcpStepAt x y k).mul (x.scale k))

/-- The error of the first step for 1/√`x` at every exponent (04 R96), by its square. -/
def rsqStepOk (x y : Ext) : Bool :=
  let b := about extOne (ratio 83 100000000)
  let good (z x : Ext) : Bool := within (b.1.mul b.1, b.2.mul b.2) ((z.mul z).mul x)
  good (rsqStep24 x y) x && good (rsqStepAt x y 63) (x.scale 126)

/-- 2^−*e* × table(*m*) of the reciprocal of a non-zero magnitude. -/
def rcpBy (m : Nat) (e : Int) : Ext :=
  let t := topOf m e
  if m = 2 ^ Nat.log2 m then .pow2 (-t) else
  let x : Ext := .fin false m (e - t)
  let r := Ext.quot extOne x
  (entryFor (rcpStepOk x) (about r (parts 490 r)) (about r (parts 430 r)) r (Config.rcpTab x)).scale (-t)

/-- 2^−*e* × table(*m*) of the reciprocal square root of a non-zero magnitude, *m* in [1, 4). -/
def rsqBy (m : Nat) (e : Int) : Ext :=
  let h := topOf m e / 2
  let x : Ext := .fin false m (e - 2 * h)
  if m = 2 ^ Nat.log2 m ∧ topOf m e = 2 * h then .pow2 (-h) else
  let r := (Ext.quot extOne x).root
  (entryFor (rsqStepOk x) (about r (parts 740 r)) (about r (parts 690 r)) r (Config.rsqTab x)).scale (-h)

/-- The tanh table on a magnitude in [2^−6, 9). -/
def tanhEntry (z : Ext) : Ext :=
  let t := tanhOf z
  entryIn (about t (tighter (ratio 600 1000000) (parts 1500 t))) (Config.tanhTab z)

/-- The sin and cos tables on [0, π/4], the argument in units of two to the −197. -/
def sinEntry (y : Nat) : Ext :=
  entryIn (about (sinOf y) (ratio 150 1000000)) (Config.sinTab (.fin false y (-197)))
def cosEntry (y : Nat) : Ext :=
  if y = 0 then extOne else entryIn (about (cosOf y) (ratio 150 1000000)) (Config.cosTab (.fin false y (-197)))

/-! ## The functions (04 R92 to R94, 07 R183) -/

/-- The exponent of an exact power of two. -/
def powerOf2 (m : Nat) (e : Int) : Option Int := if m = 2 ^ Nat.log2 m then some (topOf m e) else none

/-- An integral value. -/
def asInt (n : Bool) (m : Nat) (e : Int) : Option Int :=
  if e ≥ 0 then some (unitsAt n m e 0)
  else if m % 2 ^ natOf (-e) = 0 then some (if n then -((m / 2 ^ natOf (-e) : Nat) : Int) else (m / 2 ^ natOf (-e) : Nat))
  else none

/-- exp2. UF follows the exact value: it is set for arguments below -126 alone, also where the entry of an argument at or just above
-126 is below 1 and the result subnormal (04 R94; DESIGN CHOICE, log 167). -/
def fnExp2 (x : Lane) : Lane × Flags :=
  match f32 x with
  | .nan => (nan32, noFlags)
  | .inf n => (if n then zero32 false else inf32 false, noFlags)
  | .fin n m e =>
    let v := Ext.fin n m e
    if v.lt (.ofInt 128) then
      if m = 0 then (one32 false, noFlags) else
      match asInt n m e with
      | some k => if k < -149 then (0, flagUF) else ((rne32 (.pow2 k)).1, noFlags)
      | none =>
        if v.lt (.ofInt (-150)) then (0, flagUF)
        else
          let g := exp2Of v
          (holdTo (about g (parts 120 g)) (rne32 (exp2By v)).1, flagUF.when (v.lt (.ofInt (-126))))
    else (inf32 false, flagOF)

def fnLog2 (x : Lane) : Lane × Flags :=
  match f32 x with
  | .nan => (nan32, noFlags)
  | .inf n => if n then (nan32, flagNV) else (inf32 false, noFlags)
  | .fin n m e =>
    if m = 0 then (inf32 true, noFlags)
    else if n then (nan32, flagNV)
    else match powerOf2 m e with
      | some k => ((rne32 (.ofInt k)).1, noFlags)
      | none =>
        let t := topOf m e
        let l := log2Of m (e - t)
        let y := entryIn (about l (ratio 360 1000000)) (Config.log2Tab (.fin false m (e - t)))
        -- where R93 bounds the relative error the result is 1 or more, so that its absolute bound is the tighter one
        (holdTo (about (log2Of m e) (ratio 360 1000000)) (rne32 ((Ext.ofInt t).add y)).1, noFlags)

def fnRcp (x : Lane) : Lane × Flags :=
  match f32 x with
  | .nan => (nan32, noFlags)
  | .inf n => (zero32 n, noFlags)
  | .fin n m e =>
    if m = 0 then (inf32 n, noFlags)
    else match powerOf2 m e with
      | some k => rne32 (.fin n 1 (-k))
      | none =>
        if topOf m e < -128 then (inf32 n, flagOF)
        else
          let r := Ext.quot extOne (.fin false m e)
          let b := about r (parts 490 r)
          let y := f32 (holdTo (if topOf m e < 126 then b else (b.1, tighter b.2 (.fin false 0x7FFFFF (-149)))) (rne32 (rcpBy m e)).1)
          ((rne32 (if n then y.neg else y)).1, flagUF.when (decide (topOf m e ≥ 126)))

def fnRsq (x : Lane) : Lane × Flags :=
  match f32 x with
  | .nan => (nan32, noFlags)
  | .inf n => if n then (nan32, flagNV) else (0, noFlags)
  | .fin n m e =>
    if m = 0 then (inf32 n, noFlags)
    else if n then (nan32, flagNV)
    else ((rne32 (rsqBy m e)).1, noFlags)

/-- tanh of a magnitude that is not zero, as its reduction gives it (04 R92). -/
def tanhBy (v : Ext) : Ext :=
  if v.lt (.pow2 (-6)) then v else if v.lt (.ofInt 9) then tanhEntry v else extOne

def fnTanh (x : Lane) : Lane × Flags :=
  match f32 x with
  | .nan => (nan32, noFlags)
  | .inf n => (one32 n, noFlags)
  | .fin n m e =>
    if m = 0 then (x, noFlags) else
    let y := tanhBy (.fin false m e)
    ((rne32 (if n then y.neg else y)).1, noFlags)

/-- The octant reduction of 04 R92 and R97 of a magnitude `m * 2^e` whose exponent FP32 allows: sine or cosine. -/
def trigBy (cos : Bool) (n : Bool) (m : Nat) (e : Int) : Ext :=
  let x := m * 2 ^ natOf (e + 197)
  let k := (2 * x + twoPi) / (2 * twoPi)
  let r : Int := (x : Int) - (k * twoPi : Nat)
  let a := r.natAbs
  let q := twoPi / 4
  let b := ((a : Int) - q).natAbs
  let c := twoPi / 2 - a
  let near := decide (8 * a ≤ twoPi)
  let mid := decide (8 * a ≤ 3 * twoPi)
  if cos then
    if near then cosEntry a else if mid then (if a ≤ q then sinEntry b else (sinEntry b).neg) else (cosEntry c).neg
  else
    let y := if near then sinEntry a else if mid then cosEntry b else sinEntry c
    if n != decide (r < 0) then y.neg else y

def fnSin (x : Lane) : Lane × Flags :=
  match f32 x with
  | .nan => (nan32, noFlags)
  | .inf _ => (nan32, flagNV)
  | .fin n m e => if m = 0 then (zero32 n, noFlags) else ((rne32 (trigBy false n m e)).1, noFlags)

def fnCos (x : Lane) : Lane × Flags :=
  match f32 x with
  | .nan => (nan32, noFlags)
  | .inf _ => (nan32, flagNV)
  | .fin n m e => if m = 0 then (one32 false, noFlags) else ((rne32 (trigBy true n m e)).1, noFlags)

/-- sigmoid as R92 composes it, before its rounding to FP32: 24 significant bits, no limit on the exponent. -/
def sigBy (x : Ext) : Ext :=
  let t := rne24 (x.neg.mul (f32 0x3FB8AA3B))
  match rne24 (extOne.add (exp2By t)) with
  | .fin _ m e => rcpBy m e
  | y => y

def fnSig (x : Lane) : Lane × Flags :=
  match f32 x with
  | .nan => (nan32, noFlags)
  | .inf n => (if n then 0 else one32 false, noFlags)
  | .fin n m e =>
    let v := Ext.fin n m e
    if m = 0 then (0x3F000000, noFlags)
    else if v.lt (.ofInt (-150)) then (0, flagUF)
    else
      let g := sigOf v
      let y := holdTo (about g (tighter (ratio 550 1000000) (parts 620 g))) (rne32 (sigBy v)).1
      (y, flagUF.when (tiny32 y))

def fnGelu (x : Lane) : Lane × Flags :=
  match f32 x with
  | .nan => (nan32, noFlags)
  | .inf n => (if n then zero32 true else inf32 false, noFlags)
  | .fin n m e =>
    let v := Ext.fin n m e
    if m = 0 then (zero32 n, noFlags) else
    let cube := (mul32 (mul32 x x).1 x).1
    let w := (fma32 (rne32 (ratio 44715 1000000)).1 cube x).1
    let z := (mul32 (rne32 (ratio 7978846 10000000)).1 w).1
    let h := (add32 (one32 false) (fnTanh z).1).1
    let y0 := (mul32 (mul32 0x3F000000 x).1 h).1
    let g := geluOf v
    let tol := if n then ratio 1000 1000000 else tighter (ratio 1000 1000000) (parts 610 g)
    let y := holdTo (about g tol) y0
    (y, flagOF.when (isInf32 y))

def fnSilu (x : Lane) : Lane × Flags :=
  match f32 x with
  | .nan => (nan32, noFlags)
  | .inf n => (if n then zero32 true else inf32 false, noFlags)
  | .fin n m e =>
    let v := Ext.fin n m e
    if m = 0 then (zero32 n, noFlags)
    else if v.lt (.ofInt (-150)) then (zero32 true, flagUF)
    else
      let g := v.mul (sigOf v)
      let y := holdTo (about g (parts 620 g)) (rne32 (v.mul (sigBy v))).1
      (y, Flags.or (flagOF.when (isInf32 y)) (flagUF.when (tiny32 y)))

/-! ## The wide format (04 R98; log 20) -/

/-- Exponent of the last bit at exponent code 0: magnitudes run to 2^511. -/
def wideMin : Int := -560

/-- The exact value of a wide number. -/
def wideVal (w : Wide) : Ext := .fin w.neg (w.hi.toNat * 2 ^ 24 + w.lo.toNat) (wideMin + w.exp.toNat)

/-- A finite value in the wide format. Where it does not fit, which neighbour stands for it is the device's. -/
def wideOf (x : Ext) : Wide :=
  match x with
  | .fin n m e =>
    if m = 0 then { neg := n } else
    let q := max (topOf m e - 47) wideMin
    let r := roundAt .rtz 0 m e q
    let k := if r.2 && Config.wideUp x then r.1 + 1 else r.1
    let c := decide (2 ^ 48 ≤ k)
    let k := if c then k / 2 else k
    { neg := n, hi := BitVec.ofNat 24 (k / 2 ^ 24), lo := BitVec.ofNat 24 k
      exp := BitVec.ofNat 10 (natOf (min 1023 (q - wideMin + b2n c))) }
  | _ => {}

/-- A compensated sum takes one more value (04 R105). -/
def widePlus (w : Wide) (x : Ext) : Wide := wideOf ((wideVal w).add x)

/-- A value rounded to the wide format. -/
def toWide (x : Ext) : Ext :=
  match x with
  | .fin .. => wideVal (wideOf x)
  | y => y

/-- One Newton step of 04 R95 for 1/√*a* in the wide format. -/
def rsqStep (a y : Ext) : Ext :=
  let t := toWide (y.mul y)
  let e := toWide (extOne.add (a.mul t).neg)
  toWide (((y.scale (-1)).mul e).add y)

/-- 1/√ of a wide value: the table, two Newton steps, then the rounding to FP32 (04 R94, R108). -/
def rstdIn (v : Ext) : Lane × Flags :=
  match v with
  | .nan => (nan32, noFlags)
  | .inf n => if n then (nan32, flagNV) else (0, noFlags)
  | .fin n m e =>
    if m = 0 then (inf32 n, noFlags)
    else if n then (nan32, flagNV)
    else rne32 (rsqStep v (rsqStep v (rsqBy m e)))

/-- 1/*a* of `smax.p2`: the table, then two Newton steps of 04 R95 (04 R101). A table value of zero or infinity, on which the
steps would make a NaN, is kept without them (DESIGN CHOICE, log 167). -/
def recipIn (a : Lane) : Lane :=
  let na := a ^^^ 0x80000000
  let step (y : Lane) : Lane := (fma32 y (fma32 na y (one32 false)).1 y).1
  let y := (fnRcp a).1
  match f32 y with
  | .fin _ m _ => if m = 0 then y else step (step y)
  | _ => y

end Sys2Proof.Machine
end

