-- ==== Sys2Proof/Machine/Vec.lean ====
section
/-!
DEFINITION. Vector class (04 R88 to R91, 06 R146, 07 R181 to R184): lane arithmetic, conversion,
special-function instructions, tile rows and bobbin rows, and the write of a vector result.
-/

namespace Sys2Proof.Machine

/-! ## Lanes -/

/-- The two halves of a lane, element 2i first (04 R88). -/
def half (x : Lane) (hi : Bool) : Nat := if hi then x.toNat / 2 ^ 16 else x.toNat % 2 ^ 16

/-- Two BF16 codes as a lane. -/
def pack2 (lo hi : Nat) : Lane := BitVec.ofNat 32 (hi % 2 ^ 16 * 2 ^ 16 + lo % 2 ^ 16)

/-- An exact operation on three operands, rounded once per element (04 R89). -/
def laneOp (f : Fmt) (rm : RM) (op : Ext → Ext → Ext → Ext × Flags) (a b c : Lane) : Lane × Flags :=
  if f = .bf16 then
    let one (hi : Bool) : Nat × Flags :=
      let (r, g) := op (decodeFP fparB16 (half a hi)) (decodeFP fparB16 (half b hi)) (decodeFP fparB16 (half c hi))
      let (y, g') := encodeFP fparB16 true rm 0 r
      (y, Flags.or g g')
    (pack2 (one false).1 (one true).1, Flags.or (one false).2 (one true).2)
  else
    let (r, g) := op (f32 a) (f32 b) (f32 c)
    let (y, g') := toF32 rm 0 r
    (y, Flags.or g g')

def negIf (n : Bool) (x : Ext) : Ext := if n then x.neg else x

/-- `rm(±a + b)` (07 R181). -/
def opAdd (np : Bool) (a b _ : Ext) : Ext × Flags :=
  let r := (negIf np a).add b
  (r, madeNan r [a, b])
/-- `rm(±(a * b))` (07 R181). -/
def opMul (np : Bool) (a b _ : Ext) : Ext × Flags :=
  let r := negIf np (a.mul b)
  (r, madeNan r [a, b])
/-- `rm(±(a * b) ± c)`, one rounding (07 R181). -/
def opFma (np nc : Bool) (a b c : Ext) : Ext × Flags :=
  let r := (negIf np (a.mul b)).add (negIf nc c)
  (r, madeNan r [a, b, c])

/-- Minimum or maximum of two codes of a format (04 R89). -/
def pickCode (f : Fmt) (mx : Bool) (nanC a b : Nat) : Nat :=
  let x := decode f a
  let y := decode f b
  if x.isNan then (if y.isNan then nanC else b)
  else if y.isNan then a
  else if (if mx then y.lt x else x.lt y) then a else b

def lanePick (f : Fmt) (mx : Bool) (a b : Lane) : Lane :=
  if f = .bf16 then
    pack2 (pickCode .bf16 mx 0x7FC0 (half a false) (half b false)) (pickCode .bf16 mx 0x7FC0 (half a true) (half b true))
  else BitVec.ofNat 32 (pickCode .fp32 mx 0x7FC00000 a.toNat b.toNat)

/-! ## Issue -/

/-- The lanes of a second source (06 R146 `SB`). -/
def vsrc (x : Spindle) : VSrc → VReg
  | .v r => x.v.get r
  | .s r => rep 128 ((x.rs r).setWidth 32)

def vsrcNeed (x : Spindle) : VSrc → List Stall
  | .v r => x.needV [r]
  | .s r => x.needS [r]

/-- A v destination waits for results of the other units into it (06 R154). -/
def Spindle.wawUnits (x : Spindle) (vd : Fin 32) : List Stall :=
  if (x.rq ++ x.qq).any fun q => q.wrs.any (Wr.isV vd) then [.operands] else []

def Spindle.vPort (x : Spindle) : List Stall := if x.clk < x.vFree then [.operands] else []

def lanesOf (v : Vector (Lane × Flags) 128) : VReg := vecOf 128 fun i => (v.get i).1

/-- A vector instruction that writes a v register from its operands (04 R91). -/
def effVec (h : Hdr) (opc interval lat : Nat) (vd : Fin 32) (need : List Stall) (exc : List Raise)
    (enc : Option Nat) (out : Vector (Lane × Flags) 128) (s : State) : Eff :=
  let x := s.sp h.sp
  { mkEff h .v 3 opc s with
    dests := [.v vd], exc, enc, stall := need ++ x.wawUnits vd ++ x.vPort
    acts := [.vec interval { at_ := x.clk, busy := x.clk + interval, due := x.clk + lat, reads := [],
                             wrs := [.v vd (lanesOf out)], flags := vflags out }] }

/-- FORMAT of an element format other than FP32 and BF16, code 0xF among them (07 R181). -/
def vecFmtRaise (f : Fmt) : List Raise := raiseIf (f != .fp32 && f != .bf16) .format 0x01

/-- FORMAT of a special function's element format: 0xF is a format code of its own (06 R161, 07 R183). -/
def fnFmtRaise (f : Fmt) : List Raise := if f = .rsv then [{ exc := .format, detail := 0x05 }] else vecFmtRaise f

/-- FORMAT of a rounding mode other than RNE and RTZ (07 R181). -/
def rmRaise (rm : RM) : List Raise := raiseIf (rm == .sr || rm == .rha) .format 0x06

/-- An arithmetic instruction (07 R181). -/
def effArith (h : Hdr) (opc : Nat) (vd va : Fin 32) (vb : VSrc) (vc : Fin 32) (f : Fmt) (rm : RM)
    (op : Ext → Ext → Ext → Ext × Flags) (s : State) : Eff :=
  let x := s.sp h.sp
  let b := vsrc x vb
  effVec h opc 1 4 vd (x.needV [va, vc] ++ vsrcNeed x vb) (vecFmtRaise f ++ rmRaise rm) none
    (vecOf 128 fun i => laneOp f rm op ((x.v.get va).get i) (b.get i) ((x.v.get vc).get i)) s

/-- `vadd` (07 R181). -/
def effVadd (h : Hdr) (vd va : Fin 32) (vb : VSrc) (f : Fmt) (rm : RM) (np : Bool) (s : State) : Eff :=
  effArith h 0x00 vd va vb va f rm (opAdd np) s
/-- `vmul` (07 R181). -/
def effVmul (h : Hdr) (vd va : Fin 32) (vb : VSrc) (f : Fmt) (rm : RM) (np : Bool) (s : State) : Eff :=
  effArith h 0x01 vd va vb va f rm (opMul np) s
/-- `vfma` (07 R181). -/
def effVfma (h : Hdr) (vd va : Fin 32) (vb : VSrc) (vc : Fin 32) (f : Fmt) (rm : RM) (np nc : Bool)
    (s : State) : Eff :=
  effArith h 0x02 vd va vb vc f rm (opFma np nc) s

/-- `vmin` and `vmax` (04 R89). -/
def effPick (h : Hdr) (opc : Nat) (mx : Bool) (vd va : Fin 32) (vb : VSrc) (f : Fmt) (s : State) : Eff :=
  let x := s.sp h.sp
  let b := vsrc x vb
  effVec h opc 1 4 vd (x.needV [va] ++ vsrcNeed x vb) (vecFmtRaise f) none
    (vecOf 128 fun i => (lanePick f mx ((x.v.get va).get i) (b.get i), noFlags)) s
/-- `vmin` (04 R89). -/
def effVmin (h : Hdr) (vd va : Fin 32) (vb : VSrc) (f : Fmt) (s : State) : Eff := effPick h 0x03 false vd va vb f s
/-- `vmax` (04 R89). -/
def effVmax (h : Hdr) (vd va : Fin 32) (vb : VSrc) (f : Fmt) (s : State) : Eff := effPick h 0x04 true vd va vb f s

/-- ILLEGAL 0x02 of an index register named without SR (07 R182). -/
def indexEnc (rm : RM) (ix : Fin 32) : Option Nat := if rm ≠ .sr ∧ ix ≠ 0 then some 0x02 else none

/-- Twist output of a spindle for an element index (02 R53). -/
def Spindle.rnd (x : Spindle) (ix : Word) (off : Nat) : Nat := twist x.seed (ix + BitVec.ofNat 64 off) x.step

/-- The source code that `vcvt` reads in a lane (07 R182). -/
def cvtSource (f : Fmt) (np : Bool) (l : Lane) : Nat :=
  if f = .bf16 then half l np else l.toNat % 2 ^ fmtWidth f

/-- A code as `vcvt` leaves it in a lane: signed integers sign-extend, others zero-fill (07 R182). -/
def cvtLane (f : Fmt) (c : Nat) : Lane :=
  match f with
  | .i16 => BitVec.ofInt 32 (signedOf 16 c)
  | .i8 => BitVec.ofInt 32 (signedOf 8 c)
  | .i4 => BitVec.ofInt 32 (signedOf 4 c)
  | _ => BitVec.ofNat 32 c

/-- `vcvt` (07 R182). `NP`, like VB, has no effect on a source other than BF16 (log 86). -/
def effVcvt (h : Hdr) (vd va vb : Fin 32) (f f2 : Fmt) (rm : RM) (satInf np : Bool) (ix : Fin 32)
    (s : State) : Eff :=
  let x := s.sp h.sp
  let base := x.rs ix
  let one (l : Lane) (i : Nat) : Nat × Flags := encode f2 satInf rm (x.rnd base i) (decode f (cvtSource f np l))
  let raises := match convCheck f f2 rm with
    | some d => [{ exc := .format, detail := d }]
    | none => []
  effVec h 0x08 1 4 vd (x.needV (if f2 = .bf16 then [va, vb] else [va]) ++ x.needS [ix]) raises (indexEnc rm ix)
    (vecOf 128 fun i =>
      let a := one ((x.v.get va).get i) i.val
      if f2 = .bf16 then
        let b := one ((x.v.get vb).get i) (128 + i.val)
        (pack2 a.1 b.1, Flags.or a.2 b.2)
      else (cvtLane f2 a.1, a.2)) s

/-- A special function in FP32 or packed BF16 (04 R92, 07 R183); `uf`: whether its column of flags has UF (log 82). -/
def effFn (h : Hdr) (opc interval lat : Nat) (uf : Bool) (fn : Lane → Lane × Flags) (vd va : Fin 32) (f : Fmt) (rm : RM)
    (ix : Fin 32) (s : State) : Eff :=
  let x := s.sp h.sp
  let base := x.rs ix
  let bad := if f = .bf16 then rm == .rha else rm != .rne
  effVec h opc interval lat vd (x.needV [va] ++ x.needS [ix]) (fnFmtRaise f ++ raiseIf bad .format 0x06)
    (indexEnc rm ix)
    (vecOf 128 fun i =>
      let l := (x.v.get va).get i
      if f = .bf16 then
        let one (hi : Bool) : Nat × Flags :=
          let (y, g) := fn (BitVec.ofNat 32 (half l hi * 2 ^ 16))
          let (c, g') := encodeFP fparB16 true rm (x.rnd base (2 * i.val + b2n hi)) (f32 y)
          (c, Flags.or g { g' with uf := g'.uf && uf })
        (pack2 (one false).1 (one true).1, Flags.or (one false).2 (one true).2)
      else fn l) s

/-- `vexp2` (07 R183). -/
def effVexp2 (h : Hdr) (vd va : Fin 32) (f : Fmt) (rm : RM) (ix : Fin 32) (s : State) : Eff :=
  effFn h 0x10 1 12 true fnExp2 vd va f rm ix s

/-- `vlog2` (07 R183). -/
def effVlog2 (h : Hdr) (vd va : Fin 32) (f : Fmt) (rm : RM) (ix : Fin 32) (s : State) : Eff :=
  effFn h 0x11 1 12 false fnLog2 vd va f rm ix s

/-- `vrcp` (07 R183). -/
def effVrcp (h : Hdr) (vd va : Fin 32) (f : Fmt) (rm : RM) (ix : Fin 32) (s : State) : Eff :=
  effFn h 0x12 1 12 true fnRcp vd va f rm ix s

/-- `vrsq` (07 R183). -/
def effVrsq (h : Hdr) (vd va : Fin 32) (f : Fmt) (rm : RM) (ix : Fin 32) (s : State) : Eff :=
  effFn h 0x13 1 12 false fnRsq vd va f rm ix s

/-- `vtanh` (07 R183). -/
def effVtanh (h : Hdr) (vd va : Fin 32) (f : Fmt) (rm : RM) (ix : Fin 32) (s : State) : Eff :=
  effFn h 0x14 1 12 false fnTanh vd va f rm ix s

/-- `vsin` (07 R183). -/
def effVsin (h : Hdr) (vd va : Fin 32) (f : Fmt) (rm : RM) (ix : Fin 32) (s : State) : Eff :=
  effFn h 0x15 1 14 false fnSin vd va f rm ix s

/-- `vcos` (07 R183). -/
def effVcos (h : Hdr) (vd va : Fin 32) (f : Fmt) (rm : RM) (ix : Fin 32) (s : State) : Eff :=
  effFn h 0x16 1 14 false fnCos vd va f rm ix s

/-- `vsig` (07 R183). -/
def effVsig (h : Hdr) (vd va : Fin 32) (f : Fmt) (rm : RM) (ix : Fin 32) (s : State) : Eff :=
  effFn h 0x17 2 22 true fnSig vd va f rm ix s

/-- `vgelu` (07 R183). -/
def effVgelu (h : Hdr) (vd va : Fin 32) (f : Fmt) (rm : RM) (ix : Fin 32) (s : State) : Eff :=
  effFn h 0x18 2 22 false fnGelu vd va f rm ix s

/-- `vsilu` (07 R183). -/
def effVsilu (h : Hdr) (vd va : Fin 32) (f : Fmt) (rm : RM) (ix : Fin 32) (s : State) : Eff :=
  effFn h 0x19 2 22 true fnSilu vd va f rm ix s

/-! ## Tile rows and bobbin rows (04 R90, 07 R184) -/

/-- ILLEGAL 0x05 of a row number above 127 (07 R184). -/
def rowRaise (n : Nat) : List Raise := raiseIf (decide (127 < n)) .illegal 0x05

def rowOf (n : Nat) : Fin 128 := if h : n < 128 then ⟨n, h⟩ else 0

/-- A pending result of the vector unit. -/
def vecPend (x : Spindle) (interval lat : Nat) (wrs : List Wr) (fl : Flags) : Pend :=
  { at_ := x.clk, busy := x.clk + interval, due := x.clk + lat, reads := [], wrs, flags := fl }

/-- A write of a tile row waits for every `mma` into the tile and for whole-tile writes (03 R81). -/
def Spindle.freeRow (x : Spindle) (c : Fin 4) : List Stall :=
  if x.mmaInto c || x.pendAny (fun w => match w with
    | .tile k _ => k == c
    | _ => false) then [.operands] else []

/-- `vrd` (04 R90): the row as the last committed `mma` left it (03 R82). -/
def effVrd (h : Hdr) (vd : Fin 32) (c : Fin 4) (row : Num7) (s : State) : Eff :=
  let x := s.sp h.sp
  let n := num7 x row
  { mkEff h .v 3 0x20 s with
    dests := [.v vd], exc := rowRaise n
    stall := x.needS (num7Regs row) ++ x.needTile [c] ++ x.wawUnits vd ++ x.vPort
    acts := [.vec 1 (vecPend x 1 3 [.v vd ((x.tile.get c).rows.get (rowOf n))] noFlags)] }

/-- `vwr` (04 R90). -/
def effVwr (h : Hdr) (c : Fin 4) (row : Num7) (vs : Fin 32) (s : State) : Eff :=
  let x := s.sp h.sp
  let n := num7 x row
  { mkEff h .v 3 0x21 s with
    dests := [.tile c], exc := rowRaise n
    stall := x.needS (num7Regs row) ++ x.needV [vs] ++ x.freeRow c ++ x.vPort
    acts := [.vec 1 (vecPend x 1 3 [.tileRow c (rowOf n) (x.v.get vs)] noFlags)] }

/-- A tile given by its tag and its elements with their flags. -/
def tileOf (tag : Tag) (z : Vector (Vector (Lane × Flags) 128) 128) : Tile × Flags :=
  ({ tag, rows := vecOf 128 fun i => lanesOf (z.get i) }, orFlags (z.toList.map vflags))

/-- `vscr` (04 R90). -/
def effVscr (h : Hdr) (c : Fin 4) (vs : Fin 32) (s : State) : Eff :=
  let x := s.sp h.sp
  let t := x.tile.get c
  let z := vecOf 128 fun i => vecOf 128 fun j =>
    laneOp .fp32 .rne (opMul false) ((t.rows.get i).get j) ((x.v.get vs).get i) 0
  let (t', fl) := tileOf t.tag z
  { mkEff h .v 3 0x22 s with
    dests := [.tile c], exc := raiseIf (t.tag == .int) .format 0x03
    stall := x.needV [vs] ++ x.needTile [c] ++ x.freeTile c ++ x.vPort
    acts := [.vec 128 (vecPend x 128 132 [.tile c t'] fl)] }

/-- Bobbin address of `vld` and `vst` (07 R184). -/
def rowAddr (x : Spindle) (ra : Fin 32) (off : BitVec 16) : Nat := (x.rs ra + off.signExtend 64).toNat

/-- 128 lanes from 512 bytes. -/
def lanesFrom (bs : List Byte) : VReg :=
  let cs := elems 32 128 bs
  vecOf 128 fun i => BitVec.ofNat 32 (cs.getD i.val 0)

/-- The 512 bytes of 128 lanes. -/
def lanesTo (v : VReg) : List Byte := v.toList.flatMap fun l => leBytes 4 l.toNat

/-- `vld` (07 R184). -/
def effVld (h : Hdr) (vd ra : Fin 32) (off : BitVec 16) (s : State) : Eff :=
  let x := s.sp h.sp
  let a := rowAddr x ra off
  let o := a - bobbinBase h.sp
  { mkEff h .v 3 0x23 s with
    dests := [.v vd], exc := bobbinRaise h.sp a 512 16 0x01
    stall := x.needS [ra] ++ readStall s h.sp o 512 ++ x.wawUnits vd ++ x.vPort
    acts := [.vec 1 (vecPend x 1 8 [.v vd (lanesFrom (cellsRead x.bobbin o 512))] noFlags)] }

/-- `vst` (07 R184): the store is performed as the bundle issues (07 R175). -/
def effVst (h : Hdr) (vs ra : Fin 32) (off : BitVec 16) (s : State) : Eff :=
  let x := s.sp h.sp
  let a := rowAddr x ra off
  let o := a - bobbinBase h.sp
  { mkEff h .v 3 0x24 s with
    exc := bobbinRaise h.sp a 512 16 0x01
    stall := x.needS [ra] ++ x.needV [vs] ++ writeStall s h.sp o 512 ++ x.vPort
    acts := [.wr (.mem o (lanesTo (x.v.get vs)))] }

/-! ## The write of a vector result -/

/-- Whether two writes have one destination. -/
def Wr.clash : Wr → Wr → Bool
  | .v a _, .v b _ => a == b
  | .tile a _, .tile b _ => a == b
  | .tile a _, .tileRow b _ _ => a == b
  | .tileRow a _ _, .tile b _ => a == b
  | .tileRow a i _, .tileRow b j _ => a == b && i == j
  | .rowFile _, .rowFile _ => true
  | .e a _, .e b _ => a == b
  | .s a _, .s b _ => a == b
  | .mem o bs, .mem o' bs' => overlap o bs.length o' bs'.length
  | _, _ => false

def Pend.clash (a b : Pend) : Bool := a.wrs.any fun w => b.wrs.any fun u => w.clash u

/-- The first result that is due and overtakes no earlier result into its destination. -/
def takeDue (clk : Nat) : List Pend → List Pend → Option (List Pend × Pend × List Pend)
  | _, [] => none
  | before, q :: qs =>
    if q.due ≤ clk ∧ !before.any (Pend.clash q) then some (before, q, qs) else takeDue clk (before ++ [q]) qs

/-- VECTOR_RESULT_WRITE: a vector result is written after its latency and sets its flags (04 R89, R91). -/
def doVectorResultWrite (p : Fin 136) (s : State) : State :=
  if s.mgmt.clockLost then s else
  let x := s.sp p
  match takeDue x.clk [] x.vpend with
  | some (a, q, b) => s.setSp p { x.finish q with vpend := a ++ b }
  | none => s

/-- The command VECTOR_RESULT_WRITE (04 R91). -/
def execVectorResultWrite (p : Fin 136) (s : State) : Res := .next (doVectorResultWrite p s)

end Sys2Proof.Machine
end

