-- ==== Sys2Proof/Machine/RowUnit.lean ====
section
/-!
DEFINITION. The row unit (04 R98 to R114, 07 R185): soft maximum, statistics, normalisation, row sums,
and the save and load of the row-state file.
-/

namespace Sys2Proof.Machine

/-- The mask floor −2^120 (04 R99). -/
def floor32 : Lane := 0xFB800000

/-- Maximum of two lanes; a NaN operand makes it NaN (04 R115). -/
def maxNan (a b : Lane) : Lane :=
  if (f32 a).isNan || (f32 b).isNan then nan32 else lanePick .fp32 true a b

/-! ## Masks (04 R99) -/

/-- What a mask operand selects: the test of a position by its row and column. -/
def maskTest (x : Spindle) (p : Fin 136) : Mask → Nat → Nat → Bool
  | .none, _, _ => false
  | .causal sb, i, j => decide ((i : Int) + (x.rs sb).toInt < j)
  | .bits sb, i, j =>
    (cellGet x.bobbin ((x.rs sb).toNat - bobbinBase p + 16 * i + j / 8)).toNat / 2 ^ (j % 8) % 2 == 1

def maskRegs : Mask → List (Fin 32)
  | .none => []
  | .causal sb => [sb]
  | .bits sb => [sb]

/-- The 16 bytes of a mask that tile row `i` reads, in the cycle of that row (04 R99; log 136). -/
def maskReads (x : Spindle) (p : Fin 136) : Mask → Nat → List (Nat × Nat)
  | .bits sb, i => [((x.rs sb).toNat - bobbinBase p + 16 * i, 16)]
  | _, _ => []

def maskRaise (x : Spindle) (p : Fin 136) : Mask → List Raise
  | .bits sb => bobbinRaise p (x.rs sb).toNat 2048 16 0x01
  | _ => []

def maskStall (s : State) (p : Fin 136) : Mask → List Stall
  | .bits sb => readStall s p (((s.sp p).rs sb).toNat - bobbinBase p) 2048
  | _ => []

/-- A scaled element; `none` when the position is masked (04 R99). An element that CAUSAL or BITS masks sets no flag of
its scaling: the spec is silent (DESIGN CHOICE, log 135). -/
def scaledElem (masked : Bool) (c x : Lane) : Option Lane × Flags :=
  if masked then (none, noFlags) else
  let (y, g) := mul32 x c
  let e := f32 y
  if !e.isNan && !(f32 floor32).lt e then (none, g) else (some y, g)

/-- The scaled row: `n` positions in ascending column order. -/
def scaledRow (mask : Nat → Bool) (c : Lane) (row : VReg) (n : Nat) : List (Option Lane × Flags) :=
  (List.range n).map fun j => scaledElem (mask j) c (row.toList.getD j 0)

/-! ## Row-state file -/

/-- The row-state file as the queued instructions will leave it. -/
def Spindle.rows (x : Spindle) : Vector RowEntry 128 :=
  match x.rq.reverse.findSome? (fun q => q.wrs.findSome? fun w => match w with
    | .rowFile f => some f
    | _ => none) with
  | some f => f
  | none => x.rowFile

def RowEntry.isStat : RowEntry → Bool
  | .stat .. => true
  | _ => false

/-- FORMAT 0x07 when an entry fails a mode test (04 R112). -/
def modeRaise (f : Vector RowEntry 128) (bad : RowEntry → Bool) : List Raise :=
  raiseIf (f.toList.any bad) .format 0x07

/-- *m* and *s* of an entry; one not in SMAX is in the floor state (04 R100). -/
def smaxOf : RowEntry → Lane × Lane
  | .smax m s _ => (m, s)
  | _ => (floor32, 0)

/-- One row of `smax.p1` (04 R100). -/
def smaxRow (e : RowEntry) (init : Bool) (xs : List (Option Lane × Flags)) : RowEntry × Flags :=
  let (m, s) := if init then (floor32, 0) else smaxOf e
  let live := xs.filterMap (·.1)
  let mNew := live.foldl maxNan m
  let (d, g0) := sub32 m mNew
  let (f, g1) := fnExp2 d
  let (t, g2) := live.foldl (fun (a : Lane × Flags) y =>
    let (d, h0) := sub32 y mNew
    let (p, h1) := fnExp2 d
    let (t, h2) := add32 a.1 p
    (t, Flags.or a.2 (Flags.or h0 (Flags.or h1 h2)))) (0, noFlags)
  let (s', g3) := fma32 s f t
  (.smax mNew s' f, Flags.or (orFlags (xs.map (·.2))) (Flags.or g0 (Flags.or g1 (Flags.or g2 g3))))

/-- One row of `smax.p2` over `n` columns of its destination row (04 R101). Where *m* is +∞ every unmasked position is
NaN and sets NV (04 R115); a masked one is +0 (04 R99). -/
def probRow (e : RowEntry) (raw : Bool) (xs : List (Option Lane × Flags)) (old : VReg) : Vector (Lane × Flags) 128 :=
  let (m, s) := smaxOf e
  vecOf 128 fun j =>
    match xs[j.val]? with
    | none => (old.get j, noFlags)
    | some (y, g) =>
      if (f32 s).isZero then (0, flagMK) else
      match y with
      | none => (0, g)
      | some y =>
        if m == inf32 false then (nan32, flagNV) else
        let (d, h0) := sub32 y m
        let (p, h1) := fnExp2 d
        let (o, h2) := if raw then (p, noFlags) else mul32 p (recipIn s)
        (o, Flags.or g (Flags.or h0 (Flags.or h1 h2)))

/-! ## Statistics (04 R105 to R109) -/

/-- One element into a statistics entry (04 R105). A further element opens a new run: the mean that an `rstat.p2` fixed
and its sum of squared deviations are cleared (DESIGN CHOICE, log 135). -/
def statAdd (e : RowEntry) (l : Lane) : RowEntry × Flags :=
  match e with
  | .stat mx mn n sum sq _ _ na pi ni =>
    let x := f32 l
    -- a NaN element leaves max and min as they are: the spec is silent (log 135)
    let mx' := BitVec.ofNat 32 (pickCode .fp32 true 0x7FC00000 mx.toNat l.toNat)
    let mn' := BitVec.ofNat 32 (pickCode .fp32 false 0x7FC00000 mn.toNat l.toNat)
    let full := decide (2 ^ 24 ≤ n.toNat)
    let n' := if full then n else n + 1
    let fl := flagOF.when full
    match x with
    | .nan => (.stat mx' mn' n' sum sq none {} true pi ni, fl)
    | .inf neg => (.stat mx' mn' n' sum sq none {} na (pi || !neg) (ni || neg), fl)
    | _ => (.stat mx' mn' n' (widePlus sum x) (widePlus sq (x.mul x)) none {} na pi ni, fl)
  | e => (e, noFlags)

/-- A row of `rstat.p1`. -/
def statRow (e : RowEntry) (init : Bool) (xs : List Lane) : RowEntry × Flags :=
  let e0 := if init then RowEntry.stat nan32 nan32 0 {} {} none {} false false false else e
  xs.foldl (fun (a : RowEntry × Flags) l =>
    let (e, g) := statAdd a.1 l
    (e, Flags.or a.2 g)) (e0, noFlags)

/-- Whether every element of the row is one value (04 R106). Zeros of either sign count as one value (DESIGN CHOICE,
log 135). -/
def flatRow (mx mn : Lane) (na : Bool) : Bool := !na && (f32 mx).same (f32 mn)

/-- The mean of a row (04 R106, R107, R109). -/
def meanOf (mx mn : Lane) (n : BitVec 32) (sum : Wide) (na pi ni : Bool) : Lane × Flags :=
  if na then (nan32, noFlags)
  else if flatRow mx mn na then (mx, noFlags)
  else if pi && ni then (nan32, flagNV)
  else if pi then (inf32 false, noFlags)
  else if ni then (inf32 true, noFlags)
  else rne32 ((wideVal sum).divNat n.toNat)

/-- A row of `rstat.p2` (04 R107). -/
def devRow (e : RowEntry) (xs : List Lane) : RowEntry × Flags :=
  match e with
  | .stat mx mn n sum sq mean dev na pi ni =>
    let (mu, g) := match mean with
      | some mu => (mu, noFlags)
      | none => meanOf mx mn n sum na pi ni
    let nv := flagNV.when ((pi || ni) && !na && !flatRow mx mn na)
    if na || pi || ni || flatRow mx mn na then
      (.stat mx mn n sum sq (some mu) dev na pi ni, Flags.or g nv)
    else
      let dev' := xs.foldl (fun (d : Wide) l =>
        let x := (f32 l).add (f32 mu).neg
        widePlus d (x.mul x)) dev
      (.stat mx mn n sum sq (some mu) dev' na pi ni, g)
  | e => (e, noFlags)

/-- The variance of a row before any rounding (04 R106, R107, R109). -/
def varOf : RowEntry → Ext
  | .stat mx mn n _ _ _ dev na pi ni =>
    if na then .nan else if flatRow mx mn na then .zero else if pi || ni then .nan else (wideVal dev).divNat n.toNat
  | _ => .nan

/-- The mean square of a row before any rounding. -/
def msqOf : RowEntry → Ext
  | .stat _ _ n _ sq _ _ na pi ni =>
    if na then .nan else if pi || ni then .inf false else (wideVal sq).divNat n.toNat
  | _ => .nan

/-- One quantity of an entry (04 R108). -/
def statGet (q : Stat) (e : RowEntry) : Lane × Flags :=
  match e with
  | .stat mx mn n sum _ mean _ na pi ni =>
    match q with
    | .mean => (mean.getD (meanOf mx mn n sum na pi ni).1, noFlags)
    | .var => rne32 (varOf e)
    | .rstd => if na then (nan32, noFlags) else (Config.rstdOf e, noFlags)
    | .msq => rne32 (msqOf e)
    | .max => (mx, noFlags)
    | .min => (mn, noFlags)
  | _ => (nan32, noFlags)

/-- One position of `rnorm.ln` (04 R106, R108, R109). A row whose variance an infinity has made NaN sets NV here too (DESIGN
CHOICE, log 167). -/
def normLn (e : RowEntry) (eps x : Lane) : Lane × Flags :=
  match e with
  | .stat mx mn _ _ _ mean _ na pi ni =>
    if na then (nan32, noFlags)
    else if flatRow mx mn na then (0, noFlags)
    else if pi || ni then (nan32, flagNV)
    else match mean with
      | none => (Config.normOf e x, noFlags)
      | some mu =>
        let d := (f32 x).add (f32 mu).neg
        if d.isZero then (0, noFlags) else
        let (r, g) := rstdIn (toWide ((toWide (varOf e)).add (f32 eps)))
        let (y, g') := rneOf (d.mul (f32 r)) [d, f32 r]
        (y, Flags.or g g')
  | _ => (nan32, noFlags)

/-- One position of `rnorm.rms` (04 R108, R109). -/
def normRms (e : RowEntry) (eps x : Lane) : Lane × Flags :=
  match e with
  | .stat _ _ _ _ _ _ _ na _ _ =>
    if na then (nan32, noFlags) else
    let (r, g) := rstdIn (toWide ((toWide (msqOf e)).add (f32 eps)))
    let (y, g') := mul32 x r
    (y, Flags.or g g')
  | _ => (nan32, noFlags)

/-! ## Issue (04 R111) -/

/-- Cycle at which a unit's queue starts its next instruction. -/
def queueStart (clk : Nat) (qs : List Pend) : Nat := qs.foldl (fun a q => max a q.busy) clk

/-- A queue of two entries; an entry is held until its busy time ends (log 17). -/
def queueStall (clk : Nat) (qs : List Pend) : List Stall :=
  if 2 ≤ (qs.filter fun q => clk < q.busy).length then [.unitQ] else []

/-- A pending result of the row unit. `reads` names the bobbin ranges read in each of its busy cycles. -/
def rowPend (x : Spindle) (busy lat : Nat) (wrs : List Wr) (fl : Flags) (reads : Nat → List (Nat × Nat)) : Pend :=
  let st := queueStart x.clk x.rq
  { at_ := x.clk, busy := st + busy, due := st + lat
    reads := (List.range busy).flatMap fun i => (reads i).map fun r => (r.1, r.2, st + i)
    wrs, flags := fl }

/-- A row-unit instruction. -/
def effRow (h : Hdr) (opc busy lat : Nat) (dests : List Dest) (exc : List Raise) (stall : List Stall)
    (wrs : List Wr) (fl : Flags) (s : State) (reads : Nat → List (Nat × Nat) := fun _ => []) : Eff :=
  let x := s.sp h.sp
  { mkEff h .v 4 opc s with
    dests, exc, stall := stall ++ queueStall x.clk x.rq
    acts := [.row (rowPend x busy lat wrs fl reads)] }

/-- Results of the other units into a v register come first. -/
def Spindle.wawRow (x : Spindle) (vd : Fin 32) : List Stall :=
  if (x.vpend ++ x.qq).any fun q => q.wrs.any (Wr.isV vd) then [.operands] else []

/-- FORMAT 0x03 of an INT-tagged source (07 R185). -/
def fpRaise (x : Spindle) (cs : List (Fin 4)) : List Raise :=
  raiseIf (cs.any fun c => (x.tile.get c).tag == .int) .format 0x03

/-- The first `n` columns of a tile row. -/
def tileCols (t : Tile) (i : Fin 128) (n : Nat) : List Lane := (t.rows.get i).toList.take n

/-- `smax.p1` (04 R100). An entry in STAT mode raises FORMAT, with `init` too (04 R112; log 83). -/
def effSmaxP1 (h : Hdr) (c : Fin 4) (n : Num7) (sc : Fin 32) (mask : Mask) (init : Bool) (s : State) : Eff :=
  let x := s.sp h.sp
  let k := count7 x n
  let f := x.rows
  let cc := (x.rs sc).setWidth 32
  let out := vecOf 128 fun i =>
    smaxRow (f.get i) init (scaledRow (maskTest x h.sp mask i.val) cc ((x.tile.get c).rows.get i) k)
  effRow h 0x00 128 152 []
    (countRaise k ++ maskRaise x h.sp mask ++ fpRaise x [c] ++ modeRaise f RowEntry.isStat)
    (x.needS (sc :: num7Regs n ++ maskRegs mask) ++ x.needTile [c] ++ maskStall s h.sp mask)
    [.rowFile (vecOf 128 fun i => (out.get i).1)] (orFlags (out.toList.map (·.2))) s (maskReads x h.sp mask)

/-- `smax.p2` (04 R101); it can set NV, UF and MK (07 R185). -/
def effSmaxP2 (h : Hdr) (cd ct : Fin 4) (n : Num7) (sc : Fin 32) (mask : Mask) (raw : Bool) (s : State) : Eff :=
  let x := s.sp h.sp
  let k := count7 x n
  let f := x.rows
  let cc := (x.rs sc).setWidth 32
  let z := vecOf 128 fun i =>
    probRow (f.get i) raw (scaledRow (maskTest x h.sp mask i.val) cc ((x.tile.get ct).rows.get i) k)
      ((x.tile.get cd).rows.get i)
  let (t, fl) := tileOf .fp z
  effRow h 0x01 128 166 [.tile cd]
    (countRaise k ++ maskRaise x h.sp mask ++ fpRaise x [ct] ++ modeRaise f RowEntry.isStat)
    (x.needS (sc :: num7Regs n ++ maskRegs mask) ++ x.needTile [ct] ++ x.freeTile cd ++ maskStall s h.sp mask)
    [.tile cd t] { fl with ovf := false } s (maskReads x h.sp mask)

/-- `smax.fac` (04 R102). The factor of an entry that no `smax.p1` has set is not stated. -/
def effSmaxFac (h : Hdr) (vd : Fin 32) (s : State) : Eff :=
  let x := s.sp h.sp
  let f := x.rows
  let v : VReg := vecOf 128 fun i => match f.get i with
    | .smax _ _ g => g
    | _ => Config.emptyFactor
  effRow h 0x02 1 8 [.v vd] (modeRaise f RowEntry.isStat) (x.wawRow vd) [.v vd v] noFlags s

/-- `smax.lse` (04 R102). -/
def effSmaxLse (h : Hdr) (vd : Fin 32) (s : State) : Eff :=
  let x := s.sp h.sp
  let f := x.rows
  let out := vecOf 128 fun i =>
    let (m, t) := smaxOf (f.get i)
    if (f32 t).isZero then (inf32 true, flagMK) else add32 m (fnLog2 t).1
  effRow h 0x03 1 14 [.v vd] (modeRaise f RowEntry.isStat) (x.wawRow vd)
    [.v vd (lanesOf out)] (flagMK.when (vflags out).msk) s

/-- One row of `smax.merge` (04 R103): the new state and the two factors. The factor kept in an entry that no
`smax.p1` has set is open (log 83). -/
def mergeRow (e : RowEntry) (mb sb : Lane) : (RowEntry × Lane × Lane) × Flags :=
  let (ma, sa) := smaxOf e
  let m := maxNan ma mb
  let (da, g0) := sub32 ma m
  let (fa, g1) := fnExp2 da
  let (db, g2) := sub32 mb m
  let (fb, g3) := fnExp2 db
  let a := (f32 sa).mul (f32 fa)
  let b := (f32 sb).mul (f32 fb)
  let (t, g4) := rneOf (a.add b) [f32 sa, f32 fa, f32 sb, f32 fb]
  ((.smax m t (match e with
    | .smax _ _ f => f
    | _ => Config.factorOf mb sb), fa, fb), Flags.or g0 (Flags.or g1 (Flags.or g2 (Flags.or g3 g4))))

/-- `smax.merge` (04 R103). Where both operands name one register it keeps *f*_b, written last (DESIGN CHOICE, log
135). -/
def effSmaxMerge (h : Hdr) (va vb : Fin 32) (s : State) : Eff :=
  let x := s.sp h.sp
  let f := x.rows
  let out := vecOf 128 fun i => mergeRow (f.get i) ((x.v.get va).get i) ((x.v.get vb).get i)
  effRow h 0x04 1 16 [.v va, .v vb] (modeRaise f RowEntry.isStat)
    (x.needV [va, vb] ++ x.wawRow va ++ x.wawRow vb)
    [.rowFile (vecOf 128 fun i => (out.get i).1.1), .v va (vecOf 128 fun i => (out.get i).1.2.1),
     .v vb (vecOf 128 fun i => (out.get i).1.2.2)] (orFlags (out.toList.map (·.2))) s

/-- `rstat.p1` (04 R105). -/
def effRstatP1 (h : Hdr) (c : Fin 4) (n : Num7) (init : Bool) (s : State) : Eff :=
  let x := s.sp h.sp
  let k := count7 x n
  let f := x.rows
  let out := vecOf 128 fun i => statRow (f.get i) init (tileCols (x.tile.get c) i k)
  effRow h 0x08 128 152 []
    (countRaise k ++ fpRaise x [c] ++ (if init then [] else modeRaise f fun e => !RowEntry.isStat e))
    (x.needS (num7Regs n) ++ x.needTile [c])
    [.rowFile (vecOf 128 fun i => (out.get i).1)] (orFlags (out.toList.map (·.2))) s

/-- `rstat.p2` (04 R107); it can set NV alone (07 R185). -/
def effRstatP2 (h : Hdr) (c : Fin 4) (n : Num7) (s : State) : Eff :=
  let x := s.sp h.sp
  let k := count7 x n
  let f := x.rows
  let out := vecOf 128 fun i => devRow (f.get i) (tileCols (x.tile.get c) i k)
  effRow h 0x09 128 152 []
    (countRaise k ++ fpRaise x [c] ++ modeRaise f fun e => !RowEntry.isStat e)
    (x.needS (num7Regs n) ++ x.needTile [c])
    [.rowFile (vecOf 128 fun i => (out.get i).1)] (flagNV.when (orFlags (out.toList.map (·.2))).nv) s

/-- `rstat.get` (04 R108); it can set OF alone (07 R185). -/
def effRstatGet (h : Hdr) (vd : Fin 32) (q : Stat) (s : State) : Eff :=
  let x := s.sp h.sp
  let f := x.rows
  let out := vecOf 128 fun i => statGet q (f.get i)
  effRow h 0x0A 1 20 [.v vd] (modeRaise f fun e => !RowEntry.isStat e) (x.wawRow vd)
    [.v vd (lanesOf out)] (flagOF.when (vflags out).ovf) s

/-- The two normalisations (04 R108). -/
def effNorm (h : Hdr) (opc : Nat) (fn : RowEntry → Lane → Lane → Lane × Flags) (cd ct : Fin 4) (n : Num7)
    (se : Fin 32) (s : State) : Eff :=
  let x := s.sp h.sp
  let k := count7 x n
  let f := x.rows
  let eps := (x.rs se).setWidth 32
  let z := vecOf 128 fun i => vecOf 128 fun j =>
    if j.val < k then fn (f.get i) eps (((x.tile.get ct).rows.get i).get j)
    else (((x.tile.get cd).rows.get i).get j, noFlags)
  let (t, fl) := tileOf .fp z
  effRow h opc 128 166 [.tile cd] (countRaise k ++ fpRaise x [ct] ++ modeRaise f fun e => !RowEntry.isStat e)
    (x.needS (se :: num7Regs n) ++ x.needTile [ct] ++ x.freeTile cd) [.tile cd t] fl s

/-- `rnorm.ln` (04 R108). -/
def effRnormLn (h : Hdr) (cd ct : Fin 4) (n : Num7) (se : Fin 32) (s : State) : Eff :=
  effNorm h 0x0B normLn cd ct n se s
/-- `rnorm.rms` (04 R108). -/
def effRnormRms (h : Hdr) (cd ct : Fin 4) (n : Num7) (se : Fin 32) (s : State) : Eff :=
  effNorm h 0x0C normRms cd ct n se s

/-- The compensated sum of exact values in the wide format; a NaN or an infinity among them is their exact sum's. -/
def wideSum (ps : List Ext) : Ext :=
  if ps.any fun p => p.isNan || p.isInf then ps.foldl Ext.add .zero
  else wideVal (ps.foldl widePlus {})

/-- A row sum added to a lane with one rounding (04 R110). -/
def rowSum (lane : Lane) (as bs : List Ext) : Lane × Flags :=
  let ps := (as.zip bs).map fun ab => (ab.1.mul ab.2, madeNan (ab.1.mul ab.2) [ab.1, ab.2])
  let t := wideSum (ps.map (·.1))
  let r := if ps.all (fun p => p.1.isZero && p.1.isNeg) then (f32 lane).add (.fin true 0 0) else (f32 lane).add t
  let (y, g) := rne32 r
  (y, Flags.or g (Flags.or (orFlags (ps.map (·.2))) (madeNan r (f32 lane :: ps.map (·.1)))))

/-- `rdot` and `rsum` (04 R110). -/
def effRowSum (h : Hdr) (opc : Nat) (vd : Fin 32) (cs : List (Fin 4)) (ca : Fin 4) (other : Fin 128 → List Ext)
    (n : Num7) (s : State) : Eff :=
  let x := s.sp h.sp
  let k := count7 x n
  let out := vecOf 128 fun i =>
    rowSum ((x.v.get vd).get i) ((tileCols (x.tile.get ca) i k).map f32) (other i)
  effRow h opc 128 150 [.v vd] (countRaise k ++ fpRaise x cs)
    (x.needS (num7Regs n) ++ x.needTile cs ++ x.needV [vd] ++ x.wawRow vd) [.v vd (lanesOf out)] (vflags out) s

/-- `rdot` (04 R110). -/
def effRdot (h : Hdr) (vd : Fin 32) (ca cb : Fin 4) (n : Num7) (s : State) : Eff :=
  let x := s.sp h.sp
  effRowSum h 0x0D vd [ca, cb] ca (fun i => (tileCols (x.tile.get cb) i (count7 x n)).map f32) n s
/-- `rsum` (04 R110). -/
def effRsum (h : Hdr) (vd : Fin 32) (ca : Fin 4) (n : Num7) (s : State) : Eff :=
  effRowSum h 0x0E vd [ca] ca (fun _ => List.replicate 128 (.ofInt 1)) n s

/-- Offset of an s register's bobbin address. -/
def offOf (x : Spindle) (p : Fin 136) (ra : Fin 32) : Nat := (x.rs ra).toNat - bobbinBase p

/-! ## The image of the row-state file (04 R98, R114; log 11) -/

/-- The 59 bits of a wide number. -/
def wideBits (w : Wide) : BitVec 59 := BitVec.ofBool w.neg ++ w.hi ++ w.lo ++ w.exp

def wideAt (b : BitVec 512) (o : Nat) : Wide :=
  { neg := b.getLsbD (o + 58), hi := b.extractLsb' (o + 34) 24, lo := b.extractLsb' (o + 10) 24
    exp := b.extractLsb' o 10 }

/-- An entry as 512 bits, before the device's own layout. -/
def entryBits : RowEntry → BitVec 512
  | .empty => 0
  | .smax m s f => (1#512) ||| m.setWidth 512 <<< 32 ||| s.setWidth 512 <<< 64 ||| f.setWidth 512 <<< 96
  | .stat mx mn n sum sq mean dev na pi ni =>
    (2#512) ||| (BitVec.ofBool mean.isSome).setWidth 512 <<< 2 ||| (BitVec.ofBool na).setWidth 512 <<< 3 |||
    (BitVec.ofBool pi).setWidth 512 <<< 4 ||| (BitVec.ofBool ni).setWidth 512 <<< 5 |||
    mx.setWidth 512 <<< 32 ||| mn.setWidth 512 <<< 64 ||| n.setWidth 512 <<< 96 |||
    (mean.getD 0).setWidth 512 <<< 128 ||| (wideBits sum).setWidth 512 <<< 192 |||
    (wideBits sq).setWidth 512 <<< 256 ||| (wideBits dev).setWidth 512 <<< 320

/-- The entry that 512 bits hold. A mode field that no mode uses reads as EMPTY (log 11). -/
def entryOf (b : BitVec 512) : RowEntry :=
  let lane (o : Nat) : Lane := b.extractLsb' o 32
  match b.getLsbD 1, b.getLsbD 0 with
  | false, true => .smax (lane 32) (lane 64) (lane 96)
  | true, false =>
    .stat (lane 32) (lane 64) (lane 96) (wideAt b 192) (wideAt b 256)
      (if b.getLsbD 2 then some (lane 128) else none) (wideAt b 320) (b.getLsbD 3) (b.getLsbD 4) (b.getLsbD 5)
  | _, _ => .empty

/-- The 64 bytes of an entry. -/
def entryBytes (e : RowEntry) : List Byte :=
  (List.range 64).map fun i => (entryBits e).extractLsb' (8 * i) 8 ^^^ Config.rowMask i

/-- An entry from 64 bytes. -/
def entryFrom (bs : List Byte) : RowEntry :=
  entryOf ((List.range 64).foldl (fun (b : BitVec 512) i =>
    b ||| ((bs.getD i 0) ^^^ Config.rowMask i).setWidth 512 <<< (8 * i)) 0)

/-- The 8 KiB image of a row-state file, entry by entry. -/
def fileBytes (f : Vector RowEntry 128) : List Byte := f.toList.flatMap entryBytes

/-- The row-state file that 8 KiB stand for, not checked (04 R114). -/
def fileFrom (bs : List Byte) : Vector RowEntry 128 :=
  vecOf 128 fun i => entryFrom ((bs.drop (64 * i.val)).take 64)

/-- `rsave` (04 R114). -/
def effRsave (h : Hdr) (ra : Fin 32) (s : State) : Eff :=
  let x := s.sp h.sp
  let o := offOf x h.sp ra
  effRow h 0x0F 16 24 [] (bobbinRaise h.sp (x.rs ra).toNat 8192 16 0x01)
    (x.needS [ra] ++ writeStall s h.sp o 8192) [.mem o (fileBytes x.rows)] noFlags s

/-- `rload` (04 R114): the file is read as the instruction issues, and no later write of its bytes overtakes the
16 cycles of its reads (07 R175; log 136). -/
def effRload (h : Hdr) (ra : Fin 32) (s : State) : Eff :=
  let x := s.sp h.sp
  let o := offOf x h.sp ra
  effRow h 0x10 16 24 [] (bobbinRaise h.sp (x.rs ra).toNat 8192 16 0x01)
    (x.needS [ra] ++ readStall s h.sp o 8192)
    [.rowFile (fileFrom (cellsRead x.bobbin o 8192))] noFlags s
    (fun i => if i < 16 then [(o + 512 * i, 512)] else [])

/-- ROW_UNIT_COMPLETE: a row-unit instruction writes its result after its latency (04 R111, R112). -/
def doRowUnitComplete (p : Fin 136) (s : State) : State :=
  if s.mgmt.clockLost then s else
  let x := s.sp p
  match takeDue x.clk [] x.rq with
  | some (a, q, b) => s.setSp p { x.finish q with rq := a ++ b }
  | none => s

/-- The command ROW_UNIT_COMPLETE (04 R111). -/
def execRowUnitComplete (p : Fin 136) (s : State) : Res := .next (doRowUnitComplete p s)

end Sys2Proof.Machine
end

