-- ==== Sys2Proof/Machine/Quant.lean ====
section
/-!
DEFINITION. The quantiser (05 R116 to R134, 07 R186 to R188): exponent registers, quantisation,
dequantisation, exponents from data, the gradient of a quantisation, and the integer rescale.
-/

namespace Sys2Proof.Machine

/-! ## Issue -/

/-- A quantiser instruction: it runs in order from a queue of two (05 R131). `reads` are the bobbin
bytes it reads, as (offset, length, cycle after its start). -/
def effQuant (h : Hdr) (opc busy lat : Nat) (enc : Option Nat) (dests : List Dest) (exc : List Raise)
    (stall : List Stall) (reads : List (Nat × Nat × Nat)) (wrs : List Wr) (fl : Flags) (s : State) : Eff :=
  let x := s.sp h.sp
  let st := queueStart x.clk x.qq
  { mkEff h .v 4 opc s with
    enc, dests, exc, stall := stall ++ queueStall x.clk x.qq
    acts := [.quant { at_ := x.clk, busy := st + busy, due := st + lat
                      reads := reads.map fun r => (r.1, r.2.1, st + r.2.2), wrs, flags := fl }] }

/-- Results of the other units into a v register come first. -/
def Spindle.wawQuant (x : Spindle) (vd : Fin 32) : List Stall :=
  if (x.vpend ++ x.rq).any fun q => q.wrs.any (Wr.isV vd) then [.operands] else []

/-! ## Scale exponents (05 R116, R117) -/

/-- An exponent held in 8 bits; `none` is the NaN scale −128. -/
def expOf (b : Nat) : Option Int := if b % 256 = 128 then none else some (signedOf 8 (b % 256))

/-- An exponent from an E8M0 byte. -/
def expOfE8 (b : Nat) : Option Int := if b = 255 then none else some ((b : Int) - 127)

/-- `emov` (05 R117). -/
def effEmov (h : Hdr) (k : Fin 8) (ra : Fin 32) (s : State) : Eff :=
  let x := s.sp h.sp
  effQuant h 0x20 1 2 none [.e k] [] (x.needS [ra]) [] [.e k ((x.rs ra).setWidth 8)] noFlags s

/-- `emovs` (05 R117). -/
def effEmovs (h : Hdr) (rd : Fin 32) (k : Fin 8) (s : State) : Eff :=
  let x := s.sp h.sp
  effQuant h 0x21 1 2 none [.s rd] [] (x.needE [k]) [] [.s rd ((x.e.get k).signExtend 64)] noFlags s

/-- `eadd` (05 R117, 07 R188). -/
def effEadd (h : Hdr) (k j : Fin 8) (imm : BitVec 8) (s : State) : Eff :=
  let x := s.sp h.sp
  let (v, g) := match expOf (x.e.get j).toNat with
    | none => ((0x80 : Byte), noFlags)
    | some e =>
      let (y, sat) := clampTo (-127) 127 (e + imm.toInt)
      (BitVec.ofInt 8 y, flagOF.when sat)
  effQuant h 0x22 1 2 none [.e k] [] (x.needE [j]) [] [.e k v] g s

/-! ## Granularity (05 R120) -/

/-- The formats of R119's quantise row. -/
def quantFmt : Fmt → Bool
  | .e4m3 | .e5m2 | .e3m2 | .e2m3 | .e2m1 | .bf16 | .fp16 | .i8 | .u8 | .i4 => true
  | _ => false

/-- FORMAT of a narrow format and a granularity (05 R119, R120). -/
def quantRaise (f : Fmt) (blocks : Bool) : List Raise :=
  raiseIf (f != .rsv && !quantFmt f) .format 0x01 ++ raiseIf (blocks && !fmtScalable f) .format 0x02 ++
  raiseIf (f == .rsv) .format 0x05

def granBlocks : Gran → Bool
  | .blk => true
  | .blks _ => true
  | _ => false

/-- Exponent of element (`i`, `j`) from registers (05 R120). -/
def granExp (x : Spindle) (g : Gran) (i j : Fin 128) : Option Int :=
  match g with
  | .tensor k => expOf (x.e.get k).toNat
  | .col vb => expOf ((x.v.get vb).get j).toNat
  | .row vb => expOf ((x.v.get vb).get i).toNat
  | _ => some 0

/-- Stalls on the registers and the area a granularity names. -/
def granStall (s : State) (p : Fin 136) (g : Gran) : List Stall :=
  let x := s.sp p
  match g with
  | .tensor k => x.needE [k]
  | .col vb => x.needV [vb]
  | .row vb => x.needV [vb]
  | .blk => []
  | .blks sb => x.needS [sb] ++ readStall s p ((x.rs sb).toNat - bobbinBase p) 512

/-- Checks of the area of `blks` (05 R121). -/
def granRaise (x : Spindle) (p : Fin 136) (g : Gran) : List Raise :=
  match g with
  | .blks sb => bobbinRaise p (x.rs sb).toNat 512 16 0x01
  | _ => []

/-- The 512 scale bytes of a `blks` area. -/
def granArea (x : Spindle) (p : Fin 136) (g : Gran) : List Byte :=
  match g with
  | .blks sb => cellsRead x.bobbin ((x.rs sb).toNat - bobbinBase p) 512
  | _ => []

/-- Bobbin reads of the area. -/
def granReads (x : Spindle) (p : Fin 136) (g : Gran) : List (Nat × Nat × Nat) :=
  match g with
  | .blks sb => [((x.rs sb).toNat - bobbinBase p, 512, 0)]
  | _ => []

/-! ## Quantisation (05 R118, R121, R123) -/

/-- One element quantised with an exponent. -/
def quantElem (f : Fmt) (satInf : Bool) (rm : RM) (r : Nat) (e : Option Int) (x : Lane) : Nat × Flags :=
  match e with
  | none => (0, flagNV)
  | some k => encode f satInf rm r ((f32 x).scale (-k))

/-- A row of 128 lanes quantised: codes, the row's four scale codes and the flags. -/
def quantRow (f : Fmt) (satInf : Bool) (rm : RM) (rnd : Nat → Nat) (g : Gran) (area : List Byte)
    (exps : Fin 128 → Option Int) (i : Nat) (row : VReg) : List Nat × List Nat × Flags :=
  let ls := row.toList
  let scales := (List.range 4).map fun b => match g with
    | .blk => blockScale f (((ls.drop (32 * b)).take 32).map f32)
    | _ => ((area.getD (4 * i + b) 0).toNat, noFlags)
  let cells := (List.finRange 128).map fun j =>
    let e := if (granBlocks g) then expOfE8 (scales.getD (j.val / 32) (0, noFlags)).1 else exps j
    quantElem f satInf rm (rnd j.val) e (row.get j)
  (cells.map (·.1), scales.map (·.1),
   Flags.or (orFlags (scales.map (·.2))) (orFlags (cells.map (·.2))))

/-- `qnt` (05 R121). -/
def effQnt (h : Hdr) (ra vs : Fin 32) (fmt : Fmt) (rm : RM) (satInf : Bool) (g : Gran) (ix : Fin 32)
    (s : State) : Eff :=
  let x := s.sp h.sp
  let n := 16 * fmtWidth fmt
  let o := offOf x h.sp ra
  let r := quantRow fmt satInf rm (x.rnd (x.rs ix)) g [] (fun j => granExp x g 0 j) 0 (x.v.get vs)
  effQuant h 0x28 1 6 (indexEnc rm ix) []
    (bobbinRaise h.sp (x.rs ra).toNat n 16 0x01 ++
      raiseIf (fmt != .rsv && !quantFmt fmt) .format 0x01 ++ raiseIf (granBlocks g) .format 0x02 ++
      raiseIf (fmt == .rsv) .format 0x05 ++ raiseIf (rm == .rha) .format 0x06)
    (x.needS [ra, ix] ++ x.needV [vs] ++ (if (granBlocks g) then [] else granStall s h.sp g) ++
      writeStall s h.sp o n) []
    [.mem o (packBytes (fmtWidth fmt) r.1)] r.2.2 s

/-- Writes of rows 0 to `n - 1` of a hank image with their scale bytes where scaled (05 R121). -/
def imageWrites (o : Nat) (f : Fmt) (scaled : Bool) (rows : List (List Nat × List Nat)) : List Wr :=
  .mem o (rows.flatMap fun r => packBytes (fmtWidth f) r.1) ::
    (if scaled then [.mem (o + hankBytes f) (rows.flatMap fun r => r.2.map (BitVec.ofNat 8 ·))] else [])

/-- Ranges of the first `n` rows of a hank image with its scale bytes where scaled, as (offset, length). -/
def imageRanges (o : Nat) (f : Fmt) (scaled : Bool) (n : Nat) : List (Nat × Nat) :=
  (o, n * hankPitch f) :: (if scaled then [(o + hankBytes f, 512)] else [])

/-- ILLEGAL 0x06 and ALIGN of a hank image (05 R121, 07 R187); a code 0xF counts as 8 bits wide (log 138). -/
def imageRaise (x : Spindle) (p : Fin 136) (ra : Fin 32) (f : Fmt) (scaled : Bool) (n : Nat) : List Raise :=
  (if bobbinBase p ≤ (x.rs ra).toNat then rangesRaise (imageRanges (offOf x p ra) f scaled n)
   else [{ exc := .illegal, detail := 0x06 }]) ++
  raiseIf ((x.rs ra).toNat % 16 != 0) .align 0x01

/-- `qntt` (05 R121). -/
def effQntt (h : Hdr) (ra : Fin 32) (ct : Fin 4) (n : Num7) (fmt : Fmt) (rm : RM) (satInf : Bool)
    (g : Gran) (ix : Fin 32) (s : State) : Eff :=
  let x := s.sp h.sp
  let k := count7 x n
  let o := offOf x h.sp ra
  let area := granArea x h.sp g
  let rows := ((List.finRange 128).take k).map fun i =>
    quantRow fmt satInf rm (fun j => x.rnd (x.rs ix) (128 * i.val + j)) g area (granExp x g i) i.val
      ((x.tile.get ct).rows.get i)
  effQuant h 0x29 128 140 (indexEnc rm ix) []
    (countRaise k ++ imageRaise x h.sp ra fmt (granBlocks g) k ++ granRaise x h.sp g ++
      raiseIf (fmt != .rsv && !quantFmt fmt) .format 0x01 ++ raiseIf (granBlocks g && !fmtScalable fmt) .format 0x02 ++
      fpRaise x [ct] ++ raiseIf (fmt == .rsv) .format 0x05 ++ raiseIf (rm == .rha) .format 0x06)
    (x.needS (ra :: ix :: num7Regs n) ++ x.needTile [ct] ++ granStall s h.sp g ++
      (imageRanges o fmt (granBlocks g) k).flatMap fun r => writeStall s h.sp r.1 r.2)
    (granReads x h.sp g)
    (imageWrites o fmt (granBlocks g) (rows.map fun r => (r.1, r.2.1))) (orFlags (rows.map fun r => r.2.2)) s

/-! ## Exponents from data (05 R122) -/

/-- The exponent of a group with its flags: 0 for zeros, −128 with NV for a NaN or an infinity. -/
def groupByte (f : Fmt) (xs : List Ext) : Byte × Flags :=
  let (a, bad) := largest xs
  if bad then (0x80, flagNV)
  else match groupExp f a with
    | none => (0, noFlags)
    | some (k, c) => (BitVec.ofInt 8 k, flagOF.when c)

/-- An exponent in a v register lane (05 R117). -/
def expLane (b : Byte) : Lane := b.signExtend 32

def qdstBlocks : QDst → Bool
  | .blk => true
  | .blks => true
  | _ => false

/-- The formats of `qexp` (07 R187). -/
def expFmt (f : Fmt) : Bool := quantFmt f && f != .bf16 && f != .fp16

/-- `qexp` (05 R122). An INT-tagged tile is refused as at `qntt`. -/
def effQexp (h : Hdr) (dst : QDst) (ct : Fin 4) (n : Num7) (fmt : Fmt) (s : State) : Eff :=
  let x := s.sp h.sp
  let k := count7 x n
  let t := x.tile.get ct
  let rows : List (List Ext) := (List.range k).map fun i => ((t.rows.toList.getD i (rep 128 0)).toList).map f32
  let exc := countRaise k ++ raiseIf (!expFmt fmt) .format 0x01 ++
    raiseIf (qdstBlocks dst) .format 0x02 ++ fpRaise x [ct]
  let need := x.needS (num7Regs n) ++ x.needTile [ct]
  match dst with
  | .tensor e =>
    let r := groupByte fmt rows.flatten
    effQuant h 0x2A 128 140 none [.e e] exc need [] [.e e r.1] r.2 s
  | .col vd =>
    let out : Vector (Byte × Flags) 128 := vecOf 128 fun j => groupByte fmt (rows.map fun r => r.getD j.val .zero)
    effQuant h 0x2A 128 140 none [.v vd] exc (need ++ x.wawQuant vd) []
      [.v vd (vecOf 128 fun j => expLane (out.get j).1)] (orFlags (out.toList.map (·.2))) s
  | .row vd =>
    let out : Vector (Byte × Flags) 128 := vecOf 128 fun i => groupByte fmt (rows.getD i.val [])
    effQuant h 0x2A 128 140 none [.v vd] exc (need ++ x.needV [vd] ++ x.wawQuant vd) []
      [.v vd (vecOf 128 fun i => if i.val < k then expLane (out.get i).1 else (x.v.get vd).get i)]
      (orFlags (out.toList.map (·.2))) s
  | _ => effQuant h 0x2A 128 140 none [] exc need [] [] noFlags s

/-! ## Dequantisation (05 R118, R123, R124) -/

/-- One element dequantised. -/
def dequantElem (f : Fmt) (e : Option Int) (c : Nat) : Lane × Flags :=
  match e with
  | none => (nan32, flagNV)
  | some k => rne32 ((decode f c).scale k)

/-- `dqnt` (05 R124). -/
def effDqnt (h : Hdr) (ct : Fin 4) (ra : Fin 32) (n : Num7) (fmt : Fmt) (g : Gran) (s : State) : Eff :=
  let x := s.sp h.sp
  let k := count7 x n
  let o := offOf x h.sp ra
  let image := g == .blk
  let area := if image then cellsRead x.bobbin (o + hankBytes fmt) 512 else granArea x h.sp g
  let z := vecOf 128 fun i =>
    if i.val < k then
      let cs := elems (fmtWidth fmt) 128 (cellsRead x.bobbin (o + i.val * hankPitch fmt) (hankPitch fmt))
      vecOf 128 fun j =>
        let e := if (granBlocks g) then expOfE8 (area.getD (4 * i.val + j.val / 32) 0).toNat else granExp x g i j
        dequantElem fmt e (cs.getD j.val 0)
    else rep 128 (0, noFlags)
  let (t, fl) := tileOf .fp z
  effQuant h 0x2B 128 136 none [.tile ct]
    (countRaise k ++ imageRaise x h.sp ra fmt image k ++ granRaise x h.sp g ++ quantRaise fmt (granBlocks g))
    (x.needS (ra :: num7Regs n) ++ granStall s h.sp g ++ x.freeTile ct ++
      (imageRanges o fmt image k).flatMap fun r => readStall s h.sp r.1 r.2)
    (((List.range k).map fun i => (o + i * hankPitch fmt, hankPitch fmt, i)) ++
      (if image then [(o + hankBytes fmt, 512, 0)] else granReads x h.sp g))
    [.tile ct t] fl s

/-! ## The gradient of a quantisation (05 R126, R127) -/

/-- ln 2 held to 64 bits. -/
def ln2 : Ext := .fin false 0xB17217F7D1CF79AC (-64)

/-- One element: the gradient passed to the input, the term of the exponent's gradient (`none` under a
NaN scale, whose gradient the spec does not state), and the flags: those of the quantise, and NV for a NaN the term
creates (02 R48, R61; log 137). A NaN element counts as unsaturated, and a finite one that overflows to infinity as
saturated (DESIGN CHOICE, log 135). -/
def gradElem (f : Fmt) (satInf : Bool) (rm : RM) (r : Nat) (e : Option Int) (x g : Lane) : Lane × Option Ext × Flags :=
  match e with
  | none => (g, if (f32 x).isNan || (f32 g).isNan then some .nan else none, noFlags)
  | some k =>
    let u := (f32 x).scale (-k)
    let (c, fl) := encode f satInf rm r u
    let q := decode f c
    let sat := u.isInf || fl.ovf
    let d := if sat then q else q.add u.neg
    let term := if (f32 x).isNan || (f32 g).isNan then .nan else (f32 g).mul d
    (if sat then 0 else g, some (term.scale k),
     { ovf := fl.ovf, uf := fl.uf, nv := (madeNan term [f32 x, f32 g]).nv })

/-- The gradient of a group added to its lane: the canonical NaN where a term is NaN, and else a free value of the operands
where a term is not stated (log 137). A NaN that the sum creates sets NV. The sum is exact, without the 48 bits of the wide format,
and starts from +0, so that terms and a lane that are all -0 give +0 (DESIGN CHOICE, log 167). -/
def gradLane (lane : Lane) (ts : List (Option Ext)) : Lane × Flags :=
  if ts.any (·.isNone) && !ts.any (fun t => t.any Ext.isNan) then (Config.gradOf lane ts, noFlags) else
  let xs := ts.filterMap id
  let t := (xs.foldl Ext.add .zero).mul ln2
  let r := (f32 lane).add t
  let (y, g) := rne32 r
  (y, { ovf := g.ovf, uf := g.uf, nv := (madeNan r (f32 lane :: xs)).nv })

/-- `qgrad` (05 R126). -/
def effQgrad (h : Hdr) (cd cx cg : Fin 4) (n : Num7) (va : Fin 32) (fmt : Fmt) (rm : RM) (satInf : Bool)
    (g : Gran) (ix : Fin 32) (s : State) : Eff :=
  let x := s.sp h.sp
  let k := count7 x n
  let z : Vector (Vector (Lane × Option Ext × Flags) 128) 128 := vecOf 128 fun i => vecOf 128 fun j =>
    gradElem fmt satInf rm (x.rnd (x.rs ix) (128 * i.val + j.val)) (granExp x g i j)
      (((x.tile.get cx).rows.get i).get j) (((x.tile.get cg).rows.get i).get j)
  let live := (List.finRange 128).take k
  let term (i j : Fin 128) : Option Ext := ((z.get i).get j).2.1
  let old := x.v.get va
  let out : Vector (Lane × Flags) 128 := vecOf 128 fun l => match g with
    | .tensor _ =>
      if l = 0 then gradLane (old.get l) (live.flatMap fun i => (List.finRange 128).map fun j => term i j)
      else (old.get l, noFlags)
    | .col _ => gradLane (old.get l) (live.map fun i => term i l)
    | .row _ =>
      if l.val < k then gradLane (old.get l) ((List.finRange 128).map fun j => term l j)
      else (old.get l, noFlags)
    | _ => (old.get l, noFlags)
  let t : Tile := { tag := .fp, rows := vecOf 128 fun i =>
    if i.val < k then vecOf 128 fun j => ((z.get i).get j).1 else (x.tile.get cd).rows.get i }
  let fl := Flags.or (vflags out)
    (orFlags (live.flatMap fun i => (List.finRange 128).map fun j => ((z.get i).get j).2.2))
  effQuant h 0x2C 128 156 (indexEnc rm ix) [.tile cd, .v va]
    (countRaise k ++ raiseIf (fmt != .rsv && !quantFmt fmt) .format 0x01 ++ raiseIf (granBlocks g) .format 0x02 ++
      fpRaise x [cx, cg] ++ raiseIf (fmt == .rsv) .format 0x05 ++ raiseIf (rm == .rha) .format 0x06)
    (x.needS (ix :: num7Regs n) ++ x.needTile [cx, cg] ++ x.freeTile cd ++ x.needV [va] ++ x.wawQuant va ++
      (if (granBlocks g) then [] else granStall s h.sp g)) []
    [.tile cd t, .v va (lanesOf out)] fl s

/-! ## Integer rescale (05 R129, R130) -/

/-- The rounded quotient of `p` by 2^`sh`: half away from zero under RHA, to even under RNE. -/
def shiftRound (rha : Bool) (p : Int) (sh : Nat) : Int :=
  if sh = 0 then p
  else if rha then
    (if 0 ≤ p then (p + 2 ^ (sh - 1)) / 2 ^ sh else -((-p + 2 ^ (sh - 1)) / 2 ^ sh))
  else
    let q := p / 2 ^ sh
    let rem := p - q * 2 ^ sh
    if 2 ^ (sh - 1) < rem ∨ (rem = 2 ^ (sh - 1) ∧ q % 2 = 1) then q + 1 else q

/-- One element rescaled: its code and whether it saturated. -/
def rescale (f : Fmt) (rha : Bool) (acc mult sh : Lane) : Nat × Flags :=
  let p := acc.toInt * mult.toInt
  let r := shiftRound rha p (sh.toNat % 64) + signedOf 16 (sh.toNat / 2 ^ 16)
  let (y, sat) := clampTo (intRange f).1 (intRange f).2 r
  (natOf (y % 2 ^ fmtWidth f), flagOF.when sat)

def gtagBlocks : GTag → Bool
  | .blk => true
  | .blks => true
  | _ => false

/-- FORMAT 0x03 of an FP-tagged source (05 R119). -/
def intRaise (x : Spindle) (c : Fin 4) : List Raise := raiseIf ((x.tile.get c).tag == .fp) .format 0x03

/-- `rsc` (05 R129). -/
def effRsc (h : Hdr) (ra : Fin 32) (ct : Fin 4) (n : Num7) (fmt : Fmt) (rm : RM) (g : GTag)
    (vm vs : Fin 32) (s : State) : Eff :=
  let x := s.sp h.sp
  let k := count7 x n
  let o := offOf x h.sp ra
  let fmtOk := fmt == .i8 || fmt == .u8 || fmt == .i4
  let rows := ((List.finRange 128).take k).map fun i =>
    (List.finRange 128).map fun j =>
      let l : Fin 128 := match g with
        | .col => j
        | .row => i
        | _ => 0
      rescale fmt (rm == .rha) (((x.tile.get ct).rows.get i).get j) ((x.v.get vm).get l) ((x.v.get vs).get l)
  effQuant h 0x2D 128 140 none []
    (countRaise k ++ imageRaise x h.sp ra fmt false k ++
      raiseIf (fmt != .rsv && !fmtOk) .format 0x01 ++ raiseIf (gtagBlocks g) .format 0x02 ++ intRaise x ct ++
      raiseIf (fmt == .rsv) .format 0x05 ++ raiseIf (rm == .rtz || rm == .sr) .format 0x06)
    (x.needS (ra :: num7Regs n) ++ x.needTile [ct] ++ x.needV [vm, vs] ++
      (imageRanges o fmt false k).flatMap fun r => writeStall s h.sp r.1 r.2) []
    (imageWrites o fmt false (rows.map fun r => (r.map (·.1), []))) (orFlags (rows.flatten.map (·.2))) s

/-! ## The end of a quantiser instruction -/

/-- QUANTISER_COMPLETE: a quantiser instruction writes its result after its latency (05 R131, R132). -/
def doQuantiserComplete (p : Fin 136) (s : State) : State :=
  if s.mgmt.clockLost then s else
  let x := s.sp p
  match takeDue x.clk [] x.qq with
  | some (a, q, b) => s.setSp p { x.finish q with qq := a ++ b }
  | none => s

/-- The command QUANTISER_COMPLETE (05 R131). -/
def execQuantiserComplete (p : Fin 136) (s : State) : Res := .next (doQuantiserComplete p s)

end Sys2Proof.Machine
end

