-- ==== Sys2Proof/Machine/Flyer.lean ====
section
/-!
DEFINITION. Flyer and sync classes (06 R148, R149, R156 to R158; 07 R189 to R193): the checks of a
move at issue, its range interlocks and its place in the skein's flyer queue; tokens, fences and
completion counts.
-/

namespace Sys2Proof.Machine

/-! ## The move of a flyer instruction -/

/-- What a resolved range contributes: its pieces. -/
def Reach.segs : Reach → List Seg
  | .ok gs => gs
  | _ => []

/-- The exception of a range that a flyer instruction cannot reach (06 R161, 08 R197, 11 R291, R302).
`side`: 0 source, 1 destination. -/
def Reach.raises (r : Reach) (pm : Perm) (side : Nat) : List Raise :=
  match r with
  | .ok _ => []
  | .access => [{ exc := .illegal, detail := 0x06 }]
  | .fault f => [{ exc := .page, detail := 1 + side + 2 * f.why, tf := some f, acc := pm.acc, side }]

/-- Parameter register `sp + i` of a flyer instruction; 0 when `SP` = 0 (06 R148). -/
def flParam (x : Spindle) (sp : Fin 32) (i : Fin 32) : Word := if sp = 0 then 0 else x.rs (sp + i)

/-- ILLEGAL 0x02 of the word (06 R148): `SP` 30 or 31, and SHADOW without parameters. -/
def flEnc (f : Fl) : Option Nat :=
  if 30 ≤ f.sp.val ∨ (f.path = .shadow ∧ f.sp = 0) then some 0x02 else none

/-- The move a flyer instruction names, before its translations. -/
def flMove (x : Spindle) (p : Fin 136) (op : MoveOp) (f : Fl) : Move :=
  { origin := .instr p f.t
    queue := match x.share with
      | some sh => sh.queue
      | none => 0
    op, src := if op = .fill then 0 else (x.rs f.ss).toNat, dst := (x.rs f.sd).toNat
    shadow := (flParam x f.sp 2).toNat, srcSegs := [], dstSegs := [], shSegs := []
    fillv := (x.rs f.ss).setWidth 32, shape := x.rs f.sn, fs := f.fs, fd := f.fd, tr := f.tr, rm := f.rm
    satInf := f.satInf, hint := f.hint, path := f.path, scs := f.scs, scd := f.scd, seed := x.seed
    step := x.step, ix := flParam x f.sp 0, deadline := (flParam x f.sp 1).toNat % 2 ^ 32 }

/-- The source side of a move. -/
def Move.srcSide (m : Move) : Side := (shapeOf m.shape).srcSide m.src m.srcSegs m.fs m.scs

/-- The shadow side of a move. -/
def Move.shSide (m : Move) : Side := (shapeOf m.shape).shadowSide m.shadow m.shSegs

/-- Permission on the destination of an operation. -/
def MoveOp.dstPerm : MoveOp → Perm
  | .add => .add
  | _ => .write

/-- Whether the pitches of a move fit its layouts (08 R206). -/
def Move.pitchOk (m : Move) : Bool := m.dest.pitchOk && (m.op == .fill || m.srcSide.pitchOk)

/-- Whether every base address is 16-byte aligned (08 R206). -/
def Move.basesOk (m : Move) : Bool :=
  m.dst % 16 == 0 && (m.op == .fill || m.src % 16 == 0) && (m.path != .shadow || m.shadow % 16 == 0)

/-- FORMAT of the formats, scales and rounding mode of a move (02 R49, R55; 07 R190, R191; 08 R204). Under SHADOW the
conversion of the shadow's E2M1 is one of the move's (08 R214); `RM` is held to the move's own pair alone (log 135). With
code 0xF the sub-code is 0x05, unless the destination of an `fadd` is none of its three (log 81). -/
def Move.formatOf (m : Move) : Option Nat :=
  let rsv := m.fs == .rsv || m.fd == .rsv
  let sh := shapeOf m.shape
  match m.op with
  | .copy =>
    if (!rsv && convMark m.fs m.fd == .no) || (m.path == .shadow && m.fd != .rsv && convMark .e2m1 m.fd == .no)
    then some 0x01
    else if (m.scs && (!fmtScalable m.fs || !sh.sl)) || (m.scd && (!fmtScalable m.fd || !sh.dl)) then some 0x02
    else convCheck m.fs m.fd m.rm
  | .add =>
    if !(m.fd == .fp32 || m.fd == .bf16 || m.fd == .fp16) || (!rsv && convMark m.fs m.fd == .no) then some 0x01
    else if m.scd || (m.scs && (!fmtScalable m.fs || !sh.sl)) then some 0x02
    else if rsv then some 0x05
    else if m.rm == .sr || m.rm == .rha then some 0x06 else none
  | .fill => if m.fs != m.fd then some 0x01 else if rsv then some 0x05 else none

/-- A SKIP move's destination exceeds 256 KiB (08 R206): its bounding range, with the gaps between the rows of a row-major
one (log 135). -/
def Move.skipTooBig (m : Move) : Bool := m.path == .skip && decide (0x40000 < m.dest.len)

/-- The ranges of a flyer instruction resolved: source, destination, shadow. -/
def flReach (s : State) (p : Fin 136) (own : Owner) (m : Move) : Reach × Reach × Reach :=
  (if m.op = .fill then .ok [] else resolveInstr s p own .read m.src m.srcSide.len,
   resolveInstr s p own m.op.dstPerm m.dst m.dest.len,
   if m.path = .shadow then resolveInstr s p own .read m.shadow m.shSide.len else .ok [])

/-- Stalls of a flyer instruction: its token, the flyer queue, the ranges (06 R152, R156, R157). -/
def flStall (s : State) (p : Fin 136) (m : Move) (t : Fin 16) : List Stall :=
  let x := s.sp p
  let clash := (movesOf s p).any fun o =>
    hits m.dstRange.1 m.dstRange.2 (o.dstRange :: o.srcRanges) ||
    m.srcRanges.any fun r => overlap r.1 r.2 o.dstRange.1 o.dstRange.2
  let unread := x.unread.any fun r => overlap m.dstRange.1 m.dstRange.2 (bobbinBase p + r.1) r.2
  (if x.tok.get t = .busy then [.token] else []) ++
  (if 64 ≤ (s.sk (skeinOf p)).fq.length then [.token] else []) ++
  (if clash || unread then [.bobbin] else [])

/-- A flyer instruction (07 R189). A pitch that is not allowed raises ILLEGAL 0x02 before 0x05 and ALIGN; of several ranges that
fault, the source's is taken before the shadow's and that before the destination's (06 R160, R161; DESIGN CHOICE, log 167). -/
def effFl (h : Hdr) (opc : Nat) (op : MoveOp) (f : Fl) (enc : Option Nat) (s : State) : Eff :=
  let x := s.sp h.sp
  let own := match x.share with
    | some sh => sh.owner
    | none => .controller
  let m := flMove x h.sp op f
  let (a, d, w) := flReach s h.sp own m
  let m' := { m with srcSegs := a.segs, dstSegs := d.segs, shSegs := w.segs }
  { mkEff h .f 5 opc s with
    enc, dests := [.tok f.t]
    exc := raiseIf (!m.pitchOk) .illegal 0x02 ++ raiseIf m.skipTooBig .illegal 0x05 ++
      raiseIf (!m.basesOk) .align 0x01 ++
      (match m.formatOf with
       | some k => [{ exc := .format, detail := k }]
       | none => []) ++
      a.raises .read 0 ++ w.raises .read 0 ++ d.raises op.dstPerm 1
    stall := x.needS ([f.sd, f.ss, f.sn] ++
        (if f.sp = 0 then [] else [f.sp, f.sp + 1] ++ (if f.path = .shadow then [f.sp + 2] else []))) ++
      flStall s h.sp m f.t
    acts := [.move f.t m'] }

/-- `fmv` (07 R189). No flyer form names a v register lane or an e register as its destination: a working copy reaches
them from the bobbin, by `vld` or `emov` (05 R128; log 135). -/
def effFmv (h : Hdr) (f : Fl) (s : State) : Eff := effFl h 0x00 .copy f (flEnc f) s

/-- `fadd` (07 R190): `PATH` other than HOLD is ILLEGAL 0x02. -/
def effFadd (h : Hdr) (f : Fl) (s : State) : Eff :=
  effFl h 0x01 .add f (if f.path ≠ .hold then some 0x02 else flEnc f) s

/-- `ffill` (07 R191). -/
def effFfill (h : Hdr) (t : Fin 16) (sd sv sn : Fin 32) (fs fd : Fmt) (hint : Hint) (s : State) : Eff :=
  effFl h 0x02 .fill
    { t, sd, ss := sv, sn, fs, fd, tr := false, rm := .rne, satInf := false, hint, path := .hold, sp := 0,
      scs := false, scd := false } none s

/-! ## Sync class (06 R149, 07 R192, R193) -/

/-- `twait`: issue stalls until the token is not BUSY. -/
def effTwait (h : Hdr) (t : Fin 16) (s : State) : Eff :=
  { mkEff h .f 6 0x00 s with stall := if (s.sp h.sp).tok.get t = .busy then [.wait] else [] }

/-- `tpoll`: 1 if the token is not BUSY. -/
def effTpoll (h : Hdr) (pd : Fin 8) (t : Fin 16) (s : State) : Eff :=
  { mkEff h .f 6 0x01 s with
    dests := [.p pd], acts := [.wr (.p pd (decide ((s.sp h.sp).tok.get t ≠ .busy)))] }

/-- Status code a token holds; 0 when FREE (07 R193). -/
def Token.status : Token → Nat
  | .done st => st.code
  | _ => 0

/-- `tstat`: the status of the token's last move. -/
def effTstat (h : Hdr) (rd : Fin 32) (t : Fin 16) (s : State) : Eff :=
  let k := (s.sp h.sp).tok.get t
  { mkEff h .f 6 0x02 s with
    dests := [.s rd], stall := if k = .busy then [.token] else []
    acts := [.late rd (BitVec.ofNat 64 k.status) 1] }

/-- `sfence`: issue stalls until the array, row-unit and quantiser queues are empty and committed. -/
def effSfence (h : Hdr) (s : State) : Eff :=
  let x := s.sp h.sp
  { mkEff h .f 6 0x03 s with
    stall := if x.arrayQ.isEmpty && x.flight.isEmpty && x.rq.isEmpty && x.qq.isEmpty then [] else [.unitQ] }

/-- The queue a register names, when the kernel's owner owns it (06 R149). -/
def ownQueue (x : Spindle) (v : Word) : Option (Fin 4096) :=
  if h : v.toNat < 4096 then
    let q : Fin 4096 := ⟨v.toNat, h⟩
    match x.share with
    | some sh => if queueOwner q = sh.owner then some q else none
    | none => none
  else none

/-- `cread`: the completion count of a queue. -/
def effCread (h : Hdr) (rd ra : Fin 32) (s : State) : Eff :=
  let x := s.sp h.sp
  let q := ownQueue x (x.rs ra)
  { mkEff h .f 6 0x04 s with
    dests := [.s rd], exc := raiseIf q.isNone .illegal 0x09, stall := x.needS [ra]
    acts := [.late rd (BitVec.ofNat 64 ((q.map fun k => (s.q k).lc).getD 0)) 40] }

/-- `cwait`: issue stalls until the completion count of a queue is at least the count named. -/
def effCwait (h : Hdr) (ra rb : Fin 32) (s : State) : Eff :=
  let x := s.sp h.sp
  let q := ownQueue x (x.rs ra)
  { mkEff h .f 6 0x05 s with
    exc := raiseIf q.isNone .illegal 0x09
    stall := x.needS [ra, rb] ++
      (match q with
       | some k => if (s.q k).lc < (x.rs rb).toNat then [.wait] else []
       | none => []) }

end Sys2Proof.Machine
end

