-- ==== Sys2Proof/Machine/Queues.lean ====
section
/-!
DEFINITION. Queues (12): fault records and NOTIFY, rings, acceptance, the conditions of dispatch, the
end of a descriptor and its completion record, holding and draining.
-/

namespace Sys2Proof.Machine

/-! ## Frames the device sends on strands (14 R373) -/

/-- Strand of a receiver of NOTIFY: the session strand of the lease holder or of the tenant runtime. -/
def partyStrand (s : State) : Party → Option (Fin 2048)
  | .strand n => some n
  | .controller =>
    let hs := s.sec.sessions.filter (·.holds)
    ((s.sec.lease.bind fun l => hs.find? fun x => x.id == l.2.2) <|> hs.getLast?).bind (·.strand)
  | .tenant => (s.sec.sessions.find? fun x => x.ready && x.party == some .tenant).bind (·.strand)

/-- A frame queued on a strand that carries operations (14 R377). -/
def post (s : State) (n : Fin 2048) (m : Msg) : State :=
  let x := s.strand n
  match x.st with
  | .closed | .lost => s
  | _ => s.setStrand n { x with txq := x.txq ++ [m] }

/-- A NOTIFY frame (12 R331). -/
def notify (s : State) (to_ : Party) (kind queue result : Nat) (body : List Byte) : State :=
  match partyStrand s to_ with
  | some n => post s n (.notify kind queue result body)
  | none => s

/-! ## Fault records (18 R508 to R510) -/

/-- `STATUS` of a record: the status the spec names, else a free value by its kind (log 24). -/
def recStatus (kind : Nat) (st : Option Status) : Nat :=
  match st with
  | some x => x.code
  | none => (Config.recStatus kind).code

/-- The words of a record in the layout of 18 R509. -/
def recWords (s : State) (kind : Nat) (st : Option Status) (unit index : Nat) (args : List Nat) : List Word :=
  (BitVec.ofNat 64 (fld kind 0 8 + fld (recStatus kind st) 8 8 + fld unit 16 8 + fld index 32 32)) ::
  ((List.range 4).map fun i => BitVec.ofNat 64 (args.getD i 0)) ++
  [BitVec.ofNat 64 ((s.now - s.mgmt.coldAt) / 1000), 0, 0]

def recKind (ws : List Word) : Nat := (ws.getD 0 0).toNat % 256

/-- Whether a record is of a page fault. -/
def FaultRec.isPage (r : FaultRec) : Bool := recKind r.words == 4

/-- Whether a page-fault record finds a slot (18 R508). -/
def pageSlot (m : Mgmt) : Bool := decide (m.faults.length < 256) || m.faults.any fun r => !r.isPage

/-- The lowest snapshot slot that is free. -/
def freeSlot (m : Mgmt) : Nat :=
  ((List.range 256).find? fun i => m.faults.all fun r => r.slot != i).getD 0

/-- The records after a new one, and its slot; `none` where it is not kept (18 R508). -/
def keepRecord (m : Mgmt) (ws : List Word) : Mgmt × Nat :=
  if m.faults.length < 256 then
    ({ m with faults := m.faults ++ [⟨freeSlot m, ws⟩] }, freeSlot m)
  else
    let m' := { m with dropped := min 65535 (m.dropped + 1) }
    match m.faults.find? fun r => !r.isPage with
    | some old => ({ m' with faults := m.faults.filter (fun r => r.slot != old.slot) ++ [⟨old.slot, ws⟩] }, old.slot)
    | none => (m', 256)

def wordBytes (ws : List Word) : List Byte := ws.flatMap fun w => leBytes 8 w.toNat

/-- A fault record kept and sent to the controller, and to the tenant runtime as well where `ten` (12 R331). -/
def addRecord (s : State) (q : Nat) (ws : List Word) (ten : Bool) : State :=
  let s := { s with mgmt := (keepRecord s.mgmt ws).1 }
  let s := notify s .controller 2 q 0 (wordBytes ws)
  if ten then notify s .tenant 2 q 0 (wordBytes ws) else s

/-- A record of the common layout. -/
def record (s : State) (kind : Nat) (st : Option Status) (unit index : Nat) (args : List Nat) : State :=
  addRecord s 0 (recWords s kind st unit index args) false

/-- The record of a read that returns poison: the burst's address and the requester's queue and descriptor type
(09 R235, 18 R510). -/
def poisonRecord (s : State) (burst : Option Nat) (q type : Nat) : State :=
  match burst with
  | none => s
  | some a =>
    let chan := (locKey (physLoc s.mem a)).bind (keyChan s.mem)
    record s 0x02 (some .faulted) (if chan.isSome then 3 else 8) ((chan.map (·.val)).getD 0) [a, q + 4096 * type]

/-- A record closed (18 R508). -/
def closeRecord (s : State) (slot : Nat) : State :=
  { s with mgmt := { s.mgmt with faults := s.mgmt.faults.filter fun r => r.slot != slot } }

/-! ## Rings (12 R313, R314) -/

def ringArea : Nat := 0x1040000000
def QCfg.n (c : QCfg) : Nat := 2 ^ c.log2n
/-- Address of ring entry `x`. -/
def QCfg.entry (c : QCfg) (x : Nat) : Nat := ringArea + c.ringOff + x % c.n * 64
/-- Address of the completion record of a sequence number. -/
def QCfg.cpl (c : QCfg) (seq : Nat) : Nat := ringArea + c.cplOff + seq % c.n * 32

/-- Fields of a descriptor header (12 R316). -/
def hdrSeq (raw : List Byte) : Nat := word64 raw 0
def hdrType (raw : List Byte) : Nat := fieldAt raw 8 0 3
def hdrReplay (raw : List Byte) : Bool := fieldAt raw 8 4 4 == 1
def hdrMigratable (raw : List Byte) : Bool := fieldAt raw 8 5 5 == 1
def hdrNotify (raw : List Byte) : Bool := fieldAt raw 8 6 6 == 1
def hdrOvl (raw : List Byte) : Bool := fieldAt raw 8 7 7 == 1 && hdrType raw != 6 && hdrType raw != 7
def hdrPhase (raw : List Byte) : Nat := fieldAt raw 8 8 15
def hdrNcont (raw : List Byte) : Nat := fieldAt raw 8 16 20

/-! ## CRC-32C (12 R325) -/

def crcBits : Nat → Nat → Nat
  | 0, c => c
  | n + 1, c => crcBits n (if c % 2 = 1 then (c / 2) ^^^ 0x82F63B78 else c / 2)

def crc32c (bs : List Byte) : BitVec 32 :=
  BitVec.ofNat 32 (bs.foldl (fun c b => crcBits 8 (c ^^^ b.toNat)) 0xFFFFFFFF ^^^ 0xFFFFFFFF)

/-! ## Acceptance (12 R323 to R326) -/

def Queue.inflight (x : Queue) : Nat := x.descs.length

/-- Journal records in use: one for each entry of an accepted descriptor not yet completed (12 R324). -/
def journalUse (s : State) : Nat :=
  s.queues.toList.foldl (fun n x => n + (x.descs.map fun d => d.raw.length / 64).sum) 0

/-- Whether the journal pauses acceptance (12 R326). -/
def journalPauses (s : State) : Bool := decide (2097152 ≤ journalUse s) || s.jrn.rebuilding

/-- Whether acceptance of a queue pauses (12 R326). -/
def paused (s : State) (q : Fin 4096) : Bool :=
  decide ((s.q q).cfg.n ≤ (s.q q).inflight) || decide (2097152 ≤ journalUse s) || s.jrn.rebuilding

/-- Whether the device accepts at all: from warm-up on, unless it is stopped (12 R335, 18 R504). -/
def accepting (s : State) : Bool := s.serving

/-- Whether a queue accepts (12 R334). -/
def queueAccepts (s : State) (q : Fin 4096) : Bool :=
  accepting s && (s.q q).st != .off && (s.q q).st != .draining

/-- The entries of the descriptor at `HEAD`; `none` where they extend beyond `TAIL`. -/
def headEntries (s : State) (q : Fin 4096) : Option (List Byte) :=
  let x := s.q q
  if x.tail ≤ x.head then none else
  let first := readPhys s (x.cfg.entry x.head) 64
  let n := 1 + hdrNcont first
  if x.head + n ≤ x.tail then
    some ((List.range n).flatMap fun i => readPhys s (x.cfg.entry (x.head + i)) 64)
  else none

/-- `DCHK` of an accepted sequence number: from the journal, else from its completion record (12 R325). -/
def oldDchk (s : State) (q : Fin 4096) (seq : Nat) : Option (BitVec 32) :=
  let x := s.q q
  match x.descs.find? fun d => d.seq = seq with
  | some d => some d.dchk
  | none =>
    let r := readPhys s (x.cfg.cpl seq) 32
    if x.lc < seq + x.cfg.n ∧ word64 r 0 = seq then some (BitVec.ofNat 32 (fieldAt r 8 32 63)) else none

/-- One descriptor read from the ring: accepted, a duplicate or a gap. The spec states no `DCHK` of a gap:
a free value (log 22). -/
def acceptOne (s : State) (q : Fin 4096) : Option (State × AccRec) :=
  if !queueAccepts s q || paused s q then none else
  match headEntries s q with
  | none => none
  | some raw =>
    let x := s.q q
    let head := x.head + raw.length / 64
    let seq := hdrSeq raw
    if seq = x.la + 1 ∧ 2097152 < journalUse s + raw.length / 64 then none
    else if seq = x.la + 1 then
      let d : Desc := { seq, raw, dchk := crc32c raw }
      some (s.setQ q { x with head, la := seq, descs := x.descs ++ [d] }, ⟨q, .ok, false, d.dchk, seq, head⟩)
    else if seq ≤ x.la then
      some (s.setQ q { x with head },
        match oldDchk s q seq with
        | some c => ⟨q, .ok, false, c, seq, head⟩
        | none => ⟨q, .ok, true, 0, seq, head⟩)
    else some ((s.setQ q { x with head }).draw.2, ⟨q, .refused, false, s.draw.1.setWidth 32, seq, head⟩)

/-- Entries read while acceptance goes on; `fuel` bounds the descriptors. -/
def acceptAll : Nat → State → Fin 4096 → List AccRec → State × List AccRec
  | 0, s, _, rs => (s, rs)
  | k + 1, s, q, rs =>
    match acceptOne s q with
    | some (s', r) => acceptAll k s' q (rs ++ [r])
    | none => (s, rs)

/-- ACCEPT frames of at most 64 records on a strand (12 R325); `fuel` bounds the frames. -/
def sayAccepts : Nat → State → Fin 2048 → List AccRec → State
  | 0, s, _, _ => s
  | _, s, _, [] => s
  | k + 1, s, n, r :: rs => sayAccepts k (post s n (.accept ((r :: rs).take 64))) n ((r :: rs).drop 64)

/-- The records that each doorbell led to, on its strand: those whose entries end at or below its `TAIL`
and above the one before (12 R325). -/
def sayRings (s : State) : Nat → List (Nat × Option (Fin 2048)) → List AccRec → State
  | _, [], _ => s
  | lo, (tail, n) :: rest, rs =>
    let mine := rs.filter fun r => decide (lo < r.head) && decide (r.head ≤ tail)
    let s := match n with
      | some n => sayAccepts (mine.length + 1) s n mine
      | none => s
    sayRings s tail rest rs

/-- Acceptance of a queue with its ACCEPT frames; doorbells whose entries are all read are forgotten. -/
def runAcceptance (s : State) (q : Fin 4096) : State :=
  let x := s.q q
  let (s, rs) := acceptAll (x.tail - x.head) s q []
  let s := sayRings s x.head x.rings rs
  s.setQ q { s.q q with rings := (s.q q).rings.filter fun r => decide ((s.q q).head < r.1) }

/-! ## Conditions of dispatch (12 R327, R335) -/

/-- Whether a queue dispatches now: in warm-up and under an airflow override only queues 0 to 15 do
(12 R335, 17 R477). -/
def queueDispatches (s : State) (q : Fin 4096) : Bool :=
  (s.q q).st == .opened && accepting s &&
  (decide (q.val < 16) || (s.mgmt.phase == .full && !s.sec.override))

/-- The first accepted descriptor that has not dispatched, with the one before it. -/
def nextDesc : Option Desc → List Desc → Option (Option Desc × Desc)
  | _, [] => none
  | prev, d :: ds => if d.st = .accepted then some (prev, d) else nextDesc (some d) ds

/-- The descriptor that a queue may dispatch now, if it is of the type asked for. -/
def mayDispatch (s : State) (q : Fin 4096) (type : Nat) : Option Desc :=
  if !queueDispatches s q then none else
  let x := s.q q
  match nextDesc none x.descs with
  | none => none
  | some (prev, d) =>
    let ready : Bool := match prev with
      | none => true
      | some p => hdrOvl p.raw
    -- interrupted descriptors finish before later ones dispatch (12 R340, R349)
    let open_ (e : Desc) : Bool := e.intr && (match e.st with
      | .finished .. => false
      | _ => true)
    let ready := ready && (d.intr || !x.descs.any open_)
    if ready = true ∧ (x.descs.filter fun d => d.st ≠ .accepted).length < 16 ∧ hdrType d.raw = type then some d else none

/-- Whether a device range of descriptor bytes is reserved-clean: header bits [63:21] (12 R316). -/
def hdrClean (raw : List Byte) : Bool := fieldAt raw 8 21 63 == 0

/-- Whether the given bit ranges (byte offset, low, high) are all zero. -/
def zeros (raw : List Byte) (fs : List (Nat × Nat × Nat)) : Bool :=
  fs.all fun f => fieldAt raw f.1 f.2.1 f.2.2 == 0

/-! ## Queues that compete (12 R327) -/

/-- The priority class of a queue. -/
def classOf (s : State) (q : Fin 4096) : Fin 8 := ⟨(s.q q).cfg.prio % 8, Nat.mod_lt _ (by omega)⟩

/-- The lowest-numbered of some queues. -/
def leastQ (qs : List (Fin 4096)) : Option (Fin 4096) := qs.find? fun q => qs.all fun o => decide (q.val ≤ o.val)

/-- The queue whose turn it is among those that compete for a unit: the highest priority class goes first, and within it
the next queue ID after the one served last, in a circle. -/
def turnOf (s : State) (last : Vector (Fin 4096) 8) (qs : List (Fin 4096)) : Option (Fin 4096) :=
  let top := qs.filter fun q => qs.all fun o => decide ((classOf s o).val ≤ (classOf s q).val)
  leastQ (top.filter fun q => decide ((last.get (classOf s q)).val < q.val)) <|> leastQ top

/-- The queues that hold descriptors. -/
def busyQueues (s : State) : List (Fin 4096) :=
  s.queues.toList.zipIdx.filterMap fun x => if h : x.2 < 4096 then (if x.1.descs.isEmpty then none else some ⟨x.2, h⟩) else none

/-- A queue served: the next turn of its class begins after it. -/
def served (s : State) (last : Vector (Fin 4096) 8) (q : Fin 4096) : Vector (Fin 4096) 8 := upd last (classOf s q) q

/-! ## The end of a descriptor -/

/-- A descriptor of a queue changed. -/
def setDesc (s : State) (q : Fin 4096) (seq : Nat) (f : Desc → Desc) : State :=
  s.setQ q { s.q q with descs := (s.q q).descs.map fun d => if d.seq = seq then f d else d }

def descOf (s : State) (q : Fin 4096) (seq : Nat) : Option Desc := (s.q q).descs.find? fun d => d.seq = seq

/-- The dispatch of tagged work asks for a grant (17 R465). -/
def wantGrant (s : State) (q : Fin 4096) (seq : Nat) : State :=
  match descOf s q seq with
  | some d => if hdrPhase d.raw = 0 then s else s.setPwr { s.pwr with grantDue := true }
  | none => s

/-- `SEED` for a descriptor: the queue's when it first dispatches, since a MARK sets it for descriptors after it in
sequence order (12 R328). -/
def seedFor (s : State) (q : Fin 4096) (d : Desc) : Word := d.seed.getD (s.q q).cfg.seed

/-- A descriptor that dispatches: it is in flight from now on. -/
def startDesc (s : State) (q : Fin 4096) (seq : Nat) : State :=
  setDesc (wantGrant s q seq) q seq fun d =>
    { d with st := .running, start := s.now, warm := s.mgmt.phase == .warmup, waitMig := false, seed := some (seedFor s q d) }

/-- A descriptor that has finished: it waits to be counted (12 R330). A finished one is not changed, and one that ends
without dispatch took no time (12 R329). -/
def finish (s : State) (q : Fin 4096) (seq : Nat) (st : Status) (flags : Flags) (code detail : Nat)
    (value : Nat) : State :=
  setDesc s q seq fun d => match d.st with
    | .finished .. => d
    | .accepted => { d with st := .finished st flags code detail (BitVec.ofNat 64 value), start := s.now }
    | .running => { d with st := .finished st flags code detail (BitVec.ofNat 64 value) }

/-- A descriptor that ends with a status alone. -/
def ends (s : State) (q : Fin 4096) (seq : Nat) (st : Status) : State := finish s q seq st noFlags 0 0 0

/-- A descriptor that fails a check at dispatch: it completes once and has no other effect (12 R322). -/
def failDesc (s : State) (q : Fin 4096) (seq : Nat) (st : Status) : State := ends (startDesc s q seq) q seq st

/-- Bytes of a completion record (12 R329). -/
def cplBytes (s : State) (d : Desc) (st : Status) (flags : Flags) (code detail : Nat) (value : Word) : List Byte :=
  leBytes 8 d.seq ++
  leBytes 8 (fld st.code 0 8 + fld (flagsWord flags) 8 4 + fld (hdrType d.raw) 12 4 + fld code 16 4 +
    fld detail 20 8 + fld (b2n d.replayed) 28 1 + fld d.dchk.toNat 32 32) ++
  leBytes 8 value.toNat ++
  leBytes 8 (fld (min (2 ^ 32 - 1) d.energy) 0 32 + fld (min (2 ^ 32 - 1) ((s.now - d.start) / 1000)) 32 32)

/-- A descriptor counted: its record is written, the count advances, a NOTIFY goes out where due, the
queue is held where it must be (12 R330 to R332). -/
def countDesc (s : State) (q : Fin 4096) (d : Desc) (st : Status) (flags : Flags) (code detail : Nat)
    (value : Word) : State :=
  let bs := cplBytes s d st flags code detail value
  let s := writePhys s ((s.q q).cfg.cpl d.seq) bs
  let x := s.q q
  let bad := st != .ok
  let stop := bad && x.cfg.stopOnErr
  let s := s.setQ q { x with
    lc := d.seq, descs := x.descs.tail, bad := if bad then d.seq else x.bad
    st := if stop ∧ x.st = .opened then .held else x.st
    held := x.held || (stop && x.st == .waitPage) }
  match x.strand with
  | some n => if hdrNotify d.raw || bad then notify s (.strand n) 1 q.val 0 bs else s
  | none => s

/-- The flags of work that ends early (02 R63): of those that the whole work sets, the ones that its part done so far has
set, which no command tells (log 104). -/
def partFlags (s : State) (g : Flags) : Flags :=
  let w := Config.freeWord s.free
  { nv := g.nv && w.getLsbD 0, ovf := g.ovf && w.getLsbD 1, uf := g.uf && w.getLsbD 2, msk := g.msk && w.getLsbD 3 }

/-! ## Page faults and the WAIT_PAGE state (11 R303, R305) -/

/-- A queue enters WAIT_PAGE (12 R334). -/
def waitPage (s : State) (q : Fin 4096) : State :=
  let x := s.q q
  s.setQ q { x with st := if x.st = .opened then .waitPage else x.st }

/-- A queue leaves WAIT_PAGE once none of its faults is unresolved (11 R305, 12 R334). -/
def settleQueue (s : State) (q : Fin 4096) : State :=
  let x := s.q q
  if x.st = .waitPage ∧ s.trans.faults.all (fun f => f.brk || f.queue != q) then
    s.setQ q { x with st := if x.held then .held else .opened, held := false }
  else s

/-- A queue taken out of HELD (12 R332). -/
def releaseQueue (s : State) (q : Fin 4096) : State :=
  let x := s.q q
  if x.st = .held then
    s.setQ q { x with st :=
      if s.trans.faults.any (fun f => !f.brk && f.queue == q) then .waitPage else .opened }
  else s

/-- A page fault recorded (11 R304) with the generations its translation used: the fault takes the next `FAULT_ID`. -/
def addFault (s : State) (q : Fin 4096) (seq : Nat) (work : FaultWork) (va ia stage acc why side spindle epc : Nat)
    (g1 g2 : Word) : State :=
  let id := s.trans.nextFault
  let ws : List Word :=
    [BitVec.ofNat 64 (fld 4 0 8 + fld Status.page.code 8 8 + fld q.val 16 12 + fld id 32 32),
     BitVec.ofNat 64 seq, BitVec.ofNat 64 va,
     BitVec.ofNat 64 (fld ia 0 52 + fld stage 52 2 + fld acc 54 2 + fld why 56 2 + fld side 58 1),
     g1, g2, BitVec.ofNat 64 (fld spindle 0 16 + fld epc 16 24), 0]
  let slot := (keepRecord s.mgmt ws).2
  let s := addRecord s q.val ws (stage == 1 && decide (16 ≤ q.val))
  let s := s.setTrans { s.trans with
    nextFault := id + 1, faults := s.trans.faults ++ [{ id, queue := q, work, slot }] }
  waitPage s q

/-- A page fault resolved: its record closes (18 R508). -/
def dropFault (s : State) (id : Nat) : State :=
  match s.trans.faults.find? fun f => f.id = id with
  | none => s
  | some f =>
    let s := s.setTrans { s.trans with faults := s.trans.faults.filter fun g => g.id != id }
    settleQueue (if f.brk then s else closeRecord s f.slot) f.queue

end Sys2Proof.Machine
end

