-- ==== Sys2Proof/Machine/Shares.lean ====
section
/-!
DEFINITION. Kernels and shares (06 R135, R136, R159 to R167; 12 R317; 11 R303, R305): dispatch of a
KERNEL, launch, exceptions taken, switch-out and restoration, the end of a share.
-/

namespace Sys2Proof.Machine

/-! ## Which spindle hosts a share (01 R20 to R24, R35; 12 R335) -/

/-- Skein of a logical spindle. -/
def logSkein (l : Fin 128) : Fin 8 := ⟨l.val / 16, by omega⟩
def logLocal (l : Fin 128) : Fin 16 := ⟨l.val % 16, Nat.mod_lt _ (by omega)⟩

/-- Physical spindle that serves local logical ID `i` of a skein, where it is present. -/
def servedBy (s : State) (k : Fin 8) (i : Fin 16) : Option (Fin 136) :=
  let v := (s.sk k).phys.get i
  if h : v.val < 17 then some (physOf k ⟨v.val, h⟩) else none

/-- Lowest-numbered present logical spindle of a skein, as its physical spindle. -/
def firstPresent (s : State) (k : Fin 8) : Option (Fin 136) := (List.finRange 16).findSome? (servedBy s k)

/-- Physical spindle that hosts logical spindle `l`: the one that serves it, else the lowest present one
of its skein, else of the nearest skein. -/
def hostOf (s : State) (l : Fin 128) : Option (Fin 136) :=
  match servedBy s (logSkein l) (logLocal l) with
  | some p => some p
  | none => ((List.finRange 8).map fun i => logSkein l + i).findSome? (firstPresent s)

/-- Host of a share of a kernel: skein 0 for a kernel dispatched during warm-up, until full service
frees one that is MIGRATABLE. -/
def shareHost (s : State) (k : Kernel) (l : Fin 128) : Option (Fin 136) :=
  let mig := match descOf s k.queue k.seq with
    | some d => hdrMigratable d.raw
    | none => false
  if k.warm && !(mig && s.mgmt.phase == .full) && logSkein l != 0 then firstPresent s 0 else hostOf s l

/-- Logical spindles that a physical spindle serves itself. -/
def ownLogical (s : State) (p : Fin 136) : Option (Fin 16) :=
  (List.finRange 16).find? fun i => servedBy s (skeinOf p) i == some p

/-! ## Dispatch of a KERNEL (06 R136, 12 R317, R322) -/

structure KernelBody where
  image    : Nat
  entry    : Nat
  step     : Nat
  args     : Nat
  imageLen : Nat
  argLen   : Nat
  spins    : Nat

def kernelBody (raw : List Byte) : KernelBody :=
  { image := word64 raw 0x10, entry := fieldAt raw 0x18 0 23, step := fieldAt raw 0x18 32 63
    args := word64 raw 0x20, imageLen := fieldAt raw 0x28 0 24, argLen := fieldAt raw 0x28 32 42
    spins := word64 raw 0x30 + word64 raw 0x38 * 2 ^ 64 }

/-- Logical spindles of a set, ascending. -/
def spinList (n : Nat) : List (Fin 128) := (List.finRange 128).filter fun l => n.testBit l.val

/-- Whether the share of a host's own logical spindle in a kernel has ended, where the kernel has one (01 R22, 06 R164). -/
def ownShareDone (s : State) (k : Kernel) (p : Fin 136) : Bool :=
  match ownLogical s p, descOf s k.queue k.seq with
  | some i, some d =>
    let l : Fin 128 := ⟨(skeinOf p).val * 16 + i.val, by omega⟩
    !(kernelBody d.raw).spins.testBit l.val || shareHost s k l != some p || k.ended.any fun e => e.2.1 == l
  | _, _ => true

/-- Whether a share may start on `p` now: a hosted one after the host's own share has ended (01 R22, 06 R164). -/
def shareTurn (s : State) (k : Kernel) (p : Fin 136) (l : Fin 128) : Bool :=
  shareHost s k l == some p &&
  ((logSkein l == skeinOf p && some (logLocal l) == ownLogical s p) || ownShareDone s k p)

/-- The check of a KERNEL body. `ARGS` without bytes is held only to its alignment. -/
def kernelCheck (raw : List Byte) : Option Status :=
  let b := kernelBody raw
  if !hdrClean raw || hdrNcont raw != 0 || !zeros raw [(0x18, 24, 31), (0x28, 25, 31), (0x28, 43, 63)] || b.spins == 0 then
    some .format
  else if b.image % 64 != 0 || b.args % 16 != 0 || b.entry % 8 != 0 || decide (b.imageLen ≤ b.entry) ||
      b.imageLen % 8 != 0 || decide (b.imageLen < 8) || decide (0x1000000 < b.imageLen) ||
      b.argLen % 16 != 0 || decide (1024 < b.argLen) then some .access
  else none

/-- The image and argument ranges of a KERNEL translated (11 R299). -/
def kernelReach (s : State) (q : Fin 4096) (d : Desc) : Reach × Reach :=
  let b := kernelBody d.raw
  (resolveDesc s q false .fetch b.image b.imageLen, resolveDesc s q false .fetch b.args b.argLen)

/-- The skeins of a spindle set. -/
def kernelSkeins (ls : List (Fin 128)) : List (Fin 8) := (List.finRange 8).filter fun k => ls.any fun l => logSkein l == k

/-- A kernel's image and arguments looked up in the skeins of its spindle set (11 R301, log 13). -/
def kernelWalks (s : State) (q : Fin 4096) (ls : List (Fin 128)) (segs : List Seg) : State :=
  (kernelSkeins ls).foldl (fun s k => lookUpSegs s k (queueOwner q) segs) s

/-- KERNEL: the first descriptor of queue `q` dispatches, if it is a KERNEL whose turn has come. -/
def doKernel (q : Fin 4096) (s : State) : State :=
  match mayDispatch s q 0 with
  | none => s
  | some d =>
    match kernelCheck d.raw with
    | some st => failDesc s q d.seq st
    | none =>
      let b := kernelBody d.raw
      match kernelReach s q d with
      | (.ok segs, .ok args) =>
        if d.waitMig && !migPassed s (segs ++ args) then s else
        let ls := spinList b.spins
        let k : Kernel :=
          { queue := q, seq := d.seq, segs, args, seed := seedFor s q d, warm := s.mgmt.phase == .warmup
            count := ls.length, waiting := (List.range ls.length).zip ls, ended := [] }
        let s := startDesc (kernelWalks s q ls (segs ++ args)) q d.seq
        { s with kernels := s.kernels ++ [k] }
      | r =>
        let s := (kernelSkeins (spinList b.spins)).foldl (fun s k => lookUpReach (lookUpReach s k r.1) k r.2) s
        failDesc s q d.seq .access

/-- The command KERNEL (06 R136). -/
def execKernel (q : Fin 4096) (s : State) : Res := .next (doKernel q s)

/-! ## Changes of the skein map (01 R21, R22, R24, R25) -/

def noLocal : Fin 32 := 31
def localIx (l : Fin 17) : Fin 32 := ⟨l.val, by omega⟩

/-- The logical local that a physical local serves. -/
def Skein.logicalAt (k : Skein) (l : Fin 17) : Option (Fin 16) := (List.finRange 16).find? fun i => k.phys.get i = localIx l

/-- The lowest-numbered absent logical local. -/
def Skein.absent (k : Skein) : Option (Fin 16) := (List.finRange 16).find? fun i => k.phys.get i = noLocal

/-- A physical spindle leaves the map: the spare takes its logical ID, or the ID becomes absent. -/
def Skein.lose (k : Skein) (l : Fin 17) : Skein :=
  let k := { k with healthy := k.healthy &&& ~~~(1#17 <<< l.val), mapGen := k.mapGen + 1 }
  if k.spare = localIx l then { k with spare := noLocal }
  else match k.logicalAt l with
    | some i => { k with phys := upd k.phys i k.spare, spare := noLocal }
    | none => k

/-- A physical spindle joins: into the lowest absent logical ID, else as the spare. -/
def Skein.gain (k : Skein) (l : Fin 17) : Skein :=
  let k := { k with healthy := k.healthy ||| (1#17 <<< l.val), mapGen := k.mapGen + 1 }
  match k.absent with
  | some i => { k with phys := upd k.phys i (localIx l) }
  | none => { k with spare := localIx l }

/-- The logical spindle ID of a skein's logical local. -/
def logId (k : Fin 8) (i : Fin 16) : Fin 128 := ⟨k.val * 16 + i.val, by omega⟩

/-- Whether a spindle stands between two shares of a kernel: one has ended there and another waits for it. -/
def midAt (s : State) (p : Fin 136) (k : Kernel) : Bool :=
  (k.waiting.any fun w => shareHost s k w.2 == some p) && (k.ended.any fun e => shareHost s k e.2.1 == some p)

/-- Whether a spindle stands between two shares of one kernel. -/
def midKernel (s : State) (p : Fin 136) : Bool := s.kernels.any (midAt s p)

/-- Whether a kernel may put a share on a spindle: between two shares of one kernel, which is no kernel boundary, no other
may (01 R28). -/
def mayHost (s : State) (p : Fin 136) (k : Kernel) : Bool := !midKernel s p || midAt s p k

/-- The spindle whose kernel boundary a change of a skein's map waits for (01 R21, R25): the one that leaves, or the
host of the ID that becomes present. -/
def changeAt (s : State) (k : Fin 8) (c : MapChange) : Option (Fin 136) :=
  match c with
  | .leave l => some (physOf k l)
  | .join _ => ((s.sk k).absent).bind fun i => hostOf s (logId k i)

/-- Whether a change of the map has reached its kernel boundary (01 R25). -/
def changeDue (s : State) (k : Fin 8) (c : MapChange) : Bool :=
  match changeAt s k c with
  | some p => (s.sp p).share.isNone && !midKernel s p
  | none => true

/-- A change applied. A spindle that has left keeps no bobbin contents. -/
def applyChange (s : State) (k : Fin 8) (c : MapChange) : State :=
  let sk := { s.sk k with changes := (s.sk k).changes.filter fun x => x != c }
  match c with
  | .leave l =>
    let s := s.setSk k (sk.lose l)
    let s := s.setSp (physOf k l) { s.sp (physOf k l) with owner := none, bobbin := [] }
    record s 0x01 none 1 (physOf k l).val [(s.sk k).mapGen.toNat, 3]
  | .join l => s.setSk k (sk.gain l)

/-- The pending changes of a skein that are due take effect, oldest first. -/
def settleMap (s : State) (k : Fin 8) : State :=
  (s.sk k).changes.foldl (fun s c => if changeDue s k c then applyChange s k c else s) s

/-- Whether a change that is due waits to take effect at a spindle. -/
def changeWaits (s : State) (p : Fin 136) : Bool :=
  (List.finRange 8).any fun k => (s.sk k).changes.any fun c => changeAt s k c == some p && changeDue s k c

/-! ## Launch (06 R163) -/

/-- A kernel changed. -/
def setKernel (s : State) (q : Fin 4096) (seq : Nat) (f : Kernel → Kernel) : State :=
  { s with kernels := s.kernels.map fun k => if k.queue = q ∧ k.seq = seq then f k else k }

def kernelOf (s : State) (q : Fin 4096) (seq : Nat) : Option Kernel :=
  s.kernels.find? fun k => k.queue = q ∧ k.seq = seq

/-- The launch state of a share (06 R163). `args` are the bytes of the argument block. -/
def launchState (x : Spindle) (p : Fin 136) (k : Kernel) (b : KernelBody) (idx : Nat) (l : Fin 128)
    (args : List Byte) : Spindle :=
  let own := queueOwner k.queue
  let base := BitVec.ofNat 64 (bobbinBase p)
  let bob := if x.owner = some own ∨ x.owner = none then x.bobbin else []
  let regs := rep 32 (0 : Word)
  let regs := upd (upd (upd (upd (upd (upd regs 1 base) 2 base) 3 (BitVec.ofNat 64 l.val)) 4 (BitVec.ofNat 64 idx))
    5 (BitVec.ofNat 64 k.count)) 6 (BitVec.ofNat 64 k.queue.val)
  let fresh : Spindle := {}
  { fresh with
    s := regs, seed := k.seed, pc := BitVec.ofNat 22 (b.entry / 8), step := BitVec.ofNat 32 b.step
    bobbin := cellsWrite bob 0 args, owner := some own
    share := some { queue := k.queue, seq := k.seq, index := idx, count := k.count, logical := l
                    imageLen := b.imageLen, owner := own }
    nextIssue := x.clk, clk := x.clk, prof := x.prof }

/-- Whether shares start on a spindle at all (12 R335, 17 R471): in warm-up service skein 0 alone works (18 R489), and a
change of the map that is due comes first (01 R25). -/
def mayLaunch (s : State) (p : Fin 136) : Bool :=
  accepting s && (s.mgmt.phase == .full || skeinOf p == 0) && (s.sp p).share.isNone && (s.sk (skeinOf p)).pstate == .p0 && !changeWaits s p

/-- The queues that compete for a spindle: a share of theirs could start there. -/
def shareQueues (s : State) (p : Fin 136) : List (Fin 4096) :=
  (s.kernels.filter fun k => s.worksFor k.queue && !k.stopped && mayHost s p k && k.waiting.any fun w => shareTurn s k p w.2).map (·.queue)

/-- Whether it is a queue's turn at a spindle (12 R327). -/
def spindleTurn (s : State) (q : Fin 4096) (p : Fin 136) : Bool :=
  turnOf s ((s.sk (skeinOf p)).lastQ.get (localOf p)) (shareQueues s p) == some q

/-- A queue served at a spindle. -/
def serveSpindle (s : State) (q : Fin 4096) (p : Fin 136) : State :=
  let k := s.sk (skeinOf p)
  s.setSk (skeinOf p) { k with lastQ := upd k.lastQ (localOf p) (served s (k.lastQ.get (localOf p)) q) }

/-- How a share that may not run ends at its launch: ACCESS where its captured image or argument range has left the map
(09 R239, R241, R243), FAULTED where it is poisoned (09 R235). -/
def launchEnds (s : State) (k : Kernel) (bad : Option Nat) : Option Status :=
  if !segsMapped s (k.segs ++ k.args) then some .access else if bad.isSome then some .faulted else none

/-- SHARE_LAUNCH: the next share of the oldest kernel of `q` that spindle `p` hosts starts there, if it is the queue's
turn. -/
def doShareLaunch (q : Fin 4096) (p : Fin 136) (s : State) : State :=
  if !mayLaunch s p || !spindleTurn s q p then s else
  match s.kernels.findSome? (fun k =>
      if k.queue = q ∧ !k.stopped ∧ mayHost s p k then (k.waiting.find? fun w => shareTurn s k p w.2).map fun w => (k, w) else none) with
  | none => s
  | some (k, w) =>
    match descOf s q k.seq with
    | none => s
    | some d =>
      let b := kernelBody d.raw
      let s := serveSpindle (touchSegs s k.args b.args b.argLen false) q p
      let x := launchState (s.sp p) p k b w.1 w.2 (readSegs s k.args b.args b.argLen)
      let bad := if segsMapped s (k.segs ++ k.args) then
        (firstPoison s k.args b.args b.argLen) <|> (firstPoison s k.segs b.image b.imageLen) else none
      let x := match launchEnds s k bad with
        | some st => { x with share := x.share.map fun h => { h with phase := .ended st } }
        | none => x
      setKernel (poisonRecord (s.setSp p x) bad q.val 0) q k.seq fun k => { k with waiting := k.waiting.filter fun v => v != w }

/-- The command SHARE_LAUNCH (06 R163). -/
def execShareLaunch (q : Fin 4096) (p : Fin 136) (s : State) : Res := .next (doShareLaunch q p s)

/-! ## The end of a kernel (06 R167) -/

/-- The share reported: the lowest-numbered one that did not end OK. -/
def worstShare (k : Kernel) : Option (Nat × Fin 128 × Status × Word × Flags) :=
  (List.range k.count).findSome? fun i => k.ended.find? fun e => e.1 = i ∧ e.2.2.1 ≠ .ok

/-- A kernel that completes is traced while profiling consent stands (16 R451). -/
def traceKernel (s : State) (q : Fin 4096) (seq : Nat) : State :=
  match descOf s q seq with
  | some d =>
    if s.sec.profile then s.setSec { s.sec with trace := s.sec.trace ++ [⟨q, seq, d.start, s.now⟩] } else s
  | none => s

/-- A kernel completes when its last share has ended. -/
def settleKernel (s : State) (q : Fin 4096) (seq : Nat) : State :=
  match kernelOf s q seq with
  | none => s
  | some k =>
    if k.ended.length < k.count then s else
    let flags := orFlags (k.ended.map fun e => e.2.2.2.2)
    let s := traceKernel { s with kernels := s.kernels.filter fun j => !(j.queue == q && j.seq == seq) } q seq
    match worstShare k with
    | none => finish s q seq .ok flags 0 0 0xFFFF
    | some (_, l, st, cause, _) =>
      let c := cause.toNat
      finish s q seq st flags (bitsOf c 0 4) (bitsOf c 8 8) (fld l.val 0 16 + fld (bitsOf c 32 24) 16 24)

/-- A share that has ended is reported to its kernel. -/
def reportShare (s : State) (sh : Share) (st : Status) (cause : Word) (fl : Flags) : State :=
  let st := if sh.moveFaulted then .faulted else st
  settleKernel (setKernel s sh.queue sh.seq fun k =>
    { k with ended := k.ended ++ [(sh.index, sh.logical, st, cause, fl.or sh.moveFlags)] }) sh.queue sh.seq

/-! ## Switch-out and restoration (06 R166, 11 R303, R305) -/

/-- A share restored from its image onto a spindle (06 R166): s2 is the new base. -/
def restored (x : Spindle) (p : Fin 136) (i : SaveImage) : Spindle :=
  { i.regs with
    s := upd i.regs.s 2 (BitVec.ofNat 64 (bobbinBase p)), sReady := rep 32 0
    share := some i.share, fetched := [], owner := some i.share.owner, nextIssue := x.clk
    loadFree := x.clk, streamFree := x.clk, slotFree := rep 2 x.clk, vFree := x.clk, clk := x.clk, prof := x.prof }

/-- A spindle at its kernel boundary: changes of the map that are due take effect (01 R25), then the first of the shares
that RESUME has released and whose turn on `p` it is is restored (01 R22, R28). -/
def boundary (s : State) (p : Fin 136) : State :=
  if (s.sp p).share.isSome then s else
  let s := (List.finRange 8).foldl settleMap s
  match s.trans.images.find? (fun i => i.resume && s.worksFor i.queue && (match kernelOf s i.queue i.share.seq with
      | some k => mayHost s p k && shareTurn s k p i.share.logical
      | none => false)) with
  | none => s
  | some i =>
    let s := s.setTrans { s.trans with images := s.trans.images.filter fun j => j != i }
    s.setSp p (restored (s.sp p) p i)

/-- A spindle whose share has left it. -/
def vacate (s : State) (p : Fin 136) : State :=
  boundary (s.setSp p { s.sp p with share := none, fetched := [], counting := false }) p

/-- Bytes of a save image (06 R166). -/
def saveBytes : Nat := 1372 * 1024

/-- Address of save image `n`: below the ring area of the reserve, where the device keeps its images (log 140). -/
def saveBase (n : Nat) : Nat := ilBase + Config.saveArea % (0x40000000 - 256 * saveBytes) / 4096 * 4096 + n * saveBytes

/-- A weight slot in 32 KiB of a save image: its block rows, then its scale bytes. -/
def slotBytes (w : WSlot) : List Byte :=
  match w.fmt with
  | none => List.replicate 0x8000 0
  | some f => (w.rows.flatMap (fun (r : List Lane) => packBytes (fmtWidth f) (r.map fun (c : Lane) => c.toNat)) ++ w.scales ++
      List.replicate 0x8000 0).take 0x8000

/-- The save image of a spindle (06 R166): bobbin, tiles, weight slots, v registers, row-state file, then the 4 KiB
whose layout is the device's, as the free block `n`. -/
def saveImage (x : Spindle) (n : Nat) : List Byte :=
  cellsRead x.bobbin 0 0x100000 ++
  x.tile.toList.flatMap (fun t => t.rows.toList.flatMap lanesTo) ++
  x.slot.toList.flatMap slotBytes ++ x.v.toList.flatMap lanesTo ++ fileBytes x.rowFile ++
  (List.range 4096).map (Config.freeByte n)

/-- The first save image that is not in use. -/
def freeImage (s : State) : Nat :=
  ((List.range 256).find? fun n => s.trans.images.all fun i => i.slot != n).getD 0

/-- The switch-out of a share (06 R166, 11 R303): its image is written to the reserve, and the share kept with the state
it restores. -/
def switchOut (s : State) (p : Fin 136) (sh : Share) : State :=
  let x := s.sp p
  let n := freeImage s
  let i : SaveImage := { queue := sh.queue, slot := n, share := { sh with phase := .running }, regs := x }
  let s := { writePhys s (saveBase n) (saveImage x s.free) with free := s.free + 1 }
  vacate (s.setTrans { s.trans with images := s.trans.images ++ [i] }) p

def setPhase (s : State) (p : Fin 136) (ph : Phase) : State :=
  s.setSp p { s.sp p with share := (s.sp p).share.map fun h => { h with phase := ph } }

/-- Whether every unit of a spindle is done and every move of its flyer instructions has completed. -/
def quiet (s : State) (p : Fin 136) : Bool :=
  let x := s.sp p
  x.arrayQ.isEmpty && x.flight.isEmpty && x.vpend.isEmpty && x.rq.isEmpty && x.qq.isEmpty && (movesOf s p).isEmpty

/-- The page-fault record of a share (11 R304). -/
def shareFault (s : State) (sh : Share) (t : Trap) : State :=
  addFault s sh.queue sh.seq (.share sh.logical sh.seq) t.va t.ia t.stage t.acc t.why t.side sh.logical.val
    (bitsOf t.cause.toNat 32 24) t.gen1 t.gen2

/-- A faulting share switches out, or halts in place for want of a record slot or a save image. -/
def pageOut (s : State) (p : Fin 136) (sh : Share) (t : Trap) (recorded : Bool) : State :=
  if !recorded && !pageSlot s.mgmt then setPhase s p (.noImage t false)
  else
    let s := if recorded then s else shareFault s sh t
    if s.trans.images.length < 256 then switchOut s p sh else setPhase s p (.noImage t true)

/-- EXCEPTION_TAKEN: the exception of a spindle is taken once earlier work is done (06 R159, R162). -/
def doExceptionTaken (p : Fin 136) (s : State) : State :=
  match (s.sp p).share with
  | none => s
  | some sh =>
    match sh.phase with
    | .trapping t =>
      if !quiet s p || !s.serving then s else
      let s := s.setSp p { s.sp p with cause := t.cause }
      match t.exc with
      | .page => pageOut s p sh t false
      | .brk =>
        let id := s.trans.nextFault
        let s := record s 0x05 none 0 sh.queue.val
          [sh.logical.val, bitsOf t.cause.toNat 32 24, bitsOf t.cause.toNat 8 8, id]
        let f : PFault := { id, queue := sh.queue, work := .share sh.logical sh.seq, brk := true }
        setPhase (s.setTrans { s.trans with nextFault := id + 1, faults := s.trans.faults ++ [f] }) p (.halted t.len)
      | .format => setPhase s p (.ended .format)
      | _ => setPhase s p (.ended .access)
    | _ => s

/-- The command EXCEPTION_TAKEN (06 R159). -/
def execExceptionTaken (p : Fin 136) (s : State) : Res := .next (doExceptionTaken p s)

/-- SAVE_IMAGE_FREED: a share halted in place switches out, or ends where its queue drains (11 R303). -/
def doSaveImageFreed (p : Fin 136) (s : State) : State :=
  match (s.sp p).share with
  | none => s
  | some sh =>
    match sh.phase with
    | .noImage t recorded =>
      if 256 ≤ s.trans.images.length || !s.serving then s
      else if sh.drained then
        let s := match s.trans.faults.find? (fun f => f.work == .share sh.logical sh.seq && f.queue == sh.queue && !f.brk) with
          | some f => dropFault s f.id
          | none => s
        setPhase s p (.ended .interrupted)
      else pageOut s p sh t recorded
    | _ => s

/-- The command SAVE_IMAGE_FREED (11 R303). -/
def execSaveImageFreed (p : Fin 136) (s : State) : Res := .next (doSaveImageFreed p s)

/-- SHARE_END: a share ends once its queued work has committed and its moves have completed (06 R167). -/
def doShareEnd (p : Fin 136) (s : State) : State :=
  let x := s.sp p
  match x.share with
  | none => s
  | some sh =>
    if !quiet s p || !s.serving then s else
    match sh.phase with
    | .ending => vacate (reportShare s sh .ok x.cause x.flags) p
    | .ended st => vacate (reportShare s sh st x.cause x.flags) p
    | _ => s

/-- The command SHARE_END (06 R167). -/
def execShareEnd (p : Fin 136) (s : State) : Res := .next (doShareEnd p s)

/-! ## RESUME of a share (11 R305, 06 R162) -/

/-- The spindle that holds a share of a kernel. -/
def spindleOf (s : State) (q : Fin 4096) (seq : Nat) (l : Fin 128) : Option (Fin 136) :=
  (List.finRange 136).find? fun p => match (s.sp p).share with
    | some sh => sh.queue == q && sh.seq == seq && sh.logical == l
    | none => false

/-- The save image of a share. -/
def imageOf (s : State) (q : Fin 4096) (seq : Nat) (l : Fin 128) : Option SaveImage :=
  s.trans.images.find? fun i => i.queue == q && i.share.seq == seq && i.share.logical == l

/-- The work of a fault continued: a share from its image or in place, a descriptor from its start. -/
def resumeWork (s : State) (f : PFault) : State :=
  match f.work with
  | .desc _ => dropFault s f.id
  | .share l seq =>
    let s := dropFault s f.id
    match imageOf s f.queue seq l with
    | some i =>
      let s := s.setTrans { s.trans with images := s.trans.images.map fun j => if j = i then { j with resume := true } else j }
      match (kernelOf s f.queue seq).bind fun k => shareHost s k l with
      | some p => boundary s p
      | none => s
    | none =>
      match spindleOf s f.queue seq l with
      | none => s
      | some p =>
        let x := s.sp p
        match Option.map Share.phase x.share with
        | some (.halted n) =>
          setPhase (s.setSp p { x with pc := x.pc + BitVec.ofNat 22 n, nextIssue := x.clk }) p .running
        | some (.noImage _ _) => setPhase (s.setSp p { x with nextIssue := x.clk }) p .running
        | _ => s

/-- The work of a fault ended with a status: PAGE for ABANDON, INTERRUPTED for a drain. -/
def abandonWork (s : State) (f : PFault) (st : Status) : State :=
  match f.work with
  | .desc seq => dropFault (failDesc s f.queue seq st) f.id
  | .share l seq =>
    match imageOf s f.queue seq l with
    | some i =>
      let s := s.setTrans { s.trans with images := s.trans.images.filter fun j => j != i }
      dropFault (reportShare s i.share st i.regs.cause i.regs.flags) f.id
    | none =>
      match spindleOf s f.queue seq l with
      | some p => dropFault (setPhase s p (.ended st)) f.id
      | none => dropFault s f.id

end Sys2Proof.Machine
end

