-- ==== Sys2Proof/Machine/MoveWork.lean ====
section
/-!
DEFINITION. MOVE descriptors COPY, ADD and FILL (12 R318, R322; 08 R205 to R217) and the end of every
move, with the miss of its deadline.
-/

namespace Sys2Proof.Machine

/-! ## Dispatch -/

def hintOf (n : Nat) : Hint :=
  match n with
  | 1 => .stream | 2 => .keep | 3 => .last | _ => .none
def pathOf (n : Nat) : Path :=
  match n with
  | 1 => .shadow | 2 => .skip | _ => .hold

/-- The move a descriptor names, before its translations (12 R318). -/
def descMove (s : State) (q : Fin 4096) (d : Desc) (op : MoveOp) : Move :=
  let f (lo hi : Nat) : Nat := fieldAt d.raw 0x28 lo hi
  { origin := .desc q d.seq, queue := q, op, src := if op = .fill then 0 else word64 d.raw 0x10
    dst := word64 d.raw 0x18, shadow := word64 d.raw 0x40, srcSegs := [], dstSegs := [], shSegs := []
    fillv := BitVec.ofNat 32 (word64 d.raw 0x10), shape := BitVec.ofNat 64 (word64 d.raw 0x20)
    fs := fmtOf (f 4 7), fd := fmtOf (f 8 11), tr := f 12 12 == 1, rm := rmOf (f 13 14), satInf := f 15 15 == 1
    hint := hintOf (f 16 17), path := pathOf (f 18 19), scs := f 20 20 == 1, scd := f 21 21 == 1
    seed := seedFor s q d, step := BitVec.ofNat 32 (f 32 63), ix := BitVec.ofNat 64 (word64 d.raw 0x38)
    deadline := fieldAt d.raw 0x30 0 31 }

/-- The check of a MOVE body by its fields alone (12 R318, R322; 07 R190, R191; 08 R206). -/
def moveCheck (raw : List Byte) (m : Move) : Option Status :=
  let path := fieldAt raw 0x28 18 19
  let shadow := path == 1
  let clean := hdrClean raw && zeros raw [(0x28, 22, 31), (0x30, 32, 63)] && path != 3 &&
    hdrNcont raw == b2n shadow && (!shadow || (raw.drop 0x48).all fun b => b == 0)
  let fillOk := m.op != .fill || (fieldAt raw 0x28 12 15 == 0 && fieldAt raw 0x28 20 21 == 0)
  if !clean || !fillOk || (m.op != .copy && path != 0) || m.formatOf.isSome then some .format
  else if !m.pitchOk || !m.basesOk || m.skipTooBig then some .access
  else none

/-- Whether a live binding of a skein covers a byte (01 R27). -/
def boundIn (s : State) (k : Fin 8) (a : Nat) : Bool :=
  match locKey (physLoc s.mem a) with
  | some key => (s.sk k).bindings.any fun b => (bindingOff s.mem b key).isSome
  | none => false

/-- The skein whose bobbin or creel a captured range touches. -/
def segSkein (s : State) (segs : List Seg) : Option (Fin 8) :=
  segs.findSome? fun g =>
    match physLoc s.mem g.pa with
    | .bobbin p _ => some (skeinOf p)
    | _ => (List.finRange 8).find? fun k => (probePoints g.pa g.len).any (boundIn s k)

/-- Flyers of a skein in service. -/
def flyersUp (k : Skein) : Nat := (k.fly.toList.filter fun f => !f.failed && !f.retired).length
/-- Whether a flyer of a skein is in service and has no move. -/
def idleFlyer (k : Skein) : Bool := k.fly.toList.any fun f => f.move.isNone && !f.failed && !f.retired

/-- The load of the least loaded flyer of a skein, as a fraction (01 R28): 0 where one is idle, else its own move and its
share of the moves that wait for the skein's flyers. -/
def flyerLoad (k : Skein) : Nat × Nat :=
  if idleFlyer k then (k.fq.length, flyersUp k) else (k.fq.length + flyersUp k, flyersUp k)

def loadLess (a b : Nat × Nat) : Bool := decide (a.1 * b.2 < b.1 * a.2)

/-- The skein of the least-loaded flyer in service (log 23: the lowest number wins). -/
def leastLoaded (s : State) : Fin 8 :=
  (List.finRange 8).foldl (fun b k =>
    if flyersUp (s.sk k) = 0 then b
    else if flyersUp (s.sk b) = 0 ∨ loadLess (flyerLoad (s.sk k)) (flyerLoad (s.sk b)) then k else b) 0

/-- The skein whose flyers take a MOVE (01 R28, 12 R335). Where its source lies in one skein's creel or bobbins and its
target in another's, the target's takes it (log 23). -/
def moveSkein (s : State) (m : Move) : Fin 8 :=
  if s.mgmt.phase = .warmup then 0
  else match segSkein s m.dstSegs with
    | some k => k
    | none => match segSkein s m.srcSegs with
      | some k => k
      | none => leastLoaded s

/-- The ranges of a MOVE resolved: source, destination, shadow. -/
def descReach (s : State) (q : Fin 4096) (m : Move) : Reach × Reach × Reach :=
  (if m.op = .fill then .ok [] else resolveDesc s q true .read m.src m.srcSide.len,
   resolveDesc s q true m.op.dstPerm m.dst m.dest.len,
   if m.path = .shadow then resolveDesc s q true .read m.shadow m.shSide.len else .ok [])

/-- The first fault among the ranges, with its side and access. -/
def firstFault (op : MoveOp) (r : Reach × Reach × Reach) : Option (TFault × Nat × Nat) :=
  match r.1, r.2.2, r.2.1 with
  | .fault f, _, _ => some (f, 0, 0)
  | _, .fault f, _ => some (f, 0, 0)
  | _, _, .fault f => some (f, 1, op.dstPerm.acc)
  | _, _, _ => none

def anyAccess (r : Reach × Reach × Reach) : Bool := r.1 == .access || r.2.1 == .access || r.2.2 == .access

/-- The operation of a MOVE. -/
def moveOpOf (raw : List Byte) : MoveOp :=
  match fieldAt raw 0x28 0 3 with
  | 1 => .add
  | 2 => .fill
  | _ => .copy

/-- The move of a queue's next descriptor with its ranges, where it goes to a flyer. -/
def readyMove (s : State) (q : Fin 4096) (d : Desc) : Option Move :=
  let m := descMove s q d (moveOpOf d.raw)
  let r := descReach s q m
  if (moveCheck d.raw m).isSome || (firstFault m.op r).isSome || anyAccess r then none
  else some { m with srcSegs := r.1.segs, dstSegs := r.2.1.segs, shSegs := r.2.2.segs }

/-- The queues that compete for a skein's flyers with a MOVE that may dispatch (12 R327). -/
def moveQueues (s : State) (k : Fin 8) : List (Fin 4096) :=
  (busyQueues s).filter fun q => ((mayDispatch s q 1).bind (readyMove s q)).any fun m => moveSkein s m == k

/-- Whether it is a queue's turn at a skein's flyers: the turn decides the order in which MOVEs join the moves that wait
there, of which the oldest takes the next free flyer (01 R28, 12 R327; log 90). -/
def flyerTurn (s : State) (q : Fin 4096) (k : Fin 8) : Bool := turnOf s (s.sk k).lastF (moveQueues s k) == some q

/-- A COPY, ADD or FILL dispatches, if it is the next descriptor of its queue and its turn has come. A
page that is not present leaves it waiting in its queue (11 R302). -/
def dispatchMove (q : Fin 4096) (n : Nat) (op : MoveOp) (s : State) : State :=
  match mayDispatch s q 1 with
  | none => s
  | some d =>
    if n = 0 ∧ 8 ≤ fieldAt d.raw 0x28 0 3 then failDesc s q d.seq .format else
    if fieldAt d.raw 0x28 0 3 ≠ n then s else
    let m := descMove s q d op
    match moveCheck d.raw m with
    | some st => failDesc s q d.seq st
    | none =>
      let r := descReach s q m
      match firstFault op r with
      | some (f, side, acc) =>
        let s0 := lookUpFault s (moveSkein s m) f.va
        if f.why = 1 then failDesc s0 q d.seq .access
        else if pageSlot s.mgmt then addFault s0 q d.seq (.desc d.seq) f.va f.ia f.stage acc f.why side 0xFFFF 0 s.trans.gen1 s.trans.gen2
        else s
      | none =>
        if anyAccess r then failDesc s q d.seq .access else
        let m := { m with srcSegs := r.1.segs, dstSegs := r.2.1.segs, shSegs := r.2.2.segs }
        let k := moveSkein s m
        if !flyerTurn s q k then s else
        let s := startDesc s q d.seq
        let s := s.setSk k { s.sk k with lastF := served s (s.sk k).lastF q }
        let s := lookUpSegs s k (queueOwner q) (m.srcSegs ++ m.dstSegs ++ m.shSegs)
        s.setSk k (feed { s.sk k with fq := (s.sk k).fq ++ [m] })

/-- COPY (08 R207). -/
def doCopy (q : Fin 4096) (s : State) : State := dispatchMove q 0 .copy s
/-- MOVE_ADD (07 R190). -/
def doMoveAdd (q : Fin 4096) (s : State) : State := dispatchMove q 1 .add s
/-- FILL (07 R191). -/
def doFill (q : Fin 4096) (s : State) : State := dispatchMove q 2 .fill s

/-- The command COPY. -/
def execCopy (q : Fin 4096) (s : State) : Res := .next (doCopy q s)
/-- The command MOVE_ADD. -/
def execMoveAdd (q : Fin 4096) (s : State) : Res := .next (doMoveAdd q s)
/-- The command FILL. -/
def execFill (q : Fin 4096) (s : State) : Res := .next (doFill q s)

/-! ## The end of a move (08 R211, 06 R156) -/

/-- Physical address of the first poisoned burst a move reads (09 R235). -/
def Move.firstPoison (m : Move) (s : State) : Option Nat :=
  m.reads.findSome? fun x => (x.1.hankRanges x.2.1 x.2.2).findSome? fun r =>
    Machine.firstPoison s x.1.segs r.1 r.2

/-- The poison a move meets: a burst it reads, or else one that it writes in part (09 R235). -/
def Move.poisonMet (m : Move) (s : State) (hanks : Nat) : Option Nat :=
  if m.dropped || (!m.faulted && !segsMapped s (m.srcSegs ++ m.dstSegs ++ m.shSegs)) then none else
  (m.firstPoison s) <|>
    (m.writes s (m.ends hanks)).1.findSome? fun w => firstPart s m.dstSegs w.1 w.2.length

/-- What a completed move leaves at its origin: a token, or a finished descriptor. -/
def reportMove (s : State) (m : Move) (st : Status) (fl : Flags) : State :=
  match m.origin with
  | .instr p t =>
    let x := s.sp p
    s.setSp p { x with
      tok := upd x.tok t (.done st)
      share := x.share.map fun h =>
        { h with moveFaulted := h.moveFaulted || st == .faulted, moveFlags := h.moveFlags.or fl } }
  | .desc q seq => finish s q seq st fl 0 0 0

/-- Counters of a completed move (08 R216, R228). -/
def countMove (s : State) (m : Move) (st : Status) : State :=
  let x := s.q m.queue
  s.setQ m.queue { x with
    shadows := if m.switched ∧ st = .ok then satAdd 16 x.shadows else x.shadows
    dropped := if st = .deadline then satAdd 16 x.dropped else x.dropped }

/-- A move reads and writes the bobbin only after earlier bundles' writes to its ranges (06 R157). -/
def moveHeld (s : State) (m : Move) : Bool :=
  match m.origin with
  | .instr p _ => (m.dstRange :: m.srcRanges).any fun r =>
      decide (bobbinBase p ≤ r.1 + r.2) && (s.sp p).pendAny (Wr.isMem (r.1 - bobbinBase p) r.2)
  | .desc _ _ => false

/-- FLYER_MOVE_COMPLETE: the move on flyer `f` of skein `k` ends and the oldest waiting move takes the
flyer; none ends while the mill die stands (12 R340, 01 R35). `hanks` are the destination hanks it has written, where a drain stops it at a hank boundary. -/
def doFlyerMoveComplete (k : Fin 8) (f : Fin 4) (hanks : Nat) (s : State) : State :=
  let fl := (s.sk k).fly.get f
  match fl.move with
  | none => s
  | some m =>
    if moveHeld s m || !s.serving || (m.op == .add && addsWait s m.dstSegs) then s else
    let type := match m.origin with
      | .instr _ _ => 0
      | .desc _ _ => 1
    let s := poisonRecord s (m.poisonMet s hanks) m.queue.val type
    let (s, st, g) := m.perform hanks s
    let s := countMove (reportMove s m st g) m st
    let sk := s.sk k
    s.setSk k (feed { sk with fly := upd sk.fly f { fl with move := none } })

/-- The command FLYER_MOVE_COMPLETE (08 R211). -/
def execFlyerMoveComplete (k : Fin 8) (f : Fin 4) (hanks : Nat) (s : State) : Res :=
  .next (doFlyerMoveComplete k f hanks s)

/-! ## Deadlines (08 R213 to R216) -/

/-- A move that misses its deadline. `hanks`: destination hanks the primary source has completely
written; `readDone`: the last source byte has been read. -/
def Move.miss (m : Move) (hanks : Nat) (readDone : Bool) : Move :=
  let m := { m with missed := true }
  match m.path with
  | .hold => m
  | .shadow => { m with switched := true, primary := hanks }
  | .skip => { m with dropped := !readDone }

/-- Every move of a skein changed. -/
def Skein.mapMoves (k : Skein) (f : Move → Move) : Skein :=
  { k with fq := k.fq.map f, fly := vecOf 4 fun i => { k.fly.get i with move := (k.fly.get i).move.map f } }

/-- The moves a skein holds. -/
def Skein.moves (k : Skein) : List Move := k.fq ++ k.fly.toList.filterMap (·.move)

/-- MOVE_DEADLINE_EXPIRY: the deadline of a move that has not completed expires, and `PATH` decides. -/
def doMoveDeadlineExpiry (o : Origin) (hanks : Nat) (readDone : Bool) (s : State) : State :=
  match (s.skeins.toList.flatMap Skein.moves).find? (fun m => m.origin = o) with
  | none => s
  | some m =>
    if m.deadline = 0 ∨ m.missed ∨ !s.serving then s else
    let hit (x : Move) : Move := if x = m then x.miss hanks readDone else x
    let x := s.q m.queue
    { (s.setQ m.queue { x with miss := satAdd 24 x.miss }) with skeins := vecOf 8 fun k => (s.sk k).mapMoves hit }

/-- The command MOVE_DEADLINE_EXPIRY (08 R213). -/
def execMoveDeadlineExpiry (o : Origin) (hanks : Nat) (readDone : Bool) (s : State) : Res :=
  .next (doMoveDeadlineExpiry o hanks readDone s)

end Sys2Proof.Machine
end

