-- ==== Sys2Proof/Machine/Creel.lean ====
section
/-!
DEFINITION. Creel operations (08 R218 to R225, 12 R319): BIND, FLUSH, RELEASE, PIN, UNPIN, evictions and
background fills.
-/

namespace Sys2Proof.Machine

/-! ## Fields (12 R319) -/

structure CreelBody where
  backing : Nat
  skein   : Fin 8
  slot    : Fin 64
  leas    : Nat
  fill    : Bool
  pin     : Bool
  drop    : Bool
  hint    : Hint

def creelBody (raw : List Byte) : CreelBody :=
  { backing := word64 raw 0x10, skein := ⟨fieldAt raw 0x20 0 2 % 8, Nat.mod_lt _ (by omega)⟩
    slot := ⟨fieldAt raw 0x20 8 13 % 64, Nat.mod_lt _ (by omega)⟩, leas := fieldAt raw 0x20 16 24
    fill := fieldAt raw 0x20 25 25 == 1, pin := fieldAt raw 0x20 26 26 == 1, drop := fieldAt raw 0x20 27 27 == 1
    hint := match fieldAt raw 0x28 16 17 with
      | 0 => .stream
      | n => hintOf n }

/-- The reserved bits of a creel operation; fields of BIND are 0 in the others. -/
def creelClean (raw : List Byte) (bind : Bool) : Bool :=
  hdrClean raw && hdrNcont raw == 0 &&
  zeros raw [(0x28, 4, 15), (0x28, 18, 63), (0x18, 0, 63), (0x30, 0, 63), (0x38, 0, 63), (0x20, 3, 7), (0x20, 14, 15),
    (0x20, 28, 63)] &&
  (bind || zeros raw [(0x10, 0, 63), (0x20, 0, 2), (0x20, 16, 24)])

/-! ## Leas -/

def Skein.leasUsed (k : Skein) : Nat := (k.bindings.map (·.leas)).sum
def Skein.leasFree (k : Skein) : Nat := 256 - k.leasUsed
def Skein.live (k : Skein) : List Binding := k.bindings.filter fun b => !b.evicting
def Skein.heldBy (k : Skein) (q : Fin 4096) : Nat := ((k.live.filter fun b => b.queue = q).map (·.leas)).sum
def Skein.pinnedLeas (k : Skein) : Nat := ((k.live.filter fun b => b.pinned).map (·.leas)).sum
def Skein.pinnedBy (k : Skein) (q : Fin 4096) : Nat :=
  ((k.live.filter fun b => b.pinned && b.queue == q).map (·.leas)).sum

/-- The binding a queue names by a slot, in any skein (08 R218). -/
def slotBinding (s : State) (q : Fin 4096) (slot : Fin 64) : Option (Fin 8 × Binding) :=
  (List.finRange 8).findSome? fun k =>
    ((s.sk k).live.find? fun b => b.queue = q ∧ b.slot = slot).map fun b => (k, b)

/-- A binding of a skein replaced, or removed. -/
def setBinding (s : State) (k : Fin 8) (b : Binding) (x : Option Binding) : State :=
  s.setSk k { s.sk k with bindings := (s.sk k).bindings.filterMap fun c => if c = b then x else some c }

/-! ## Write-back (08 R220, R222) -/

def dirtySectors (b : Binding) : List Nat :=
  (List.range b.sectors.length).filter fun i => b.sectors.getD i .invalid == .dirty

/-- Bursts of which a binding holds every byte: its write-back clears their poison in memory (09 R235). -/
def wholeBursts (b : Binding) : List Nat :=
  (b.data.map fun c => c.1 / 32).dedup.filter fun n => (List.range 32).all fun i => (overlayGet b.data (32 * n + i)).isSome

/-- Poison after a write-back: whole bursts lose theirs, and a burst that was spoilt in the creel takes its poison to
memory (09 R234, R235). -/
def poisonBack (m : Mem) (b : Binding) : Mem :=
  let mine (n : Nat) : Bool := b.data.any fun c => c.1 / 32 == n
  let spoilt := m.creelPoison.filter mine
  let whole := wholeBursts b
  { m with
    poison := spoilt ++ m.poison.filter fun n => !whole.contains n && !spoilt.contains n
    creelPoison := m.creelPoison.filter fun n => !mine n }

/-- The dirty sectors of a binding written back to stacked memory through the reel cache: its data and
its traffic. The binding itself is not changed here. -/
def writeBack (s : State) (k : Fin 8) (b : Binding) (h : Hint) : State :=
  let cells := b.data.foldl (fun m c => cellSet m c.1 (c.2 ^^^ farBase s.mem c.1)) s.mem.cells
  let s := s.setMem (poisonBack { s.mem with cells } b)
  let s := ((dirtySectors b).flatMap (sectorLines s.mem b)).foldl (fun s kl => reelLine s kl h true) s
  s.setSk k { s.sk k with wbBytes := (s.sk k).wbBytes + 4096 * (dirtySectors b).length }

/-- A binding with no dirty sector left. -/
def Binding.cleaned (b : Binding) : Binding :=
  { b with data := [], sectors := b.sectors.map fun x => if x = .dirty then .clean else x }

/-- A FLUSH of a binding (08 R220). -/
def flushBinding (s : State) (k : Fin 8) (b : Binding) (h : Hint) : State :=
  setBinding (writeBack s k b h) k b (some b.cleaned)

/-! ## Eviction (08 R224, R225) -/

/-- A binding enters EVICTING and leaves its queue's slot; the eviction is counted against its queue. `evictor`: the BIND that
evicts it. -/
def evict (s : State) (k : Fin 8) (b : Binding) (blocks : List (Fin 4096 × Nat)) (evictor : Option (Fin 4096 × Nat)) : State :=
  let s := setBinding s k b (some { b with evicting := true, blocks, evictor })
  let x := s.q b.queue
  let s := s.setQ b.queue { x with evicted := satAdd 16 x.evicted }
  s.setSk k { s.sk k with evictions := satAdd 32 (s.sk k).evictions }

/-- A BIND in flight completes. -/
def bindEnds (s : State) (k : Fin 8) (w : BindWait) (st : Status) : State :=
  ends (s.setSk k { s.sk k with bindWait := (s.sk k).bindWait.filter fun x => !(x.queue == w.queue && x.seq == w.seq) })
    w.queue w.seq st

/-- Whether a binding must be evicted: its pages lose their mapping, change their output or lose R
(11 R299). -/
def bindingLost (new : Trans) (b : Binding) : Bool :=
  b.segs.any fun g => (List.range (g.len / 0x10000)).any fun i =>
    match translate new .read (g.va + i * 0x10000) with
    | .ok (pa, _) => pa != g.pa + i * 0x10000
    | .error _ => true

/-- A binding put into a list that rises by age. -/
def insertByAge (b : Binding) (l : List Binding) : List Binding :=
  l.takeWhile (fun x => decide (x.age ≤ b.age)) ++ b :: l.dropWhile fun x => decide (x.age ≤ b.age)

/-- The leas allocated (08 R224 step 4). A tenant binding whose backing a table update has taken away while its BIND
waited is live and is evicted at once (11 R299). -/
def bindAllocate (s : State) (k : Fin 8) (w : BindWait) (c : CreelBody) : State :=
  let b : Binding :=
    { queue := w.queue, slot := c.slot, backing := c.backing, segs := w.segs, leas := c.leas, fill := c.fill
      pinned := c.pin, hint := c.hint, sectors := List.replicate (16 * c.leas) .invalid, data := [], age := w.age }
  let s := bindEnds (s.setSk k { s.sk k with bindings := insertByAge b (s.sk k).bindings }) k w .ok
  if queueOwner w.queue = .tenant ∧ bindingLost s.trans b then evict s k b w.blocks none else s

/-- The victim of step 3: the oldest unpinned binding of a queue over its quota, else the oldest. -/
def victim (s : State) (k : Fin 8) : Option Binding :=
  let free := (s.sk k).live.filter fun b => !b.pinned
  match free.find? fun b => decide ((s.q b.queue).leas < (s.sk k).heldBy b.queue) with
  | some b => some b
  | none => free.head?

/-- The parts of a range within each 4 KiB unit. -/
def unitsOf (a n : Nat) : List (Nat × Nat) :=
  (List.range ((a + n + 4095) / 4096 - a / 4096)).map fun i =>
    let lo := max a ((a / 4096 + i) * 4096)
    (lo, min (a + n) ((a / 4096 + i + 1) * 4096) - lo)

/-- Whether two physical ranges share a byte, under any of its names (09 R231). -/
def sameBytes (m : Mem) (a n b k : Nat) : Bool :=
  (unitsOf a n).any fun u => overlap u.1 u.2 b k ||
    match locKey (physLoc m u.1) with
    | some key => overlap key u.2 b k || ((ilOf m key).map fun x => overlap x u.2 b k).getD false
    | none => false

/-- Whether captured ranges share a byte. -/
def segsMeet (m : Mem) (xs ys : List Seg) : Bool := xs.any fun g => ys.any fun h => sameBytes m g.pa g.len h.pa h.len

/-- Whether a backing overlaps a plane of running distaff work (10 R268). -/
def overlapsPlane (s : State) (segs : List Seg) : Bool :=
  s.sweeps.any fun w => w.parts.any fun p => segsMeet s.mem segs p.segs

/-- Whether a resolved backing lies in stacked memory (08 R218). -/
def allStacked (s : State) (segs : List Seg) : Bool :=
  segs.all fun g => (probePoints g.pa g.len).all fun a => match physLoc s.mem a with
    | .stacked _ => true
    | _ => false

/-- Bindings of every skein. -/
def allBindings (s : State) : List Binding := s.skeins.toList.flatMap (·.bindings)

/-- Whether a resolved backing overlaps a live binding of any queue in any skein (08 R219). -/
def overlapsLive (s : State) (segs : List Seg) : Bool :=
  (allBindings s).any fun b => !b.evicting && segsMeet s.mem segs b.segs

/-- Whether a resolved backing overlaps a binding whose write-back still runs: a BIND waits for it, or the data of two
bindings of one byte could pass each other (08 R221, log 141). -/
def overlapsEvicting (s : State) (segs : List Seg) : Bool :=
  (allBindings s).any fun b => b.evicting && segsMeet s.mem segs b.segs

/-- Whether a pin of `n` more leas passes the queue's pin limit or the skein's 224 leas (08 R223). -/
def pinRefused (s : State) (k : Fin 8) (q : Fin 4096) (n : Nat) : Bool :=
  decide ((s.q q).pin < (s.sk k).pinnedBy q + n) || decide (224 < (s.sk k).pinnedLeas + n)

/-- Whether a binding that a BIND evicts is still written back: the BIND waits for it (08 R225). -/
def evictsStill (k : Skein) (w : BindWait) : Bool := k.bindings.any fun b => b.evicting && b.evictor == some (w.queue, w.seq)

/-- A BIND goes on (08 R219, R224): what refuses it is looked at whenever it goes on, since another BIND may have gone
first. It waits while an eviction of the skein runs or one of its own backing, and while distaff work runs over its
backing. -/
def bindStep : Nat → State → Fin 8 → BindWait → CreelBody → State
  | 0, s, _, _, _ => s
  | fuel + 1, s, k, w, c =>
    let sk := s.sk k
    if !allStacked s w.segs || (slotBinding s w.queue c.slot).isSome || overlapsLive s w.segs then bindEnds s k w .access
    else if decide ((s.q w.queue).leas < c.leas) || (c.pin && pinRefused s k w.queue c.leas) then bindEnds s k w .quota
    else if overlapsPlane s w.segs || overlapsEvicting s w.segs then s
    else if (s.q w.queue).leas < sk.heldBy w.queue + c.leas then
      match sk.live.find? fun b => b.queue = w.queue ∧ !b.pinned with
      | some b => bindStep fuel (evict s k b [] (some (w.queue, w.seq))) k w c
      | none => bindEnds s k w .quota
    else if c.leas ≤ sk.leasFree then (if evictsStill sk w then s else bindAllocate s k w c)
    else if sk.bindings.any (·.evicting) then s
    else match victim s k with
      | some b => evict s k b [] (some (w.queue, w.seq))
      | none => bindEnds s k w .quota

/-- The waiting BINDs of a skein go on, oldest first. -/
def bindRetry (s : State) (k : Fin 8) : State :=
  (s.sk k).bindWait.foldl (fun s w =>
    match descOf s w.queue w.seq with
    | some d => bindStep 257 s k w (creelBody d.raw)
    | none => s) s

/-- The waiting BINDs of every skein go on. -/
def bindRetryAll (s : State) : State := (List.finRange 8).foldl bindRetry s

/-- The next descriptor of a queue, if it is a MOVE of operation `n`. -/
def creelTurn (s : State) (q : Fin 4096) (n : Nat) : Option Desc :=
  (mayDispatch s q 1).filter fun d => fieldAt d.raw 0x28 0 3 == n

/-- BIND (08 R218, R219, R224). -/
def doBind (q : Fin 4096) (s : State) : State :=
  match creelTurn s q 3 with
  | none => s
  | some d =>
    let c := creelBody d.raw
    if !creelClean d.raw true then failDesc s q d.seq .format
    else if c.backing % 0x10000 != 0 || c.leas = 0 || decide (256 < c.leas) then failDesc s q d.seq .access
    else
      let k := if s.mgmt.phase = .warmup then 0 else c.skein
      match resolveDesc s q false .read c.backing (c.leas * 0x10000) with
      | .ok segs =>
        if !allStacked s segs then failDesc s q d.seq .access else
        let s := startDesc (lookUpSegs s k (queueOwner q) segs) q d.seq
        let w : BindWait := { queue := q, seq := d.seq, segs, age := (s.sk k).bindSeq }
        let s := s.setSk k { s.sk k with bindWait := (s.sk k).bindWait ++ [w], bindSeq := w.age + 1 }
        bindStep 257 s k w c
      | r => failDesc (lookUpReach s k r) q d.seq .access

/-- The command BIND. -/
def execBind (q : Fin 4096) (s : State) : Res := .next (doBind q s)

/-- EVICTION_COMPLETE: the oldest eviction of a skein ends; its leas return to the pool (08 R225). -/
def doEvictionComplete (k : Fin 8) (s : State) : State :=
  if !s.serving then s else
  match (s.sk k).bindings.find? (·.evicting) with
  | none => s
  | some b => bindRetryAll (setBinding (writeBack s k b b.hint) k b none)

/-- The command EVICTION_COMPLETE. -/
def execEvictionComplete (k : Fin 8) (s : State) : Res := .next (doEvictionComplete k s)

/-- BIND_FILL: the background fill reaches a sector of a binding (08 R220). -/
def doBindFill (q : Fin 4096) (slot : Fin 64) (sector : Nat) (s : State) : State :=
  if !s.serving then s else
  match slotBinding s q slot with
  | none => s
  | some (k, b) =>
    if b.fill ∧ b.sectors[sector]? = some .invalid then
      let s := (sectorLines s.mem b sector).foldl (fun s kl => reelLine s kl .none false) s
      setBinding s k b (some (b.fetched [sector]))
    else s

/-- The command BIND_FILL. -/
def execBindFill (q : Fin 4096) (slot : Fin 64) (sector : Nat) (s : State) : Res := .next (doBindFill q slot sector s)

/-- FLUSH (08 R218): an empty slot completes OK and does nothing. -/
def doFlush (q : Fin 4096) (s : State) : State :=
  match creelTurn s q 4 with
  | none => s
  | some d =>
    if !creelClean d.raw false then failDesc s q d.seq .format else
    let c := creelBody d.raw
    let s := ends (startDesc s q d.seq) q d.seq .ok
    match slotBinding s q c.slot with
    | some (k, b) => flushBinding s k b c.hint
    | none => s

/-- The command FLUSH. -/
def execFlush (q : Fin 4096) (s : State) : Res := .next (doFlush q s)

/-- MOVE_RELEASE (08 R218, R221). -/
def doMoveRelease (q : Fin 4096) (s : State) : State :=
  match creelTurn s q 5 with
  | none => s
  | some d =>
    if !creelClean d.raw false then failDesc s q d.seq .format else
    let c := creelBody d.raw
    let s := ends (startDesc s q d.seq) q d.seq .ok
    match slotBinding s q c.slot with
    | some (k, b) => bindRetryAll (settleCreel (setBinding (if c.drop then s else writeBack s k b c.hint) k b none))
    | none => s

/-- The command MOVE_RELEASE. -/
def execMoveRelease (q : Fin 4096) (s : State) : Res := .next (doMoveRelease q s)

/-- PIN (08 R218, R223). -/
def doPin (q : Fin 4096) (s : State) : State :=
  match creelTurn s q 6 with
  | none => s
  | some d =>
    if !creelClean d.raw false then failDesc s q d.seq .format else
    let c := creelBody d.raw
    match slotBinding s q c.slot with
    | none => failDesc s q d.seq .ok
    | some (k, b) =>
      if !b.pinned && pinRefused s k q b.leas then
        failDesc s q d.seq .quota
      else setBinding (failDesc s q d.seq .ok) k b (some { b with pinned := true })

/-- The command PIN. -/
def execPin (q : Fin 4096) (s : State) : Res := .next (doPin q s)

/-- UNPIN (08 R218). -/
def doUnpin (q : Fin 4096) (s : State) : State :=
  match creelTurn s q 7 with
  | none => s
  | some d =>
    if !creelClean d.raw false then failDesc s q d.seq .format else
    let s := failDesc s q d.seq .ok
    match slotBinding s q (creelBody d.raw).slot with
    | some (k, b) => setBinding s k b (some { b with pinned := false })
    | none => s

/-- The command UNPIN. -/
def execUnpin (q : Fin 4096) (s : State) : Res := .next (doUnpin q s)

/-- Every binding of the device written back and removed (08 R222). -/
def dropBindings (s : State) : State :=
  (List.finRange 8).foldl (fun s k =>
    let s := (s.sk k).bindings.foldl (fun s b => writeBack s k b b.hint) s
    s.setSk k { s.sk k with bindings := [] }) s

end Sys2Proof.Machine
end

