-- ==== Sys2Proof/Machine/QueueOps.lean ====
section
/-!
DEFINITION. The queue manager's own descriptors and orders (12 R311, R312, R328 to R332, R341): WAIT, FENCE,
MARK, RESUME, the completion of a descriptor, RELEASE, RESET_SEQ, the commit of a queue's group.
-/

namespace Sys2Proof.Machine

/-! ## WAIT and FENCE (12 R328) -/

/-- Whether a running WAIT is satisfied: the count of `WQUEUE` against `TARGET`. -/
def waitMet (s : State) (d : Desc) : Bool :=
  decide (word64 d.raw 0x18 ≤ (s.q ⟨fieldAt d.raw 0x10 0 11 % 4096, Nat.mod_lt _ (by omega)⟩).lc)

/-- A descriptor finished OK. -/
def Desc.finishedOk (d : Desc) (v : Nat) : Desc :=
  { d with st := .finished .ok noFlags 0 0 (BitVec.ofNat 64 v) }

/-- A descriptor after the counts have changed: a running WAIT whose count has been reached finishes. -/
def settleDesc (s : State) (d : Desc) : Desc :=
  if d.st = .running ∧ hdrType d.raw = 6 ∧ waitMet s d = true then d.finishedOk 0 else d

/-- Every running WAIT whose count has been reached finishes. -/
def settleWaits (s : State) : State :=
  { s with queues := s.queues.map fun x => { x with descs := x.descs.map (settleDesc s) } }

/-- The dirty sectors of a queue's bindings written back, as a FLUSH of each slot would (12 R328). -/
def flushQueue (s : State) (q : Fin 4096) : State :=
  (List.finRange 64).foldl (fun s slot =>
    match slotBinding s q slot with
    | some (k, b) => flushBinding s k b .stream
    | none => s) s

/-- A FENCE that has become the oldest descriptor of its queue finishes. -/
def settleFence (s : State) (q : Fin 4096) : State :=
  match (s.q q).descs.head? with
  | some d =>
    if d.st = .running ∧ hdrType d.raw = 7 then
      ends (if fieldAt d.raw 0x10 0 0 = 1 then flushQueue s q else s) q d.seq .ok
    else s
  | none => s

/-- WAIT (12 R328). -/
def doWait (q : Fin 4096) (s : State) : State :=
  match mayDispatch s q 6 with
  | none => s
  | some d =>
    if !hdrClean d.raw || hdrNcont d.raw != 0 ||
        !zeros d.raw [(0x10, 12, 63), (0x20, 0, 63), (0x28, 0, 63), (0x30, 0, 63), (0x38, 0, 63)] then
      failDesc s q d.seq .format
    else if queueOwner ⟨fieldAt d.raw 0x10 0 11 % 4096, Nat.mod_lt _ (by omega)⟩ ≠ queueOwner q then
      failDesc s q d.seq .refused
    else settleWaits (startDesc s q d.seq)

/-- The command WAIT. -/
def execWait (q : Fin 4096) (s : State) : Res := .next (doWait q s)

/-- FENCE (12 R328). -/
def doFence (q : Fin 4096) (s : State) : State :=
  match mayDispatch s q 7 with
  | none => s
  | some d =>
    if !hdrClean d.raw || hdrNcont d.raw != 0 ||
        !zeros d.raw [(0x10, 1, 63), (0x18, 0, 63), (0x20, 0, 63), (0x28, 0, 63), (0x30, 0, 63), (0x38, 0, 63)] then
      failDesc s q d.seq .format
    else settleFence (startDesc s q d.seq) q

/-- The command FENCE. -/
def execFence (q : Fin 4096) (s : State) : Res := .next (doFence q s)

/-! ## MARK and RESUME -/

/-- The next descriptor of a queue when its `TYPE` is reserved (12 R316, R322). -/
def reservedTurn (s : State) (q : Fin 4096) : Option Desc :=
  [11, 12, 13, 14, 15].findSome? (mayDispatch s q)

/-- MARK (12 R328); a descriptor of a reserved `TYPE` completes with FORMAT. -/
def doMark (q : Fin 4096) (s : State) : State :=
  match reservedTurn s q with
  | some d => failDesc s q d.seq .format
  | none =>
    match mayDispatch s q 8 with
    | none => s
    | some d =>
      let tag := fieldAt d.raw 0x10 0 31
      let s := startDesc s q d.seq
      if !hdrClean d.raw || hdrNcont d.raw != 0 ||
          !zeros d.raw [(0x10, 33, 63), (0x20, 0, 63), (0x28, 0, 63), (0x30, 0, 63), (0x38, 0, 63)] then
        finish s q d.seq .format noFlags 0 0 tag
      else
        let s := finish s q d.seq .ok noFlags 0 0 tag
        if fieldAt d.raw 0x10 32 32 = 1 then
          let x := s.q q
          s.setQ q { x with cfg := { x.cfg with seed := BitVec.ofNat 64 (word64 d.raw 0x18) } }
        else s

/-- The command MARK. -/
def execMark (q : Fin 4096) (s : State) : Res := .next (doMark q s)

/-- RESUME (11 R305, 12 R310): a fault of the named queue is resolved or abandoned. -/
def doResume (q : Fin 4096) (s : State) : State :=
  match mayDispatch s q 10 with
  | none => s
  | some d =>
    let id := fieldAt d.raw 0x18 0 31
    let rq : Fin 4096 := ⟨fieldAt d.raw 0x10 0 11 % 4096, Nat.mod_lt _ (by omega)⟩
    let s := startDesc s q d.seq
    if !hdrClean d.raw || hdrNcont d.raw != 0 ||
        !zeros d.raw [(0x10, 12, 31), (0x10, 33, 63), (0x18, 32, 63), (0x20, 0, 63), (0x28, 0, 63), (0x30, 0, 63),
          (0x38, 0, 63)] then
      finish s q d.seq .format noFlags 0 0 id
    else if queueOwner q ≠ .controller ∧ queueOwner rq ≠ queueOwner q then finish s q d.seq .refused noFlags 0 0 id
    else match s.trans.faults.find? fun f => f.id = id ∧ f.queue = rq with
      | none => finish s q d.seq .refused noFlags 0 0 id
      | some f =>
        let s := finish s q d.seq .ok noFlags 0 0 id
        if fieldAt d.raw 0x10 32 32 = 1 then abandonWork s f .page else resumeWork s f

/-- The command RESUME. -/
def execResume (q : Fin 4096) (s : State) : Res := .next (doResume q s)

/-! ## Completion (12 R329, R330; 17 R464) -/

/-- An entry of the phase table moves one eighth of the way toward a measurement, rounded toward it by
flooring the difference (log 30). -/
def eighth (w old new : Nat) : Nat :=
  natOf (((old : Int) + ((min new (2 ^ w - 1) : Nat) - (old : Int)) / 8))

/-- What a tagged descriptor's completion teaches (17 R464). -/
def learn (s : State) (phase spin stack net : Nat) : State :=
  if h : 0 < phase ∧ phase < 256 then
    let i : Fin 256 := ⟨phase, h.2⟩
    let e := s.pwr.phases.get i
    let e' : PhaseEnt :=
      { spin := eighth 16 e.spin spin, stack := eighth 12 e.stack stack, net := eighth 12 e.net net
        samples := satAdd 16 e.samples }
    s.setPwr { s.pwr with phases := upd s.pwr.phases i e' }
  else s

/-- DESCRIPTOR_COMPLETE: the oldest descriptor of a queue, once finished, is counted and its record written;
a FENCE that has become the oldest and WAITs on the count finish. `spin`, `stack` and `net` are what the
treadle measured of its work. Nothing is counted while the mill die stands, nor of a tenant queue before full service
(12 R340, 18 R491). -/
def doDescriptorComplete (q : Fin 4096) (spin stack net : Nat) (s : State) : State :=
  if !s.worksFor q then s else
  match (s.q q).descs.head? with
  | none => s
  | some d =>
    match d.st with
    | .finished st flags code detail value =>
      let s := countDesc s q d st flags code detail value
      let s := learn s (hdrPhase d.raw) spin stack net
      settleWaits (settleFence s q)
    | _ => s

/-- The command DESCRIPTOR_COMPLETE (12 R330). -/
def execDescriptorComplete (q : Fin 4096) (spin stack net : Nat) (s : State) : Res :=
  .next (doDescriptorComplete q spin stack net s)

/-! ## Orders of the lease holder (12 R311, R312, R332) -/

/-- QUEUE_RELEASE (12 R332). -/
def doQueueRelease (q : Fin 4096) (s : State) : State := releaseQueue s q

/-- The command QUEUE_RELEASE. -/
def execQueueRelease (q : Fin 4096) (s : State) : Res := .next (doQueueRelease q s)

/-- RESET_SEQ: the counters of an OFF queue become 0; ignored in any other state (12 R311). -/
def doResetSeq (q : Fin 4096) (s : State) : State :=
  let x := s.q q
  if x.st = .off then s.setQ q { x with la := 0, lc := 0, head := 0, tail := 0, bad := 0, rings := [] } else s

/-- The command RESET_SEQ. -/
def execResetSeq (q : Fin 4096) (s : State) : Res := .next (doResetSeq q s)

/-- Fields of `QUEUE_RING`, `QUEUE_CFG` and `QUEUE_SEED` (12 R311). -/
def qcfgOf (ring cfg seed : Word) : QCfg :=
  let f (w : Word) (lo n : Nat) : Nat := bitsOf w.toNat lo n
  { ringOff := f ring 0 30, cplOff := f ring 32 30, log2n := f cfg 0 5, prio := f cfg 5 3
    enable := f cfg 8 1 == 1, stopOnErr := f cfg 9 1 == 1, seed }

/-- The words of a queue's staged group in effect. -/
def QCfg.ringWord (c : QCfg) : Word := BitVec.ofNat 64 (fld c.ringOff 0 30 + fld c.cplOff 32 30)
def QCfg.cfgWord (c : QCfg) : Word :=
  BitVec.ofNat 64 (fld c.log2n 0 5 + fld c.prio 5 3 + fld (b2n c.enable) 8 1 + fld (b2n c.stopOnErr) 9 1)

/-- The two rings of a configuration as (offset, bytes). -/
def QCfg.rings (c : QCfg) : List (Nat × Nat) := [(c.ringOff, c.n * 64), (c.cplOff, c.n * 32)]

/-- Bytes of the ring area that are backed: 16 MiB before full service, be the device stopped or not (12 R313). -/
def ringLimit (s : State) : Nat :=
  match if s.mgmt.phase = .stopped then s.mgmt.resume else s.mgmt.phase with
  | .full => 0x40000000
  | _ => 0x1000000

/-- The check of a commit of a queue's group (12 R312). -/
def queueGroupOk (s : State) (q : Fin 4096) (c : QCfg) : Bool :=
  let x := s.q q
  let geom := c.ringOff != x.cfg.ringOff || c.cplOff != x.cfg.cplOff || c.log2n != x.cfg.log2n
  decide (6 ≤ c.log2n) && decide (c.log2n ≤ 16) &&
  c.ringOff % (c.n * 64) == 0 && c.cplOff % (c.n * 32) == 0 &&
  c.rings.all (fun r => decide (r.1 + r.2 ≤ ringLimit s)) &&
  (!c.enable ||
    (!overlap c.ringOff (c.n * 64) c.cplOff (c.n * 32) &&
     (List.finRange 4096).all fun o => o == q || !(s.q o).cfg.enable ||
       c.rings.all fun r => (s.q o).cfg.rings.all fun t => !overlap r.1 r.2 t.1 t.2)) &&
  !(geom && x.cfg.enable && (x.head != x.tail || x.la != x.lc)) &&
  !(x.cfg.enable && !c.enable && !x.descs.isEmpty) &&
  !(c.enable && decide (16 ≤ q.val) && !s.sec.tenancyOn)

/-- The state of a queue after a commit. -/
def qstAfter (st : QState) (enable : Bool) : QState :=
  match st, enable with
  | .off, true => .opened
  | .draining, _ => .draining
  | _, false => .off
  | st, true => st

/-- QUEUE_COMMIT (12 R312, 00 R13). -/
def doQueueCommit (q : Fin 4096) (s : State) : State :=
  let x := s.q q
  let c := qcfgOf (stagedOr x.staged 0x00 x.cfg.ringWord) (stagedOr x.staged 0x08 x.cfg.cfgWord)
    (stagedOr x.staged 0x10 x.cfg.seed)
  if x.staged = [] then s.setQ q { x with result := .ok }
  else if queueGroupOk s q c then
    s.setQ q { x with cfg := c, staged := [], result := .ok, st := qstAfter x.st c.enable }
  else s.setQ q { x with staged := [], result := .refused }

/-- The command QUEUE_COMMIT. -/
def execQueueCommit (q : Fin 4096) (s : State) : Res := .next (doQueueCommit q s)

/-! ## Acceptance goes on (12 R326, R341) -/

/-- Whether a queue has entries to read once its pause ends. -/
def wantsAccept (s : State) (q : Fin 4096) : Bool :=
  queueAccepts s q && decide ((s.q q).inflight < (s.q q).cfg.n) && (headEntries s q).isSome

/-- Whether no queue of a higher priority class, or of a lower number in the class, comes first. -/
def acceptTurn (s : State) (q : Fin 4096) : Bool :=
  (List.finRange 4096).all fun o =>
    o == q || !wantsAccept s o ||
      decide ((s.q o).cfg.prio < (s.q q).cfg.prio) || ((s.q o).cfg.prio == (s.q q).cfg.prio && decide (q.val < o.val))

/-- ACCEPTANCE_RESUME: acceptance of a queue goes on when its pause has ended and its turn has come. -/
def doAcceptanceResume (q : Fin 4096) (s : State) : State :=
  if wantsAccept s q && acceptTurn s q then runAcceptance s q else s

/-- The command ACCEPTANCE_RESUME. -/
def execAcceptanceResume (q : Fin 4096) (s : State) : Res := .next (doAcceptanceResume q s)

/-- The lowest-numbered stack in service other than one given, where there is one. -/
def otherStack (s : State) (k : Fin 8) : Option (Fin 8) :=
  (List.finRange 8).find? fun j => j != k && (s.mem.stack.get j).up && !(s.mem.stack.get j).lost

/-- MIRROR_REBUILD_COMPLETE: the mirror of a lost stack stands on another one (12 R341, 18 R510). With no other stack in
service the rebuild goes on: acceptance waits for two copies on two stacks. -/
def doMirrorRebuildComplete (s : State) : State :=
  if !s.jrn.rebuilding then s else
  let j := s.jrn
  let gone (k : Fin 8) : Bool := (s.mem.stack.get k).lost
  match otherStack s (if gone j.mirrorA then j.mirrorB else j.mirrorA) with
  | none => s
  | some k =>
    record { s with jrn :=
      { j with mirrorA := if gone j.mirrorA then k else j.mirrorA, mirrorB := if gone j.mirrorB then k else j.mirrorB
               rebuilding := false } } 0x0E none 4 (if gone j.mirrorA ∨ gone j.mirrorB then k.val else j.mirrorB.val) [1]

/-- The command MIRROR_REBUILD_COMPLETE. -/
def execMirrorRebuildComplete (s : State) : Res := .next (doMirrorRebuildComplete s)

end Sys2Proof.Machine
end

