-- ==== Sys2Proof/Machine/Updates.lean ====
section
/-!
DEFINITION. Translation updates (11 R292 to R300): the records, the checks of TABLE_UPDATE, the apply point
and the completion.
-/

namespace Sys2Proof.Machine

/-! ## Records (11 R295, R296) -/

/-- Page size of a `SIZE` code. -/
def pageSizeOf (n : Nat) : Nat :=
  match n with
  | 0 => 0x10000
  | 1 => 0x200000
  | _ => 0x40000000

/-- Record `i` of a TABLE_UPDATE (12 R321), as its two words. -/
def recordAt (raw : List Byte) (i : Nat) : Nat × Nat := (word64 raw (64 + 16 * i), word64 raw (64 + 16 * i + 8))

/-- A record decoded. -/
def trecOf (w : Nat × Nat) : TRec :=
  { inp := bitsOf w.1 16 48 * 0x10000, out := bitsOf w.2 16 36 * 0x10000, size := pageSizeOf (bitsOf w.1 0 2)
    count := bitsOf w.2 0 16, r := bitsOf w.1 2 1 == 1, w := bitsOf w.1 3 1 == 1, x := bitsOf w.1 4 1 == 1
    rmt := bitsOf w.1 5 1 == 1, valid := bitsOf w.1 6 1 == 1 }

/-- The format checks of a record for a stage (11 R295, R297). -/
def recordOk (stage : Nat) (w : Nat × Nat) : Bool :=
  let r := trecOf w
  bitsOf w.1 0 2 != 3 && bitsOf w.1 7 9 == 0 && bitsOf w.2 52 12 == 0 && r.count != 0 &&
  r.inp % r.size == 0 && r.out % r.size == 0 && (r.valid || r.out == 0) && !(stage == 2 && r.rmt) &&
  decide (r.inp + r.count * r.size ≤ (if stage = 1 then 2 ^ 48 else 2 ^ 52)) &&
  decide (r.out + r.count * r.size ≤ 2 ^ 52)

/-- The pages a record maps. -/
def TRec.pages (r : TRec) : List Page :=
  if r.valid then (List.range r.count).map fun i =>
    ⟨r.inp + i * r.size, r.out + i * r.size, r.size, r.r, r.w, r.x, r.rmt⟩
  else []

/-- Whether a page lies wholly in the input range of a record. -/
def TRec.covers (r : TRec) (g : Page) : Bool :=
  decide (r.inp ≤ g.inp) && decide (g.inp + g.size ≤ r.inp + r.count * r.size)

/-- A page split into pages of a smaller size (11 R296). -/
def Page.split (g : Page) (size : Nat) : List Page :=
  (List.range (g.size / size)).map fun i =>
    { g with inp := g.inp + i * size, out := g.out + i * size, size }

/-- The pages of a stage after a record applies (11 R296). -/
def applyRec (ps : List Page) (r : TRec) : List Page :=
  (ps.flatMap fun g =>
    if !overlap g.inp g.size r.inp (r.count * r.size) then [g]
    else (if r.size < g.size then g.split r.size else [g]).filter fun h => !r.covers h) ++ r.pages

/-- The pages after every record, in order. -/
def applyRecs (ps : List Page) (rs : List TRec) : List Page := rs.foldl applyRec ps

/-! ## The checks (11 R293, R297) -/

/-- Whether an update grants what an input address did not have (11 R293). -/
def widens (old new : List Page) : Bool :=
  new.any fun g => (List.range (g.size / 0x10000)).any fun i =>
    match findPage old (g.inp + i * 0x10000) with
    | none => true
    | some o => (g.r && !o.r) || (g.w && !o.w) || (g.x && !o.x)

/-- The lodged authorisation that matches an update (11 R293, 16 R440). -/
def lodgedFor (s : State) (auth gen : Nat) (raw : List Byte) : Option Lodged :=
  s.sec.lodged.find? fun l => l.aseq = auth ∧ l.gen = gen ∧ l.hash = Config.sha384 raw

/-- Whether a physical address is one that full service maps above the reserve: an update during warm-up may name
it (09 R233, 11 R309). -/
def warmOutput (s : State) (a : Nat) : Bool :=
  s.mgmt.phase == .warmup &&
  ((decide (0x1100000000 ≤ a) && decide (a < 0x7000000000)) ||
   (decide (aliasBase 0 ≤ a) && decide (a < aliasBase 8) &&
    decide (512 * mib ≤ a % 0x1000000000) && decide (a % 0x1000000000 < 0xC00000000)))

/-- Whether the stage-2 outputs of a record may be mapped (11 R290, R297). -/
def outputsOk (s : State) (r : TRec) : Bool :=
  !r.valid || (probePoints r.out (r.count * r.size)).all fun a => tenantReaches s a || warmOutput s a

/-- Generation of a stage in effect. -/
def genOf (s : State) (stage : Nat) : Word := if stage = 1 then s.trans.gen1 else s.trans.gen2
/-- Pages of a stage in effect. -/
def pagesOf (s : State) (stage : Nat) : List Page := if stage = 1 then s.trans.s1 else s.trans.s2

/-- The update a descriptor carries. -/
def updateOf (q : Fin 4096) (d : Desc) : TUpdate :=
  let n := fieldAt d.raw 0x10 8 14
  { queue := q, seq := d.seq, stage := fieldAt d.raw 0x10 0 1, gen := word64 d.raw 0x18
    recs := (List.range n).map fun i => trecOf (recordAt d.raw i)
    auth := word64 d.raw 0x20, raw := (d.raw.drop 64).take (16 * n) }

/-- The form of a TABLE_UPDATE (12 R321, R322; 11 R297). -/
def updateFormOk (raw : List Byte) : Bool :=
  let stage := fieldAt raw 0x10 0 1
  let n := fieldAt raw 0x10 8 14
  hdrClean raw && zeros raw [(0x10, 2, 7), (0x10, 15, 63), (0x28, 0, 63), (0x30, 0, 63), (0x38, 0, 63)] &&
  (stage == 1 || stage == 2) && decide (1 ≤ n) && decide (n ≤ 64) && hdrNcont raw == (n + 3) / 4 &&
  ((raw.drop (64 + 16 * n)).all fun b => b == 0) &&
  (List.range n).all fun i => recordOk stage (recordAt raw i)

/-- The first condition of 11 R297 that holds for an update. -/
def updateCheck (s : State) (q : Fin 4096) (d : Desc) : Option Status :=
  let u := updateOf q d
  let new := applyRecs (pagesOf s u.stage) u.recs
  if !updateFormOk d.raw then some .format
  else if (u.stage == 1) == (queueOwner q == .controller) then some .refused
  else if u.gen ≤ (genOf s u.stage).toNat then some .staleGeneration
  else if u.stage = 2 ∧ !u.recs.all (outputsOk s) then some .refused
  else if u.stage = 2 ∧ widens s.trans.s2 new ∧ (lodgedFor s u.auth u.gen u.raw).isNone then some .refused
  else if 0x4000000 < Config.tableBytes new.length then some .quota
  else none

/-- The NOTIFY of a generation (12 R331): `GEN`, followed by the records when the status is OK. -/
def notifyUpdate (s : State) (u : TUpdate) (st : Status) : State :=
  notify s .controller 3 u.queue.val st.code (leBytes 8 u.gen ++ if st = .ok then u.raw else [])

/-- TABLE_UPDATE: dispatched and checked; it waits while another update of its stage has not applied
(11 R298). -/
def doTableUpdate (q : Fin 4096) (s : State) : State :=
  match mayDispatch s q 9 with
  | none => s
  | some d =>
    let u := updateOf q d
    if s.trans.updates.any (fun v => v.stage == u.stage && !v.applied) then s
    else
      let s' := startDesc s q d.seq
      match updateCheck s q d with
      | some st => notifyUpdate (finish s' q d.seq st noFlags 0 0 u.gen) u st
      | none => s'.setTrans { s'.trans with updates := s'.trans.updates ++ [u] }

/-- The command TABLE_UPDATE (11 R297). -/
def execTableUpdate (q : Fin 4096) (s : State) : Res := .next (doTableUpdate q s)

/-! ## The apply point (11 R292, R298 to R300) -/

/-- What both stages make of a tenant virtual address. -/
def viewOf (t : Trans) (va : Nat) : Option (Nat × Bool × Bool × Bool × Bool) × Option (Nat × Bool × Bool × Bool) :=
  match findPage t.s1 va with
  | none => (none, none)
  | some g =>
    let ia := g.out + (va - g.inp)
    (some (ia, g.r, g.w, g.x, g.rmt),
     (findPage t.s2 ia).map fun h => (h.out + (ia - h.inp), h.r, h.w, h.x))

/-- Whether an update has changed a translation that captured pieces hold. -/
def segsChanged (old new : Trans) (segs : List Seg) : Bool :=
  segs.any fun g => (List.range (g.len / 0x10000 + 2)).any fun i =>
    let va := g.va + min (i * 0x10000) (g.len - 1)
    decide (0 < g.len) && decide (va < 2 ^ 48) && decide (viewOf old va ≠ viewOf new va)

/-- The translations that a move holds: addresses of its spindle's own bobbin are not translated (08 R531). -/
def Move.heldSegs (m : Move) : List Seg :=
  (m.srcSegs ++ m.dstSegs ++ m.shSegs).filter fun g => decide (0x8800000 ≤ g.pa)

/-- Marks the work of tenant queues that holds a changed translation with the update that waits for it. -/
def markHolders (s : State) (old : Trans) (id : Fin 4096 × Nat) : State :=
  let ten (q : Fin 4096) : Bool := decide (16 ≤ q.val)
  let hit (q : Fin 4096) (gs : List Seg) : Bool := ten q && segsChanged old s.trans gs
  let mark (m : Move) : Move :=
    if hit m.queue m.heldSegs then { m with blocks := id :: m.blocks } else m
  let markR (r : Rma) : Rma := if hit r.queue (r.segs ++ r.resSegs) then { r with blocks := id :: r.blocks } else r
  let markB (w : BindWait) : BindWait := if hit w.queue w.segs then { w with blocks := id :: w.blocks } else w
  let markO (o : GOp) : GOp :=
    if hit o.queue (o.srcSegs ++ o.dstSegs ++ o.decSegs ++ o.resSegs) then { o with blocks := id :: o.blocks } else o
  { s with
    kernels := s.kernels.map fun k => if hit k.queue (k.segs ++ k.args) then { k with blocks := id :: k.blocks } else k
    skeins := s.skeins.map fun k => { k.mapMoves mark with bindWait := k.bindWait.map markB }
    sweeps := s.sweeps.map fun w =>
      if hit w.queue (w.blockSeg ++ w.tabSegs ++ w.decSegs ++ w.resSegs ++ w.parts.flatMap (·.segs)) then
        { w with blocks := id :: w.blocks } else w
    twine := { s.twine with rmas := s.twine.rmas.map markR }
    ply := { s.ply with ops := s.ply.ops.map markO } }

/-- The bindings whose backing an update took away enter eviction; one that is being evicted already holds the update open
until its write-back has finished (11 R300). -/
def evictChanged (s : State) (id : Fin 4096 × Nat) : State :=
  let late (b : Binding) : Binding :=
    if b.evicting && decide (16 ≤ b.queue.val) && bindingLost s.trans b then { b with blocks := id :: b.blocks } else b
  let s := { s with skeins := s.skeins.map fun k => { k with bindings := k.bindings.map late } }
  (List.finRange 8).foldl (fun s k =>
    ((s.sk k).live.filter fun b => decide (16 ≤ b.queue.val) && bindingLost s.trans b).foldl
      (fun s b => evict s k b [id] none) s) s

/-- TLB entries over the updated input range leave (11 R298). -/
def dropTlb (u : TUpdate) (k : Skein) : Skein :=
  { k with tlb := k.tlb.filter fun e =>
      !u.recs.any fun r => overlap (if u.stage = 1 then e.va else e.ia) e.size r.inp (r.count * r.size) }

/-- Walker-cache entries over the updated input range leave; those of the other stage stand (11 R298). -/
def dropWalker (u : TUpdate) (l : List (Nat × Nat)) : List (Nat × Nat) :=
  l.filter fun e => !(e.1 == u.stage && u.recs.any fun r => overlap (e.2 * 2 ^ 30) (2 ^ 30) r.inp (r.count * r.size))

/-- Controller work that reaches a physical range (11 R292). -/
def ctrlWorkIn (s : State) (a n : Nat) : Bool :=
  let hit (gs : List Seg) : Bool := gs.any fun g => sameBytes s.mem g.pa g.len a n
  (s.skeins.toList.flatMap Skein.moves).any (fun m => decide (m.queue.val < 16) && hit (m.srcSegs ++ m.dstSegs ++ m.shSegs)) ||
  s.kernels.any (fun k => decide (k.queue.val < 16) && hit (k.segs ++ k.args)) ||
  s.sweeps.any (fun w => decide (w.queue.val < 16) &&
    hit (w.blockSeg ++ w.tabSegs ++ w.decSegs ++ w.resSegs ++ w.parts.flatMap (·.segs))) ||
  s.twine.rmas.any (fun r => decide (r.queue.val < 16) && hit (r.segs ++ r.resSegs)) ||
  s.ply.ops.any (fun o => decide (o.queue.val < 16) && hit (o.srcSegs ++ o.dstSegs ++ o.decSegs ++ o.resSegs)) ||
  (allBindings s).any (fun b => decide (b.queue.val < 16) && hit b.segs) ||
  (s.skeins.toList.flatMap (·.bindWait)).any (fun w => decide (w.queue.val < 16) && hit w.segs)

/-- Whether an update may reach its apply point: the controller work in the units it adds to the footprint
has ended (11 R292). -/
def mayApply (s : State) (u : TUpdate) : Bool :=
  u.stage == 1 || !s.sec.tenancyOn || u.recs.all fun r => !r.valid || !ctrlWorkIn s r.out (r.count * r.size)

/-- The apply point of an update. -/
def applyUpdate (s : State) (u : TUpdate) : State :=
  let old := s.trans
  let ps := applyRecs (pagesOf s u.stage) u.recs
  let new : Trans :=
    { old with
      s1 := if u.stage = 1 then ps else old.s1
      s2 := if u.stage = 2 then ps else old.s2
      gen1 := if u.stage = 1 then BitVec.ofNat 64 u.gen else old.gen1
      gen2 := if u.stage = 2 then BitVec.ofNat 64 u.gen else old.gen2
      footprint := if u.stage = 2 ∧ s.sec.tenancyOn then
          old.footprint ++ (u.recs.filter (·.valid)).map fun r => footEntry s r.out (r.count * r.size)
        else old.footprint
      updates := old.updates.map fun v => if v = u then { v with applied := true } else v
      walker := dropWalker u old.walker }
  let s := { s.setTrans new with skeins := s.skeins.map (dropTlb u) }
  evictChanged (markHolders s old (u.queue, u.seq)) (u.queue, u.seq)

/-- TABLE_UPDATE_APPLY: the update of queue `q` that waits for its apply point reaches it. -/
def doTableUpdateApply (q : Fin 4096) (s : State) : State :=
  match s.trans.updates.find? fun u => u.queue = q ∧ u.applied = false with
  | none => s
  | some u => if mayApply s u && s.serving then applyUpdate s u else s

/-- The command TABLE_UPDATE_APPLY (11 R298). -/
def execTableUpdateApply (q : Fin 4096) (s : State) : Res := .next (doTableUpdateApply q s)

/-- Whether some work or eviction still holds an update open (11 R300). -/
def updateHeld (s : State) (id : Fin 4096 × Nat) : Bool :=
  s.kernels.any (fun k => k.blocks.contains id) ||
  (s.skeins.toList.flatMap Skein.moves).any (fun m => m.blocks.contains id) ||
  (allBindings s).any (fun b => b.blocks.contains id) ||
  (s.skeins.toList.flatMap (·.bindWait)).any (fun w => w.blocks.contains id) ||
  s.sweeps.any (fun w => w.blocks.contains id) || s.twine.rmas.any (fun r => r.blocks.contains id) ||
  s.ply.ops.any (fun o => o.blocks.contains id)

/-- TABLE_UPDATE_COMPLETE: the oldest applied update of queue `q` that nothing holds completes; the authorisation it used is
consumed (11 R297, R300). -/
def doTableUpdateComplete (q : Fin 4096) (s : State) : State :=
  match s.trans.updates.find? fun u => u.queue = q ∧ u.applied = true ∧ !updateHeld s (u.queue, u.seq) with
  | none => s
  | some u =>
    if !s.serving then s else
    let s := s.setTrans { s.trans with updates := s.trans.updates.filter fun v => v != u }
    let s := s.setSec { s.sec with lodged := s.sec.lodged.filter fun l => !(u.stage == 2 && l.aseq == u.auth && l.gen == u.gen && l.hash == Config.sha384 u.raw) }
    notifyUpdate (finish s q u.seq .ok noFlags 0 0 u.gen) u .ok

/-- The command TABLE_UPDATE_COMPLETE (11 R300). -/
def execTableUpdateComplete (q : Fin 4096) (s : State) : Res := .next (doTableUpdateComplete q s)

end Sys2Proof.Machine
end

