-- ==== Sys2Proof/Machine/Sweeps.lean ====
section
/-!
DEFINITION. Distaff work (10): OPTIM sweeps with AdamW, Lion and SGD with momentum, CHECK and DIGEST: the
sweep block and its checks, the units, the completion.
-/

namespace Sys2Proof

/-! ## Arithmetic of R271: every value with the flags that forming it set -/

/-- A value with its flags. -/
abbrev FV := Ext × Flags

def FV.mul (a b : FV) : FV :=
  let r := a.1.mul b.1
  (r, (a.2.or b.2).or (madeNan r [a.1, b.1]))
def FV.add (a b : FV) : FV :=
  let r := a.1.add b.1
  (r, (a.2.or b.2).or (madeNan r [a.1, b.1]))
def FV.neg (a : FV) : FV := (a.1.neg, a.2)
/-- One rounding to FP32 by RNE. -/
def FV.rne (a : FV) : FV :=
  let (l, f) := rne32 a.1
  (f32 l, a.2.or f)

def FV.div (a b : FV) : FV :=
  let r := Ext.quot a.1 b.1
  (r, (a.2.or b.2).or (madeNan r [a.1, b.1]))
def FV.sqrt (a : FV) : FV :=
  let r := Ext.root a.1
  (r, a.2.or (madeNan r [a.1]))
def FV.of (x : Ext) : FV := (x, noFlags)

def Ext.isFin : Ext → Bool
  | .fin .. => true
  | _ => false

end Sys2Proof

namespace Sys2Proof.Machine

/-! ## The sweep block (10 R269) -/

def blk32 (b : List Byte) (o : Nat) : Nat := leNat ((b.drop o).take 4)

def blkAlgo (b : List Byte) : Nat := fieldAt b 0 0 3
def blkWfmt (b : List Byte) : Nat := fieldAt b 0 4 7
def blkCompact (b : List Byte) : Bool := fieldAt b 0 8 8 == 1
def blkZeroG (b : List Byte) : Bool := fieldAt b 0 9 9 == 1
def blkWsr (b : List Byte) : Bool := fieldAt b 0 10 10 == 1
def blkPlanes (b : List Byte) : Nat := fieldAt b 0 11 15
def blkMask (b : List Byte) : Nat := fieldAt b 0 16 23
def blkBlog (b : List Byte) : Nat := fieldAt b 0 24 28
def blkBuckets (b : List Byte) : Nat := blk32 b 0x2C
def blkGrowth (b : List Byte) : Nat := fieldAt b 0x28 0 15
def blkBtab (b : List Byte) : Nat := word64 b 0x30
def blkDecision (b : List Byte) : Nat := word64 b 0x38
def blkResult (b : List Byte) : Nat := word64 b 0x40
/-- An FP32 field of the block. -/
def blkF (b : List Byte) (o : Nat) : Ext := f32 (BitVec.ofNat 32 (blk32 b o))

/-- Segment `k` of the block, before its planes are translated. -/
def blkSeg (b : List Byte) (k : Fin 8) : SweepSeg :=
  let o := 0x80 + k.val * 0x40
  { stack := k, count := fieldAt b o 0 39, kind := fieldAt b o 40 40 == 1, nodecay := fieldAt b o 41 41 == 1
    ix := word64 b (o + 8), base := (List.range 5).map fun j => word64 b (o + 0x10 + 8 * j), segs := []
    bucket0 := blk32 b (o + 0x38) }

/-- The segments of the block that are present. -/
def blkSegs (b : List Byte) : List SweepSeg :=
  ((List.finRange 8).filter fun k => (blkMask b).testBit k.val).map (blkSeg b)

/-- Element width in bytes of plane `j` (W, P, M, V, G) of a segment (10 R267, R275). -/
def planeWidth (b : List Byte) (g : SweepSeg) (j : Nat) : Nat :=
  match j with
  | 0 => if g.kind ∨ blkWfmt b = 4 ∨ blkWfmt b = 5 then 1 else 2
  | 4 => 2
  | _ => if blkCompact b then 2 else 4

/-- Whether a descriptor uses plane `j` of a segment (10 R267, R270, R275, R278, R283). -/
def usesPlane (b : List Byte) (kind : SweepKind) (g : SweepSeg) (j : Nat) : Bool :=
  match kind with
  | .digest => (blkPlanes b).testBit j
  | .check => j == 4
  | .optim =>
    match j with
    | 0 => g.kind || !blkCompact b
    | 3 => blkAlgo b == 0
    | _ => true

def SweepSeg.plane (g : SweepSeg) (j : Nat) : Nat := g.base.getD j 0

/-- The planes a descriptor uses of a segment, as (base, bytes). -/
def usedPlanes (b : List Byte) (kind : SweepKind) (g : SweepSeg) : List (Nat × Nat) :=
  ((List.range 5).filter (usesPlane b kind g)).map fun j => (g.plane j, g.count * planeWidth b g j)

/-- Whether a β lies in its range: below 1 for AdamW, at most 1 otherwise (10 R270). -/
def betaOk (algo : Nat) (x : Ext) : Bool :=
  let one := Ext.pow2 0
  match x with
  | .fin n m _ => (!n || m == 0) && (x.lt one || (algo != 0 && x.same one))
  | _ => false

/-- The format checks of a block (10 R269, R270, R283). -/
def blockFormOk (b : List Byte) (kind : SweepKind) : Bool :=
  let gs := blkSegs b
  fieldAt b 0 29 63 == 0 && fieldAt b 0x28 16 31 == 0 && fieldAt b 0x48 32 63 == 0 &&
  (((b.drop 0x50).take 0x30).all fun x => x == 0) &&
  gs.all (fun g =>
    let o := 0x80 + g.stack.val * 0x40
    fieldAt b o 42 63 == 0 && fieldAt b (o + 0x38) 32 63 == 0 && decide (g.ix + g.count ≤ 2 ^ 62)) &&
  (match kind with
   | .digest => gs.all fun g => (List.range 5).all fun j => !usesPlane b kind g j || g.plane j != 0
   | _ => decide (16 ≤ blkBlog b) && decide (blkBlog b ≤ 26) && blkBtab b % 64 == 0 &&
      gs.all fun g => (List.range 5).all fun j => usesPlane b kind g j == (g.plane j != 0)) &&
  (match kind with
   | .optim =>
     decide (blkAlgo b ≤ 2) && (blkCompact b || blkWfmt b == 2 || blkWfmt b == 4 || blkWfmt b == 5) &&
     [0x08, 0x0C, 0x18, 0x24].all (fun o => (blkF b o).isFin) && !((blkF b 0x18).isNeg && !(blkF b 0x18).isZero) &&
     betaOk (blkAlgo b) (blkF b 0x10) && betaOk (blkAlgo b) (blkF b 0x14)
   | _ => true)

/-- Whether a live binding covers a byte. -/
def boundLive (s : State) (a : Nat) : Bool :=
  match locKey (physLoc s.mem a) with
  | none => false
  | some key => (allBindings s).any fun b => !b.evicting && (bindingOff s.mem b key).isSome

/-- Whether a resolved plane lies in alias window `k`, outside every live binding (10 R268). -/
def planeInWindow (s : State) (k : Fin 8) (segs : List Seg) : Bool :=
  segs.all fun g =>
    decide (aliasBase k.val ≤ g.pa) && decide (g.pa + g.len ≤ aliasBase k.val + 0x1000000000) &&
    (probePoints g.pa g.len).all fun a => (match physLoc s.mem a with
      | .stacked _ => true
      | _ => false) && !boundLive s a

/-- Areas outside the planes that a descriptor uses, as (base, bytes): the bucket table, the decision area,
the result area. -/
def areas (b : List Byte) (kind : SweepKind) : List (Nat × Nat) :=
  let tab := (blkBtab b, 8 * blkBuckets b)
  let dec := (blkDecision b, 8 + (blkBuckets b + 7) / 8)
  let res := (blkResult b, 512)
  match kind with
  | .optim => [tab, dec]
  | .check => [tab, dec, res]
  | .digest => [res]

/-- No two of a list of ranges overlap. -/
def disjoint : List (Nat × Nat) → Bool
  | [] => true
  | r :: rs => (rs.all fun t => !overlap r.1 r.2 t.1 t.2) && disjoint rs

/-- No two of a list of captured ranges share a byte. -/
def apart (m : Mem) : List (List Seg) → Bool
  | [] => true
  | x :: xs => (xs.all fun y => !segsMeet m x y) && apart m xs

/-- A plane's pages resolved with read and write permission, `none` where 10 R268 refuses them. -/
def planeSegs (s : State) (q : Fin 4096) (k : Fin 8) (r : Nat × Nat) : Option (List Seg) :=
  if r.1 % 64 ≠ 0 then none else
  if r.2 = 0 then some [] else
  match resolveDesc s q false .add r.1 r.2 with
  | .ok segs => if planeInWindow s k segs then some segs else none
  | _ => none

/-- A segment with its planes translated. -/
def translateSeg (s : State) (q : Fin 4096) (b : List Byte) (kind : SweepKind) (g : SweepSeg) : Option SweepSeg :=
  (usedPlanes b kind g).foldl (fun o r =>
    match o, planeSegs s q g.stack r with
    | some g, some segs => some { g with segs := g.segs ++ segs }
    | _, _ => none) (some g)

/-- An area resolved. `tw`: of a Twine operation, which on queues 0 to 15 may name a bobbin (08 R198, R531). -/
def areaSegs (s : State) (q : Fin 4096) (pm : Perm) (r : Nat × Nat) (tw : Bool := false) : Option (List Seg) :=
  if r.2 = 0 then some [] else
  match resolveDesc s q (tw && queueOwner q == .controller) pm r.1 r.2 with
  | .ok segs => some segs
  | _ => none

/-- Whether every bucket index lies below `NBUCKETS` (10 R270). -/
def bucketsOk (b : List Byte) : Bool :=
  (blkSegs b).all fun g => g.count == 0 || decide (g.bucket0 + (g.count - 1) / 2 ^ blkBlog b < blkBuckets b)

/-- Every option of a list, or none. -/
def allSome {α : Type} (l : List (Option α)) : Option (List α) :=
  l.foldr (fun o acc => match o, acc with
    | some x, some xs => some (x :: xs)
    | _, _ => none) (some [])

/-- The access checks of a block and the work they admit (10 R268, R270). -/
def sweepOf (s : State) (q : Fin 4096) (d : Desc) (b : List Byte) (bsegs : List Seg) (kind : SweepKind) : Option Sweep :=
  let parts := allSome ((blkSegs b).map (translateSeg s q b kind))
  let used := (blkSegs b).flatMap (usedPlanes b kind)
  let ars := areas b kind
  let alone := disjoint used && used.all fun r => ars.all fun t => !overlap r.1 r.2 t.1 t.2
  let tab := if kind = .digest then some [] else areaSegs s q .add (blkBtab b, 8 * blkBuckets b)
  let dec := if kind = .digest then some [] else
    areaSegs s q (if kind = .check then .write else .read) (blkDecision b, 8 + (blkBuckets b + 7) / 8)
  let res := if kind = .optim then some [] else areaSegs s q .write (blkResult b, 512)
  let planes := (blkSegs b).flatMap fun g => (usedPlanes b kind g).map fun r => (planeSegs s q g.stack r).getD []
  match parts, tab, dec, res with
  | some parts, some tab, some dec, some res =>
    let free := apart s.mem planes && planes.all fun p => !segsMeet s.mem p (tab ++ dec ++ res)
    if alone ∧ free ∧ (kind = .digest ∨ bucketsOk b = true) then
      some { queue := q, seq := d.seq, kind, step := BitVec.ofNat 32 (fieldAt d.raw 0x18 0 31)
             seed := seedFor s q d, block := b, blockSeg := bsegs, tabSegs := tab, decSegs := dec, resSegs := res
             parts, skip := false }
    else none
  | _, _, _, _ => none

/-- What R271 computes before its first element. -/
structure SweepPre where
  b1pow : FV
  b2pow : FV
  c1 : FV
  c2 : FV
  bc1 : FV
  bc2 : FV

def sweepPre (b : List Byte) : SweepPre :=
  let one := FV.of (Ext.pow2 0)
  let b1 := FV.of (blkF b 0x10)
  let b2 := FV.of (blkF b 0x14)
  let b1pow := ((FV.of (blkF b 0x1C)).mul b1).rne
  let b2pow := ((FV.of (blkF b 0x20)).mul b2).rne
  let inv (x : FV) : FV := (one.div ((one.add x.neg).rne)).rne
  { b1pow, b2pow, c1 := (one.add b1.neg).rne, c2 := (one.add b2.neg).rne, bc1 := inv b1pow, bc2 := inv b2pow }

/-- The flags of what R271 computes before its first element. -/
def SweepPre.flags (p : SweepPre) : Flags := orFlags [p.b1pow.2, p.b2pow.2, p.c1.2, p.c2.2, p.bc1.2, p.bc2.2]

/-! ## Dispatch (10 R268 to R270, R279) -/

/-- The block a descriptor names, if it can be read. -/
def blockSegs (s : State) (q : Fin 4096) (raw : List Byte) (write : Bool) : Option (List Seg) :=
  let a := word64 raw 0x10
  if a % 64 ≠ 0 then none else areaSegs s q (if write then .add else .read) (a, 640)

/-- Distaff work reads or writes a range beside the planes: a bound part goes through the creel, which fetches an INVALID
sector that it reads or writes in part (08 R220), the rest leaves the reel caches, dirty lines written back (09 R248). -/
def distTouch (s : State) (segs : List Seg) (a n : Nat) (wr : Bool) : State :=
  (pieces segs a n).foldl (fun s y =>
    if (boundAt s y.1).isSome then reelTouch s y.1 y.2.2 .none wr else reelDrop s y.1 y.2.2) s

/-- The reel caches write back and drop every line of the planes and the bucket table before distaff work reads them
(09 R248). -/
def dropPlanes (s : State) (w : Sweep) : State :=
  let s := (w.parts.flatMap (·.segs)).foldl (fun s p => reelDrop s p.pa p.len) s
  distTouch s w.tabSegs (blkBtab w.block) (8 * blkBuckets w.block) false

/-- Every captured range of a sweep. -/
def Sweep.allSegs (w : Sweep) : List Seg := w.blockSeg ++ w.tabSegs ++ w.decSegs ++ w.resSegs ++ w.parts.flatMap (·.segs)

/-- A sweep admitted: the decision's step is checked, the descriptor runs. -/
def admitSweep (s : State) (w : Sweep) : State :=
  match w.kind with
  | .optim =>
    let a := blkDecision w.block
    let n := 8 + (blkBuckets w.block + 7) / 8
    if segsPoisoned s w.decSegs a n then
      failDesc (poisonRecord s (firstPoison s w.decSegs a n) w.queue.val 4) w.queue w.seq .faulted
    else
    let bs := readSegs s w.decSegs a n
    let s := distTouch s w.decSegs a n false
    if fieldAt bs 0 32 63 ≠ w.step.toNat then failDesc s w.queue w.seq .staleGeneration else
    let s := dropPlanes (startDesc (walkSegs s (queueOwner w.queue) w.allSegs) w.queue w.seq) w
    let skip := fieldAt bs 0 0 0 == 1
    let flags := if skip then noFlags else (sweepPre w.block).flags
    { s with sweeps := s.sweeps ++ [{ w with skip, map := bs.drop 8, flags }] }
  | _ =>
    let s := dropPlanes (startDesc (walkSegs s (queueOwner w.queue) w.allSegs) w.queue w.seq) w
    { s with sweeps := s.sweeps ++ [w] }

/-- The ranges that a block names, with the permission each needs: planes, bucket table, decision area, result area. -/
def sweepRanges (b : List Byte) (kind : SweepKind) : List (Perm × Nat × Nat) :=
  let area (r : Nat × Nat) : Perm × Nat × Nat :=
    (if r.1 = blkBtab b then .add else if r.1 = blkDecision b ∧ kind = .optim then .read else .write, r)
  ((blkSegs b).flatMap (usedPlanes b kind)).map (fun r => (.add, r)) ++ (areas b kind).map area

/-- An OPTIM or DIGEST descriptor whose block is of kind `kind` dispatches; `mine` says whether the block
belongs to the command. -/
def dispatchSweep (q : Fin 4096) (type : Nat) (mine : Nat → Bool) (s : State) : State :=
  match mayDispatch s q type with
  | none => s
  | some d =>
    let first := mine 0
    let raw := d.raw
    let formBad := !hdrClean raw || hdrNcont raw != 0 ||
      !zeros raw [(0x18, 32, 63), (0x20, 0, 63), (0x28, 0, 63), (0x30, 0, 63), (0x38, 0, 63)]
    if formBad then (if first then failDesc s q d.seq .format else s) else
    match blockSegs s q raw false with
    | none => if first then failDesc (walkFirst s q false [(.read, word64 raw 0x10, 640)]) q d.seq .access else s
    | some segs =>
      if segsPoisoned s segs (word64 raw 0x10) 640 then
        (if first then failDesc (poisonRecord s (firstPoison s segs (word64 raw 0x10) 640) q.val type) q d.seq .faulted else s)
      else
      let b := readSegs s segs (word64 raw 0x10) 640
      let algo := blkAlgo b
      if type = 4 ∧ !mine algo then s else
      let s := distTouch s segs (word64 raw 0x10) 640 false
      let kind : SweepKind := if type = 5 then .digest else if algo = 3 then .check else .optim
      if !blockFormOk b kind then failDesc s q d.seq .format
      else if kind = .optim ∧ (blockSegs s q raw true).isNone then failDesc s q d.seq .access
      else match sweepOf s q d b segs kind with
        | none => failDesc (walkFirst s q false (sweepRanges b kind)) q d.seq .access
        | some w => admitSweep s w

/-- ADAMW (10 R271). A block that cannot be read or whose `ALGO` is reserved is this command's too. -/
def doAdamw (q : Fin 4096) (s : State) : State := dispatchSweep q 4 (fun a => a == 0 || decide (4 ≤ a)) s
/-- LION (10 R271). -/
def doLion (q : Fin 4096) (s : State) : State := dispatchSweep q 4 (· == 1) s
/-- SGD_WITH_MOMENTUM (10 R271). -/
def doSgdWithMomentum (q : Fin 4096) (s : State) : State := dispatchSweep q 4 (· == 2) s
/-- CHECK (10 R278). -/
def doCheck (q : Fin 4096) (s : State) : State := dispatchSweep q 4 (· == 3) s
/-- DIGEST (10 R283). -/
def doDigest (q : Fin 4096) (s : State) : State := dispatchSweep q 5 (fun _ => true) s

/-- The command ADAMW. -/
def execAdamw (q : Fin 4096) (s : State) : Res := .next (doAdamw q s)
/-- The command LION. -/
def execLion (q : Fin 4096) (s : State) : Res := .next (doLion q s)
/-- The command SGD_WITH_MOMENTUM. -/
def execSgdWithMomentum (q : Fin 4096) (s : State) : Res := .next (doSgdWithMomentum q s)
/-- The command CHECK. -/
def execCheck (q : Fin 4096) (s : State) : Res := .next (doCheck q s)
/-- The command DIGEST. -/
def execDigest (q : Fin 4096) (s : State) : Res := .next (doDigest q s)

/-! ## The update of one element (10 R271 to R275) -/

/-- `sign` of R271: a NaN stays NaN. -/
def signFV (x : FV) : FV :=
  match x.1 with
  | .nan => x
  | .inf n => (if n then (Ext.pow2 0).neg else Ext.pow2 0, x.2)
  | .fin n m _ => (if m = 0 then Ext.zero else if n then (Ext.pow2 0).neg else Ext.pow2 0, x.2)

/-- New master and moments (p, m, v) of one element. -/
def stepElem (b : List Byte) (nodecay : Bool) (g p m v : FV) : FV × FV × FV :=
  let pre := sweepPre b
  let f (o : Nat) : FV := FV.of (blkF b o)
  let lr := f 0x08
  let w := if nodecay then FV.of Ext.zero else f 0x0C
  let b1 := f 0x10
  let b2 := f 0x14
  let move (u : FV) : FV := (p.add ((lr.mul ((u.add ((w.mul p).rne)).rne)).rne).neg).rne
  match blkAlgo b with
  | 0 =>
    let m := ((b1.mul m).add ((pre.c1.mul g).rne)).rne
    let v := ((b2.mul v).add (((pre.c2.mul g).rne.mul g).rne)).rne
    let den := (((v.mul pre.bc2).rne.sqrt.rne).add (f 0x18)).rne
    let u := if den.1.isZero then (Ext.zero, den.2) else ((m.mul pre.bc1).rne.div den).rne
    (move u, m, v)
  | 1 =>
    let c := ((b1.mul m).add ((pre.c1.mul g).rne)).rne
    (move (signFV c), ((b2.mul m).add ((pre.c2.mul g).rne)).rne, v)
  | _ =>
    let m := ((b1.mul m).add g).rne
    (move m, m, v)

/-- The factor of a scale code taken with a sign: 2^(127 − code), NaN for 0xFF. -/
def unscale (x : Ext) (code : Nat) : Ext := if code = 255 then .nan else x.scale (127 - (code : Int))

/-- The unscaled gradient of R271. -/
def gradOf (gs : Nat) (gscale : Nat) (gmul : Ext) : FV := (FV.of ((unscale (decode .bf16 gs) gscale).mul gmul)).rne

/-- The byte of an exponent segment (10 R275). -/
def expByte (p : Ext) : Nat × Flags :=
  match p with
  | .nan => (0xFF, flagNV)
  | .inf n => (if n then 0 else 0xFE, noFlags)
  | .fin n m e => (natOf ((clampTo (-127) 127 (roundInt .rne 0 n m e)).1 + 127), noFlags)

/-- The working copy of a new master (10 R274, R275). Under a `WSCALE` of 0xFF it is a NaN element, and no NV is set: the
scale counts as a NaN block scale (log 135). -/
def workCopy (b : List Byte) (g : SweepSeg) (p : Ext) (wscale rnd : Nat) : Nat × Flags :=
  if g.kind then expByte p else
  let rm : RM := if blkWsr b then .sr else .rne
  match blkWfmt b with
  | 2 => encode .bf16 false rm rnd p
  | n => encode (fmtOf n) false rm rnd (unscale p wscale)

/-- Bytes of element `i` of plane `j`. -/
def elemBytes (s : State) (b : List Byte) (g : SweepSeg) (j i : Nat) : Nat :=
  let w := planeWidth b g j
  leNat (readSegs s g.segs (g.plane j + i * w) w)

/-- A bucket table entry. -/
def bucketAt (s : State) (w : Sweep) (n : Nat) : Nat := leNat (readSegs s w.tabSegs (blkBtab w.block + 8 * n) 8)

/-- Bucket of parameter `i` of a segment. -/
def bucketOf (b : List Byte) (g : SweepSeg) (i : Nat) : Nat := g.bucket0 + i / 2 ^ blkBlog b

/-- What one element's update writes, as (address, bytes), and its flags (10 R271 to R275). -/
def elemWrites (s : State) (w : Sweep) (g : SweepSeg) (i : Nat) : List (Nat × List Byte) × Flags :=
  let b := w.block
  let put (j v : Nat) : Nat × List Byte := (g.plane j + i * planeWidth b g j, leBytes (planeWidth b g j) v)
  let zero := if blkZeroG b then [put 4 0] else []
  if w.skip then (zero, noFlags) else
  let ent := bucketAt s w (bucketOf b g i)
  let gv := gradOf (elemBytes s b g 4 i) (bitsOf ent 0 8) (blkF b 0x24)
  if !gv.1.isFin then (zero, flagNV.or gv.2) else
  let get (j : Nat) : FV := FV.of (decode (if blkCompact b then .bf16 else .fp32) (elemBytes s b g j i))
  let (p, m, v) := stepElem b (g.nodecay || g.kind) gv (get 1) (get 2) (if blkAlgo b = 0 then get 3 else FV.of Ext.zero)
  let rnd (off : Nat) : Nat := twist w.seed (BitVec.ofNat 64 (g.ix + i + off)) w.step
  let enc (x : FV) (off : Nat) : Nat × Flags :=
    if blkCompact b then
      let (c, f) := encode .bf16 false .sr (rnd off) x.1
      (c, x.2.or f)
    else ((rne32 x.1).1.toNat, x.2)
  let cp := enc p 0
  let cm := enc m (2 ^ 62)
  let cv := enc v (2 ^ 63)
  let wc := workCopy b g p.1 (bitsOf ent 8 8) (rnd (3 * 2 ^ 62))
  let vs := if blkAlgo b = 0 then [put 3 cv.1] else []
  let ws := if usesPlane b .optim g 0 then [put 0 wc.1] else []
  ([put 1 cp.1, put 2 cm.1] ++ vs ++ ws ++ zero,
   orFlags ([cp.2, cm.2, gv.2] ++ (if blkAlgo b = 0 then [cv.2] else []) ++
     (if usesPlane b .optim g 0 then [wc.2] else [])))

/-! ## Units (10 R285) -/

/-- Bank time that the grants and the stack rails leave the distaffs, by thousandths (17 R456, R465). -/
def bankPm (s : State) : Nat := s.pwr.rails.toList.foldl (fun m r => min m r.distPm) s.pwr.distPm

/-- Whether distaff work may run on a stack now (01 R35; 17 R456, R461, R465, R473, R475). -/
def distaffRuns (s : State) (k : Fin 8) : Bool :=
  bankPm s != 0 && !(s.mem.stack.get k).distWait && !s.pwr.distHot.getLsbD k.val && !s.pwr.regFault && s.serving

/-- The entries of the bucket table that a unit reads, as (address, bytes): none where the sweep skips (10 R280). -/
def unitEntries (w : Sweep) (g : SweepSeg) (lo n : Nat) : Nat × Nat :=
  if w.skip || n == 0 then (0, 0) else
  let b0 := bucketOf w.block g lo
  (blkBtab w.block + 8 * b0, 8 * (bucketOf w.block g (lo + n - 1) + 1 - b0))

/-- The poison that the unit from element `lo` on reads: W is written and not read, and of the bucket table the unit reads
the entries of its own parameters. A skipped sweep reads neither (10 R280). -/
def unitPoison (s : State) (w : Sweep) (g : SweepSeg) (lo n : Nat) : Option Nat :=
  if w.skip || n == 0 then none else
  let t := unitEntries w g lo n
  (((List.range 5).filter fun j => j != 0 && usesPlane w.block .optim g j).findSome? fun j =>
    firstPoison s g.segs (g.plane j + lo * planeWidth w.block g j) (n * planeWidth w.block g j)) <|>
  (firstPoison s w.tabSegs t.1 t.2)

/-- A sweep with one of its segments replaced. -/
def Sweep.setPart (w : Sweep) (g g' : SweepSeg) : Sweep :=
  { w with parts := w.parts.map fun x => if x = g then g' else x }

def setSweep (s : State) (w w' : Sweep) : State :=
  { s with sweeps := s.sweeps.map fun x => if x = w then w' else x }

/-- Whether a segment has units left. -/
def SweepSeg.open_ (g : SweepSeg) : Bool := !g.lost && decide (g.done * 1024 < g.count)

/-- Adjacent writes joined. -/
def joinWrites : List (Nat × List Byte) → List (Nat × List Byte)
  | [] => []
  | w :: ws => match joinWrites ws with
    | [] => [w]
    | v :: vs => if w.1 + w.2.length = v.1 then (w.1, w.2 ++ v.2) :: vs else w :: v :: vs

/-- What a unit of elements writes, plane by plane. -/
def unitWrites (w : Sweep) (g : SweepSeg) (lo n : Nat) (ws : List (Nat × List Byte)) : List (Nat × List Byte) :=
  (List.range 5).flatMap fun j =>
    let x := planeWidth w.block g j
    let a := g.plane j + lo * x
    joinWrites (ws.filter fun y => usesPlane w.block .optim g j && decide (a ≤ y.1) && decide (y.1 < a + n * x))

/-- The next unit of a segment, from its state before the unit. Where its planes or the bucket table have left the map, the
segment ends with nothing more written, and the sweep with ACCESS (09 R239, R243). -/
def runUnit (s : State) (w : Sweep) (g : SweepSeg) : State :=
  let lo := g.done * 1024
  let n := min 1024 (g.count - lo)
  let g' := { g with done := g.done + 1 }
  if !segsMapped s (g.segs ++ if w.skip then [] else w.tabSegs) then setSweep s w (w.setPart g { g' with done := g.count }) else
  let t := unitEntries w g lo n
  let s := distTouch s w.tabSegs t.1 t.2 false
  let es := (List.range n).map fun i => elemWrites s w g (lo + i)
  let ws := unitWrites w g lo n (es.flatMap (·.1))
  let bad := (unitPoison s w g lo n) <|> (ws.findSome? fun x => firstPart s g.segs x.1 x.2.length)
  if bad.isSome then
    setSweep (poisonRecord s bad w.queue.val 4) w { w.setPart g { g' with done := g.count } with bad := true }
  else
    let s' := g.segs.foldl (fun s p => reelDrop s p.pa p.len) s
    let s' := (applyWrites s' g.segs ws).1
    let st := s'.mem.stack.get g.stack
    let s' := s'.setMem { s'.mem with stack := upd s'.mem.stack g.stack { st with units := st.units + 1, distRedo := false } }
    let w' := w.setPart g g'
    setSweep s' w { w' with flags := orFlags (w.flags :: es.map (·.2)) }

/-- The sweep of a queue that a unit or the end concerns: the oldest. -/
def sweepFor (s : State) (q : Fin 4096) : Option Sweep := s.sweeps.find? fun w => w.queue = q

/-- Whether a sweep that a warm reset has interrupted waits in the warm-up service that follows: for full service where it is of a
tenant queue (18 R491), and until its ranges are mapped again (09 R233, log 166). -/
def sweepHeld (s : State) (w : Sweep) : Bool :=
  !s.worksFor w.queue || (s.mgmt.phase == .warmup && !segsMapped s w.allSegs)

/-- The oldest work of a queue on a stack, with its segment there (01 R28). -/
def workOn (s : State) (q : Fin 4096) (k : Fin 8) : Option (Sweep × SweepSeg) :=
  s.sweeps.findSome? fun w =>
    if w.queue = q ∧ !sweepHeld s w then
      (w.parts.find? fun g => g.stack = k ∧ !g.lost ∧ (w.kind ≠ .optim ∨ g.open_ = true)).map fun g => (w, g)
    else none

/-- The queues that compete for a stack's distaffs with a unit. -/
def unitQueues (s : State) (k : Fin 8) : List (Fin 4096) :=
  (s.sweeps.map (·.queue)).filter fun q => (workOn s q k).any fun x => x.1.kind == .optim

/-- Whether it is a queue's turn at a stack's distaffs (12 R327). -/
def distaffTurn (s : State) (q : Fin 4096) (k : Fin 8) : Bool :=
  turnOf s (s.mem.stack.get k).lastQ (unitQueues s k) == some q

/-- A queue served at a stack's distaffs. -/
def serveDistaff (s : State) (q : Fin 4096) (k : Fin 8) : State :=
  let x := s.mem.stack.get k
  s.setMem { s.mem with stack := upd s.mem.stack k { x with lastQ := served s x.lastQ q } }

/-- SWEEP_UNIT_DONE: stack `k` finishes the next unit of 1,024 parameters of queue `q`'s oldest work there, if that is an
OPTIM sweep (a CHECK or DIGEST before it goes first, 01 R28) and it is the queue's turn. -/
def doSweepUnitDone (q : Fin 4096) (k : Fin 8) (s : State) : State :=
  match workOn s q k with
  | none => s
  | some (w, g) =>
    if w.kind = .optim ∧ distaffRuns s k ∧ distaffTurn s q k then runUnit (serveDistaff s q k) w g else s

/-- The command SWEEP_UNIT_DONE (10 R285). -/
def execSweepUnitDone (q : Fin 4096) (k : Fin 8) (s : State) : Res := .next (doSweepUnitDone q k s)

/-! ## CRC-64 and digests (10 R282, R283) -/

def crc64Bits : Nat → Nat → Nat
  | 0, c => c
  | n + 1, c =>
    crc64Bits n (if c / 2 ^ 63 % 2 = 1 then ((c * 2) % 2 ^ 64) ^^^ 0x42F0E1EBA9EA3693 else (c * 2) % 2 ^ 64)

/-- CRC-64/ECMA-182. -/
def crc64 (bs : List Byte) : Nat := bs.foldl (fun c x => crc64Bits 8 (c ^^^ (x.toNat * 2 ^ 56))) 0

/-- The digest entries of a DIGEST as (segment, plane, value). -/
def digestEntries (s : State) (w : Sweep) : List (Nat × Nat × Nat) :=
  w.parts.flatMap fun g => ((List.range 5).filter (usesPlane w.block .digest g)).map fun j =>
    (g.stack.val, j, crc64 (readSegs s g.segs (g.plane j) (g.count * planeWidth w.block g j)))

/-- What a DIGEST writes. -/
def digestWrites (s : State) (w : Sweep) : List (Nat × List Byte) :=
  (digestEntries s w).map fun e => (blkResult w.block + 0x40 + (e.1 * 5 + e.2.1) * 8, leBytes 8 e.2.2)

/-! ## CHECK (10 R278) -/

/-- Whether an element of G is infinite or NaN. -/
def badGrad (s : State) (w : Sweep) (g : SweepSeg) (i : Nat) : Bool := !(decode .bf16 (elemBytes s w.block g 4 i)).isFin

/-- Buckets in which a CHECK finds an infinite or NaN element. -/
def marked (s : State) (w : Sweep) : List Nat :=
  (List.range (blkBuckets w.block)).filter fun n =>
    w.parts.any fun g => (List.range g.count).any fun i => bucketOf w.block g i == n && badGrad s w g i

/-- The sum of squares of the finite unscaled gradients in the wide format (04 R98), rounded once, with its flags: none is
set for an element that is infinite or NaN itself. -/
def sumSquares (s : State) (w : Sweep) : FV :=
  let xs := w.parts.flatMap fun g => (List.range g.count).filterMap fun i =>
    if badGrad s w g i then none else
      some (gradOf (elemBytes s w.block g 4 i) (bitsOf (bucketAt s w (bucketOf w.block g i)) 0 8) (Ext.pow2 0))
  let r := FV.rne (wideSum ((xs.filter fun x => x.1.isFin).map fun x => x.1.mul x.1), noFlags)
  (r.1, orFlags (r.2 :: xs.map (·.2)))

/-- What a CHECK writes of its own when it completes: its `OVF` bits and its result words. -/
def checkWrites (s : State) (w : Sweep) : List (Nat × List Byte) :=
  let b := w.block
  let ms := marked s w
  (ms.map fun n => (blkBtab b + 8 * n + 4, leBytes 1 (bitsOf (bucketAt s w n) 32 8 / 2 * 2 + 1))) ++
  [(blkResult b, leBytes 8 ms.length), (blkResult b + 8, leBytes 8 (rne32 (sumSquares s w).1).1.toNat)]

/-- The overflow map from the `OVF` bits, those that the CHECK sets included (15 R413). -/
def overflowMap (s : State) (w : Sweep) : List Byte :=
  let n := blkBuckets w.block
  let ms := marked s w
  (List.range ((n + 7) / 8)).map fun i =>
    BitVec.ofNat 8 (packNat 1 ((List.range 8).map fun j =>
      b2n (decide (8 * i + j < n) && (ms.contains (8 * i + j) || bitsOf (bucketAt s w (8 * i + j)) 32 1 == 1))))

/-- The decision area of R279. -/
def decisionBytes (step : Nat) (skip : Bool) (map : List Byte) : List Byte :=
  leBytes 8 (b2n skip + fld step 32 32) ++ map

/-! ## The end of a sweep (10 R280, R285; 15 R413, R414) -/

/-- A bucket entry after a sweep (10 R280). -/
def adjustBucket (growth : Nat) (ovf : Bool) (e : Nat) : Nat :=
  let gs := bitsOf e 0 8
  let cl := bitsOf e 16 16
  let (gs', cl') :=
    if ovf then (gs - 1, 0)
    else if growth = 0 then (gs, cl)
    else if growth ≤ cl + 1 then (min (gs + 1) 0xFE, 0)
    else (gs, min 65535 (cl + 1))
  fld gs' 0 8 + fld (bitsOf e 8 8) 8 8 + fld cl' 16 16

/-- What the end of an OPTIM sweep writes: the bucket table and, unless it skipped, the block's fields. -/
def endWrites (s : State) (w : Sweep) : List (Nat × List Byte) :=
  let b := w.block
  ((List.range (blkBuckets b)).map fun n =>
    (blkBtab b + 8 * n,
     leBytes 8 (adjustBucket (blkGrowth b) (((w.map.getD (n / 8) 0).toNat).testBit (n % 8)) (bucketAt s w n))))

/-- The block fields written back: `B1POW`, `B2POW` and `T` at the block's address. -/
def blockWrites (w : Sweep) (base : Nat) : List (Nat × List Byte) :=
  let pre := sweepPre w.block
  if w.skip then [] else
  [(base + 0x1C, leBytes 4 (rne32 pre.b1pow.1).1.toNat), (base + 0x20, leBytes 4 (rne32 pre.b2pow.1).1.toNat),
   (base + 0x48, leBytes 4 (blk32 w.block 0x48 + 1))]

/-- The poison that a read-only sweep meets. -/
def sweepPoison (s : State) (w : Sweep) : Option Nat :=
  (w.parts.findSome? fun g => (usedPlanes w.block w.kind g).findSome? fun r => firstPoison s g.segs r.1 r.2) <|>
  (if w.kind = .check then firstPoison s w.tabSegs (blkBtab w.block) (8 * blkBuckets w.block) else none)

/-- The flags of a sweep that ends early (02 R63). -/
def sweepFlags (s : State) (w : Sweep) : Flags :=
  if w.kind = .check then partFlags s (sumSquares s w).2 else w.flags

/-- A read-only sweep that has met poison or lost a stack. -/
def failSweep (s : State) (w : Sweep) : State :=
  finish (poisonRecord s (sweepPoison s w) w.queue.val (if w.kind = .digest then 5 else 4)) w.queue w.seq .faulted
    (sweepFlags s w) 0 0 0

/-- The enabled slot that carries skip-step decisions and digest comparisons (15 R402). -/
def stepSlot (s : State) : Option (Fin 8) := (List.finRange 8).find? fun k => (s.slot k).cfg.enable && (s.slot k).cfg.step

/-- Whether a digest is compared across the group (15 R414). -/
def digestCompared (s : State) (k : Fin 8) (step : Nat) : Bool :=
  let c := (s.slot k).cfg
  (s.slot k).freshDigest || (c.digestN != 0 && step % c.digestN == 0)

/-- A list of writes beside the planes, with its traffic. -/
def distWrites (s : State) (segs : List Seg) (ws : List (Nat × List Byte)) : State :=
  (applyWrites (ws.foldl (fun s x => distTouch s segs x.1 x.2.length true) s) segs ws).1

/-- A list of writes and a status for a descriptor: where one meets poison, nothing is written (10 R285). -/
def writeAndEnd (s : State) (w : Sweep) (segs : List Seg) (ws : List (Nat × List Byte)) (fl : Flags) : State :=
  match ws.findSome? fun x => firstPart s segs x.1 x.2.length with
  | some b => finish (poisonRecord s (some b) w.queue.val (if w.kind = .digest then 5 else 4)) w.queue w.seq .faulted fl 0 0 0
  | none => finish (distWrites s segs ws) w.queue w.seq .ok fl 0 0 0

/-- Whether a group has lost a member whose adoption has not finished: its operations complete with PATH_LOST on a survivor
(15 R425). The spare's own wait for its admission. -/
def Ply.short (x : Ply) : Bool := x.st == .degraded || (x.st == .adopting && !x.spare)

/-- A CHECK whose reads are done: it contributes to its group, or writes its own decision. -/
def endCheck (s : State) (w : Sweep) : State :=
  let map := overflowMap s w
  let skip := !(marked s w).isEmpty
  let op : GOp :=
    { queue := w.queue, seq := w.seq, slot := 0, kind := .check, step := w.step.toNat, nb := blkBuckets w.block, skip
      body := map, decSegs := w.decSegs, decBase := blkDecision w.block, value := checkWrites s w
      resSegs := w.tabSegs ++ w.resSegs, flags := (sumSquares s w).2 }
  match stepSlot s with
  | some k =>
    if (s.slot k).short then finish s w.queue w.seq .pathLost op.flags 0 0 0
    else { s with ply := { s.ply with ops := s.ply.ops ++ [{ op with slot := k }] } }
  | none =>
    writeAndEnd s w (w.tabSegs ++ w.resSegs ++ w.decSegs)
      (checkWrites s w ++ [(blkDecision w.block, decisionBytes w.step.toNat skip map)]) op.flags

/-- A DIGEST whose reads are done: it is compared in its group, or written. The first one compared after an adoption is
(15 R414). -/
def endDigest (s : State) (w : Sweep) : State :=
  let ws := digestWrites s w
  let op : GOp :=
    { queue := w.queue, seq := w.seq, slot := 0, kind := .digest, step := w.step.toNat, mask := blkMask w.block
      planes := blkPlanes w.block, body := ws.flatMap (·.2), value := ws, resSegs := w.resSegs }
  match stepSlot s with
  | some k =>
    if !digestCompared s k w.step.toNat then writeAndEnd s w w.resSegs ws noFlags
    else if (s.slot k).short then finish s w.queue w.seq .pathLost noFlags 0 0 0
    else
      let s := s.setSlot k { s.slot k with freshDigest := false }
      { s with ply := { s.ply with ops := s.ply.ops ++ [{ op with slot := k }] } }
  | none => writeAndEnd s w w.resSegs ws noFlags

/-- SWEEP_COMPLETE: the oldest distaff work of a queue ends once every segment has finished. -/
def doSweepComplete (q : Fin 4096) (s : State) : State :=
  match sweepFor s q with
  | none => s
  | some w =>
    if sweepHeld s w then s else
    if w.parts.any (fun g => !g.lost && !distaffRuns s g.stack) then s
    else if w.kind = .optim ∧ w.parts.any SweepSeg.open_ then s else
    let gone (s : State) : State := bindRetryAll { s with sweeps := s.sweeps.filter fun x => x != w }
    if !w.bad ∧ !segsMapped s w.allSegs then
      gone (finish s q w.seq .access (sweepFlags s w) 0 0 0)
    else
    let s := dropPlanes s w
    match w.kind with
    | .optim =>
      if w.bad then gone (finish s q w.seq .faulted w.flags 0 0 0) else
      let base := match descOf s q w.seq with
        | some d => word64 d.raw 0x10
        | none => 0
      match firstPoison s w.tabSegs (blkBtab w.block) (8 * blkBuckets w.block) with
      | some b => gone (finish (poisonRecord s (some b) q.val 4) q w.seq .faulted w.flags 0 0 0)
      | none => gone (writeAndEnd s w (w.tabSegs ++ w.blockSeg) (joinWrites (endWrites s w) ++ blockWrites w base) w.flags)
    | .check =>
      if w.bad || (sweepPoison s w).isSome then gone (failSweep s w) else gone (endCheck s w)
    | .digest =>
      if w.bad || (sweepPoison s w).isSome then gone (failSweep s w) else gone (endDigest s w)

/-- The command SWEEP_COMPLETE (10 R285). -/
def execSweepComplete (q : Fin 4096) (s : State) : Res := .next (doSweepComplete q s)

/-- SWEEP_RECOVERY: after the migration has passed the ranges of a stack's work, a healthy distaff takes it up again: it
re-applies the redo record of a sweep with units left, which the next unit then ends (10 R285, R288). -/
def doSweepRecovery (k : Fin 8) (s : State) : State :=
  let st := s.mem.stack.get k
  let mine := s.sweeps.flatMap fun w => (w.parts.filter fun g => g.stack == k && !g.lost).map fun g => (w.kind, g)
  if st.distWait ∧ mine.all (fun x => migPassed s x.2.segs) then
    let redo := mine.any fun x => x.1 == .optim && x.2.open_
    s.setMem { s.mem with stack := upd s.mem.stack k { st with distWait := false, distRedo := redo } }
  else s

/-- The command SWEEP_RECOVERY. -/
def execSweepRecovery (k : Fin 8) (s : State) : Res := .next (doSweepRecovery k s)

end Sys2Proof.Machine
end

