-- ==== Sys2Proof/Machine/Recover.lean ====
section
/-!
DEFINITION. Interrupted work (12 R338, R340; 01 R21, R22, R25, R35): the failure of spindles and flyers, the
changes of the skein map, and what a warm reset or a stop leaves of the work in flight.
-/

namespace Sys2Proof.Machine

/-! ## Moves that end early -/

/-- Waiting moves take every flyer that is free. -/
def feedAll (k : Skein) : Skein := feed (feed (feed (feed k)))

/-- A move on a flyer leaves with nothing more of it done: the bytes it was to write hold unspecified
contents (08 R211). -/
def spoil (s : State) (m : Move) : State :=
  { (applyWrites s m.dstSegs (freeWrites s.free (m.writes s m.dest.hanks).1)).1 with free := s.free + 1 }

/-- The flags of a move that leaves its flyer (02 R63). -/
def startedFlags (s : State) (m : Move) : Flags := partFlags s (m.writes s m.dest.hanks).2

/-- The moves that `f` names leave a skein. -/
def Skein.without (f : Move → Bool) (k : Skein) : Skein :=
  feedAll { k with
    fq := k.fq.filter fun m => !f m
    fly := k.fly.map fun y => { y with move := y.move.filter fun m => !f m } }

/-- Moves on the flyers of the device. -/
def flying (s : State) : List Move := s.skeins.toList.flatMap fun k => k.fly.toList.filterMap (·.move)

/-- Moves cut off wherever they stand. -/
def cutMoves (s : State) (f : Move → Bool) : State :=
  let s := ((flying s).filter f).foldl spoil s
  { s with skeins := s.skeins.map (Skein.without f) }

/-- Moves that an erased key ends have written nothing (06 R156). -/
def dropMoves (s : State) (f : Move → Bool) : State := { s with skeins := s.skeins.map (Skein.without f) }

/-! ## Kernels -/

/-- A descriptor goes back to be dispatched from its start (12 R338); in a draining queue, which dispatches nothing, it
ends INTERRUPTED with the flags that its work has set (12 R333, 02 R63). -/
def redo (s : State) (q : Fin 4096) (seq : Nat) (fl : Flags) : State :=
  if (s.q q).st = .draining then finish s q seq .interrupted fl 0 0 0
  else setDesc s q seq fun d => { d with st := .accepted, replayed := true, flags := noFlags }

/-- Marks a descriptor as replayed or rerun. -/
def markReplayed (s : State) (q : Fin 4096) (seq : Nat) : State := setDesc s q seq fun d => { d with replayed := true }

/-- A spindle whose share stops where it stands. -/
def haltSpindle (s : State) (p : Fin 136) : State :=
  s.setSp p { s.sp p with
    arrayQ := [], flight := [], vpend := [], rq := [], qq := [], share := none, fetched := [], counting := false }

/-- Spindles at a kernel boundary: a released share that waits for one of them goes on there. -/
def boundaries (s : State) (ps : List (Fin 136)) : State := ps.foldl boundary s

/-- Spindles that run a share of a kernel. -/
def spindlesOf (s : State) (q : Fin 4096) (seq : Nat) : List (Fin 136) :=
  (List.finRange 136).filter fun p => match (s.sp p).share with
    | some h => h.queue == q && h.seq == seq
    | none => false

/-- The moves of shares on some spindles. -/
def Move.ofSpindles (ps : List (Fin 136)) (m : Move) : Bool :=
  match m.origin with
  | .instr p _ => ps.contains p
  | _ => false

/-- The shares of a kernel that are on spindles stop. -/
def stopShares (s : State) (q : Fin 4096) (seq : Nat) : State :=
  let ps := spindlesOf s q seq
  ps.foldl haltSpindle (cutMoves s (Move.ofSpindles ps))

/-- A whole kernel stops: its shares, its save images; its faults close as resolved. -/
def stopKernel (s : State) (q : Fin 4096) (seq : Nat) : State :=
  let ps := spindlesOf s q seq
  let s := stopShares s q seq
  let mine (w : FaultWork) : Bool := match w with
    | .share _ n => n == seq
    | .desc _ => false
  let ids := (s.trans.faults.filter fun f => f.queue == q && mine f.work).map (·.id)
  let s := { s with kernels := s.kernels.filter fun k => !(k.queue == q && k.seq == seq) }
  let s := s.setTrans { s.trans with images := s.trans.images.filter fun i => !(i.queue == q && i.share.seq == seq) }
  boundaries (ids.foldl dropFault s) ps

/-- Whether a descriptor of a queue is marked `REPLAY_SAFE`. -/
def replaySafe (s : State) (q : Fin 4096) (seq : Nat) : Bool :=
  match descOf s q seq with
  | some d => hdrReplay d.raw
  | none => false

/-- The flags of a share that stands on a spindle, its moves' among them (06 R167, 07 R189). -/
def shareFlags (x : Spindle) (h : Share) : Flags := x.flags.or h.moveFlags

/-- The OR of the flags of every share of a kernel, ended, stopped, on a spindle or switched out (02 R63, 06 R167). -/
def kernelFlags (s : State) (q : Fin 4096) (seq : Nat) : Flags :=
  orFlags (((kernelOf s q seq).map fun k => k.ended.map (fun e => e.2.2.2.2) ++ k.cut.map fun c => c.2.2).getD []
    ++ (spindlesOf s q seq).filterMap (fun p => (s.sp p).share.map (shareFlags (s.sp p)))
    ++ (s.trans.images.filter fun i => i.queue == q && i.share.seq == seq).map fun i => shareFlags i.regs i.share)

/-- A kernel that a part fault interrupts (12 R338). -/
def interruptKernel (s : State) (q : Fin 4096) (seq : Nat) : State :=
  let s' := stopKernel s q seq
  if replaySafe s q seq then redo s' q seq (kernelFlags s q seq) else finish s' q seq .faulted (kernelFlags s q seq) 0 0 0

/-- Shares of a kernel that are done with, ended with a status, or none that went on; those not launched end with them. -/
def endShares (s : State) (k : Kernel) (st : Status) (gone : List (Nat × Fin 128 × Flags)) : State :=
  let out := gone ++ k.waiting.map fun w => (w.1, w.2, noFlags)
  settleKernel (setKernel s k.queue k.seq fun k =>
    { k with waiting := [], ended := k.ended ++ out.map fun w => (w.1, w.2.1, st, 0, w.2.2) }) k.queue k.seq

/-- Shares of a kernel that has others switched out start again from their start, translated anew (11 R305), if it may be
replayed; otherwise they end with FAULTED (12 R338). -/
def replayShares (s : State) (k : Kernel) (gone : List (Nat × Fin 128 × Flags)) : State :=
  match (descOf s k.queue k.seq).filter fun d => hdrReplay d.raw with
  | none => endShares s k .faulted gone
  | some d =>
    let s := markReplayed s k.queue k.seq
    match kernelReach s k.queue d with
    | (.ok segs, .ok args) => setKernel s k.queue k.seq fun k =>
        { k with segs, args, waiting := gone.map (fun g => (g.1, g.2.1)) ++ k.waiting }
    | _ => endShares s k .access (gone.map fun g => (g.1, g.2.1, noFlags))

/-- A stopped kernel is finished: shares that a page fault has switched out are not in flight and stay so, and with no
other the kernel goes on; the shares that the stop took off their spindles are replayed or end (12 R338, R340). -/
def resetKernel (s : State) (k : Kernel) : State :=
  if s.trans.images.all fun i => !(i.queue == k.queue && i.share.seq == k.seq) then interruptKernel s k.queue k.seq
  else
    let warm := k.warm || s.mgmt.phase == .warmup
    let s := setKernel s k.queue k.seq fun k => { k with stopped := false, cut := [], warm }
    if k.cut = [] then s else replayShares s k k.cut

/-! ## A move interrupted (12 R338, 01 R35) -/

/-- The descriptor a move belongs to: its own, or its kernel's. -/
def Move.work (s : State) (m : Move) : Option (Fin 4096 × Nat) :=
  match m.origin with
  | .desc q seq => some (q, seq)
  | .instr p _ => (s.sp p).share.map fun h => (h.queue, h.seq)

/-- A move that has left its flyer with the flags it had set. One of a flyer instruction does not complete its token: its
kernel is replayed or ends with FAULTED (06 R156). A MOVE dispatches again, with new translations (11 R305), if it may be
replayed; otherwise it ends with FAULTED. -/
def finishMove (s : State) (m : Move) (fl : Flags) : State :=
  match m.work s with
  | none => s
  | some (q, seq) =>
    if m.origin != .desc q seq then interruptKernel s q seq
    else if replaySafe s q seq then redo s q seq fl
    else countMove (reportMove s m .faulted fl) m .faulted

/-- A move that leaves its flyer with its bytes unspecified is finished. -/
def interruptMove (s : State) (m : Move) : State := finishMove (spoil s m) m (startedFlags s m)

/-- The move on a flyer is interrupted. -/
def interruptFlyer (s : State) (k : Fin 8) (f : Fin 4) : State :=
  let y := (s.sk k).fly.get f
  match y.move with
  | none => s
  | some m =>
    interruptMove (s.setSk k { s.sk k with fly := upd (s.sk k).fly f { y with move := none } }) m

/-! ## Work that a stop or a warm reset interrupts (12 R338, R340; 17 R475; 18 R491, R504) -/

/-- A kernel that stops with the mill die: its shares leave their spindles, and are finished later. -/
def cutKernel (s : State) (k : Kernel) : State :=
  let gone := (spindlesOf s k.queue k.seq).filterMap fun p =>
    (s.sp p).share.map fun h => (h.index, h.logical, shareFlags (s.sp p) h)
  setKernel (stopShares s k.queue k.seq) k.queue k.seq fun k => { k with stopped := true, cut := k.cut ++ gone }

/-- A descriptor in flight none of whose work has started goes back to be dispatched. -/
def undoDispatch (s : State) (m : Move) : State :=
  match m.origin with
  | .desc q seq => setDesc s q seq fun d => { d with st := .accepted }
  | .instr _ _ => s

/-- The moves of descriptors leave the flyers, and are finished later; those that wait for one are dispatched anew. -/
def parkMoves (s : State) : State :=
  let on := flying s
  let parked := on.map fun m => (m, startedFlags s m)
  let s := on.foldl spoil s
  let s := (s.skeins.toList.flatMap (·.fq)).foldl undoDispatch s
  { s with
    skeins := s.skeins.map fun k => { k with fq := [], fly := k.fly.map fun y => { y with move := none } }
    mgmt := { s.mgmt with parked := s.mgmt.parked ++ parked } }

/-- CHECK, DIGEST and creel operations in flight run again from their start: a BIND is dispatched anew. -/
def rerunMarks (s : State) : State :=
  let s := s.sweeps.foldl (fun s w => if w.kind = .optim then s else markReplayed s w.queue w.seq) s
  let s := (s.skeins.toList.flatMap (·.bindWait)).foldl (fun s w => redo s w.queue w.seq noFlags) s
  { s with skeins := s.skeins.map fun k => { k with bindWait := [] } }

/-- Work in flight stops with the mill die. All of it finishes before later descriptors of its queue dispatch (12 R340). -/
def stopWork (s : State) : State :=
  let mark (d : Desc) : Desc := if d.st = .running then { d with intr := true } else d
  let s : State := { s with queues := s.queues.map fun x => { x with descs := x.descs.map mark } }
  rerunMarks (parkMoves (s.kernels.foldl cutKernel s))

/-- The faults of shares that a stop took off their spindles close as resolved (12 R340). -/
def closeCut (s : State) : State :=
  let of (k : Kernel) (f : PFault) : Bool := k.queue == f.queue && k.cut.any fun c => f.work == .share c.2.1 k.seq
  ((s.trans.faults.filter fun f => s.kernels.any fun k => of k f).map (·.id)).foldl dropFault s

/-- The stopped work of the queues that work now is finished (12 R338): kernels and moves are replayed or fail; sweeps go on
by their redo records, RMA and collectives go on. -/
def finishWork (s : State) : State :=
  let s := closeCut s
  let mine (x : Move × Flags) : Bool := s.worksFor x.1.queue
  let ms := s.mgmt.parked.filter mine
  let s := s.setMgmt { s.mgmt with parked := s.mgmt.parked.filter fun x => !mine x }
  let s := (s.kernels.filter fun k => k.stopped && s.worksFor k.queue).foldl resetKernel s
  boundaries (ms.foldl (fun s x => finishMove s x.1 x.2) s) (List.finRange 136)

/-- What a stop leaves of the work in flight is finished as far as the device now works. -/
def interruptAll (s : State) : State := finishWork (stopWork s)

/-! ## The skein map (01 R21, R25) -/

/-- MAP_CHANGE_APPLY: a change of a skein's map takes effect at the kernel boundary (01 R25). -/
def doMapChangeApply (k : Fin 8) (s : State) : State := if s.mgmt.clockLost then s else settleMap s k

/-- The command MAP_CHANGE_APPLY. -/
def execMapChangeApply (k : Fin 8) (s : State) : Res := .next (doMapChangeApply k s)

/-! ## Part faults (01 R35) -/

/-- SPINDLE_FAIL: the skein map changes at once and the kernel that ran on the spindle is interrupted. -/
def doSpindleFail (p : Fin 136) (s : State) : State :=
  let k := skeinOf p
  let l := localOf p
  let sk := s.sk k
  if !sk.healthy.getLsbD l.val then
    -- a restored spindle that fails before it has joined does not join
    if sk.changes.contains (.join l) then
      record (s.setSk k { sk with changes := sk.changes.filter fun c => c != MapChange.join l }) 0x01 none 1 p.val
        [sk.mapGen.toNat, 2]
    else s
  else
  let s := s.setSk k ({ sk with changes := sk.changes.filter fun c => c != MapChange.leave l && c != MapChange.join l }.lose l)
  let s := match (s.sp p).share with
    | some h => interruptKernel s h.queue h.seq
    | none => s
  let s := boundaries (s.setSp p { s.sp p with owner := none, bobbin := [] }) (List.finRange 136)
  record s 0x01 none 1 p.val [(s.sk k).mapGen.toNat, 2]

/-- The command SPINDLE_FAIL (01 R21, R22, R35). -/
def execSpindleFail (p : Fin 136) (s : State) : Res := .next (doSpindleFail p s)

/-- FLYER_FAIL: its move is replayed or ends with FAULTED; the skein's other flyers take its share. -/
def doFlyerFail (k : Fin 8) (f : Fin 4) (s : State) : State :=
  if ((s.sk k).fly.get f).failed then s else
  let s := s.setSk k { s.sk k with fly := upd (s.sk k).fly f { (s.sk k).fly.get f with failed := true } }
  let s := interruptFlyer s k f
  let s := s.setSk k (feedAll (s.sk k))
  record s 0x01 none 2 (4 * k.val + f.val) [(s.sk k).mapGen.toNat, 2]

/-- The command FLYER_FAIL (01 R35). -/
def execFlyerFail (k : Fin 8) (f : Fin 4) (s : State) : Res := .next (doFlyerFail k f s)

/-- D2D_LINK_RETRY: the transfer is sent again inside the link; only the count shows it (01 R35, 18 R511). -/
def doD2dLinkRetry (s : State) : State := s.setMgmt { s.mgmt with d2d := s.mgmt.d2d + 1 }

/-- The command D2D_LINK_RETRY. -/
def execD2dLinkRetry (s : State) : Res := .next (doD2dLinkRetry s)

end Sys2Proof.Machine
end

