-- ==== Sys2Proof/Machine/MemEvents.lean ====
section
/-!
DEFINITION. Events and orders of memory (09; 08 R227; 10 R265): errors, map-out and re-interleave, the creel
quotas and the reel caches' KEEP limit.
-/

namespace Sys2Proof.Machine

/-! ## Sizes (09 R231, R239) -/

/-- Size of an alias window in MiB. -/
def aliasMib (m : Mem) (k : Fin 8) : Nat := (m.stack.get k).channels * 1536

/-- Size of the interleaved range in MiB: the stacks of the interleave times the smallest of their windows. -/
def ilSizeOf (m : Mem) : Nat :=
  match m.il with
  | [] => 0
  | k :: ks => m.il.length * (ks.foldl (fun n j => min n (aliasMib m j)) (aliasMib m k))

/-- The memory map after a change of channels or stacks: `IL_SIZE` and `MEM_GEN` (09 R254). -/
def Mem.resized (m : Mem) : Mem := { m with ilMib := ilSizeOf m, memGen := m.memGen + 1 }

def Mem.setStack (m : Mem) (k : Fin 8) (x : Stack) : Mem := { m with stack := upd m.stack k x }
def Mem.setChan (m : Mem) (c : Fin 256) (x : Chan) : Mem := { m with chan := upd m.chan c x }

/-! ## Errors (09 R234 to R237) -/

/-- Errors within the window, with those now added (09 R237). -/
def windowed (m : Mem) (now : Nat) (l : List (Nat × Nat × Nat)) : List (Nat × Nat × Nat) :=
  l.filter fun e => decide (now ≤ e.1 + m.ceWindow * 1000000)

/-- A channel of a lost stack: mapped out with that cause (6), or with its own where it was on the retire list (18 R482). -/
def Chan.gone (x : Chan) (own : Option Nat) : Chan := { x with st := .mappedOut, cause := own.getD 6 }

/-- A channel that has counted errors. -/
def Chan.countErrors (x : Chan) (m : Mem) (now ces ues : Nat) : Chan :=
  { x with
    ce := min 0xFFFFFF (x.ce + ces), ue := min 0xFFFF (x.ue + ues)
    recent := (now, ces, ues) :: windowed m now x.recent }

/-- Bursts poisoned, each once. -/
def Mem.taint (m : Mem) (bs : List Nat) : Mem :=
  { m with poison := bs.foldl (fun l b => if l.contains b then l else b :: l) m.poison }

/-- The burst of a physical address that lies in memory. -/
def burstAt (m : Mem) (a : Nat) : Option Nat := (locKey (physLoc m a)).map fun key => key / 32

/-! ## Map-out and re-interleave (09 R238 to R242, R257) -/

/-- A re-interleave starts: a channel that leaves drains; one that joins raises the sizes at once,
and the capacity recovered reads as zero (09 R242). -/
def beginMigration (s : State) (g : Migration) : State :=
  let k := stackOf g.chan
  let m := s.mem
  let x := m.chan.get g.chan
  let y := m.stack.get k
  if g.joins then
    let m := m.setChan g.chan { x with st := .restoring }
    let y := { y with
      channels := y.channels + 1, granule := 0
      distFailed := y.distFailed &&& ~~~(1#32 <<< (g.chan.val % 32)) }
    let a := aliasBase k.val + aliasSize m k
    let m := m.setStack k y
    s.setMem ({ m with mig := some g, base := (a, aliasBase k.val + aliasSize m k, none) :: m.base }.resized)
  else
    let m := m.setChan g.chan { x with st := .draining, cause := g.cause }
    s.setMem { m.setStack k { y with granule := 0 } with mig := some g }

/-- Only one stack migrates at a time; a further change waits (09 R240). -/
def startMigration (s : State) (g : Migration) : State :=
  match s.mem.mig with
  | none => beginMigration s g
  | some _ => s.setMem { s.mem with migWait := s.mem.migWait ++ [g] }

/-- Whether a channel has passed its self-test and waits to join, or for the migration by which it joins (09 R242). -/
def comesBack (s : State) (c : Fin 256) : Bool :=
  let o := s.mgmt.unit
  (s.mem.chan.get c).st == .restoring && !(o.busy && o.runUnit == 3 && o.runIndex == c.val) &&
  !s.mem.mig.any fun g => g.chan == c

/-- Whether a channel is in service, or comes back, or joins by the migration that runs, and no map-out of it waits. One that
joins leaves again once that migration has ended (09 R237, R240). -/
def mayLeave (s : State) (c : Fin 256) : Bool :=
  ((s.mem.chan.get c).st == .inService || comesBack s c || s.mem.mig.any fun g => g.joins && g.chan == c) &&
  s.mem.migWait.all fun g => g.joins || g.chan != c

/-- A map-out (09 R238). A channel that has not joined yet holds nothing and stays out (log 170). -/
def mapOut (s : State) (c : Fin 256) (cause : Nat) : State :=
  if !mayLeave s c then s
  else if comesBack s c then
    s.setMem { s.mem.setChan c { s.mem.chan.get c with st := .mappedOut, cause } with
      migWait := s.mem.migWait.filter fun g => g.chan != c }
  else startMigration s { chan := c, joins := false, cause }

/-- A record of a part of memory that failed (18 R510). -/
def memPartRecord (s : State) (unit index cause : Nat) : State :=
  record s 0x01 none unit index [s.mem.memGen.toNat, cause]

/-- Whether a range lies in a channel. -/
def segsInChan (m : Mem) (c : Fin 256) (segs : List Seg) : Bool :=
  segs.any fun g => (probePoints g.pa g.len).any fun a =>
    match locKey (physLoc m a) with
    | some key => keyChan m key == some c
    | none => false

/-- Whether some sweep has work left on a stack. -/
def sweepsOn (s : State) (k : Fin 8) : Bool := s.sweeps.any fun w => w.parts.any fun g => g.stack == k && g.open_

/-- Sweeps of a stack wait for the migration and their redo records (10 R285); a CHECK or DIGEST is rerun from its start
(10 R286). -/
def needRedo (s : State) (k : Fin 8) : State :=
  let y := s.mem.stack.get k
  let again (w : Sweep) : Bool := w.kind != .optim && w.parts.any fun g => g.stack == k
  let s := (s.sweeps.filter again).foldl (fun s w => markReplayed s w.queue w.seq) s
  s.setMem (s.mem.setStack k { y with distWait := y.distWait || sweepsOn s k })

/-- The limit that a channel's counts have reached: its CEs exceed `CE_LIMIT`, or its UEs reach `UE_LIMIT` (09 R237). -/
def overLimit (m : Mem) (now : Nat) (x : Chan) : Option Nat :=
  let l := windowed m now x.recent
  if m.ceLimit < (l.map fun e => e.2.1).sum then some 1
  else if m.ueLimit ≤ (l.map fun e => e.2.2).sum then some 2
  else none

/-- Why a channel is mapped out: its limits where its counts have reached them, else a fault of its own (09 R237). -/
def faultCause (m : Mem) (now : Nat) (x : Chan) : Nat := (overLimit m now x).getD 3

/-- A channel whose counts have reached a limit is mapped out (09 R237). -/
def checkLimits (s : State) (c : Fin 256) : State :=
  match overLimit s.mem (s.now / 1000) (s.mem.chan.get c) with
  | some cause => if mayLeave s c then mapOut (memPartRecord s 3 c.val 2) c cause else s
  | none => s

/-- Bursts of the given addresses poisoned, in the creel where a binding holds the byte (09 R234, log 144). -/
def taintAt (s : State) (keys : List Nat) : State :=
  let held (k : Nat) : Bool := (creelByte s k).isSome
  let mem := s.mem.taint ((keys.filter fun k => !held k).map (· / 32))
  s.setMem { mem with creelPoison := (mem.creelPoison ++ (keys.filter held).map (· / 32)).dedup }

/-- PATROL_SCRUB: the scrub of channel `c` corrects `ces` errors and finds errors it cannot correct in the bursts at the
physical addresses `ues` (09 R236). An address of the far tier stands for poisoned data that an expander returns, one that
a binding holds for an error of the creel (09 R234, R253, log 144). -/
def doPatrolScrub (c : Fin 256) (ces : Nat) (ues : List Nat) (s : State) : State :=
  let m := s.mem
  let x := m.chan.get c
  let serves : Bool := x.st == .inService || x.st == .draining || m.mig.any fun g => g.chan == c
  if !serves ∨ s.mgmt.clockLost then s else
  let keys := ues.filterMap fun a => locKey (physLoc m a)
  let mine := keys.filter fun k => keyChan m k == some c
  let far := keys.filter fun k => decide (0x100000000000 ≤ k)
  checkLimits (taintAt (s.setMem (m.setChan c (x.countErrors m (s.now / 1000) ces mine.length))) (mine ++ far)) c

/-- The command PATROL_SCRUB. -/
def execPatrolScrub (c : Fin 256) (ces : Nat) (ues : List Nat) (s : State) : Res := .next (doPatrolScrub c ces ues s)

/-- The kernels that a channel's fault interrupts: those whose image or arguments, or a move of theirs, lie in it; and the
MOVE descriptors on flyers that do (09 R241). -/
def chanWork (s : State) (c : Fin 256) : List (Fin 4096 × Nat) :=
  let hit (m : Move) : Bool := segsInChan s.mem c (m.srcSegs ++ m.dstSegs ++ m.shSegs)
  (((flying s).filter hit).filterMap fun m => m.work s) ++
    (s.kernels.filter fun k => segsInChan s.mem c (k.segs ++ k.args)).map fun k => (k.queue, k.seq)

/-- Work waits for the migration of its ranges before it is replayed (09 R241): descriptors back to be dispatched, and the
moves that wait again for a flyer. -/
def holdReplays (s : State) (c : Fin 256) (ws : List (Fin 4096 × Nat)) : State :=
  let s := ws.foldl (fun s w => setDesc s w.1 w.2 fun d => { d with waitMig := true }) s
  let held (m : Move) : Move :=
    if (ws.any fun w => m.origin == .desc w.1 w.2) && segsInChan s.mem c (m.srcSegs ++ m.dstSegs ++ m.shSegs) then
      { m with waitMig := true } else m
  { s with skeins := s.skeins.map fun k => { k with fq := k.fq.map held } }

/-- The work on a channel that has failed is interrupted (09 R241). -/
def interruptChan (s : State) (c : Fin 256) : State :=
  let ws := (chanWork s c).dedup
  let ks := ws.filter fun w => (kernelOf s w.1 w.2).isSome
  let s := ks.foldl (fun s w => interruptKernel s w.1 w.2) s
  let hit (m : Move) : Bool := segsInChan s.mem c (m.srcSegs ++ m.dstSegs ++ m.shSegs)
  let s := (List.finRange 8).foldl (fun s k => (List.finRange 4).foldl (fun s i =>
    match ((s.sk k).fly.get i).move with
    | some m => if hit m then interruptFlyer s k i else s
    | none => s) s) s
  let s := holdReplays s c ws
  needRedo { s with skeins := s.skeins.map feedAll } (stackOf c)

/-- Moves that waited for a migration which has now passed their ranges may start (09 R241). -/
def releaseMoves (s : State) : State :=
  let free (m : Move) : Move := if migPassed s (m.srcSegs ++ m.dstSegs ++ m.shSegs) then { m with waitMig := false } else m
  { s with skeins := s.skeins.map fun k => feedAll { k with fq := k.fq.map free } }

/-- CHANNEL_FAULT (09 R237): its map-out starts. A channel that itself faulted interrupts the work on it (09 R241). -/
def doChannelFault (c : Fin 256) (s : State) : State :=
  if !mayLeave s c then s else
  let cause := faultCause s.mem (s.now / 1000) (s.mem.chan.get c)
  let s := mapOut (memPartRecord s 3 c.val 2) c cause
  if cause = 3 then interruptChan s c else s

/-- The command CHANNEL_FAULT. -/
def execChannelFault (c : Fin 256) (s : State) : Res := .next (doChannelFault c s)

/-- DISTAFF_FAIL (10 R265): the channel is mapped out, its sweep waits for a healthy distaff. -/
def doDistaffFail (c : Fin 256) (s : State) : State :=
  let k := stackOf c
  let y := s.mem.stack.get k
  if y.distFailed.getLsbD (c.val % 32) then s else
  let s := s.setMem (s.mem.setStack k { y with distFailed := y.distFailed ||| (1#32 <<< (c.val % 32)) })
  mapOut (memPartRecord (needRedo s k) 3 c.val 2) c 4

/-- The command DISTAFF_FAIL. -/
def execDistaffFail (c : Fin 256) (s : State) : Res := .next (doDistaffFail c s)

/-- A word of `MEM_CTRL` held until the migration ends (09 R257). -/
def holdOrder (s : State) (w : Word) : State := s.setMem { s.mem with heldCtrl := s.mem.heldCtrl ++ [w] }

/-- A map-out by order: the channel is retired, and its record says so (18 R510). -/
def orderOut (s : State) (c : Fin 256) : State := if mayLeave s c then mapOut (memPartRecord s 3 c.val 3) c 5 else s

/-- MAP_OUT by the controller. -/
def doMapOut (c : Fin 256) (s : State) : State :=
  if s.mem.mig.isSome then holdOrder s (BitVec.ofNat 64 (c.val + 0x100)) else orderOut s c

/-- The command MAP_OUT (09 R238). -/
def execMapOut (c : Fin 256) (s : State) : Res := .next (doMapOut c s)

/-- The interleave over the stacks that survive a loss (09 R243); ignored otherwise. Before full service there is none
(R233): the order is carried out there. -/
def rebuildNow (s : State) : State :=
  if s.mem.il = [] ∧ s.mem.stack.toList.any (·.lost) then
    match if s.mgmt.phase = .stopped then s.mgmt.resume else s.mgmt.phase with
    | .full =>
      let il := (List.finRange 8).filter fun k => (s.mem.stack.get k).up && !(s.mem.stack.get k).lost
      s.setMem ({ s.mem with il }.resized)
    | _ => s.setMem { s.mem with rebuildDue := true }
  else s

/-- REBUILD. -/
def doRebuild (s : State) : State := if s.mem.mig.isSome then holdOrder s 0x200 else rebuildNow s

/-- The command REBUILD. -/
def execRebuild (s : State) : Res := .next (doRebuild s)

/-- What waits for the end of a migration goes on: a waiting change of the channels first, then the held
orders of the controller, one migration at a time. -/
def afterMigration : Nat → State → State
  | 0, s => s
  | fuel + 1, s =>
    if s.mem.mig.isSome then releaseMoves s else
    match s.mem.migWait, s.mem.heldCtrl with
    | g :: gs, _ => afterMigration fuel (beginMigration (s.setMem { s.mem with migWait := gs }) g)
    | [], w :: ws =>
      let s := s.setMem { s.mem with heldCtrl := ws }
      let s := if w.getLsbD 8 then orderOut s ⟨w.toNat % 256, Nat.mod_lt _ (by omega)⟩ else s
      afterMigration fuel (if w.getLsbD 9 then rebuildNow s else s)
    | [], [] => releaseMoves s

/-- Number of alias granules of a stack once a migration has ended. -/
def granulesAfter (m : Mem) (g : Migration) : Nat :=
  let n := (m.stack.get (stackOf g.chan)).channels
  (if g.joins then n else n - 1) * chanGranules

/-- MIGRATION_GRANULE_COPY: the next alias granule is copied where the stack is in service; the bursts `ues` of it, numbered from 0 to 127,
are poisoned at their new place because they cannot be read (09 R238). -/
def doMigrationGranuleCopy (ues : List Nat) (s : State) : State :=
  match s.mem.mig with
  | none => s
  | some g =>
    let k := stackOf g.chan
    let y := s.mem.stack.get k
    if granulesAfter s.mem g ≤ y.granule ∨ !s.serving ∨ !y.up then s else
    let bad := (ues.filter (· < 128)).filterMap fun i => burstAt s.mem (aliasBase k.val + y.granule * 4096 + 32 * i)
    let fresh := (bad.filter fun b => !s.mem.poison.contains b).length
    let c := granuleChan s.mem k y.granule
    let m := match c with
      | some c => s.mem.setChan c ((s.mem.chan.get c).countErrors s.mem (s.now / 1000) 0 fresh)
      | none => s.mem
    let s := releaseMoves (s.setMem ((m.setStack k { y with granule := y.granule + 1 }).taint bad))
    match c with
    | some c => checkLimits s c
    | none => s

/-- The command MIGRATION_GRANULE_COPY. -/
def execMigrationGranuleCopy (ues : List Nat) (s : State) : Res := .next (doMigrationGranuleCopy ues s)

/-- Cells and poison of alias granules at or above a window's size are lost (09 R239). -/
def Mem.cutAbove (m : Mem) (k : Fin 8) : Mem :=
  let lost (key : Nat) : Bool := decide (aliasBase k.val + aliasSize m k ≤ key) && decide (key < aliasBase (k.val + 1))
  { m with cells := m.cells.filter (fun c => !lost c.1), poison := m.poison.filter fun b => !lost (b * 32) }

/-- What the bindings hold of such granules is lost with them (09 R239). -/
def cutBindings (s : State) (k : Fin 8) : State :=
  let lost (key : Nat) : Bool :=
    decide (aliasBase k.val + aliasSize s.mem k ≤ key) && decide (key < aliasBase (k.val + 1))
  let cut (b : Binding) : Binding := { b with data := b.data.filter fun c => !lost c.1 }
  let s := s.setMem { s.mem with creelPoison := s.mem.creelPoison.filter fun b => !lost (b * 32) }
  { s with skeins := s.skeins.map fun x => { x with bindings := x.bindings.map cut } }

/-- MIGRATION_END: the re-interleave ends, every granule that no command copied having been read without
error. A channel that left shrinks its stack; one that joined is in service (09 R239, R242). -/
def doMigrationEnd (s : State) : State :=
  if !s.serving then s else
  match s.mem.mig with
  | none => s
  | some g =>
    let k := stackOf g.chan
    let x := s.mem.chan.get g.chan
    let y := s.mem.stack.get k
    let m := { s.mem with mig := none }
    let m := if g.joins then
        (m.setChan g.chan { x with st := .inService, cause := 0 }).setStack k { y with granule := 0 }
      else
        let m := (m.setChan g.chan { x with st := .mappedOut }).setStack k
          { y with granule := 0, channels := y.channels - 1 }
        (m.cutAbove k).resized
    let s := if g.joins then s.setMem m else cutBindings (s.setMem m) k
    let s := record s 0x03 none 3 g.chan.val
      [m.ilMib, aliasMib m k, if g.joins then 0 else aliasBase k.val + aliasSize m k, m.memGen.toNat]
    afterMigration (m.migWait.length + m.heldCtrl.length + 1) s

/-- The command MIGRATION_END. -/
def execMigrationEnd (s : State) : Res := .next (doMigrationEnd s)

/-- CHANNEL_RESTORE_JOIN: a channel that has passed self-test and training joins its stack (09 R242). -/
def doChannelRestoreJoin (c : Fin 256) (s : State) : State :=
  if comesBack s c ∧ !(s.mem.stack.get (stackOf c)).lost ∧ s.mem.migWait.all (fun g => g.chan != c) then
    startMigration s { chan := c, joins := true, cause := 0 }
  else s

/-- The command CHANNEL_RESTORE_JOIN. -/
def execChannelRestoreJoin (c : Fin 256) (s : State) : Res := .next (doChannelRestoreJoin c s)

/-! ## Limits, quotas, KEEP ways -/

/-- MEM_ERR_COMMIT (09 R256). -/
def doMemErrCommit (s : State) : State :=
  let m := s.mem
  let w := (stagedOr m.limSt 0x2080 (BitVec.ofNat 64
    (fld m.ceLimit 0 16 + fld m.ceWindow 16 16 + fld m.ueLimit 32 8))).toNat
  let ce := bitsOf w 0 16
  let win := bitsOf w 16 16
  let ue := bitsOf w 32 8
  if m.limSt = [] then s.setMem { m with limRes := .ok }
  else if ce = 0 ∨ win = 0 ∨ ue = 0 then s.setMem { m with limSt := [], limRes := .refused }
  else s.setMem { m with limSt := [], limRes := .ok, ceLimit := ce, ceWindow := win, ueLimit := ue }

/-- The command MEM_ERR_COMMIT. -/
def execMemErrCommit (s : State) : Res := .next (doMemErrCommit s)

/-- `LEAS` and `PIN` of a queue as a commit would leave them. -/
def Queue.quota (x : Queue) : Nat × Nat :=
  match x.quotaSt with
  | some w => (bitsOf w.toNat 0 9, bitsOf w.toNat 16 9)
  | none => (x.leas, x.pin)

/-- CREEL_QUOTA_COMMIT (08 R227). -/
def doCreelQuotaCommit (s : State) : State :=
  let good := s.queues.toList.all fun x =>
    decide (x.quota.1 ≤ 256) && decide (x.quota.2 ≤ 224) && decide (x.quota.2 ≤ x.quota.1)
  if good then
    { s with
      quotaRes := .ok
      queues := s.queues.map fun x => { x with leas := x.quota.1, pin := x.quota.2, quotaSt := none } }
  else { s with quotaRes := .refused, queues := s.queues.map fun x => { x with quotaSt := none } }

/-- The command CREEL_QUOTA_COMMIT. -/
def execCreelQuotaCommit (s : State) : Res := .next (doCreelQuotaCommit s)

/-- KEEP lines beyond the limit become normal lines, the oldest of each set first (09 R247). -/
def demoteSets (w : Nat) (ls : List ReelLine) : List ReelLine :=
  (ls.map fun l => reelSet l.line).dedup.foldl (fun l set => demote w set 0 l) ls

/-- KEEP_WAYS_WRITE. -/
def doKeepWaysWrite (k : Fin 8) (w : Fin 16) (s : State) : State :=
  let c := s.mem.reel.get k
  s.setMem { s.mem with reel := upd s.mem.reel k { c with keepWays := w, lines := demoteSets w.val c.lines } }

/-- The command KEEP_WAYS_WRITE. -/
def execKeepWaysWrite (k : Fin 8) (w : Fin 16) (s : State) : Res := .next (doKeepWaysWrite k w s)

end Sys2Proof.Machine
end

