-- ==== Sys2Proof/Machine/Groups.lean ====
section
/-!
DEFINITION. Ply groups (15): the peer table and the group slots, collectives, barriers, skip-step and digest
agreement, LAG and PACE, the failure and adoption of a member.
-/

namespace Sys2Proof.Machine

/-! ## Reduction adds (10 R263) -/

/-- Element width in bytes of an ATOMIC_ADD type: FP32, BF16, FP16, INT32, INT64 (12 R320). -/
def addWidth (ty : Nat) : Nat :=
  match ty with
  | 0 | 3 => 4
  | 4 => 8
  | _ => 2

/-- A signed value of `w` bits. -/
def signedOf (w x : Nat) : Int := if x % 2 ^ w < 2 ^ (w - 1) then (x % 2 ^ w : Nat) else (x % 2 ^ w : Nat) - (2 ^ w : Nat)

/-- An integer add modulo 2^w with its overflow flag. -/
def addInt (w a b : Nat) : Nat × Flags :=
  let r := signedOf w a + signedOf w b
  ((a + b) % 2 ^ w,
   { noFlags with ovf := decide (r < -((2 ^ (w - 1) : Nat) : Int)) || decide (((2 ^ (w - 1) : Nat) : Int) ≤ r) })

/-- One element added with one rounding by RNE. -/
def addElem (ty old src : Nat) : Nat × Flags :=
  match ty with
  | 3 => addInt 32 old src
  | 4 => addInt 64 old src
  | _ =>
    let f : Fmt := match ty with
      | 0 => .fp32
      | 1 => .bf16
      | _ => .fp16
    let a := decode f old
    let b := decode f src
    let r := a.add b
    let (c, g) := encode f false .rne 0 r
    (c, g.or (madeNan r [a, b]))

/-- Elements added over old bytes. -/
def addBytes (ty : Nat) (old src : List Byte) : List Byte × Flags :=
  let w := 8 * addWidth ty
  let n := src.length / addWidth ty
  let rs := ((elems w n old).zip (elems w n src)).map fun x => addElem ty x.1 x.2
  (packBytes w (rs.map (·.1)), orFlags (rs.map (·.2)))

/-- The add type of a collective's format. -/
def addTypeOf (fmt : Nat) : Option Nat :=
  match fmtOf fmt with
  | .fp32 => some 0
  | .bf16 => some 1
  | .fp16 => some 2
  | .i32 => some 3
  | _ => none

/-- Bytes added in place at a captured range, by the distaffs or in the creel; an add that meets poison is not applied
(10 R263, R265). -/
def addSegs (s : State) (segs : List Seg) (ty a : Nat) (src : List Byte) : State × Bool × Flags :=
  if segsPoisoned s segs a src.length then (s, false, noFlags) else
  let (new, f) := addBytes ty (readSegs s segs a src.length) src
  let s := (pieces segs a src.length).foldl (fun s y => addTouch s y.1 y.2.2) s
  ((writeSegs s segs a new).1, true, f)

/-! ## Members (15 R398 to R404) -/

def PlyCfg.node (c : PlyCfg) : Nat := 2 ^ c.nodeLog2

/-- Whether member `i` is not FAILED. -/
def Ply.here (x : Ply) (i : Nat) : Bool := decide (i < x.cfg.members) && !x.failed.getLsbD i

/-- Members not FAILED, ascending. -/
def Ply.present (x : Ply) : List Nat := (List.range x.cfg.members).filter x.here

/-- Members not FAILED but this device. -/
def Ply.others (x : Ply) : List Nat := x.present.filter (· != x.cfg.index)

/-- The master now (15 R404). -/
def Ply.masterNow (x : Ply) : Nat :=
  if x.cfg.masterSet && x.here x.cfg.master then x.cfg.master else x.present.head?.getD 0

/-- Whether this device is the master. -/
def Ply.mine (x : Ply) : Bool := x.masterNow == x.cfg.index

/-- Peer entry of member `i`. -/
def Ply.entry (x : Ply) (i : Nat) : Option (Fin 64) :=
  let e := x.cfg.map.getD i 0xFF
  if h : e < 64 then some ⟨e, h⟩ else none

def State.peer (s : State) (e : Fin 64) : Peer := s.ply.peers.get e
def State.setPeer (s : State) (e : Fin 64) (x : Peer) : State :=
  { s with ply := { s.ply with peers := upd s.ply.peers e x } }

/-- Strand of member `i` of a slot. -/
def memberStrand (s : State) (x : Ply) (i : Nat) : Option (Fin 2048) :=
  (x.entry i).bind fun e => if (s.peer e).strand.val = 0 then none else some (s.peer e).strand

/-- Code of a queue's owner in `OWNER` fields (14 R376). -/
def ownerNum : Owner → Nat
  | .controller => 1
  | .tenant => 2

/-- Whether a group's peer strands belong to an owner (15 R399). -/
def groupOwned (s : State) (x : Ply) (o : Owner) : Bool :=
  ((List.range x.cfg.members).filter (· != x.cfg.index)).all fun i => match memberStrand s x i with
    | some n => (s.strand n).cfg.owner == ownerNum o
    | none => false

/-- The enabled slot that holds a group. -/
def slotOf (s : State) (group : Nat) : Option (Fin 8) :=
  (List.finRange 8).find? fun k => (s.slot k).cfg.enable && (s.slot k).cfg.group == group

/-- The first operation of a slot: operations of one group run one at a time (15 R405). -/
def headOp (s : State) (k : Fin 8) : Option GOp := s.ply.ops.find? fun o => o.slot = k

def dropOp (s : State) (o : GOp) : State :=
  { s with ply := { s.ply with ops := s.ply.ops.filter fun x => !(x.queue == o.queue && x.seq == o.seq) } }

def setOp (s : State) (o o' : GOp) : State :=
  { s with ply := { s.ply with ops := s.ply.ops.map fun x => if x.queue = o.queue ∧ x.seq = o.seq then o' else x } }

/-- A group operation ends on this member. -/
def endOp (s : State) (o : GOp) (st : Status) : State :=
  finish (dropOp s o) o.queue o.seq st o.flags 0 0 0

/-- A group operation matched: `MATCH` counts it and its step is the latest of the slot (15 R402, R421). -/
def matched (s : State) (k : Fin 8) (o : GOp) : State :=
  let x := s.slot k
  s.setSlot k { x with match_ := x.match_ + 1, lastStep := o.step }

/-- Bits of a list of members. -/
def memberBits (l : List Nat) : Nat := l.foldl (fun n i => n ||| 2 ^ i) 0

/-- A group fault record (15 R415). -/
def groupRecord (s : State) (k : Fin 8) (kind : Nat) (st : Status) (step named info : Nat) : State :=
  addRecord s 0
    ([fld kind 0 8 + fld st.code 8 8 + fld (s.slot k).cfg.group 16 16 + fld step 32 32, named, info, 0, 0, 0, 0, 0].map
      (BitVec.ofNat 64)) false

/-- A record that the master sends. -/
def masterRecord (s : State) (k : Fin 8) (kind : Nat) (st : Status) (step named info : Nat) : State :=
  if (s.slot k).mine then groupRecord s k kind st step named info else s

/-! ## Pace (15 R422, R423) -/

/-- The slowest divider step whose clock is at least a rate in per mille of 2.0 GHz. -/
def paceStep (rate : Nat) : Nat := ([24, 12, 10, 8, 7].find? fun d => decide (rate * d ≤ 6000)).getD 6

/-- The caps that the paces of all slots put on every skein. -/
def applyPaces (s : State) : State :=
  let d := (List.finRange 8).foldl (fun d k => if (s.slot k).pacing then max d (paceStep (s.slot k).pacePm) else d) 6
  { s with skeins := s.skeins.map fun k => { k with paceDiv := d } }

/-- The pace in effect on the device: the lowest of its slots (15 R402, R423). -/
def devPace (s : State) : Nat := s.ply.slots.toList.foldl (fun m x => min m x.pacePm) 1000

/-- The pace of a slot ends. -/
def endPace (s : State) (k : Fin 8) : State :=
  applyPaces (s.setSlot k { s.slot k with pacing := false, pacePm := 1000, paceDur := 0 })

/-- A pace of a slot takes effect; 1,000 per mille ends it. -/
def setPace (s : State) (k : Fin 8) (rate dur : Nat) : State :=
  applyPaces (s.setSlot k { s.slot k with pacing := decide (rate < 1000), pacePm := min 1000 rate, paceDur := dur })

/-- CANCEL_PACE, written in slot `k`: it ends any pace in effect on this device. -/
def doCancelPace (_ : Fin 8) (s : State) : State := (List.finRange 8).foldl endPace s

/-- The command CANCEL_PACE (15 R402, R423). -/
def execCancelPace (k : Fin 8) (s : State) : Res := .next (doCancelPace k s)

/-- PACE_EXPIRY: the duration of a pace ends. -/
def doPaceExpiry (k : Fin 8) (s : State) : State :=
  if (s.slot k).pacing && (s.slot k).paceDur != 0 then endPace s k else s

/-- The command PACE_EXPIRY (15 R423). -/
def execPaceExpiry (k : Fin 8) (s : State) : Res := .next (doPaceExpiry k s)

/-! ## The peer table (15 R401) -/

/-- `PSTATE` of a peer entry. -/
def pstate (s : State) (e : Fin 64) : Nat :=
  let p := s.peer e
  let x := s.strand p.strand
  if p.strand.val = 0 then 0
  else if p.failed then 4
  else if x.hold then 3
  else match x.st with
    | .opened | .stalled => 2
    | _ => 1

/-- Peer strand of an entry as a commit would leave it. -/
def stagedPeer (s : State) (e : Fin 64) : Nat :=
  bitsOf (stagedOr s.ply.peerSt (0xB008 + 0x10 * e.val) (BitVec.ofNat 64 (s.peer e).strand.val)).toNat 0 11

/-- Whether an enabled group maps an entry. -/
def entryMapped (s : State) (e : Fin 64) : Bool :=
  (List.finRange 8).any fun k => (s.slot k).cfg.enable && ((s.slot k).cfg.map.take (s.slot k).cfg.members).contains e.val

def peersOk (s : State) : Bool :=
  let strand (n : Nat) : Strand := if h : n < 2048 then s.strand ⟨n, h⟩ else {}
  (List.finRange 64).all fun e =>
    let n := stagedPeer s e
    !(strand n).session &&
    ((List.finRange 64).all fun f => f == e || n == 0 || stagedPeer s f != n) &&
    (n == (s.peer e).strand.val || !entryMapped s e || pstate s e == 4)

/-- PEER_COMMIT. -/
def doPeerCommit (s : State) : State :=
  if s.ply.peerSt = [] then { s with ply := { s.ply with peerRes := .ok } }
  else if peersOk s then
    let new (e : Fin 64) : Peer :=
      let n := stagedPeer s e
      if n = (s.peer e).strand.val then s.peer e
      else if h : n < 2048 then
        { strand := ⟨n, h⟩, fuseLo := BitVec.ofNat 64 (s.strand ⟨n, h⟩).peerId
          hello := ((s.strand ⟨n, h⟩).helloAt).getD 0 }
      else s.peer e
    { s with ply := { s.ply with peers := vecOf 64 new, peerSt := [], peerRes := .ok } }
  else { s with ply := { s.ply with peerSt := [], peerRes := .refused } }

/-- The command PEER_COMMIT (15 R401). -/
def execPeerCommit (s : State) : Res := .next (doPeerCommit s)

/-! ## The group slots (15 R402, R403) -/

/-- Words of a slot's staged group in effect, by offset. -/
def PlyCfg.word (c : PlyCfg) (off : Nat) : Word :=
  BitVec.ofNat 64 <|
    if off = 0x00 then
      fld c.group 0 16 + fld (c.members - 1) 16 6 + fld c.index 22 6 + fld (b2n c.enable) 28 1 + fld (b2n c.step) 29 1 +
        fld c.master 30 6 + fld (b2n c.masterSet) 36 1 + fld c.nodeLog2 37 2 + fld c.digestN 40 16 + fld c.bucketLog2 56 5
    else if off = 0x08 then
      fld c.gen 0 32 + fld c.shard 32 16 + fld (b2n c.paceEn) 48 1 + fld c.pacePct 49 7 + fld c.paceMin 56 8
    else if off = 0x70 then fld c.adoptEpoch 0 32 + fld (b2n c.adopt) 32 1
    else packNat 8 ((List.range 8).map fun b => c.map.getD (off - 0x10 + b) 0xFF)

/-- A slot's configuration from the words of its group. -/
def plyCfgOf (w : Nat → Word) : PlyCfg :=
  let f (off lo n : Nat) : Nat := bitsOf (w off).toNat lo n
  { group := f 0 0 16, members := f 0 16 6 + 1, index := f 0 22 6, enable := f 0 28 1 == 1, step := f 0 29 1 == 1
    master := f 0 30 6, masterSet := f 0 36 1 == 1, nodeLog2 := f 0 37 2, digestN := f 0 40 16, bucketLog2 := f 0 56 5
    gen := f 8 0 32, shard := f 8 32 16, paceEn := f 8 48 1 == 1, pacePct := f 8 49 7, paceMin := f 8 56 8
    map := (List.range 64).map fun i => f (0x10 + i / 8 * 8) (8 * (i % 8)) 8
    adoptEpoch := f 0x70 0 32, adopt := f 0x70 32 1 == 1 }

/-- The entries that a slot's members use. -/
def PlyCfg.entries (c : PlyCfg) : List Nat :=
  ((List.range c.members).filter (· != c.index)).map fun i => c.map.getD i 0xFF

/-- Whether two configurations differ only in the entries of FAILED members, and in `GEN`. -/
def onlyFailedEntries (x : Ply) (c : PlyCfg) : Bool :=
  decide ({ c with gen := x.cfg.gen, map := x.cfg.map } = x.cfg) &&
  (List.range 64).all fun i => c.map.getD i 0xFF == x.cfg.map.getD i 0xFF || x.failed.getLsbD i

/-- The checks of a commit (15 R403, 00 R14). -/
def plyOk (s : State) (k : Fin 8) (c : PlyCfg) : Bool :=
  let es := c.entries
  decide (c.index < c.members) && decide (c.master < c.members) && c.members % c.node == 0 &&
  es.all (fun e => decide (e < 64) && (match (List.finRange 64).find? fun f => f.val = e with
    | some f => (s.peer f).strand.val != 0
    | none => false)) && decide es.Nodup &&
  (!c.enable || (List.finRange 8).all fun j => j == k || !(s.slot j).cfg.enable ||
    ((s.slot j).cfg.group != c.group && !((s.slot j).cfg.step && c.step))) &&
  (c.bucketLog2 == 0 || (decide (16 ≤ c.bucketLog2) && decide (c.bucketLog2 ≤ 26))) &&
  decide (50 ≤ c.pacePct) && decide (c.pacePct ≤ 99) && decide (1 ≤ c.paceMin) &&
  ((s.ply.ops.all fun o => o.slot != k) || onlyFailedEntries (s.slot k) c)

/-- The state a commit puts a slot in (15 R403, R426). -/
def plyAfter (x : Ply) (c : PlyCfg) : PlySt :=
  if !c.enable then .off
  else if c.adopt ∨ (x.st = .degraded ∧ onlyFailedEntries x c = true) ∨ (x.st = .adopting ∧ onlyFailedEntries x c = true) then
    .adopting
  else .forming

/-- Payload words of a PACE (15 R421). -/
def paceWords (group lagger seq rate dur : Nat) : Word × Word :=
  (BitVec.ofNat 64 (fld group 0 16 + fld lagger 16 6 + fld seq 32 32), BitVec.ofNat 64 (fld rate 0 10 + fld dur 32 32))

/-- A PACE sent to every member of `to_`, this device included when listed. -/
def sendPace (s : State) (k : Fin 8) (lagger rate dur : Nat) (dst : List Nat) : State :=
  let x := s.slot k
  let seq := (x.paceOut + 1) % 2 ^ 32
  let w := paceWords x.cfg.group lagger seq rate dur
  let s := s.setSlot k { x with paceOut := seq, paceOn := decide (rate < 1000) }
  dst.foldl (fun s i =>
    if i = x.cfg.index then setPace s k rate dur
    else match memberStrand s x i with
      | some n => post s n (.pace w.1 w.2)
      | none => s) s

/-- Whether a commit makes this device the spare that adopts an index: it adopts, and is no survivor of the group
(15 R426). -/
def becomesSpare (x : Ply) (c : PlyCfg) : Bool :=
  c.enable && c.adopt && (x.spare || !(x.st == .degraded || x.st == .adopting))

/-- FAILED members that a commit gives to a spare: it names another entry, or an entry that has been given another strand since
its peer failed (15 R401, R426). -/
def newEntries (s : State) (x : Ply) (c : PlyCfg) : BitVec 64 :=
  let fresh (i : Nat) : Bool := c.map.getD i 0xFF != x.cfg.map.getD i 0xFF || (x.entry i).any fun e => !(s.peer e).failed
  BitVec.ofNat 64 (memberBits ((List.range c.members).filter fun i => x.failed.getLsbD i && fresh i))

/-- What a commit leaves of a slot, `taken` the FAILED members that it gives to a spare (15 R402, R403, R426). A slot that forms a group afresh keeps nothing of the one before:
no LAG, and under another `GROUP_ID` no epoch (log 156). -/
def Ply.committed (x : Ply) (c : PlyCfg) (taken : BitVec 64) : Ply :=
  let st := plyAfter x c
  let spare := becomesSpare x c
  let kept : Bool := st == .adopting && !spare
  let same : Bool := c.group == x.cfg.group
  { x with cfg := c, staged := [], result := .ok, st, spare, failed := if kept then x.failed else 0
           adopted := if kept then x.adopted ||| taken else 0, match_ := if st = .forming then 0 else x.match_
           paceIn := 0, paceOn := false, lags := if kept then x.lags else []
           lagSent := if same then x.lagSent else none
           epoch := if same then x.epoch else 0, epochStep := if same then x.epochStep else 0 }

/-- PLY_COMMIT; a `GEN` that is not newer is stale (00 R14). A master that leaves READY ends the pace it has ordered on
every member (15 R423, R427). -/
def doPlyCommit (k : Fin 8) (s : State) : State :=
  let x := s.slot k
  let c := plyCfgOf fun off => stagedOr x.staged off (x.cfg.word off)
  if x.staged = [] then s.setSlot k { x with result := .ok }
  else if c.gen ≤ x.cfg.gen then s.setSlot k { x with staged := [], result := .staleGeneration }
  else if plyOk s k c then
    let s := if x.mine && x.paceOn then sendPace s k x.cfg.index 1000 0 x.others else s
    endPace (s.setSlot k ((s.slot k).committed c (newEntries s x c))) k
  else s.setSlot k { x with staged := [], result := .refused }

/-- The command PLY_COMMIT (15 R402, R403). -/
def execPlyCommit (k : Fin 8) (s : State) : Res := .next (doPlyCommit k s)

/-- A member's configuration as this device has it (15 R398). -/
def partAgrees (g : GroupPart) (c : PlyCfg) : Bool :=
  g.group == c.group && g.members == c.members && g.nodeLog2 == c.nodeLog2 && g.bucketLog2 == c.bucketLog2

/-- GROUP_READY: every member has exchanged its configuration with the master; `parts` are those of the
other members. A member that disagrees is named and the slot stays FORMING. -/
def doGroupReady (k : Fin 8) (parts : List GroupPart) (s : State) : State :=
  let x := s.slot k
  if x.st ≠ .forming then s else
  let up : Bool := x.others.all fun i => match memberStrand s x i with
    | some n => (s.strand n).st == .opened
    | none => false
  let all : Bool := x.others.all fun i => parts.any fun g => g.member.val == i
  if !up || !all then s else
  let bad := x.others.filter fun i => parts.any fun g => g.member.val == i && !partAgrees g x.cfg
  if bad = [] then s.setSlot k { x with st := .ready, match_ := 0 }
  else masterRecord s k 0x0A .refused 0 (memberBits bad) 0

/-- The command GROUP_READY (15 R403). -/
def execGroupReady (k : Fin 8) (parts : List GroupPart) (s : State) : Res := .next (doGroupReady k parts s)

/-! ## Dispatch of a collective (15 R399, R407, R410) -/

/-- Fields of a COLLECTIVE body (12 R320). -/
structure CollBody where
  src   : Nat
  dst   : Nat
  count : Nat
  fmt   : Nat
  cop   : Nat
  alg   : Nat
  root  : Nat
  group : Nat
  step  : Nat
  btab  : Nat

def collBody (raw : List Byte) : CollBody :=
  let f (lo hi : Nat) : Nat := fieldAt raw 0x20 lo hi
  { src := word64 raw 0x10, dst := word64 raw 0x18, count := f 0 39, fmt := f 40 43, cop := f 44 47, alg := f 48 49
    root := f 50 55, group := fieldAt raw 0x28 0 15, step := fieldAt raw 0x28 32 63, btab := word64 raw 0x30 }

/-- The form of a COLLECTIVE (12 R322, 15 R410). -/
def collFormOk (raw : List Byte) : Bool :=
  let b := collBody raw
  hdrClean raw && hdrNcont raw == 0 && zeros raw [(0x20, 56, 63), (0x28, 16, 31), (0x38, 0, 63)] &&
  decide (b.cop ≤ 4) && decide (b.alg ≤ 1) && (b.count != 0 || b.cop == 0 || b.cop == 3)

/-- Bytes of a number of elements of a format. -/
def collBytes (fmt n : Nat) : Nat := n * fmtWidth (fmtOf fmt) / 8

/-- The buffers of a collective as (base, bytes, permission): source and destination (15 R407). -/
def collBufs (c : PlyCfg) (b : CollBody) : (Nat × Nat × Perm) × (Nat × Nat × Perm) :=
  let all := collBytes b.fmt b.count
  let one := collBytes b.fmt (b.count / c.members)
  if b.count = 0 then ((0, 0, .read), (0, 0, .write)) else
  match b.cop with
  | 0 => ((b.src, all, .add), (b.dst, all, .write))
  | 1 => ((b.src, all, .add), (b.dst, one, .write))
  | 2 => ((b.src, one, .read), (b.dst, all, .write))
  | 3 => ((b.src, if b.root = c.index then all else 0, .read), (b.dst, all, .write))
  | _ => ((b.src, all, .read), (b.dst, all, .write))

/-- The first condition of R407 that a collective fails. -/
def collCheck (c : PlyCfg) (b : CollBody) : Option Status :=
  if b.count ≠ 0 ∧ b.count % (64 * c.members) ≠ 0 then some .access
  else if b.count ≠ 0 ∧ (fmtOf b.fmt = .rsv ∨ (b.cop ≤ 1 ∧ (addTypeOf b.fmt).isNone)) then some .format
  else if b.btab ≠ 0 ∧ (!(fmtOf b.fmt == .bf16 || fmtOf b.fmt == .fp16) ∨ c.bucketLog2 = 0) then some .format
  else if b.count ≠ 0 ∧ b.cop = 3 ∧ c.members ≤ b.root then some .format
  else none

/-- Buckets whose scales a collective signs (15 R406). -/
def signedBuckets (c : PlyCfg) (b : CollBody) : Nat :=
  if b.btab = 0 then 0 else (b.count + 2 ^ c.bucketLog2 - 1) / 2 ^ c.bucketLog2

/-- The group operation of an admitted collective, with its buffers captured; `none` where a page fails. -/
def collOp (s : State) (q : Fin 4096) (seq : Nat) (k : Fin 8) (b : CollBody) : Option GOp :=
  let c := (s.slot k).cfg
  let bufs := collBufs c b
  let n := signedBuckets c b
  match areaSegs s q bufs.1.2.2 (bufs.1.1, bufs.1.2.1) true, areaSegs s q bufs.2.2.2 (bufs.2.1, bufs.2.2.1) true,
      areaSegs s q .read (b.btab, 8 * n) with
  | some src, some dst, some tab =>
    let crc : Option Word := if b.btab = 0 then none
      else some (BitVec.ofNat 64 (crc64 ((List.range n).flatMap fun i => readSegs s tab (b.btab + 8 * i) 1)))
    some { queue := q, seq, slot := k, kind := .collective b.cop, fmt := b.fmt, count := b.count, step := b.step
           alg := b.alg, root := b.root, crc, src := b.src, dst := b.dst, srcSegs := src, dstSegs := dst }
  | _, _, _ => none

/-- The ranges of a collective, with the permission each needs: source, destination, bucket table. -/
def collRanges (c : PlyCfg) (b : CollBody) : List (Perm × Nat × Nat) :=
  let bufs := collBufs c b
  [(bufs.1.2.2, bufs.1.1, bufs.1.2.1), (bufs.2.2.2, bufs.2.1, bufs.2.2.1), (.read, b.btab, 8 * signedBuckets c b)]

/-- The traffic of a collective's reads of its bucket table (01 R27, 08 R220, 11 R301). -/
def collTable (s : State) (q : Fin 4096) (c : PlyCfg) (b : CollBody) : State :=
  let n := 8 * signedBuckets c b
  match areaSegs s q .read (b.btab, n) with
  | some tab => touchSegs (walkSegs s (queueOwner q) tab) tab b.btab n false
  | none => s

/-- The queues that compete for the ply engine with a COLLECTIVE of a group that may dispatch; operations of different
groups run at the same time (12 R327, 15 R405). -/
def collQueues (s : State) (group : Nat) : List (Fin 4096) :=
  (busyQueues s).filter fun q => (mayDispatch s q 3).any fun d => (collBody d.raw).group == group

/-- Whether it is a queue's turn at the ply engine for a slot. -/
def collTurn (s : State) (q : Fin 4096) (k : Fin 8) (group : Nat) : Bool :=
  turnOf s (s.slot k).lastQ (collQueues s group) == some q

/-- A COLLECTIVE dispatches if it is the next descriptor of its queue and belongs to the command. -/
def dispatchColl (q : Fin 4096) (mine : CollBody → Bool) (s : State) : State :=
  match mayDispatch s q 3 with
  | none => s
  | some d =>
    let b := collBody d.raw
    if !mine b then s else
    if !collFormOk d.raw then failDesc s q d.seq .format else
    match slotOf s b.group with
    | none => failDesc s q d.seq .refused
    | some k =>
      let x := s.slot k
      if !groupOwned s x (queueOwner q) then failDesc s q d.seq .refused else
      match collCheck x.cfg b with
      | some st => failDesc s q d.seq st
      | none =>
        match collOp s q d.seq k b with
        | none => failDesc (walkFirst s q true (collRanges x.cfg b)) q d.seq .access
        | some o =>
          if x.short then failDesc s q d.seq .pathLost
          else if !collTurn s q k b.group then s
          else
            let s := s.setSlot k { x with lastQ := served s x.lastQ q }
            let s := startDesc (walkSegs (collTable s q x.cfg b) (queueOwner q) (o.srcSegs ++ o.dstSegs)) q d.seq
            { s with ply := { s.ply with ops := s.ply.ops ++ [o] } }

/-- ALL_REDUCE; a reserved `COP` is this command's too. -/
def doAllReduce (q : Fin 4096) (s : State) : State :=
  dispatchColl q (fun b => (b.cop == 0 && b.count != 0) || decide (5 ≤ b.cop)) s
/-- REDUCE_SCATTER. -/
def doReduceScatter (q : Fin 4096) (s : State) : State := dispatchColl q (fun b => b.cop == 1) s
/-- ALL_GATHER. -/
def doAllGather (q : Fin 4096) (s : State) : State := dispatchColl q (fun b => b.cop == 2) s
/-- BROADCAST. -/
def doBroadcast (q : Fin 4096) (s : State) : State := dispatchColl q (fun b => b.cop == 3 && b.count != 0) s
/-- ALL_TO_ALL. -/
def doAllToAll (q : Fin 4096) (s : State) : State := dispatchColl q (fun b => b.cop == 4) s
/-- BARRIER (15 R410). -/
def doBarrier (q : Fin 4096) (s : State) : State := dispatchColl q (fun b => b.cop == 0 && b.count == 0) s
/-- CHECKPOINT_BARRIER (15 R410). -/
def doCheckpointBarrier (q : Fin 4096) (s : State) : State := dispatchColl q (fun b => b.cop == 3 && b.count == 0) s

/-- The command ALL_REDUCE. -/
def execAllReduce (q : Fin 4096) (s : State) : Res := .next (doAllReduce q s)
/-- The command REDUCE_SCATTER. -/
def execReduceScatter (q : Fin 4096) (s : State) : Res := .next (doReduceScatter q s)
/-- The command ALL_GATHER. -/
def execAllGather (q : Fin 4096) (s : State) : Res := .next (doAllGather q s)
/-- The command BROADCAST. -/
def execBroadcast (q : Fin 4096) (s : State) : Res := .next (doBroadcast q s)
/-- The command ALL_TO_ALL. -/
def execAllToAll (q : Fin 4096) (s : State) : Res := .next (doAllToAll q s)
/-- The command BARRIER. -/
def execBarrier (q : Fin 4096) (s : State) : Res := .next (doBarrier q s)
/-- The command CHECKPOINT_BARRIER. -/
def execCheckpointBarrier (q : Fin 4096) (s : State) : Res := .next (doCheckpointBarrier q s)

/-! ## The data phase (15 R408, R409) -/

/-- A range in chunks of 256 KiB. -/
def chunked (f : Nat → Nat → Xfer) (a n : Nat) : List Xfer :=
  (List.range ((n + 262143) / 262144)).map fun i => f (a + i * 262144) (min 262144 (n - i * 262144))

/-- What member `me` of a ring of `n` has added into its segments, in order: segments `me` − 2 down to `me`. -/
def ringAdds (a seg n me : Nat) : List Xfer :=
  (List.range (n - 1)).flatMap fun t => chunked .add (a + (me + 2 * n - (t + 2)) % n * seg) seg

/-- What member `me` receives of the ring in reverse: segments `me` + 1 on. -/
def ringStores (a seg n me : Nat) : List Xfer :=
  (List.range (n - 1)).flatMap fun t => chunked .store (a + (me + t + 1) % n * seg) seg

/-- The segment that a member owns (15 R408). -/
def ownSegment (c : PlyCfg) (alg : Nat) : Nat :=
  if alg = 0 then c.index else c.index % c.node * (c.members / c.node) + c.index / c.node

/-- The transfers of a collective on this member. -/
def planOf (c : PlyCfg) (cop alg root src dst bytes : Nat) : List Xfer :=
  let seg := bytes / c.members
  let l := c.node
  let m := c.members / l
  let a := c.index % l
  let b := c.index / l
  let node := bytes / l
  let adds := if alg = 0 then ringAdds src seg c.members c.index
    else ringAdds src node l a ++ ringAdds (src + a * node) seg m b
  let stores := if alg = 0 then ringStores dst seg c.members c.index
    else ringStores (dst + a * node) seg m b ++ ringStores dst node l a
  match cop with
  | 0 => adds ++ stores
  | 1 => adds
  | 2 => stores
  | 3 => if root = c.index then (if c.members = 1 then [] else chunked (fun _ _ => .send) dst bytes)
    else chunked .store dst bytes
  | _ => ((List.range c.members).filter (· != c.index)).flatMap fun j => chunked .store (dst + j * seg) seg

/-- The copy that a member makes of its own data: (from, to, bytes). -/
def ownCopy (c : PlyCfg) (cop alg root src dst bytes : Nat) : Option (Nat × Nat × Nat) :=
  let seg := bytes / c.members
  let o := ownSegment c alg * seg
  match cop with
  | 0 => some (src + o, dst + o, seg)
  | 1 => some (src + o, dst, seg)
  | 2 => some (src, dst + o, seg)
  | 3 => if root = c.index then some (src, dst, bytes) else none
  | _ => some (src + c.index * seg, dst + c.index * seg, seg)

/-- Whether local data of a collective can be read: without poison (09 R235). -/
def opReadable (s : State) (o : GOp) (n : Nat) : Bool := !segsPoisoned s o.srcSegs o.src n

/-- Whether every range that a group operation captured is mapped; an address that a map-out or the loss of a stack has
taken away completes with ACCESS (09 R239, R241). -/
def opMapped (s : State) (o : GOp) : Bool := segsMapped s (o.srcSegs ++ o.dstSegs ++ o.decSegs ++ o.resSegs)

/-- A collective whose transfers are all done makes its own copy and ends. -/
def settleColl (s : State) (k : Fin 8) (o : GOp) (cop : Nat) : State :=
  if o.plan ≠ [] then s else
  let c := (s.slot k).cfg
  match ownCopy c cop o.alg o.root o.src o.dst (collBytes o.fmt o.count) with
  | none => endOp s o .ok
  | some (a, b, n) =>
    if segsPoisoned s o.srcSegs a n then
      endOp (poisonRecord s (firstPoison s o.srcSegs a n) o.queue.val 3) o .faulted
    else
    let bs := readSegs s o.srcSegs a n
    let s := touchSegs s o.srcSegs a n false
    let s := (pieces o.dstSegs b n).foldl (fun s y => reelTouch s y.1 y.2.2 .stream true) s
    let s := poisonRecord s (firstPart s o.dstSegs b n) o.queue.val 3
    let (s, ok) := writeSegs s o.dstSegs b bs
    endOp s o (if ok then .ok else .faulted)

/-- The ranges of the source that a member sends before anything has been added or stored (15 R407, R408): in a reduction
the segment before its own, in two-level form that of its node and then that of its sub-ring. -/
def firstSends (c : PlyCfg) (cop alg root src bytes : Nat) : List (Nat × Nat) :=
  let seg := bytes / c.members
  let l := c.node
  let m := c.members / l
  let a := c.index % l
  let b := c.index / l
  let node := bytes / l
  match cop with
  | 0 | 1 =>
    if alg = 0 then [(src + (c.index + c.members - 1) % c.members * seg, seg)]
    else [(src + (a + l - 1) % l * node, node), (src + a * node + (b + m - 1) % m * seg, seg)]
  | 2 => [(src, seg)]
  | 3 => if root = c.index then [(src, bytes)] else []
  | _ => [(src, bytes)]

/-- The data phase of a collective begins, with the fetches of what the member reads to send (08 R220); a barrier completes
instead, and a checkpoint barrier sets the group's epoch to `epoch`, which the master writes on every member (15 R406,
R410, R412). -/
def beginData (s : State) (k : Fin 8) (o : GOp) (cop : Nat) (epoch : BitVec 32) : State :=
  let x := s.slot k
  if o.count = 0 then
    let s := if cop = 3 then s.setSlot k { x with epoch, epochStep := o.step } else s
    endOp s o .ok
  else
    let n := (collBufs x.cfg { src := o.src, dst := o.dst, count := o.count, fmt := o.fmt, cop, alg := o.alg
                               root := o.root, group := 0, step := 0, btab := 0 }).1.2.1
    if !opMapped s o then endOp s o .access
    else if !opReadable s o n then
      endOp (poisonRecord s (firstPoison s o.srcSegs o.src n) o.queue.val 3) o .faulted
    else
    let o' := { o with data := true, plan := planOf x.cfg cop o.alg o.root o.src o.dst (collBytes o.fmt o.count) }
    let s := (firstSends x.cfg cop o.alg o.root o.src (collBytes o.fmt o.count)).foldl
      (fun s r => touchSegs s o.srcSegs r.1 r.2 false) s
    settleColl (setOp s o o') k o' cop

/-- What a member signs, without its step and CRC. -/
def sigSame (p : SigPart) (o : GOp) (cop : Nat) : Bool :=
  p.cop == cop && p.count == o.count && p.fmt == o.fmt && p.alg == o.alg && p.root == o.root && p.crc.isSome == o.crc.isSome

/-- The epoch after a checkpoint barrier: the master's and 1 (15 R412). -/
def nextEpoch (x : Ply) (ps : List SigPart) : BitVec 32 :=
  (if x.mine then x.epoch else match ps.find? fun p => p.member.val = x.masterNow with
    | some p => p.epoch
    | none => x.epoch) + 1

/-- SIGNATURE_ROUND_COMPLETE: the master answers the round of the slot's first operation, with `parts` what the
other members signed (15 R406). -/
def doSignatureRoundComplete (k : Fin 8) (parts : List SigPart) (s : State) : State :=
  let x := s.slot k
  match headOp s k with
  | none => s
  | some o =>
    match o.kind with
    | .collective cop =>
      let ps := parts.filter fun p => x.others.contains p.member.val
      let all : Bool := x.others.all fun i => ps.any fun p => p.member.val == i
      if x.st ≠ .ready ∨ o.data ∨ !all ∨ !s.worksFor o.queue then s else
      let s := matched s k o
      if ps.any (fun p => p.step != o.step) then endOp s o .staleGeneration
      else if ps.any (fun p => p.crc.isSome && o.crc.isSome && p.crc != o.crc) then
        let bad := ps.filter fun p => p.crc.isSome && o.crc.isSome && p.crc != o.crc
        masterRecord (endOp s o .digestMismatch) k 0x08 .digestMismatch o.step (memberBits (bad.map (·.member.val))) 0
      else if ps.any (fun p => !sigSame p o cop) then endOp s o .format
      else beginData s k o cop (nextEpoch x ps)
    | _ => s

/-- The command SIGNATURE_ROUND_COMPLETE. -/
def execSignatureRoundComplete (k : Fin 8) (parts : List SigPart) (s : State) : Res :=
  .next (doSignatureRoundComplete k parts s)

/-- One transfer performed with the data of an arriving chunk: the state, whether all was applied, the flags;
`none` where the data is not the chunk's. -/
def runXfer (s : State) (o : GOp) (x : Xfer) (data : List Byte) : Option (State × Bool × Flags) :=
  match x with
  | .send => if data = [] then some (s, true, noFlags) else none
  | .add a n =>
    if data.length ≠ n then none else
    match addTypeOf o.fmt with
    | some ty => some (addSegs s o.srcSegs ty a data)
    | none => none
  | .store a n =>
    if data.length ≠ n then none else
    let s := (pieces o.dstSegs a n).foldl (fun s y => reelTouch s y.1 y.2.2 .stream true) s
    let (s, ok) := writeSegs s o.dstSegs a data
    some (s, ok, noFlags)

/-- The poison that a transfer meets: an add reads its bursts, a store may cover one in part. -/
def xferPoison (s : State) (o : GOp) (x : Xfer) : Option Nat :=
  match x with
  | .send => none
  | .add a n => firstPoison s o.srcSegs a n
  | .store a n => firstPart s o.dstSegs a n

/-- Whether a transfer adds at a distaff that has failed: it waits for the map-out and its migration (10 R265, R289). -/
def xferWaits (s : State) (o : GOp) (x : Xfer) : Bool :=
  match x with
  | .add a n => (pieces o.srcSegs a n).any fun y => addBlocked s y.1 y.2.2
  | _ => false

/-- COLLECTIVE_CHUNK_ACKED: the next chunk of the slot's collective is acknowledged; `data` is what arrived
for this member, empty where it only sends (15 R408, R409). -/
def doCollectiveChunkAcked (k : Fin 8) (data : List Byte) (s : State) : State :=
  match headOp s k with
  | none => s
  | some o =>
    match o.kind, o.plan with
    | .collective cop, x :: rest =>
      if !s.worksFor o.queue || xferWaits s o x then s else
      if !opMapped s o then endOp s o .access else
      match runXfer s o x data with
      | none => s
      | some (s', ok, f) =>
        let o' := { o with plan := rest, flags := o.flags.or f }
        if ok then settleColl (setOp s' o o') k o' cop
        else endOp (poisonRecord s' (xferPoison s o x) o.queue.val 3) o .faulted
    | _, _ => s

/-- The command COLLECTIVE_CHUNK_ACKED. -/
def execCollectiveChunkAcked (k : Fin 8) (data : List Byte) (s : State) : Res := .next (doCollectiveChunkAcked k data s)

/-! ## Skip-step and digest agreement (15 R413, R414) -/

/-- The byte-wise OR of two maps. -/
def orBytes (a b : List Byte) : List Byte := (List.range (max a.length b.length)).map fun i => a.getD i 0 ||| b.getD i 0

/-- What a CHECK or DIGEST holds back is written and it ends. -/
def writeOp (s : State) (o : GOp) (ws : List (Nat × List Byte)) (st : Status) : State :=
  if !opMapped s o then endOp s o .access else
  let bad := ws.findSome? fun w => firstPart s (o.resSegs ++ o.decSegs) w.1 w.2.length
  let type := if o.kind = .digest then 5 else 4
  if bad.isSome then endOp (poisonRecord s bad o.queue.val type) o .faulted
  else endOp (distWrites s (o.resSegs ++ o.decSegs) ws) o st

/-- SKIP_DECISION: the master combines the contributions of a CHECK; `parts` are those of the other members. -/
def doSkipDecision (k : Fin 8) (parts : List SkipPart) (s : State) : State :=
  let x := s.slot k
  match headOp s k with
  | none => s
  | some o =>
    let ps := parts.filter fun p => x.others.contains p.member.val
    let all : Bool := x.others.all fun i => ps.any fun p => p.member.val == i
    if x.st ≠ .ready ∨ o.kind ≠ .check ∨ !all ∨ !s.worksFor o.queue then s else
    let s := matched s k o
    if ps.any (fun p => p.step != o.step || p.nb != o.nb) then endOp s o .staleGeneration
    else
      let skip := o.skip || ps.any (·.skip)
      let map := (ps.foldl (fun m p => orBytes m p.map) o.body).take o.body.length
      writeOp s o (o.value ++ [(o.decBase, decisionBytes o.step skip map)]) .ok

/-- The command SKIP_DECISION. -/
def execSkipDecision (k : Fin 8) (parts : List SkipPart) (s : State) : Res := .next (doSkipDecision k parts s)

/-- Whether two contributions agree. -/
def digestSame (a b : DigestPart) : Bool := a.mask == b.mask && a.planes == b.planes && a.entries == b.entries

/-- Members of a set of replicas that differ from its majority, or all of them where it has none. -/
def oddOnes (ps : List DigestPart) : List DigestPart :=
  match ps.find? fun p => decide (ps.length < 2 * (ps.filter (digestSame p)).length) with
  | some p => ps.filter fun x => !digestSame p x
  | none => ps

/-- The digests a block selects, in their order, as (segment, plane). -/
def selected (mask planes : Nat) : List (Nat × Nat) :=
  ((List.range 8).filter mask.testBit).flatMap fun k => ((List.range 5).filter planes.testBit).map fun j => (k, j)

/-- Segment and plane of the first entry in which two contributions differ. -/
def firstDiff (a b : DigestPart) : Nat × Nat :=
  let n := (List.range (max a.entries.length b.entries.length / 8 + 1)).find? fun i =>
    (a.entries.drop (8 * i)).take 8 != (b.entries.drop (8 * i)).take 8
  (selected a.mask a.planes).getD (n.getD 0) (0, 0)

/-- The sets of replicas that disagree, each with the members to be named. -/
def badSets (ps : List DigestPart) : List (List DigestPart) :=
  ((ps.map (·.shard)).dedup.map fun sh => ps.filter fun p => p.shard = sh).filter fun g =>
    g.any fun a => g.any fun b => !digestSame a b

/-- The record of a digest mismatch (15 R415). -/
def digestRecord (s : State) (k : Fin 8) (step : Nat) (g : List DigestPart) : State :=
  let odd := oddOnes g
  let d := match g.findSome? fun a => (g.find? fun b => !digestSame a b).map fun b => firstDiff a b with
    | some x => x
    | none => (0, 0)
  groupRecord s k 0x08 .digestMismatch step (memberBits (odd.map (·.member.val)))
    (fld ((g.head?.map (·.shard)).getD 0) 0 16 + fld d.2 16 3 + fld d.1 19 3)

/-- DIGEST_COMPARISON: the master compares the entries of replicas; `parts` are those of the other members. -/
def doDigestComparison (k : Fin 8) (parts : List DigestPart) (s : State) : State :=
  let x := s.slot k
  match headOp s k with
  | none => s
  | some o =>
    let ps := parts.filter fun p => x.others.contains p.member.val
    let all : Bool := x.others.all fun i => ps.any fun p => p.member.val == i
    if x.st ≠ .ready ∨ o.kind ≠ .digest ∨ !all ∨ !s.worksFor o.queue then s else
    let own : List DigestPart := ((List.finRange 64).filter fun i => i.val = x.cfg.index).map fun i =>
      { member := i, shard := x.cfg.shard, step := o.step, mask := o.mask, planes := o.planes, entries := o.body }
    let s := matched s k o
    let bad := badSets (own ++ ps)
    let s := if x.mine then bad.foldl (fun s g => digestRecord s k o.step g) s else s
    writeOp s o o.value (if bad = [] then .ok else .digestMismatch)

/-- The command DIGEST_COMPARISON. -/
def execDigestComparison (k : Fin 8) (parts : List DigestPart) (s : State) : Res := .next (doDigestComparison k parts s)

/-! ## The failure of a member, adoption (15 R425, R426) -/

/-- A member fails: the group is DEGRADED, its open operations end with PATH_LOST, its pace ends. The record names the step
of the operation that the slot runs, or that of its last one. -/
def failMember (s : State) (k : Fin 8) (i : Nat) : State :=
  let x := s.slot k
  if !x.cfg.enable || i == x.cfg.index || !x.here i then s else
  let step := ((headOp s k).map (·.step)).getD x.lastStep
  let s := endPace (s.setSlot k { x with failed := x.failed ||| (1#64 <<< i), st := .degraded, paceIn := 0, paceOn := false
                                         spare := false, adopted := x.adopted &&& ~~~(1#64 <<< i)
                                         lags := x.lags.filter fun l => l.member != i }) k
  let s := match x.entry i with
    | some e => s.setPeer e { s.peer e with failed := true }
    | none => s
  let s := (s.ply.ops.filter fun o => o.slot = k).foldl (fun s o => endOp s o .pathLost) s
  masterRecord s k 0x09 .pathLost step (2 ^ i) 0

/-- MEMBER_FAIL: the group learns that a member has failed. -/
def doMemberFail (k : Fin 8) (m : Fin 64) (s : State) : State := failMember s k m.val

/-- The command MEMBER_FAIL (15 R425). -/
def execMemberFail (k : Fin 8) (m : Fin 64) (s : State) : Res := .next (doMemberFail k m s)

/-- PLY_FAIL: the controller declares a member failed. -/
def doPlyFail (k : Fin 8) (m : Fin 64) (s : State) : State := failMember s k m.val

/-- The command PLY_FAIL (15 R425). -/
def execPlyFail (k : Fin 8) (m : Fin 64) (s : State) : Res := .next (doPlyFail k m s)

/-- Every slot that maps a strand's peer learns of its failure (14 R393, 15 R425). -/
def failStrand (s : State) (n : Fin 2048) : State :=
  (List.finRange 8).foldl (fun s k =>
    match (s.slot k).others.find? fun i => memberStrand s (s.slot k) i == some n with
    | some i => failMember s k i
    | none => s) s

/-- The epoch from which this side adopts or is adopted: the spare's `ADOPT_EPOCH`, a survivor's `EPOCH`. -/
def Ply.adoptFrom (x : Ply) : BitVec 32 := if x.spare then BitVec.ofNat 32 x.cfg.adoptEpoch else x.epoch

/-- A slot after an admission: the members whose entries the spares have taken are present again; with another still FAILED
the group stays DEGRADED (15 R425, R426, log 157). A spare takes the group's epoch and step. -/
def Ply.admitted (x : Ply) (e : GroupEpoch) : Ply :=
  let failed := x.failed &&& ~~~x.adopted
  { x with st := if failed = 0 then .ready else .degraded, failed, adopted := 0, match_ := 0, freshDigest := true
           epoch := e.epoch, epochStep := if x.spare then e.step.toNat else x.epochStep, spare := false }

/-- ADOPTION_ADMIT: the master admits the spare when its epoch is the group's; `epoch` is what the other side
holds: the spare's `ADOPT_EPOCH` on a survivor, the group's `EPOCH` and `EPOCH_STEP` on the spare. -/
def doAdoptionAdmit (k : Fin 8) (epoch : GroupEpoch) (s : State) : State :=
  let x := s.slot k
  if x.st ≠ .adopting then s else
  if x.adoptFrom = epoch.epoch then s.setSlot k (x.admitted epoch)
  else masterRecord s k 0x0A .refused 0 (if x.spare then 2 ^ x.cfg.index else x.adopted.toNat) 0

/-- The command ADOPTION_ADMIT (15 R426). -/
def execAdoptionAdmit (k : Fin 8) (epoch : GroupEpoch) (s : State) : Res := .next (doAdoptionAdmit k epoch s)

/-! ## LAG and PACE (15 R420 to R423, 17 R467) -/

/-- The smaller of two stretches. -/
def minStretch (a b : Option Nat) : Option Nat :=
  match a, b with
  | some a, some b => some (min a b)
  | a, none => a
  | none, b => b

/-- N of the stretch in force: the smallest of the current-limit stretches and a droop stretch (17 R458). -/
def Skein.stretchN (k : Skein) : Option Nat := minStretch (minStretch (k.stretch.get 0) (k.stretch.get 1)) k.droopN

/-- Edges kept of 32 under a stretch. -/
def stretchKeep (n : Option Nat) : Nat :=
  match n with
  | some m => 32 - 32 / m
  | none => 32

/-- The device's effective rate in per mille of 2.0 GHz, averaged over the skeins, stretch included. -/
def ownRate (s : State) : Nat :=
  (s.skeins.toList.map fun k => 6000 * (840 / k.divider) * stretchKeep k.stretchN).sum / (8 * 840 * 32)

/-- Whether the guard band applies: no valid trim table, or readings of a rail missing (17 R460). -/
def guardBand (s : State) : Bool := !s.mgmt.calValid || s.pwr.rails.toList.any (·.missing)

/-- A limit or cap under the guard band. -/
def guarded (s : State) (x : Nat) : Nat := if guardBand s then x * 9 / 10 else x

/-- The effective sustained cap in W (17 R462). -/
def effCap (s : State) : Nat :=
  guarded s (min (min s.pwr.cap s.pwr.boardCap) (if s.sec.override then 120 else 850))

/-- Whether an I/O or base die too hot holds every skein at ÷24 (17 R473). -/
def allHot (s : State) : Bool := s.pwr.ioHot || s.pwr.baseHot != 0

/-- The divider that the 100 µs limits of the rails that feed the skeins and their stacks ask for: the slowest of theirs (17
R456, R480). -/
def railDiv (s : State) : Nat := s.pwr.rails.toList.foldl (fun m r => max m r.div) 6

/-- The levers on a skein's divider with their `BIND` codes (17 R472), and the ÷12 of warm-up (18 R489). -/
def levers (s : State) (k : Fin 8) : List (Nat × Nat) :=
  let x := s.sk k
  let cap := if s.sec.override then 6 else if guardBand s then 7 else if s.pwr.burstAt.isSome then 2 else 1
  [(if s.pwr.regFault then 24 else 6, 8), (if allHot s then 24 else x.thermDiv, 4), (railDiv s, 3), (x.stepDiv, cap),
   (x.paceDiv, 5), (if s.mgmt.phase = .warmup then 12 else 6, 0)]

/-- The lever that asks for the slowest step of a skein, the first of equals. -/
def binding (s : State) (k : Fin 8) : Nat × Nat :=
  (levers s k).foldl (fun b l => if b.1 < l.1 then l else b) (6, if (s.sk k).stretchN.isSome then 3 else 0)

/-- The divider that the treadle orders for a skein: the slowest that any lever asks for. -/
def target (s : State) (k : Fin 8) : Nat := (binding s k).1

/-- The rate a skein is held to: its step, stretch included. -/
def heldRate (s : State) (k : Fin 8) : Nat := 840 / target s k * stretchKeep (s.sk k).stretchN

/-- The skein that is held slowest, the first of equals. -/
def slowestSkein (s : State) : Fin 8 := (List.finRange 8).foldl (fun b k => if heldRate s k < heldRate s b then k else b) 0

/-- The device's `BIND`: that of its slowest skein, stretch included, the first of equals. -/
def devBind (s : State) : Nat :=
  (binding s (slowestSkein s)).2

/-- The lever that holds a skein below the pace in effect (17 R467): the slowest that asks for a step below that of the pace,
the first of equals, or else a stretch. A pace is no cause (15 R420). -/
def lagBind (s : State) (k : Fin 8) : Nat :=
  ((levers s k).foldl (fun b l => if l.2 != 5 && decide (b.1 < l.1) then l else b)
    (max 6 (s.sk k).paceDiv, if (s.sk k).stretchN.isSome then 3 else 0)).2

/-- `CAUSE` of a LAG from the lever that binds (17 R467, R472). -/
def lagCause (s : State) : Nat :=
  match lagBind s (slowestSkein s) with
  | 4 => 1
  | 3 => 2
  | 6 => 3
  | _ => 0

/-- Whether the learned demand of a phase fits the cap: its skeins at 2.0 GHz, beside what is reserved for the stacks, the links
and the rest (17 R464 to R467; log 149). -/
def phaseFits (s : State) (ph : Fin 256) : Bool :=
  let fixed : Nat := match s.pwr.grantIn with
    | some g => g.reserved + g.stackMw + g.linkMw
    | none => 0
  decide (256 * (s.pwr.phases.get ph).spin + fixed ≤ effCap s * 1000)

/-- Whether tagged work is queued whose learned demand fits the cap. -/
def taggedQueued (s : State) : Bool :=
  s.queues.toList.any fun x => x.descs.any fun d => d.st == .accepted && hdrPhase d.raw != 0 &&
    (if h : hdrPhase d.raw < 256 then phaseFits s ⟨hdrPhase d.raw, h⟩ else false)

/-- `DUR_MS` of a LAG: under the cap the treadle's estimate of the time until the first queued phase that fits the cap, under the
120 W override the time left on it, else unknown (17 R467). -/
def lagDur (s : State) (cause dur : Nat) : Nat :=
  match cause with
  | 0 => if taggedQueued s then dur else 0xFFFF
  | 3 => min 0xFFFF ((s.sec.overrideEnd - s.now) / 1000000)
  | _ => 0xFFFF

/-- The active LAG that a master paces for: the lowest rate that is low enough and lasts long enough. -/
def Ply.slowest (x : Ply) : Option Lag :=
  (x.lags.filter fun l => decide (l.rate < 10 * x.cfg.pacePct) && decide (x.cfg.paceMin ≤ l.dur)).foldl
    (fun b l => match b with
      | none => some l
      | some c => if l.rate < c.rate then some l else some c) none

/-- A master takes a LAG and decides the pace again (15 R422). -/
def takeLag (s : State) (k : Fin 8) (i rate dur cause : Nat) : State :=
  let x := s.slot k
  let lags := x.lags.filter fun l => l.member != i
  let x := { x with lags := if cause = 4 then lags else lags ++ [{ member := i, rate, dur }] }
  let s := s.setSlot k x
  if !x.cfg.paceEn || !x.mine then s else
  match x.slowest with
  | some l => sendPace s k l.member l.rate (if l.dur = 0xFFFF then 0 else l.dur) (x.present.filter (· != l.member))
  | none => if x.paceOn then sendPace s k i 1000 0 x.present else s

/-- A LAG received on a strand: the peer's rate, and the master's decision where this device is the master. -/
def lagFrame (s : State) (n : Fin 2048) (w0 w1 : Word) : State :=
  let f (w : Word) (lo m : Nat) : Nat := bitsOf w.toNat lo m
  let rate := f w1 0 10
  let s := match (List.finRange 64).find? fun e => (s.peer e).strand = n with
    | some e => s.setPeer e { s.peer e with lagPm := rate }
    | none => s
  match slotOf s (f w0 0 16) with
  | none => s
  | some k =>
    let i := f w0 16 6
    if memberStrand s (s.slot k) i = some n then takeLag s k i rate (f w1 16 16) (f w1 32 3) else s

/-- A PACE received on a strand: it takes effect where it comes from the group's master and is not older
than the last one. -/
def paceFrame (s : State) (n : Fin 2048) (w0 w1 : Word) : State :=
  let f (w : Word) (lo m : Nat) : Nat := bitsOf w.toNat lo m
  match slotOf s (f w0 0 16) with
  | none => s
  | some k =>
    let x := s.slot k
    let seq := f w0 32 32
    if memberStrand s x x.masterNow = some n ∧ x.paceIn ≤ seq ∧ x.st = .ready then
      setPace (s.setSlot k { x with paceIn := seq }) k (f w1 0 10) (f w1 32 32)
    else s

/-- LAG_TRIGGER: the device's rate has held below the pace in effect, changed or recovered for 1 ms; it tells the
master of slot `k` (15 R420). A rate that PACE alone imposes is not below the pace in effect on the device. -/
def doLagTrigger (k : Fin 8) (dur : BitVec 16) (recovered : Bool) (s : State) : State :=
  let x := s.slot k
  let rate := ownRate s
  let due : Bool := if recovered then x.lagSent.isSome && decide (devPace s ≤ rate)
    else decide (rate < devPace s) && (match x.lagSent with
      | none => true
      | some r => decide (r + 50 ≤ rate) || decide (rate + 50 ≤ r))
  if !x.cfg.enable || !due then s else
  let cause := if recovered then 4 else lagCause s
  let s := s.setSlot k { x with lagSent := if recovered then none else some rate }
  if x.mine then takeLag s k x.cfg.index rate (lagDur s cause dur.toNat) cause
  else match memberStrand s x x.masterNow with
    | some n => post s n (.lag
        (BitVec.ofNat 64 (fld x.cfg.group 0 16 + fld x.cfg.index 16 6 + fld x.lastStep 32 32))
        (BitVec.ofNat 64 (fld rate 0 10 + fld (lagDur s cause dur.toNat) 16 16 + fld cause 32 3)))
    | none => s

/-- The command LAG_TRIGGER. -/
def execLagTrigger (k : Fin 8) (dur : BitVec 16) (recovered : Bool) (s : State) : Res :=
  .next (doLagTrigger k dur recovered s)

end Sys2Proof.Machine
end

