-- ==== Sys2Proof/Machine/Drain.lean ====
section
/-!
DEFINITION. Draining a queue (12 R333, R334, R344).
-/

namespace Sys2Proof.Machine

/-- `VALUE` of a descriptor's completion record as far as its body gives it (12 R329). -/
def valueOf (raw : List Byte) : Nat :=
  match hdrType raw with
  | 8 => fieldAt raw 0x10 0 31
  | 9 => word64 raw 0x18
  | 10 => fieldAt raw 0x18 0 31
  | _ => 0

/-- Every descriptor of a queue that a condition names ends INTERRUPTED. -/
def interruptDescs (s : State) (q : Fin 4096) (f : Desc → Bool) : State :=
  ((s.q q).descs.filter f).foldl (fun s d => finish s q d.seq .interrupted noFlags 0 0 (valueOf d.raw)) s

/-- A share of a drained queue: a share halted in place for want of a save image waits for one (11 R303);
one that is ending or has ended goes on; any other ends with INTERRUPTED. -/
def drainShare (h : Share) : Share :=
  match h.phase with
  | .ending => h
  | .ended _ => h
  | .noImage _ _ => { h with drained := true }
  | _ => { h with phase := .ended .interrupted }

/-- The shares of a queue's kernels, on spindles, stopped and not launched. -/
def drainKernels (s : State) (q : Fin 4096) : State :=
  let stop (x : Spindle) : Spindle := match x.share with
    | some h => if h.queue = q then { x with fetched := [], share := some (drainShare h) } else x
    | none => x
  let late (k : Kernel) : Kernel :=
    if k.queue = q then
      let out := k.cut ++ k.waiting.map fun w => (w.1, w.2, noFlags)
      { k with waiting := [], stopped := false, cut := []
               ended := k.ended ++ out.map fun w => (w.1, w.2.1, .interrupted, 0, w.2.2) }
    else k
  { s with spindles := s.spindles.map stop, kernels := s.kernels.map late }

/-- Save images of a queue whose faults have been resolved end too. -/
def drainImages (s : State) (q : Fin 4096) : State :=
  (s.trans.images.filter fun i => i.queue == q).foldl (fun s i =>
    reportShare (s.setTrans { s.trans with images := s.trans.images.filter fun j => j != i }) i.share .interrupted
      i.regs.cause i.regs.flags) s

/-- The page faults of a queue are abandoned; that of a share halted in place stays until it has an image. -/
def drainFaults (s : State) (q : Fin 4096) : State :=
  let held (f : PFault) : Bool := match f.work with
    | .share l seq => !f.brk && (imageOf s q seq l).isNone && (spindleOf s q seq l).isSome
    | .desc _ => false
  (s.trans.faults.filter fun f => f.queue == q && !held f).foldl (fun s f => dropFault s f.id) s

/-- Whether a move belongs to a queue's work. -/
def Move.inQueue (q : Fin 4096) (m : Move) : Bool := m.queue == q

/-- Moves that wait for a flyer and those that a stop took off one end at once; those on flyers stop at a hank boundary. -/
def drainMoves (s : State) (q : Fin 4096) : State :=
  let late := (s.skeins.toList.flatMap (·.fq)).filter (Move.inQueue q)
  let stop (m : Move) : Move := if m.inQueue q then { m with stopped := true } else m
  let s : State := { s with skeins := s.skeins.map fun k =>
    { k with fq := k.fq.filter (fun m => !m.inQueue q), fly := k.fly.map fun y => { y with move := y.move.map stop } } }
  let off := s.mgmt.parked.filter fun x => x.1.inQueue q
  let s := s.setMgmt { s.mgmt with parked := s.mgmt.parked.filter fun x => !x.1.inQueue q }
  (off ++ late.map fun m => (m, noFlags)).foldl (fun s x => reportMove s x.1 .interrupted x.2) s

/-- TABLE_UPDATEs of a queue that have not reached their apply point: INTERRUPTED, with the NOTIFY of a failed update
(11 R300). -/
def drainUpdates (s : State) (q : Fin 4096) : State :=
  ((s.q q).descs.filter fun d => (match d.st with
      | .finished .. => false
      | _ => hdrType d.raw == 9) && !s.trans.updates.any fun u => u.queue == q && u.seq == d.seq && u.applied).foldl
    (fun s d =>
      let u := updateOf q d
      notifyUpdate (finish s q d.seq .interrupted noFlags 0 0 u.gen) u .interrupted) s

/-- Work that stops at once: sweeps, waiting BINDs, RMA and group operations, updates not applied. -/
def drainRest (s : State) (q : Fin 4096) : State :=
  let s := { s with
    sweeps := s.sweeps.filter (fun w => w.queue != q)
    skeins := s.skeins.map fun k => { k with bindWait := k.bindWait.filter fun w => w.queue != q }
    twine := { s.twine with rmas := s.twine.rmas.filter fun r => r.queue != q }
    ply := { s.ply with ops := s.ply.ops.filter fun o => o.queue != q }
    trans := { s.trans with updates := s.trans.updates.filter fun u => u.queue != q || u.applied } }
  bindRetryAll s

/-- Whether a running descriptor still has work that stops later: a kernel, a move, an applied update. -/
def stillRuns (s : State) (q : Fin 4096) (d : Desc) : Bool :=
  s.kernels.any (fun k => k.queue == q && k.seq == d.seq) ||
  (flying s).any (fun m => m.origin == .desc q d.seq) ||
  s.trans.updates.any (fun u => u.queue == q && u.seq == d.seq)

/-- A drain of a queue (12 R333). -/
def drainQueue (s : State) (q : Fin 4096) : State :=
  let x := s.q q
  if x.st = .off ∨ x.st = .draining then s else
  let s := s.setQ q { x with st := .draining, head := x.tail, rings := [], held := false }
  let s := drainFaults (drainImages (drainKernels s q) q) q
  let s := (s.sweeps.filter fun w => w.queue == q).foldl (fun s w => finish s q w.seq .interrupted (sweepFlags s w) 0 0 0) s
  let s := (s.ply.ops.filter fun o => o.queue == q).foldl (fun s o => finish s q o.seq .interrupted o.flags 0 0 0) s
  let s := drainRest (drainUpdates (drainMoves s q) q) q
  let s := interruptDescs s q fun d => !stillRuns s q d
  (s.kernels.filter fun k => k.queue == q).foldl (fun s k => settleKernel s q k.seq) s

/-- QUEUE_DRAIN: the controller orders a drain. -/
def doQueueDrain (q : Fin 4096) (s : State) : State := drainQueue s q

/-- The command QUEUE_DRAIN (12 R333). -/
def execQueueDrain (q : Fin 4096) (s : State) : Res := .next (doQueueDrain q s)

/-- A queue whose tenancy ends: OFF, with its counts and its group at their reset values (12 R344). -/
def Queue.closed (x : Queue) : Queue :=
  { x with
    st := .off, closing := false, la := 0, lc := 0, head := 0, tail := 0, bad := 0, rings := [], strand := none
    cfg := {}, staged := [], result := .ok, held := false }

/-- DRAIN_COMPLETE: with nothing in flight the queue is OPEN again, or OFF at a tenancy change. -/
def doDrainComplete (q : Fin 4096) (s : State) : State :=
  let x := s.q q
  if x.st ≠ .draining ∨ x.descs ≠ [] then s
  else if x.closing then s.setQ q x.closed
  else s.setQ q { x with st := if x.cfg.enable then .opened else .off }

/-- The command DRAIN_COMPLETE (12 R333). -/
def execDrainComplete (q : Fin 4096) (s : State) : Res := .next (doDrainComplete q s)

end Sys2Proof.Machine
end

