-- ==== Sys2Proof/Machine/Strands.lean ====
section
/-!
DEFINITION. Strands (14 R375 to R394): opening and closing, paths, the sender's window and timers, HELLO, and the
dispatch and end of RMA descriptors.
-/

namespace Sys2Proof.Machine

/-! ## What a port lets through (13 R357, R360, R368; 14 R370, R371) -/

/-- Whether the device's ports are in their normal service: out of reset, with its reference and out of P4,
where only the wake detector takes frames (13 R368, 01 R35). -/
def portsServe (s : State) : Bool :=
  s.mgmt.phase != .reset && s.mgmt.phase != .recovery && !s.mgmt.clockLost && s.pwr.pstate != .p4

/-- Whether a port takes frames. -/
def portTakes (s : State) (p : Fin 32) : Bool := portsServe s && (s.port p).link == .up

/-- Whether Twine frames reach the device on a port: while a warm reset runs, none does but a READ of the register space or the
snapshot, which the management domain serves (18 R506). -/
def frameReaches (s : State) (p : Fin 32) : Bool := portTakes s p && !s.mgmt.warming

/-- Whether data frames of a port are stopped by a received pause (13 R360). -/
def dataPaused (y : Port) : Bool := y.xoffRx.getLsbD y.cfg.dataPcp

/-- Whether control frames of a port are stopped by a received pause (13 R360). The spec does not list Twine's control
frames: the model takes ACKs, HELLOs and ARP answers as such, and every sequenced frame as data (log 147). -/
def ctrlPaused (y : Port) : Bool := y.xoffRx.getLsbD y.cfg.ctrlPcp

/-- Whether a port group carries Twine traffic: one of its addresses is enabled (14 R371). -/
def groupLive (s : State) (g : Fin 8) : Bool := (s.twine.groups.get g).v4en || (s.twine.groups.get g).v6en

/-- Whether ACKs and HELLOs leave a port. -/
def ctrlSends (s : State) (p : Fin 32) : Bool :=
  portsServe s && !ctrlPaused (s.port p) && groupLive s (s.port p).cfg.group

/-- Whether a peer address is an IPv6 one; an IPv4 address stands as ::ffff:a.b.c.d (14 R376). -/
def isV6 (ip : Nat) : Bool := ip / 2 ^ 32 != 0xFFFF

/-- Whether a group holds an address (14 R371). -/
def groupHas (g : GroupAddr) (ip : Nat) (v6 : Bool) : Bool :=
  if v6 then g.v6en && g.v6 == ip else g.v4en && g.v4 == ip

/-- The IPv4 broadcast address and the IPv6 all-nodes address, to which HELLO goes (14 R378). -/
def ip4All : Nat := 0xFFFFFFFFFFFF
def ip6All : Nat := 0xFF02 * 2 ^ 112 + 1

/-- Whether a datagram to an address is for the ports of a group (14 R371, R378). -/
def groupTakes (g : GroupAddr) (to_ : Nat) : Bool :=
  to_ == ip4All || to_ == ip6All || groupHas g (if isV6 to_ then to_ else to_ % 2 ^ 32) (isV6 to_)

/-- A control frame of a port goes out, or waits for the end of a pause (13 R360). -/
def sayCtrl (s : State) (p : Fin 32) (o : Out) : State :=
  if ctrlPaused (s.port p) then s.setPort p { s.port p with ctrlQ := (s.port p).ctrlQ ++ [o] } else s.say o

/-- Frames sent in their order. -/
def State.sayAll (s : State) (l : List Out) : State := l.foldl State.say s

/-- Whether a port carries frames of strand 0. -/
def spdmPort (s : State) (p : Fin 32) : Bool := (s.port p).joined && groupLive s (s.port p).cfg.group

/-- An SPDM answer goes out on a port that takes it, or waits until one does (13 R360). -/
def sendSpdm (s : State) (o : Out) : State :=
  if (List.finRange 32).any fun p => spdmPort s p && ctrlSends s p then s.say o
  else s.setSec { s.sec with spdmQ := s.sec.spdmQ ++ [o] }

/-- A port whose control frames may leave again sends those that a pause has held back, and SPDM answers that wait (13
R360). -/
def releaseCtrl (s : State) (p : Fin 32) : State :=
  if !portsServe s || ctrlPaused (s.port p) then s else
  let s := (s.setPort p { s.port p with ctrlQ := [] }).sayAll (s.port p).ctrlQ
  if spdmPort s p then (s.setSec { s.sec with spdmQ := [] }).sayAll s.sec.spdmQ else s

/-- The address of a group that its frames to IPv6 or IPv4 peers bear. -/
def GroupAddr.own (g : GroupAddr) (v6 : Bool) : Nat := if v6 then g.v6 else 0xFFFF * 2 ^ 32 + g.v4

/-- The datagram of a strand's frame (14 R370): its DSCP is 8 × its PCP. -/
def encap (s : State) (n : Fin 2048) (ctrl : Bool) : Encap :=
  let x := s.strand n
  let c := (s.port x.port).cfg
  let pcp := if ctrl then c.ctrlPcp else c.dataPcp
  { src := (s.twine.groups.get x.cfg.group).own (isV6 x.cfg.ip), dst := x.cfg.ip
    sport := 49152 + (Config.pathEntropy n.val x.path).toNat, dport := x.cfg.udp, dscp := 8 * pcp, ttl := 64
    tag := if c.vlan then some (c.vid, pcp) else none }

/-! ## Paths (14 R381, R391 to R393) -/

/-- Joined ports of a group, ascending. -/
def joinedPorts (s : State) (g : Fin 8) : List (Fin 32) :=
  (List.finRange 32).filter fun p => (s.port p).joined && (s.port p).cfg.group == g

/-- The port a strand takes among the joined ones (14 R391). -/
def choosePort (ps : List (Fin 32)) (n : Fin 2048) (path : Nat) : Option (Fin 32) :=
  ps[Config.pathHash n.val path % ps.length]?

/-- Encapsulation overhead of a strand's frames (14 R381). -/
def overhead (s : State) (x : Strand) : Nat :=
  (if isV6 x.cfg.ip then 114 else 94) + (if (s.port x.port).cfg.vlan then 4 else 0)

/-- Data bytes of a full frame of a strand (14 R381). -/
def frameData (s : State) (x : Strand) : Nat :=
  let m := (joinedPorts s x.cfg.group).foldl (fun m p => min m (s.port p).cfg.maxFrame) 9216
  min 8176 (m - overhead s x) / 16 * 16

/-- MTU of a strand (14 R390). -/
def mtu (s : State) (x : Strand) : Nat := frameData s x + overhead s x

/-- A strand on a new path: RTT and window start afresh (14 R389, R390). -/
def Strand.onPath (x : Strand) (p : Fin 32) (path : Nat) : Strand :=
  { x with port := p, path, srtt := none, rttvar := 0, samples := [], cut := none, window := 65536, pathExp := 0,
           rechoose := false }

/-- The path chosen again at a window update after the joined ports have changed (14 R391). -/
def Strand.choose (x : Strand) (s : State) (n : Fin 2048) : Strand :=
  if !x.rechoose then x else
  match choosePort (joinedPorts s x.cfg.group) n x.path with
  | some p => if p = x.port then { x with rechoose := false } else x.onPath p x.path
  | none => { x with rechoose := false }

/-- Unacknowledged frames to be sent again with their original PSNs. -/
def Strand.again (x : Strand) : Strand := { x with unacked := x.unacked.map fun f => { f with again := true } }

/-- A STALLED strand's oldest unacknowledged frame to be sent again (14 R393). -/
def Strand.probe (x : Strand) : Strand :=
  { x with unacked := match x.unacked with
      | f :: fs => { f with again := true } :: fs
      | [] => [] }

/-- Whether some joined port has not seen three timeout expiries of a strand since its last progress (14 R393). -/
def Strand.usable (x : Strand) (ps : List (Fin 32)) : Bool :=
  ps.any fun p => decide ((x.expired.filter (· == p)).length < 3)

/-- A STALLED strand is OPEN again when its group has a usable path, and an OPEN one is STALLED when every joined port has
seen three expiries (14 R377, R393, log 133). -/
def Strand.revived (x : Strand) (ps : List (Fin 32)) : Strand :=
  if x.st = .stalled ∧ x.usable ps then { x.again with st := .opened }
  else if x.st = .opened ∧ !x.usable ps then { x with st := .stalled }
  else x

/-- A strand after the joined ports have changed (14 R391 to R393). -/
def settlePath (s : State) (n : Fin 2048) (x : Strand) : Strand :=
  match x.st with
  | .closed | .lost => x
  | _ =>
    let ps := joinedPorts s x.cfg.group
    if ps.contains x.port then { x with rechoose := true }.revived ps
    else match choosePort ps n x.path with
      | some p => (x.onPath p x.path).again.revived ps
      | none => x.revived ps

/-- Every strand learns that the joined ports have changed. -/
def settlePaths (s : State) : State :=
  { s with twine := { s.twine with strands := vecOf 2048 fun n => settlePath s n (s.strand n) } }

/-! ## RMA in flight (14 R381) -/

/-- Frames of an RMA. -/
def Rma.frames (r : Rma) : Nat := max 1 ((r.len + r.d - 1) / r.d)

/-- Bytes of frame `i`. -/
def Rma.size (r : Rma) (i : Nat) : Nat := min r.d (r.len - i * r.d)

def rmaOf (s : State) (q : Fin 4096) (seq : Nat) : Option Rma := s.twine.rmas.find? fun r => r.queue = q ∧ r.seq = seq

def setRma (s : State) (q : Fin 4096) (seq : Nat) (f : Rma → Rma) : State :=
  let g (r : Rma) : Rma := if r.queue = q ∧ r.seq = seq then f r else r
  { s with twine := { s.twine with rmas := s.twine.rmas.map g } }

/-- An RMA ends. The flags of an ATOMIC_ADD, set at its target, are a free value (10 R263, log 143). -/
def endRma (s : State) (r : Rma) (st : Status) : State :=
  let s := { s with twine := { s.twine with rmas := s.twine.rmas.filter fun x => !(x.queue == r.queue && x.seq == r.seq) } }
  if r.rop = 3 then finish { s with free := s.free + 1 } r.queue r.seq st (Config.remoteFlags s.free) 0 0 0
  else ends s r.queue r.seq st

/-- The frames of RMAs that are gone leave every strand: nothing further of them is sent (16 R435). -/
def dropFrames (s : State) (rs : List Rma) : State :=
  let gone (m : Msg) : Bool := match m with
    | .rma q seq _ => rs.any fun r => r.queue == q && r.seq == seq
    | _ => false
  if rs = [] then s else
  { s with twine := { s.twine with strands := s.twine.strands.map fun x =>
      { x with txq := x.txq.filter (fun m => !gone m), unacked := x.unacked.filter fun f => !gone f.msg } } }

/-- The RMAs that hold an erased key end with KEY_ERASED; they send and write nothing further (14 R380, 16 R435). -/
def eraseRmas (s : State) (f : Rma → Bool) : State :=
  let rs := s.twine.rmas.filter f
  rs.foldl (fun s r => endRma s r .keyErased) (dropFrames s rs)

/-- RMAs whose frames are all acknowledged and whose responses are all written end. -/
def settleRmas (s : State) : State :=
  (s.twine.rmas.filter fun r => decide (r.frames ≤ r.acked) && r.resp.isEmpty).foldl (fun s r => endRma s r r.st) s

/-- The RMAs of a strand end with a status. -/
def endRmasOn (s : State) (n : Fin 2048) (st : Status) : State :=
  (s.twine.rmas.filter fun r => r.strand = n).foldl (fun s r => endRma s r st) s

/-! ## States of a strand (14 R376, R377, R393) -/

/-- A strand's sequence numbers, windows and counters as a new opening starts them. -/
def Strand.opening (x : Strand) : Strand :=
  { x with
    st := .opening, epoch := x.epoch + 1, hold := false, nextPsn := 1, unacked := [], window := 65536, srtt := none
    rttvar := 0, samples := [], cut := none, backoff := 0, pathExp := 0, expired := [], rechoose := false
    rxC := 0, rxBits := [], rxSt := [], held := [], ackDue := 0, tsEcho := 0, tsAt := none, txc := 0, rxc := 0, txPhase := 0
    phaseAt := 0, rxPhase := 0, oldPhase := false, oldGen := 0, peerEpoch := none }

/-- A strand opens. -/
def openStrand (s : State) (n : Fin 2048) : State :=
  let x := { (s.strand n).opening with rxGen := (s.sec.keys.get 1).gen }
  let x := match choosePort (joinedPorts s x.cfg.group) n x.path with
    | some p => { x with port := p }
    | none => x
  s.setStrand n x

/-- A strand that carries nothing any more: what it held is gone. -/
def Strand.emptied (x : Strand) (st : StrandSt) : Strand :=
  { x with st, hold := false, txq := [], unacked := [], held := [], ackDue := 0 }

/-- Queues forget a strand that has closed (12 R325, R331). -/
def forgetStrand (s : State) (n : Fin 2048) : State :=
  let drop (r : Nat × Option (Fin 2048)) : Nat × Option (Fin 2048) := if r.2 = some n then (r.1, none) else r
  { s with queues := s.queues.map fun x =>
      { x with strand := if x.strand = some n then none else x.strand, rings := x.rings.map drop } }

/-- The collective that a slot runs over a strand ends with a status. -/
def endGroupsOn (s : State) (n : Fin 2048) (st : Status) : State :=
  (List.finRange 8).foldl (fun s k =>
    if (s.slot k).others.any fun i => memberStrand s (s.slot k) i == some n then
      match headOp s k with
      | some o => if o.data then endOp s o st else s
      | none => s
    else s) s

/-- A strand closes: its outstanding operations end with a status (14 R376). -/
def closeStrand (s : State) (n : Fin 2048) (st : Status) : State :=
  let s := endGroupsOn (endRmasOn s n st) n st
  forgetStrand (s.setStrand n ((s.strand n).emptied .closed)) n

/-- A strand is LOST: every operation outstanding or queued on it ends with PATH_LOST (14 R393). -/
def loseStrand (s : State) (n : Fin 2048) : State :=
  let s := endRmasOn s n .pathLost
  failStrand (forgetStrand (s.setStrand n ((s.strand n).emptied .lost)) n) n

/-- A staged word of a strand's group. -/
def Strand.word (x : Strand) (off : Nat) : Word :=
  BitVec.ofNat 64 <|
    if off = 0x00 then
      fld x.cfg.peerStrand 0 11 + fld x.cfg.group.val 12 3 + fld x.cfg.owner 16 2 + fld (b2n x.session) 18 1 +
        fld (b2n x.cfg.enable) 19 1 + fld x.cfg.udp 20 16
    else if off = 0x08 then x.cfg.ip / 2 ^ 64
    else x.cfg.ip % 2 ^ 64

/-- The group of a strand as a commit would leave it. -/
def Strand.stagedCfg (x : Strand) : StrandCfg :=
  let w (off : Nat) : Nat := (stagedOr x.staged off (x.word off)).toNat
  { peerStrand := bitsOf (w 0) 0 11, group := ⟨bitsOf (w 0) 12 3 % 8, Nat.mod_lt _ (by omega)⟩, owner := bitsOf (w 0) 16 2
    enable := bitsOf (w 0) 19 1 == 1, udp := bitsOf (w 0) 20 16, ip := w 8 * 2 ^ 64 + w 0x10 }

/-- The checks of STRAND_COMMIT (14 R376). -/
def strandOk (s : State) (n : Fin 2048) (c : StrandCfg) : Bool :=
  let x := s.strand n
  n.val != 0 && !x.session && x.st == .closed &&
  !(c.enable && (c.owner == 0 || c.owner == 3)) && !(c.owner == 2 && !s.sec.tenancyOn) &&
  (List.finRange 2048).all fun m =>
    let y := s.strand m
    m == n || y.session || !y.cfg.enable ||
      !(y.cfg.ip == c.ip && y.cfg.udp == c.udp && y.cfg.peerStrand == c.peerStrand)

/-- Big-endian bytes of a number (00 R9). -/
def beBytes (n x : Nat) : List Byte := (leBytes n x).reverse

/-- The payload of a HELLO (14 R378). -/
def helloBytes (m : HelloMsg) : List Byte :=
  beBytes 16 m.fuse.toNat ++ beBytes 8 m.nonce.toNat ++
  beBytes 8 (fld m.warm.toNat 0 32 + fld m.port.val 32 5 + fld m.group.val 37 3 + fld (b2n m.opens) 40 1 +
    fld (b2n m.reply) 41 1 + fld (b2n m.pending) 42 1) ++
  beBytes 8 (fld m.src.val 0 11 + fld m.dst.val 16 11 + fld m.epoch.toNat 32 32) ++ beBytes 8 m.count.toNat

/-- The header of a frame outside every strand's sequence: a HELLO, or an SPDM message (14 R372, R375; 16 R448). -/
def bareHdr (type now len txc : Nat) : List Byte :=
  beBytes 1 type ++ beBytes 1 8 ++ beBytes 10 0 ++ beBytes 4 now ++ beBytes 4 0 ++ beBytes 2 len ++ beBytes 2 txc ++ beBytes 8 0

/-- The key of this device's HELLOs (14 R379). -/
def helloKey (s : State) : Nat := Config.hkdf Config.fleetKey.toNat Config.fuseId.toNat "twine-hello" [s.twine.nonce.toNat]

/-- A HELLO as its bytes: header, payload and ICV under `HCOUNT` (14 R378, R379). -/
def helloFrame (s : State) (m : HelloMsg) : List Byte :=
  let hdr := bareHdr 0x14 s.now 48 m.count.toNat
  hdr ++ helloBytes m ++ beBytes 16 (Config.gcm (helloKey s) m.count.toNat (hdr ++ helloBytes m) []).toNat

/-- The HELLO of a port to an address: it bears an address of the port's group (14 R378). -/
def helloMsg (s : State) (p : Fin 32) (opens reply pending : Bool) (src dst : Fin 2048) (epoch : BitVec 32) (to_ udp : Nat) :
    HelloMsg :=
  let g := (s.port p).cfg.group
  { fuse := Config.fuseId, nonce := s.twine.nonce, warm := BitVec.ofNat 32 s.mgmt.warms, port := p, group := g
    opens, reply, pending, src, dst, epoch, count := BitVec.ofNat 64 (s.twine.helloCnt + 1)
    ip := (s.twine.groups.get g).own (isV6 to_), dest := to_, dport := BitVec.ofNat 16 udp }

/-- A HELLO sent on a port to an address, where its group carries Twine traffic. -/
def putHello (s : State) (p : Fin 32) (m : HelloMsg) : State :=
  if !(portsServe s && groupLive s (s.port p).cfg.group) then s
  else sayCtrl { s with twine := { s.twine with helloCnt := s.twine.helloCnt + 1 } } p (.hello p m (helloFrame s m))

/-- The HELLO of a port to all: to the IPv4 broadcast address and to the IPv6 all-nodes address, as its group has an address
of that kind (14 R378). -/
def sendHello (s : State) (p : Fin 32) (pending : Bool) : State :=
  let g := s.twine.groups.get (s.port p).cfg.group
  let one (s : State) (a : Nat) : State := putHello s p (helloMsg s p false false pending 0 0 0 a s.twine.udp)
  let s := if g.v4en then one s ip4All else s
  if g.v6en then one s ip6All else s

/-- The HELLO of an opening, to the peer's address and UDP port (14 R376, R378). -/
def helloOpen (s : State) (n : Fin 2048) : State :=
  let x := s.strand n
  if (joinedPorts s x.cfg.group).isEmpty then s
  else putHello s x.port (helloMsg s x.port true false false n ⟨x.cfg.peerStrand % 2048, Nat.mod_lt _ (by omega)⟩ x.epoch
    x.cfg.ip x.cfg.udp)

/-- STRAND_COMMIT: a strand that opens sends its HELLO (14 R378). -/
def doStrandCommit (n : Fin 2048) (s : State) : State :=
  let x := s.strand n
  let c := x.stagedCfg
  if x.staged = [] then s.setStrand n { x with result := .ok }
  else if strandOk s n c then
    let s := s.setStrand n { x with cfg := c, staged := [], result := .ok }
    if c.enable then helloOpen (openStrand s n) n else s
  else s.setStrand n { x with staged := [], result := .refused }

/-- The command STRAND_COMMIT (14 R376). -/
def execStrandCommit (n : Fin 2048) (s : State) : Res := .next (doStrandCommit n s)

/-- STRAND_CLOSE. -/
def doStrandClose (n : Fin 2048) (s : State) : State :=
  if (s.strand n).st = .closed then s else closeStrand s n .interrupted

/-- The command STRAND_CLOSE (14 R376). -/
def execStrandClose (n : Fin 2048) (s : State) : Res := .next (doStrandClose n s)

/-- PATH_LOST_EXPIRY: a strand has been STALLED for the path-loss time. -/
def doPathLostExpiry (n : Fin 2048) (s : State) : State :=
  let x := s.strand n
  if x.st = .stalled ∧ !x.hold then loseStrand s n else s

/-- The command PATH_LOST_EXPIRY (14 R393). -/
def execPathLostExpiry (n : Fin 2048) (s : State) : Res := .next (doPathLostExpiry n s)

/-- WARM_HOLD_EXPIRY: the peer has not come back from its warm reset in time. -/
def doWarmHoldExpiry (n : Fin 2048) (s : State) : State :=
  let x := s.strand n
  if !x.hold then s
  else if x.st = .stalled then loseStrand s n
  else s.setStrand n { x with hold := false }

/-- The command WARM_HOLD_EXPIRY (14 R394). -/
def execWarmHoldExpiry (n : Fin 2048) (s : State) : Res := .next (doWarmHoldExpiry n s)

/-! ## Global registers (14 R395) -/

/-- Words of the Twine group in effect. -/
def Twine.word (t : Twine) (off : Nat) : Word :=
  BitVec.ofNat 64 <|
    if off = 0x8000 then
      fld t.udp 0 16 + fld t.target 16 10 + fld t.pathLost 32 16 + fld t.warmHold 48 8 + fld t.rtoInit 56 8
    else
      let g := t.groups.get ⟨(off - 0x8100) / 0x20 % 8, Nat.mod_lt _ (by omega)⟩
      match off % 0x20 with
      | 0 => fld g.v4 0 32 + fld (b2n g.v4en) 32 1 + fld (b2n g.v6en) 33 1
      | 8 => g.v6 / 2 ^ 64
      | _ => g.v6 % 2 ^ 64

/-- Whether an IPv4 address may be enabled: not 0, multicast or broadcast. -/
def v4Ok (a : Nat) : Bool := a != 0 && a / 2 ^ 28 != 0xE && a != 0xFFFFFFFF
/-- Whether an IPv6 address may be enabled. -/
def v6Ok (a : Nat) : Bool := a != 0 && a / 2 ^ 120 != 0xFF

/-- Whether the fields of a `TWINE_CFG` word lie in their ranges. -/
def twineRanges (c : Nat) : Bool :=
  decide (1024 ≤ bitsOf c 0 16) && decide (1 ≤ bitsOf c 16 10) && decide (bitsOf c 16 10 ≤ 1000) &&
  decide (100 ≤ bitsOf c 32 16) && decide (bitsOf c 32 16 ≤ 60000) && decide (1 ≤ bitsOf c 48 8) && decide (10 ≤ bitsOf c 56 8)

/-- Whether the addresses of the groups may be enabled together. -/
def groupsOk (g : Fin 8 → GroupAddr) : Bool :=
  (List.finRange 8).all fun i =>
    (!(g i).v4en || v4Ok (g i).v4) && (!(g i).v6en || v6Ok (g i).v6) &&
    (List.finRange 8).all fun j => j == i ||
      (!((g i).v4en && (g j).v4en && (g i).v4 == (g j).v4) && !((g i).v6en && (g j).v6en && (g i).v6 == (g j).v6))

/-- The engine under a `TWINE_CFG` word. -/
def Twine.configured (t : Twine) (c : Nat) : Twine :=
  { t with udp := bitsOf c 0 16, target := bitsOf c 16 10, pathLost := bitsOf c 32 16, warmHold := bitsOf c 48 8
           rtoInit := bitsOf c 56 8 }

/-- TWINE_COMMIT. -/
def doTwineCommit (s : State) : State :=
  let t := s.twine
  let w (off : Nat) : Nat := (stagedOr t.staged off (t.word off)).toNat
  let g (i : Fin 8) : GroupAddr :=
    let b := 0x8100 + i.val * 0x20
    { v4 := bitsOf (w b) 0 32, v4en := bitsOf (w b) 32 1 == 1, v6en := bitsOf (w b) 33 1 == 1
      v6 := w (b + 8) * 2 ^ 64 + w (b + 0x10) }
  let c := w 0x8000
  if t.staged = [] then { s with twine := { t with result := .ok } }
  else if twineRanges c && groupsOk g then { s with twine := { (t.configured c) with staged := [], result := .ok, groups := vecOf 8 g } }
  else { s with twine := { t with staged := [], result := .refused } }

/-- The command TWINE_COMMIT. -/
def execTwineCommit (s : State) : Res := .next (doTwineCommit s)

/-! ## HELLO (14 R377, R378, R394) -/

/-- A HELLO with `RESET_PENDING` on every joined port (14 R394, 17 R471). -/
def announceReset (s : State) : State :=
  ((List.finRange 32).filter fun p => (s.port p).joined).foldl (fun s p => sendHello s p true) s

/-- HELLO_TIMER: a joined port sends its HELLO of the second. -/
def doHelloTimer (p : Fin 32) (s : State) : State :=
  if (s.port p).joined then sendHello s p false else s

/-- The command HELLO_TIMER. -/
def execHelloTimer (p : Fin 32) (s : State) : Res := .next (doHelloTimer p s)

/-- OPENING_HELLO_TIMER: an OPENING strand asks again; a LOST one with a joined port opens (14 R377). -/
def doOpeningHelloTimer (n : Fin 2048) (s : State) : State :=
  let x := s.strand n
  match x.st with
  | .opening => helloOpen s n
  | .lost => if (joinedPorts s x.cfg.group).isEmpty then s else helloOpen (openStrand s n) n
  | _ => s

/-- The command OPENING_HELLO_TIMER. -/
def execOpeningHelloTimer (n : Fin 2048) (s : State) : Res := .next (doOpeningHelloTimer n s)

/-- Whether a HELLO counter is above the last accepted from its sender (14 R378). -/
def freshHello (s : State) (m : HelloMsg) : Bool :=
  s.twine.heard.all fun h => !(h.1 == m.fuse.toNat && h.2.1 == m.nonce) || decide (h.2.2 < m.count.toNat)

/-- The sender's counter remembered. -/
def hear (s : State) (m : HelloMsg) : State :=
  { s with twine := { s.twine with
      heard := (m.fuse.toNat, m.nonce, m.count.toNat) ::
        s.twine.heard.filter fun h => !(h.1 == m.fuse.toNat && h.2.1 == m.nonce) } }

/-- Whether a strand leads to the sender of a HELLO. -/
def Strand.leadsTo (x : Strand) (m : HelloMsg) : Bool :=
  !x.session && x.peerNonce.isSome && x.peerId == m.fuse.toNat && x.st != .closed

/-- What a HELLO tells a strand to its sender: a new `BOOT_NONCE` loses it, `RESET_PENDING` holds it, any
other frees it (14 R394). -/
def helloTo (s : State) (m : HelloMsg) (n : Fin 2048) : State :=
  let x := s.strand n
  if x.peerNonce ≠ some m.nonce then
    let s := loseStrand s n
    s.setStrand n { s.strand n with peerNonce := some m.nonce, helloAt := some s.now }
  else s.setStrand n { x with hold := m.pending, helloAt := some s.now }

/-- Whether the named strand leads to the sender of an `OPEN`: its strand and its address are the peer's. A session
strand learns them from the first answer to its opening (log 154). -/
def Strand.peerIs (x : Strand) (m : HelloMsg) : Bool :=
  (x.session && x.cfg.ip == 0) || (x.cfg.peerStrand == m.src.val && x.cfg.ip == m.ip)

/-- A strand whose opening its peer has answered: OPEN, or STALLED where its group has no joined port (14 R377). -/
def Strand.answered (x : Strand) (m : HelloMsg) (ps : List (Fin 32)) (now : Nat) : Strand :=
  { x with st := if ps = [] then .stalled else .opened, peerId := m.fuse.toNat, peerNonce := some m.nonce, helloAt := some now
           cfg := if x.session then { x.cfg with ip := m.ip, peerStrand := m.src.val } else x.cfg }

/-- The `OPEN` of a HELLO: asked by the named peer strand it is answered; answered, the strand is OPEN. An OPEN or STALLED
strand whose peer opens anew has lost its connection, and opens anew itself (14 R377, log 153). -/
def helloOpens (s : State) (p : Fin 32) (m : HelloMsg) : State :=
  let n := m.dst
  let x := s.strand n
  if !m.opens ∨ n.val = 0 ∨ !x.cfg.enable ∨ !x.peerIs m then s else
  if m.reply then
    if x.st = .opening ∧ m.epoch = x.epoch then s.setStrand n (x.answered m (joinedPorts s x.cfg.group) s.now) else s
  else if x.session then s else
    let reply (s : State) : State :=
      putHello (s.setStrand n { s.strand n with peerEpoch := some m.epoch }) p
        (helloMsg s p true true false n m.src m.epoch m.ip x.cfg.udp)
    match x.st with
    | .opening => reply s
    | .opened | .stalled =>
      if x.peerEpoch.all (· == m.epoch) then reply s else helloOpen (reply (openStrand (loseStrand s n) n)) n
    | _ => s

/-- Peer entries take the fuse identity of the strands they name (15 R401). -/
def helloPeers (s : State) (m : HelloMsg) : State :=
  let new (e : Fin 64) : Peer :=
    let q := s.peer e
    let x := s.strand q.strand
    if q.strand.val ≠ 0 ∧ x.peerId = m.fuse.toNat ∧ x.helloAt = some s.now then
      { q with fuseLo := m.fuse.setWidth 64, hello := s.now }
    else q
  { s with ply := { s.ply with peers := vecOf 64 new } }

/-- A control frame of `n` bytes that finds no room in the receive buffer of its port (13 R359). -/
def noRoom (s : State) (p : Fin 32) (n : Nat) : Bool := decide (6 * 1048576 < (s.port p).fill + n)

/-- A frame discarded for want of buffer space (13 R359). -/
def dropRx (s : State) (p : Fin 32) : State := s.setPort p { s.port p with rxDrop := satAdd 16 (s.port p).rxDrop }

/-- Whether a HELLO is for the port that it comes in on: to all or to an address of its group, and to the Twine port (14 R371,
R378). -/
def helloHere (s : State) (p : Fin 32) (m : HelloMsg) : Bool :=
  let g := (s.port p).cfg.group
  frameReaches s p && groupLive s g && m.dport.toNat == s.twine.udp && groupTakes (s.twine.groups.get g) m.dest

/-- HELLO: a received HELLO that its GMAC authenticates. -/
def doHello (p : Fin 32) (m : HelloMsg) (s : State) : State :=
  if !helloHere s p m ∨ !freshHello s m then s
  else if noRoom s p ((if isV6 m.dest then 114 else 94) + 48) then dropRx s p
  else
  let s := hear (s.setPort p { s.port p with twine := true }) m
  let s := ((List.finRange 2048).filter fun n => (s.strand n).leadsTo m).foldl (fun s n => helloTo s m n) s
  helloPeers (helloOpens s p m) m

/-- The command HELLO. -/
def execHello (p : Fin 32) (m : HelloMsg) (s : State) : Res := .next (doHello p m s)

/-! ## Keys and bad frames (14 R374, R379) -/

/-- A frame discarded by R370 or R374. -/
def badFrame (s : State) : State := { s with twine := { s.twine with bad := satAdd 16 s.twine.bad } }

/-- RESERVED_TYPE_FRAME: also a frame with a reserved bit, a bad length or an ICV that fails (14 R374). -/
def doReservedTypeFrame (p : Fin 32) (s : State) : State := if frameReaches s p && groupLive s (s.port p).cfg.group then badFrame s else s

/-- The command RESERVED_TYPE_FRAME (14 R374). -/
def execReservedTypeFrame (p : Fin 32) (s : State) : Res := .next (doReservedTypeFrame p s)

/-- KEY_PHASE_ADVANCE: after 2^40 frames a direction moves to its next key phase. -/
def doKeyPhaseAdvance (n : Fin 2048) (s : State) : State :=
  let x := s.strand n
  if x.phaseAt + 2 ^ 40 ≤ x.txc then s.setStrand n { x with txPhase := x.txPhase + 1, phaseAt := x.txc } else s

/-- The command KEY_PHASE_ADVANCE (14 R379). -/
def execKeyPhaseAdvance (n : Fin 2048) (s : State) : Res := .next (doKeyPhaseAdvance n s)

/-- OLD_KEY_PHASE_EXPIRY: frames of the previous phase are no longer accepted. -/
def doOldKeyPhaseExpiry (n : Fin 2048) (s : State) : State := s.setStrand n { s.strand n with oldPhase := false }

/-- The command OLD_KEY_PHASE_EXPIRY (14 R379). -/
def execOldKeyPhaseExpiry (n : Fin 2048) (s : State) : Res := .next (doOldKeyPhaseExpiry n s)

/-! ## Dispatch of an RMA (12 R320, R322; 14 R381, R385) -/

def rmaRop (raw : List Byte) : Nat := fieldAt raw 0x20 48 51

/-- The form of an RMA. -/
def rmaFormOk (raw : List Byte) : Bool :=
  let fetch := fieldAt raw 0x20 56 56 == 1
  hdrClean raw && hdrNcont raw == 0 && zeros raw [(0x20, 43, 47), (0x20, 57, 63), (0x30, 0, 63), (0x38, 0, 63)] &&
  decide (rmaRop raw ≤ 3) && decide (fieldAt raw 0x20 52 55 ≤ 4) && (fetch || word64 raw 0x28 == 0)

/-- Whether a strand belongs to a queue's owner (14 R381). -/
def strandOwned (s : State) (q : Fin 4096) (n : Fin 2048) : Bool := (s.strand n).cfg.owner == ownerNum (queueOwner q)

/-- Whether the operations of a strand capture the TRANSIT generation: a strand that the tenant runtime owns (14 R380). -/
def Strand.capturesTransit (x : Strand) : Bool := x.cfg.owner == 2

/-- The generation of TRANSIT that an operation captures: the newest, be it one that has yet to take effect (16 R435). -/
def transitGen (s : State) : Nat := ((s.sec.keys.get 1).gen + BitVec.ofNat 32 s.sec.transitPend.length).toNat

/-- Whether an RMA waits for a rewrite of TRANSIT that it captured to take effect (14 R380, 16 R435). -/
def keyWaits (s : State) (r : Rma) : Bool :=
  (s.strand r.strand).capturesTransit &&
  (List.range s.sec.transitPend.length).any fun i => ((s.sec.keys.get 1).gen + BitVec.ofNat 32 (i + 1)).toNat == r.keyGen

/-- The RMA of a descriptor, with its local ranges captured; `none` where a page or a length fails. -/
def rmaBody (s : State) (q : Fin 4096) (d : Desc) (n : Fin 2048) : Option Rma :=
  let raw := d.raw
  let rop := rmaRop raw
  let aty := fieldAt raw 0x20 52 55
  let fetch := fieldAt raw 0x20 56 56 == 1 && rop == 3
  let len := fieldAt raw 0x20 0 31
  let base := word64 raw 0x10
  let res := word64 raw 0x28
  if (len = 0 ∧ rop ≠ 2) ∨ (rop = 3 ∧ len % addWidth aty ≠ 0) then none else
  match areaSegs s q (if rop = 2 then .write else .read) (base, len) true,
      areaSegs s q .write (res, if fetch then len else 0) true with
  | some segs, some rsegs =>
    some { queue := q, seq := d.seq, strand := n, rop, aty, fetch, len, remote := word64 raw 0x18, base, segs
           resBase := res, resSegs := rsegs, d := frameData s (s.strand n)
           keyGen := transitGen s }
  | _, _ => none

/-- The local ranges of an RMA, with the permission each needs. -/
def rmaRanges (raw : List Byte) : List (Perm × Nat × Nat) :=
  let len := fieldAt raw 0x20 0 31
  (if rmaRop raw = 2 then .write else .read, word64 raw 0x10, len) ::
    (if rmaRop raw = 3 ∧ fieldAt raw 0x20 56 56 = 1 then [(.write, word64 raw 0x28, len)] else [])

/-- An RMA dispatches if it is the next descriptor of its queue and belongs to the command. -/
def dispatchRma (q : Fin 4096) (mine : Nat → Bool) (s : State) : State :=
  match mayDispatch s q 2 with
  | none => s
  | some d =>
    if !mine (rmaRop d.raw) then s else
    if !rmaFormOk d.raw then failDesc s q d.seq .format else
    let n : Fin 2048 := ⟨fieldAt d.raw 0x20 32 42 % 2048, Nat.mod_lt _ (by omega)⟩
    if !strandOwned s q n then failDesc s q d.seq .refused else
    match rmaBody s q d n with
    | none => failDesc (walkFirst s q true (rmaRanges d.raw)) q d.seq .access
    | some r =>
      let x := s.strand n
      if x.st = .closed ∨ x.st = .lost ∨ r.d = 0 then failDesc s q d.seq .pathLost else
      let s := startDesc (walkSegs s (queueOwner q) (r.segs ++ r.resSegs)) q d.seq
      let s := { s with twine := { s.twine with rmas := s.twine.rmas ++ [r] } }
      s.setStrand n { x with txq := x.txq ++ (List.range r.frames).map fun i => .rma q d.seq i }

/-- RMA_WRITE; a reserved `ROP` is this command's too. -/
def doRmaWrite (q : Fin 4096) (s : State) : State := dispatchRma q (fun r => r == 0 || decide (4 ≤ r)) s
/-- RMA_WRITE_FLAGGED. -/
def doRmaWriteFlagged (q : Fin 4096) (s : State) : State := dispatchRma q (· == 1) s
/-- RMA_READ. -/
def doRmaRead (q : Fin 4096) (s : State) : State := dispatchRma q (· == 2) s
/-- RMA_ATOMIC_ADD. -/
def doRmaAtomicAdd (q : Fin 4096) (s : State) : State := dispatchRma q (· == 3) s

/-- The command RMA_WRITE (14 R381). -/
def execRmaWrite (q : Fin 4096) (s : State) : Res := .next (doRmaWrite q s)
/-- The command RMA_WRITE_FLAGGED (14 R383). -/
def execRmaWriteFlagged (q : Fin 4096) (s : State) : Res := .next (doRmaWriteFlagged q s)
/-- The command RMA_READ (14 R381). -/
def execRmaRead (q : Fin 4096) (s : State) : Res := .next (doRmaRead q s)
/-- The command RMA_ATOMIC_ADD (14 R385). -/
def execRmaAtomicAdd (q : Fin 4096) (s : State) : Res := .next (doRmaAtomicAdd q s)

/-! ## Sending (14 R387, R390) -/

/-- Whether a strand can put a frame on the wire: its port is joined and not paused, and the device's network
side runs. -/
def canSend (s : State) (x : Strand) : Bool :=
  (s.port x.port).joined && (s.port x.port).cfg.group == x.cfg.group && !dataPaused (s.port x.port) &&
  groupLive s x.cfg.group && !s.mgmt.clockLost && s.pwr.pstate != .p4

/-- Whether a message is an answer of the management domain: to a TALLY, or from the register space (12 R347). -/
def Msg.answers (m : Msg) : Bool :=
  match m with
  | .notify kind _ _ _ => kind == 4
  | .readResp _ _ _ _ mgmt => mgmt
  | _ => false

/-- Whether the management domain alone serves the ports: in an airflow stop and while a warm reset runs (12 R347, 17 R475, 18
R506). -/
def mgmtOnly (s : State) : Bool := s.pwr.stopped || s.mgmt.warming

/-- The frames that a strand may send: in an airflow stop or a warm reset, only the answers of the management domain. -/
def maySend (s : State) (m : Msg) : Bool := !mgmtOnly s || m.answers

/-- Whether an RMA that a warm reset interrupted waits for full service, as tenant work does (18 R491). -/
def rmaHeld (s : State) (q : Fin 4096) : Bool := s.mgmt.phase == .warmup && decide (16 ≤ q.val)

/-- The messages of which a strand may make new frames. -/
def mayFrame (s : State) (m : Msg) : Bool :=
  maySend s m && match m with
    | .rma q _ _ => !rmaHeld s q
    | _ => true

/-- `TS_ECHO` of an ACK: the time of the newest frame it acknowledges, plus the time since that frame came (14 R389). -/
def Strand.echo (x : Strand) (now : Nat) : BitVec 32 := match x.tsAt with
  | none => 0
  | some t => x.tsEcho + BitVec.ofNat 32 (now - t)

/-- The 32 bytes of a frame's header on a strand, big-endian (14 R372, 00 R9): it carries the current `ACK_PSN`, the time
and the counter of this transmission. -/
def frameHdr (s : State) (n : Fin 2048) (psn : Nat) (retx : Bool) (h : Head) (len : Nat) : List Byte :=
  let x := s.strand n
  let txc := x.txc + 1
  beBytes 1 h.type ++
  beBytes 1 (fld (b2n (Config.ackReq n.val txc)) 0 1 + fld (b2n retx) 1 1 + fld (x.txPhase % 2) 2 1 + fld (b2n h.last) 3 1) ++
  beBytes 2 (fld x.cfg.peerStrand 0 11 + fld h.aty 11 3 + fld (b2n h.fetch) 14 1) ++
  beBytes 4 psn ++ beBytes 4 x.rxC.toNat ++ beBytes 4 s.now ++ beBytes 4 (if h.type = 0x10 then (x.echo s.now).toNat else 0) ++ beBytes 2 len ++ beBytes 2 txc ++
  beBytes 8 h.addr

/-- What the header of a frame takes from its message (14 R372, R373): only the last frame of an RMA WRITE_FLAGGED is
flagged (14 R383). -/
def msgHead (s : State) (m : Msg) : Head :=
  match m with
  | .notify .. => { type := 0x13 }
  | .accept _ => { type := 0x12 }
  | .rma q seq i => match rmaOf s q seq with
    | none => { type := 0x01 }
    | some r =>
      let last := i + 1 == r.frames
      { type := if r.rop = 1 then (if last then 0x02 else 0x01) else [0x01, 0x01, 0x03, 0x05].getD r.rop 0x01
        aty := if r.rop = 3 then r.aty else 0, fetch := r.fetch, last, addr := r.remote + i * r.d }
  | .readResp req off last _ _ => { type := 0x04, last, addr := req.toNat * 2 ^ 32 + off }
  | .lag .. => { type := 0x17 }
  | .pace .. => { type := 0x18 }

/-- Words of 8 bytes turned from memory order into that of a frame (00 R9). -/
def beWords (bs : List Byte) : List Byte := (List.range ((bs.length + 7) / 8)).flatMap fun i => ((bs.drop (8 * i)).take 8).reverse

/-- The 24 bytes of an ACCEPT record (12 R325). -/
def AccRec.bytes (r : AccRec) : List Byte :=
  beBytes 8 (fld r.queue.val 0 12 + fld r.result.code 16 8 + fld (b2n r.old) 24 1 + fld r.dchk.toNat 32 32) ++
  beBytes 8 r.seq ++ beBytes 8 r.head

/-- The data bytes of a message that carries no memory (12 R325, R331; 15 R421). -/
def msgData (m : Msg) : List Byte :=
  match m with
  | .notify kind q res body => beBytes 8 (fld kind 0 8 + fld q 8 12 + fld res 20 8) ++ beWords body
  | .accept rs => rs.flatMap AccRec.bytes
  | .lag w0 w1 | .pace w0 w1 => beBytes 8 w0.toNat ++ beBytes 8 w1.toNat
  | .readResp _ _ _ data _ => data
  | .rma .. => []

/-- The input key material of a strand's keys (14 R379): the fleet link key, with the TRANSIT value of a tenant-owned peer
strand behind it, or the secret of its session. -/
def strandSecret (s : State) (n : Fin 2048) (transit : Nat) : Nat :=
  match s.sec.sessions.find? fun y => y.strand == some n with
  | some y => Config.sessionSecret y.no
  | none => if (s.strand n).cfg.owner = 2 then Config.fleetKey.toNat * 2 ^ 256 + transit else Config.fleetKey.toNat

/-- The key of one direction of a strand in a key phase (14 R379). What both ends name stands in the order of their
`FUSE_ID`s, and the direction is 0 from the lower one on; `OPEN_EPOCH` is that of the sender's opening (log 168). -/
def strandKey (s : State) (n : Fin 2048) (rx : Bool) (transit phase : Nat) : Nat :=
  let x := s.strand n
  let own := Config.fuseId.toNat
  let low : Bool := decide (own ≤ x.peerId)
  let pair (a b : Nat) : List Nat := if low then [a, b] else [b, a]
  let epoch := if rx then x.peerEpoch.getD 0 else x.epoch
  Config.hkdf (strandSecret s n transit) ((pair own x.peerId).foldl (fun a b => a * 2 ^ 128 + b) 0) "twine-strand"
    (pair n.val x.cfg.peerStrand ++ pair s.twine.nonce.toNat (x.peerNonce.getD 0).toNat ++
      [epoch.toNat, b2n (low == rx), phase])

/-- The key under which a strand sends: with the TRANSIT value in effect (16 R436). -/
def sendKey (s : State) (n : Fin 2048) : Nat :=
  strandKey s n false (((s.sec.keys.get 1).key).getD 0) (s.strand n).txPhase

/-- The datagram of a frame on a strand, with the ICV of header and data under this transmission's counter (14 R379). -/
def sealed_ (s : State) (n : Fin 2048) (ctrl : Bool) (hdr data : List Byte) : Encap :=
  { encap s n ctrl with icv := beBytes 16 (Config.gcm (sendKey s n) ((s.strand n).txc + 1) hdr data).toNat }

/-- The frame the device records as sent. Every sequenced frame carries the current `ACK_PSN`: what has applied above
it is still to be acknowledged (14 R386). -/
def putFrame (s : State) (n : Fin 2048) (psn : BitVec 32) (retx : Bool) (msg : Msg) (head : Head) (data : List Byte) :
    State :=
  let x := s.strand n
  let hdr := frameHdr s n psn.toNat retx head data.length
  (s.setStrand n { x with txc := x.txc + 1, ackDue := if x.rxBits = [] then 0 else x.ackDue }).say
    (.frame x.port n psn retx msg data hdr (sealed_ s n false hdr data))

/-- A frame sent for the first time. -/
def sendNew (s : State) (n : Fin 2048) (msg : Msg) (data : List Byte) (size : Nat) : State :=
  let x := s.strand n
  let f : TxFrame := { psn := x.nextPsn, msg, head := msgHead s msg, data, size, sent := s.now }
  let s := s.setStrand n { x with nextPsn := x.nextPsn + 1, txq := x.txq.tail, unacked := x.unacked ++ [f] }
  putFrame s n f.psn false msg f.head data

/-- Bytes in flight on a strand. -/
def Strand.flight (x : Strand) : Nat := (x.unacked.map (·.size)).sum

/-- The data of frame `i` of an RMA, or the status with which the RMA ends: ACCESS where its range is no longer mapped
(09 R239), FAULTED where it meets poison (09 R235). -/
def rmaData (s : State) (r : Rma) (i : Nat) : Except Status (List Byte) :=
  let a := r.base + i * r.d
  let n := r.size i
  if r.rop = 2 then .ok (leBytes 8 n).reverse
  else if !segsMapped s r.segs then .error .access
  else if segsPoisoned s r.segs a n then .error .faulted
  else .ok (readSegs s r.segs a n)

/-- The frame at the head of a strand's queue goes out, if the window lets it. A frame of an RMA that is gone is
dropped; one whose data cannot be read fails its RMA. A read of a bound range fetches the sectors it meets (08 R220). -/
def sendHead (s : State) (n : Fin 2048) : State :=
  let x := s.strand n
  match x.txq with
  | [] => s
  | m :: rest =>
    let room (len : Nat) : Bool := decide (x.flight + overhead s x + len ≤ x.window)
    match m with
    | .rma q seq i =>
      match rmaOf s q seq with
      | none => s.setStrand n { x with txq := rest }
      | some r =>
        if keyWaits s r then s else
        let s := if r.rop = 2 then s else touchSegs s r.segs (r.base + i * r.d) (r.size i) false
        match rmaData s r i with
        | .error st =>
          let bad := if st = .faulted then firstPoison s r.segs (r.base + i * r.d) (r.size i) else none
          let s := poisonRecord (s.setStrand n { x with txq := rest }) bad q.val 2
          settleRmas (setRma s q seq fun r => { r with acked := r.acked + 1, st := if r.st = .ok then st else r.st })
        | .ok data =>
          if !room data.length then s else
          let wants := (r.rop = 2 ∨ r.fetch) ∧ r.size i ≠ 0
          let s := setRma s q seq fun r =>
            { r with resp := if wants then r.resp ++ [(x.nextPsn, i, r.size i)] else r.resp }
          sendNew s n m data (overhead s x + data.length)
    | m =>
      let data := msgData m
      if room data.length then sendNew s n m data (overhead s x + data.length) else s

/-- A strand's queue with the messages that may be sent before the others. -/
def Strand.sendable (x : Strand) (s : State) : Strand :=
  if x.txq.all (mayFrame s) then x else { x with txq := x.txq.filter (mayFrame s) ++ x.txq.filter fun m => !mayFrame s m }

/-- The frames that a strand may send again: a STALLED strand's oldest alone is its probe (14 R393). -/
def Strand.repeats (x : Strand) : List TxFrame :=
  (if x.st = .stalled then x.unacked.take 1 else x.unacked).filter (·.again)

/-- FRAME_TRANSMIT: a strand sends its next frame: one to be sent again first, else the head of its queue while
fewer than 1,024 frames are unacknowledged. -/
def doFrameTransmit (n : Fin 2048) (s : State) : State :=
  let x := s.strand n
  if !canSend s x ∨ !(x.st = .opened ∨ x.st = .stalled) then s else
  match x.repeats.find? fun f => maySend s f.msg with
  | some f =>
    let sent (g : TxFrame) : TxFrame := if g = f then { g with again := false, retx := true, sent := s.now } else g
    let s := s.setStrand n { x with unacked := x.unacked.map sent }
    let s := { s with twine := { s.twine with retx := satAdd 24 s.twine.retx } }
    putFrame s n f.psn true f.msg f.head f.data
  | none =>
    let y := x.sendable s
    if x.st ≠ .opened ∨ 1024 ≤ x.unacked.length ∨ !y.txq.head?.all (mayFrame s) then s else sendHead (s.setStrand n y) n

/-- The command FRAME_TRANSMIT (14 R390). -/
def execFrameTransmit (n : Fin 2048) (s : State) : Res := .next (doFrameTransmit n s)

/-- Base RTT of a strand: the smallest sample of the last 30 s on its path (14 R389). -/
def baseRtt (s : State) (x : Strand) : Option Nat :=
  ((x.samples.filter fun y => decide (s.now ≤ y.1 + 30000000000)).map (·.2)).foldl
    (fun m v => match m with
      | none => some v
      | some w => some (min v w)) none

/-- The retransmit timeout of a strand in ns, after its consecutive expiries (14 R387). -/
def rtoOf (s : State) (x : Strand) : Nat :=
  let t := match x.srtt, baseRtt s x with
    | some m, some b => max (max (m + 4 * x.rttvar) (2 * b)) 20000
    | some m, none => max (m + 4 * x.rttvar) 20000
    | none, _ => s.twine.rtoInit * 1000
  min 16000000 (t * 2 ^ x.backoff)

/-- A window held between one MTU and 2 MiB. -/
def clampWindow (m w : Nat) : Nat := max m (min 2097152 w)

/-- RETRANSMIT_TIMEOUT: unacknowledged frames are sent again, a STALLED strand's oldest alone; the window falls to
one MTU, and at that update the path is chosen again where the joined ports have changed; three expiries on a path advance its counter; three on every joined port stall the strand. -/
def doRetransmitTimeout (n : Fin 2048) (s : State) : State :=
  let x := s.strand n
  if x.unacked = [] ∨ !(x.st = .opened ∨ x.st = .stalled) then s else
  let ps := joinedPorts s x.cfg.group
  let x := { x with backoff := x.backoff + 1, pathExp := x.pathExp + 1, expired := x.port :: x.expired, window := mtu s x }
  let x := x.choose s n
  let x := if 3 ≤ x.pathExp then
      match choosePort ps n (x.path + 1) with
      | some p => x.onPath p (x.path + 1)
      | none => { x with path := x.path + 1, pathExp := 0 }
    else x
  let x := { x with st := if x.usable ps then x.st else .stalled }
  s.setStrand n (if x.st = .stalled then x.probe else x.again)

/-- The command RETRANSMIT_TIMEOUT (14 R387, R393). -/
def execRetransmitTimeout (n : Fin 2048) (s : State) : Res := .next (doRetransmitTimeout n s)

end Sys2Proof.Machine
end

