-- ==== Sys2Proof/Machine/Losses.lean ====
section
/-!
DEFINITION. Parts of memory that are lost (09 R241 to R243, R252, R253; 11 R306; 12 R337, R341): a stack, an expander's link; and
the work that used them.
-/

namespace Sys2Proof.Machine

/-! ## Loss of a stack (09 R243; 12 R337, R341) -/

/-- Whether a captured range uses a stack: its alias window, or the interleaved range that includes it. -/
def segsInStack (m : Mem) (k : Fin 8) (segs : List Seg) : Bool :=
  segs.any fun g => (probePoints g.pa g.len).any fun a => match physLoc m a with
    | .stacked key => keyStack m key == some k
    | _ => false

/-- The work that used a stack, before the stack leaves the map (09 R241). -/
def interruptStack (s : State) (k : Fin 8) : State :=
  let uses (segs : List Seg) : Bool := segsInStack s.mem k segs
  let hit (m : Move) : Bool := uses (m.srcSegs ++ m.dstSegs ++ m.shSegs)
  let byMove := (flying s).filterMap fun m => if hit m then match m.origin with
      | .instr _ _ => m.work s
      | .desc _ _ => none
    else none
  let byImage := (s.kernels.filter fun k => uses (k.segs ++ k.args)).map fun k => (k.queue, k.seq)
  let descs := (flying s).filter fun m => hit m && match m.origin with
    | .desc _ _ => true
    | _ => false
  let s := (byMove ++ byImage).dedup.foldl (fun s w => interruptKernel s w.1 w.2) s
  descs.foldl (fun s m => match m.origin with
    | .desc q seq =>
      let fl := startedFlags s m
      let s := cutMoves s fun x => x == m
      if replaySafe s q seq then redo s q seq fl else countMove (finish s q seq .faulted fl 0 0 0) m .faulted
    | .instr _ _ => s) s

/-- A switched-out share whose save image is lost starts again from its start on a healthy spindle if the kernel is
`REPLAY_SAFE`, translated anew (11 R305), and otherwise ends with FAULTED; its fault closes as resolved (11 R306). -/
def loseImage (s : State) (i : SaveImage) : State :=
  let h := i.share
  let ids := (s.trans.faults.filter fun f => f.queue == i.queue && f.work == .share h.logical h.seq).map (·.id)
  let s := ids.foldl dropFault (s.setTrans { s.trans with images := s.trans.images.filter fun j => j != i })
  match (descOf s i.queue h.seq).filter fun d => hdrReplay d.raw with
  | none => reportShare s h .faulted 0 i.regs.flags
  | some d =>
    let s := markReplayed s i.queue h.seq
    match kernelReach s i.queue d with
    | (.ok segs, .ok args) => setKernel s i.queue h.seq fun k =>
        { k with segs, args, waiting := (h.index, h.logical) :: k.waiting }
    | _ => reportShare s h .access 0 noFlags

/-- Whether a save image has bytes on a stack. -/
def imageOn (m : Mem) (k : Fin 8) (i : SaveImage) : Bool :=
  (probePoints (saveBase i.slot) saveBytes).any fun a => (locKey (physLoc m a)).bind (keyStack m) == some k

/-- The save images that lie on a stack are lost (11 R306). -/
def loseImages (s : State) (k : Fin 8) : State := (s.trans.images.filter (imageOn s.mem k)).foldl loseImage s

/-- Both copies of the translation tables are lost: each stage stands empty at generation 0 (11 R306). -/
def loseTables (s : State) : State :=
  { s with
    trans := { s.trans with s1 := [], s2 := [], gen1 := 0, gen2 := 0, walker := [] }
    skeins := s.skeins.map fun k => { k with tlb := [] } }

/-- The journal and the tables, which lie beside it (11 R298), after the loss of a stack (11 R306; 12 R337, R341). -/
def loseMirror (s : State) (k : Fin 8) : State :=
  let j := s.jrn
  let gone (x : Fin 8) : Bool := (s.mem.stack.get x).lost
  if k ≠ j.mirrorA ∧ k ≠ j.mirrorB then s
  else if gone j.mirrorA ∧ gone j.mirrorB then
    let s := loseTables s
    record { s with
      jrn := { j with rebuilding := false, lostBoth := true }
      queues := s.queues.map fun x => { x with st := .off, cfg := { x.cfg with enable := false } } } 0x0E none 0 0 [2]
  else { s with jrn := { j with rebuilding := true } }

/-! ### Remote memory access and group operations in flight -/

/-- Whether an RMA still has local bytes to read or write: a frame not sent, or a response not written. -/
def Rma.pending (s : State) (r : Rma) : Bool :=
  !r.resp.isEmpty || (s.strand r.strand).txq.any fun m => match m with
    | .rma q seq _ => q == r.queue && seq == r.seq
    | _ => false

/-- The RMAs and group operations in flight whose ranges `f` names and that still have bytes of them to reach complete with
a status (09 R241, R243, R253): an RMA with `rst` (12 R338), a group operation with `st`. -/
def endReach (s : State) (f : List Seg → Bool) (rst st : Status) : State :=
  let rs := s.twine.rmas.filter fun r => f (r.segs ++ r.resSegs) && r.pending s
  let os := s.ply.ops.filter fun o => f (o.srcSegs ++ o.dstSegs ++ o.decSegs ++ o.resSegs)
  os.foldl (fun s o => endOp s o st) (rs.foldl (fun s r => endRma s r rst) s)

/-- Why a channel is out or will be: what mapped it out, or the cause of the map-out that waits for it (09 R240). -/
def Mem.outCause (m : Mem) (c : Fin 256) : Option Nat :=
  match m.migWait.find? fun g => !g.joins && g.chan == c with
  | some g => some g.cause
  | none => if (m.chan.get c).st = .inService then none else some (m.chan.get c).cause

/-- STACK_LOST: the stack leaves the map; work that used it is completed (09 R241, R243). -/
def doStackLost (k : Fin 8) (s : State) : State :=
  let y := s.mem.stack.get k
  if !(y.up || y.trained) || y.lost then s else
  let s := endReach (interruptStack (loseImages s k) k) (segsInStack s.mem k) .faulted .access
  let hurt (g : SweepSeg) : SweepSeg := if g.stack = k then { g with lost := true } else g
  let cut (w : Sweep) : Sweep :=
    if w.parts.any (fun g => g.stack == k) then { w with bad := true, parts := w.parts.map hurt } else w
  let s := { s with sweeps := s.sweeps.map cut }
  let m := s.mem
  let keep (g : Migration) : Bool := stackOf g.chan != k
  let m := { m with
    il := [], ilKept := [], mig := m.mig.filter keep, migWait := m.migWait.filter keep
    stack := upd m.stack k { y with up := false, lost := true, trained := false, channels := 0, distRedo := false, distWait := false, granule := 0 }
    chan := vecOf 256 fun c => if stackOf c = k then (m.chan.get c).gone (m.outCause c) else m.chan.get c }
  let s := s.setMem m.resized
  let s := loseMirror (memPartRecord s 4 k.val 2) k
  afterMigration (s.mem.migWait.length + s.mem.heldCtrl.length + 1) s

/-- The command STACK_LOST. -/
def execStackLost (k : Fin 8) (s : State) : Res := .next (doStackLost k s)

/-! ## Far tier (09 R252, R253, R259) -/

/-- Base of expander window `i` (09 R251). -/
def farWindow (i : Fin 2) : Nat := 0x100000000000 + i.val * 0x20000000000

def Mem.setFar (m : Mem) (i : Fin 2) (x : Far) : Mem := { m with far := upd m.far i x }

/-- Whether a captured range lies in an expander's window. -/
def segsInFar (m : Mem) (i : Fin 2) (segs : List Seg) : Bool :=
  segs.any fun g => (probePoints g.pa g.len).any fun a => match physLoc m a with
    | .far key => decide ((if m.bifur && decide (0x120000000000 ≤ key) then 1 else 0) = i.val)
    | _ => false

/-- Outstanding accesses to an expander complete with FAULTED: moves on flyers and sweeps end so when they complete; kernels
that fetch their image there, RMAs and group operations end (09 R253). -/
def faultFar (s : State) (i : Fin 2) : State :=
  let hit (m : Move) : Bool := segsInFar s.mem i (m.srcSegs ++ m.dstSegs ++ m.shSegs)
  let ks := (s.kernels.filter fun k => segsInFar s.mem i (k.segs ++ k.args)).map fun k => (k.queue, k.seq)
  let s := ks.foldl (fun s w => finish (stopKernel s w.1 w.2) w.1 w.2 .faulted (kernelFlags s w.1 w.2) 0 0 0) s
  let hurt (m : Move) : Move := if hit m then { m with faulted := true } else m
  let worn (w : Sweep) : Sweep :=
    if segsInFar s.mem i (w.blockSeg ++ w.tabSegs ++ w.decSegs ++ w.resSegs) then { w with bad := true } else w
  let s := endReach s (segsInFar s.mem i) .faulted .faulted
  { s with
    sweeps := s.sweeps.map worn
    skeins := s.skeins.map fun k => { k with fly := k.fly.map fun y => { y with move := y.move.map hurt } } }

/-- CXL_LINK_DROP. -/
def doCxlLinkDrop (i : Fin 2) (s : State) : State :=
  let x := s.mem.far.get i
  if x.link = .down then s else
  let s := faultFar s i
  record (s.setMem (s.mem.setFar i { x with link := .down, mapped := false })) 0x01 none 8 i.val [s.mem.memGen.toNat, 2]

/-- The command CXL_LINK_DROP. -/
def execCxlLinkDrop (i : Fin 2) (s : State) : Res := .next (doCxlLinkDrop i s)

/-- CXL_RETRAIN: an attempt to train a link that has dropped ends, `up` or not; the window stays unmapped. A link in
TRAINING belongs to bring-up (09 R252). -/
def doCxlRetrain (i : Fin 2) (up : Bool) (s : State) : State :=
  let x := s.mem.far.get i
  if x.link = .down then s.setMem (s.mem.setFar i { x with link := if up then .unmapped else .down })
  else s

/-- The command CXL_RETRAIN. -/
def execCxlRetrain (i : Fin 2) (up : Bool) (s : State) : Res := .next (doCxlRetrain i up s)

/-- Memory whose expander window `i` has new, unspecified contents, the free block `n`. -/
def Mem.freshFar (m : Mem) (i : Fin 2) (n : Nat) (x : Far) : Mem :=
  let mine (key : Nat) : Bool :=
    decide (0x100000000000 ≤ key) && decide ((if m.bifur && decide (0x120000000000 ≤ key) then 1 else 0) = i.val)
  { m.setFar i { x with fresh := some n } with
    cells := m.cells.filter (fun c => !mine c.1), poison := m.poison.filter fun b => !mine (b * 32) }

/-- FAR_REENABLE: a window whose link is up is mapped again, with unspecified contents. -/
def doFarReenable (i : Fin 2) (s : State) : State :=
  let x := s.mem.far.get i
  if x.link = .unmapped then
    { s.setMem (s.mem.freshFar i s.free { x with link := .up, mapped := true }) with free := s.free + 1 }
  else s

/-- The command FAR_REENABLE. -/
def execFarReenable (i : Fin 2) (s : State) : Res := .next (doFarReenable i s)

end Sys2Proof.Machine
end

