-- ==== Sys2Proof/Machine/Ports.lean ====
section
/-!
DEFINITION. Ethernet ports (13): the staged port group, training, joining and loss of links, LLDP, pause and
priority flow control, and the wake ports.
-/

namespace Sys2Proof.Machine

/-- Ports of a mode (13 R350). -/
def portCount (mode : Nat) : Nat :=
  match mode with
  | 0 => 32
  | 1 => 16
  | 2 => 8
  | _ => 4

/-- Whether a port exists in the present mode. -/
def portExists (s : State) (p : Fin 32) : Bool := decide (p.val < portCount s.eth.mode)

/-- MAC address of a port (13 R356). -/
def portMac (p : Fin 32) : Nat := (Config.baseMac + BitVec.ofNat 48 p.val).toNat

/-! ## Links (13 R354, R363 to R365) -/

/-- A port that may train does so at once; another stays DOWN (13 R364, R365; 18 R513). -/
def Port.restart (y : Port) : Link := if y.cfg.enable && !y.failed && !y.retired then .training else .down

/-- A port that is not up. -/
def Port.dropped (y : Port) (l : Link) : Port :=
  { y with link := l, joined := false, degraded := false, lldp := false, twine := false, xoffTx := 0, xoffRx := 0
           attempts := 0, fill := 0, ctrlQ := [], flaps := if y.link = .up then satAdd 16 y.flaps else y.flaps }

def lldpBase (p : Fin 32) : Nat := 0x1000000 + p.val * 0x800

/-- The stored LLDPDU of a port is cleared (13 R362). -/
def clearLldp (s : State) (p : Fin 32) : State :=
  s.setMgmt { s.mgmt with win := cellsWrite s.mgmt.win (lldpBase p) (List.replicate 0x800 0) }

/-- A port goes to a state in which its link is not up. -/
def dropPort (s : State) (p : Fin 32) (l : Link) : State :=
  clearLldp (s.setPort p ((s.port p).dropped l)) p

/-- A port whose link is lost or that is trained anew. -/
def retrain (s : State) (p : Fin 32) : State :=
  dropPort s p (if portExists s p then (s.port p).restart else .off)

/-- A port joins its group: it sends HELLO (13 R364), and to the peers of its group's strands (14 R378). -/
def joinPort (s : State) (p : Fin 32) : State :=
  let s := settlePaths (s.setPort p { s.port p with joined := true })
  let g := (s.port p).cfg.group
  let peers := ((List.finRange 2048).filter fun n =>
    (s.strand n).cfg.enable && (s.strand n).cfg.group == g && (s.strand n).cfg.ip != 0).map fun n =>
      ((s.strand n).cfg.ip, (s.strand n).cfg.udp)
  let ask (s : State) (c : Nat × Nat) : State := putHello s p (helloMsg s p false false false 0 0 0 c.1 c.2)
  releaseCtrl (peers.dedup.foldl ask (sendHello s p false)) p

/-- PORT_DOWN: the link of a port that is up is lost. -/
def doPortDown (p : Fin 32) (s : State) : State :=
  if (s.port p).link = .up then settlePaths (retrain s p) else s

/-- The command PORT_DOWN (13 R363). -/
def execPortDown (p : Fin 32) (s : State) : Res := .next (doPortDown p s)

/-- PORT_LINK_UP: training succeeds. -/
def doPortLinkUp (p : Fin 32) (s : State) : State :=
  if (s.port p).link = .training then s.setPort p { s.port p with link := .up, attempts := 0 } else s

/-- The command PORT_LINK_UP (13 R364). -/
def execPortLinkUp (p : Fin 32) (s : State) : Res := .next (doPortLinkUp p s)

/-- PORT_JOIN: a link has stayed up for `UP_HOLD`. -/
def doPortJoin (p : Fin 32) (s : State) : State :=
  let y := s.port p
  if y.link = .up ∧ !y.joined ∧ !y.storm then joinPort s p else s

/-- The command PORT_JOIN (13 R364). -/
def execPortJoin (p : Fin 32) (s : State) : Res := .next (doPortJoin p s)

/-- Whether the device comes up: not yet in full service (18 R490). -/
def comingUp (m : Mgmt) : Bool :=
  match if m.phase = .stopped then m.resume else m.phase with
  | .mgmt | .warmup => true
  | _ => false

/-- A port fails: it stays DOWN, with a fault record of cause 1 in bring-up, 2 later (18 R490, R510). -/
def failPort (s : State) (p : Fin 32) : State :=
  let cause := if comingUp s.mgmt then 1 else 2
  let s := dropPort s p .down
  let s := settlePaths (s.setPort p { s.port p with failed := true, storm := false })
  record s 0x01 none 5 p.val [s.mem.memGen.toNat, cause]

/-- TRAINING_RESTART: an attempt has not succeeded in 3 s; the twentieth in a row fails the port. -/
def doTrainingRestart (p : Fin 32) (s : State) : State :=
  let y := s.port p
  if y.link ≠ .training then s
  else if 20 ≤ y.attempts + 1 then failPort s p
  else s.setPort p { y with attempts := y.attempts + 1 }

/-- The command TRAINING_RESTART (13 R364, R365). -/
def execTrainingRestart (p : Fin 32) (s : State) : Res := .next (doTrainingRestart p s)

/-- PORT_FAIL: a lane fails its SerDes self-check or the PCS reports an internal fault. -/
def doPortFail (p : Fin 32) (s : State) : State :=
  if (s.port p).failed ∨ (s.port p).link = .off then s else failPort s p

/-- The command PORT_FAIL (13 R365). -/
def execPortFail (p : Fin 32) (s : State) : Res := .next (doPortFail p s)

/-- Every port begins to train, or is OFF or DOWN (13 R350, R364). -/
def startPorts (s : State) : State := (List.finRange 32).foldl retrain s

/-- Every link drops (01 R35). -/
def dropPorts (s : State) : State :=
  settlePaths ((List.finRange 32).foldl (fun s p => if (s.port p).link = .off then s else dropPort s p .down) s)

/-- REFCLK_LOSS: the stacks enter self-refresh, every clock stops, all links drop, the state is held. -/
def doRefclkLoss (s : State) : State :=
  if s.mgmt.clockLost ∨ s.mgmt.phase = .reset then s
  else let s := dropPorts s
    s.setMgmt { s.mgmt with clockLost := true }

/-- The command REFCLK_LOSS (01 R35, 13 R369). -/
def execRefclkLoss (s : State) : Res := .next (doRefclkLoss s)

/-! ## ETH_COMMIT (13 R352 to R354) -/

def pmdFields (y : PortCfg) : Bool × Nat × Nat × Bool × Bool := (y.enable, y.pmd, y.fec, y.an, y.precode)

/-- `PORT_CFG` and `PORT_FC` as words. -/
def PortCfg.words (c : PortCfg) : Nat × Nat :=
  (fld (b2n c.enable) 0 1 + fld c.pmd 1 2 + fld c.fec 3 2 + fld (b2n c.an) 5 1 + fld (b2n c.precode) 6 1 +
     fld (b2n c.pause) 7 1 + fld c.pfc.toNat 8 8 + fld c.group.val 16 3 + fld (b2n c.vlan) 19 1 + fld c.vid 20 12 +
     fld c.dataPcp 32 3 + fld c.ctrlPcp 35 3 + fld c.maxFrame 38 14,
   fld c.xoff 0 7 + fld c.xon 8 7 + fld c.upHold 16 16 + fld c.storm 32 16)

/-- A port configuration read from its two words. -/
def portCfgOf (w f : Nat) : PortCfg :=
  { enable := bitsOf w 0 1 == 1, pmd := bitsOf w 1 2, fec := bitsOf w 3 2, an := bitsOf w 5 1 == 1
    precode := bitsOf w 6 1 == 1, pause := bitsOf w 7 1 == 1, pfc := BitVec.ofNat 8 (bitsOf w 8 8)
    group := ⟨bitsOf w 16 3 % 8, Nat.mod_lt _ (by omega)⟩, vlan := bitsOf w 19 1 == 1, vid := bitsOf w 20 12
    dataPcp := bitsOf w 32 3, ctrlPcp := bitsOf w 35 3, maxFrame := bitsOf w 38 14
    xoff := bitsOf f 0 7, xon := bitsOf f 8 7, upHold := bitsOf f 16 16, storm := bitsOf f 32 16 }

/-- What a commit holds against an enabled port (13 R353). -/
def PortCfg.ok (c : PortCfg) : Bool :=
  !c.enable ||
  (c.pmd != 3 && c.fec == 0 && !(c.pmd == 0 && (c.an || c.precode)) && !(c.pause && c.pfc != 0) &&
   decide (c.xoff ≤ 90) && decide (10 ≤ c.xon) && decide (c.xon < c.xoff) &&
   decide (1518 ≤ c.maxFrame) && decide (c.maxFrame ≤ 9216) && !(c.vlan && (c.vid == 0 || c.vid == 4095)))

def portOff (p : Fin 32) : Nat := 0x7100 + p.val * 0x20

/-- The configuration of a port as a commit would leave it. -/
def Eth.stagedPort (e : Eth) (p : Fin 32) : PortCfg :=
  let c := (e.ports.get p).cfg.words
  let w (off v : Nat) : Nat := (stagedOr e.staged off (BitVec.ofNat 64 v)).toNat
  portCfgOf (w (portOff p) c.1) (w (portOff p + 8) c.2)

/-- One port takes its committed configuration: it retrains where the mode or a field of its link changes. -/
def commitPort (old : Eth) (moded : Bool) (s : State) (p : Fin 32) : State :=
  let c := old.stagedPort p
  let y := s.port p
  let s' := s.setPort p { y with cfg := c }
  if moded || pmdFields c != pmdFields y.cfg then retrain s' p
  else if y.joined && c.group != y.cfg.group then sendHello s' p false
  else s'

/-- ETH_COMMIT. -/
def doEthCommit (s : State) : State :=
  let e := s.eth
  let mode := (stagedOr e.staged 0x7000 (BitVec.ofNat 64 e.mode)).toNat % 4
  let ok : Bool := (List.finRange 32).all fun p => decide (portCount mode ≤ p.val) || (e.stagedPort p).ok
  if e.staged = [] then { s with eth := { e with result := .ok } }
  else if ok then
    let s := { s with eth := { e with mode, staged := [], result := .ok } }
    settlePaths ((List.finRange 32).foldl (commitPort e (mode != e.mode)) s)
  else { s with eth := { e with staged := [], result := .refused } }

/-- The command ETH_COMMIT. -/
def execEthCommit (s : State) : Res := .next (doEthCommit s)

/-! ## Frames of the MAC (13 R355 to R357, R362) -/

/-- FCS_BAD_FRAME: discarded and counted; `fec` where an uncorrectable codeword is the reason. -/
def doFcsBadFrame (p : Fin 32) (fec : Bool) (s : State) : State :=
  let y := s.port p
  if y.link ≠ .up then s
  else s.setPort p { y with fcsBad := satAdd 16 y.fcsBad, fecUncorr := if fec then satAdd 16 y.fecUncorr else y.fecUncorr }

/-- The command FCS_BAD_FRAME (13 R355). -/
def execFcsBadFrame (p : Fin 32) (fec : Bool) (s : State) : Res := .next (doFcsBadFrame p fec s)

/-- OTHER_FRAME_DISCARD (13 R357): discarded without count. -/
def execOtherFrameDiscard (_p : Fin 32) (s : State) : Res := .next s

/-- ARP_REQUEST: the management controller answers for an address of the port's group; a pause holds its answer back (13
R360, log 147). -/
def doArpRequest (p : Fin 32) (ip : Nat) (v6 : Bool) (s : State) : State :=
  let y := s.port p
  if portsServe s && !s.mgmt.restarting && y.joined && groupHas (s.twine.groups.get y.cfg.group) ip v6 then
    sayCtrl s p (.mac p 0 [ip, b2n v6, portMac p])
  else s

/-- The command ARP_REQUEST (13 R357, 14 R371). -/
def execArpRequest (p : Fin 32) (ip : Nat) (v6 : Bool) (s : State) : Res := .next (doArpRequest p ip v6 s)

/-- LLDPDU_RECEIVE: the most recent one is kept, or cleared by a TTL of 0. A frame longer than `MAX_FRAME`, from its
addresses to its FCS, is counted and discarded (13 R355), and so is one that finds no room (R359). -/
def doLldpduReceive (p : Fin 32) (ttl : Nat) (data : List Byte) (s : State) : State :=
  let y := s.port p
  if !portsServe s ∨ y.link ≠ .up then s
  else if y.cfg.maxFrame < data.length + 18 then doFcsBadFrame p false s
  else if noRoom s p (data.length + 18) then dropRx s p
  else
  let s := clearLldp (s.setPort p { y with lldp := ttl != 0 }) p
  if ttl = 0 then s else
  let d := data.take 2040
  let head := leBytes 4 d.length ++ leBytes 4 (s.now / 1000000)
  s.setMgmt { s.mgmt with win := cellsWrite s.mgmt.win (lldpBase p) (head ++ d) }

/-- The command LLDPDU_RECEIVE (13 R362). -/
def execLldpduReceive (p : Fin 32) (ttl : Nat) (data : List Byte) (s : State) : Res :=
  .next (doLldpduReceive p ttl data s)

/-- "OVK-T8". -/
def lldpName : List Byte := [0x4F, 0x56, 0x4B, 0x2D, 0x54, 0x38]

/-- The TLVs of an LLDPDU in their order (13 R362): chassis ID and port ID as MAC addresses, TTL, system name, port
description as port number and mode, system capabilities as supported and enabled of which "station only" is bit 7, and
the end. -/
def lldpTlvs (s : State) (p : Fin 32) : List Nat :=
  [Config.baseMac.toNat, portMac p, 120, leNat (lldpName ++ Config.serialNumber).reverse, p.val, s.eth.mode, 0x80, 0x80, 0]

/-- LLDP_TIMER: an enabled port whose link is up names itself; a pause of `CTRL_PCP` holds that back (13 R360). -/
def doLldpTimer (p : Fin 32) (s : State) : State :=
  let y := s.port p
  if portsServe s && y.link == .up && y.cfg.enable then
    sayCtrl s p (.mac p 1 (lldpTlvs s p))
  else s

/-- The command LLDP_TIMER (13 R362). -/
def execLldpTimer (p : Fin 32) (s : State) : Res := .next (doLldpTimer p s)

/-- LLDP_TTL_EXPIRY. -/
def doLldpTtlExpiry (p : Fin 32) (s : State) : State := clearLldp (s.setPort p { s.port p with lldp := false }) p

/-- The command LLDP_TTL_EXPIRY (13 R362). -/
def execLldpTtlExpiry (p : Fin 32) (s : State) : Res := .next (doLldpTtlExpiry p s)

/-! ## Pause (13 R359 to R361) -/

/-- The priorities that a received pause frame names and the port honours (13 R360). -/
def pauseMask (c : PortCfg) (pfc : Bool) (prios : BitVec 8) : BitVec 8 :=
  if pfc then prios &&& c.pfc else if c.pause then 0xFF else 0

/-- PAUSE_FRAME: transmission stops for the pause time, or resumes where it is 0. -/
def doPauseFrame (p : Fin 32) (pfc : Bool) (prios : BitVec 8) (quanta : BitVec 16) (s : State) : State :=
  let y := s.port p
  if !portsServe s ∨ y.link ≠ .up then s else
  let m := pauseMask y.cfg pfc prios
  releaseCtrl (s.setPort p { y with xoffRx := if quanta = 0 then y.xoffRx &&& ~~~m else y.xoffRx ||| m }) p

/-- The command PAUSE_FRAME. -/
def execPauseFrame (p : Fin 32) (pfc : Bool) (prios : BitVec 8) (quanta : BitVec 16) (s : State) : Res :=
  .next (doPauseFrame p pfc prios quanta s)

/-- PAUSE_EXPIRY: the pause time of some priorities is over. -/
def doPauseExpiry (p : Fin 32) (prios : BitVec 8) (s : State) : State :=
  releaseCtrl (s.setPort p { s.port p with xoffRx := (s.port p).xoffRx &&& ~~~prios }) p

/-- The command PAUSE_EXPIRY (13 R360). -/
def execPauseExpiry (p : Fin 32) (prios : BitVec 8) (s : State) : Res := .next (doPauseExpiry p prios s)

/-- Bytes of a receive buffer. -/
def rxBuffer : Nat := 6 * 1048576

/-- An XOFF or XON of a port (13 R359); none where neither form of flow control is set. -/
def sendPause (s : State) (p : Fin 32) (quanta : Nat) : State :=
  let c := (s.port p).cfg
  if c.pause then s.say (.mac p 2 [quanta])
  else if c.pfc ≠ 0 then s.say (.mac p 3 [c.pfc.toNat, quanta])
  else s

/-- What a port pauses at its partner (13 R366). -/
def pausing (c : PortCfg) : BitVec 8 := if c.pause then 1 else c.pfc

/-- With `bytes` in the receive buffer, the first XOFF at `XOFF_PCT`, and again above `XON_PCT` (13 R359). -/
def sendXoff (s : State) (p : Fin 32) (bytes : Nat) : State :=
  let y := s.port p
  let due : Bool := if y.xoffTx = 0 then decide (rxBuffer * y.cfg.xoff ≤ bytes * 100)
    else decide (rxBuffer * y.cfg.xon < bytes * 100)
  if due then sendPause (s.setPort p { y with xoffTx := pausing y.cfg }) p 0xFFFF else s

/-- The occupancy of a receive buffer as the command tells it: no more than the buffer holds. -/
def noteFill (s : State) (p : Fin 32) (bytes : Nat) : State := s.setPort p { s.port p with fill := min rxBuffer bytes }

/-- XOFF_RESEND: `bytes` stand in the receive buffer. -/
def doXoffResend (p : Fin 32) (bytes : Nat) (s : State) : State :=
  if portsServe s && (s.port p).link == .up then sendXoff (noteFill s p bytes) p bytes else s

/-- The command XOFF_RESEND (13 R359). -/
def execXoffResend (p : Fin 32) (bytes : Nat) (s : State) : Res := .next (doXoffResend p bytes s)

/-- XON: `bytes` are left in the receive buffer; at `XON_PCT` the port's partner may send again. -/
def doXon (p : Fin 32) (bytes : Nat) (s : State) : State :=
  if portsServe s && (s.port p).link == .up then
    let s := noteFill s p bytes
    let y := s.port p
    if y.xoffTx != 0 && decide (bytes * 100 ≤ rxBuffer * y.cfg.xon) then sendPause (s.setPort p { y with xoffTx := 0 }) p 0
    else s
  else s

/-- The command XON (13 R359). -/
def execXon (p : Fin 32) (bytes : Nat) (s : State) : Res := .next (doXon p bytes s)

/-- PAUSE_STORM: a pause without a break for `STORM_MS` takes the port out of its group. -/
def doPauseStorm (p : Fin 32) (s : State) : State :=
  let y := s.port p
  if y.link ≠ .up ∨ y.xoffRx = 0 ∨ y.cfg.storm = 0 ∨ y.storm then s else
  let s := settlePaths (s.setPort p { y with storm := true, joined := false })
  record s 0x07 none 5 p.val [1]

/-- The command PAUSE_STORM (13 R361). -/
def execPauseStorm (p : Fin 32) (s : State) : Res := .next (doPauseStorm p s)

/-- STORM_END: no pause for `UP_HOLD`; the port rejoins. -/
def doStormEnd (p : Fin 32) (s : State) : State :=
  let y := s.port p
  if !y.storm ∨ y.xoffRx ≠ 0 then s else
  let s := s.setPort p { y with storm := false }
  let s := if y.link = .up then joinPort s p else s
  record s 0x07 none 5 p.val [2]

/-- The command STORM_END (13 R361). -/
def execStormEnd (p : Fin 32) (s : State) : Res := .next (doStormEnd p s)

/-! ## Wake ports (13 R368) -/

/-- Whether `WAKE_EN` may take a value: at most two ports, all of them there. -/
def wakeEnOk (mode : Nat) (v : BitVec 32) : Bool :=
  let ports := (List.range 32).filter fun i => v.getLsbD i
  decide (ports.length ≤ 2) && ports.all fun i => decide (i < portCount mode)

/-- `ETH_WAKE` written: a word with more than two ports, or one that does not exist, is ignored whole. -/
def doWakeEnWrite (v : Word) (s : State) : State :=
  if !wakeEnOk s.eth.mode (v.setWidth 32) then s
  else { s with eth := { s.eth with wakeEn := v.setWidth 32, magic := v.getLsbD 32, twineWake := v.getLsbD 33 } }

/-- The command WAKE_EN_WRITE. -/
def execWakeEnWrite (v : Word) (s : State) : Res := .next (doWakeEnWrite v s)

end Sys2Proof.Machine
end

