-- ==== Sys2Proof/Machine/Stops.lean ====
section
/-!
DEFINITION. Stops and warm resets (12 R340; 17 R474 to R477; 18 R481, R482, R491, R504): what is written back and
discarded, how work goes on afterwards, and the airflow override.
-/

namespace Sys2Proof.Machine

/-- Staged values that no commit has applied are discarded (00 R14). -/
def discardStaged (s : State) : State :=
  { s with
    queues := s.queues.map fun x => { x with staged := [], quotaSt := none }
    mem := { s.mem with limSt := [] }
    eth := { s.eth with staged := [] }
    twine := { s.twine with staged := [], strands := s.twine.strands.map fun x => { x with staged := [] } }
    ply := { s.ply with peerSt := [], slots := s.ply.slots.map fun x => { x with staged := [] } }
    pwr := { s.pwr with staged := [] }
    sec := { s.sec with scrubSt := [] } }

/-- A reel cache written back and emptied (09 R249). -/
def Reel.flushed (c : Reel) : Reel :=
  { c with lines := [], wb := c.wb + BitVec.ofNat 64 (c.lines.filter (·.dirty)).length }

/-- The creel, then the reel caches, are written back and empty (08 R222, 09 R249). -/
def writeBackAll (s : State) : State :=
  let s := dropBindings s
  s.setMem { s.mem with reel := s.mem.reel.map Reel.flushed }

/-- Bytes of the register space's windows below `hi` from `lo` on are cleared. -/
def clearWin (s : State) (lo hi : Nat) : State :=
  s.setMgmt { s.mgmt with win := s.mgmt.win.filter fun c => decide (c.1 < lo) || decide (hi ≤ c.1) }

def fwArea : Nat := 0x9000000

/-- The firmware staging area is cleared at every reset and change of lease (18 R486). -/
def clearFwArea (s : State) : State := clearWin s fwArea (fwArea + 0x1000000)

/-- The exit from P3 or P4 starts, unless a stop holds the device in P3. -/
def startExit (s : State) : State :=
  if s.mgmt.phase = .stopped then s
  else match s.pwr.pstate with
    | .p3 | .p4 => s.setPwr { s.pwr with exiting := true }
    | _ => s

/-- Whether the device may not run: a STOP of either side, an airflow stop or a thermal trip (18 R503, R504). -/
def halted (s : State) : Bool := s.mgmt.stop || !s.mgmt.run || s.pwr.stopped

/-- A phase of service entered, or kept for the time the device may run: until then it stands in P3 (18 R492, R504). -/
def enterPhase (s : State) (ph : Boot) : State :=
  if halted s then
    { s with
      mgmt := { s.mgmt with phase := .stopped, resume := ph }
      pwr := { s.pwr with pstate := .p3, exiting := false, wake := none } }
  else s.setMgmt { s.mgmt with phase := ph }

/-- The ports that a power-off took down are trained again (13 R368, 17 R471). -/
def portsUp (s : State) : State :=
  (List.finRange 32).foldl (fun s q => if (s.port q).link = .down then retrain s q else s) s

/-- A device in service stops: caches are written back, it enters P3, in which its ports stay up (18 R504, 17 R475). -/
def haltNow (s : State) : State :=
  let s := writeBackAll s
  let s := if s.pwr.pstate = .p4 then portsUp s else s
  enterPhase s s.mgmt.phase

/-- A stopped device may run again: the exit from P3 starts, and ends with what it then finishes and takes (18 R504). -/
def runAgain (s : State) : State := startExit (s.setMgmt { s.mgmt with phase := s.mgmt.resume })

/-- The device stops or runs as its orders and faults now say. -/
def settleRun (s : State) : State :=
  match s.mgmt.phase with
  | .warmup | .full => if halted s then haltNow s else s
  | .stopped => if halted s then s else runAgain s
  | _ => s

/-- MGMT_STOP: `STOP` of `MGMT_CTRL` written. -/
def doMgmtStop (stop : Bool) (s : State) : State := settleRun (s.setMgmt { s.mgmt with stop })

/-- The command MGMT_STOP (18 R504). -/
def execMgmtStop (stop : Bool) (s : State) : Res := .next (doMgmtStop stop s)

/-! ## Warm reset (12 R340, 18 R481, R482) -/

/-- Whether the temperature lets a tripped device run (17 R473, R474). -/
def cooled (p : Pwr) : Bool :=
  p.tj.toList.all (fun t => decide (t < 95)) && decide (p.tjIo < 95) && p.tBase.toList.all (fun t => decide (t < 95))

/-- The stop of a thermal trip ends in a warm reset once every junction has cooled; a stop for want of airflow stays
(17 R474). The record says that the device resumes (18 R510). -/
def releaseTrip (s : State) : State :=
  let p := s.pwr
  if p.tripHold && cooled p then
    let air : Bool := p.airLow && !s.sec.override
    let s := if p.dieOff && !air then portsUp s else s
    let s := s.setPwr { p with tripHold := false, stopped := air, dieOff := p.dieOff && air }
    if air then s else record s 0x0C none 0 0 [5]
  else s

/-- A burst in progress ends: the average stays at the cap for as long as the burst lasted (17 R462). -/
def endBurst (s : State) : State :=
  match s.pwr.burstAt with
  | some t => s.setPwr { s.pwr with burstAt := none, holdUntil := s.now + (s.now - t) }
  | none => s

/-- A CXL link across a warm reset: one that was up is trained again, its expander not reset (09 R252). -/
def Far.warm (x : Far) : Far := if x.link = .up then { x with link := .training, mapped := false } else x

/-- The frames of a strand go out until no ACCEPT waits on it, as far as it may send; `fuel` bounds them. -/
def sendAccepts : Nat → State → Fin 2048 → State
  | 0, s, _ => s
  | fuel + 1, s, n =>
    let waits (m : Msg) : Bool := match m with
      | .accept _ => true
      | _ => false
    if (s.strand n).txq.any waits then sendAccepts fuel (doFrameTransmit n s) n else s

/-- The ACCEPT records already earned are sent (12 R340 step 1). -/
def earnedAccepts (s : State) : State :=
  (List.finRange 2048).foldl (fun s n => sendAccepts ((s.strand n).txq.length + (s.strand n).unacked.length) s n) s

/-- The memory map of the warm-up service that follows a warm reset: stacks 0 and 1 alone, without the interleave, which full
service maps again (09 R233, 18 R491). -/
def Mem.warmed (m : Mem) : Mem :=
  let up (i : Fin 8) : Stack := { m.stack.get i with up := (m.stack.get i).up && decide (i.val < 2) }
  let m := { m with stack := vecOf 8 up }
  if m.il = [] then m else Mem.resized { m with il := [], ilKept := m.il }

/-- What was held unapplied was never acknowledged and is gone (14 R394). -/
def dropHeld (s : State) : State :=
  { s with twine := { s.twine with waiting := [], strands := s.twine.strands.map fun x => { x with held := [] } } }

/-- Every strand sends its unacknowledged frames again, and HELLO announces the reset (14 R394). -/
def restoreStrands (s : State) : State :=
  let s := dropHeld s
  let s : State := { s with twine := { s.twine with strands := s.twine.strands.map Strand.again } }
  ((List.finRange 32).filter fun p => (s.port p).joined).foldl (fun s p => sendHello s p false) s

/-- A warm reset begins. One out of P4 leaves that state, and its ports are trained again (17 R471). -/
def startWarm (s : State) : State :=
  match s.mgmt.phase with
  | .reset | .recovery => s
  | _ =>
    let s := writeBackAll (earnedAccepts s)
    let s := if s.mgmt.clockLost || s.pwr.dieOff then s else announceReset s
    let s := dropHeld (clearFwArea (discardStaged s))
    let s := if s.pwr.pstate = .p4 then portsUp s else s
    let s := s.setPwr { s.pwr with pstate := .p0, exiting := false, wake := none }
    let s := s.setMem { s.mem with far := s.mem.far.map Far.warm }
    s.setMgmt { s.mgmt with
      phase := .mgmt, warmBoot := true, resetAt := s.now, warms := s.mgmt.warms + 1, clockLost := false,
      cxlDone := s.mgmt.cxlDone && s.mem.far.toList.all (fun x => x.link != .training)
      warming := true, frozen := false, tally := [] }

/-- WARM. A warm reset ordered again while one runs is performed once (18 R503). -/
def doWarm (s : State) : State := if s.mgmt.warming then s else startWarm s

/-- The command WARM (12 R340). -/
def execWarm (s : State) : Res := .next (doWarm s)

/-- WARM_RESET_RESUME: queues are restored from the journal with `TAIL` at `HEAD`, and strands as they were; the interrupted
work of queues 0 to 15 is finished by 12 R338, that of tenant queues at full service (18 R491). A device that a thermal trip
holds resumes once it has cooled (17 R474). -/
def doWarmResetResume (s : State) : State :=
  if !s.mgmt.warming || s.mgmt.clockLost then s else
  let s := releaseTrip s
  if s.pwr.stopped then s else
  let s := stopWork s
  let s : State := { s with
    mem := s.mem.warmed
    queues := s.queues.map fun x => { x with tail := x.head, rings := [] }
    trans := { s.trans with walker := [] }
    skeins := s.skeins.map fun k => { k with tlb := [], pstate := .p0, exiting := false } }
  finishWork (restoreStrands (enterPhase (s.setMgmt { s.mgmt with warming := false }) .warmup))

/-- The command WARM_RESET_RESUME (12 R340, 18 R491). -/
def execWarmResetResume (s : State) : Res := .next (doWarmResetResume s)

/-! ## Airflow and its override (17 R474 to R477) -/

/-- `JOURNAL_STATE` (12 R342). -/
def journalReg (s : State) : Nat :=
  fld s.jrn.mirrorA.val 0 3 + fld s.jrn.mirrorB.val 3 3 + fld (b2n s.jrn.rebuilding) 6 1 + fld (journalUse s) 8 22

/-- Queues and journal as they now stand, for the snapshots of a stop (12 R347). -/
def recorded (s : State) : AtStop :=
  { queues := s.queues, binds := s.skeins.map (·.bindings), journal := journalReg s, pauses := journalPauses s }

/-- What a TALLY shows of queues and journal while the mill die is off: their values at the stop (12 R347). -/
def noteStop (s : State) : State :=
  if s.pwr.stopped then s else s.setMgmt { s.mgmt with atStop := some (recorded s) }

/-- The device stops for want of airflow or for its temperature. -/
def stopAir (s : State) : State :=
  let s := noteStop s
  settleRun { s with pwr := { s.pwr with stopped := true } }

/-- The airflow fault or the trip is over: the device resumes as after a warm reset. -/
def resumeAir (s : State) : State :=
  let s := if s.pwr.dieOff then portsUp s else s
  startWarm { s with pwr := { s.pwr with stopped := false, dieOff := false } }

/-- The override starts for a number of seconds: a device that an airflow fault had stopped runs again (17 R477). -/
def beginOverride (s : State) (secs : Nat) : State :=
  let s := endBurst (s.setSec { s.sec with override := true, overrideEnd := s.now + secs * 1000000000 })
  if s.pwr.stopped && s.pwr.airLow && !s.pwr.tripHold then resumeAir s else s

/-- The override ends: with AIR_FAULT_N low the device stops by 17 R475. -/
def endOverride (s : State) : State :=
  if !s.sec.override then s else
  let s := s.setSec { s.sec with override := false }
  if s.pwr.airLow then stopAir s else s

/-- OVERRIDE_EXPIRY. -/
def doOverrideExpiry (s : State) : State := endOverride s

/-- The command OVERRIDE_EXPIRY (17 R477). -/
def execOverrideExpiry (s : State) : Res := .next (doOverrideExpiry s)

end Sys2Proof.Machine
end

