-- ==== Sys2Proof/Machine/Security.lean ====
section
/-!
DEFINITION. Tenancy and security (16): authorisations, the start and the end of a tenancy, key slots, consent,
attestation, sessions and the controller lease.
-/

namespace Sys2Proof.Machine

/-! ## Authorisations (16 R438 to R441) -/

/-- A byte list all of whose bytes are 0. -/
def allZero (bs : List Byte) : Bool := bs.all (· == 0)

/-- Bytes `lo` to `hi - 1`. -/
def slice (bs : List Byte) (lo hi : Nat) : List Byte := (bs.drop lo).take (hi - lo)

def authKind (b : List Byte) : Nat := fieldAt b 0 0 7
def authSeq (b : List Byte) : Nat := word64 b 8
def authOp (b : List Byte) : Bool := fieldAt b 0 8 8 == 1
def authTn (b : List Byte) : Bool := fieldAt b 0 9 9 == 1

/-- Bytes of `PARAMS` that an order uses (16 R439). -/
def authUsed (k i : Nat) : Bool :=
  match k with
  | 0x01 => (0x40 ≤ i && i < 0x71) || (0x78 ≤ i && i ≤ 0x88)
  | 0x05 => 0x40 ≤ i && i < 0x78
  | 0x06 => 0x40 ≤ i && i < 0x44
  | 0x07 => 0x40 ≤ i && i < 0x50
  | 0x09 => i = 0x40
  | 0x0B => 0x40 ≤ i && i < 0x71
  | _ => false

/-- The form of an authorisation: its kind, reserved bits, unused parameters and ranges. -/
def authFormOk (b : List Byte) : Bool :=
  let k := authKind b
  decide (1 ≤ k) && decide (k ≤ 0x0B) && fieldAt b 0 10 63 == 0 && allZero (slice b 0x28 0x40) &&
  ((List.range 0x80).all fun i => authUsed k (0x40 + i) || (b.getD (0x40 + i) 0) == 0) &&
  (k != 0x01 || fieldAt b 0x88 1 7 == 0) && (k != 0x06 || decide (fieldAt b 0x40 0 31 ≤ 86400)) &&
  (k != 0x09 || fieldAt b 0x40 2 7 == 0)

/-- Whether a signature is the operator's: by the key that a rotation named, or by the one whose digest is fused (16 R430,
R437). -/
def opVerifies (x : Sec) (msg sig : List Byte) : Bool :=
  match x.opKey with
  | some key => Config.verify key msg sig
  | none => Config.verifyHashed Config.opDigest msg sig

/-- The tenant key that a signature is checked against: that of the order for a start, else the one in force. -/
def authTnKey (x : Sec) (b : List Byte) : Option (List Byte) :=
  if authKind b = 0x01 then some (slice b 0x40 0x71) else if x.tenancyOn then some x.tnKey else none

/-- Whether the signatures of an authorisation verify and suffice (16 R438, R439). -/
def authSigned (x : Sec) (b : List Byte) : Bool :=
  let msg := slice b 0 0xC0
  let op := authOp b
  let tn := authTn b
  let opOk := opVerifies x msg (slice b 0xC0 0x120)
  let tnOk := match authTnKey x b with
    | some key => Config.verify key msg (slice b 0x120 0x180)
    | none => false
  let enough : Bool := match authKind b with
    | 0x01 => op && tn
    | 0x0B => op
    | k => if !x.tenancyOn then op
      else if k = 0x03 ∨ k = 0x04 ∨ k = 0x05 ∨ k = 0x06 then op && tn
      else if k = 0x07 ∨ k = 0x08 then tn
      else op || tn
  (!op || opOk) && (!tn || tnOk) && enough

/-- Whether an order fits the state (16 R440). -/
def authFits (x : Sec) (b : List Byte) : Bool :=
  match authKind b with
  | 0x01 => !x.tenancyOn && (fieldAt b 0x88 0 0 == b2n x.scrubMode) && decide (x.ctr + 2 ≤ 1000000)
  | 0x02 => x.tenancyOn
  | 0x05 => decide (x.lodged.length < 16)
  | 0x07 => x.tenancyOn
  | 0x08 => x.tenancyOn && x.transitNext.isSome
  | 0x0A => x.tenancyOn
  | 0x0B => !x.tenancyOn
  | _ => true

/-- The status of an authorisation (16 R440), its conditions taken in the order of the table. -/
def authStatus (x : Sec) (b : List Byte) : Status :=
  if !authFormOk b then .format
  else if leNat (slice b 0x10 0x20) ≠ Config.fuseId.toNat then .refused
  else if word64 b 0x20 ≠ (if authKind b = 0x01 then x.ctr + 1 else x.ctr) ∨ authSeq b ≤ x.lastAseq then .staleGeneration
  else if !authSigned x b then .refused
  else if !authFits x b then .refused
  else .ok

/-- A record of kind 0x0B. -/
def authRecord (s : State) (kind aseq : Nat) (st : Status) : State := record s 0x0B (some st) 0 kind [aseq]

/-! ## The counter and the keys -/

/-- The device-local keys (16 R431). -/
def tenantKey (ctr : Nat) : Nat := Config.hkdf Config.root.toNat Config.fuseId.toNat "tenant-xts" [ctr]
def journalKey (nonce : Word) : Nat := Config.hkdf Config.root.toNat Config.fuseId.toNat "reserve-xts" [nonce.toNat]
def firmwareKey (svn : Nat) : Nat := Config.hkdf Config.root.toNat Config.fuseId.toNat "firmware" [svn]
def identityKey : Nat := Config.hkdf Config.root.toNat Config.fuseId.toNat "identity" [] % Config.curveOrder

/-- The key of a TRANSIT value: by the fleet, the tenant credential and the nonce alone (16 R431). -/
def transitKey (tn nonce : List Byte) : Nat :=
  Config.hkdf Config.fleetKey.toNat (Config.sha384 tn).toNat "transit" [leNat nonce]

/-- The WAKE key of the device (14 R379). -/
def wakeKey : Nat := Config.hkdf Config.fleetKey.toNat Config.fuseId.toNat "twine-wake" []

/-- A signature by the identity key (16 R430, R448). -/
def signed (msg : List Nat) : Nat := Config.sign identityKey msg

/-- No consent: any debugger is detached, the trace buffers are cleared, and a TAP instruction that needs consent is replaced by
IDCODE (16 R451, log 131). -/
def Sec.detached (x : Sec) : Sec := { x with attached := false, trace := [], tapNow := if 3 ≤ x.tapNow then 1 else x.tapNow }

/-- The tenancy counter moves on: the last accepted `ASEQ` is 0 again and consent is cleared (16 R440, R451). -/
def bumpCtr (s : State) : State :=
  s.setSec { s.sec.detached with ctr := s.sec.ctr + 1, lastAseq := 0, debug := false, profile := false, ctrDue := false }

/-- The counter's write has begun: it shows the new value now, or at one instant within its window. Which, the spec
leaves open (16 R442, R443): a free value decides. -/
def startCtr (s : State) : State :=
  let (w, s) := s.draw
  let s := s.setSec { s.sec with ctrDue := true }
  if w.getLsbD 0 then bumpCtr s else s

/-- The counter shows its new value. -/
def endCtr (s : State) : State := if s.sec.ctrDue then bumpCtr s else s

/-- A key slot takes a state and a key; its generation increments (16 R434). -/
def bumpKey (s : State) (n : Fin 4) (st : KeySt) (key : Option Nat) : State :=
  s.setSec { s.sec with keys := upd s.sec.keys n { st, gen := (s.sec.keys.get n).gen + 1, key } }

/-- Tenant space and the far tier hold unspecified values, without poison (16 R433). -/
def cryptoErase (s : State) : State :=
  let reserve (key : Nat) : Bool := decide (key < 0x10000000000)
  let m := s.mem
  { s.setMem { m with
      cells := m.cells.filter (fun c => reserve c.1), poison := m.poison.filter (fun b => reserve (b * 32)),
      base := (0x10000000000, 0x18000000000, some s.free) :: m.base.filter fun b => decide (b.1 < 0x10000000000)
      far := m.far.map fun f => { f with fresh := some s.free } }
    with free := s.free + 1 }

/-! ## Strands and work of the tenant -/

/-- Every strand of the tenant runtime closes (16 R443, 14 R380); `peers` names those to peers alone. -/
def closeTenantStrands (s : State) (peers : Bool) : State :=
  ((List.finRange 2048).filter fun n =>
    (s.strand n).cfg.owner == 2 && (s.strand n).st != .closed && !(peers && (s.strand n).session)).foldl
      (fun s n => closeStrand s n .keyErased) s

/-- The flags that a descriptor's work has set when an erased key ends it (02 R63): its flyer, its shares or its distaffs
report them. -/
def workFlags (s : State) (q : Fin 4096) (seq : Nat) : Flags :=
  orFlags (
    [kernelFlags s q seq] ++
    ((flying s).filter fun m => m.origin == .desc q seq).map (startedFlags s) ++
    (s.mgmt.parked.filter fun x => x.1.origin == .desc q seq).map (·.2) ++
    (s.sweeps.filter fun w => w.queue == q && w.seq == seq).map (sweepFlags s) ++
    (s.ply.ops.filter fun o => o.queue == q && o.seq == seq).map (·.flags))

/-- A TABLE_UPDATE past its apply point stays applied and completes with OK, the work that it waited for being gone
(11 R300, 12 R333). -/
def endApplied (s : State) (q : Fin 4096) : State :=
  (s.trans.updates.filter fun u => u.queue == q && u.applied).foldl
    (fun s u => notifyUpdate (finish s q u.seq .ok noFlags 0 0 u.gen) u .ok) s

/-- Whatever of a queue's work still holds an erased key ends with KEY_ERASED and writes nothing further (16 R435). -/
def eraseQueue (s : State) (q : Fin 4096) : State :=
  if (s.q q).descs = [] then s else
  let flags := workFlags s q
  let s := endApplied s q
  let s := (s.kernels.filter fun k => k.queue == q).foldl (fun s k => stopKernel s q k.seq) s
  let s := dropMoves s (Move.inQueue q)
  let s := s.setMgmt { s.mgmt with parked := s.mgmt.parked.filter fun x => !x.1.inQueue q }
  let s := (s.trans.faults.filter fun f => f.queue == q).foldl (fun s f => dropFault s f.id) s
  let s := drainRest s q
  let s := s.setTrans { s.trans with updates := s.trans.updates.filter fun u => u.queue != q }
  let stop (d : Desc) : Desc := match d.st with
    | .finished .. => d
    | _ => { d with st := .finished .keyErased (flags d.seq) 0 0 0 }
  s.setQ q { s.q q with descs := (s.q q).descs.map stop }

/-- Whether a captured range lies in memory under the TENANT key: tenant space or the far tier (16 R433). -/
def tenantKeyed (s : State) (segs : List Seg) : Bool :=
  segs.any fun g => match physLoc s.mem g.pa with
    | .stacked _ => true
    | .far _ => true
    | _ => false

/-- Whether a move, an RMA or a group operation captures the TENANT generation: its own ranges lie under that key. Distaff
work always does (16 R433, R435). -/
def Move.tenantKeyed (s : State) (m : Move) : Bool := Machine.tenantKeyed s (m.srcSegs ++ m.dstSegs ++ m.shSegs)
def Rma.tenantKeyed (s : State) (r : Rma) : Bool := Machine.tenantKeyed s (r.segs ++ r.resSegs)
def GOp.tenantKeyed (s : State) (o : GOp) : Bool := Machine.tenantKeyed s (o.srcSegs ++ o.dstSegs ++ o.decSegs ++ o.resSegs)

/-- The controller's operations that captured the TENANT generation end with KEY_ERASED: moves, whose tokens hold it,
distaff work, RMA and group operations (06 R156, 10 R287, 16 R435). -/
def eraseControllers (s : State) : State :=
  let ours (q : Fin 4096) : Bool := decide (q.val < 16)
  let held (m : Move) : Bool := ours m.queue && m.tenantKeyed s
  let ms := (s.skeins.toList.flatMap Skein.moves).filter held
  let rma (r : Rma) : Bool := ours r.queue && r.tenantKeyed s
  let op (o : GOp) : Bool := ours o.queue && o.tenantKeyed s
  let sweep (w : Sweep) : Bool := ours w.queue
  let flags (m : Move) : Flags := if (flying s).contains m then startedFlags s m else noFlags
  let s' := ms.foldl (fun s m => countMove (reportMove s m .keyErased (flags m)) m .keyErased) (dropMoves s held)
  let s' := (s.sweeps.filter sweep).foldl (fun s w => finish s w.queue w.seq .keyErased (sweepFlags s w) 0 0 0) s'
  let s' := eraseRmas s' rma
  let s' := (s.ply.ops.filter op).foldl (fun s o => finish s o.queue o.seq .keyErased o.flags 0 0 0) s'
  bindRetryAll { s' with
    sweeps := s'.sweeps.filter fun w => !sweep w
    ply := { s'.ply with ops := s'.ply.ops.filter fun o => !op o } }

/-- Queues of the tenant runtime. -/
def tenantQueues : List (Fin 4096) := (List.finRange 4096).drop 16

/-! ## Sessions (16 R449) -/

def sessionOf (s : State) (id : Nat) : Option Session := s.sec.sessions.find? fun x => x.id = id

/-- A session ends and its strand closes (14 R377). -/
def dropSession (s : State) (id : Nat) (st : Status) : State :=
  match sessionOf s id with
  | none => s
  | some x =>
    let s := s.setSec { s.sec with sessions := s.sec.sessions.filter fun y => y.id != id }
    match x.strand with
    | none => s
    | some n =>
      let s := closeStrand s n st
      s.setStrand n { s.strand n with session := false, cfg := {} }

/-- The sessions that a condition names end. -/
def dropSessions (s : State) (f : Session → Bool) (st : Status) : State :=
  (s.sec.sessions.filter f).foldl (fun s x => dropSession s x.id st) s

/-! ## The effects of the orders (16 R436, R439, R442, R443, R451) -/

/-- TENANCY_START: the tenant credential and the TRANSIT nonce are taken; the counter's write begins. -/
def startTenancy (s : State) (b : List Byte) : State :=
  let s := s.setSec { s.sec with
    phase := .starting, authNow := (authKind b, authSeq b), tnKey := slice b 0x40 0x71, transit := slice b 0x78 0x88
    keysDue := some s.now }
  startCtr s

/-- TENANCY_END: the tenant's queues drain, each to be OFF. -/
def endTenancy (s : State) (b : List Byte) : State :=
  let s := s.setSec { s.sec with phase := .draining, authNow := (authKind b, authSeq b) }
  tenantQueues.foldl (fun s q =>
    if (s.q q).st = .off then s
    else
      let s := drainQueue s q
      s.setQ q { s.q q with closing := true }) s

/-- Whether an RMA captured a generation of TRANSIT: its strand is one of the tenant runtime (14 R380). -/
def Rma.holdsTransit (s : State) (r : Rma) : Bool := (s.strand r.strand).capturesTransit

/-- TRANSIT_ERASE: the slot is empty at once, its users end, every tenant-owned peer strand closes (14 R380). -/
def eraseTransit (s : State) : State :=
  let s := eraseRmas (bumpKey s 1 .empty none) (Rma.holdsTransit s)
  let s := s.setSec { s.sec with transitNext := none, transitPend := [], transit := [], oldTransit := false }
  closeTenantStrands s true

/-- TRANSIT_ACTIVATE: a rewrite to the held value drains (16 R435). -/
def activateTransit (s : State) : State :=
  match s.sec.transitNext with
  | none => s
  | some v =>
    s.setSec { s.sec with
      transitNext := none, transitPend := s.sec.transitPend ++ [v],
      rewriteAt := if s.sec.transitPend = [] then s.now else s.sec.rewriteAt
      keys := upd s.sec.keys 1 { s.sec.keys.get 1 with st := .draining } }

/-- TRANSIT_ROTATE: the next value is derived and held. -/
def rotateTransit (s : State) (b : List Byte) : State :=
  let k := s.sec.keys.get 1
  s.setSec { s.sec with
    transitNext := some (slice b 0x40 0x50),
    keys := upd s.sec.keys 1 { k with st := if k.st = .draining then .draining else .next } }

/-- CONSENT_WITHDRAW: a withdrawal also detaches any debugger and clears the trace buffers (16 R451). -/
def withdrawConsent (s : State) (b : List Byte) : State :=
  let d : Bool := fieldAt b 0x40 0 0 == 1
  let p : Bool := fieldAt b 0x40 1 1 == 1
  let x := if d || p then s.sec.detached else s.sec
  s.setSec { x with debug := x.debug && !d, profile := x.profile && !p }

/-- An accepted order takes effect. -/
def authEffect (s : State) (b : List Byte) : State :=
  match authKind b with
  | 0x01 => startTenancy s b
  | 0x02 => endTenancy s b
  | 0x03 => s.setSec { s.sec with debug := true }
  | 0x04 => s.setSec { s.sec with profile := true }
  | 0x05 => s.setSec { s.sec with
      lodged := s.sec.lodged ++ [⟨authSeq b, word64 b 0x40, BitVec.ofNat 384 (leNat (slice b 0x48 0x78))⟩] }
  | 0x06 => if fieldAt b 0x40 0 31 = 0 then endOverride s else beginOverride s (fieldAt b 0x40 0 31)
  | 0x07 => rotateTransit s b
  | 0x08 => activateTransit s
  | 0x09 => withdrawConsent s b
  | 0x0A => eraseTransit s
  | 0x0B => s.setSec { s.sec with opKey := some (slice b 0x40 0x71) }
  | _ => s

/-- The header of a frame that carries an SPDM message: `TYPE` 0x19 on strand 0, with `ADDR` and `PSN` 0 (16 R448). -/
def spdmHdr (s : State) (code : Nat) (body : List Nat) : List Byte := bareHdr 0x19 s.now (Config.spdmLen code body) 0

/-- An SPDM message outside a session, and one within it. -/
def spdmSay (s : State) (code : Nat) (body : List Nat) : State := sendSpdm s (.spdm code body (spdmHdr s code body))
def sessionSay (s : State) (id code : Nat) (body : List Nat) : State := sendSpdm s (.session id code body (spdmHdr s code body))

/-- The answer to a submission: `RESULT`, or the response of the session. -/
def authAnswer (s : State) (via : Option Nat) (st : Status) : State :=
  match via with
  | none => s.setSec { s.sec with authRes := st }
  | some id => sessionSay s id 1 [st.code]

/-- One authorisation checked and acted upon. -/
def checkAuth (s : State) (via : Option Nat) (b : List Byte) : State :=
  let st := authStatus s.sec b
  let s := if st = .ok then
      authEffect (s.setSec { s.sec with lastAseq := authSeq b }) b
    else s
  authRecord (authAnswer s via st) (authKind b) (authSeq b) st

/-- Authorisations that wait are checked in order until one starts or ends a tenancy (16 R440). -/
def runAuth : Nat → State → State
  | 0, s => s
  | fuel + 1, s =>
    if s.sec.phase ≠ .none then s else
    match s.sec.authWait with
    | [] => s
    | (via, b) :: rest => runAuth fuel (checkAuth (s.setSec { s.sec with authWait := rest }) via b)

def lodgingBase : Nat := 0x8040000

/-- Whether the security controller answers: the management domain runs and no management restart does. -/
def attests (s : State) : Bool :=
  s.mgmt.phase != .reset && s.mgmt.phase != .recovery && !s.mgmt.restarting && !s.mgmt.clockLost

/-- Whether a request on strand 0 or a session reaches the device: through a joined port of a group
with an address (14 R371), outside P4 and a warm reset. -/
def spdmReaches (s : State) : Bool :=
  attests s && !s.mgmt.warming && s.pwr.pstate != .p4 && (List.finRange 32).any (spdmPort s)

/-- A request on strand 0 or a session starts the exit from P3 (17 R471). -/
def spdmWakes (s : State) : State := if spdmReaches s then startExit s else s

/-- An authorisation submitted: from the lodging area as it stands, or by a session (16 R441). -/
def doSubmit (via : Option Nat) (bytes : List Byte) (s : State) : State :=
  let put (b : List Byte) : State :=
    runAuth (s.sec.authWait.length + 1) (s.setSec { s.sec with authWait := s.sec.authWait ++ [(via, b)] })
  match via with
  | none =>
    if !attests s ∨ s.sec.authWait.any (fun w => w.1.isNone) then s else put (cellsRead s.mgmt.win lodgingBase 384)
  | some id =>
    match sessionOf s id with
    | none => s
    | some x =>
      if !spdmReaches s ∨ !x.ready ∨ x.party.isNone then s
      else if bytes.length ≠ 384 then authAnswer s via .format
      else put bytes

/-- The command SUBMIT. -/
def execSubmit (via : Option Nat) (bytes : List Byte) (s : State) : Res :=
  .next (doSubmit via bytes (if via.isSome then spdmWakes s else s))

/-! ## A tenancy starts and ends (16 R442 to R447) -/

/-- Counters that count since the tenancy began (16 R452). -/
def resetCounters (s : State) : State :=
  let m := s.mem
  let chan (x : Chan) : Chan := { x with ce := 0, ue := 0, recent := [] }
  let reel (x : Reel) : Reel := { x with hit := 0, miss := 0, wb := 0, traffic := rep 32 0 }
  let stack (x : Stack) : Stack := { x with units := 0, addBytes := 0 }
  let port (y : Port) : Port := { y with flaps := 0, rxDrop := 0, fecCorr := 0, fecUncorr := 0, fcsBad := 0 }
  let queue (x : Queue) : Queue := { x with miss := 0, shadows := 0, dropped := 0, evicted := 0 }
  let slot (x : Ply) : Ply :=
    { x with epoch := 0, epochStep := 0, idlePeer := rep 64 0, idleMem := 0, idleNet := 0, idleSelf := 0, idleTpeer := 0 }
  { s with
    mem := { m with chan := m.chan.map chan, reel := m.reel.map reel, stack := m.stack.map stack }
    skeins := s.skeins.map fun k => { k with evictions := 0, wbBytes := 0, hits := 0, misses := 0 }
    queues := vecOf 4096 fun q => { queue (s.q q) with energy := if q.val < 16 then (s.q q).energy else 0 }
    eth := { s.eth with ports := s.eth.ports.map port }
    twine := { s.twine with retx := 0, dups := 0, bad := 0, viol := 0 }
    ply := { s.ply with slots := s.ply.slots.map slot }
    pwr := { s.pwr with phases := rep 256 {}, unattr := 0 } }

/-- TENANT and TRANSIT are derived and loaded, and stage 1 stands empty: 0.5 ms after the start's acceptance (16 R442). -/
def loadKeys (s : State) : State :=
  if s.sec.keysDue.isNone then s else
  let s := endCtr s
  let s := bumpKey s 0 .loaded (some (tenantKey s.sec.ctr))
  let s := bumpKey s 1 .loaded (some (transitKey s.sec.tnKey s.sec.transit))
  let s := cryptoErase s
  (s.setTrans { s.trans with s1 := [], gen1 := 0 }).setSec { s.sec with keysDue := none, debug := false, profile := false }

/-- What time alone does to a change of the tenancy: the counter shows its new value at an instant that a free value
decides; at 0.5 ms of a start it has shown it, and the keys are loaded (16 R442, R443). -/
def secTick (s : State) : State :=
  let s := if s.sec.ctrDue && Config.ctrShows s.now then bumpCtr s else s
  match s.sec.keysDue with
  | some t => if t + 500000 ≤ s.now then loadKeys s else s
  | none => s

/-- TENANCY_ON_SET: with the keys loaded, the footprint is what stage 2 maps, and the tenancy is in force. -/
def doTenancyOnSet (s : State) : State :=
  if s.sec.phase ≠ .starting then s else
  let s := discardStaged (resetCounters (loadKeys s))
  let s := s.setTrans { s.trans with footprint := s.trans.s2.map fun g => footEntry s g.out g.size }
  let s := s.setSec { s.sec with tenancyOn := true, phase := .none, transitNext := none, transitPend := [], oldTransit := false }
  let s := authRecord s s.sec.authNow.1 s.sec.authNow.2 .ok
  runAuth (s.sec.authWait.length + 1) s

/-- The command TENANCY_ON_SET. -/
def execTenancyOnSet (s : State) : Res := .next (doTenancyOnSet s)

/-- The creel's bindings of the tenant's queues are gone: what they hold is not written back (16 R435, R443). -/
def dropTenantBindings (s : State) : State :=
  bindRetryAll <| settleCreel { s with skeins := s.skeins.map fun k =>
    { k with bindings := k.bindings.filter fun b => decide (b.queue.val < 16) } }

/-- TENANCY_KEY_ERASE: TENANT and TRANSIT are erased, work that still holds them ends with KEY_ERASED and writes nothing
further, the tenant's strands and sessions close; the scrub starts. -/
def doTenancyKeyErase (s : State) : State :=
  if s.sec.phase ≠ .draining then s else
  let s := dropTenantBindings (eraseControllers (tenantQueues.foldl eraseQueue s))
  let s := eraseTransit (bumpKey s 0 .empty none)
  let s := dropSessions s (fun x => x.party == some .tenant) .keyErased
  let s := closeTenantStrands s false
  startCtr ((cryptoErase s).setSec { (cryptoErase s).sec with phase := .scrubbing })

/-- The command TENANCY_KEY_ERASE. -/
def execTenancyKeyErase (s : State) : Res := .next (doTenancyKeyErase s)

/-- A spindle after the scrub, which clears every register file, tile, slot, row file, bobbin and instruction cache: a
share of the controller on it goes on with what is left (16 R445, log 120). -/
def Spindle.scrubbed (x : Spindle) : Spindle :=
  if x.share.isNone then { clk := x.clk } else
  { x with
    s := rep 32 0, p := rep 8 false, v := rep 32 (rep 128 0), e := rep 8 0, tile := rep 4 {}, slot := rep 2 {}
    rowFile := rep 128 .empty, bobbin := [], fetched := [] }

/-- A strand's reorder and retransmit buffers cleared (16 R445). -/
def Strand.scrubbed (x : Strand) : Strand := { x with held := [], unacked := [] }

/-- Data bytes of a frame (`LEN`). -/
def RxBody.len (b : RxBody) : Nat :=
  match b with
  | .write _ d | .writeFlagged _ d | .readResp _ d | .atomicAdd _ _ _ d => d.length
  | .read .. | .tally .. => 8
  | _ => 16

/-- The target address of a received frame; 0 where it has none. -/
def RxBody.addr (b : RxBody) : Word :=
  match b with
  | .write a _ | .writeFlagged a _ | .read a _ | .readResp a _ | .atomicAdd _ _ a _ => a
  | .doorbell .. | .tally .. | .lag .. | .pace .. => 0

/-- Rings of the controller's queues as (address, length), ascending. -/
def ctrlRings (s : State) : List (Nat × Nat) :=
  ((((List.finRange 4096).take 16).flatMap fun q => (s.q q).cfg.rings).map fun r => (ringArea + r.1, r.2)).insertionSort
    fun a b => decide (a.1 ≤ b.1)

/-- The controller's save images as (address, length), ascending. -/
def ctrlImages (s : State) : List (Nat × Nat) :=
  ((s.trans.images.filter fun i => decide (i.queue.val < 16)).map fun i => (saveBase i.slot, saveBytes)).insertionSort
    fun a b => decide (a.1 ≤ b.1)

/-- The parts of a range outside ascending rings, as areas that read 0 where nothing is written. -/
def ringGaps (hi : Nat) : Nat → List (Nat × Nat) → List (Nat × Nat × Option Nat)
  | lo, [] => if lo < hi then [(lo, hi, none)] else []
  | lo, r :: rs => (if lo < r.1 then [(lo, r.1, none)] else []) ++ ringGaps hi (max lo (r.1 + r.2)) rs

/-- What the scrub clears (16 R445, R446): the units' state and the tenant's structures of the reserve. The compatibility
scrub leaves the receive buffers, in which the headers, addresses and lengths of their frames remain. -/
def scrubUnits (s : State) : State :=
  let gaps := ringGaps (ringArea + 0x40000000) ringArea (ctrlRings s) ++ ringGaps (saveBase 256) (saveBase 0) (ctrlImages s)
  let zeroed (a : Nat) : Bool := gaps.any fun g => decide (g.1 ≤ a) && decide (a < g.2.1)
  let old := s.sec.scrubMode
  bindRetryAll (settleCreel { s with
    spindles := s.spindles.map Spindle.scrubbed
    skeins := s.skeins.map fun k => { k with bindings := [], tlb := [] }
    mem := { s.mem with
      cells := s.mem.cells.filter fun c => !zeroed c.1
      poison := s.mem.poison.filter fun b => !zeroed (b * 32)
      base := gaps ++ s.mem.base
      reel := s.mem.reel.map fun r => { r with lines := [] } }
    trans := { s.trans with
      s1 := [], gen1 := 0, footprint := [], walker := []
      images := s.trans.images.filter fun i => decide (i.queue.val < 16) }
    eth := { s.eth with ports := s.eth.ports.map fun y => { y with fill := if old then y.fill else 0 } }
    twine := { s.twine with
      strands := s.twine.strands.map Strand.scrubbed
      waiting := if old then s.twine.waiting else []
      residue := if old then s.twine.waiting.map fun f => (f.h, f.body.addr, f.body.len) else [] } })

/-- Every queue of the tenant runtime is OFF with its counts and its group at their reset values (12 R344). -/
def closeTenantQueues (s : State) : State :=
  { s with queues := vecOf 4096 fun q => if q.val < 16 then s.q q else { (s.q q).closed with descs := [] } }

/-- SCRUB_END: strands and sessions that the tenant runtime opened meanwhile close; counters reset; fault records, lodged
authorisations, consent, the override and staged values are discarded; `TENANCY_ON` clears. -/
def doScrubEnd (s : State) : State :=
  if s.sec.phase ≠ .scrubbing then s else
  let s := dropSessions s (fun x => x.party == some .tenant) .keyErased
  let s := closeTenantQueues (closeTenantStrands s false)
  let s := discardStaged (resetCounters (scrubUnits (endCtr s)))
  let s := endOverride (s.setMgmt { s.mgmt with faults := [] })
  let s := s.setSec { s.sec.detached with
    tenancyOn := false, phase := .none, lodged := [], debug := false, profile := false, tnKey := [] }
  let s := authRecord s s.sec.authNow.1 s.sec.authNow.2 .ok
  runAuth (s.sec.authWait.length + 1) s

/-- The command SCRUB_END. -/
def execScrubEnd (s : State) : Res := .next (doScrubEnd s)

/-- SCRUB_COMMIT: refused while a tenancy is in force (16 R447). -/
def doScrubCommit (s : State) : State :=
  let x := s.sec
  if x.scrubSt = [] then s.setSec { x with scrubRes := .ok }
  else if x.tenancyOn then s.setSec { x with scrubSt := [], scrubRes := .refused }
  else s.setSec { x with
    scrubSt := [], scrubRes := .ok, scrubMode := (stagedOr x.scrubSt 0xC050 (BitVec.ofNat 64 (b2n x.scrubMode))).getLsbD 0 }

/-- The command SCRUB_COMMIT. -/
def execScrubCommit (s : State) : Res := .next (doScrubCommit s)

/-! ## Key rewrites (16 R435, R436) -/

/-- Whether an operation holds the generation of TRANSIT in effect. -/
def Rma.holdsCurrent (s : State) (r : Rma) : Bool := r.holdsTransit s && r.keyGen == (s.sec.keys.get 1).gen.toNat

/-- KEY_REWRITE_DRAINED: the rewrite takes effect once the operations of the old generation have drained, and always within
50 µs, after which what they begin is of the new one. Every tenant-owned peer strand sends under a new key phase, and frames
under the previous value are accepted for 10 ms more (14 R380, 16 R435). -/
def doKeyRewriteDrained (n : Fin 4) (s : State) : State :=
  if (s.sec.keys.get n).st ≠ .draining then s
  else if s.twine.rmas.any (Rma.holdsCurrent s) && decide (s.now < s.sec.rewriteAt + 50000) then s else
  match s.sec.transitPend with
  | [] => s
  | v :: vs =>
    let st : KeySt := if vs ≠ [] then .draining else if s.sec.transitNext.isSome then .next else .loaded
    let late (r : Rma) : Rma := if r.holdsCurrent s then { r with keyGen := ((s.sec.keys.get 1).gen + 1).toNat } else r
    let rmas := s.twine.rmas.map late
    let s := bumpKey s n st (some (transitKey s.sec.tnKey v))
    let s := s.setSec { s.sec with transit := v, transitPend := vs, rewriteAt := s.now, oldTransit := true }
    let turn (x : Strand) : Strand :=
      if x.cfg.owner = 2 ∧ !x.session ∧ x.st ≠ .closed then { x with txPhase := x.txPhase + 1, phaseAt := x.txc } else x
    { s with twine := { s.twine with rmas, strands := s.twine.strands.map turn } }

/-- The command KEY_REWRITE_DRAINED. -/
def execKeyRewriteDrained (n : Fin 4) (s : State) : Res := .next (doKeyRewriteDrained n s)

/-- TRANSIT_OLD_EXPIRY. -/
def doTransitOldExpiry (s : State) : State := s.setSec { s.sec with oldTransit := false }

/-- The command TRANSIT_OLD_EXPIRY (16 R436). -/
def execTransitOldExpiry (s : State) : Res := .next (doTransitOldExpiry s)

/-! ## Attestation (16 R448, R450). Answers bear the response codes of SPDM 1.2 (log 40); each is the data of one frame of
`TYPE` 0x19 on strand 0, with `ADDR` and `PSN` 0, unsequenced and without an ICV. A repeated request is answered again. -/

/-- An answer on strand 0. -/
def spdm (s : State) (code : Nat) (body : List Nat) : State := if spdmReaches s then spdmSay s code body else s

/-- GET_VERSION: version 1.2. -/
def execGetVersion (s : State) : Res := .next (spdm (spdmWakes s) 0x04 [0x12])
/-- GET_CAPABILITIES: certificates, challenge, signed measurements, encrypted sessions with mutual authentication by
encapsulated requests, key update and heartbeat. -/
def execGetCapabilities (s : State) : Res := .next (spdm (spdmWakes s) 0x61 [])
/-- NEGOTIATE_ALGORITHMS: ECDSA P-384, SHA-384, ECDHE P-384, AES-256-GCM, or an error where the offer lacks them. -/
def execNegotiateAlgorithms (supported : Bool) (s : State) : Res :=
  .next (if supported then spdm (spdmWakes s) 0x63 [384, 384, 384, 256] else spdm (spdmWakes s) 0x7F [])
/-- GET_DIGESTS: the digest of slot 0's chain. -/
def execGetDigests (s : State) : Res := .next (spdm (spdmWakes s) 0x01 [Config.certDigest])
/-- GET_CERTIFICATE: slot 0 only. -/
def execGetCertificate (slot : Nat) (s : State) : Res :=
  .next (if slot = 0 then spdm (spdmWakes s) 0x02 [Config.certChain] else spdm (spdmWakes s) 0x7F [])
/-- CHALLENGE: signed by the identity key. -/
def execChallenge (nonce : BitVec 256) (s : State) : Res :=
  .next (spdm (spdmWakes s) 0x03 [Config.certDigest, signed [Config.certDigest, nonce.toNat]])

/-- Bits [6:0] of `SEC_STATE` (16 R447). -/
def secBits (s : State) : Nat :=
  let x := s.sec
  fld (b2n x.tenancyOn) 0 1 + fld (b2n x.debug) 1 1 + fld (b2n x.profile) 2 1 + fld (b2n x.scrubMode) 3 1 +
    fld (b2n (x.phase == .scrubbing)) 4 1 + fld (b2n x.override) 5 1 + fld (b2n x.transitNext.isSome) 6 1

/-- The bytes of a copy of the trim table (18 R493). -/
def TrimCopy.bytes (x : TrimCopy) : List Byte :=
  match x with
  | .made => (List.range 65536).map Config.factoryTrim
  | .torn => (List.range 65536).map Config.tornTrim
  | .table t _ => t

/-- The copy of the trim table in use. -/
def trimCopy (m : Mgmt) : TrimCopy := m.trims.get (if m.trimB then 1 else 0)

/-- The trim table in use (18 R493, R494). -/
def trimTable (s : State) : List Byte := (trimCopy s.mgmt).bytes

/-- The trailer of a factory table: `FACTORY` = 1 and the signature of the identity key over the table's SHA-384 (18 R494). -/
def trailerOf (table : List Byte) : List Byte :=
  let sig := signed [(Config.sha384 table).toNat]
  (List.range 128).map (Config.trailerByte 1 sig)

/-- A measurement block (16 R450); none beyond index 5. -/
def measurement (s : State) (i : Nat) : Option (List Nat) :=
  match i with
  | 1 => some [Config.romHash]
  | 2 => some [s.mgmt.fwHash.toNat, s.mgmt.fwVersion.toNat, s.mgmt.svn]
  | 3 => some [(Config.sha384 (trimTable s)).toNat, b2n s.mgmt.calValid, b2n s.mgmt.calFactory]
  | 4 => some [Config.fuseId.toNat, Config.fleetId.toNat, s.sec.ctr, secBits s,
      if s.sec.tenancyOn then (Config.sha384 s.sec.tnKey).toNat else 0]
  | 5 => some [Config.stage2Hash (s.trans.s2.map fun g => [g.inp, g.out, g.size, b2n g.r, b2n g.w, b2n g.x, b2n g.rmt]),
      s.trans.gen2.toNat]
  | _ => none

/-- GET_MEASUREMENTS: one block, or with index 0xFF all of them, or with 0 their number; signed. -/
def doGetMeasurements (i : Nat) (s : State) : State :=
  let body : Option (List Nat) := if i = 0 then some [5]
    else if i = 0xFF then some (([1, 2, 3, 4, 5].filterMap (measurement s)).flatten)
    else measurement s i
  match body with
  | some b => spdm s 0x60 (b ++ [signed b])
  | none => spdm s 0x7F []

/-- The command GET_MEASUREMENTS. -/
def execGetMeasurements (i : Nat) (s : State) : Res := .next (doGetMeasurements i (spdmWakes s))

/-! ## Sessions (16 R448, R449) -/

/-- The party that a credential proves. -/
def credParty (cred : Cred) : Option Owner :=
  match cred with
  | .none => none
  | .operator => some .controller
  | .tenant => some .tenant

/-- Whether a session may begin: at most eight stand at once, and the tenant credential holds from a tenancy's start until
its scrub (16 R437, R443, R448). -/
def mayExchange (s : State) (cred : Cred) : Bool :=
  decide (s.sec.sessions.length < 8) && (cred != .tenant || (s.sec.tenancyOn && s.sec.phase != .scrubbing))

/-- KEY_EXCHANGE: a session begins; its requester proves a credential, or none. The request of one that has begun is
answered again. -/
def doKeyExchange (id : Nat) (cred : Cred) (s : State) : State :=
  if !spdmReaches s then s else
  match sessionOf s id with
  | some x => if !x.ready && x.party == credParty cred then spdmSay s 0x64 [id] else spdmSay s 0x7F []
  | none =>
    if !mayExchange s cred then spdmSay s 0x7F []
    else
      spdmSay (s.setSec { s.sec with
        sessions := s.sec.sessions ++ [{ id, party := credParty cred, no := s.sec.nextSession }]
        nextSession := s.sec.nextSession + 1
        ended := s.sec.ended.filter (· != id) }) 0x64 [id]

/-- The command KEY_EXCHANGE. -/
def execKeyExchange (id : Nat) (cred : Cred) (s : State) : Res := .next (doKeyExchange id cred (spdmWakes s))

/-- The strand a session receives: the lowest closed one that no configuration enables (log 41). -/
def freeStrand (s : State) : Option (Fin 2048) :=
  (List.finRange 2048).find? fun n =>
    n.val != 0 && (s.strand n).st == .closed && !(s.strand n).session && !(s.strand n).cfg.enable

/-- A session strand opens: as every strand it is OPENING until its peer answers its HELLO (14 R375, R377, log 154). -/
def openSession (s : State) (n : Fin 2048) (o : Owner) : State :=
  helloOpen (openStrand (s.setStrand n { s.strand n with session := true, cfg := { owner := ownerNum o, enable := true } }) n) n

/-- The answer to FINISH: an owned session's strand is named by a response of Nemund's. -/
def finishAnswer (s : State) (id : Nat) (n : Option (Fin 2048)) : State :=
  match n with
  | none => sessionSay s id 0x65 []
  | some n => sessionSay (sessionSay s id 0x65 []) id 2 [n.val]

/-- FINISH: the session is complete; an owned one receives its session strand. Repeated, it is answered again. -/
def doFinish (id : Nat) (s : State) : State :=
  match sessionOf s id with
  | none => s
  | some x =>
    if !spdmReaches s then s
    else if x.ready then finishAnswer s id x.strand
    else
      let put (s : State) (n : Option (Fin 2048)) : State :=
        let ready (y : Session) : Session := if y.id = id then { y with ready := true, strand := n } else y
        s.setSec { s.sec with sessions := s.sec.sessions.map ready }
      match x.party with
      | none => finishAnswer (put s none) id none
      | some o =>
        match freeStrand s with
        | none => spdmSay (s.setSec { s.sec with sessions := s.sec.sessions.filter fun y => y.id != id }) 0x7F []
        | some n => finishAnswer (openSession (put s (some n)) n o) id (some n)

/-- The command FINISH. -/
def execFinish (id : Nat) (s : State) : Res := .next (doFinish id (spdmWakes s))

/-- END_SESSION. Repeated, it is answered again. -/
def doEndSession (id : Nat) (s : State) : State :=
  if !spdmReaches s then s
  else if (sessionOf s id).isSome then
    let s := dropSession s id .interrupted
    sessionSay (s.setSec { s.sec with ended := id :: s.sec.ended.filter (· != id) }) id 0x6C []
  else if s.sec.ended.contains id then sessionSay s id 0x6C []
  else s

/-- The command END_SESSION. -/
def execEndSession (id : Nat) (s : State) : Res := .next (doEndSession id (spdmWakes s))

/-- KEY_UPDATE and HEARTBEAT within a session are acknowledged. -/
def inSession (s : State) (id code : Nat) : State :=
  match sessionOf s id with
  | some x => if spdmReaches s && x.ready then sessionSay s id code [] else s
  | none => s

/-- The command KEY_UPDATE. -/
def execKeyUpdate (id : Nat) (s : State) : Res := .next (inSession (spdmWakes s) id 0x69)
/-- The command HEARTBEAT. -/
def execHeartbeat (id : Nat) (s : State) : Res := .next (inSession (spdmWakes s) id 0x68)

/-- SESSION_IDLE_TIMEOUT: 10 s without traffic. -/
def doSessionIdleTimeout (id : Nat) (s : State) : State := dropSession s id .interrupted

/-- The command SESSION_IDLE_TIMEOUT (16 R449). -/
def execSessionIdleTimeout (id : Nat) (s : State) : Res := .next (doSessionIdleTimeout id s)

/-- Whether a session holds the controller lease: it was granted the pair in force (18 R498, R499). -/
def holdsLease (s : State) (id : Nat) : Bool := match sessionOf s id with
  | some x => x.holds
  | none => false

/-- WAKE_KEY_FETCH: the lease holder alone receives the key. -/
def doWakeKeyFetch (id : Nat) (s : State) : State :=
  match sessionOf s id with
  | some x =>
    if !spdmReaches s ∨ !x.ready then s
    else if holdsLease s id then sessionSay s id 3 [wakeKey] else sessionSay s id 0x7F []
  | none => s

/-- The command WAKE_KEY_FETCH (16 R449). -/
def execWakeKeyFetch (id : Nat) (s : State) : Res := .next (doWakeKeyFetch id (spdmWakes s))

/-! ## The controller lease (18 R498 to R500) -/

/-- The pair of the holder as it stands in a response: its epoch, and its ID or 0. -/
def leasePair (s : State) : List Nat := match s.sec.lease with
  | some l => [l.1, l.2.1]
  | none => [s.sec.leaseEpoch, 0]

/-- Whether a request is granted: its pair is above the holder's in the order of 18 R498, or equal to it. -/
def leaseGranted (s : State) (epoch ctrl : Nat) : Bool :=
  ctrl != 0 &&
  match s.sec.lease with
  | some l => decide (l.1 < epoch) || (epoch == l.1 && decide (ctrl ≤ l.2.1))
  | none => decide (s.sec.leaseEpoch ≤ epoch)

/-- Whether a grant passes the lease: the pair in force changes (18 R499). -/
def leasePasses (s : State) (epoch ctrl : Nat) : Bool := match s.sec.lease with
  | some l => !(l.1 == epoch && l.2.1 == ctrl)
  | none => true

/-- What the passing of the lease discards, and its record. -/
def passLease (s : State) : State :=
  let s := clearFwArea (discardStaged s)
  let s := s.setMgmt { s.mgmt with frozen := false, tally := [] }
  record s 0x0D none 14 0 [7]

/-- LEASE_REQUEST by a controller session. -/
def doLeaseRequest (id : Nat) (epoch : BitVec 32) (ctrl : BitVec 16) (s : State) : State :=
  match sessionOf s id with
  | none => s
  | some x =>
    if !spdmReaches s ∨ !x.ready ∨ x.party ≠ some .controller then s else
    let e := epoch.toNat
    let c := ctrl.toNat
    if !leaseGranted s e c then sessionSay s id 4 (Status.refused.code :: leasePair s) else
    let passes := leasePasses s e c
    let grant (y : Session) : Session := { y with holds := y.id == id || (y.holds && !passes) }
    let s := s.setSec { s.sec with
      lease := some (e, c, id), leaseEpoch := e, sessions := s.sec.sessions.map grant }
    let s := if passes then passLease s else s
    sessionSay s id 4 (Status.ok.code :: leasePair s)

/-- The command LEASE_REQUEST (18 R498, R499). -/
def execLeaseRequest (id : Nat) (epoch : BitVec 32) (ctrl : BitVec 16) (s : State) : Res :=
  .next (doLeaseRequest id epoch ctrl (spdmWakes s))

/-! ## The TAP (16 R451, 19 R527) -/

/-- The registers of a spindle as an inspection finds them (06 R139, R140). -/
def Spindle.shows (x : Spindle) : List Nat :=
  x.s.toList.map BitVec.toNat ++ x.p.toList.map b2n ++ x.v.toList.flatMap (fun v => v.toList.map BitVec.toNat) ++
  x.e.toList.map BitVec.toNat ++ x.tile.toList.flatMap (fun t => t.rows.toList.flatMap fun v => v.toList.map BitVec.toNat) ++
  [x.pc.toNat, x.cause.toNat, x.step.toNat, x.cycle.toNat, x.seed.toNat]

/-- Bytes of a memory on the chip with their places. -/
def cellsShow (l : List Host.Cell) : List Nat := l.flatMap fun c => [c.1, c.2.toNat]

/-- What the spec names as open to an inspection with debug consent: the residue of a compatibility scrub, the halted shares
with their registers, the bobbins and the creel, and with profiling consent the kernel traces and the traffic of the channels
(16 R446, R451, R452). -/
def inspected (s : State) : List Nat :=
  s.twine.residue.flatMap (fun r => [r.1.strand.val, r.1.port.val, r.1.src, r.1.dst, r.2.1.toNat, r.2.2]) ++
  (List.finRange 136).flatMap (fun p => match (s.sp p).share with
    | some h => match h.phase with
      | .halted _ => [p.val, h.queue.val, h.seq, h.index] ++ (s.sp p).shows
      | _ => []
    | none => []) ++
  s.spindles.toList.flatMap (fun x => cellsShow x.bobbin) ++
  s.skeins.toList.flatMap (fun k => k.bindings.flatMap fun b => cellsShow b.data) ++
  (if s.sec.profile then
    s.sec.trace.flatMap (fun t => [t.queue.val, t.seq, t.start, t.stop]) ++ s.mem.reel.toList.flatMap fun c => c.traffic.toList
   else [])

/-- The TAP in reset: IDCODE is its instruction, and no private one runs (19 R526). -/
def Sec.tapReset (x : Sec) : Sec := { x with tapNow := 1, attached := false }

/-- The pins' levels are captured and shifted out, and `cells` stand in the boundary cells. -/
def capture (s : State) (i cells : Nat) : State :=
  let s := s.setSec { s.sec with tapNow := i, tapCells := cells }
  { s.say (.tap i (Config.pinSample s.free)) with free := s.free + 1 }

/-- TAP_INSTRUCTION: BYPASS, IDCODE and SAMPLE/PRELOAD always; EXTEST, which drives the pins, with consent or outside a tenancy. A
private instruction without consent does nothing; with consent a debugger is attached by it and inspects the device, which
answers with a value that the spec does not state (log 131). While TRST_N is low the TAP stays in reset (19 R526). -/
def doTapInstruction (i : Tap) (s : State) : State :=
  match i with
  | .trst high => s.setSec { (if high then s.sec else s.sec.tapReset) with trst := high }
  | .bypass => if s.sec.trst then (s.setSec { s.sec with tapNow := 0 }).say (.tap 0 0) else s
  | .idcode => if s.sec.trst then (s.setSec { s.sec with tapNow := 1 }).say (.tap 1 0x10C715B3) else s
  | .sample c => if s.sec.trst then capture s 2 c else s
  | .extest c => if s.sec.trst && (s.sec.debug || !s.sec.tenancyOn) then (capture s 3 c).say (.drive c) else s
  | .priv n =>
    if s.sec.trst && s.sec.debug then
      { (s.setSec { s.sec with attached := true, tapNow := 4 + n }).say
          (.tap (4 + n) (Config.inspect n (inspected s) s.free)) with free := s.free + 1 }
    else s

/-- The command TAP_INSTRUCTION. -/
def execTapInstruction (i : Tap) (s : State) : Res := .next (doTapInstruction i s)

end Sys2Proof.Machine
end

