-- ==== Sys2Proof/Machine/Power.lean ====
section
/-!
DEFINITION. Power, clocks and temperature (17): rail limits, stretches, regulator readings, the grants, energy,
power states, temperatures, the airflow fault, and the wake detector (13 R368).
-/

namespace Sys2Proof.Machine

def setRail (s : State) (r : Fin 7) (x : Rail) : State := s.setPwr { s.pwr with rails := upd s.pwr.rails r x }

/-! ## Rail limits (17 R455 to R458). Currents are in 0.1 A. -/

/-- Limits over 1 µs and over 100 µs. -/
def railLimits (r : Fin 7) : Nat × Nat :=
  [(11000, 9500), (1100, 900), (3000, 2500), (800, 650), (1000, 850), (500, 400), (200, 180)].getD r.val (0, 0)

/-- The gain an estimator starts from, in 0.1%: that of the trim table, or the fixed default without a valid one (17 R460). -/
def startGain (s : State) (r : Fin 7) : Nat :=
  (if s.mgmt.calValid then Config.trimGain (trimTable s) r.val else Config.defaultGain r.val) + 1

/-- An estimate with the gain of its estimator. -/
def corrected (s : State) (r : Fin 7) (amps : Nat) : Nat :=
  ((amps : Int) * (startGain s r + (s.pwr.rails.get r).gain) / 1000).toNat

/-- N for an estimate above a limit (17 R457). -/
def stretchFor (est lim : Nat) : Nat :=
  let e := (est - lim) * 1000
  if e ≤ 30 * lim then 32 else if e ≤ 60 * lim then 16 else if e ≤ 125 * lim then 8 else 4

/-- The rails that feed the mill die: VDD_CORE and VDD_SRAM. -/
def millRail (r : Fin 7) : Option (Fin 2) := if h : r.val < 2 then some ⟨r.val, h⟩ else none

/-- The stretches of a skein for a rail set to `n`. -/
def Skein.stretchTo (k : Skein) (i : Fin 2) (n : Option Nat) : Skein := { k with stretch := upd k.stretch i n }

/-- ESTIMATOR_SAMPLE: the 1 µs average `amps` of rail `r` and the skeins that draw most on it: above the limit they are
stretched, and every stretch for this rail follows the excess. -/
def doEstimatorSample (r : Fin 7) (amps : Nat) (skeins : BitVec 8) (s : State) : State :=
  let est := corrected s r amps
  let lim := guarded s (railLimits r).1
  let s := setRail s r { s.pwr.rails.get r with us := est }
  match millRail r with
  | none => s
  | some i =>
    let on (k : Fin 8) : Bool := ((s.sk k).stretch.get i).isSome || (skeins.getLsbD k.val && decide (lim < est))
    { s with skeins := vecOf 8 fun k =>
        if on k then (s.sk k).stretchTo i (some (stretchFor est lim)) else s.sk k }

/-- The command ESTIMATOR_SAMPLE (17 R456, R457). -/
def execEstimatorSample (r : Fin 7) (amps : Nat) (skeins : BitVec 8) (s : State) : Res :=
  .next (doEstimatorSample r amps skeins s)

/-- The six divider steps (01 R33). -/
def steps : List Nat := [6, 7, 8, 10, 12, 24]
/-- The next slower step. -/
def stepDown (d : Nat) : Nat := (steps.find? fun x => decide (d < x)).getD 24
/-- The next faster step. -/
def stepUp (d : Nat) : Nat := (steps.reverse.find? fun x => decide (x < d)).getD 6

/-- The levers of a rail one step down: the stack rails first lower bank time (17 R456, log 50). -/
def Rail.lowered (x : Rail) (stack : Bool) : Rail :=
  if stack && x.distPm != 0 then { x with distPm := x.distPm - 125 } else { x with div := stepDown x.div }

/-- The levers of a rail one step back: its divider, then the bank time. -/
def Rail.raised (x : Rail) : Rail :=
  if x.div = 6 then { x with distPm := 1000 } else { x with div := stepUp x.div }

/-- The pacing rate that an average of VDD_SERDES against its limit leaves: the rate in force in proportion (17 R456,
log 50). -/
def pacedTo (pm est lim : Nat) : Nat := if est = 0 then 1000 else max 1 (min 1000 (pm * lim / est))

/-- DIVIDER_STEP_DOWN: the 100 µs average `amps` of a rail against its limit: one step down above it, one back
within it; VDD_SERDES lowers the pacing rate; VDD_IO and VDD_MGMT feed no skein, so no divider moves for them (17 R455, R480;
log 50). -/
def doDividerStepDown (r : Fin 7) (amps : Nat) (s : State) : State :=
  let est := corrected s r amps
  let lim := guarded s (railLimits r).2
  let x := { s.pwr.rails.get r with est := min 65535 est }
  if r = 4 then
    let s := setRail s r x
    s.setPwr { s.pwr with railPacePm := pacedTo s.pwr.railPacePm est lim }
  else if 4 < r.val then setRail s r x
  else setRail s r (if lim < est then x.lowered (r == 2 || r == 3) else x.raised)

/-- The command DIVIDER_STEP_DOWN (17 R456). -/
def execDividerStepDown (r : Fin 7) (amps : Nat) (s : State) : Res := .next (doDividerStepDown r amps s)

/-- A droop stretch one step relaxed (17 R458). -/
def relax (n : Option Nat) : Option Nat :=
  match n with
  | some n => if n < 32 then some (2 * n) else none
  | none => none

/-- STRETCH_END: the droop detectors of a skein have been clear for 1 µs: a droop stretch relaxes by one step, and the
stretch for a rail whose 1 µs estimate lies below 97% of its limit ends. -/
def doStretchEnd (k : Fin 8) (s : State) : State :=
  let below (r : Fin 7) : Bool := decide ((s.pwr.rails.get r).us * 100 < guarded s (railLimits r).1 * 97)
  let x := s.sk k
  s.setSk k { x with
    stretch := vecOf 2 fun i => if below ⟨i.val, by omega⟩ then none else x.stretch.get i
    droopN := relax x.droopN }

/-- The command STRETCH_END (17 R457, R458). -/
def execStretchEnd (k : Fin 8) (s : State) : Res := .next (doStretchEnd k s)

/-- DROOP_DETECT: a stretch with N = 4 starts. -/
def doDroopDetect (k : Fin 8) (s : State) : State := s.setSk k { s.sk k with droopN := some 4 }

/-- The command DROOP_DETECT (17 R458). -/
def execDroopDetect (k : Fin 8) (s : State) : Res := .next (doDroopDetect k s)

/-! ## Readings (17 R459 to R461) -/

/-- A signed byte. -/
def toSigned8 (i : Int) : BitVec 8 := BitVec.ofInt 8 (max (-128) (min 127 i))

/-- Whether the device reads the board's regulators and sensor: not in reset, where the management domain is off, nor on the
stated defaults of the configuration (18 R485, R505; 19 R519). -/
def readsBoard (s : State) : Bool := s.mgmt.phase != .reset && !s.mgmt.cfgDefault

/-- REGULATOR_READ: current and voltage of a rail against the estimator's average `est`: the gain is corrected by
one eighth of the difference; ten readings in a row end a gap. -/
def doRegulatorRead (r : Fin 7) (amps mv est : Nat) (s : State) : State :=
  if !readsBoard s then s else
  let x := s.pwr.rails.get r
  let c := corrected s r est
  let err : Int := if c = 0 then 0 else (((amps : Int) - c) * 1000).tdiv (8 * c)
  setRail s r { x with
    reg := min 65535 amps, mv := min 65535 mv, gainErr := toSigned8 err, gain := x.gain + err,
    streak := if x.missing then x.streak + 1 else 0, missing := x.missing && decide (x.streak + 1 < 10) }

/-- The command REGULATOR_READ (17 R460). -/
def execRegulatorRead (r : Fin 7) (amps mv est : Nat) (s : State) : Res := .next (doRegulatorRead r amps mv est s)

/-- READINGS_MISSING: no reading of a rail for 500 µs. The guard band lowers the cap, so a burst ends. -/
def doReadingsMissing (r : Fin 7) (s : State) : State :=
  if s.mgmt.phase = .reset then s else
  let x := s.pwr.rails.get r
  let s' := setRail (if guardBand s then s else endBurst s) r { x with missing := true, streak := 0 }
  if x.missing then s' else record s' 0x0C none 6 r.val [1]

/-- The command READINGS_MISSING (17 R460). -/
def execReadingsMissing (r : Fin 7) (s : State) : Res := .next (doReadingsMissing r s)

/-- STATUS_WORD_POLL: a regulator that now reports an output fault holds every skein at ÷24. -/
def doStatusWordPoll (faults : BitVec 7) (s : State) : State :=
  if !readsBoard s then s else
  (List.finRange 7).foldl (fun s r =>
    let x := s.pwr.rails.get r
    let bad := faults.getLsbD r.val
    let s := setRail s r { x with fault := bad }
    if bad && !x.fault then record (s.setPwr { s.pwr with regFault := true }) 0x0C none 6 r.val [2] else s) s

/-- The command STATUS_WORD_POLL (17 R461). -/
def execStatusWordPoll (faults : BitVec 7) (s : State) : Res := .next (doStatusWordPoll faults s)

/-- REGULATOR_FAULT_CLEARED: 100 ms of readings without a fault. -/
def doRegulatorFaultCleared (s : State) : State :=
  if s.pwr.rails.toList.any (·.fault) ∨ !readsBoard s then s else s.setPwr { s.pwr with regFault := false }

/-- The command REGULATOR_FAULT_CLEARED (17 R461). -/
def execRegulatorFaultCleared (s : State) : Res := .next (doRegulatorFaultCleared s)

/-- INLET_POLL: the inlet temperature, or none. `INLET_C` is the mean of the readings of the last second, ten of them, in whole
degrees (17 R459, R478; log 169). -/
def doInletPoll (temp : Option (BitVec 8)) (s : State) : State :=
  if !readsBoard s then s else
  match temp with
  | none => s.setPwr { s.pwr with inlet := 0xFF, inlets := [] }
  | some t =>
    let l := (t.toNat :: s.pwr.inlets).take 10
    s.setPwr { s.pwr with inlet := l.sum / l.length, inlets := l }

/-- The command INLET_POLL (17 R459, R478). -/
def execInletPoll (temp : Option (BitVec 8)) (s : State) : Res := .next (doInletPoll temp s)

/-! ## The cap (17 R462, R463) -/

/-- Word of `PWR_CAP` in effect. -/
def Pwr.capWord (p : Pwr) : Nat := fld p.cap 0 10 + fld p.burst 10 10 + fld p.window 20 14

/-- PWR_COMMIT: a lowered cap ends a burst. -/
def doPwrCommit (s : State) : State :=
  let p := s.pwr
  let w := (stagedOr p.staged 0xD000 (BitVec.ofNat 64 p.capWord)).toNat
  let cap := bitsOf w 0 10
  let burst := bitsOf w 10 10
  let window := bitsOf w 20 14
  if p.staged = [] then s.setPwr { p with result := .ok }
  else if 200 ≤ cap ∧ cap ≤ 850 ∧ cap ≤ burst ∧ burst ≤ 950 ∧ 50 ≤ window ∧ window ≤ 10000 then
    let s := if cap < p.cap then endBurst s else s
    s.setPwr { s.pwr with cap, burst, window, staged := [], result := .ok }
  else s.setPwr { p with staged := [], result := .refused }

/-- The command PWR_COMMIT. -/
def execPwrCommit (s : State) : Res := .next (doPwrCommit s)

/-- BURST_EXPIRY: a burst has lasted 20 ms. -/
def doBurstExpiry (s : State) : State := endBurst s

/-- The command BURST_EXPIRY (17 R462). -/
def execBurstExpiry (s : State) : Res := .next (doBurstExpiry s)

/-! ## The grants (17 R465, R466). A skein clock is counted in 1/70 GHz: ÷d gives 840/d. -/

def units (d : Nat) : Nat := 840 / d

/-- Every way to give `n` skeins steps in order, fastest first, from a list of steps that grow slower. -/
def settings : Nat → List Nat → List (List Nat)
  | n, [] => if n = 0 then [[]] else []
  | n, d :: ds => (List.range (n + 1)).flatMap fun c => (settings (n - c) ds).map (List.replicate c d ++ ·)

/-- Skeins by queued work, most first, lower numbers first among equals. -/
def byWork (work : List Nat) : List Nat :=
  (List.range 8).mergeSort fun i j => decide (work.getD j 0 < work.getD i 0) || (work.getD i 0 == work.getD j 0 && decide (i ≤ j))

/-- Power of a setting in units of 1/140 of the demands' unit: skeins take the steps in the order of their work. -/
def settingPower (order demand : List Nat) (set : List Nat) : Nat :=
  ((order.zip set).map fun x => demand.getD x.1 0 * units x.2).sum

def clockSum (set : List Nat) : Nat := (set.map units).sum
def clockSpread (set : List Nat) : Nat := units (set.headD 6) - units (set.getLastD 6)
def slowCount (set : List Nat) : Nat := (set.filter fun d => d != set.headD 6).length

/-- Whether setting `a` is taken before setting `b` (17 R466). -/
def betterSet (a b : List Nat) : Bool :=
  decide (clockSum b < clockSum a) ||
  (clockSum a == clockSum b &&
    (decide (clockSpread a < clockSpread b) || (clockSpread a == clockSpread b && decide (slowCount a < slowCount b))))

/-- The setting for a grant; all at ÷24 where none fits. -/
def bestSet (order demand : List Nat) (grant : Nat) : List Nat :=
  ((settings 8 steps).filter fun t => decide (settingPower order demand t ≤ grant * 140)).foldl
    (fun b t => if betterSet t b then t else b) (List.replicate 8 24)

/-- Step of skein `k` under a setting. -/
def stepOf (order set : List Nat) (k : Nat) : Nat :=
  (((order.zip set).find? fun x => x.1 == k).map (·.2)).getD 24

/-- The package power averaged over `WINDOW_MS`, in W, as far as it has been measured (17 R462). -/
def windowW (p : Pwr) : Nat := (p.msUj.take p.window).sum / (1000 * max 1 (min p.window p.msUj.length))

/-- Whether a burst may run: none under the override, none until the last is paid back, none while the average over the
window lies above the cap (17 R462, R477). -/
def mayBurst (s : State) : Bool :=
  !s.sec.override && decide (s.pwr.holdUntil ≤ s.now) && decide (windowW s.pwr ≤ effCap s)

/-- A burst starts where the 100 µs average rises above the cap and one may run, and ends otherwise. -/
def burstStep (s : State) : State :=
  if s.pwr.pkgW ≤ effCap s || !mayBurst s then endBurst s
  else if s.pwr.burstAt.isSome then s
  else s.setPwr { s.pwr with burstAt := some s.now }

/-- The cap that a grant divides: what the 100 µs average exceeds the cap by, in a burst `BURST_W`, is taken back (17 R462,
log 160). -/
def grantCap (s : State) : Nat :=
  let top := if s.pwr.burstAt.isSome then max (effCap s) (guarded s s.pwr.burst) else effCap s
  effCap s - (s.pwr.pkgW - top)

/-- The learned energy of a descriptor's work per spindle cycle, in pJ; 0 where it is untagged or not yet learned. -/
def spinOf (s : State) (q : Fin 4096) (seq : Nat) : Nat :=
  match descOf s q seq with
  | some d => if h : hdrPhase d.raw < 256 then (s.pwr.phases.get ⟨hdrPhase d.raw, h⟩).spin else 0
  | none => 0

/-- Shares that a skein's spindles run, by descriptor. -/
def sharesOf (s : State) (k : Fin 8) : List (Fin 4096 × Nat) :=
  (List.finRange 17).filterMap fun l => (s.sp (physOf k l)).share.map fun h => (h.queue, h.seq)

/-- Shares that wait for a skein's spindles, by descriptor. -/
def waitsOf (s : State) (k : Fin 8) : List (Fin 4096 × Nat) :=
  s.kernels.flatMap fun x => (x.waiting.filter fun w => w.2.val / 16 == k.val).map fun _ => (x.queue, x.seq)

/-- The predicted demands: what is measured of untagged work, and what the phase table teaches of tagged work, in mW: 1 pJ
per spindle cycle is 2 mW at 2.0 GHz (17 R464, R465). -/
def predicted (s : State) (g : GrantIn) : GrantIn :=
  let spin (k : Fin 8) : Nat := ((sharesOf s k ++ waitsOf s k).map fun h => 2 * spinOf s h.1 h.2).sum
  { g with
    skeins := (List.finRange 8).map fun k => g.skeins.getD k.val 0 + spin k
    stackMw := g.stackMw + (g.tagged.map fun t => 100 * (s.pwr.phases.get t.1).stack * t.2.1).sum
    linkMw := g.linkMw + (g.tagged.map fun t => 100 * (s.pwr.phases.get t.1).net * t.2.2).sum }

/-- What remains of a cap after fixed, stack and link draw, all in mW. -/
def remainder (g : GrantIn) (cap : Nat) : Nat := cap * 1000 - g.reserved - g.stackMw - g.linkMw

/-- The cap divided by demands: every demand is met, or the skeins take a setting and the distaffs a bank time by their
shares, and the links are paced where both are at their floors. -/
def divide (g : GrantIn) (cap : Nat) (s : State) : State :=
  let rem := remainder g cap
  let skeins := g.skeins.sum
  let total := skeins + g.distaff
  if total ≤ rem then
    { s.setPwr { s.pwr with distPm := 1000, pacePm := 1000 } with
      skeins := s.skeins.map fun k => { k with stepDiv := 6 } }
  else
    let grant := rem * skeins / total
    let order := byWork g.work
    let set := bestSet order g.skeins grant
    let floor := settingPower order g.skeins (List.replicate 8 24) / 140
    let short : Bool := decide (rem < floor)
    let links := cap * 1000 - g.reserved - g.stackMw - floor
    { s.setPwr { s.pwr with
        distPm := if short then 0 else (rem - grant) * 1000 / max 1 g.distaff
        pacePm := if short && decide (g.linkMw ≠ 0) then min 1000 (links * 1000 / max 1 g.linkMw) else 1000 } with
      skeins := vecOf 8 fun k => { s.sk k with stepDiv := stepOf order set k.val } }

/-- GRANT_TICK: the cap is divided by what is measured and predicted. -/
def doGrantTick (g : GrantIn) (s : State) : State :=
  let s := burstStep s
  let s := s.setPwr { s.pwr with grantIn := some g, grantDue := false }
  divide (predicted s g) (grantCap s) s

/-- A grant that a dispatch of tagged work has asked for, by the last measurements (17 R465). -/
def dueGrant (s : State) : State :=
  if !s.pwr.grantDue then s else
  match s.pwr.grantIn with
  | some g => doGrantTick g s
  | none => s

/-- The command GRANT_TICK. -/
def execGrantTick (g : GrantIn) (s : State) : Res := .next (doGrantTick g s)

/-! ## Energy (17 R468, R469), in µJ -/

/-- Energy given to a piece of work: to its queue and its descriptor. -/
def charge (s : State) (w : Fin 4096 × Nat × Nat) : State :=
  let s := s.setQ w.1 { s.q w.1 with energy := (s.q w.1).energy + BitVec.ofNat 64 w.2.2 }
  setDesc s w.1 w.2.1 fun d => { d with energy := d.energy + w.2.2 }

/-- What the shares of a skein receive of its energy. -/
def skeinWork (s : State) (k : Fin 8) (e : Nat) : List (Fin 4096 × Nat × Nat) :=
  let hs := sharesOf s k
  hs.map fun h => (h.1, h.2, e / hs.length)

/-- The energy of a stack or of the links divided among the work it served, by bytes (17 R468). -/
def byBytes (e : Nat) (ws : List (Fin 4096 × Nat × Nat)) : List (Fin 4096 × Nat × Nat) :=
  ws.map fun w => (w.1, w.2.1, e * w.2.2 / max 1 (ws.map (·.2.2)).sum)

/-- The package energies of the window after another interval of 10 µs. -/
def Pwr.metered (p : Pwr) (uj : Nat) : Pwr :=
  let recent := (uj :: p.recent).take 10
  let p := { p with pkgUj := p.pkgUj + BitVec.ofNat 64 uj, recent, pkgW := recent.sum / 100 }
  if p.msCnt + 1 < 100 then { p with msAcc := p.msAcc + uj, msCnt := p.msCnt + 1 }
  else { p with msUj := ((p.msAcc + uj) :: p.msUj).take 10000, msAcc := 0, msCnt := 0 }

/-- ENERGY_ATTRIBUTION: energies of the skeins, of the stacks and the links with the bytes of the work they served, by
queue and descriptor, and of what no work carries. What the divisions leave over is unattributed. -/
def doEnergyAttribution (skeins : List Nat) (served : List (Nat × List (Fin 4096 × Nat × Nat))) (idle : Nat) (s : State) :
    State :=
  let e (k : Fin 8) : Nat := skeins.getD k.val 0
  let given := (List.finRange 8).flatMap (fun k => skeinWork s k (e k)) ++ served.flatMap fun x => byBytes x.1 x.2
  let total := ((List.finRange 8).map e).sum + (served.map (·.1)).sum + idle
  let s : State := { s with skeins := vecOf 8 fun k => { s.sk k with energy := (s.sk k).energy + BitVec.ofNat 64 (e k) } }
  let p := s.pwr.metered total
  let s := s.setPwr { p with unattr := p.unattr + BitVec.ofNat 64 (total - (given.map (·.2.2)).sum) }
  given.foldl charge s

/-- The command ENERGY_ATTRIBUTION. -/
def execEnergyAttribution (skeins : List Nat) (served : List (Nat × List (Fin 4096 × Nat × Nat))) (idle : Nat)
    (s : State) : Res := .next (doEnergyAttribution skeins served idle s)

/-! ## Power states (17 R470, R471) -/

/-- Whether no spindle of a skein runs a share. -/
def skeinIdle (s : State) (k : Fin 8) : Bool := (sharesOf s k).isEmpty

/-- Whether the device is idle: nothing in flight, no entry unread, no group operation open. -/
def deviceIdle (s : State) : Bool :=
  s.queues.toList.all (fun x => x.descs.isEmpty && x.head == x.tail) && s.ply.ops.isEmpty

/-- A spindle that has lost all but its bobbin (06 R163). -/
def Spindle.drained (x : Spindle) : Spindle :=
  { bobbin := x.bobbin, owner := x.owner, clk := x.clk, prof := x.prof }

/-- A spindle of a mill die that was off. -/
def Spindle.unpowered (x : Spindle) : Spindle := { clk := x.clk }

/-- The mill die's state is lost: the work that stood in it is finished by 12 R338 once it works again (17 R471, R475). -/
def millOff (s : State) : State :=
  let s := stopWork s
  { s with spindles := s.spindles.map Spindle.unpowered }

/-- The mill die and the I/O die are off but for the management domain and the ports of `WAKE_EN`: their state and the
other links are lost (17 R471, R475). -/
def diesOff (s : State) : State :=
  settlePaths ((List.finRange 32).foldl (fun s p =>
    if s.eth.wakeEn.getLsbD p.val ∨ (s.port p).link = .off then s else dropPort s p .down) (millOff s))

/-- P4 is entered: HELLO announces it, ports outside `WAKE_EN` lose their links. -/
def enterP4 (s : State) : State :=
  let s := diesOff (writeBackAll (announceReset s))
  s.setPwr { s.pwr with pstate := .p4, exiting := false, wake := none }

/-- POWER_STATE_ENTRY: the idle condition has held for the entry delay and the exit latency is tolerated. -/
def doPowerStateEntry (u : PwrUnit) (s : State) : State :=
  let tol := s.pwr.latTol
  if !s.inService then s else
  match u with
  | .p1 k =>
    if skeinIdle s k && (s.sk k).pstate == .p0 && !(s.sk k).exiting && decide (1 ≤ tol) then
      s.setSk k { s.sk k with pstate := .p1 } else s
  | .p2 k =>
    if skeinIdle s k && ((s.sk k).pstate == .p0 || (s.sk k).pstate == .p1) && !(s.sk k).exiting && decide (40 ≤ tol) then
      let s := (List.finRange 17).foldl (fun s l => s.setSp (physOf k l) (s.sp (physOf k l)).drained) s
      s.setSk k { s.sk k with pstate := .p2 }
    else s
  | .p3 =>
    if deviceIdle s && s.pwr.pstate == .p0 && decide (1500 ≤ tol) then
      let s := writeBackAll s
      s.setPwr { s.pwr with pstate := .p3, exiting := false }
    else s
  | .p4 =>
    if deviceIdle s && (s.pwr.pstate == .p0 || s.pwr.pstate == .p3) && !s.pwr.exiting && s.pwr.allowP4 &&
        decide (250000 ≤ tol) then enterP4 s
    else s

/-- The command POWER_STATE_ENTRY. -/
def execPowerStateEntry (u : PwrUnit) (s : State) : Res := .next (doPowerStateEntry u s)

/-- POWER_STATE_EXIT: an event breaks the idle condition. P4 is left by a wake frame, the sideband or a reset only,
which have commands of their own. -/
def doPowerStateExit (u : PwrUnit) (s : State) : State :=
  match u with
  | .p1 k => if (s.sk k).pstate = .p1 then s.setSk k { s.sk k with exiting := true } else s
  | .p2 k => if (s.sk k).pstate = .p2 then s.setSk k { s.sk k with exiting := true } else s
  | .p3 => if s.pwr.pstate = .p3 then startExit s else s
  | .p4 => s

/-- The command POWER_STATE_EXIT. -/
def execPowerStateExit (u : PwrUnit) (s : State) : Res := .next (doPowerStateExit u s)

/-! ## Wake frames (13 R368, 14 R379) -/

/-- WAKE: a magic or a Twine WAKE frame on a port. In P4 the detector starts the exit; the check follows it, and a magic
frame fails it where the controller has asked for Twine wake only. -/
def doWake (p : Fin 32) (magic genuine : Bool) (ctr : Word) (s : State) : State :=
  if (s.port p).link ≠ .up then s else
  match s.pwr.pstate with
  | .p3 => if magic then s else startExit s
  | .p4 =>
    if !s.eth.wakeEn.getLsbD p.val ∨ s.pwr.exiting then s
    else if !s.eth.twineWake && !(magic && s.eth.magic) then s
    else s.setPwr { s.pwr with exiting := true, wake := some (p, magic, genuine, ctr) }
  | _ => s

/-- The command WAKE. -/
def execWake (p : Fin 32) (magic genuine : Bool) (ctr : Word) (s : State) : Res := .next (doWake p magic genuine ctr s)

/-- Whether a wake frame passes its check: a magic frame where the controller has asked for it, a WAKE frame if it is
genuine and its counter is above the last one accepted. -/
def wakeOk (s : State) (w : Bool × Bool × Word) : Bool :=
  if w.1 then s.eth.magic else w.2.1 && decide (s.sec.wakeCtr < w.2.2.toNat)

/-- The exit from P4 is done: a refused wake returns the device to P4. -/
def leaveP4 (s : State) : State :=
  let refused := match s.pwr.wake with
    | some w => !wakeOk s w.2
    | none => false
  let p := s.pwr
  if refused then
    match p.wake with
    | some w => record (s.setPwr { p with exiting := false, wake := none }) 0x07 none 5 w.1.val [3]
    | none => s
  else
    let s := match p.wake with
      | some (_, false, _, ctr) => s.setSec { s.sec with wakeCtr := ctr.toNat }
      | _ => s
    let s := s.setPwr { p with pstate := .p0, exiting := false, wake := none }
    let s := portsUp s
    restoreStrands { s with skeins := s.skeins.map fun k => { k with pstate := .p0, exiting := false, tlb := [] } }

/-! ## Temperature (17 R473 to R478) -/

/-- A sensor's reading with the offset of the trim table in use, 0 without a valid one (18 R493, R497). -/
def sensed (s : State) (i raw : Nat) : Nat :=
  if s.mgmt.calValid then ((10 * raw + Config.trimOffset (trimTable s) i) / 10).toNat else raw

/-- The hottest of `n` sensors, the first of which stands at place `i` of a list of readings and has number `base`. -/
def hottest (s : State) (l : List Nat) (i n base : Nat) : Nat :=
  ((List.range n).map fun j => sensed s (base + j) (l.getD (i + j) 0)).foldl max 0

/-- THERMAL_THRESHOLD: temperatures are read and the thresholds act. The lost trim table acts 5 °C lower
(18 R497). -/
def doThermalThreshold (t : ThermIn) (s : State) : State :=
  if s.mgmt.phase = .reset then s else
  let o := if s.mgmt.calValid then 0 else 5
  let tj (k : Fin 8) : Nat := hottest s t.skeins (4 * k.val) 4 (4 * k.val)
  let io := hottest s t.io 0 2 32
  let tb (k : Fin 8) : Nat := hottest s t.bases k.val 1 (34 + k.val)
  let p := s.pwr
  let hot (k : Fin 8) : Bool := decide (95 < tb k + o) || (p.distHot.getLsbD k.val && decide (90 ≤ tb k + o))
  let distHot := (List.finRange 8).foldl (fun b k => if hot k then b ||| (1#8 <<< k.val) else b) (0#8)
  let burns (k : Fin 8) : Bool := decide (100 < tb k + o) || (p.baseHot.getLsbD k.val && decide (95 ≤ tb k + o))
  let baseHot := (List.finRange 8).foldl (fun b k => if burns k then b ||| (1#8 <<< k.val) else b) (0#8)
  let ioHot := decide (105 < io + o) || (p.ioHot && decide (97 ≤ io + o))
  let s := s.setPwr { p with tj := vecOf 8 tj, tjIo := io, tBase := vecOf 8 tb, distHot, baseHot, ioHot }
  let cool (k : Fin 8) : Skein := if 105 < tj k + o ∨ 105 < io + o then { s.sk k with thermDiv := 24 } else s.sk k
  let s : State := { s with skeins := vecOf 8 cool }
  if s.sec.override ∧ (95 < io ∨ ((List.finRange 8).any fun k => decide (95 < tj k) || decide (95 < tb k)) = true) then
    stopAir (s.setSec { s.sec with override := false })
  else s

/-- The command THERMAL_THRESHOLD. -/
def execThermalThreshold (t : ThermIn) (s : State) : Res := .next (doThermalThreshold t s)

/-- THERMAL_STEP_TIMER: a skein above 100 °C steps down, one below 97 °C steps back up. -/
def doThermalStepTimer (k : Fin 8) (s : State) : State :=
  let o := if s.mgmt.calValid then 0 else 5
  let x := s.sk k
  let t := s.pwr.tj.get k + o
  if 100 < t then s.setSk k { x with thermDiv := stepDown x.thermDiv }
  else if t < 97 ∧ !s.pwr.ioHot then s.setSk k { x with thermDiv := stepUp x.thermDiv }
  else s

/-- The command THERMAL_STEP_TIMER (17 R473). -/
def execThermalStepTimer (k : Fin 8) (s : State) : Res := .next (doThermalStepTimer k s)

/-- THERMTRIP: THERMTRIP_N asserts and the device stops as for an airflow fault. The comparator is there before the firmware
runs, and RESET_N alone holds it off (17 R474, 19 R526). -/
def doThermtrip (s : State) : State :=
  if s.pwr.tripped ∨ !s.mgmt.resetN then s else
  let s := (stopAir (s.setPwr { s.pwr with tripped := true, tripHold := true })).say (.pin 0 false)
  if s.mgmt.phase = .reset then s else record s 0x0C none 0 0 [4]

/-- The command THERMTRIP (17 R474, 19 R526). -/
def execThermtrip (s : State) : Res := .next (doThermtrip s)

/-- AIR_FAULT_ASSERT: the line has been low for 2 µs; without an override the device stops. -/
def doAirFaultAssert (s : State) : State :=
  let s := s.setPwr { s.pwr with airLow := true }
  if s.sec.override then s else stopAir s

/-- The command AIR_FAULT_ASSERT (17 R475). -/
def execAirFaultAssert (s : State) : Res := .next (doAirFaultAssert s)

/-- AIR_FAULT_POWER_DOWN: the dies turn off but for the management domain and the ports of `WAKE_EN`. -/
def doAirFaultPowerDown (s : State) : State :=
  if !s.pwr.stopped ∨ s.pwr.dieOff then s else
  let s := diesOff (s.setPwr { s.pwr with dieOff := true })
  if s.pwr.tripHold then s else record s 0x0C none 0 0 [3]

/-- The command AIR_FAULT_POWER_DOWN (17 R475). -/
def execAirFaultPowerDown (s : State) : Res := .next (doAirFaultPowerDown s)

/-- AIR_FAULT_RISE: a short assertion was filtered; otherwise the line is high again and a running override
ends. -/
def doAirFaultRise (short : Bool) (s : State) : State :=
  if short ∨ !s.pwr.airLow then s else
  let ran := s.sec.override
  let s := (s.setSec { s.sec with override := false }).setPwr { s.pwr with airLow := false }
  if ran then stopAir s else s

/-- The command AIR_FAULT_RISE (17 R475, R477). -/
def execAirFaultRise (short : Bool) (s : State) : Res := .next (doAirFaultRise short s)

/-- AIR_FAULT_CLEAR: the line has been high for 1 s; the device resumes as after a warm reset. -/
def doAirFaultClear (s : State) : State :=
  if s.pwr.airLow ∨ !s.pwr.stopped ∨ s.pwr.tripHold then s else record (resumeAir s) 0x0C none 0 0 [5]

/-- The command AIR_FAULT_CLEAR (17 R476). -/
def execAirFaultClear (s : State) : Res := .next (doAirFaultClear s)

end Sys2Proof.Machine
end

