-- ==== Sys2Proof/Machine/Mgmt.lean ====
section
/-!
DEFINITION. Management (18, 19): resets and bring-up, firmware and trim, retiring and restoring units, fault
acknowledgement, the sideband and the held lines.
-/

namespace Sys2Proof.Machine

/-! ## Retiring and restoring units (18 R512 to R514) -/

/-- `UNIT` and `INDEX` of a unit. -/
def UnitRef.code (u : UnitRef) : Nat × Nat :=
  match u with
  | .spindle p => (1, p.val)
  | .flyer k f => (2, 4 * k.val + f.val)
  | .channel c => (3, c.val)
  | .port p => (5, p.val)
  | .other u i => (u, i)

/-- `UNIT` and `INDEX` as `UNIT_CTRL` shows them (00 R11). -/
def setUnit (s : State) (unit index : Nat) : State := s.setMgmt { s.mgmt with unit := { s.mgmt.unit with unit, index } }

/-- An order that starts or ends, as `UNIT_CTRL` shows it. -/
def setOrder (s : State) (u : UnitRef) (busy : Bool) (r : Status) : State :=
  let c := UnitRef.code u
  s.setMgmt { s.mgmt with unit := { unit := c.1, index := c.2, busy, result := r, runUnit := c.1, runIndex := c.2 } }

/-- The running order ends with a status. -/
def endOrder (s : State) (r : Status) : State :=
  s.setMgmt { s.mgmt with unit := { s.mgmt.unit with busy := false, result := r } }

def setFlyer (s : State) (k : Fin 8) (f : Fin 4) (y : Flyer) : State :=
  s.setSk k { s.sk k with fly := upd (s.sk k).fly f y }

/-- Whether a channel stands on the retire list: mapped out for a reason other than the loss of its stack. -/
def chanListed (m : Mem) (c : Fin 256) : Bool :=
  (m.chan.get c).st == .mappedOut && (m.chan.get c).cause != 6

/-- Whether a unit is on the retire list (log 60). -/
def listed (s : State) (u : UnitRef) : Bool :=
  match u with
  | .spindle p =>
    !(s.sk (skeinOf p)).healthy.getLsbD (localOf p).val &&
    !(s.sk (skeinOf p)).changes.contains (.join (localOf p))
  | .flyer k f => ((s.sk k).fly.get f).failed || ((s.sk k).fly.get f).retired
  | .channel c => chanListed s.mem c && !(s.mem.stack.get (stackOf c)).lost
  | .port p => (s.port p).failed || (s.port p).retired
  | .other _ _ => false

/-- A unit leaves service by order (18 R513). -/
def retireUnit (s : State) (u : UnitRef) : State :=
  match u with
  | .spindle p =>
    let k := skeinOf p
    let x := s.sk k
    if x.changes.contains (.join (localOf p)) then
      -- it has passed its self-test and not joined yet: it stays out (log 170)
      record (s.setSk k { x with changes := x.changes.filter fun c => c != .join (localOf p) }) 0x01 none 1 p.val [x.mapGen.toNat, 3]
    else if !x.healthy.getLsbD (localOf p).val || x.changes.contains (.leave (localOf p)) then s
    else settleMap (s.setSk k { x with changes := x.changes ++ [.leave (localOf p)] }) k
  | .flyer k f =>
    let y := (s.sk k).fly.get f
    if y.failed || y.retired then s
    else record (setFlyer s k f { y with retired := true }) 0x01 none 2 (4 * k.val + f.val) [(s.sk k).mapGen.toNat, 3]
  | .channel c => doMapOut c s
  | .port p =>
    if (s.port p).retired then s
    else
      let s := dropPort s p (if portExists s p then .down else .off)
      let s := settlePaths (s.setPort p { s.port p with retired := true, storm := false })
      record s 0x01 none 5 p.val [s.mem.memGen.toNat, 3]
  | .other _ _ => s

/-- RETIRE; while an order runs only `UNIT` and `INDEX` are set (18 R512). -/
def doRetire (u : UnitRef) (s : State) : State :=
  if s.mgmt.unit.busy then setUnit s (UnitRef.code u).1 (UnitRef.code u).2 else
  match u with
  | .other _ _ => setOrder s u false .refused
  | _ => setOrder (retireUnit s u) u false .ok

/-- The command RETIRE. -/
def execRetire (u : UnitRef) (s : State) : Res := .next (doRetire u s)

/-- RESTORE: the self-test of a listed unit starts; while an order runs only `UNIT` and `INDEX` are set (18 R512). -/
def doRestore (u : UnitRef) (s : State) : State :=
  if s.mgmt.unit.busy then setUnit s (UnitRef.code u).1 (UnitRef.code u).2
  else if !listed s u then setOrder s u false .refused
  else
    let s := setOrder s u true s.mgmt.unit.result
    match u with
    | .channel c => s.setMem (s.mem.setChan c { s.mem.chan.get c with st := .restoring })
    | _ => s

/-- The command RESTORE. -/
def execRestore (u : UnitRef) (s : State) : Res := .next (doRestore u s)

/-- The unit that a unit code and an index name. -/
def unitNamed (unit index : Nat) : UnitRef :=
  if h : unit = 1 ∧ index < 136 then .spindle ⟨index, h.2⟩
  else if h : unit = 2 ∧ index < 32 then .flyer ⟨index / 4, by omega⟩ ⟨index % 4, by omega⟩
  else if h : unit = 3 ∧ index < 256 then .channel ⟨index, h.2⟩
  else if h : unit = 5 ∧ index < 32 then .port ⟨index, h.2⟩
  else .other unit index

/-- A unit that has passed its self-test joins (18 R514). A channel waits for CHANNEL_RESTORE_JOIN. -/
def joinUnit (s : State) (u : UnitRef) : State :=
  match u with
  | .spindle p =>
    let k := skeinOf p
    let s := s.setSp p { clk := (s.sp p).clk }
    settleMap (s.setSk k { s.sk k with changes := (s.sk k).changes ++ [.join (localOf p)] }) k
  | .flyer k f =>
    let s := setFlyer s k f { (s.sk k).fly.get f with failed := false, retired := false }
    s.setSk k (feedAll (s.sk k))
  | .port p => retrain (s.setPort p { s.port p with failed := false, retired := false }) p
  | _ => s

/-- RESTORE_SELFTEST_DONE: with its scrub, the self-test ends. -/
def doRestoreSelftestDone (pass : Bool) (s : State) : State :=
  let o := s.mgmt.unit
  if !o.busy then s else
  let u := unitNamed o.runUnit o.runIndex
  if pass then joinUnit (endOrder s .ok) u
  else
    let s := endOrder s .faulted
    let s := match u with
      | .channel c => s.setMem (s.mem.setChan c { s.mem.chan.get c with st := .mappedOut })
      | _ => s
    record s 0x0D none o.runUnit o.runIndex [8]

/-- The command RESTORE_SELFTEST_DONE. -/
def execRestoreSelftestDone (pass : Bool) (s : State) : Res := .next (doRestoreSelftestDone pass s)

/-- FAULT_ACK: a record whose first word is the expected one closes, unless it is of a page fault (18 R508). -/
def doFaultAck (slot : Fin 256) (s : State) : State :=
  match s.mgmt.faults.find? fun r => r.slot = slot.val with
  | some r => if !r.isPage && r.words.getD 0 0 == s.mgmt.ackWord then closeRecord s slot.val else s
  | none => s

/-- The command FAULT_ACK. -/
def execFaultAck (slot : Fin 256) (s : State) : Res := .next (doFaultAck slot s)

/-! ## Firmware (18 R484, R486, R487) -/

/-- What holds against a delivered image (18 R486). -/
def imageStatus (m : Mgmt) (img : List Byte) : Status :=
  if m.fwLen = 0 ∨ 0x1000000 < m.fwLen ∨ m.fwLen < Config.imageLen img ∨ !Config.imageHashes img then .format
  else if !Config.imageSigned img then .refused
  else if Config.imageSvn img < m.minSvn then .staleGeneration
  else .ok

/-- The slot that does not run: 0 is A, 1 is B. -/
def otherSlot (m : Mgmt) : Fin 2 := if m.slot then 0 else 1

/-- A staging ends with a status and its record. -/
def endStage (s : State) (st : Status) : State :=
  record (s.setMgmt { s.mgmt with fwStage := none, fwRes := st, marked := st == .ok }) 0x0D (some st) 12 0 [9, st.code]

/-- FW_STAGE: ignored while a staging runs. The write of the inactive slot begins, and until it has ended that slot holds no image. -/
def doFwStage (s : State) : State :=
  let m := s.mgmt
  if m.fwStage.isSome then s else
  let img := cellsRead m.win fwArea (min m.fwLen 0x1000000)
  let st := imageStatus m img
  if st = .ok then s.setMgmt { m with fwStage := some img, marked := false, flash := upd m.flash (otherSlot m) .torn }
  else record (s.setMgmt { m with fwRes := st }) 0x0D (some st) 12 0 [9, st.code]

/-- The command FW_STAGE. -/
def execFwStage (s : State) : Res := .next (doFwStage s)

/-- An image as the device writes it to a slot: its segments encrypted under the FIRMWARE key of its security version (18 R486). -/
def slotWith (img : List Byte) : FlashSlot := .image img (firmwareKey (Config.imageSvn img))

/-- FW_STAGE_DONE: `same` where the flash reads back as written. -/
def doFwStageDone (same : Bool) (s : State) : State :=
  match s.mgmt.fwStage with
  | none => s
  | some img =>
    let s := if same then s.setMgmt { s.mgmt with flash := upd s.mgmt.flash (otherSlot s.mgmt) (slotWith img) } else s
    endStage s (if same then .ok else .faulted)

/-- The command FW_STAGE_DONE. -/
def execFwStageDone (same : Bool) (s : State) : Res := .next (doFwStageDone same s)

/-- FW_CONFIRM. -/
def doFwConfirm (s : State) : State :=
  let m := s.mgmt
  if m.phase ≠ .full then s.setMgmt { m with fwRes := .refused }
  else if m.svn ≤ m.minSvn then s.setMgmt { m with fwRes := .ok }
  else record (s.setMgmt { m with fwRes := .ok, minSvn := min 255 m.svn }) 0x0D (some .ok) 12 0 [10]

/-- The command FW_CONFIRM. -/
def execFwConfirm (s : State) : Res := .next (doFwConfirm s)

/-- FW_CANCEL. -/
def doFwCancel (s : State) : State := s.setMgmt { s.mgmt with marked := false, fwRes := .ok }

/-- The command FW_CANCEL. -/
def execFwCancel (s : State) : Res := .next (doFwCancel s)

/-! ## The trim table (18 R493 to R497) -/

def trimStage : Nat := 0x80A0000
def trailerStage : Nat := 0x80B0000

/-- Sensors of the junctions and base dies: four of each skein, two of the I/O die, one of each base die (17 R473). -/
def sensorCount : Nat := 42

/-- Whether a table is one that the device can use: version, CRC-64, gains from 0.5 to 2.0, offsets within 10 °C (18 R495). -/
def trimSound (t : List Byte) : Bool :=
  Config.trimSupported (Config.trimVersion t) && Config.trimCrc t == crc64 (Config.trimCovered t) &&
  (List.range 7).all (fun r => decide (500 ≤ Config.trimGain t r + 1) && decide (Config.trimGain t r + 1 ≤ 2000)) &&
  (List.range sensorCount).all fun i => decide (-100 ≤ Config.trimOffset t i) && decide (Config.trimOffset t i ≤ 100)

/-- What holds against a staged table (18 R495). -/
def trimStatus (s : State) (table : List Byte) : Status :=
  if s.sec.tenancyOn then .refused
  else if Config.trimFuse table ≠ Config.fuseId then .refused
  else if !trimSound table then .format
  else .ok

/-- The place of the copy of the trim table that is not in use. -/
def otherTrim (m : Mgmt) : Fin 2 := if m.trimB then 0 else 1

/-- TRIM_WRITE: ignored while a write runs. The copy not in use is written, and holds no whole table until that has ended. -/
def doTrimWrite (s : State) : State :=
  let m := s.mgmt
  if m.trimBusy then s else
  let table := cellsRead m.win trimStage 65536
  let st := trimStatus s table
  if st = .ok then
    s.setMgmt { m with
      trimBusy := true, trims := upd m.trims (otherTrim m) .torn
      trimNew := some (table, cellsRead m.win trailerStage 128 == trailerOf table) }
  else s.setMgmt { m with trimRes := st }

/-- The command TRIM_WRITE. -/
def execTrimWrite (s : State) : Res := .next (doTrimWrite s)

/-- TRIM_WRITE_DONE: the new copy is in use; the estimators start from its gains. -/
def doTrimWriteDone (s : State) : State :=
  match s.mgmt.trimNew with
  | none => s
  | some (t, factory) =>
    let m := s.mgmt
    let s := s.setMgmt { m with
      trims := upd m.trims (otherTrim m) (.table t factory), trimB := !m.trimB
      trimNew := none, trimBusy := false, trimRes := .ok, calValid := true, calFactory := factory }
    let s := s.setPwr { s.pwr with rails := s.pwr.rails.map fun r => { r with gain := 0 } }
    record s 0x0D none 13 0 [4]

/-- The command TRIM_WRITE_DONE. -/
def execTrimWriteDone (s : State) : Res := .next (doTrimWriteDone s)

/-- Whether a copy passes its CRC and `FUSE_ID` (18 R496). -/
def TrimCopy.good (x : TrimCopy) : Bool :=
  match x with
  | .made => true
  | .torn => false
  | .table t _ => Config.trimFuse t == Config.fuseId && Config.trimCrc t == crc64 (Config.trimCovered t)

/-- Whether a copy holds the factory values (18 R496). -/
def TrimCopy.isFactory (x : TrimCopy) : Bool :=
  match x with
  | .made => true
  | .torn => false
  | .table _ f => f

/-- The trim store as the firmware finds it, the copies marked in `lost` gone: the copy last in use is used where it is good,
else the other (18 R495, R496, R497). -/
def bootTrim (m : Mgmt) (lost : BitVec 2) : Mgmt :=
  let m := { m with trims := vecOf 2 fun i => if lost.getLsbD i.val then .torn else m.trims.get i }
  let m := if (trimCopy m).good then m else if (m.trims.get (otherTrim m)).good then { m with trimB := !m.trimB } else m
  { m with calValid := (trimCopy m).good, calFactory := (trimCopy m).good && (trimCopy m).isFactory }

/-! ## Management restart (18 R481, R482) -/

/-- A management restart begins: SPDM sessions end and their strands close; the staging area is cleared. -/
def restartMgmt (s : State) : State :=
  match s.mgmt.phase with
  | .reset => s
  | _ =>
    let s := clearFwArea (dropSessions s (fun _ => true) .interrupted)
    s.setMgmt { s.mgmt with restarting := true }

/-- MGMT: the order of `RESET_CTRL`. -/
def execMgmtRestart (s : State) : Res := .next (restartMgmt s)

/-- MGMT_WATCHDOG_EXPIRY: 1 s without a heartbeat. -/
def execMgmtWatchdogExpiry (s : State) : Res := .next (restartMgmt s)

/-- MGMT_RESTART_END. -/
def doMgmtRestartEnd (s : State) : State := s.setMgmt { s.mgmt with restarting := false }

/-- The command MGMT_RESTART_END. -/
def execMgmtRestartEnd (s : State) : Res := .next (doMgmtRestartEnd s)

/-! ## Cold reset and bring-up (18 R481, R482, R484, R488 to R490; 19 R519, R530) -/

/-- Whether a tenancy is recorded as in force when a cold reset comes (16 R444). -/
def tenancyOpen (x : Sec) : Bool :=
  x.stale ||
  match x.phase with
  | .none => x.tenancyOn
  | .starting => !x.ctrDue
  | .draining => true
  | .scrubbing => x.ctrDue

/-- A skein across a cold reset: its map and its retired units stay (18 R482). -/
def Skein.afterCold (k : Skein) : Skein :=
  let k := k.changes.foldl (fun k c => match c with
    | .leave l => k.lose l
    | .join l => k.gain l) k
  { phys := k.phys, healthy := k.healthy, spare := k.spare, mapGen := k.mapGen
    fly := k.fly.map fun y => { failed := y.failed, retired := y.retired } }

/-- A channel across a cold reset: one on the retire list stays out. -/
def Chan.afterCold (x : Chan) : Chan :=
  if (x.st = .mappedOut ∨ x.st = .draining ∨ x.st = .restoring) ∧ x.cause ≠ 6 then { st := .mappedOut, cause := x.cause }
  else {}

/-- A cold reset: everything is as after power-on but for what non-volatile memory and the pins hold, and the
commands that wait. Memory contents are lost (16 R433). -/
def coldReset (s : State) (resetN : Bool) : State :=
  let fresh := some s.free
  let stack (x : Stack) : Stack := { distFailed := x.distFailed }
  let port (y : Port) : Port := { failed := y.failed, retired := y.retired }
  let sec : Sec := { stale := tenancyOpen s.sec, ctr := s.sec.ctr, opKey := s.sec.opKey, leaseEpoch := s.sec.leaseEpoch
                     wakeCtr := s.sec.wakeCtr, trst := s.sec.trst, tapNow := s.sec.tapNow, tapCells := s.sec.tapCells }
  let m := s.mgmt
  let mgmt : Mgmt := { minSvn := m.minSvn, lastB := m.lastB, marked := m.marked, flash := m.flash, trims := m.trims
                       trimB := m.trimB, calValid := m.calValid, calFactory := m.calFactory, testEn := m.testEn, resetN
                       railsOk := resetN, resetAt := s.now, coldAt := s.now }
  { skeins := s.skeins.map Skein.afterCold
    mem := { stack := s.mem.stack.map stack, chan := s.mem.chan.map Chan.afterCold
             base := [(ilBase, 0x18000000000, fresh)] }
    twine := { nonce := Config.bootNonce s.free }
    eth := { ports := s.eth.ports.map port }
    sec, mgmt
    pwr := { airLow := s.pwr.airLow, stopped := s.pwr.airLow }
    out := s.out, now := s.now, free := s.free + 1, pending := s.pending }

/-- COLD_RESET: RESET_N low for 10 µs. -/
def execColdReset (s : State) : Res := .next (coldReset s false)

/-- TEST_EN_HIGH: the device is held exactly as when RESET_N is low (19 R519). -/
def doTestEnHigh (s : State) : State := coldReset (s.setMgmt { s.mgmt with testEn := true }) false

/-- The command TEST_EN_HIGH. -/
def execTestEnHigh (s : State) : Res := .next (doTestEnHigh s)

/-- PACKAGE_POWER_LOSS: work accepted and not completed may be lost; a cold boot follows the return (12 R337), with the levels
of the pins as RESET_N_RISE then says, and the TAP reset. -/
def doPackagePowerLoss (s : State) : State :=
  let s := coldReset (s.setMgmt { s.mgmt with testEn := false }) false
  s.setSec { s.sec.tapReset with trst := false, tapCells := 0 }

/-- The command PACKAGE_POWER_LOSS. -/
def execPackagePowerLoss (s : State) : Res := .next (doPackagePowerLoss s)

/-- RESET_N_RISE: RESET_N is high; the whorl locks if the reference is there; the supply monitors hold the device in reset until
every rail has been in range for 1 ms, and TEST_EN while it is high (19 R519, R530). -/
def doResetNRise (g : PowerGood) (s : State) : State :=
  if s.mgmt.phase ≠ .reset ∨ s.mgmt.resetN then s
  else s.setMgmt { s.mgmt with
    resetN := true, clockLost := !g.refclk, railsOk := g.rails, testEn := g.testEn, resetAt := s.now, coldAt := s.now }

/-- The command RESET_N_RISE (18 R488, 19 R530). -/
def execResetNRise (g : PowerGood) (s : State) : Res := .next (doResetNRise g s)

/-- Whether a device out of RESET_N is held in reset. -/
def heldInReset (m : Mgmt) : Bool := m.clockLost || !m.railsOk || m.testEn

/-- WHORL_LOCK_RETRY: every 10 ms while the device is held in reset, for want of the reference or otherwise, the levels are
looked at again. -/
def doWhorlLockRetry (g : PowerGood) (s : State) : State :=
  if s.mgmt.phase = .reset ∧ s.mgmt.resetN ∧ heldInReset s.mgmt then
    s.setMgmt { s.mgmt with clockLost := !g.refclk, railsOk := g.rails, testEn := g.testEn }
  else s

/-- The command WHORL_LOCK_RETRY (19 R530). -/
def execWhorlLockRetry (g : PowerGood) (s : State) : Res := .next (doWhorlLockRetry g s)

/-- The phase of bring-up, whether or not the device is stopped in it. -/
def bootPhase (s : State) : Boot := if s.mgmt.phase = .stopped then s.mgmt.resume else s.mgmt.phase

/-- A tenancy that the last cold reset ended is recorded as ended (16 R444). -/
def closeStale (s : State) : State :=
  if !s.sec.stale then s
  else authRecord (s.setSec { s.sec with stale := false, ctr := s.sec.ctr + 1 }) 0x02 0 .ok

/-- The Twine engine as the configuration block sets it: values out of their ranges are left at their resets (14 R395, log 7). -/
def bootTwine (t : Twine) (c : BoardCfg) : Twine :=
  let t := match c.twine with
    | some w => if twineRanges w.toNat then t.configured w.toNat else t
    | none => t
  let g (i : Fin 8) : GroupAddr :=
    let a := c.addrs.getD i.val (none, none)
    { v4 := a.1.getD 0, v4en := a.1.isSome, v6 := a.2.getD 0, v6en := a.2.isSome }
  if groupsOk g then { t with groups := vecOf 8 g } else t

/-- The board's settings taken from the configuration block, or the stated defaults without regulator readings (18 R485). -/
def bootConfig (s : State) (cfg : Option BoardCfg) : State :=
  match cfg with
  | none => s.setPwr { s.pwr with rails := s.pwr.rails.map fun r => { r with missing := true } }
  | some c =>
    let port (p : Fin 32) : Port := { s.port p with cfg := { (s.port p).cfg with pmd := c.pmd.getD p.val 1 } }
    let wakeEn := if wakeEnOk c.mode c.wakeEn then c.wakeEn else s.eth.wakeEn
    let s := s.setMem { s.mem with bifur := c.bifur }
    let s := s.setMgmt { s.mgmt with sbAddr := c.sbAddr }
    let s := s.setPwr { s.pwr with pmbus := c.pmbus, avs := c.avs }
    { s with
      eth := { s.eth with mode := c.mode, ports := vecOf 32 port, wakeEn }
      twine := bootTwine s.twine c
      sec := { s.sec with scrubMode := c.scrub } }

/-- The firmware runs: phase MGMT; the security controller is up; the board's settings are taken; ports and CXL links begin
to train, their expanders out of reset (19 R524). -/
def runFirmware (s : State) (slotB fallback : Bool) (cfg : Option BoardCfg) (image : List Byte) : State :=
  let s := s.setMgmt { s.mgmt with
    phase := .mgmt, slot := slotB, lastB := slotB, fallback, cfgDefault := cfg.isNone, marked := false,
    fwHash := Config.sha384 image, svn := Config.imageSvn image, fwVersion := Config.imageVersion image }
  let s := s.setMem { s.mem with far := s.mem.far.map fun x => { x with link := .training, perst := false } }
  let s := bumpKey s 2 .loaded (some (firmwareKey s.mgmt.svn))
  let s := bumpKey s 3 .loaded (some (journalKey s.twine.nonce))
  let s := closeStale (bootConfig s cfg)
  let s := if fallback then record s 0x0D none 12 0 [1] else s
  let s := if cfg.isNone then record s 0x0D none 12 0 [2] else s
  let s := if s.mgmt.calValid then s else record s 0x0D none 13 0 [3]
  startPorts s

/-- Whether a slot boots: its signature holds, its security version is not below the fused minimum, its segments have their
hashes (18 R484). -/
def slotBoots (m : Mgmt) (image : List Byte) : Bool :=
  Config.imageHashes image && Config.imageSigned image && decide (m.minSvn ≤ Config.imageSvn image)

/-- The image that a slot holds, where its segments decrypt under the FIRMWARE key of its security version (18 R483). -/
def slotImage (m : Mgmt) (b : Bool) : Option (List Byte) :=
  match m.flash.get (if b then 1 else 0) with
  | .made => some (Config.factoryImage b)
  | .torn => none
  | .image img key => if key = firmwareKey (Config.imageSvn img) then some img else none

/-- The image of a slot, if it boots; one in `misread` does not read back from the flash (18 R484). -/
def bootable (m : Mgmt) (misread : BitVec 2) (b : Bool) : Option (List Byte) :=
  if misread.getLsbD b.toNat then none else (slotImage m b).filter (slotBoots m)

/-- The slot that boots, whether it is the second one tried, and its image: the marked slot is tried first, with no mark the
one that ran last (18 R484, R487). -/
def bootSlot (m : Mgmt) (misread : BitVec 2) : Option (Bool × Bool × List Byte) :=
  let first := m.lastB != m.marked
  match bootable m misread first with
  | some img => some (first, false, img)
  | none => (bootable m misread !first).map fun img => (!first, true, img)

/-- The board settings: those of the first copy whose CRC-32C holds (18 R485). -/
def bootCopy (copies : List CfgCopy) : Option BoardCfg :=
  (copies.find? fun x => x.crc == crc32c (Config.cfgBytes x.cfg)).map (·.cfg)

/-- Whether the boot ROM runs: out of reset, with the reference locked, the rails in range and TEST_EN low (19 R519, R530). -/
def romRuns (m : Mgmt) : Bool := m.phase == .reset && m.resetN && !heldInReset m

/-- The boot ROM has read both slots: the firmware runs, or neither boots and the device is in RECOVERY (18 R484, R507). -/
def bootFirmware (s : State) (misread : BitVec 2) (copies : List CfgCopy) (trimLost : BitVec 2) : State :=
  if !romRuns s.mgmt then s else
  match bootSlot s.mgmt misread with
  | some (b, fallback, img) => runFirmware (s.setMgmt (bootTrim s.mgmt trimLost)) b fallback (bootCopy copies) img
  | none => s.setMgmt { s.mgmt with phase := .recovery }

/-- Whether a part's turn in bring-up has come: stacks 0 and 1 and skein 0 come first, the others and the far tier in warm-up
service (18 R488). -/
def bootTurn (s : State) (early : Bool) : Bool := bootPhase s == .warmup || (early && bootPhase s == .mgmt)

/-- A stack has trained with the channels that pass, or is lost as a whole (18 R490). -/
def bootStack (s : State) (k : Fin 8) (channels : BitVec 32) : State :=
  let y := s.mem.stack.get k
  if y.trained || y.lost || !bootTurn s (decide (k.val < 2)) then s else
  let mine := (List.finRange 32).map (chanOf k)
  let good (c : Fin 256) : Bool := !chanListed s.mem c && channels.getLsbD (c.val % 32)
  let bad := mine.filter fun c => !chanListed s.mem c && !channels.getLsbD (c.val % 32)
  let n := (mine.filter good).length
  if n = 0 then
    let own (c : Fin 256) : Option Nat := if chanListed s.mem c then some (s.mem.chan.get c).cause else none
    let chan (c : Fin 256) : Chan := if stackOf c = k then (s.mem.chan.get c).gone (own c) else s.mem.chan.get c
    let s := s.setMem { s.mem.setStack k { y with lost := true } with chan := vecOf 256 chan }
    loseMirror (memPartRecord s 4 k.val 1) k
  else
    let chan (c : Fin 256) : Chan :=
      if stackOf c ≠ k then s.mem.chan.get c
      else if good c then { s.mem.chan.get c with st := .inService }
      else if chanListed s.mem c then s.mem.chan.get c
      else { s.mem.chan.get c with st := .mappedOut, cause := 3 }
    -- in warm-up only stacks 0 and 1 are in service (09 R233)
    let s := s.setMem ({ s.mem.setStack k { y with trained := true, up := decide (k.val < 2), channels := n } with
      chan := vecOf 256 chan }.resized)
    let s := s.setMgmt { s.mgmt with stacksUp := s.mgmt.stacksUp ||| (1#8 <<< k.val) }
    bad.foldl (fun s c => memPartRecord s 3 c.val 1) s

/-- A skein has been self-tested: spindles and flyers that fail are retired (18 R490). -/
def bootSkein (s : State) (k : Fin 8) (spindles : BitVec 17) (flyers : BitVec 4) : State :=
  if s.mgmt.skeinsUp.getLsbD k.val || !bootTurn s (k == 0) then s else
  let s := s.setMgmt { s.mgmt with skeinsUp := s.mgmt.skeinsUp ||| (1#8 <<< k.val) }
  let s := (List.finRange 17).foldl (fun s l =>
    if (s.sk k).healthy.getLsbD l.val && !spindles.getLsbD l.val then
      let s := s.setSk k ((s.sk k).lose l)
      record s 0x01 none 1 (physOf k l).val [(s.sk k).mapGen.toNat, 1]
    else s) s
  (List.finRange 4).foldl (fun s f =>
    let y := (s.sk k).fly.get f
    if !(y.failed || y.retired) && !flyers.getLsbD f.val then
      record (setFlyer s k f { y with retired := true }) 0x01 none 2 (4 * k.val + f.val) [(s.sk k).mapGen.toNat, 1]
    else s) s

/-- `CXL_CLKOUT` of a link on which no expander has been enumerated is turned off; its pin is number 1 + `i` of the
model's record (19 R522). -/
def clockOut (s : State) (i : Fin 2) : State :=
  let x := s.mem.far.get i
  if x.clkOut && x.gib == 0 then (s.setMem (s.mem.setFar i { x with clkOut := false })).say (.pin (1 + i.val) false) else s

/-- An expander's link has been trained in bring-up and its expander enumerated, of no size where there is none (09 R252).
After a warm reset the contents are kept where the board has kept the same expander powered. -/
def enumerate (s : State) (i : Fin 2) (gib : Nat) (kept : Bool) : State :=
  let x := s.mem.far.get i
  if !(x.link == .training || (x.link == .down && !s.mgmt.cxlDone)) then s else
  let y := { x with link := if gib = 0 then .down else .up, gib, mapped := gib != 0 }
  if s.mgmt.warmBoot && kept && x.gib == gib && gib != 0 then s.setMem (s.mem.setFar i y)
  else { s.setMem (s.mem.freshFar i s.free y) with free := s.free + 1 }

/-- The far tier has been enumerated (09 R250, R252); the second link is there where the port is bifurcated. -/
def bootCxl (s : State) (gib0 gib1 : Nat) (kept : BitVec 2) : State :=
  let s := enumerate s 0 gib0 (kept.getLsbD 0)
  let s := enumerate s 1 (if s.mem.bifur then gib1 else 0) (kept.getLsbD 1)
  let s := s.setMgmt { s.mgmt with cxlDone := true }
  clockOut (clockOut s 0) 1

/-- Whether stacks 0 and 1 and skein 0 let warm-up service begin (18 R488). -/
def warmReady (s : State) : Bool :=
  let done (k : Fin 8) : Bool := (s.mem.stack.get k).trained || (s.mem.stack.get k).lost
  bootPhase s == .mgmt && !s.mgmt.warming && done 0 && done 1 && s.mgmt.skeinsUp.getLsbD 0

/-- BRINGUP_PHASE_ADVANCE. -/
def doBringupPhaseAdvance (e : Boots) (s : State) : State :=
  let s := match e with
    | .firmware misread copies lost => bootFirmware s misread copies lost
    | .recovery => if romRuns s.mgmt then s.setMgmt { s.mgmt with phase := .recovery } else s
    | .stack k c => bootStack s k c
    | .skein k p f => bootSkein s k p f
    | .cxl a b kept => if bootTurn s false then bootCxl s a b kept else s
  if warmReady s then enterPhase s .warmup else s

/-- The command BRINGUP_PHASE_ADVANCE (18 R484, R488, R490). -/
def execBringupPhaseAdvance (e : Boots) (s : State) : Res := .next (doBringupPhaseAdvance e s)

/-- At full service the moves of a MIGRATABLE descriptor that have not started use the flyers of 01 R28 (12 R335). -/
def rehome (s : State) : State :=
  let moves (m : Move) : Bool := match m.origin with
    | .desc q seq => match descOf s q seq with
      | some d => hdrMigratable d.raw && d.warm
      | none => false
    | .instr _ _ => false
  let go := ((List.finRange 8).flatMap fun k => (s.sk k).fq).filter moves
  let s : State := { s with skeins := s.skeins.map fun k => { k with fq := k.fq.filter fun m => !moves m } }
  go.foldl (fun s m =>
    let k := moveSkein s m
    s.setSk k (feed { s.sk k with fq := (s.sk k).fq ++ [m] })) s

/-- The interleave of full service: that of before the warm reset, or all stacks once all have trained; none after the loss of
a stack until `REBUILD` (09 R233, R243). -/
def fullInterleave (m : Mem) : List (Fin 8) :=
  if m.ilKept ≠ [] then m.ilKept
  else if m.stack.toList.all (fun y => y.trained && !y.lost) then List.finRange 8 else []

/-- Whether bring-up is done: every stack has trained or is lost, every skein is tested, the far tier is enumerated
(18 R488, R490). -/
def fullReady (s : State) : Bool :=
  bootPhase s == .warmup && !s.mgmt.warming && s.mgmt.skeinsUp == 0xFF && s.mgmt.cxlDone &&
  s.mem.stack.toList.all fun y => y.trained || y.lost

/-- FULL_SERVICE: the interleave is mapped (09 R233), and the interrupted work of tenant queues is finished (18 R491). -/
def doFullService (s : State) : State :=
  if !fullReady s then s else
  let m := s.mem
  let il := fullInterleave m
  let stack := m.stack.map fun (y : Stack) => { y with up := y.trained && !y.lost }
  let m := { m with stack, il, ilKept := [] }
  let s := enterPhase (clockOut (clockOut (s.setMem (if il = [] then m else m.resized)) 0) 1) .full
  let s := if m.rebuildDue then rebuildNow (s.setMem { s.mem with rebuildDue := false }) else s
  finishWork (boundaries (rehome s) (List.finRange 136))

/-- The command FULL_SERVICE (09 R233, 18 R488, R490). -/
def execFullService (s : State) : Res := .next (doFullService s)

/-! ## The sideband (18 R501 to R505, R507) -/

/-- Whether the sideband answers. -/
def sbServes (s : State) : Bool := s.mgmt.phase != .reset && !s.mgmt.restarting

/-- A sideband transaction: unanswered while the management domain is off or restarts; a wrong PEC gives NACK and
changes nothing. -/
def sideband (code : Nat) (pec : Bool) (s : State) (f : State → State) : State :=
  if !sbServes s then s else if !pec then s.say (.nack code) else f s

/-- `PHASE` as a code (18 R492). -/
def Boot.code (b : Boot) : Nat :=
  match b with
  | .reset => 0
  | .mgmt => 1
  | .warmup => 2
  | .full => 3
  | .stopped => 4
  | .recovery => 5

def PState.code (p : PState) : Nat :=
  match p with
  | .p0 => 0
  | .p1 => 1
  | .p2 => 2
  | .p3 => 3
  | .p4 => 4

/-- The word of SB_STATUS. -/
def sbStatusWord (s : State) : Nat :=
  fld s.mgmt.phase.code 0 3 + fld s.pwr.pstate.code 3 3 + fld (b2n s.pwr.stopped) 6 1 + fld (b2n s.pwr.airLow) 7 1 +
    fld (b2n s.pwr.tripped) 8 1 + fld (b2n s.sec.tenancyOn) 9 1 + fld (b2n s.mgmt.calValid) 10 1 +
    fld (b2n (s.mgmt.run && !s.mgmt.stop)) 11 1

def maxList (l : List Nat) : Nat := l.foldl max 0

/-- Hottest base die, and hottest junction of the skeins, the I/O die and the base dies (17 R473, R478). -/
def stackMax (s : State) : Nat := maxList s.pwr.tBase.toList
def tjMax (s : State) : Nat := max (max (maxList s.pwr.tj.toList) s.pwr.tjIo) (stackMax s)

/-- SB_ID. -/
def doSbId (pec : Bool) (s : State) : State :=
  sideband 0x00 pec s fun s => s.say (.sideband 0x00 [Config.fuseId.toNat, s.mgmt.fwVersion.toNat])
/-- SB_STATUS. -/
def doSbStatus (pec : Bool) (s : State) : State := sideband 0x01 pec s fun s => s.say (.sideband 0x01 [sbStatusWord s])
/-- SB_POWER. -/
def doSbPower (pec : Bool) (s : State) : State := sideband 0x02 pec s fun s => s.say (.sideband 0x02 [s.pwr.pkgW])
/-- SB_TEMP. -/
def doSbTemp (pec : Bool) (s : State) : State :=
  sideband 0x03 pec s fun s => s.say (.sideband 0x03 [s.pwr.inlet, tjMax s, stackMax s])

/-- The command SB_ID. -/
def execSbId (pec : Bool) (s : State) : Res := .next (doSbId pec s)
/-- The command SB_STATUS. -/
def execSbStatus (pec : Bool) (s : State) : Res := .next (doSbStatus pec s)
/-- The command SB_POWER. -/
def execSbPower (pec : Bool) (s : State) : Res := .next (doSbPower pec s)
/-- The command SB_TEMP. -/
def execSbTemp (pec : Bool) (s : State) : Res := .next (doSbTemp pec s)

/-- SB_CAP: 200 to 850 W; another value is answered with NACK. A lowered cap ends a burst (17 R462). -/
def doSbCap (pec : Bool) (w : Option (BitVec 16)) (s : State) : State :=
  sideband 0x10 pec s fun s =>
    match w with
    | none => s.say (.sideband 0x10 [s.pwr.boardCap])
    | some v =>
      let c := v.toNat
      if 200 ≤ c ∧ c ≤ 850 then
        let s := if c < s.pwr.boardCap then endBurst s else s
        (s.setPwr { s.pwr with boardCap := c }).say (.sideband 0x10 [])
      else s.say (.nack 0x10)

/-- The command SB_CAP. -/
def execSbCap (pec : Bool) (w : Option (BitVec 16)) (s : State) : Res := .next (doSbCap pec w s)

/-- SB_RUN: 0 STOP, 1 RUN. -/
def doSbRun (pec : Bool) (w : Option (BitVec 8)) (s : State) : State :=
  sideband 0x11 pec s fun s =>
    match w with
    | none => s.say (.sideband 0x11 [b2n s.mgmt.run])
    | some v =>
      if v.toNat ≤ 1 then settleRun ((s.setMgmt { s.mgmt with run := v == 1 }).say (.sideband 0x11 [])) else s.say (.nack 0x11)

/-- The command SB_RUN (18 R504). -/
def execSbRun (pec : Bool) (w : Option (BitVec 8)) (s : State) : Res := .next (doSbRun pec w s)

/-- SB_WAKE: 1 wakes the device from P3 or P4. -/
def doSbWake (pec : Bool) (v : BitVec 8) (s : State) : State :=
  sideband 0x12 pec s fun s =>
    let s := s.say (.sideband 0x12 [])
    if v = 1 then startExit s else s

/-- The command SB_WAKE. -/
def execSbWake (pec : Bool) (v : BitVec 8) (s : State) : Res := .next (doSbWake pec v s)

/-- SB_WARM_RESET: 0xA5 starts a warm reset, performed once with one under way. -/
def doSbWarmReset (pec : Bool) (v : BitVec 8) (s : State) : State :=
  sideband 0x13 pec s fun s =>
    let s := s.say (.sideband 0x13 [])
    if v = 0xA5 then doWarm s else s

/-- The command SB_WARM_RESET. -/
def execSbWarmReset (pec : Bool) (v : BitVec 8) (s : State) : Res := .next (doSbWarmReset pec v s)

/-- SB_MGMT_RESTART: 0x5A starts a management restart. -/
def doSbMgmtRestart (pec : Bool) (v : BitVec 8) (s : State) : State :=
  sideband 0x14 pec s fun s =>
    let s := s.say (.sideband 0x14 [])
    if v = 0x5A then restartMgmt s else s

/-- The command SB_MGMT_RESTART. -/
def execSbMgmtRestart (pec : Bool) (v : BitVec 8) (s : State) : Res := .next (doSbMgmtRestart pec v s)

/-- The record SB_FAULT reads: the newest of kind 0x01, 0x0C, 0x0D or 0x0E; zeros where there is none. -/
def sbRecord (s : State) : List Word :=
  match s.mgmt.faults.reverse.find? fun r => [0x01, 0x0C, 0x0D, 0x0E].contains (recKind r.words) with
  | some r => r.words
  | none => List.replicate 8 0

/-- SB_FAULT. -/
def doSbFault (pec : Bool) (s : State) : State :=
  sideband 0x20 pec s fun s => s.say (.sideband 0x20 ((sbRecord s).map (·.toNat)))

/-- The command SB_FAULT. -/
def execSbFault (pec : Bool) (s : State) : Res := .next (doSbFault pec s)

/-- SB_EVENTS: read, or each 1 written clears its bit. -/
def doSbEvents (pec : Bool) (w : Option (BitVec 16)) (s : State) : State :=
  sideband 0x21 pec s fun s =>
    match w with
    | none => s.say (.sideband 0x21 [s.mgmt.sbEvents.toNat])
    | some v => (s.setMgmt { s.mgmt with sbEvents := s.mgmt.sbEvents &&& ~~~(v.setWidth 3) }).say (.sideband 0x21 [])

/-- The command SB_EVENTS. -/
def execSbEvents (pec : Bool) (w : Option (BitVec 16)) (s : State) : Res := .next (doSbEvents pec w s)

/-- SB_RECOVERY: image data in order from offset 0. With the manifest's last segment the device verifies the
image, stores it in slot A and boots from it; an image that fails is to be written anew (log 61). -/
def doSbRecovery (pec : Bool) (data : List Byte) (s : State) : State :=
  sideband 0x30 pec s fun s =>
    if s.mgmt.phase ≠ .recovery ∨ data.length ≠ 32 ∨ 0x1000000 < s.mgmt.recovered + 32 then s.say (.nack 0x30) else
    let n := s.mgmt.recovered + 32
    let s := (s.setMgmt { s.mgmt with
      recovered := n, win := cellsWrite s.mgmt.win (fwArea + s.mgmt.recovered) data }).say (.sideband 0x30 [])
    let img := cellsRead s.mgmt.win fwArea n
    if n < Config.imageLen img then s
    else if slotBoots s.mgmt img then
      coldReset (s.setMgmt { s.mgmt with lastB := false, marked := false, flash := upd s.mgmt.flash 0 (slotWith img) }) true
    else clearFwArea (s.setMgmt { s.mgmt with recovered := 0 })

/-- The command SB_RECOVERY (18 R507). -/
def execSbRecovery (pec : Bool) (data : List Byte) (s : State) : Res := .next (doSbRecovery pec data s)

/-- OTHER_SIDEBAND_CODE: answered with NACK. -/
def doOtherSidebandCode (code : BitVec 8) (s : State) : State := if sbServes s then s.say (.nack code.toNat) else s

/-- The command OTHER_SIDEBAND_CODE (18 R502). -/
def execOtherSidebandCode (code : BitVec 8) (s : State) : Res := .next (doOtherSidebandCode code s)

/-- SMBUS_LINE_HELD: the target releases the line and sets its event bit. -/
def doSmbusLineHeld (clk : Bool) (s : State) : State :=
  if s.mgmt.phase = .reset then s else
  let bit : BitVec 3 := if clk then 2 else 1
  record (s.setMgmt { s.mgmt with sbEvents := s.mgmt.sbEvents ||| bit }) 0x0D none 10 0 [5]

/-- The command SMBUS_LINE_HELD (18 R505). -/
def execSmbusLineHeld (clk : Bool) (s : State) : Res := .next (doSmbusLineHeld clk s)

/-- PMBUS_LINE_HELD: the master releases the lines and retries; the readings of every rail are missing (log 62). -/
def doPmbusLineHeld (s : State) : State :=
  if s.mgmt.phase = .reset then s else
  let s := record (s.setMgmt { s.mgmt with sbEvents := s.mgmt.sbEvents ||| 4 }) 0x0D none 11 0 [6]
  (List.finRange 7).foldl (fun s r => doReadingsMissing r s) s

/-- The command PMBUS_LINE_HELD (18 R505). -/
def execPmbusLineHeld (s : State) : Res := .next (doPmbusLineHeld s)

end Sys2Proof.Machine
end

