-- ==== Sys2Proof/Machine/Regs.lean ====
section
/-!
DEFINITION. The register space (00 R11, R12, R17, R532): what a read of each register returns, what a write of it
does, and the byte-addressed windows. Offsets count from 0xF000_0000.
-/

namespace Sys2Proof.Machine

/-! ## Tables of registers -/

/-- Entry and offset within it of a register in a table of `n` blocks of `stride` bytes from `base` on. -/
def blockAt (base stride n off : Nat) : Option (Fin n × Nat) :=
  if h : base ≤ off ∧ (off - base) / stride < n then some (⟨(off - base) / stride, h.2⟩, (off - base) % stride) else none

/-- A table of single registers. -/
def tableAt (base n off : Nat) : Option (Fin n) :=
  match blockAt base 8 n off with
  | some (i, 0) => some i
  | _ => none

/-- `RESULT` of a COMMIT register (00 R12). -/
def commitBits (st : Status) : Nat := fld st.code 8 8

/-- Whether a written word has bit `i` set. -/
def hit (w : Word) (i : Nat) : Bool := w.getLsbD i

/-! ## Reads -/

/-- Present logical spindles of a skein. -/
def Skein.present (k : Skein) : Nat := (k.phys.toList.filter (·.val != 31)).length

/-- The skein map (01 R24). -/
def skeinReg (k : Skein) (o : Nat) : Nat :=
  match o with
  | 0x00 => packNat 5 ((k.phys.toList.take 8).map (·.val))
  | 0x08 => packNat 5 ((k.phys.toList.drop 8).map (·.val))
  | 0x10 => fld k.healthy.toNat 0 17 + fld k.spare.val 24 5 + fld k.mapGen.toNat 32 16 + fld k.present 48 5
  | _ => 0

/-- `CREEL_STATE`, `CREEL_EVICT` (08 R226). -/
def creelReg (k : Skein) (o : Nat) : Nat :=
  match o with
  | 0 => fld k.leasFree 0 9 + fld k.pinnedLeas 16 9 + fld k.live.length 32 9 +
      fld ((k.bindings.filter (·.evicting)).map (·.leas)).sum 41 9
  | 8 => fld (min (2 ^ 32 - 1) k.evictions) 0 32 + fld (k.wbBytes / mib) 32 32
  | _ => 0

def ChanSt.code (c : ChanSt) : Nat :=
  match c with
  | .inService => 0
  | .draining => 1
  | .mappedOut => 2
  | .restoring => 3
  | .notTrained => 4

/-- `MEM_CHAN` (09 R255). -/
def chanReg (c : Chan) : Nat :=
  fld c.st.code 0 3 + fld (min (2 ^ 24 - 1) c.ce) 8 24 + fld (min (2 ^ 16 - 1) c.ue) 32 16 + fld c.cause 48 8

/-- Bits of the stacks in service. -/
def stackBits (m : Mem) : Nat :=
  ((List.finRange 8).map fun k => fld (b2n ((m.stack.get k).up && !(m.stack.get k).lost)) k.val 1).sum

/-- `MEM_STATE` (09 R254). -/
def memStateReg (m : Mem) : Nat :=
  fld m.ilMib 0 20 + fld (stackBits m) 24 8 + fld m.memGen.toNat 32 16 + fld (b2n m.mig.isSome) 48 1 +
    fld (match m.mig with
      | some g => (stackOf g.chan).val
      | none => 0) 49 3

/-- `MEM_STACK` (09 R254). -/
def memStackReg (m : Mem) (k : Fin 8) : Nat :=
  fld (m.stack.get k).channels 0 6 +
    fld (match m.mig with
      | some g => if stackOf g.chan = k then (m.stack.get k).granule else 0
      | none => 0) 16 24

/-- `MEM_ERR_LIMIT` (09 R256). -/
def memLimitReg (m : Mem) : Nat := fld m.ceLimit 0 16 + fld m.ceWindow 16 16 + fld m.ueLimit 32 8

/-- `REEL_CFG` and the counters of a reel cache (09 R258). -/
def reelReg (c : Reel) (o : Nat) : Nat :=
  match o with
  | 0x00 => c.keepWays.val
  | 0x08 => c.hit.toNat
  | 0x10 => c.miss.toNat
  | 0x18 => c.wb.toNat
  | _ => 0

def CxlLink.code (l : CxlLink) : Nat :=
  match l with
  | .down => 0
  | .training => 1
  | .up => 2
  | .unmapped => 3

/-- `FAR_STATE` (09 R259). -/
def farReg (m : Mem) : Nat :=
  let size (i : Fin 2) : Nat := if (m.far.get i).mapped then min (m.far.get i).gib (if m.bifur then 2048 else 4096) else 0
  fld (m.far.get 0).link.code 0 2 + fld (if m.bifur then (m.far.get 1).link.code else 0) 2 2 + fld (b2n m.bifur) 4 1 +
    fld (size 0) 8 13 + fld (size 1) 24 13

/-- `DISTAFF_STATE`, `DISTAFF_CNT` (10 R288). -/
def distaffReg (s : State) (k : Fin 8) (o : Nat) : Nat :=
  let y := s.mem.stack.get k
  match o with
  | 0 => fld y.distFailed.toNat 0 32 + fld (b2n (s.sweeps.any fun w => w.parts.any fun g => g.stack == k && g.open_)) 32 1 +
      fld (b2n y.distRedo) 33 1
  | 8 => fld y.units 0 32 + fld (y.addBytes / mib) 32 32
  | _ => 0

/-- MiB of one table copy of a stage: none while it maps nothing. -/
def tableMib (n : Nat) : Nat := if n = 0 then 0 else Config.tableBytes n / mib

/-- `TRANS_STATE` (11 R307). -/
def transReg (s : State) : Nat :=
  fld (s.queues.toList.filter fun x => x.st == .waitPage).length 0 12 + fld s.trans.images.length 16 9 +
    fld (tableMib s.trans.s1.length) 32 12 + fld (tableMib s.trans.s2.length) 44 12

def Link.code (l : Link) : Nat :=
  match l with
  | .down => 0
  | .training => 1
  | .up => 2
  | .off => 3

/-- `PORT_STATE` (13 R366). -/
def portStateReg (y : Port) : Nat :=
  fld y.link.code 0 2 + fld (b2n y.joined) 2 1 + fld (b2n y.degraded) 3 1 +
    fld (if y.twine then 2 else b2n y.lldp) 4 2 + fld y.xoffTx.toNat 6 8 + fld y.xoffRx.toNat 14 8 +
    fld y.cfg.group.val 22 3 + fld (b2n y.storm) 25 1 + fld (b2n y.failed) 26 1 +
    fld (min 65535 y.flaps) 32 16 + fld (min 65535 y.rxDrop) 48 16

/-- `PORT_ERR` (13 R366). -/
def portErrReg (y : Port) : Nat :=
  fld (min (2 ^ 32 - 1) y.fecCorr) 0 32 + fld (min 65535 y.fecUncorr) 32 16 + fld (min 65535 y.fcsBad) 48 16

/-- A port's block (13 R352). -/
def portReg (y : Port) (o : Nat) : Nat :=
  match o with
  | 0x00 => y.cfg.words.1
  | 0x08 => y.cfg.words.2
  | 0x10 => portStateReg y
  | 0x18 => portErrReg y
  | _ => 0

/-- `ETH_WAKE` (13 R368). -/
def ethWakeReg (e : Eth) : Nat := fld e.wakeEn.toNat 0 32 + fld (b2n e.magic) 32 1 + fld (b2n e.twineWake) 33 1

/-- `TWINE_CNT` (14 R396). -/
def twineCntReg (t : Twine) : Nat :=
  fld (min (2 ^ 24 - 1) t.retx) 0 24 + fld (min 65535 t.dups) 24 16 + fld (min 65535 t.bad) 40 16 + fld (min 255 t.viol) 56 8

def StrandSt.code (x : StrandSt) : Nat :=
  match x with
  | .closed => 0
  | .opening => 1
  | .opened => 2
  | .stalled => 3
  | .lost => 4

/-- `STRAND_STATE` (14 R376). -/
def strandStateReg (x : Strand) : Nat :=
  fld x.st.code 0 3 + fld x.port.val 3 5 + fld x.cfg.group.val 8 3 + fld x.cfg.owner 11 2 + fld (b2n x.session) 13 1 +
    fld (b2n x.hold) 14 1 + fld (min 1024 x.unacked.length) 16 11 + fld x.nextPsn.toNat 32 32

/-- A strand's block (14 R376). -/
def strandReg (s : State) (x : Strand) (o : Nat) : Nat :=
  match o with
  | 0x00 | 0x08 | 0x10 => (x.word o).toNat
  | 0x18 => commitBits x.result
  | 0x20 => strandStateReg x
  | 0x28 => fld x.window 0 22 + fld (x.srtt.getD 0 / 10) 32 16 + fld ((baseRtt s x).getD 0 / 10) 48 16
  | _ => 0

/-- An entry of the peer table (15 R401). -/
def peerReg (s : State) (e : Fin 64) (o : Nat) : Nat :=
  let p := s.peer e
  match o with
  | 0 => p.fuseLo.toNat
  | 8 => fld p.strand.val 0 11 + fld (pstate s e) 12 3 + fld p.lagPm 16 10 +
      fld (min (2 ^ 32 - 1) ((s.now - p.hello) / 1000000)) 32 32
  | _ => 0

def PlySt.code (x : PlySt) : Nat :=
  match x with
  | .off => 0
  | .forming => 1
  | .ready => 2
  | .degraded => 3
  | .adopting => 4

/-- A group slot's block (15 R402). -/
def plyReg (s : State) (x : Ply) (o : Nat) : Nat :=
  if o ≤ 0x48 ∨ o = 0x70 then (x.cfg.word o).toNat
  else match o with
    | 0x50 => commitBits x.result
    | 0x58 => fld x.st.code 0 3 + fld x.masterNow 3 6 + fld (if x.st = .off then 0 else x.present.length) 9 7 + fld (devPace s) 16 10 + fld x.match_.toNat 32 32
    | 0x68 => fld x.epoch.toNat 0 32 + fld x.epochStep 32 32
    | _ => 0

/-- Idle counters of a group slot (15 R419). -/
def idleReg (x : Ply) (o : Nat) : Nat :=
  match o with
  | 0x00 => (x.idlePeer.toList.map (·.toNat)).sum
  | 0x08 => x.idleMem.toNat
  | 0x10 => x.idleNet.toNat
  | 0x18 => x.idleSelf / 1000
  | 0x20 => x.idleTpeer.toNat
  | _ => 0

/-- `SEC_STATE` (16 R447). -/
def secReg (s : State) : Nat := secBits s + fld s.sec.lodged.length 8 5

/-- Operations that hold the current generation of a key slot: moves, distaff work, RMAs and group operations under TENANT,
RMAs of the tenant's strands under TRANSIT. A journal write and a boot segment are over within their commands, and the other
memory accesses within theirs (16 R434, R435). -/
def keyUsers (s : State) (n : Fin 4) : Nat :=
  if (s.sec.keys.get n).st = .empty then 0 else
  match n.val with
  | 0 => ((s.skeins.toList.flatMap Skein.moves).filter (Move.tenantKeyed s)).length + s.sweeps.length +
      (s.twine.rmas.filter (Rma.tenantKeyed s)).length + (s.ply.ops.filter (GOp.tenantKeyed s)).length
  | 1 => (s.twine.rmas.filter (Rma.holdsCurrent s)).length
  | _ => 0

def KeySt.code (x : KeySt) : Nat :=
  match x with
  | .empty => 0
  | .loaded => 1
  | .draining => 2
  | .next => 3

/-- `KEY_SLOT` (16 R434). -/
def keyReg (s : State) (n : Fin 4) : Nat :=
  let x := s.sec.keys.get n
  fld x.st.code 0 3 + fld (min 255 (keyUsers s n)) 8 8 + fld x.gen.toNat 32 32

/-- Bits of the skeins in a power state (17 R472). -/
def skeinBits (s : State) (p : PState) : Nat :=
  ((List.finRange 8).map fun k => fld (b2n ((s.sk k).pstate == p)) k.val 1).sum

/-- `PWR_TOL` (17 R472). -/
def pwrTolReg (p : Pwr) : Nat := fld p.latTol 0 28 + fld (b2n p.allowP4) 28 1 + fld p.idleP4 32 16

/-- `PWR_STATE` (17 R472). -/
def pwrStateReg (s : State) : Nat :=
  fld s.pwr.pstate.code 0 3 + fld (skeinBits s .p1) 4 8 + fld (skeinBits s .p2) 12 8 + fld (min 1023 s.pwr.pkgW) 20 10 +
    fld (effCap s) 30 10 + fld s.pwr.boardCap 40 10 + fld (devBind s) 50 4 + fld (b2n (guardBand s)) 54 1

/-- `STRETCH` of a skein: 0 none; 1 to 4 for N = 32, 16, 8, 4 (17 R472). -/
def stretchCode (k : Skein) : Nat :=
  match k.stretchN with
  | none => 0
  | some 32 => 1
  | some 16 => 2
  | some 8 => 3
  | some _ => 4

/-- `SKEIN_CLK` (17 R472). -/
def skeinClkReg (s : State) (k : Fin 8) : Nat :=
  fld (s.sk k).divider 0 5 + fld (stretchCode (s.sk k)) 5 3 + fld (binding s k).2 8 4

/-- `RAIL_MEAS` (17 R472). -/
def railReg (r : Rail) : Nat := fld r.est 0 16 + fld r.reg 16 16 + fld r.mv 32 16 + fld r.gainErr.toNat 48 8

/-- `THERM_STATE` (17 R478). -/
def thermReg (s : State) : Nat :=
  fld s.pwr.inlet 0 8 + fld (tjMax s) 8 8 + fld (stackMax s) 16 8 + fld (b2n s.pwr.airLow) 24 1 +
    fld (b2n s.pwr.stopped) 25 1 + fld (b2n s.sec.override) 26 1 + fld (b2n s.pwr.tripped) 27 1

/-- A phase table entry (17 R464). -/
def phaseReg (e : PhaseEnt) : Nat := fld e.spin 0 16 + fld e.stack 16 12 + fld e.net 28 12 + fld e.samples 40 16

/-- `BRINGUP_STATE` (18 R492). -/
def bringupReg (s : State) : Nat :=
  let m := s.mgmt
  fld m.phase.code 0 3 + fld (b2n m.warmBoot) 3 1 + fld (b2n m.slot) 4 1 + fld (b2n m.fallback) 5 1 +
    fld (b2n m.cfgDefault) 6 1 + fld m.skeinsUp.toNat 7 8 + fld m.stacksUp.toNat 15 8 + fld (b2n m.cxlDone) 23 1 +
    fld (min (2 ^ 32 - 1) ((s.now - m.resetAt) / 1000000)) 32 32

/-- `LEASE` (18 R500). -/
def leaseReg (x : Sec) : Nat :=
  fld (match x.lease with
    | some l => l.2.1
    | none => 0) 0 16 + fld x.leaseEpoch 32 32

/-- `UNIT_CTRL` (18 R512). -/
def unitReg (o : UnitOrder) : Nat := fld o.unit 0 4 + fld o.index 8 8 + fld (b2n o.busy) 18 1 + fld o.result.code 24 8

/-- `FW_CTRL` (18 R487). -/
def fwReg (m : Mgmt) : Nat :=
  fld m.fwRes.code 8 8 + fld (b2n m.fwStage.isSome) 16 1 + fld (b2n m.marked) 17 1 + fld (b2n (decide (m.minSvn < m.svn))) 18 1 +
    fld m.minSvn 24 8 + fld m.fwLen 32 32

/-- `TRIM_CTRL` (18 R496). -/
def trimReg (m : Mgmt) : Nat :=
  fld m.trimRes.code 8 8 + fld (b2n m.trimBusy) 16 1 + fld (b2n m.calValid) 17 1 + fld (b2n m.calFactory) 18 1

/-- `FAULT_STATE` (18 R508). -/
def faultReg (m : Mgmt) : Nat := fld m.faults.length 0 9 + fld (min 65535 m.dropped) 16 16

/-- `MOVE_CNT` and `BIND_CNT` of a queue (08 R228). -/
def countReg (s : State) (q : Fin 4096) (o : Nat) : Nat :=
  let x := s.q q
  match o with
  | 0 => fld (min (2 ^ 24 - 1) x.miss) 0 24 + fld (min 65535 x.shadows) 24 16 + fld (min 65535 x.dropped) 40 16
  | 8 => fld (min 65535 x.evicted) 0 16 + fld (s.skeins.toList.map fun k => k.heldBy q).sum 16 12 +
      fld (s.skeins.toList.map fun k => k.pinnedBy q).sum 28 12
  | _ => 0

def QState.code (x : QState) : Nat :=
  match x with
  | .off => 0
  | .opened => 1
  | .waitPage => 2
  | .held => 3
  | .draining => 4

/-- `QUEUE_STATE` (12 R311); `full`: acceptance of every queue pauses for the journal. -/
def queueStateReg (x : Queue) (full : Bool) : Nat :=
  fld x.st.code 0 3 + fld (b2n (x.descs.any fun d => d.st == .running && hdrType d.raw == 6)) 3 1 +
    fld (b2n (full || decide (x.cfg.n ≤ x.inflight))) 4 1 + fld x.inflight 5 17

/-- A queue's block (12 R311). -/
def queueReg (s : State) (q : Fin 4096) (o : Nat) : Nat :=
  let x := s.q q
  match o with
  | 0x00 => x.cfg.ringWord.toNat
  | 0x08 => x.cfg.cfgWord.toNat
  | 0x10 => x.cfg.seed.toNat
  | 0x18 => commitBits x.result
  | 0x28 => queueStateReg x (journalPauses s)
  | 0x30 => x.la
  | 0x38 => x.lc
  | 0x40 => x.head
  | 0x48 => x.tail
  | 0x50 => x.bad
  | _ => 0

/-- The profiling counters of a spindle, 0 without consent (18 R511). -/
def profReg (s : State) (p : Fin 136) (o : Nat) : Nat :=
  if s.sec.profile then ((s.sp p).prof.toList.getD (o / 8) 0).toNat else 0

/-- Registers of the device below offset 0x10000 that stand alone. -/
def singleReg (s : State) (off : Nat) : Option Nat :=
  match off with
  | 0x2000 => some (memStateReg s.mem)
  | 0x2080 => some (memLimitReg s.mem)
  | 0x2088 => some (commitBits s.mem.limRes)
  | 0x3A00 => some (farReg s.mem)
  | 0x5000 => some s.trans.gen1.toNat
  | 0x5008 => some s.trans.gen2.toNat
  | 0x5010 => some (transReg s)
  | 0x6000 => some (journalReg s)
  | 0x7000 => some (fld s.eth.mode 0 2)
  | 0x7008 => some (commitBits s.eth.result)
  | 0x7010 => some (ethWakeReg s.eth)
  | 0x7018 => some Config.baseMac.toNat
  | 0x8000 => some (s.twine.word 0x8000).toNat
  | 0x8008 => some (commitBits s.twine.result)
  | 0x8010 => some (twineCntReg s.twine)
  | 0xB400 => some (commitBits s.ply.peerRes)
  | 0xC000 => some (secReg s)
  | 0xC008 => some s.sec.ctr
  | 0xC040 => some (fld s.sec.authRes.code 8 8 + fld (b2n (s.sec.authWait.any fun w => w.1.isNone)) 16 1)
  | 0xC048 => some s.sec.lastAseq
  | 0xC050 => some (b2n s.sec.scrubMode)
  | 0xC058 => some (commitBits s.sec.scrubRes)
  | 0xD000 => some s.pwr.capWord
  | 0xD008 => some (commitBits s.pwr.result)
  | 0xD010 => some (pwrTolReg s.pwr)
  | 0xD018 => some (pwrStateReg s)
  | 0xD020 => some (thermReg s)
  | 0xD080 => some s.pwr.pkgUj.toNat
  | 0xD088 => some s.pwr.unattr.toNat
  | 0xE000 => some (bringupReg s)
  | 0xE010 => some (b2n s.mgmt.stop)
  | 0xE018 => some (leaseReg s.sec)
  | 0xE020 => some (unitReg s.mgmt.unit)
  | 0xE030 => some s.mgmt.ackWord.toNat
  | 0xE038 => some (faultReg s.mgmt)
  | 0xE040 => some (trimReg s.mgmt)
  | 0xE050 => some s.mgmt.d2d.toNat
  | 0xE060 => some (fwReg s.mgmt)
  | _ => none

/-- The registers that stand in tables, each with its base, stride and count. -/
def tableReg (s : State) (off : Nat) : Option Nat :=
  ((blockAt 0x0100 0x20 8 off).map fun x => skeinReg (s.sk x.1) x.2) <|>
  ((blockAt 0x1000 0x40 8 off).map fun x => creelReg (s.sk x.1) x.2) <|>
  ((tableAt 0x2100 8 off).map fun k => memStackReg s.mem k) <|>
  ((tableAt 0x3000 256 off).map fun c => chanReg (s.mem.chan.get c)) <|>
  ((blockAt 0x3800 0x20 8 off).map fun x => reelReg (s.mem.reel.get x.1) x.2) <|>
  ((blockAt 0x4000 0x10 8 off).map fun x => distaffReg s x.1 x.2) <|>
  ((tableAt 0x5100 8 off).map fun k => fld (s.sk k).hits 0 40 + fld (s.sk k).misses 40 24) <|>
  ((blockAt 0x7100 0x20 32 off).map fun x => portReg (s.port x.1) x.2) <|>
  ((blockAt 0x8100 0x20 8 off).map fun x => if x.2 ≤ 0x10 then (s.twine.word off).toNat else 0) <|>
  ((blockAt 0x9000 0x80 8 off).map fun x => plyReg s (s.slot x.1) x.2) <|>
  ((blockAt 0x9400 0x40 8 off).map fun x => idleReg (s.slot x.1) x.2) <|>
  ((blockAt 0x9800 0x200 8 off).map fun x => ((s.slot x.1).idlePeer.toList.getD (x.2 / 8) 0).toNat) <|>
  ((blockAt 0xB000 0x10 64 off).map fun x => peerReg s x.1 x.2) <|>
  ((tableAt 0xC100 4 off).map (keyReg s)) <|>
  ((tableAt 0xD040 8 off).map (skeinClkReg s)) <|>
  ((tableAt 0xD100 7 off).map fun r => railReg (s.pwr.rails.get r)) <|>
  ((tableAt 0xD200 8 off).map fun k => (s.sk k).energy.toNat) <|>
  ((blockAt 0x20000 0x10 4096 off).map fun x => countReg s x.1 x.2) <|>
  ((tableAt 0x40000 4096 off).map fun q => fld (s.q q).leas 0 9 + fld (s.q q).pin 16 9) <|>
  (if off = 0x48000 then some (commitBits s.quotaRes) else none) <|>
  ((tableAt 0x50000 4096 off).map fun q => (s.q q).energy.toNat) <|>
  ((tableAt 0x60000 256 off).map fun i => phaseReg (s.pwr.phases.get i)) <|>
  ((blockAt 0x100000 0x80 4096 off).map fun x => queueReg s x.1 x.2) <|>
  ((blockAt 0xC00000 0x40 136 off).map fun x => profReg s x.1 x.2) <|>
  ((blockAt 0x2000000 0x40 2048 off).map fun x => strandReg s (s.strand x.1) x.2)

/-- A read of the register at an 8-byte-aligned offset (00 R11, R12): the values in effect; an offset without a
register reads 0, as reserved bits do (log 70). -/
def regRead (s : State) (off : Nat) : Word :=
  BitVec.ofNat 64 (((singleReg s off) <|> (tableReg s off)).getD 0)

/-! ## Writes -/

/-- Staging in a queue's block (12 R311), and the orders of `QUEUE_CTRL`. -/
def queueRegWrite (s : State) (q : Fin 4096) (o : Nat) (w : Word) : State :=
  match o with
  | 0x00 | 0x08 | 0x10 => s.setQ q { s.q q with staged := stageWord (s.q q).staged o w }
  | 0x18 => if hit w 0 then doQueueCommit q s else s
  | 0x20 =>
    let s := if hit w 0 then doQueueDrain q s else s
    let s := if hit w 1 then doQueueRelease q s else s
    if hit w 2 then doResetSeq q s else s
  | _ => s

/-- A strand's block (14 R376). -/
def strandRegWrite (s : State) (n : Fin 2048) (o : Nat) (w : Word) : State :=
  match o with
  | 0x00 | 0x08 | 0x10 => s.setStrand n { s.strand n with staged := stageWord (s.strand n).staged o w }
  | 0x18 => if hit w 0 then doStrandCommit n s else s
  | 0x30 => if hit w 0 then doStrandClose n s else s
  | _ => s

/-- A group slot's block (15 R402). -/
def plyRegWrite (s : State) (k : Fin 8) (o : Nat) (w : Word) : State :=
  if o ≤ 0x48 ∨ o = 0x70 then s.setSlot k { s.slot k with staged := stageWord (s.slot k).staged o w }
  else match o with
    | 0x50 => if hit w 0 then doPlyCommit k s else s
    | 0x60 =>
      let s := if hit w 6 then doPlyFail k ⟨bitsOf w.toNat 0 6 % 64, Nat.mod_lt _ (by omega)⟩ s else s
      if hit w 7 then doCancelPace k s else s
    | _ => s

def stageEth (s : State) (off : Nat) (w : Word) : State :=
  { s with eth := { s.eth with staged := stageWord s.eth.staged off w } }

def stageTwine (s : State) (off : Nat) (w : Word) : State :=
  { s with twine := { s.twine with staged := stageWord s.twine.staged off w } }

/-- `UNIT_CTRL`: `UNIT` and `INDEX` are set; a write of `OP` while an order runs is ignored (18 R512; log 71). -/
def unitRegWrite (s : State) (w : Word) : State :=
  let unit := bitsOf w.toNat 0 4
  let index := bitsOf w.toNat 8 8
  match bitsOf w.toNat 16 2 with
  | 1 => doRetire (unitNamed unit index) s
  | 2 => doRestore (unitNamed unit index) s
  | _ => setUnit s unit index

/-- `FW_CTRL`: `LEN` first, then the orders (18 R487). -/
def fwRegWrite (s : State) (w : Word) : State :=
  let s := s.setMgmt { s.mgmt with fwLen := bitsOf w.toNat 32 32 }
  let s := if hit w 0 then doFwStage s else s
  let s := if hit w 1 then doFwConfirm s else s
  if hit w 2 then doFwCancel s else s

/-- `PWR_TOL`: the tolerance and the entry delay of P4; a delay of 0 is taken as 1 by POWER_STATE_ENTRY's sender. -/
def tolRegWrite (s : State) (w : Word) : State :=
  s.setPwr { s.pwr with latTol := bitsOf w.toNat 0 28, allowP4 := hit w 28, idleP4 := bitsOf w.toNat 32 16 }

/-- Writes of the registers that stand alone; `none` where the offset is in a table. A word of `MEM_CTRL` with both orders maps
the channel out first and rebuilds after that migration (09 R257; DESIGN CHOICE, log 167). -/
def singleWrite (s : State) (off : Nat) (w : Word) : Option State :=
  let go (f : State → State) : Option State := some (if hit w 0 then f s else s)
  match off with
  | 0x2040 =>
    let s := if hit w 8 then doMapOut ⟨bitsOf w.toNat 0 8 % 256, Nat.mod_lt _ (by omega)⟩ s else s
    some (if hit w 9 then doRebuild s else s)
  | 0x2080 => some (s.setMem { s.mem with limSt := stageWord s.mem.limSt off w })
  | 0x2088 => go doMemErrCommit
  | 0x3A08 =>
    let s := if hit w 0 then doFarReenable 0 s else s
    some (if hit w 1 then doFarReenable 1 s else s)
  | 0x7000 => some (stageEth s off w)
  | 0x7008 => go doEthCommit
  | 0x7010 => some (doWakeEnWrite w s)
  | 0x8000 => some (stageTwine s off w)
  | 0x8008 => go doTwineCommit
  | 0xB400 => go doPeerCommit
  | 0xC040 => go (doSubmit none [])
  | 0xC050 => some (s.setSec { s.sec with scrubSt := stageWord s.sec.scrubSt off w })
  | 0xC058 => go doScrubCommit
  | 0xD000 => some (s.setPwr { s.pwr with staged := stageWord s.pwr.staged off w })
  | 0xD008 => go doPwrCommit
  | 0xD010 => some (tolRegWrite s w)
  | 0xE008 =>
    let s := if hit w 0 then doWarm s else s
    some (if hit w 1 then restartMgmt s else s)
  | 0xE010 => some (doMgmtStop (hit w 0) s)
  | 0xE020 => some (unitRegWrite s w)
  | 0xE028 => some (if hit w 8 then doFaultAck ⟨bitsOf w.toNat 0 8 % 256, Nat.mod_lt _ (by omega)⟩ s else s)
  | 0xE030 => some (s.setMgmt { s.mgmt with ackWord := w })
  | 0xE040 => go doTrimWrite
  | 0xE060 => some (fwRegWrite s w)
  | 0x48000 => go doCreelQuotaCommit
  | _ => none

/-- Writes of the registers that stand in tables. -/
def tableWrite (s : State) (off : Nat) (w : Word) : Option State :=
  ((blockAt 0x3800 0x20 8 off).map fun x =>
    if x.2 = 0 then doKeepWaysWrite x.1 ⟨bitsOf w.toNat 0 4 % 16, Nat.mod_lt _ (by omega)⟩ s else s) <|>
  ((blockAt 0x7100 0x20 32 off).map fun x => if x.2 ≤ 8 then stageEth s off w else s) <|>
  ((blockAt 0x8100 0x20 8 off).map fun x => if x.2 ≤ 0x10 then stageTwine s off w else s) <|>
  ((blockAt 0x9000 0x80 8 off).map fun x => plyRegWrite s x.1 x.2 w) <|>
  ((blockAt 0xB000 0x10 64 off).map fun x =>
    if x.2 = 8 then { s with ply := { s.ply with peerSt := stageWord s.ply.peerSt off w } } else s) <|>
  ((tableAt 0x40000 4096 off).map fun q => s.setQ q { s.q q with quotaSt := some w }) <|>
  ((blockAt 0x100000 0x80 4096 off).map fun x => queueRegWrite s x.1 x.2 w) <|>
  ((blockAt 0x2000000 0x40 2048 off).map fun x => strandRegWrite s x.1 x.2 w)

/-- A write of a register by the lease holder (00 R11, R17): a field that is not writable keeps its value. -/
def regWrite (s : State) (off : Nat) (w : Word) : State :=
  ((singleWrite s off w) <|> (tableWrite s off w)).getD s

/-! ## Windows (00 R532) -/

/-- The byte-addressed windows as (start, end, writable): LLDP areas, snapshot, lodging area, trim table with its
trailer, their staging areas, firmware staging area. -/
def windows : List (Nat × Nat × Bool) :=
  [(0x1000000, 0x1010000, false), (0x8000000, 0x8040000, false), (0x8040000, 0x8040180, true),
   (0x8080000, 0x8090000, false), (0x8090000, 0x8090080, false), (0x80A0000, 0x80B0000, true),
   (0x80B0000, 0x80B0080, true), (0x9000000, 0xA000000, true)]

/-- The window that a range lies wholly in. -/
def windowOf (off n : Nat) : Option (Nat × Nat × Bool) :=
  windows.find? fun w => decide (w.1 ≤ off) && decide (off + n ≤ w.2.1)

/-- Whether a range touches a window. -/
def touchesWindow (off n : Nat) : Bool := windows.any fun w => decide (off < w.2.1) && decide (w.1 < off + n)

/-- Whether a range of whole registers is named (00 R532). A READ or WRITE that runs from one window into the next (the trim
table into its trailer, a staging area into the other) lies wholly in none and is refused whole with ACCESS: the spec does
not say what becomes of it (DESIGN CHOICE, log 148). -/
def regRange (off n : Nat) : Bool :=
  off % 8 == 0 && n % 8 == 0 && decide (off + n ≤ 0x10000000) && !touchesWindow off n

/-- One byte of a window. The snapshot area holds unspecified bytes while no snapshot is frozen (log 72). -/
def windowByte (s : State) (off : Nat) : Byte :=
  if 0x8000000 ≤ off ∧ off < 0x8040000 ∧ !s.mgmt.frozen then Config.freeByte s.free off
  else if 0x8080000 ≤ off ∧ off < 0x8090000 then (trimTable s).getD (off - 0x8080000) 0
  else if 0x8090000 ≤ off ∧ off < 0x8090080 then
    (if s.mgmt.calFactory then (trailerOf (trimTable s)).getD (off - 0x8090000) 0 else 0)
  else cellGet s.mgmt.win off

/-- Bytes read from the register space. -/
def spaceRead (s : State) (off n : Nat) : List Byte :=
  if (windowOf off n).isSome then (List.range n).map fun i => windowByte s (off + i)
  else (List.range (n / 8)).flatMap fun i => leBytes 8 (regRead s (off + 8 * i)).toNat

/-- Registers written in ascending order (00 R532). -/
def regsWrite : State → Nat → List Byte → Nat → State
  | s, _, _, 0 => s
  | s, off, bs, n + 1 => regsWrite (regWrite s off (BitVec.ofNat 64 (word64 bs 0))) (off + 8) (bs.drop 8) n

/-- Bytes written to the register space. -/
def spaceWrite (s : State) (off : Nat) (bs : List Byte) : State :=
  match windowOf off bs.length with
  | some (_, _, true) => s.setMgmt { s.mgmt with win := cellsWrite s.mgmt.win off bs }
  | some _ => s
  | none => regsWrite s off bs (bs.length / 8)

/-- REGISTER_WRITE: the lease holder's write of the register at `off` has arrived. -/
def doRegisterWrite (off : Nat) (v : Word) (s : State) : State := if regRange off 8 then regWrite s off v else s

/-- The command REGISTER_WRITE (00 R11). -/
def execRegisterWrite (off : Nat) (v : Word) (s : State) : Res := .next (doRegisterWrite off v s)

end Sys2Proof.Machine
end

