-- ==== Sys2Proof/Machine/Tally.lean ====
section
/-!
DEFINITION. TALLY (12 R345 to R347, 17 R479): who is served, the snapshot and its layout.
-/

namespace Sys2Proof.Machine

/-- Little-endian words. -/
def words (l : List Nat) : List Byte := l.flatMap (leBytes 8)

/-- Bytes padded with zeros, or cut, to a size. -/
def padTo (n : Nat) (bs : List Byte) : List Byte := (bs ++ List.replicate (n - bs.length) 0).take n

/-- `DIV` code of a divider and `STRETCH` code of a stretch in `DIVS` (17 R479). -/
def divCode (d : Nat) : Nat :=
  match d with
  | 6 => 0
  | 7 => 1
  | 8 => 2
  | 10 => 3
  | 12 => 4
  | _ => 5

def divsStretch (k : Skein) : Nat :=
  match k.stretchN with
  | none => 0
  | some 8 => 2
  | some 4 => 3
  | some _ => 1

/-- The `POWER` section (17 R479). -/
def powerSection (s : State) : List Nat :=
  let divs := packNat 5 (s.skeins.toList.map fun k => divCode k.divider + 8 * divsStretch k)
  let rails := ((List.finRange 7).map fun r =>
    fld (b2n ((s.pwr.rails.get r).fault || (s.pwr.rails.get r).missing)) r.val 1).sum
  [pwrStateReg s, s.pwr.capWord, thermReg s, fld divs 0 40 + fld (devPace s) 40 10, pwrTolReg s.pwr, s.pwr.pkgUj.toNat, rails, 0]

/-- What the queue section of a snapshot is taken from: while the mill die is off, the values last recorded before the stop
(12 R347). -/
def shown (s : State) : AtStop := match s.mgmt.atStop with
  | some x => if s.pwr.dieOff then x else recorded s
  | none => recorded s

/-- The state with the queues and bindings that a snapshot shows. -/
def shownQueues (s : State) : State :=
  { s with
    queues := (shown s).queues
    skeins := vecOf 8 fun k => { s.sk k with bindings := (shown s).binds.get k } }

/-- The header (12 R346). -/
def snapHeader (s : State) (id : BitVec 32) : List Nat :=
  [fld 1 0 16 + fld (b2n s.pwr.dieOff) 16 1 + fld id.toNat 32 32,
   Config.fuseId.toNat % 2 ^ 64, Config.fuseId.toNat / 2 ^ 64, s.mgmt.fwVersion.toNat, s.sec.ctr,
   fld s.mgmt.warms 0 32 + fld s.sec.leaseEpoch 32 32, (shown s).journal, memStateReg s.mem] ++
  (s.skeins.toList.flatMap fun k => [skeinReg k 0, skeinReg k 8, skeinReg k 0x10]) ++
  ((List.finRange 8).map (memStackReg s.mem)) ++ powerSection s ++
  [fld (b2n s.mgmt.calValid) 0 1 + fld (b2n s.mgmt.calFactory) 1 1, s.mgmt.faults.length]

/-- A queue's entry (12 R346); `full`: acceptance pauses for the journal. -/
def queueEntry (s : State) (full : Bool) (q : Fin 4096) : List Nat :=
  let x := s.q q
  [x.la, x.lc, fld x.head 0 32 + fld x.tail 32 32,
   fld (queueStateReg x full) 0 22 + fld x.cfg.prio 22 3 + fld (x.cfg.log2n - 6) 25 4 + fld (b2n x.cfg.stopOnErr) 29 1 +
     fld x.bad 32 32,
   countReg s q 0, countReg s q 8]

/-- The fault records in their slots. -/
def faultSlots (m : Mgmt) : List Byte :=
  (List.range 256).flatMap fun i => match m.faults.find? fun r => r.slot = i with
    | some r => padTo 64 (wordBytes r.words)
    | none => List.replicate 64 0

/-- The snapshot (12 R346). -/
def snapshot (s : State) (id : BitVec 32) : List Byte :=
  padTo 0x1000 (words (snapHeader s id)) ++
  padTo 0x800 (words (s.mem.chan.toList.map chanReg)) ++
  padTo 0x200 (words (s.eth.ports.toList.flatMap fun y => [portStateReg y, portErrReg y])) ++
  padTo 0x600 (words ((List.finRange 64).flatMap fun e => [peerReg s e 0, peerReg s e 8])) ++
  padTo 0x4000 (words (s.twine.strands.toList.map strandStateReg)) ++
  padTo 0x4000 (faultSlots s.mgmt) ++
  padTo 0x30000 (words ((List.finRange 4096).flatMap (queueEntry (shownQueues s) (shown s).pauses))) ++
  List.replicate 0x6000 0

/-- Whether a strand is a session strand of the lease holder (18 R498): a renewal from a new session is no passing, so the
earlier ones under the same pair hold it too (R499). -/
def leaseStrand (s : State) (n : Fin 2048) : Bool := s.sec.sessions.any fun x => x.holds && x.strand == some n

/-- Body of a TALLY NOTIFY, big-endian (12 R331). -/
def tallyBody (id : BitVec 32) : List Byte := leBytes 8 id.toNat

/-- A TALLY that acts: the lease holder's is taken, another sender's refused (12 R345). -/
def takeTally (s : State) (n : Fin 2048) (id : BitVec 32) : State :=
  if leaseStrand s n then s.setMgmt { s.mgmt with tally := s.mgmt.tally ++ [(id, n)] }
  else notify s (.strand n) 4 0 Status.refused.code (tallyBody id)

/-- TALLY_FREEZE: the snapshot is taken at one instant and its NOTIFY goes out. -/
def doTallyFreeze (s : State) : State :=
  match s.mgmt.tally with
  | [] => s
  | (id, n) :: rest =>
    if !attests s then s else
    let s := s.setMgmt { s.mgmt with
      win := cellsWrite s.mgmt.win 0x8000000 (snapshot s id), frozen := true, tally := rest }
    notify s (.strand n) 4 0 Status.ok.code (tallyBody id)

/-- The command TALLY_FREEZE. -/
def execTallyFreeze (s : State) : Res := .next (doTallyFreeze s)

end Sys2Proof.Machine
end

