-- ==== Sys2Proof/Machine/Frames.lean ====
section
/-!
DEFINITION. Received Twine frames (14 R372 to R390): acceptance by strand and key, sequence numbers, the target's
checks, what each frame does, acknowledgement on both sides.
-/

namespace Sys2Proof.Machine

/-! ## The target's checks (14 R382, R384) -/

/-- What a frame does to its target. -/
inductive Need where
  | read | write | add
  deriving DecidableEq, Repr

/-- A range that passed its checks, or the number of the check that failed in the order of 14 R384. -/
inductive Target where
  | mem (segs : List Seg)
  | reg (off : Nat)
  | fail (check : Nat)
  deriving DecidableEq, Repr

def Need.perm (w : Need) : Perm :=
  match w with
  | .read => .remoteRead
  | .write => .remoteWrite
  | .add => .remoteAdd

/-- Owner of a strand. -/
def Strand.who (x : Strand) : Option Owner :=
  match x.cfg.owner with
  | 1 => some .controller
  | 2 => some .tenant
  | _ => none

/-- Whether a range of the ring area may be reached: a WRITE wholly in the descriptor ring of an enabled queue of the
owner, a READ wholly in a ring of a queue of the owner (12 R313). -/
def ringReach (s : State) (o : Owner) (w : Need) (a n : Nat) : Bool :=
  let off := a - ringArea
  let inRing (r : Nat × Nat) : Bool := decide (r.1 ≤ off) && decide (off + n ≤ r.1 + r.2)
  decide (off + n ≤ ringLimit s) &&
  (List.finRange 4096).any fun q =>
    let c := (s.q q).cfg
    queueOwner q == o &&
    (match w with
     | .write => c.enable && inRing (c.ringOff, c.n * 64)
     | .read => c.rings.any inRing
     | .add => false)

/-- Whether an address lies in the ring area. -/
def inRingArea (a : Nat) : Bool := decide (ringArea ≤ a) && decide (a < ringArea + 0x40000000)

/-- Check of a bobbin range named by an owner: 2 where the tenancy keeps the controller out. -/
def bobbinTarget (s : State) (o : Owner) (a n : Nat) : Target :=
  match resolveBobbin s o a n with
  | .ok segs => .mem segs
  | _ =>
    let tenants : Bool := match physLoc s.mem a with
      | .bobbin p _ => (s.sp p).owner == some .tenant
      | _ => false
    .fail (if o = .controller ∧ s.sec.tenancyOn ∧ tenants then 2 else 1)

/-- Whether a physical byte is stacked or far memory outside the reserve, or lies in the creel window (08 R196). -/
def openMemory (m : Mem) (a : Nat) : Bool :=
  match physLoc m a with
  | .stacked _ | .far _ | .creel _ _ => true
  | _ => false

/-- Whether a physical byte is far memory. -/
def isFar (m : Mem) (a : Nat) : Bool :=
  match physLoc m a with
  | .far _ => true
  | _ => false

/-- Whether a frame may write a range of the register space: not the snapshot area. -/
def regWritable (w : Need) (off : Nat) : Bool := w == .read || !(decide (0x8000000 ≤ off) && decide (off < 0x8040000))

/-- A physical range that a controller strand names. -/
def physTarget (s : State) (n : Fin 2048) (w : Need) (a len : Nat) : Target :=
  if a < 0x8800000 then bobbinTarget s .controller a len
  else if 0xF0000000 ≤ a ∧ a < 0x100000000 then
    let off := a - 0xF0000000
    if w ≠ .add ∧ (windowOf off len).isNone ∧ !regRange off len then .fail 1
    else if !leaseStrand s n ∨ !regWritable w off then .fail 4
    else .reg off
  else if inRingArea a then (if ringReach s .controller w a len then .mem [⟨a, a, len⟩] else .fail 1)
  else if !(probePoints a len).all (openMemory s.mem) then .fail 1
  else if !(probePoints a len).all (ctrlReaches s) then .fail 2
  else .mem [⟨a, a, len⟩]

/-- A range that a tenant strand names: a virtual address, or with bit 63 one of the ring area or a bobbin. -/
def tenantTarget (s : State) (w : Need) (a len : Nat) : Target :=
  if 2 ^ 63 ≤ a then
    let pa := a - 2 ^ 63
    if 2 ^ 52 ≤ pa then .fail 1
    else if inRingArea pa then (if ringReach s .tenant w pa len then .mem [⟨a, pa, len⟩] else .fail 1)
    else match bobbinTarget s .tenant pa len with
      | .mem _ => .mem [⟨a, pa, len⟩]
      | t => t
  else if 2 ^ 48 ≤ a then .fail 1
  else match resolveVirt s w.perm a len with
    | .ok segs => .mem segs
    | .fault _ => .fail 3
    | .access => .fail 1

/-- The target of a frame on a strand. -/
def targetOf (s : State) (n : Fin 2048) (w : Need) (addr len : Nat) : Target :=
  match (s.strand n).who with
  | some .controller => if 2 ^ 52 ≤ addr then .fail 1 else physTarget s n w addr len
  | some .tenant => tenantTarget s w addr len
  | none => .fail 1

/-- The target of an ATOMIC_ADD: its last check refuses a bobbin, the far tier, the register space and elements not
naturally aligned; a reserved `ATYPE` is refused there too (log 73). -/
def addTarget (s : State) (n : Fin 2048) (aty addr len : Nat) : Target :=
  match targetOf s n .add addr len with
  | .reg _ => .fail 5
  | .mem segs =>
    let bad := segs.any fun g => decide (g.pa < 0x8800000) || (probePoints g.pa g.len).any (isFar s.mem)
    if bad ∨ 4 < aty ∨ addr % addWidth aty ≠ 0 ∨ len % addWidth aty ≠ 0 then .fail 5 else .mem segs
  | t => t

/-! ## What frames do (14 R383, R385; 12 R315) -/

def RxBody.type (b : RxBody) : Nat :=
  match b with
  | .write .. => 0x01
  | .writeFlagged .. => 0x02
  | .read .. => 0x03
  | .readResp .. => 0x04
  | .atomicAdd .. => 0x05
  | .doorbell .. => 0x11
  | .tally .. => 0x16
  | .lag .. => 0x17
  | .pace .. => 0x18

/-- Whether a frame acts only after every earlier one of its strand (14 R383). -/
def RxBody.ordered (b : RxBody) : Bool :=
  match b with
  | .writeFlagged .. | .read .. | .doorbell .. | .tally .. => true
  | _ => false

/-- Whether a frame is for the management domain: a TALLY, or one into the register space (18 R506). -/
def forMgmt (x : Strand) (b : RxBody) : Bool :=
  match b with
  | .tally _ => true
  | .write a _ | .writeFlagged a _ | .read a _ | .atomicAdd _ _ a _ =>
    x.cfg.owner == 1 && decide (0xF0000000 ≤ a.toNat) && decide (a.toNat < 0x100000000)
  | _ => false

/-- Whether a frame is a READ. -/
def RxBody.reads (b : RxBody) : Bool :=
  match b with
  | .read .. => true
  | _ => false

/-- A frame refused by the target's checks: counted and recorded; its status is ACCESS. -/
def refuseFrame (s : State) (n : Fin 2048) (f : RxFrame) (check : Nat) : State × Option Status :=
  let s := { s with twine := { s.twine with viol := satAdd 8 s.twine.viol } }
  let id := (s.strand n).peerId
  (record s 0x06 (some .access) 9 n.val
    [id % 2 ^ 64, id / 2 ^ 64, f.body.addr.toNat, fld f.h.psn.toNat 0 32 + fld f.body.type 32 8 + fld check 40 8],
   some .access)

/-- The table walks of a frame that names tenant virtual addresses (11 R301). -/
def walkTarget (s : State) (n : Fin 2048) (w : Need) (a len : Nat) : State :=
  if (s.strand n).who = some .tenant ∧ a < 2 ^ 48 then walkReach s (resolveVirt s w.perm a len) else s

/-- A WRITE applied. -/
def applyWrite (s : State) (n : Fin 2048) (f : RxFrame) (a : Nat) (bs : List Byte) : State × Option Status :=
  if bs = [] then (s, none) else
  let s := walkTarget s n .write a bs.length
  match targetOf s n .write a bs.length with
  | .fail c => refuseFrame s n f c
  | .reg off => (spaceWrite s off bs, none)
  | .mem segs =>
    let s := touchSegs s segs a bs.length true
    let (s', ok) := writeSegs s segs a bs
    if ok then (s', none) else (poisonRecord s' (firstPart s segs a bs.length) 0 0, some .faulted)

/-- Response frames of `d` bytes each queued on a strand; `mgmt`: from the register space. -/
def respond (s : State) (n : Fin 2048) (psn : BitVec 32) (bs : List Byte) (mgmt : Bool := false) : State :=
  let d := max 16 (frameData s (s.strand n))
  let k := (bs.length + d - 1) / d
  (List.range k).foldl (fun s i =>
    post s n (.readResp psn (i * d) (i + 1 == k) ((bs.drop (i * d)).take d) mgmt)) s

/-- A READ served: no data where it meets poison. A READ of length 0 is a flush. -/
def applyRead (s : State) (n : Fin 2048) (f : RxFrame) (a len : Nat) : State × Option Status :=
  if len = 0 then (s, none) else
  let s := walkTarget s n .read a len
  match targetOf s n .read a len with
  | .fail c => refuseFrame s n f c
  | .reg off => (respond s n f.h.psn (spaceRead s off len) true, none)
  | .mem segs =>
    match firstPoison s segs a len with
    | some b => (poisonRecord s (some b) 0 0, some .faulted)
    | none => (respond (touchSegs s segs a len false) n f.h.psn (readSegs s segs a len), none)

/-- An ATOMIC_ADD applied whole or, where it meets poison, not at all; with `FETCH` the old values go back. -/
def applyAdd (s : State) (n : Fin 2048) (f : RxFrame) (aty : Nat) (fetch : Bool) (a : Nat) (bs : List Byte) :
    State × Option Status :=
  if bs = [] then (s, none) else
  let s := walkTarget s n .add a bs.length
  match addTarget s n aty a bs.length with
  | .fail c => refuseFrame s n f c
  | .reg _ => (s, none)
  | .mem segs =>
    match firstPoison s segs a bs.length with
    | some b => (poisonRecord s (some b) 0 0, some .faulted)
    | none =>
      let old := readSegs s segs a bs.length
      let s := (addSegs s segs aty a bs).1
      (if fetch then respond s n f.h.psn old else s, none)

/-- A READ_RESP written to the requester's local range, once (14 R385). -/
def applyResp (s : State) (n : Fin 2048) (a : Word) (bs : List Byte) : State :=
  let psn : BitVec 32 := BitVec.ofNat 32 (a.toNat / 2 ^ 32)
  let off := a.toNat % 2 ^ 32
  match s.twine.rmas.find? fun r => r.strand = n ∧ r.resp.any fun e => e.1 = psn with
  | none => s
  | some r =>
    match r.resp.find? fun e => e.1 = psn with
    | none => s
    | some e =>
      let base := (if r.rop = 2 then r.base else r.resBase) + e.2.1 * r.d + off
      let segs := if r.rop = 2 then r.segs else r.resSegs
      let good := segsMapped s segs
      let s := touchSegs s segs base bs.length true
      let bad := if good then firstPart s segs base bs.length else none
      let s := poisonRecord (if good then (writeSegs s segs base bs).1 else s) bad r.queue.val 2
      let st : Status := if !good then .access else if bad.isSome then .faulted else .ok
      let left (x : BitVec 32 × Nat × Nat) : Option (BitVec 32 × Nat × Nat) :=
        if x.1 = psn then (if x.2.2 ≤ bs.length then none else some (x.1, x.2.1, x.2.2 - bs.length)) else some x
      settleRmas (setRma s r.queue r.seq fun r =>
        { r with resp := r.resp.filterMap left, st := if r.st ≠ .ok then r.st else st })

/-- The ACCEPT record of a refused doorbell: its `DCHK` is a free value (log 22). -/
def refuseRing (s : State) (n : Fin 2048) (q : Fin 4096) : State :=
  post s.draw.2 n (.accept [⟨q, .refused, false, s.draw.1.setWidth 32, 0, (s.q q).head⟩])

/-- Whether a strand may ring a queue: its owner owns the queue, and queues 0 to 15 are the lease holder's
(12 R315, 18 R498). -/
def mayRing (s : State) (n : Fin 2048) (q : Fin 4096) : Bool :=
  (s.strand n).who == some (queueOwner q) && (decide (16 ≤ q.val) || leaseStrand s n)

/-- The `TAIL` of a doorbell: beyond `HEAD` + N it is refused. -/
def ringTail (s : State) (n : Fin 2048) (q : Fin 4096) (tail : Nat) : State :=
  let x := s.q q
  if x.head + x.cfg.n < tail then refuseRing s n q
  else
    s.setQ q { x with tail := max x.tail tail, strand := some n
                      rings := if x.tail < tail then x.rings ++ [(tail, some n)] else x.rings }

/-- A doorbell: `TAIL`, then `DRAIN`, then `RELEASE`; then acceptance reads the entries. -/
def applyDoorbell (s : State) (n : Fin 2048) (q : Fin 4096) (drain release : Bool) (tail : Nat) : State :=
  if !mayRing s n q ∨ (s.q q).st = .off ∨ (s.q q).st = .draining then refuseRing s n q
  else
    let s := ringTail s n q tail
    let s := if drain then drainQueue s q else s
    let s := if release then releaseQueue s q else s
    if queueAccepts s q then runAcceptance s q else s

/-- A frame applied, with the status its ACK carries where it is not OK. -/
def applyFrame (s : State) (n : Fin 2048) (f : RxFrame) : State × Option Status :=
  match f.body with
  | .write a d | .writeFlagged a d => applyWrite s n f a.toNat d
  | .read a len => applyRead s n f a.toNat len.toNat
  | .readResp a d => (applyResp s n a d, none)
  | .atomicAdd t fe a d => applyAdd s n f t fe a.toNat d
  | .doorbell q dr rl t => (applyDoorbell s n q dr rl t.toNat, none)
  | .tally id => (takeTally s n id, none)
  | .lag w0 w1 => (lagFrame s n w0 w1, none)
  | .pace w0 w1 => (paceFrame s n w0 w1, none)

/-! ## Sequence numbers and ACKs sent (14 R386, R388) -/

/-- Distance from the highest PSN below which all is applied. -/
def Strand.ahead (x : Strand) (psn : BitVec 32) : Nat := (psn - x.rxC).toNat

/-- Whether a PSN has applied. -/
def Strand.seen (x : Strand) (psn : BitVec 32) : Bool :=
  x.ahead psn == 0 || decide (2 ^ 31 ≤ x.ahead psn) || x.rxBits.contains psn

/-- *C* advanced over the PSNs applied; `fuel` bounds them. -/
def advanceC : Nat → Strand → Strand
  | 0, x => x
  | k + 1, x =>
    if x.rxBits.contains (x.rxC + 1) then advanceC k { x with rxC := x.rxC + 1, rxBits := x.rxBits.filter (· != x.rxC + 1) }
    else x

/-- A PSN marked applied with its status; statuses are kept as far back as a sender may still ask. -/
def Strand.mark (x : Strand) (psn : BitVec 32) (st : Option Status) : Strand :=
  let y := advanceC (x.rxBits.length + 1) { x with rxBits := psn :: x.rxBits, ackDue := x.ackDue + 1 }
  let sts := match st with
    | some c => (psn, c.code) :: y.rxSt
    | none => y.rxSt
  { y with rxSt := sts.filter fun e => decide (2 ^ 32 - 1024 ≤ y.ahead e.1) || decide (y.ahead e.1 ≤ 1024) }

/-- The data of an ACK: the bitmap in words of 64 bits, and the status entries (14 R386; log 145). -/
def ackData (bits : List Nat) (sts : List (BitVec 32 × Nat)) : List Byte :=
  (List.range 16).flatMap (fun i => beBytes 8 (((List.range 64).map fun k => fld (b2n (bits.contains (64 * i + k))) k 1).sum)) ++
  sts.flatMap fun e => beBytes 8 (fld e.2 0 8 + fld e.1.toNat 32 32)

/-- An ACK sent now, with up to 16 statuses, those asked for first. While control frames may not leave its port it stays
due (13 R360, R368). -/
def sendAck (s : State) (n : Fin 2048) (first : List (BitVec 32 × Nat)) : State :=
  let x := s.strand n
  if !(s.port x.port).joined then s else
  if !ctrlSends s x.port then s.setStrand n { x with ackDue := max 1 x.ackDue } else
  let bits := x.rxBits.map fun p => (p - x.rxC - 1).toNat
  let sts := (first ++ x.rxSt.filter fun e => !first.contains e).take 16
  let hdr := frameHdr s n 0 false { type := 0x10 } (128 + 8 * sts.length)
  (s.setStrand n { x with txc := x.txc + 1, ackDue := 0 }).say (.ack x.port n x.rxC bits sts hdr
    (sealed_ s n true hdr (ackData bits sts)))

/-- The ACK that a repeated frame draws at once. -/
def ackAgain (s : State) (n : Fin 2048) (psn : BitVec 32) : State :=
  sendAck s n ((s.strand n).rxSt.filter fun e => e.1 = psn)

/-- ACK_DELAY_EXPIRY: applied frames that no outgoing frame has acknowledged are acknowledged. -/
def doAckDelayExpiry (n : Fin 2048) (s : State) : State := if (s.strand n).ackDue = 0 then s else sendAck s n []

/-- The command ACK_DELAY_EXPIRY (14 R386). -/
def execAckDelayExpiry (n : Fin 2048) (s : State) : Res := .next (doAckDelayExpiry n s)

/-- One frame applied and marked; an ACK goes at once where it is asked for, carries a status or is the 16th. -/
def applyMark (s : State) (n : Fin 2048) (f : RxFrame) : State :=
  let (s, st) := applyFrame s n f
  let x := { (s.strand n).mark f.h.psn st with tsEcho := f.h.ts, tsAt := some f.at_ }
  let s := s.setStrand n x
  if f.h.ackReq || st.isSome || decide (16 ≤ x.ackDue) then sendAck s n [] else s

/-- Held frames that are next apply (14 R383); `fuel` bounds them. -/
def releaseHeld : Nat → State → Fin 2048 → State
  | 0, s, _ => s
  | k + 1, s, n =>
    let x := s.strand n
    match x.held.find? fun f => f.h.psn = x.rxC + 1 with
    | some f => releaseHeld k (applyMark (s.setStrand n { x with held := x.held.filter fun g => g.h.psn != f.h.psn }) n f) n
    | none => s

/-- Whether an ATOMIC_ADD meets a range whose distaffs have failed: it applies after the map-out and its migration, so this
copy is dropped and the sender's retransmission meets the range again (10 R265, R289). -/
def addHeld (s : State) (n : Fin 2048) (b : RxBody) : Bool :=
  match b with
  | .atomicAdd t _ a d => match addTarget s n t a.toNat d.length with
    | .mem segs => addsWait s segs
    | _ => false
  | _ => false

/-- Whether a READ_RESP answers an RMA that waits for full service: this copy is dropped too (18 R491). -/
def respHeld (s : State) (n : Fin 2048) (b : RxBody) : Bool :=
  match b with
  | .readResp a _ => s.twine.rmas.any fun r =>
      r.strand == n && rmaHeld s r.queue && r.resp.any fun e => e.1 == BitVec.ofNat 32 (a.toNat / 2 ^ 32)
  | _ => false

/-- A sequenced frame by its PSN (14 R388). -/
def sequence (s : State) (n : Fin 2048) (f : RxFrame) : State :=
  let x := s.strand n
  if x.seen f.h.psn then
    ackAgain { s with twine := { s.twine with dups := satAdd 16 s.twine.dups } } n f.h.psn
  else if 1024 < x.ahead f.h.psn ∨ addHeld s n f.body ∨ respHeld s n f.body then s
  else if x.held.any fun g => g.h.psn = f.h.psn then sendAck s n []
  else if f.body.ordered && x.ahead f.h.psn != 1 then
    let s := s.setStrand n { x with held := x.held ++ [f] }
    if f.h.ackReq then sendAck s n [] else s
  else releaseHeld (x.held.length) (applyMark s n f) n

/-! ## ACKs received (14 R386 to R390) -/

/-- Whether an acknowledgement covers a PSN. -/
def covers (ackPsn : BitVec 32) (bits : List (Fin 1024)) (psn : BitVec 32) : Bool :=
  decide ((ackPsn - psn).toNat < 2 ^ 31) || bits.any fun k => psn == ackPsn + 1 + BitVec.ofNat 32 k.val

/-- An RTT sample taken (14 R389). -/
def Strand.sample (x : Strand) (now r : Nat) : Strand :=
  let x := { x with samples := (now, r) :: x.samples.filter fun y => decide (now ≤ y.1 + 30000000000) }
  match x.srtt with
  | none => { x with srtt := some r, rttvar := r / 2 }
  | some m => { x with rttvar := (3 * x.rttvar + (max m r - min m r)) / 4, srtt := some ((7 * m + r) / 8) }

/-- Whether the window may be cut: one RTT has passed since the last cut. -/
def Strand.mayCut (x : Strand) (now : Nat) : Bool := match x.cut with
  | none => true
  | some (t, r) => decide (t + r ≤ now)

/-- The window after a sample `r` that acknowledged `n` bytes (14 R390). -/
def Strand.adjust (x : Strand) (s : State) (r n : Nat) : Strand :=
  let t := (baseRtt s x).getD r + s.twine.target * 1000
  let m := mtu s x
  if r < t then { x with window := clampWindow m (x.window + m * n / max 1 x.window) }
  else if t < r ∧ x.mayCut s.now then
    { x with window := clampWindow m (x.window * (2 * r + 8 * t) / (10 * r)), cut := some (s.now, r) }
  else x

/-- Frames missing while three or more later ones have applied are sent again (14 R387); the window's cut is an update, at
which the path is chosen again where the joined ports have changed. -/
def Strand.fast (x : Strand) (s : State) (n : Fin 2048) (ackPsn : BitVec 32) (bits : List (Fin 1024)) : Strand :=
  let later (psn : BitVec 32) : Nat :=
    (bits.filter fun k => decide (0 < (ackPsn + 1 + BitVec.ofNat 32 k.val - psn).toNat) &&
      decide ((ackPsn + 1 + BitVec.ofNat 32 k.val - psn).toNat < 2 ^ 31)).length
  let lost (f : TxFrame) : Bool := !f.again && decide (3 ≤ later f.psn)
  if !x.unacked.any lost then x else
  let x := { x with unacked := x.unacked.map fun f => if lost f then { f with again := true } else f }
  if x.mayCut s.now then
    Strand.choose { x with window := clampWindow (mtu s x) (x.window * 6 / 10), cut := some (s.now, x.srtt.getD 0) } s n
  else x

/-- Status of a code in an ACK. -/
def ackStatus (c : Nat) : Status := if c = Status.access.code then .access else .faulted

/-- What the acknowledgement of a frame tells its RMA. -/
def tellRma (sts : List (BitVec 32 × BitVec 8)) (s : State) (f : TxFrame) : State :=
  match f.msg with
  | .rma q seq _ =>
    let st := (sts.find? fun e => e.1 = f.psn).map fun e => ackStatus e.2.toNat
    setRma s q seq fun r =>
      { r with acked := r.acked + 1
               resp := if st.isSome then r.resp.filter (fun e => e.1 != f.psn) else r.resp
               st := if r.st = .ok then st.getD .ok else r.st }
  | _ => s

/-- An acknowledgement on a strand: of an ACK frame with its bitmap, statuses and echo, or the `ACK_PSN` of another
frame. -/
def takeAck (s : State) (n : Fin 2048) (ackPsn : BitVec 32) (bits : List (Fin 1024)) (sts : List (BitVec 32 × BitVec 8))
    (echo : Option (BitVec 32)) : State :=
  let x := s.strand n
  let done := x.unacked.filter fun f => covers ackPsn bits f.psn
  let x := { x with unacked := x.unacked.filter fun f => !covers ackPsn bits f.psn }
  let x := if done = [] then x else
    { x with backoff := 0, pathExp := 0, expired := [], st := if x.st = .stalled then .opened else x.st }
  let newest := done.getLast?
  let bytes : Nat := (done.map fun (f : TxFrame) => f.size).sum
  let x := match newest, echo with
    | some f, some e =>
      if f.retx ∨ e = 0 then x
      else
        let r := (BitVec.ofNat 32 s.now - e).toNat
        (((x.sample s.now r).adjust s r bytes).choose s n)
    | _, _ => x
  let x := x.fast s n ackPsn bits
  settleRmas (done.foldl (tellRma sts) (s.setStrand n x))

/-! ## Reception (14 R374, R379, R436; 17 R471) -/

/-- A strand after a frame of a key phase; a tenant-owned peer strand moves with it to the next value of TRANSIT
where one is held or in effect (16 R436). -/
def Strand.phased (x : Strand) (s : State) (kphase : Bool) : Strand :=
  if kphase == decide (x.rxPhase % 2 = 1) then x
  else if x.oldPhase then x
  else
    let g := (s.sec.keys.get 1).gen
    let next : Bool := x.rxGen + 1 == g || s.sec.transitNext.isSome || !s.sec.transitPend.isEmpty
    { x with rxPhase := x.rxPhase + 1, oldPhase := true, oldGen := x.rxGen, rxGen := if next then x.rxGen + 1 else x.rxGen }

/-- The generation of TRANSIT under which a frame comes: that of its key phase (16 R436). -/
def Strand.genOf (x : Strand) (kphase : Bool) : BitVec 32 :=
  if kphase == decide (x.rxPhase % 2 = 1) then x.rxGen else x.oldGen

/-- Whether frames under a value of TRANSIT that a strand's peer uses are accepted (16 R436). -/
def Strand.keyed (x : Strand) (s : State) (gen : BitVec 32) : Bool :=
  let g := (s.sec.keys.get 1).gen
  x.session || x.cfg.owner != 2 || gen == g || (gen + 1 == g && s.sec.oldTransit) ||
    (gen == g + 1 && (s.sec.transitNext.isSome || !s.sec.transitPend.isEmpty))

/-- The transmission counter of a frame: the value nearest above the highest authenticated whose low bits it bears
(14 R379). -/
def rebuiltTxc (hi : Nat) (lo : BitVec 16) : Nat := hi + 1 + (lo - BitVec.ofNat 16 (hi + 1)).toNat

/-- Whether a strand belongs to the address and port that sent a frame (14 R374): the peer's address, and a port of the
path entropy, which the peer's paths may change (14 R370, log 155). -/
def Strand.sentBy (x : Strand) (h : FrameHdr) : Bool := x.cfg.ip == h.src && decide (49152 ≤ h.sport.toNat)

/-- A frame whose strand is open and whose key holds: the strand with its phase, or none where it is discarded. -/
def admitFrame (s : State) (h : FrameHdr) (len : Nat) : Option Strand :=
  let x := s.strand h.strand
  if h.strand.val = 0 ∨ x.st = .closed ∨ x.st = .lost ∨ 8176 < len ∨ !x.sentBy h then none else
  let y := x.phased s h.kphase
  if y.keyed s (y.genOf h.kphase) then some { y with rxc := rebuiltTxc y.rxc h.txcLo } else none

/-- Priority of a received frame: the PCP of its tag, or 0 (13 R357). Nothing turns on it: all priorities share one receive
buffer (R359). -/
def framePrio (h : FrameHdr) : BitVec 3 := h.pcp.getD 0

/-- Bytes of a received frame from destination address to FCS (13 R355, 14 R381). -/
def frameBytes (h : FrameHdr) (len : Nat) : Nat :=
  (if isV6 h.src then 114 else 94) + (if h.pcp.isSome then 4 else 0) + len

/-- Whether a frame is addressed to the Twine engine: its port takes frames, it is no longer than `MAX_FRAME`, and it names an
enabled address of the port's group and the Twine port (13 R355, R357; 14 R371). -/
def frameAt (s : State) (h : FrameHdr) (len : Nat) : Bool :=
  let c := (s.port h.port).cfg
  portTakes s h.port && decide (frameBytes h len ≤ c.maxFrame) && h.dport.toNat == s.twine.udp &&
  groupHas (s.twine.groups.get c.group) (if isV6 h.dst then h.dst else h.dst % 2 ^ 32) (isV6 h.dst)

/-- Whether a frame is one for the Twine engine, which no warm reset holds. -/
def frameHere (s : State) (h : FrameHdr) (len : Nat) : Bool := frameAt s h len && !s.mgmt.warming

/-- A frame that does not get to the engine: one longer than `MAX_FRAME` is counted, others are not (13 R355, R357). -/
def turnAway (s : State) (h : FrameHdr) (len : Nat) : State :=
  if frameReaches s h.port && decide ((s.port h.port).cfg.maxFrame < frameBytes h len) then doFcsBadFrame h.port false s else s

/-- Bytes of the frames of a port that wait in its receive buffer. -/
def waitingBytes (s : State) (p : Fin 32) : Nat :=
  ((s.twine.waiting.filter fun f => f.h.port = p).map fun f => frameBytes f.h f.body.len).sum

/-- Bytes of a receive buffer that sequenced frames may fill: the last 256 KiB are kept for control frames and LLDPDUs
(13 R359, log 147). -/
def dataBuffer : Nat := rxBuffer - 262144

/-- Whether a sequenced frame of `n` bytes finds no room beside what waits in the buffer of its port and what it was last
told to hold (13 R359). -/
def dataFull (s : State) (p : Fin 32) (n : Nat) : Bool :=
  decide (dataBuffer < max (s.port p).fill (waitingBytes s p) + n)

/-- A frame that waits for the exit from P3. -/
def holdFrame (s : State) (f : RxFrame) : State :=
  let s := { s with twine := { s.twine with waiting := s.twine.waiting ++ [f] } }
  if (s.port f.h.port).xoffTx = 0 then sendXoff s f.h.port (waitingBytes s f.h.port) else s

/-- A frame that the engine takes. -/
def takeFrame (s : State) (f : RxFrame) : State :=
  match admitFrame s f.h f.body.len with
  | none => badFrame s
  | some x => sequence (takeAck (s.setStrand f.h.strand x) f.h.strand f.h.ackPsn [] [] none) f.h.strand f

/-- A received sequenced frame, stamped as it comes (13 R358), where the receive buffer has room for it: in P3 it starts the exit, and waits for it unless the
management domain serves it; during a management restart that domain answers nothing, and in an airflow stop no other does
(17 R475). -/
def receive (s : State) (h : FrameHdr) (b : RxBody) : State :=
  let f : RxFrame := { h, body := b, at_ := s.now }
  -- while a warm reset runs, only reads of the management domain are taken (18 R506)
  let mgmt := forMgmt (s.strand h.strand) b
  if !(frameHere s h b.len || (frameAt s h b.len && mgmt && b.reads)) then turnAway s h b.len else
  if dataFull s h.port (frameBytes h b.len) then dropRx s h.port
  else if (mgmt && s.mgmt.restarting) || (s.pwr.stopped && !mgmt) then s else
  let asleep := s.pwr.pstate == .p3
  let s := if asleep then startExit s else s
  if asleep && !mgmt then holdFrame s f else takeFrame s f

/-- WRITE. -/
def doWrite (h : FrameHdr) (addr : Word) (data : List Byte) (s : State) : State := receive s h (.write addr data)
/-- WRITE_FLAGGED. -/
def doWriteFlagged (h : FrameHdr) (addr : Word) (data : List Byte) (s : State) : State :=
  receive s h (.writeFlagged addr data)
/-- READ. -/
def doRead (h : FrameHdr) (addr : Word) (len : BitVec 32) (s : State) : State := receive s h (.read addr len)
/-- READ_RESP. -/
def doReadResp (h : FrameHdr) (addr : Word) (data : List Byte) (s : State) : State := receive s h (.readResp addr data)
/-- ATOMIC_ADD. -/
def doAtomicAdd (h : FrameHdr) (aty : Fin 8) (fetch : Bool) (addr : Word) (data : List Byte) (s : State) : State :=
  receive s h (.atomicAdd aty.val fetch addr data)
/-- DOORBELL. -/
def doDoorbell (h : FrameHdr) (q : Fin 4096) (drain release : Bool) (tail : Word) (s : State) : State :=
  receive s h (.doorbell q drain release tail)
/-- TALLY. -/
def doTally (h : FrameHdr) (id : BitVec 32) (s : State) : State := receive s h (.tally id)
/-- LAG. -/
def doLag (h : FrameHdr) (w0 w1 : Word) (s : State) : State := receive s h (.lag w0 w1)
/-- PACE. -/
def doPace (h : FrameHdr) (w0 w1 : Word) (s : State) : State := receive s h (.pace w0 w1)

/-- The command WRITE (14 R383). -/
def execWrite (h : FrameHdr) (addr : Word) (data : List Byte) (s : State) : Res := .next (doWrite h addr data s)
/-- The command WRITE_FLAGGED (14 R383). -/
def execWriteFlagged (h : FrameHdr) (addr : Word) (data : List Byte) (s : State) : Res := .next (doWriteFlagged h addr data s)
/-- The command READ (14 R383). -/
def execRead (h : FrameHdr) (addr : Word) (len : BitVec 32) (s : State) : Res := .next (doRead h addr len s)
/-- The command READ_RESP (14 R385). -/
def execReadResp (h : FrameHdr) (addr : Word) (data : List Byte) (s : State) : Res := .next (doReadResp h addr data s)
/-- The command ATOMIC_ADD (14 R385). -/
def execAtomicAdd (h : FrameHdr) (aty : Fin 8) (fetch : Bool) (addr : Word) (data : List Byte) (s : State) : Res :=
  .next (doAtomicAdd h aty fetch addr data s)
/-- The command DOORBELL (12 R315). -/
def execDoorbell (h : FrameHdr) (q : Fin 4096) (drain release : Bool) (tail : Word) (s : State) : Res :=
  .next (doDoorbell h q drain release tail s)
/-- The command TALLY (12 R345). -/
def execTally (h : FrameHdr) (id : BitVec 32) (s : State) : Res := .next (doTally h id s)
/-- The command LAG (15 R422). -/
def execLag (h : FrameHdr) (w0 w1 : Word) (s : State) : Res := .next (doLag h w0 w1 s)
/-- The command PACE (15 R423). -/
def execPace (h : FrameHdr) (w0 w1 : Word) (s : State) : Res := .next (doPace h w0 w1 s)

/-- ACK: the bitmap, the statuses and the echo of an ACK frame. -/
def doAck (h : FrameHdr) (bits : List (Fin 1024)) (sts : List (BitVec 32 × BitVec 8)) (s : State) : State :=
  let len := 128 + 8 * sts.length
  if !frameHere s h len then turnAway s h len
  else if noRoom s h.port (frameBytes h len) then dropRx s h.port
  else
  let s := if s.pwr.pstate = .p3 then startExit s else s
  match admitFrame s h len with
  | none => badFrame s
  | some x => takeAck (s.setStrand h.strand x) h.strand h.ackPsn bits sts (some h.tsEcho)

/-- The command ACK (14 R386). -/
def execAck (h : FrameHdr) (bits : List (Fin 1024)) (sts : List (BitVec 32 × BitVec 8)) (s : State) : Res :=
  .next (doAck h bits sts s)

/-! ## The end of a power state (17 R471) -/

/-- The exit from P3 is done: work that a STOP has stopped is finished (18 R504), then the frames that waited are taken in
their order. -/
def leaveP3 (s : State) : State :=
  let fs := s.twine.waiting
  let s : State := { s with pwr := { s.pwr with pstate := .p0, exiting := false }, twine := { s.twine with waiting := [] } }
  fs.foldl takeFrame (interruptAll s)

/-- POWER_STATE_EXIT_DONE: the exit that runs ends after its latency. -/
def doPowerStateExitDone (u : PwrUnit) (s : State) : State :=
  match u with
  | .p1 k => if (s.sk k).pstate = .p1 ∧ (s.sk k).exiting then s.setSk k { s.sk k with pstate := .p0, exiting := false } else s
  | .p2 k => if (s.sk k).pstate = .p2 ∧ (s.sk k).exiting then s.setSk k { s.sk k with pstate := .p0, exiting := false } else s
  | .p3 => if s.pwr.pstate = .p3 ∧ s.pwr.exiting ∧ s.mgmt.phase ≠ .stopped then leaveP3 s else s
  | .p4 => if s.pwr.pstate = .p4 ∧ s.pwr.exiting then leaveP4 s else s

/-- The command POWER_STATE_EXIT_DONE. -/
def execPowerStateExitDone (u : PwrUnit) (s : State) : Res := .next (doPowerStateExitDone u s)

end Sys2Proof.Machine
end

