-- ==== Sys2Proof/Machine/Issue.lean ====
section
/-!
DEFINITION. The commands that are Swiard words: each is presented to its spindle (06 R138, R152), and its
bundle issues as its words ask.
-/

namespace Sys2Proof.Machine

/-- What a Swiard word asks for. A command that is no word asks for nothing. -/
def effOf (i : Instr) (s : State) : Eff :=
  match i with
  | .add h rd ra rb => effAdd h rd ra rb s
  | .sub h rd ra rb => effSub h rd ra rb s
  | .and h rd ra rb => effAnd h rd ra rb s
  | .or h rd ra rb => effOr h rd ra rb s
  | .xor h rd ra rb => effXor h rd ra rb s
  | .sll h rd ra rb => effSll h rd ra rb s
  | .srl h rd ra rb => effSrl h rd ra rb s
  | .sra h rd ra rb => effSra h rd ra rb s
  | .mul h rd ra rb => effMul h rd ra rb s
  | .mulhu h rd ra rb => effMulhu h rd ra rb s
  | .min h rd ra rb => effMin h rd ra rb s
  | .max h rd ra rb => effMax h rd ra rb s
  | .minu h rd ra rb => effMinu h rd ra rb s
  | .maxu h rd ra rb => effMaxu h rd ra rb s
  | .addi h rd ra imm => effAddi h rd ra imm s
  | .andi h rd ra imm => effAndi h rd ra imm s
  | .ori h rd ra imm => effOri h rd ra imm s
  | .xori h rd ra imm => effXori h rd ra imm s
  | .slli h rd ra sh => effSlli h rd ra sh s
  | .srli h rd ra sh => effSrli h rd ra sh s
  | .srai h rd ra sh => effSrai h rd ra sh s
  | .movi h rd imm => effMovi h rd imm s
  | .movhi h rd ra imm => effMovhi h rd ra imm s
  | .cmpEq h pd ra b => effCmpEq h pd ra b s
  | .cmpNe h pd ra b => effCmpNe h pd ra b s
  | .cmpLt h pd ra b => effCmpLt h pd ra b s
  | .cmpGe h pd ra b => effCmpGe h pd ra b s
  | .cmpLtu h pd ra b => effCmpLtu h pd ra b s
  | .cmpGeu h pd ra b => effCmpGeu h pd ra b s
  | .pand h pd pa pb => effPand h pd pa pb s
  | .por h pd pa pb => effPor h pd pa pb s
  | .pxor h pd pa pb => effPxor h pd pa pb s
  | .pnot h pd pa => effPnot h pd pa s
  | .ld1 h rd ra off => effLd1 h rd ra off s
  | .ld2 h rd ra off => effLd2 h rd ra off s
  | .ld4 h rd ra off => effLd4 h rd ra off s
  | .ld8 h rd ra off => effLd8 h rd ra off s
  | .ld1u h rd ra off => effLd1u h rd ra off s
  | .ld2u h rd ra off => effLd2u h rd ra off s
  | .ld4u h rd ra off => effLd4u h rd ra off s
  | .st1 h rs ra off => effSt1 h rs ra off s
  | .st2 h rs ra off => effSt2 h rs ra off s
  | .st4 h rs ra off => effSt4 h rs ra off s
  | .st8 h rs ra off => effSt8 h rs ra off s
  | .br h off => effBr h off s
  | .bdec h ra off => effBdec h ra off s
  | .call h off => effCall h off s
  | .jr h ra => effJr h ra s
  | .ret h => effRet h s
  | .nop h => effNop h s
  | .endShare h => effEnd h s
  | .brk h code => effBrk h code s
  | .csrr h rd csr => effCsrr h rd csr s
  | .csrw h csr ra => effCsrw h csr ra s
  | .ldw h m ra fb scb => effLdw h m ra fb scb s
  | .mma h c m ra mr mode fa sca fb scb => effMma h c m ra mr mode fa sca fb scb s
  | .vadd h vd va vb f rm np => effVadd h vd va vb f rm np s
  | .vmul h vd va vb f rm np => effVmul h vd va vb f rm np s
  | .vfma h vd va vb vc f rm np nc => effVfma h vd va vb vc f rm np nc s
  | .vmin h vd va vb f => effVmin h vd va vb f s
  | .vmax h vd va vb f => effVmax h vd va vb f s
  | .vcvt h vd va vb f f2 rm satInf np ix => effVcvt h vd va vb f f2 rm satInf np ix s
  | .vexp2 h vd va f rm ix => effVexp2 h vd va f rm ix s
  | .vlog2 h vd va f rm ix => effVlog2 h vd va f rm ix s
  | .vrcp h vd va f rm ix => effVrcp h vd va f rm ix s
  | .vrsq h vd va f rm ix => effVrsq h vd va f rm ix s
  | .vtanh h vd va f rm ix => effVtanh h vd va f rm ix s
  | .vsin h vd va f rm ix => effVsin h vd va f rm ix s
  | .vcos h vd va f rm ix => effVcos h vd va f rm ix s
  | .vsig h vd va f rm ix => effVsig h vd va f rm ix s
  | .vgelu h vd va f rm ix => effVgelu h vd va f rm ix s
  | .vsilu h vd va f rm ix => effVsilu h vd va f rm ix s
  | .vrd h vd c row => effVrd h vd c row s
  | .vwr h c row vs => effVwr h c row vs s
  | .vscr h c vs => effVscr h c vs s
  | .vld h vd ra off => effVld h vd ra off s
  | .vst h vs ra off => effVst h vs ra off s
  | .smaxP1 h c n sc mask init => effSmaxP1 h c n sc mask init s
  | .smaxP2 h cd ct n sc mask raw => effSmaxP2 h cd ct n sc mask raw s
  | .smaxFac h vd => effSmaxFac h vd s
  | .smaxLse h vd => effSmaxLse h vd s
  | .smaxMerge h va vb => effSmaxMerge h va vb s
  | .rstatP1 h c n init => effRstatP1 h c n init s
  | .rstatP2 h c n => effRstatP2 h c n s
  | .rstatGet h vd q => effRstatGet h vd q s
  | .rnormLn h cd ct n se => effRnormLn h cd ct n se s
  | .rnormRms h cd ct n se => effRnormRms h cd ct n se s
  | .rdot h vd ca cb n => effRdot h vd ca cb n s
  | .rsum h vd ca n => effRsum h vd ca n s
  | .rsave h ra => effRsave h ra s
  | .rload h ra => effRload h ra s
  | .emov h k ra => effEmov h k ra s
  | .emovs h rd k => effEmovs h rd k s
  | .eadd h k j imm => effEadd h k j imm s
  | .qnt h ra vs fmt rm satInf g ix => effQnt h ra vs fmt rm satInf g ix s
  | .qntt h ra ct n fmt rm satInf g ix => effQntt h ra ct n fmt rm satInf g ix s
  | .qexp h dst ct n fmt => effQexp h dst ct n fmt s
  | .dqnt h ct ra n fmt g => effDqnt h ct ra n fmt g s
  | .qgrad h cd cx cg n va fmt rm satInf g ix => effQgrad h cd cx cg n va fmt rm satInf g ix s
  | .rsc h ra ct n fmt rm g vm vs => effRsc h ra ct n fmt rm g vm vs s
  | .fmv h f => effFmv h f s
  | .fadd h f => effFadd h f s
  | .ffill h t sd sv sn fs fd hint => effFfill h t sd sv sn fs fd hint s
  | .twait h t => effTwait h t s
  | .tpoll h pd t => effTpoll h pd t s
  | .tstat h rd t => effTstat h rd t s
  | .sfence h => effSfence h s
  | .cread h rd ra => effCread h rd ra s
  | .cwait h ra rb => effCwait h ra rb s
  | _ => { e := true, slot := .c, cls := 0, opc := 0, on := false }

/-- The word ADD. -/
def execAdd (h : Hdr) (rd ra rb : Fin 32) (s : State) : Res :=
  .next (presentWord effOf (.add h rd ra rb) h.sp s)

/-- The word SUB. -/
def execSub (h : Hdr) (rd ra rb : Fin 32) (s : State) : Res :=
  .next (presentWord effOf (.sub h rd ra rb) h.sp s)

/-- The word AND. -/
def execAnd (h : Hdr) (rd ra rb : Fin 32) (s : State) : Res :=
  .next (presentWord effOf (.and h rd ra rb) h.sp s)

/-- The word OR. -/
def execOr (h : Hdr) (rd ra rb : Fin 32) (s : State) : Res :=
  .next (presentWord effOf (.or h rd ra rb) h.sp s)

/-- The word XOR. -/
def execXor (h : Hdr) (rd ra rb : Fin 32) (s : State) : Res :=
  .next (presentWord effOf (.xor h rd ra rb) h.sp s)

/-- The word SLL. -/
def execSll (h : Hdr) (rd ra rb : Fin 32) (s : State) : Res :=
  .next (presentWord effOf (.sll h rd ra rb) h.sp s)

/-- The word SRL. -/
def execSrl (h : Hdr) (rd ra rb : Fin 32) (s : State) : Res :=
  .next (presentWord effOf (.srl h rd ra rb) h.sp s)

/-- The word SRA. -/
def execSra (h : Hdr) (rd ra rb : Fin 32) (s : State) : Res :=
  .next (presentWord effOf (.sra h rd ra rb) h.sp s)

/-- The word MUL. -/
def execMul (h : Hdr) (rd ra rb : Fin 32) (s : State) : Res :=
  .next (presentWord effOf (.mul h rd ra rb) h.sp s)

/-- The word MULHU. -/
def execMulhu (h : Hdr) (rd ra rb : Fin 32) (s : State) : Res :=
  .next (presentWord effOf (.mulhu h rd ra rb) h.sp s)

/-- The word MIN. -/
def execMin (h : Hdr) (rd ra rb : Fin 32) (s : State) : Res :=
  .next (presentWord effOf (.min h rd ra rb) h.sp s)

/-- The word MAX. -/
def execMax (h : Hdr) (rd ra rb : Fin 32) (s : State) : Res :=
  .next (presentWord effOf (.max h rd ra rb) h.sp s)

/-- The word MINU. -/
def execMinu (h : Hdr) (rd ra rb : Fin 32) (s : State) : Res :=
  .next (presentWord effOf (.minu h rd ra rb) h.sp s)

/-- The word MAXU. -/
def execMaxu (h : Hdr) (rd ra rb : Fin 32) (s : State) : Res :=
  .next (presentWord effOf (.maxu h rd ra rb) h.sp s)

/-- The word ADDI. -/
def execAddi (h : Hdr) (rd ra : Fin 32) (imm : BitVec 32) (s : State) : Res :=
  .next (presentWord effOf (.addi h rd ra imm) h.sp s)

/-- The word ANDI. -/
def execAndi (h : Hdr) (rd ra : Fin 32) (imm : BitVec 32) (s : State) : Res :=
  .next (presentWord effOf (.andi h rd ra imm) h.sp s)

/-- The word ORI. -/
def execOri (h : Hdr) (rd ra : Fin 32) (imm : BitVec 32) (s : State) : Res :=
  .next (presentWord effOf (.ori h rd ra imm) h.sp s)

/-- The word XORI. -/
def execXori (h : Hdr) (rd ra : Fin 32) (imm : BitVec 32) (s : State) : Res :=
  .next (presentWord effOf (.xori h rd ra imm) h.sp s)

/-- The word SLLI. -/
def execSlli (h : Hdr) (rd ra : Fin 32) (sh : Fin 64) (s : State) : Res :=
  .next (presentWord effOf (.slli h rd ra sh) h.sp s)

/-- The word SRLI. -/
def execSrli (h : Hdr) (rd ra : Fin 32) (sh : Fin 64) (s : State) : Res :=
  .next (presentWord effOf (.srli h rd ra sh) h.sp s)

/-- The word SRAI. -/
def execSrai (h : Hdr) (rd ra : Fin 32) (sh : Fin 64) (s : State) : Res :=
  .next (presentWord effOf (.srai h rd ra sh) h.sp s)

/-- The word MOVI. -/
def execMovi (h : Hdr) (rd : Fin 32) (imm : BitVec 32) (s : State) : Res :=
  .next (presentWord effOf (.movi h rd imm) h.sp s)

/-- The word MOVHI. -/
def execMovhi (h : Hdr) (rd ra : Fin 32) (imm : BitVec 32) (s : State) : Res :=
  .next (presentWord effOf (.movhi h rd ra imm) h.sp s)

/-- The word CMP_EQ. -/
def execCmpEq (h : Hdr) (pd : Fin 8) (ra : Fin 32) (b : CmpSrc) (s : State) : Res :=
  .next (presentWord effOf (.cmpEq h pd ra b) h.sp s)

/-- The word CMP_NE. -/
def execCmpNe (h : Hdr) (pd : Fin 8) (ra : Fin 32) (b : CmpSrc) (s : State) : Res :=
  .next (presentWord effOf (.cmpNe h pd ra b) h.sp s)

/-- The word CMP_LT. -/
def execCmpLt (h : Hdr) (pd : Fin 8) (ra : Fin 32) (b : CmpSrc) (s : State) : Res :=
  .next (presentWord effOf (.cmpLt h pd ra b) h.sp s)

/-- The word CMP_GE. -/
def execCmpGe (h : Hdr) (pd : Fin 8) (ra : Fin 32) (b : CmpSrc) (s : State) : Res :=
  .next (presentWord effOf (.cmpGe h pd ra b) h.sp s)

/-- The word CMP_LTU. -/
def execCmpLtu (h : Hdr) (pd : Fin 8) (ra : Fin 32) (b : CmpSrc) (s : State) : Res :=
  .next (presentWord effOf (.cmpLtu h pd ra b) h.sp s)

/-- The word CMP_GEU. -/
def execCmpGeu (h : Hdr) (pd : Fin 8) (ra : Fin 32) (b : CmpSrc) (s : State) : Res :=
  .next (presentWord effOf (.cmpGeu h pd ra b) h.sp s)

/-- The word PAND. -/
def execPand (h : Hdr) (pd pa pb : Fin 8) (s : State) : Res :=
  .next (presentWord effOf (.pand h pd pa pb) h.sp s)

/-- The word POR. -/
def execPor (h : Hdr) (pd pa pb : Fin 8) (s : State) : Res :=
  .next (presentWord effOf (.por h pd pa pb) h.sp s)

/-- The word PXOR. -/
def execPxor (h : Hdr) (pd pa pb : Fin 8) (s : State) : Res :=
  .next (presentWord effOf (.pxor h pd pa pb) h.sp s)

/-- The word PNOT. -/
def execPnot (h : Hdr) (pd pa : Fin 8) (s : State) : Res :=
  .next (presentWord effOf (.pnot h pd pa) h.sp s)

/-- The word LD1. -/
def execLd1 (h : Hdr) (rd ra : Fin 32) (off : BitVec 32) (s : State) : Res :=
  .next (presentWord effOf (.ld1 h rd ra off) h.sp s)

/-- The word LD2. -/
def execLd2 (h : Hdr) (rd ra : Fin 32) (off : BitVec 32) (s : State) : Res :=
  .next (presentWord effOf (.ld2 h rd ra off) h.sp s)

/-- The word LD4. -/
def execLd4 (h : Hdr) (rd ra : Fin 32) (off : BitVec 32) (s : State) : Res :=
  .next (presentWord effOf (.ld4 h rd ra off) h.sp s)

/-- The word LD8. -/
def execLd8 (h : Hdr) (rd ra : Fin 32) (off : BitVec 32) (s : State) : Res :=
  .next (presentWord effOf (.ld8 h rd ra off) h.sp s)

/-- The word LD1U. -/
def execLd1u (h : Hdr) (rd ra : Fin 32) (off : BitVec 32) (s : State) : Res :=
  .next (presentWord effOf (.ld1u h rd ra off) h.sp s)

/-- The word LD2U. -/
def execLd2u (h : Hdr) (rd ra : Fin 32) (off : BitVec 32) (s : State) : Res :=
  .next (presentWord effOf (.ld2u h rd ra off) h.sp s)

/-- The word LD4U. -/
def execLd4u (h : Hdr) (rd ra : Fin 32) (off : BitVec 32) (s : State) : Res :=
  .next (presentWord effOf (.ld4u h rd ra off) h.sp s)

/-- The word ST1. -/
def execSt1 (h : Hdr) (rs ra : Fin 32) (off : BitVec 32) (s : State) : Res :=
  .next (presentWord effOf (.st1 h rs ra off) h.sp s)

/-- The word ST2. -/
def execSt2 (h : Hdr) (rs ra : Fin 32) (off : BitVec 32) (s : State) : Res :=
  .next (presentWord effOf (.st2 h rs ra off) h.sp s)

/-- The word ST4. -/
def execSt4 (h : Hdr) (rs ra : Fin 32) (off : BitVec 32) (s : State) : Res :=
  .next (presentWord effOf (.st4 h rs ra off) h.sp s)

/-- The word ST8. -/
def execSt8 (h : Hdr) (rs ra : Fin 32) (off : BitVec 32) (s : State) : Res :=
  .next (presentWord effOf (.st8 h rs ra off) h.sp s)

/-- The word BR. -/
def execBr (h : Hdr) (off : BitVec 32) (s : State) : Res :=
  .next (presentWord effOf (.br h off) h.sp s)

/-- The word BDEC. -/
def execBdec (h : Hdr) (ra : Fin 32) (off : BitVec 32) (s : State) : Res :=
  .next (presentWord effOf (.bdec h ra off) h.sp s)

/-- The word CALL. -/
def execCall (h : Hdr) (off : BitVec 32) (s : State) : Res :=
  .next (presentWord effOf (.call h off) h.sp s)

/-- The word JR. -/
def execJr (h : Hdr) (ra : Fin 32) (s : State) : Res :=
  .next (presentWord effOf (.jr h ra) h.sp s)

/-- The word RET. -/
def execRet (h : Hdr) (s : State) : Res :=
  .next (presentWord effOf (.ret h) h.sp s)

/-- The word NOP. -/
def execNop (h : Hdr) (s : State) : Res :=
  .next (presentWord effOf (.nop h) h.sp s)

/-- The word END. -/
def execEndShare (h : Hdr) (s : State) : Res :=
  .next (presentWord effOf (.endShare h) h.sp s)

/-- The word BRK. -/
def execBrk (h : Hdr) (code : BitVec 8) (s : State) : Res :=
  .next (presentWord effOf (.brk h code) h.sp s)

/-- The word CSRR. -/
def execCsrr (h : Hdr) (rd : Fin 32) (csr : BitVec 12) (s : State) : Res :=
  .next (presentWord effOf (.csrr h rd csr) h.sp s)

/-- The word CSRW. -/
def execCsrw (h : Hdr) (csr : BitVec 12) (ra : Fin 32) (s : State) : Res :=
  .next (presentWord effOf (.csrw h csr ra) h.sp s)

/-- The word LDW. -/
def execLdw (h : Hdr) (m : Fin 2) (ra : Fin 32) (fb : Fmt) (scb : Bool) (s : State) : Res :=
  .next (presentWord effOf (.ldw h m ra fb scb) h.sp s)

/-- The word MMA. -/
def execMma (h : Hdr) (c : Fin 4) (m : Fin 2) (ra : Fin 32) (mr : Num7) (mode : MmaMode) (fa : Fmt) (sca : Bool) (fb : Fmt) (scb : Bool) (s : State) : Res :=
  .next (presentWord effOf (.mma h c m ra mr mode fa sca fb scb) h.sp s)

/-- The word VADD. -/
def execVadd (h : Hdr) (vd va : Fin 32) (vb : VSrc) (f : Fmt) (rm : RM) (np : Bool) (s : State) : Res :=
  .next (presentWord effOf (.vadd h vd va vb f rm np) h.sp s)

/-- The word VMUL. -/
def execVmul (h : Hdr) (vd va : Fin 32) (vb : VSrc) (f : Fmt) (rm : RM) (np : Bool) (s : State) : Res :=
  .next (presentWord effOf (.vmul h vd va vb f rm np) h.sp s)

/-- The word VFMA. -/
def execVfma (h : Hdr) (vd va : Fin 32) (vb : VSrc) (vc : Fin 32) (f : Fmt) (rm : RM) (np nc : Bool) (s : State) : Res :=
  .next (presentWord effOf (.vfma h vd va vb vc f rm np nc) h.sp s)

/-- The word VMIN. -/
def execVmin (h : Hdr) (vd va : Fin 32) (vb : VSrc) (f : Fmt) (s : State) : Res :=
  .next (presentWord effOf (.vmin h vd va vb f) h.sp s)

/-- The word VMAX. -/
def execVmax (h : Hdr) (vd va : Fin 32) (vb : VSrc) (f : Fmt) (s : State) : Res :=
  .next (presentWord effOf (.vmax h vd va vb f) h.sp s)

/-- The word VCVT. -/
def execVcvt (h : Hdr) (vd va vb : Fin 32) (f f2 : Fmt) (rm : RM) (satInf np : Bool) (ix : Fin 32) (s : State) : Res :=
  .next (presentWord effOf (.vcvt h vd va vb f f2 rm satInf np ix) h.sp s)

/-- The word VEXP2. -/
def execVexp2 (h : Hdr) (vd va : Fin 32) (f : Fmt) (rm : RM) (ix : Fin 32) (s : State) : Res :=
  .next (presentWord effOf (.vexp2 h vd va f rm ix) h.sp s)

/-- The word VLOG2. -/
def execVlog2 (h : Hdr) (vd va : Fin 32) (f : Fmt) (rm : RM) (ix : Fin 32) (s : State) : Res :=
  .next (presentWord effOf (.vlog2 h vd va f rm ix) h.sp s)

/-- The word VRCP. -/
def execVrcp (h : Hdr) (vd va : Fin 32) (f : Fmt) (rm : RM) (ix : Fin 32) (s : State) : Res :=
  .next (presentWord effOf (.vrcp h vd va f rm ix) h.sp s)

/-- The word VRSQ. -/
def execVrsq (h : Hdr) (vd va : Fin 32) (f : Fmt) (rm : RM) (ix : Fin 32) (s : State) : Res :=
  .next (presentWord effOf (.vrsq h vd va f rm ix) h.sp s)

/-- The word VTANH. -/
def execVtanh (h : Hdr) (vd va : Fin 32) (f : Fmt) (rm : RM) (ix : Fin 32) (s : State) : Res :=
  .next (presentWord effOf (.vtanh h vd va f rm ix) h.sp s)

/-- The word VSIN. -/
def execVsin (h : Hdr) (vd va : Fin 32) (f : Fmt) (rm : RM) (ix : Fin 32) (s : State) : Res :=
  .next (presentWord effOf (.vsin h vd va f rm ix) h.sp s)

/-- The word VCOS. -/
def execVcos (h : Hdr) (vd va : Fin 32) (f : Fmt) (rm : RM) (ix : Fin 32) (s : State) : Res :=
  .next (presentWord effOf (.vcos h vd va f rm ix) h.sp s)

/-- The word VSIG. -/
def execVsig (h : Hdr) (vd va : Fin 32) (f : Fmt) (rm : RM) (ix : Fin 32) (s : State) : Res :=
  .next (presentWord effOf (.vsig h vd va f rm ix) h.sp s)

/-- The word VGELU. -/
def execVgelu (h : Hdr) (vd va : Fin 32) (f : Fmt) (rm : RM) (ix : Fin 32) (s : State) : Res :=
  .next (presentWord effOf (.vgelu h vd va f rm ix) h.sp s)

/-- The word VSILU. -/
def execVsilu (h : Hdr) (vd va : Fin 32) (f : Fmt) (rm : RM) (ix : Fin 32) (s : State) : Res :=
  .next (presentWord effOf (.vsilu h vd va f rm ix) h.sp s)

/-- The word VRD. -/
def execVrd (h : Hdr) (vd : Fin 32) (c : Fin 4) (row : Num7) (s : State) : Res :=
  .next (presentWord effOf (.vrd h vd c row) h.sp s)

/-- The word VWR. -/
def execVwr (h : Hdr) (c : Fin 4) (row : Num7) (vs : Fin 32) (s : State) : Res :=
  .next (presentWord effOf (.vwr h c row vs) h.sp s)

/-- The word VSCR. -/
def execVscr (h : Hdr) (c : Fin 4) (vs : Fin 32) (s : State) : Res :=
  .next (presentWord effOf (.vscr h c vs) h.sp s)

/-- The word VLD. -/
def execVld (h : Hdr) (vd ra : Fin 32) (off : BitVec 16) (s : State) : Res :=
  .next (presentWord effOf (.vld h vd ra off) h.sp s)

/-- The word VST. -/
def execVst (h : Hdr) (vs ra : Fin 32) (off : BitVec 16) (s : State) : Res :=
  .next (presentWord effOf (.vst h vs ra off) h.sp s)

/-- The word SMAX_P1. -/
def execSmaxP1 (h : Hdr) (c : Fin 4) (n : Num7) (sc : Fin 32) (mask : Mask) (init : Bool) (s : State) : Res :=
  .next (presentWord effOf (.smaxP1 h c n sc mask init) h.sp s)

/-- The word SMAX_P2. -/
def execSmaxP2 (h : Hdr) (cd ct : Fin 4) (n : Num7) (sc : Fin 32) (mask : Mask) (raw : Bool) (s : State) : Res :=
  .next (presentWord effOf (.smaxP2 h cd ct n sc mask raw) h.sp s)

/-- The word SMAX_FAC. -/
def execSmaxFac (h : Hdr) (vd : Fin 32) (s : State) : Res :=
  .next (presentWord effOf (.smaxFac h vd) h.sp s)

/-- The word SMAX_LSE. -/
def execSmaxLse (h : Hdr) (vd : Fin 32) (s : State) : Res :=
  .next (presentWord effOf (.smaxLse h vd) h.sp s)

/-- The word SMAX_MERGE. -/
def execSmaxMerge (h : Hdr) (va vb : Fin 32) (s : State) : Res :=
  .next (presentWord effOf (.smaxMerge h va vb) h.sp s)

/-- The word RSTAT_P1. -/
def execRstatP1 (h : Hdr) (c : Fin 4) (n : Num7) (init : Bool) (s : State) : Res :=
  .next (presentWord effOf (.rstatP1 h c n init) h.sp s)

/-- The word RSTAT_P2. -/
def execRstatP2 (h : Hdr) (c : Fin 4) (n : Num7) (s : State) : Res :=
  .next (presentWord effOf (.rstatP2 h c n) h.sp s)

/-- The word RSTAT_GET. -/
def execRstatGet (h : Hdr) (vd : Fin 32) (q : Stat) (s : State) : Res :=
  .next (presentWord effOf (.rstatGet h vd q) h.sp s)

/-- The word RNORM_LN. -/
def execRnormLn (h : Hdr) (cd ct : Fin 4) (n : Num7) (se : Fin 32) (s : State) : Res :=
  .next (presentWord effOf (.rnormLn h cd ct n se) h.sp s)

/-- The word RNORM_RMS. -/
def execRnormRms (h : Hdr) (cd ct : Fin 4) (n : Num7) (se : Fin 32) (s : State) : Res :=
  .next (presentWord effOf (.rnormRms h cd ct n se) h.sp s)

/-- The word RDOT. -/
def execRdot (h : Hdr) (vd : Fin 32) (ca cb : Fin 4) (n : Num7) (s : State) : Res :=
  .next (presentWord effOf (.rdot h vd ca cb n) h.sp s)

/-- The word RSUM. -/
def execRsum (h : Hdr) (vd : Fin 32) (ca : Fin 4) (n : Num7) (s : State) : Res :=
  .next (presentWord effOf (.rsum h vd ca n) h.sp s)

/-- The word RSAVE. -/
def execRsave (h : Hdr) (ra : Fin 32) (s : State) : Res :=
  .next (presentWord effOf (.rsave h ra) h.sp s)

/-- The word RLOAD. -/
def execRload (h : Hdr) (ra : Fin 32) (s : State) : Res :=
  .next (presentWord effOf (.rload h ra) h.sp s)

/-- The word EMOV. -/
def execEmov (h : Hdr) (k : Fin 8) (ra : Fin 32) (s : State) : Res :=
  .next (presentWord effOf (.emov h k ra) h.sp s)

/-- The word EMOVS. -/
def execEmovs (h : Hdr) (rd : Fin 32) (k : Fin 8) (s : State) : Res :=
  .next (presentWord effOf (.emovs h rd k) h.sp s)

/-- The word EADD. -/
def execEadd (h : Hdr) (k j : Fin 8) (imm : BitVec 8) (s : State) : Res :=
  .next (presentWord effOf (.eadd h k j imm) h.sp s)

/-- The word QNT. -/
def execQnt (h : Hdr) (ra vs : Fin 32) (fmt : Fmt) (rm : RM) (satInf : Bool) (g : Gran) (ix : Fin 32) (s : State) : Res :=
  .next (presentWord effOf (.qnt h ra vs fmt rm satInf g ix) h.sp s)

/-- The word QNTT. -/
def execQntt (h : Hdr) (ra : Fin 32) (ct : Fin 4) (n : Num7) (fmt : Fmt) (rm : RM) (satInf : Bool) (g : Gran) (ix : Fin 32) (s : State) : Res :=
  .next (presentWord effOf (.qntt h ra ct n fmt rm satInf g ix) h.sp s)

/-- The word QEXP. -/
def execQexp (h : Hdr) (dst : QDst) (ct : Fin 4) (n : Num7) (fmt : Fmt) (s : State) : Res :=
  .next (presentWord effOf (.qexp h dst ct n fmt) h.sp s)

/-- The word DQNT. -/
def execDqnt (h : Hdr) (ct : Fin 4) (ra : Fin 32) (n : Num7) (fmt : Fmt) (g : Gran) (s : State) : Res :=
  .next (presentWord effOf (.dqnt h ct ra n fmt g) h.sp s)

/-- The word QGRAD. -/
def execQgrad (h : Hdr) (cd cx cg : Fin 4) (n : Num7) (va : Fin 32) (fmt : Fmt) (rm : RM) (satInf : Bool) (g : Gran) (ix : Fin 32) (s : State) : Res :=
  .next (presentWord effOf (.qgrad h cd cx cg n va fmt rm satInf g ix) h.sp s)

/-- The word RSC. -/
def execRsc (h : Hdr) (ra : Fin 32) (ct : Fin 4) (n : Num7) (fmt : Fmt) (rm : RM) (g : GTag) (vm vs : Fin 32) (s : State) : Res :=
  .next (presentWord effOf (.rsc h ra ct n fmt rm g vm vs) h.sp s)

/-- The word FMV. -/
def execFmv (h : Hdr) (f : Fl) (s : State) : Res :=
  .next (presentWord effOf (.fmv h f) h.sp s)

/-- The word FADD. -/
def execFadd (h : Hdr) (f : Fl) (s : State) : Res :=
  .next (presentWord effOf (.fadd h f) h.sp s)

/-- The word FFILL. -/
def execFfill (h : Hdr) (t : Fin 16) (sd sv sn : Fin 32) (fs fd : Fmt) (hint : Hint) (s : State) : Res :=
  .next (presentWord effOf (.ffill h t sd sv sn fs fd hint) h.sp s)

/-- The word TWAIT. -/
def execTwait (h : Hdr) (t : Fin 16) (s : State) : Res :=
  .next (presentWord effOf (.twait h t) h.sp s)

/-- The word TPOLL. -/
def execTpoll (h : Hdr) (pd : Fin 8) (t : Fin 16) (s : State) : Res :=
  .next (presentWord effOf (.tpoll h pd t) h.sp s)

/-- The word TSTAT. -/
def execTstat (h : Hdr) (rd : Fin 32) (t : Fin 16) (s : State) : Res :=
  .next (presentWord effOf (.tstat h rd t) h.sp s)

/-- The word SFENCE. -/
def execSfence (h : Hdr) (s : State) : Res :=
  .next (presentWord effOf (.sfence h) h.sp s)

/-- The word CREAD. -/
def execCread (h : Hdr) (rd ra : Fin 32) (s : State) : Res :=
  .next (presentWord effOf (.cread h rd ra) h.sp s)

/-- The word CWAIT. -/
def execCwait (h : Hdr) (ra rb : Fin 32) (s : State) : Res :=
  .next (presentWord effOf (.cwait h ra rb) h.sp s)

end Sys2Proof.Machine
end

