-- ==== Sys2Proof/Machine/Words.lean ====
section
/-!
DEFINITION. A bundle given by its words (06 R137, R138, R141).
-/

namespace Sys2Proof.Machine

/-- MALFORMED_BUNDLE: a bundle given by its words raises ILLEGAL and has no effect. The words of a well-formed one are
decoded and presented one by one, and it issues like any other (06 R141, 07 R194). -/
def doMalformedBundle (p : Fin 136) (ws : List Word) (s : State) : State :=
  let x := s.sp p
  match x.share with
  | none => s
  | some sh =>
    if sh.phase ≠ .running ∨ x.fetched ≠ [] ∨ ws = [] then s else
    let n := min 4 ws.length
    let trap (d slot cls opc : Nat) : State := s.setSp p (raise x sh ⟨.illegal, d, none, 0, 0⟩ slot cls opc n)
    if sh.imageLen < x.pcBytes + 8 * n then trap 0x07 0 0 0
    else if !wordsWhole ws then trap 0x03 0 0 0
    else match (wordsBySlot ws).findSome? fun w => (wordError w).map fun d => (w, d) with
      | some (w, d) => trap d (classSlot (w.bits 62 60)) (w.bits 62 60) (w.bits 59 52)
      | none => (ws.filterMap (decodeWord p)).foldl (fun s i => presentWord effOf i p s) s

/-- The command MALFORMED_BUNDLE (06 R137). -/
def execMalformedBundle (p : Fin 136) (ws : List Word) (s : State) : Res := .next (doMalformedBundle p ws s)

end Sys2Proof.Machine
end

