-- ==== Sys2Proof/Machine/Dispatch.lean ====
section
/-!
DEFINITION. One arm for each command: a direct call of its meaning.
-/

namespace Sys2Proof.Machine

def exec (i : Instr) (s : State) : Host.Outcome State Fault Refusal :=
  match i with
  | .add h rd ra rb => Sys2Proof.Machine.execAdd h rd ra rb s
  | .sub h rd ra rb => Sys2Proof.Machine.execSub h rd ra rb s
  | .and h rd ra rb => Sys2Proof.Machine.execAnd h rd ra rb s
  | .or h rd ra rb => Sys2Proof.Machine.execOr h rd ra rb s
  | .xor h rd ra rb => Sys2Proof.Machine.execXor h rd ra rb s
  | .sll h rd ra rb => Sys2Proof.Machine.execSll h rd ra rb s
  | .srl h rd ra rb => Sys2Proof.Machine.execSrl h rd ra rb s
  | .sra h rd ra rb => Sys2Proof.Machine.execSra h rd ra rb s
  | .mul h rd ra rb => Sys2Proof.Machine.execMul h rd ra rb s
  | .mulhu h rd ra rb => Sys2Proof.Machine.execMulhu h rd ra rb s
  | .min h rd ra rb => Sys2Proof.Machine.execMin h rd ra rb s
  | .max h rd ra rb => Sys2Proof.Machine.execMax h rd ra rb s
  | .minu h rd ra rb => Sys2Proof.Machine.execMinu h rd ra rb s
  | .maxu h rd ra rb => Sys2Proof.Machine.execMaxu h rd ra rb s
  | .addi h rd ra imm => Sys2Proof.Machine.execAddi h rd ra imm s
  | .andi h rd ra imm => Sys2Proof.Machine.execAndi h rd ra imm s
  | .ori h rd ra imm => Sys2Proof.Machine.execOri h rd ra imm s
  | .xori h rd ra imm => Sys2Proof.Machine.execXori h rd ra imm s
  | .slli h rd ra sh => Sys2Proof.Machine.execSlli h rd ra sh s
  | .srli h rd ra sh => Sys2Proof.Machine.execSrli h rd ra sh s
  | .srai h rd ra sh => Sys2Proof.Machine.execSrai h rd ra sh s
  | .movi h rd imm => Sys2Proof.Machine.execMovi h rd imm s
  | .movhi h rd ra imm => Sys2Proof.Machine.execMovhi h rd ra imm s
  | .cmpEq h pd ra b => Sys2Proof.Machine.execCmpEq h pd ra b s
  | .cmpNe h pd ra b => Sys2Proof.Machine.execCmpNe h pd ra b s
  | .cmpLt h pd ra b => Sys2Proof.Machine.execCmpLt h pd ra b s
  | .cmpGe h pd ra b => Sys2Proof.Machine.execCmpGe h pd ra b s
  | .cmpLtu h pd ra b => Sys2Proof.Machine.execCmpLtu h pd ra b s
  | .cmpGeu h pd ra b => Sys2Proof.Machine.execCmpGeu h pd ra b s
  | .pand h pd pa pb => Sys2Proof.Machine.execPand h pd pa pb s
  | .por h pd pa pb => Sys2Proof.Machine.execPor h pd pa pb s
  | .pxor h pd pa pb => Sys2Proof.Machine.execPxor h pd pa pb s
  | .pnot h pd pa => Sys2Proof.Machine.execPnot h pd pa s
  | .ld1 h rd ra off => Sys2Proof.Machine.execLd1 h rd ra off s
  | .ld2 h rd ra off => Sys2Proof.Machine.execLd2 h rd ra off s
  | .ld4 h rd ra off => Sys2Proof.Machine.execLd4 h rd ra off s
  | .ld8 h rd ra off => Sys2Proof.Machine.execLd8 h rd ra off s
  | .ld1u h rd ra off => Sys2Proof.Machine.execLd1u h rd ra off s
  | .ld2u h rd ra off => Sys2Proof.Machine.execLd2u h rd ra off s
  | .ld4u h rd ra off => Sys2Proof.Machine.execLd4u h rd ra off s
  | .st1 h rs ra off => Sys2Proof.Machine.execSt1 h rs ra off s
  | .st2 h rs ra off => Sys2Proof.Machine.execSt2 h rs ra off s
  | .st4 h rs ra off => Sys2Proof.Machine.execSt4 h rs ra off s
  | .st8 h rs ra off => Sys2Proof.Machine.execSt8 h rs ra off s
  | .br h off => Sys2Proof.Machine.execBr h off s
  | .bdec h ra off => Sys2Proof.Machine.execBdec h ra off s
  | .call h off => Sys2Proof.Machine.execCall h off s
  | .jr h ra => Sys2Proof.Machine.execJr h ra s
  | .ret h => Sys2Proof.Machine.execRet h s
  | .nop h => Sys2Proof.Machine.execNop h s
  | .endShare h => Sys2Proof.Machine.execEndShare h s
  | .brk h code => Sys2Proof.Machine.execBrk h code s
  | .csrr h rd csr => Sys2Proof.Machine.execCsrr h rd csr s
  | .csrw h csr ra => Sys2Proof.Machine.execCsrw h csr ra s
  | .ldw h m ra fb scb => Sys2Proof.Machine.execLdw h m ra fb scb s
  | .mma h c m ra mr mode fa sca fb scb => Sys2Proof.Machine.execMma h c m ra mr mode fa sca fb scb s
  | .vadd h vd va vb f rm np => Sys2Proof.Machine.execVadd h vd va vb f rm np s
  | .vmul h vd va vb f rm np => Sys2Proof.Machine.execVmul h vd va vb f rm np s
  | .vfma h vd va vb vc f rm np nc => Sys2Proof.Machine.execVfma h vd va vb vc f rm np nc s
  | .vmin h vd va vb f => Sys2Proof.Machine.execVmin h vd va vb f s
  | .vmax h vd va vb f => Sys2Proof.Machine.execVmax h vd va vb f s
  | .vcvt h vd va vb f f2 rm satInf np ix => Sys2Proof.Machine.execVcvt h vd va vb f f2 rm satInf np ix s
  | .vexp2 h vd va f rm ix => Sys2Proof.Machine.execVexp2 h vd va f rm ix s
  | .vlog2 h vd va f rm ix => Sys2Proof.Machine.execVlog2 h vd va f rm ix s
  | .vrcp h vd va f rm ix => Sys2Proof.Machine.execVrcp h vd va f rm ix s
  | .vrsq h vd va f rm ix => Sys2Proof.Machine.execVrsq h vd va f rm ix s
  | .vtanh h vd va f rm ix => Sys2Proof.Machine.execVtanh h vd va f rm ix s
  | .vsin h vd va f rm ix => Sys2Proof.Machine.execVsin h vd va f rm ix s
  | .vcos h vd va f rm ix => Sys2Proof.Machine.execVcos h vd va f rm ix s
  | .vsig h vd va f rm ix => Sys2Proof.Machine.execVsig h vd va f rm ix s
  | .vgelu h vd va f rm ix => Sys2Proof.Machine.execVgelu h vd va f rm ix s
  | .vsilu h vd va f rm ix => Sys2Proof.Machine.execVsilu h vd va f rm ix s
  | .vrd h vd c row => Sys2Proof.Machine.execVrd h vd c row s
  | .vwr h c row vs => Sys2Proof.Machine.execVwr h c row vs s
  | .vscr h c vs => Sys2Proof.Machine.execVscr h c vs s
  | .vld h vd ra off => Sys2Proof.Machine.execVld h vd ra off s
  | .vst h vs ra off => Sys2Proof.Machine.execVst h vs ra off s
  | .smaxP1 h c n sc mask init => Sys2Proof.Machine.execSmaxP1 h c n sc mask init s
  | .smaxP2 h cd ct n sc mask raw => Sys2Proof.Machine.execSmaxP2 h cd ct n sc mask raw s
  | .smaxFac h vd => Sys2Proof.Machine.execSmaxFac h vd s
  | .smaxLse h vd => Sys2Proof.Machine.execSmaxLse h vd s
  | .smaxMerge h va vb => Sys2Proof.Machine.execSmaxMerge h va vb s
  | .rstatP1 h c n init => Sys2Proof.Machine.execRstatP1 h c n init s
  | .rstatP2 h c n => Sys2Proof.Machine.execRstatP2 h c n s
  | .rstatGet h vd q => Sys2Proof.Machine.execRstatGet h vd q s
  | .rnormLn h cd ct n se => Sys2Proof.Machine.execRnormLn h cd ct n se s
  | .rnormRms h cd ct n se => Sys2Proof.Machine.execRnormRms h cd ct n se s
  | .rdot h vd ca cb n => Sys2Proof.Machine.execRdot h vd ca cb n s
  | .rsum h vd ca n => Sys2Proof.Machine.execRsum h vd ca n s
  | .rsave h ra => Sys2Proof.Machine.execRsave h ra s
  | .rload h ra => Sys2Proof.Machine.execRload h ra s
  | .emov h k ra => Sys2Proof.Machine.execEmov h k ra s
  | .emovs h rd k => Sys2Proof.Machine.execEmovs h rd k s
  | .eadd h k j imm => Sys2Proof.Machine.execEadd h k j imm s
  | .qnt h ra vs fmt rm satInf g ix => Sys2Proof.Machine.execQnt h ra vs fmt rm satInf g ix s
  | .qntt h ra ct n fmt rm satInf g ix => Sys2Proof.Machine.execQntt h ra ct n fmt rm satInf g ix s
  | .qexp h dst ct n fmt => Sys2Proof.Machine.execQexp h dst ct n fmt s
  | .dqnt h ct ra n fmt g => Sys2Proof.Machine.execDqnt h ct ra n fmt g s
  | .qgrad h cd cx cg n va fmt rm satInf g ix => Sys2Proof.Machine.execQgrad h cd cx cg n va fmt rm satInf g ix s
  | .rsc h ra ct n fmt rm g vm vs => Sys2Proof.Machine.execRsc h ra ct n fmt rm g vm vs s
  | .fmv h f => Sys2Proof.Machine.execFmv h f s
  | .fadd h f => Sys2Proof.Machine.execFadd h f s
  | .ffill h t sd sv sn fs fd hint => Sys2Proof.Machine.execFfill h t sd sv sn fs fd hint s
  | .twait h t => Sys2Proof.Machine.execTwait h t s
  | .tpoll h pd t => Sys2Proof.Machine.execTpoll h pd t s
  | .tstat h rd t => Sys2Proof.Machine.execTstat h rd t s
  | .sfence h => Sys2Proof.Machine.execSfence h s
  | .cread h rd ra => Sys2Proof.Machine.execCread h rd ra s
  | .cwait h ra rb => Sys2Proof.Machine.execCwait h ra rb s
  | .ldwLoadDone p => Sys2Proof.Machine.execLdwLoadDone p s
  | .mmaStart p => Sys2Proof.Machine.execMmaStart p s
  | .mmaCommit p => Sys2Proof.Machine.execMmaCommit p s
  | .vectorResultWrite p => Sys2Proof.Machine.execVectorResultWrite p s
  | .rowUnitComplete p => Sys2Proof.Machine.execRowUnitComplete p s
  | .quantiserComplete p => Sys2Proof.Machine.execQuantiserComplete p s
  | .exceptionTaken p => Sys2Proof.Machine.execExceptionTaken p s
  | .saveImageFreed p => Sys2Proof.Machine.execSaveImageFreed p s
  | .shareEnd p => Sys2Proof.Machine.execShareEnd p s
  | .shareLaunch q p => Sys2Proof.Machine.execShareLaunch q p s
  | .flyerMoveComplete k f hanks => Sys2Proof.Machine.execFlyerMoveComplete k f hanks s
  | .moveDeadlineExpiry o hanks readDone => Sys2Proof.Machine.execMoveDeadlineExpiry o hanks readDone s
  | .registerWrite off v => Sys2Proof.Machine.execRegisterWrite off v s
  | .creelQuotaCommit => Sys2Proof.Machine.execCreelQuotaCommit s
  | .memErrCommit => Sys2Proof.Machine.execMemErrCommit s
  | .queueCommit q => Sys2Proof.Machine.execQueueCommit q s
  | .ethCommit => Sys2Proof.Machine.execEthCommit s
  | .strandCommit n => Sys2Proof.Machine.execStrandCommit n s
  | .twineCommit => Sys2Proof.Machine.execTwineCommit s
  | .peerCommit => Sys2Proof.Machine.execPeerCommit s
  | .plyCommit k => Sys2Proof.Machine.execPlyCommit k s
  | .pwrCommit => Sys2Proof.Machine.execPwrCommit s
  | .scrubCommit => Sys2Proof.Machine.execScrubCommit s
  | .mapOut c => Sys2Proof.Machine.execMapOut c s
  | .rebuild => Sys2Proof.Machine.execRebuild s
  | .farReenable w => Sys2Proof.Machine.execFarReenable w s
  | .keepWaysWrite k w => Sys2Proof.Machine.execKeepWaysWrite k w s
  | .queueDrain q => Sys2Proof.Machine.execQueueDrain q s
  | .queueRelease q => Sys2Proof.Machine.execQueueRelease q s
  | .resetSeq q => Sys2Proof.Machine.execResetSeq q s
  | .strandClose n => Sys2Proof.Machine.execStrandClose n s
  | .plyFail k m => Sys2Proof.Machine.execPlyFail k m s
  | .cancelPace k => Sys2Proof.Machine.execCancelPace k s
  | .wakeEnWrite v => Sys2Proof.Machine.execWakeEnWrite v s
  | .fwStage => Sys2Proof.Machine.execFwStage s
  | .fwStageDone same => Sys2Proof.Machine.execFwStageDone same s
  | .fwConfirm => Sys2Proof.Machine.execFwConfirm s
  | .fwCancel => Sys2Proof.Machine.execFwCancel s
  | .trimWrite => Sys2Proof.Machine.execTrimWrite s
  | .trimWriteDone => Sys2Proof.Machine.execTrimWriteDone s
  | .mgmtStop stop => Sys2Proof.Machine.execMgmtStop stop s
  | .warm => Sys2Proof.Machine.execWarm s
  | .warmResetResume => Sys2Proof.Machine.execWarmResetResume s
  | .mgmtRestart => Sys2Proof.Machine.execMgmtRestart s
  | .mgmtRestartEnd => Sys2Proof.Machine.execMgmtRestartEnd s
  | .faultAck slot => Sys2Proof.Machine.execFaultAck slot s
  | .retire u => Sys2Proof.Machine.execRetire u s
  | .restore u => Sys2Proof.Machine.execRestore u s
  | .restoreSelftestDone pass => Sys2Proof.Machine.execRestoreSelftestDone pass s
  | .mapChangeApply k => Sys2Proof.Machine.execMapChangeApply k s
  | .doorbell h q drain release tail => Sys2Proof.Machine.execDoorbell h q drain release tail s
  | .acceptanceResume q => Sys2Proof.Machine.execAcceptanceResume q s
  | .kernel q => Sys2Proof.Machine.execKernel q s
  | .copy q => Sys2Proof.Machine.execCopy q s
  | .moveAdd q => Sys2Proof.Machine.execMoveAdd q s
  | .fill q => Sys2Proof.Machine.execFill q s
  | .bind q => Sys2Proof.Machine.execBind q s
  | .evictionComplete k => Sys2Proof.Machine.execEvictionComplete k s
  | .bindFill q slot sector => Sys2Proof.Machine.execBindFill q slot sector s
  | .flush q => Sys2Proof.Machine.execFlush q s
  | .moveRelease q => Sys2Proof.Machine.execMoveRelease q s
  | .pin q => Sys2Proof.Machine.execPin q s
  | .unpin q => Sys2Proof.Machine.execUnpin q s
  | .rmaWrite q => Sys2Proof.Machine.execRmaWrite q s
  | .rmaWriteFlagged q => Sys2Proof.Machine.execRmaWriteFlagged q s
  | .rmaRead q => Sys2Proof.Machine.execRmaRead q s
  | .rmaAtomicAdd q => Sys2Proof.Machine.execRmaAtomicAdd q s
  | .allReduce q => Sys2Proof.Machine.execAllReduce q s
  | .reduceScatter q => Sys2Proof.Machine.execReduceScatter q s
  | .allGather q => Sys2Proof.Machine.execAllGather q s
  | .broadcast q => Sys2Proof.Machine.execBroadcast q s
  | .allToAll q => Sys2Proof.Machine.execAllToAll q s
  | .barrier q => Sys2Proof.Machine.execBarrier q s
  | .checkpointBarrier q => Sys2Proof.Machine.execCheckpointBarrier q s
  | .adamw q => Sys2Proof.Machine.execAdamw q s
  | .lion q => Sys2Proof.Machine.execLion q s
  | .sgdWithMomentum q => Sys2Proof.Machine.execSgdWithMomentum q s
  | .check q => Sys2Proof.Machine.execCheck q s
  | .digest q => Sys2Proof.Machine.execDigest q s
  | .wait q => Sys2Proof.Machine.execWait q s
  | .fence q => Sys2Proof.Machine.execFence q s
  | .mark q => Sys2Proof.Machine.execMark q s
  | .tableUpdate q => Sys2Proof.Machine.execTableUpdate q s
  | .resume q => Sys2Proof.Machine.execResume q s
  | .tableUpdateApply q => Sys2Proof.Machine.execTableUpdateApply q s
  | .tableUpdateComplete q => Sys2Proof.Machine.execTableUpdateComplete q s
  | .sweepUnitDone q k => Sys2Proof.Machine.execSweepUnitDone q k s
  | .sweepComplete q => Sys2Proof.Machine.execSweepComplete q s
  | .sweepRecovery k => Sys2Proof.Machine.execSweepRecovery k s
  | .descriptorComplete q spin stack net => Sys2Proof.Machine.execDescriptorComplete q spin stack net s
  | .drainComplete q => Sys2Proof.Machine.execDrainComplete q s
  | .tally h id => Sys2Proof.Machine.execTally h id s
  | .tallyFreeze => Sys2Proof.Machine.execTallyFreeze s
  | .mirrorRebuildComplete => Sys2Proof.Machine.execMirrorRebuildComplete s
  | .patrolScrub c ces ues => Sys2Proof.Machine.execPatrolScrub c ces ues s
  | .channelFault c => Sys2Proof.Machine.execChannelFault c s
  | .migrationGranuleCopy ues => Sys2Proof.Machine.execMigrationGranuleCopy ues s
  | .migrationEnd => Sys2Proof.Machine.execMigrationEnd s
  | .channelRestoreJoin c => Sys2Proof.Machine.execChannelRestoreJoin c s
  | .stackLost k => Sys2Proof.Machine.execStackLost k s
  | .cxlLinkDrop w => Sys2Proof.Machine.execCxlLinkDrop w s
  | .cxlRetrain w up => Sys2Proof.Machine.execCxlRetrain w up s
  | .distaffFail c => Sys2Proof.Machine.execDistaffFail c s
  | .spindleFail p => Sys2Proof.Machine.execSpindleFail p s
  | .flyerFail k f => Sys2Proof.Machine.execFlyerFail k f s
  | .d2dLinkRetry => Sys2Proof.Machine.execD2dLinkRetry s
  | .refclkLoss => Sys2Proof.Machine.execRefclkLoss s
  | .write h addr data => Sys2Proof.Machine.execWrite h addr data s
  | .writeFlagged h addr data => Sys2Proof.Machine.execWriteFlagged h addr data s
  | .read h addr len => Sys2Proof.Machine.execRead h addr len s
  | .readResp h addr data => Sys2Proof.Machine.execReadResp h addr data s
  | .atomicAdd h aty fetch addr data => Sys2Proof.Machine.execAtomicAdd h aty fetch addr data s
  | .ack h bits sts => Sys2Proof.Machine.execAck h bits sts s
  | .ackDelayExpiry n => Sys2Proof.Machine.execAckDelayExpiry n s
  | .frameTransmit n => Sys2Proof.Machine.execFrameTransmit n s
  | .retransmitTimeout n => Sys2Proof.Machine.execRetransmitTimeout n s
  | .pathLostExpiry n => Sys2Proof.Machine.execPathLostExpiry n s
  | .warmHoldExpiry n => Sys2Proof.Machine.execWarmHoldExpiry n s
  | .hello p m => Sys2Proof.Machine.execHello p m s
  | .helloTimer p => Sys2Proof.Machine.execHelloTimer p s
  | .openingHelloTimer n => Sys2Proof.Machine.execOpeningHelloTimer n s
  | .keyPhaseAdvance n => Sys2Proof.Machine.execKeyPhaseAdvance n s
  | .oldKeyPhaseExpiry n => Sys2Proof.Machine.execOldKeyPhaseExpiry n s
  | .reservedTypeFrame p => Sys2Proof.Machine.execReservedTypeFrame p s
  | .wake p magic genuine ctr => Sys2Proof.Machine.execWake p magic genuine ctr s
  | .lag h w0 w1 => Sys2Proof.Machine.execLag h w0 w1 s
  | .lagTrigger k dur recovered => Sys2Proof.Machine.execLagTrigger k dur recovered s
  | .pace h w0 w1 => Sys2Proof.Machine.execPace h w0 w1 s
  | .paceExpiry k => Sys2Proof.Machine.execPaceExpiry k s
  | .getVersion => Sys2Proof.Machine.execGetVersion s
  | .getCapabilities => Sys2Proof.Machine.execGetCapabilities s
  | .negotiateAlgorithms supported => Sys2Proof.Machine.execNegotiateAlgorithms supported s
  | .getDigests => Sys2Proof.Machine.execGetDigests s
  | .getCertificate slot => Sys2Proof.Machine.execGetCertificate slot s
  | .challenge nonce => Sys2Proof.Machine.execChallenge nonce s
  | .getMeasurements index => Sys2Proof.Machine.execGetMeasurements index s
  | .keyExchange id cred => Sys2Proof.Machine.execKeyExchange id cred s
  | .finish id => Sys2Proof.Machine.execFinish id s
  | .endSession id => Sys2Proof.Machine.execEndSession id s
  | .keyUpdate id => Sys2Proof.Machine.execKeyUpdate id s
  | .heartbeat id => Sys2Proof.Machine.execHeartbeat id s
  | .sessionIdleTimeout id => Sys2Proof.Machine.execSessionIdleTimeout id s
  | .leaseRequest id epoch ctrl => Sys2Proof.Machine.execLeaseRequest id epoch ctrl s
  | .wakeKeyFetch id => Sys2Proof.Machine.execWakeKeyFetch id s
  | .submit session bytes => Sys2Proof.Machine.execSubmit session bytes s
  | .tenancyOnSet => Sys2Proof.Machine.execTenancyOnSet s
  | .tenancyKeyErase => Sys2Proof.Machine.execTenancyKeyErase s
  | .scrubEnd => Sys2Proof.Machine.execScrubEnd s
  | .keyRewriteDrained slot => Sys2Proof.Machine.execKeyRewriteDrained slot s
  | .transitOldExpiry => Sys2Proof.Machine.execTransitOldExpiry s
  | .portDown p => Sys2Proof.Machine.execPortDown p s
  | .portLinkUp p => Sys2Proof.Machine.execPortLinkUp p s
  | .portJoin p => Sys2Proof.Machine.execPortJoin p s
  | .trainingRestart p => Sys2Proof.Machine.execTrainingRestart p s
  | .portFail p => Sys2Proof.Machine.execPortFail p s
  | .arpRequest p ip v6 => Sys2Proof.Machine.execArpRequest p ip v6 s
  | .lldpduReceive p ttl data => Sys2Proof.Machine.execLldpduReceive p ttl data s
  | .lldpTimer p => Sys2Proof.Machine.execLldpTimer p s
  | .lldpTtlExpiry p => Sys2Proof.Machine.execLldpTtlExpiry p s
  | .pauseFrame p pfc prios quanta => Sys2Proof.Machine.execPauseFrame p pfc prios quanta s
  | .pauseExpiry p prios => Sys2Proof.Machine.execPauseExpiry p prios s
  | .otherFrameDiscard p => Sys2Proof.Machine.execOtherFrameDiscard p s
  | .xoffResend p bytes => Sys2Proof.Machine.execXoffResend p bytes s
  | .xon p bytes => Sys2Proof.Machine.execXon p bytes s
  | .pauseStorm p => Sys2Proof.Machine.execPauseStorm p s
  | .stormEnd p => Sys2Proof.Machine.execStormEnd p s
  | .groupReady k parts => Sys2Proof.Machine.execGroupReady k parts s
  | .signatureRoundComplete k parts => Sys2Proof.Machine.execSignatureRoundComplete k parts s
  | .collectiveChunkAcked k data => Sys2Proof.Machine.execCollectiveChunkAcked k data s
  | .skipDecision k parts => Sys2Proof.Machine.execSkipDecision k parts s
  | .digestComparison k parts => Sys2Proof.Machine.execDigestComparison k parts s
  | .memberFail k m => Sys2Proof.Machine.execMemberFail k m s
  | .adoptionAdmit k epoch => Sys2Proof.Machine.execAdoptionAdmit k epoch s
  | .estimatorSample r amps skeins => Sys2Proof.Machine.execEstimatorSample r amps skeins s
  | .dividerStepDown r amps => Sys2Proof.Machine.execDividerStepDown r amps s
  | .stretchEnd k => Sys2Proof.Machine.execStretchEnd k s
  | .droopDetect k => Sys2Proof.Machine.execDroopDetect k s
  | .regulatorRead r amps mv est => Sys2Proof.Machine.execRegulatorRead r amps mv est s
  | .statusWordPoll faults => Sys2Proof.Machine.execStatusWordPoll faults s
  | .regulatorFaultCleared => Sys2Proof.Machine.execRegulatorFaultCleared s
  | .inletPoll temp => Sys2Proof.Machine.execInletPoll temp s
  | .readingsMissing r => Sys2Proof.Machine.execReadingsMissing r s
  | .grantTick g => Sys2Proof.Machine.execGrantTick g s
  | .burstExpiry => Sys2Proof.Machine.execBurstExpiry s
  | .energyAttribution skeins work idle => Sys2Proof.Machine.execEnergyAttribution skeins work idle s
  | .powerStateEntry u => Sys2Proof.Machine.execPowerStateEntry u s
  | .powerStateExit u => Sys2Proof.Machine.execPowerStateExit u s
  | .thermalThreshold t => Sys2Proof.Machine.execThermalThreshold t s
  | .thermalStepTimer k => Sys2Proof.Machine.execThermalStepTimer k s
  | .thermtrip => Sys2Proof.Machine.execThermtrip s
  | .airFaultAssert => Sys2Proof.Machine.execAirFaultAssert s
  | .airFaultPowerDown => Sys2Proof.Machine.execAirFaultPowerDown s
  | .airFaultClear => Sys2Proof.Machine.execAirFaultClear s
  | .overrideExpiry => Sys2Proof.Machine.execOverrideExpiry s
  | .coldReset => Sys2Proof.Machine.execColdReset s
  | .resetNRise pins => Sys2Proof.Machine.execResetNRise pins s
  | .whorlLockRetry pins => Sys2Proof.Machine.execWhorlLockRetry pins s
  | .bringupPhaseAdvance e => Sys2Proof.Machine.execBringupPhaseAdvance e s
  | .fullService => Sys2Proof.Machine.execFullService s
  | .mgmtWatchdogExpiry => Sys2Proof.Machine.execMgmtWatchdogExpiry s
  | .testEnHigh => Sys2Proof.Machine.execTestEnHigh s
  | .sbId pec => Sys2Proof.Machine.execSbId pec s
  | .sbStatus pec => Sys2Proof.Machine.execSbStatus pec s
  | .sbPower pec => Sys2Proof.Machine.execSbPower pec s
  | .sbTemp pec => Sys2Proof.Machine.execSbTemp pec s
  | .sbCap pec w => Sys2Proof.Machine.execSbCap pec w s
  | .sbRun pec w => Sys2Proof.Machine.execSbRun pec w s
  | .sbWake pec v => Sys2Proof.Machine.execSbWake pec v s
  | .sbWarmReset pec v => Sys2Proof.Machine.execSbWarmReset pec v s
  | .sbMgmtRestart pec v => Sys2Proof.Machine.execSbMgmtRestart pec v s
  | .sbFault pec => Sys2Proof.Machine.execSbFault pec s
  | .sbEvents pec w => Sys2Proof.Machine.execSbEvents pec w s
  | .sbRecovery pec data => Sys2Proof.Machine.execSbRecovery pec data s
  | .smbusLineHeld clk => Sys2Proof.Machine.execSmbusLineHeld clk s
  | .pmbusLineHeld => Sys2Proof.Machine.execPmbusLineHeld s
  | .packagePowerLoss => Sys2Proof.Machine.execPackagePowerLoss s
  | .malformedBundle p ws => Sys2Proof.Machine.execMalformedBundle p ws s
  | .fcsBadFrame p fec => Sys2Proof.Machine.execFcsBadFrame p fec s
  | .airFaultRise short => Sys2Proof.Machine.execAirFaultRise short s
  | .tapInstruction w => Sys2Proof.Machine.execTapInstruction w s
  | .powerStateExitDone u => Sys2Proof.Machine.execPowerStateExitDone u s
  | .otherSidebandCode code => Sys2Proof.Machine.execOtherSidebandCode code s

end Sys2Proof.Machine
end

