-- ==== Sys2Proof/Machine/Tick.lean ====
section
/-!
DEFINITION. One nanosecond with no command (log 1): the spindle clocks at their dividers and stretches (01 R32 to
R34), `CYCLE`, the stalls of bundles that wait, and the idle counters of the group slots (15 R418, R419).
-/

namespace Sys2Proof.Machine

/-! ## Spindle clocks -/

/-- The physical spindles of a skein, ascending. -/
def skeinSpindles (k : Fin 8) : List (Fin 136) := (List.finRange 17).map fun i => ⟨k.val * 17 + i.val, by omega⟩

/-- A spindle one cycle later: `CYCLE` counts from the share's first bundle on (06 R140). -/
def Spindle.cycled (x : Spindle) : Spindle :=
  { x with clk := x.clk + 1, cycle := if x.counting then x.cycle + 1 else x.cycle }

/-- One cycle of a spindle, in which its next bundle issues if it can. -/
def cycleSpindle (s : State) (p : Fin 136) : State := tryIssue effOf (s.setSp p (s.sp p).cycled) p

/-- One cycle of a skein. In P1 and P2 the clocks are gated; P1 has a profiling counter (17 R470, 18 R511). -/
def cycleSkein (s : State) (k : Fin 8) : State :=
  if (s.sk k).pstate = .p1 then (skeinSpindles k).foldl (fun s p => s.setSp p ((s.sp p).count 7 1)) s
  else if (s.sk k).pstate = .p2 then s
  else if s.serving then (skeinSpindles k).foldl cycleSpindle s
  else s

/-- One cycle of the whorl for a skein: after `divider` of them an edge is due. A stretch suppresses one edge in N;
at an edge the ordered divider takes effect (01 R33, R34). -/
def whorlSkein (s : State) (k : Fin 8) : State :=
  let x := s.sk k
  if x.phase + 1 < x.divider then s.setSk k { x with phase := x.phase + 1 }
  else
    match x.stretchN with
    | none => cycleSkein (s.setSk k { x with phase := 0, edges := 0, divider := target s k }) k
    | some n =>
      if n ≤ x.edges + 1 then s.setSk k { x with phase := 0, edges := 0 }
      else cycleSkein (s.setSk k { x with phase := 0, edges := x.edges + 1, divider := target s k }) k

/-- One cycle of the whorl. -/
def whorl (s : State) : State := (List.finRange 8).foldl whorlSkein s

/-! ## Idle time of group operations -/

/-- Whether a lever other than the pace slows this device (15 R418 THROTTLE_SELF). -/
def slowed (s : State) : Bool :=
  (List.finRange 8).any fun k => (s.sk k).stretchN.isSome || (levers s k).any fun l => decide (6 < l.1) && l.2 != 5

/-- Thousandths of a cycle that the group loses to this device in one cycle. -/
def selfLoss (s : State) (x : Ply) : Nat :=
  let rate := if x.pacing then x.pacePm else 1000
  if slowed s ∧ ownRate s < rate then 1000 - ownRate s * 1000 / rate else 0

/-- Whether the strand of a member shows HOLD or is STALLED. -/
def memberIs (s : State) (x : Ply) (f : Strand → Bool) (i : Nat) : Bool := (memberStrand s x i).any fun n => f (s.strand n)

/-- Whether a member's part of an operation is missing: of one in HOLD it is (15 R424), of another no command tells (log 128). -/
def unsent (s : State) (x : Ply) (o : GOp) (i : Nat) : Bool :=
  memberIs s x (·.hold) i || !Config.opShows s.now o.queue.val o.seq (3 + i)

/-- The member that an operation awaits: the lowest that has not sent its part (15 R418). -/
def awaitedBy (s : State) (x : Ply) (o : GOp) : Option Nat := x.others.find? (unsent s x o)

/-- Whether an operation waits for this device's distaffs or for a migration (15 R418 MEMORY). -/
def opWaits (s : State) (o : GOp) : Bool :=
  let segs := o.srcSegs ++ o.dstSegs
  (o.plan.head?.any (xferWaits s o)) || !migPassed s segs

/-- The cause of an idle cycle of an operation: THROTTLE_PEER, PEER, NETWORK or MEMORY (15 R418). -/
inductive Idle where
  | tpeer | peer (n : Nat) | net | mem
  deriving DecidableEq, Repr

/-- The first cause that holds in one cycle; none where the operation progresses (15 R418). What no command tells is a free
value (log 128). -/
def idleCause (s : State) (x : Ply) (o : GOp) : Option Idle :=
  let shows (i : Nat) : Bool := Config.opShows s.now o.queue.val o.seq i
  let held : Bool := x.others.any fun i => memberIs s x (fun y => y.hold || y.st == .stalled) i
  if !held && !opWaits s o && shows 0 then none else
  match awaitedBy s x o with
  | some n => if devPace s < 1000 ∨ x.lags.any (fun l => l.member == n) then some .tpeer else some (.peer n)
  | none =>
    if x.others.any (memberIs s x (·.st == .stalled)) || shows 1 then some .net
    else if opWaits s o || shows 2 then some .mem
    else none

/-- An idle cycle counted against its cause. -/
def idleCycle (s : State) (x : Ply) (o : GOp) : Ply :=
  match idleCause s x o with
  | none => x
  | some .tpeer => { x with idleTpeer := x.idleTpeer + 1 }
  | some .net => { x with idleNet := x.idleNet + 1 }
  | some .mem => { x with idleMem := x.idleMem + 1 }
  | some (.peer n) => if h : n < 64 then { x with idlePeer := upd x.idlePeer ⟨n, h⟩ (x.idlePeer.get ⟨n, h⟩ + 1) } else x

/-- Whether this slot's next operation is a CHECK or a compared DIGEST whose reads this device's distaffs still make, or
cannot make (15 R418 MEMORY). -/
def awaitsDistaffs (s : State) (k : Fin 8) : Bool :=
  stepSlot s == some k &&
  s.sweeps.any fun w => w.kind == .check || (w.kind == .digest && digestCompared s k w.step.toNat)

/-- One cycle of network logic for a group slot. -/
def idleSlot (s : State) (k : Fin 8) : State :=
  let x := s.slot k
  if x.st = .off then s else
  let x := { x with idleSelf := x.idleSelf + selfLoss s x }
  s.setSlot k (match headOp s k with
    | some o => idleCycle s x o
    | none => if awaitsDistaffs s k then { x with idleMem := x.idleMem + 1 } else x)

/-! ## The tick -/

/-- What the ports' error correction finds in a nanosecond: codewords corrected, and whether the corrected symbols of the last
second make a link DEGRADED (13 R366). Nothing of the state tells the bit errors, so both are free (log 115). -/
def fecTick (s : State) : State :=
  let seen (p : Fin 32) : Port :=
    let y := s.port p
    if y.link = .up then
      { y with fecCorr := min (2 ^ 32 - 1) (y.fecCorr + Config.fecCorrected p.val s.now), degraded := Config.fecDegraded p.val s.now }
    else y
  { s with eth := { s.eth with ports := vecOf 32 seen } }

/-- One nanosecond: twelve cycles of the whorl and one of network logic, what time does to a change of the tenancy (16
R442), and a grant that a dispatch has asked for (17 R465). Without its reference the device's clocks
stand (01 R35). -/
def tick (s : State) : State :=
  let s := { s with now := s.now + 1 }
  if s.mgmt.clockLost then s
  else (List.finRange 8).foldl idleSlot ((List.range 12).foldl (fun s _ => whorl s) (dueGrant (secTick (fecTick s))))

end Sys2Proof.Machine
end

