-- ==== Sys2Proof/Safety.lean ====
section
/-!
DEFINITION. What a state keeps in every run, and the words the statements use: when a spindle issues a word presented to
it, and what an instruction word leaves.
-/

/-- The header of a Swiard word: its spindle, its `E` bit and its predicate (06 R137). The other commands are no words. -/
def Sys2Proof.Instr.hdr : Sys2Proof.Instr → Option Sys2Proof.Hdr
  | .add h .. | .sub h .. | .and h .. | .or h .. | .xor h .. | .sll h .. | .srl h .. | .sra h ..
  | .mul h .. | .mulhu h .. | .min h .. | .max h .. | .minu h .. | .maxu h .. | .addi h .. | .andi h ..
  | .ori h .. | .xori h .. | .slli h .. | .srli h .. | .srai h .. | .movi h .. | .movhi h .. | .cmpEq h ..
  | .cmpNe h .. | .cmpLt h .. | .cmpGe h .. | .cmpLtu h .. | .cmpGeu h .. | .pand h .. | .por h ..
  | .pxor h .. | .pnot h .. | .ld1 h .. | .ld2 h .. | .ld4 h .. | .ld8 h .. | .ld1u h .. | .ld2u h ..
  | .ld4u h .. | .st1 h .. | .st2 h .. | .st4 h .. | .st8 h .. | .br h .. | .bdec h .. | .call h ..
  | .jr h .. | .ret h | .nop h | .endShare h | .brk h .. | .csrr h .. | .csrw h .. | .ldw h .. | .mma h ..
  | .vadd h .. | .vmul h .. | .vfma h .. | .vmin h .. | .vmax h .. | .vcvt h .. | .vexp2 h .. | .vlog2 h ..
  | .vrcp h .. | .vrsq h .. | .vtanh h .. | .vsin h .. | .vcos h .. | .vsig h .. | .vgelu h ..
  | .vsilu h .. | .vrd h .. | .vwr h .. | .vscr h .. | .vld h .. | .vst h .. | .smaxP1 h .. | .smaxP2 h ..
  | .smaxFac h .. | .smaxLse h .. | .smaxMerge h .. | .rstatP1 h .. | .rstatP2 h .. | .rstatGet h ..
  | .rnormLn h .. | .rnormRms h .. | .rdot h .. | .rsum h .. | .rsave h .. | .rload h .. | .emov h ..
  | .emovs h .. | .eadd h .. | .qnt h .. | .qntt h .. | .qexp h .. | .dqnt h .. | .qgrad h .. | .rsc h ..
  | .fmv h .. | .fadd h .. | .ffill h .. | .twait h .. | .tpoll h .. | .tstat h .. | .sfence h
  | .cread h .. | .cwait h .. => some h
  | _ => none

namespace Sys2Proof.Machine

/-- Every byte list of the state is in canonical form: the memory, the bobbins of the spindles and of the save images,
and the byte windows of the register space. -/
def State.canonical (s : State) : Prop :=
  Memory.wf s.mem.cells = true ∧ (∀ p, Memory.wf (s.sp p).bobbin = true) ∧
  (∀ i ∈ s.trans.images, Memory.wf i.regs.bobbin = true) ∧ Memory.wf s.mgmt.win = true

/-- A command answers a next state that satisfies `P`. -/
def Answers (r : Res) (P : State → Prop) : Prop := ∃ t, r = .next t ∧ P t

/-- A spindle runs a share, holds no word it has not issued, and may issue a bundle now (06 R152): the bundle at its
`PC` lies in the image. -/
def State.takes (s : State) (p : Fin 136) : Prop :=
  ∃ sh, (s.sp p).share = some sh ∧ sh.phase = .running ∧ s.serving = true ∧ (s.sp p).fetched = [] ∧
    (s.sp p).nextIssue ≤ (s.sp p).clk ∧ (s.sp p).pcBytes + 8 ≤ sh.imageLen

/-- A word with header `h` is a bundle of its own (06 R137), its predicate is 1, and its spindle takes it. -/
def State.issues (s : State) (h : Hdr) : Prop :=
  s.takes h.sp ∧ h.e = true ∧ (s.sp h.sp).rp h.pred = true

/-- No unit has yet to write s register `r`; a write of s0 waits for nothing (06 R139, R154). -/
def Spindle.freeS (x : Spindle) (r : Fin 32) : Prop := r = 0 ∨ x.pendAny (Wr.isS r) = false

/-- An s register takes a value that a dependent instruction can read `lat` cycles later (06 R155); a write of s0 is
discarded. -/
def Spindle.gets (x : Spindle) (r : Fin 32) (v : Word) (lat : Nat) : Spindle :=
  { x.ws r v with sReady := upd x.sReady r (x.clk + lat) }

/-- The state after a bundle of one word that changes only its spindle: `PC` names the next bundle, which may issue a
cycle later, and `f` says the rest. -/
def State.ran (s : State) (p : Fin 136) (f : Spindle → Spindle) : State := s.setSp p (f ((s.sp p).advance 1 []))

/-- The state as the word's own effect sees it: the spindle holds the word. -/
def State.holding (s : State) (p : Fin 136) (w : Instr) : State :=
  s.setSp p { s.sp p with fetched := [w] }

/-- What a state gains when a port sends HELLOs to addresses (14 R378): one each under rising counts, at once or, under a
pause of control frames, once it ends. -/
def hellosSent (s t : State) (p : Fin 32) (hs : List HelloMsg) : Prop :=
  t.twine.helloCnt = s.twine.helloCnt + hs.length ∧
  hs.map (·.count) = (List.range hs.length).map (fun i => BitVec.ofNat 64 (s.twine.helloCnt + 1 + i)) ∧
  (∀ h ∈ hs, h.port = p ∧ h.nonce = s.twine.nonce) ∧
  let sent := hs.map fun h => Out.hello p h (helloFrame s h)
  (ctrlPaused (s.port p) = false → t.out = sent.reverse ++ s.out) ∧
  (ctrlPaused (s.port p) = true → t.out = s.out ∧ (t.port p).ctrlQ = (s.port p).ctrlQ ++ sent)

/-- The addresses to all that a port's HELLO goes to (14 R378). -/
def toAll (s : State) (p : Fin 32) : List Nat :=
  let g := s.twine.groups.get (s.port p).cfg.group
  (if g.v4en = true then [ip4All] else []) ++ (if g.v6en = true then [ip6All] else [])

end Sys2Proof.Machine
end

