-- ==== Sys2Proof/Certificates/Slice0/Obligations.lean ====
section
/-!
DEFINITION. The statements for the provers.
-/

open Sys2Proof Sys2Proof.Machine

/-- A step runs the command at the front of the queue on the state with the queue's rest. The commands, their queue and
its step are the model's own interface (DESIGN CHOICE, logs 129 and 130). -/
def Obligations.StepRunsFront : Prop :=
  ∀ (c : Instr) (s : State), step (s.withCommand c) = exec c s

/-- With no command waiting one nanosecond passes and the queue stays empty (the model's choice, log 1). -/
def Obligations.EmptyQueueTicks : Prop :=
  ∀ s : State, s.pending = [] → ∃ t, step s = .next t ∧ t = tick s ∧ t.now = s.now + 1 ∧ t.pending = []

/-- Whatever Swiard word is presented to a spindle that takes it (06 R151, R152): one that ends its bundle issues under a
predicate of 0 as under 1, and then its `PC` moves on by one word and nothing else of the state changes but the count of
bundles; a word whose encoding is ill-formed is no such word.
A word that does not end its bundle is kept until the words after it have come (06 R137, R152).
A word that has to wait (06 R152, R154, R157) stays fetched and advances the counter of its stall alone; `add` waits so
for a register that no unit has yet written back. -/
def Obligations.WordsThatDoNotAct : Prop :=
  (∀ (c : Instr) (h : Hdr) (s : State), c.hdr = some h → s.takes h.sp →
     let y := s.holding h.sp c
     (h.e = true → (s.sp h.sp).rp h.pred = false → (effOf c y).enc = none → exec c s = .next (s.ran h.sp id)) ∧
     (h.e = false → exec c s = .next y) ∧
     (h.e = true → ∀ w ws, stallsOf (y.sp h.sp) [effOf c y] = w :: ws →
       exec c s = .next (y.setSp h.sp ((y.sp h.sp).count w.num 1)))) ∧
  (∀ (h : Hdr) (rd ra rb : Fin 32) (imm off : BitVec 32) (m : Fin 2) (s : State),
     s.takes h.sp → h.e = true → (s.sp h.sp).rp h.pred = false →
     exec (.add h rd ra rb) s = .next (s.ran h.sp id) ∧
     exec (.addi h rd ra imm) s = .next (s.ran h.sp id) ∧
     exec (.st8 h rd ra off) s = .next (s.ran h.sp id) ∧
     exec (.br h off) s = .next (s.ran h.sp id) ∧
     exec (.endShare h) s = .next (s.ran h.sp id) ∧
     exec (.ldw h m ra .e4m3 false) s = .next (s.ran h.sp id) ∧
     (s.ran h.sp id).sp h.sp = (s.sp h.sp).advance 1 []) ∧
  (∀ (h : Hdr) (rd ra rb : Fin 32) (s : State), s.takes h.sp → h.e = false →
     exec (.add h rd ra rb) s = .next (s.holding h.sp (.add h rd ra rb))) ∧
  (∀ (h : Hdr) (rd ra rb : Fin 32) (s : State), s.issues h → ra ≠ 0 →
     (s.sp h.sp).clk < (s.sp h.sp).sReady.get ra →
     exec (.add h rd ra rb) s =
       .next (s.setSp h.sp ({ s.sp h.sp with fetched := [.add h rd ra rb] }.count 2 1)))

/-- The instructions of a bundle read their registers as they were before it issued (06 R153): a bundle of one to four
words that `judge` lets go does what each of its words asks for, every one of them read from the state before the
bundle.
So with `add` in slot C and `emov` in slot V: `emov` takes its byte from the old value of the register that `add`
writes. -/
def Obligations.BundleReadsFirst : Prop :=
  (∀ (c : Instr) (h : Hdr) (ws : List Instr) (sh : Share) (s : State) (es : List Eff), c.hdr = some h → h.e = true →
     let x := s.sp h.sp
     x.share = some sh → sh.phase = .running → s.serving = true → x.nextIssue ≤ x.clk → x.fetched = ws →
     ws.length ≤ 3 → (∀ w ∈ ws, ∃ k : Hdr, w.hdr = some k ∧ k.sp = h.sp ∧ k.e = false) →
     let y := s.setSp h.sp { x with fetched := ws ++ [c] }
     judge (y.sp h.sp) sh (ws.length + 1) true ((ws ++ [c]).map fun w => effOf w y) = .go es →
     exec c s = .next (goBundle y h.sp (ws.length + 1) [] es) ∧
     ∀ e ∈ es, ∃ w ∈ ws ++ [c], e = effOf w y) ∧
  (∀ (h h' : Hdr) (rd ra rb : Fin 32) (k : Fin 8) (s t : State),
    s.takes h.sp → h'.sp = h.sp → h.e = false → h'.e = true →
    (s.sp h.sp).rp h.pred = true → (s.sp h.sp).rp h'.pred = true →
    (s.sp h.sp).pcBytes + 16 ≤ ((s.sp h.sp).share.map (·.imageLen)).getD 0 →
    (s.sp h.sp).needS [ra, rb] = [] → (s.sp h.sp).needS [rd] = [] → (s.sp h.sp).needE [k] = [] →
    (s.sp h.sp).freeS rd → queueStall (s.sp h.sp).clk (s.sp h.sp).qq = [] →
    exec (.add h rd ra rb) s = .next t →
    ∃ u, exec (.emov h' k rd) t = .next u ∧
      (rd ≠ 0 → (u.sp h.sp).rs rd = (s.sp h.sp).rs ra + (s.sp h.sp).rs rb) ∧
      ((u.sp h.sp).qq.getLast?.map (·.wrs)) = some [.e k (((s.sp h.sp).rs rd).setWidth 8)] ∧
      (u.sp h.sp).pc = (s.sp h.sp).pc + 2)

/-- The register operations (07 R171), with the latencies of 06 R155.
The immediate operations (07 R172): the immediate is sign-extended, `movhi` puts it into bits 63 to 32. -/
def Obligations.ScalarOperations : Prop :=
  (∀ (h : Hdr) (rd ra rb : Fin 32) (s : State),
     s.issues h → (s.sp h.sp).needS [ra, rb] = [] → (s.sp h.sp).freeS rd →
     let a := (s.sp h.sp).rs ra
     let b := (s.sp h.sp).rs rb
     let n := b.toNat % 64
     let puts (v : Word) (lat : Nat) : Res := .next (s.ran h.sp fun x => x.gets rd v lat)
     exec (.add h rd ra rb) s = puts (a + b) 1 ∧
     exec (.sub h rd ra rb) s = puts (a - b) 1 ∧
     exec (.and h rd ra rb) s = puts (a &&& b) 1 ∧
     exec (.or h rd ra rb) s = puts (a ||| b) 1 ∧
     exec (.xor h rd ra rb) s = puts (a ^^^ b) 1 ∧
     exec (.sll h rd ra rb) s = puts (a <<< n) 1 ∧
     exec (.srl h rd ra rb) s = puts (a >>> n) 1 ∧
     exec (.sra h rd ra rb) s = puts (a.sshiftRight n) 1 ∧
     exec (.mul h rd ra rb) s = puts (a * b) 3 ∧
     exec (.mulhu h rd ra rb) s = puts ((a.setWidth 128 * b.setWidth 128).extractLsb' 64 64) 3 ∧
     exec (.min h rd ra rb) s = puts (if a.toInt ≤ b.toInt then a else b) 1 ∧
     exec (.max h rd ra rb) s = puts (if a.toInt ≤ b.toInt then b else a) 1 ∧
     exec (.minu h rd ra rb) s = puts (if a.toNat ≤ b.toNat then a else b) 1 ∧
     exec (.maxu h rd ra rb) s = puts (if a.toNat ≤ b.toNat then b else a) 1) ∧
  (∀ (h : Hdr) (rd ra : Fin 32) (imm : BitVec 32) (sh : Fin 64) (s : State),
     s.issues h → (s.sp h.sp).needS [ra] = [] → (s.sp h.sp).freeS rd →
     let a := (s.sp h.sp).rs ra
     let i : Word := imm.signExtend 64
     let puts (v : Word) : Res := .next (s.ran h.sp fun x => x.gets rd v 1)
     exec (.addi h rd ra imm) s = puts (a + i) ∧
     exec (.andi h rd ra imm) s = puts (a &&& i) ∧
     exec (.ori h rd ra imm) s = puts (a ||| i) ∧
     exec (.xori h rd ra imm) s = puts (a ^^^ i) ∧
     exec (.slli h rd ra sh) s = puts (a <<< sh.val) ∧
     exec (.srli h rd ra sh) s = puts (a >>> sh.val) ∧
     exec (.srai h rd ra sh) s = puts (a.sshiftRight sh.val) ∧
     exec (.movi h rd imm) s = puts i ∧
     exec (.movhi h rd ra imm) s = puts (imm ++ a.setWidth 32))

/-- The compares and the predicate operations (07 R173); a write of p0 is discarded (06 R139). -/
def Obligations.ComparesAndPredicates : Prop :=
  ∀ (h : Hdr) (pd pa pb : Fin 8) (ra rb : Fin 32) (imm : BitVec 32) (s : State), s.issues h →
    let x := s.sp h.sp
    let a := x.rs ra
    let b := x.rs rb
    let i : Word := imm.signExtend 64
    let puts (v : Bool) : Res := .next (s.ran h.sp fun x => x.wp pd v)
    (x.needS [ra, rb] = [] →
      exec (.cmpEq h pd ra (.reg rb)) s = puts (decide (a = b)) ∧
      exec (.cmpNe h pd ra (.reg rb)) s = puts (decide (a ≠ b)) ∧
      exec (.cmpLt h pd ra (.reg rb)) s = puts (decide (a.toInt < b.toInt)) ∧
      exec (.cmpGe h pd ra (.reg rb)) s = puts (decide (b.toInt ≤ a.toInt)) ∧
      exec (.cmpLtu h pd ra (.reg rb)) s = puts (decide (a.toNat < b.toNat)) ∧
      exec (.cmpGeu h pd ra (.reg rb)) s = puts (decide (b.toNat ≤ a.toNat))) ∧
    (x.needS [ra] = [] →
      exec (.cmpEq h pd ra (.imm imm)) s = puts (decide (a = i)) ∧
      exec (.cmpNe h pd ra (.imm imm)) s = puts (decide (a ≠ i)) ∧
      exec (.cmpLt h pd ra (.imm imm)) s = puts (decide (a.toInt < i.toInt)) ∧
      exec (.cmpGe h pd ra (.imm imm)) s = puts (decide (i.toInt ≤ a.toInt)) ∧
      exec (.cmpLtu h pd ra (.imm imm)) s = puts (decide (a.toNat < i.toNat)) ∧
      exec (.cmpGeu h pd ra (.imm imm)) s = puts (decide (i.toNat ≤ a.toNat))) ∧
    exec (.pand h pd pa pb) s = puts (x.rp pa && x.rp pb) ∧
    exec (.por h pd pa pb) s = puts (x.rp pa || x.rp pb) ∧
    exec (.pxor h pd pa pb) s = puts (x.rp pa != x.rp pb) ∧
    exec (.pnot h pd pa) s = puts (!x.rp pa)

/-- The scalar loads (07 R174): `n` bytes of the spindle's own bobbin at a multiple of `n`, sign- or zero-extended.
The scalar stores (07 R174): the low bytes, lowest first, into the spindle's own bobbin; every register stays, and
every other byte of every bobbin and of memory reads as before. -/
def Obligations.ScalarMemory : Prop :=
  (∀ (h : Hdr) (rd ra : Fin 32) (off : BitVec 32) (s : State),
     s.issues h → (s.sp h.sp).needS [ra] = [] → (s.sp h.sp).freeS rd →
     let x := s.sp h.sp
     let a := (x.rs ra + off.signExtend 64).toNat
     let o := a - h.sp.val * 0x100000
     let fits (n : Nat) : Prop :=
       h.sp.val * 0x100000 ≤ a ∧ a + n ≤ h.sp.val * 0x100000 + 0x100000 ∧ a % n = 0 ∧ readStall s h.sp o n = []
     let v (n : Nat) : Nat := leNat (cellsRead x.bobbin o n)
     let puts (w : Word) : Res := .next (s.ran h.sp fun x => x.gets rd w 4)
     (fits 1 → exec (.ld1 h rd ra off) s = puts ((BitVec.ofNat 8 (v 1)).signExtend 64) ∧
       exec (.ld1u h rd ra off) s = puts (BitVec.ofNat 64 (v 1))) ∧
     (fits 2 → exec (.ld2 h rd ra off) s = puts ((BitVec.ofNat 16 (v 2)).signExtend 64) ∧
       exec (.ld2u h rd ra off) s = puts (BitVec.ofNat 64 (v 2))) ∧
     (fits 4 → exec (.ld4 h rd ra off) s = puts ((BitVec.ofNat 32 (v 4)).signExtend 64) ∧
       exec (.ld4u h rd ra off) s = puts (BitVec.ofNat 64 (v 4))) ∧
     (fits 8 → exec (.ld8 h rd ra off) s = puts (BitVec.ofNat 64 (v 8)))) ∧
  (∀ (h : Hdr) (rs ra : Fin 32) (off : BitVec 32) (s : State),
     s.issues h → s.canonical → (s.sp h.sp).needS [ra, rs] = [] →
     let x := s.sp h.sp
     let a := scalarAddr x ra off
     let o := a - bobbinBase h.sp
     let fits (n : Nat) : Prop := ownBobbin h.sp a n = true ∧ a % n = 0 ∧ writeStall s h.sp o n = []
     let stores (c : Instr) (n : Nat) : Prop := fits n → ∃ t, exec c s = .next t ∧
       (∀ i, i < n → cellGet (t.sp h.sp).bobbin (o + i) = (x.rs rs).extractLsb' (8 * i) 8) ∧
       (∀ i, i < o ∨ o + n ≤ i → cellGet (t.sp h.sp).bobbin i = cellGet x.bobbin i) ∧
       t = s.ran h.sp fun y => { y with bobbin := (t.sp h.sp).bobbin }
     stores (.st1 h rs ra off) 1 ∧ stores (.st2 h rs ra off) 2 ∧ stores (.st4 h rs ra off) 4 ∧
     stores (.st8 h rs ra off) 8)

/-- The branches (07 R176; 06 R143): `off` counts from the branch's bundle, a taken branch costs two further cycles. -/
def Obligations.Branches : Prop :=
  ∀ (h : Hdr) (ra : Fin 32) (off : BitVec 32) (s : State), s.issues h →
    let x := s.sp h.sp
    let target := (BitVec.ofNat 64 x.pcBytes + off.signExtend 64).toNat
    let goes (t : Nat) (y : Spindle) : Spindle := { y with pc := BitVec.ofNat 22 (t / 8), nextIssue := x.clk + 3 }
    (target % 8 = 0 → target < 0x1000000 →
      exec (.br h off) s = .next (s.ran h.sp (goes target)) ∧
      (x.freeS 31 → exec (.call h off) s =
        .next (s.ran h.sp fun y => goes target (y.gets 31 (BitVec.ofNat 64 y.pcBytes) 1))) ∧
      (x.needS [ra] = [] → x.freeS ra →
        exec (.bdec h ra off) s = .next (s.ran h.sp fun y =>
          if x.rs ra = 1 then y.gets ra 0 1 else goes target (y.gets ra (x.rs ra - 1) 1)))) ∧
    ((x.rs ra).toNat % 8 = 0 → (x.rs ra).toNat < 0x1000000 → x.needS [ra] = [] →
      exec (.jr h ra) s = .next (s.ran h.sp (goes (x.rs ra).toNat))) ∧
    ((x.rs 31).toNat % 8 = 0 → (x.rs 31).toNat < 0x1000000 → x.needS [31] = [] →
      exec (.ret h) s = .next (s.ran h.sp (goes (x.rs 31).toNat)))

/-- The system instructions (07 R177, R178): `end` stops the fetch and the share ends, `brk` raises BREAK with its code
and nothing of its bundle happens.
`csrr` reads a control and status register after two cycles and `csrw` writes it by its access code (06 R140, 07
R177): `FLAGS` clears the bits written as 1 that are not set in that cycle (07 R179), `SEED` takes the word, the others
stay. -/
def Obligations.SystemAndControl : Prop :=
  (∀ (h : Hdr) (code : BitVec 8) (sh : Share) (s : State), s.issues h → (s.sp h.sp).share = some sh →
     exec (.nop h) s = .next (s.ran h.sp id) ∧
     exec (.endShare h) s = .next (s.ran h.sp fun y =>
       { y with share := some { sh with phase := .ending } }) ∧
     (let trap : Trap := { exc := .brk, cause := causeWord 5 0 code.toNat 7 2 (s.sp h.sp).pcBytes, len := 1 }
      exec (.brk h code) s =
       .next (s.setSp h.sp { s.sp h.sp with fetched := [], share := some { sh with phase := .trapping trap } }))) ∧
  (∀ (h : Hdr) (rd ra : Fin 32) (csr : BitVec 12) (s : State), s.issues h →
     let x := s.sp h.sp
     let a := x.rs ra
     (x.freeS rd →
       let reads (n : BitVec 12) (w : Word) : Prop :=
         exec (.csrr h rd n) s = .next (s.ran h.sp fun y => y.gets rd w 2)
       reads 0 (BitVec.ofNat 64 (b2n x.flags.nv + 2 * b2n x.flags.ovf + 4 * b2n x.flags.uf + 8 * b2n x.flags.msk)) ∧
       reads 1 x.seed ∧ reads 2 (BitVec.ofNat 64 (x.pcBytes % 2 ^ 24)) ∧ reads 3 x.cause ∧
       reads 4 (x.step.setWidth 64) ∧ reads 5 x.cycle) ∧
     (x.needS [ra] = [] →
       (let now : Flags := if x.setAt = x.clk then x.setNow else {}
        exec (.csrw h 0 ra) s = .next (s.ran h.sp fun y => { y with flags :=
         ⟨x.flags.nv && (!a[0] || now.nv), x.flags.ovf && (!a[1] || now.ovf), x.flags.uf && (!a[2] || now.uf),
          x.flags.msk && (!a[3] || now.msk)⟩ })) ∧
       exec (.csrw h 1 ra) s = .next (s.ran h.sp fun y => { y with seed := a }) ∧
       (2 ≤ csr.toNat → csr.toNat ≤ 5 → exec (.csrw h csr ra) s = .next (s.ran h.sp id))))

/-- `ldw` (03 R65, R67, R86; 07 R180): with its address in the spindle's own bobbin and a multiple of 16, a format the
array loads, and room in the array queue, it enters the queue with its block as the bobbin holds it at issue (DESIGN
CHOICE, log 136).
`mma` (03 R65 to R71, R86, R87; 07 R180): on a pair of formats the array multiplies, with the slot loaded in the
format it names and a tile of the pair's tag unless it sets the tile (the tag its tile has after the queued work, log
16), it enters the array queue.
With the clock running, the array's units (03 R65, R67, R79, R81): an `ldw` at the head of the queue has loaded its slot once the depth of
its format has passed since it started; an `mma` at the head whose slot, tile and port are free streams its rows, once
for each pass, and commits 270 cycles after the last; it sums its rows as they are in its first cycle (DESIGN CHOICE,
log 136). Nothing else of the spindle changes. -/
def Obligations.MatrixInstructions : Prop :=
  (∀ (h : Hdr) (m : Fin 2) (ra : Fin 32) (fb : Fmt) (scb : Bool) (s : State), s.issues h →
     let x := s.sp h.sp
     let a := (x.rs ra).toNat
     let off := a - bobbinBase h.sp
     bobbinBase h.sp ≤ a → a % 16 = 0 → (∀ r ∈ ldwRanges off fb scb, r.1 + r.2 ≤ 0x100000) →
     arrayFmt fb = true → (scb = true → fmtScalable fb = true) → x.needS [ra] = [] → x.arrayUse < 8 →
     (∀ r ∈ ldwRanges off fb scb, readStall s h.sp r.1 r.2 = []) →
     exec (.ldw h m ra fb scb) s = .next (s.ran h.sp fun y =>
       { y with arrayQ := x.arrayQ ++ [(x.clk, .ldw m off fb scb (loadBlock x off fb scb))] })) ∧
  (∀ (h : Hdr) (c : Fin 4) (m : Fin 2) (ra : Fin 32) (n : Num7) (mode : MmaMode) (fa : Fmt) (sca : Bool)
       (fb : Fmt) (scb : Bool) (tag : Tag) (s : State), s.issues h →
     let x := s.sp h.sp
     let a := (x.rs ra).toNat
     let off := a - bobbinBase h.sp
     let rows := count7 x n
     let ranges := mmaRanges off rows fa sca (pairDepth fa fb)
     1 ≤ rows → rows ≤ 128 → bobbinBase h.sp ≤ a → a % 16 = 0 → off % hankPitch fa * 8 % (pairDepth fa fb * fmtWidth fa) = 0 →
     (∀ r ∈ ranges, r.1 + r.2 ≤ 0x100000) → fa ≠ .rsv → fb ≠ .rsv → pairTag fa fb = some tag →
     (sca = true → fmtScalable fa = true) → (scb = true → fmtScalable fb = true) →
     (mode ≠ .set → x.tileTag c = tag) → x.slotFmt m = some (fb, scb) → x.needS (ra :: num7Regs n) = [] → x.arrayUse < 8 →
     (∀ r ∈ ranges, readStall s h.sp r.1 r.2 = []) →
     exec (.mma h c m ra n mode fa sca fb scb) s = .next (s.ran h.sp fun y =>
       { y with arrayQ := x.arrayQ ++ [(x.clk, .mma c m off rows mode fa sca fb scb)] })) ∧
  (∀ (p : Fin 136) (s : State) (t : Nat) (rest : List (Nat × ArrOp)), s.mgmt.clockLost = false →
     let x := s.sp p
     (∀ (m : Fin 2) (off : Nat) (fb : Fmt) (scb : Bool) (block : WSlot),
       x.arrayQ = (t, .ldw m off fb scb block) :: rest →
       max t (max x.loadFree (x.slotFree.get m)) + depthOf fb ≤ x.clk →
       exec (.ldwLoadDone p) s = .next (s.setSp p { x with
         arrayQ := rest
         slot := upd x.slot m block
         loadFree := max t (max x.loadFree (x.slotFree.get m)) + depthOf fb })) ∧
     (∀ (c : Fin 4) (m : Fin 2) (off rows : Nat) (mode : MmaMode) (fa : Fmt) (sca : Bool) (fb : Fmt) (scb : Bool),
       x.arrayQ = (t, .mma c m off rows mode fa sca fb scb) :: rest →
       (∀ f ∈ x.flight, f.c ≠ c) → (∀ q ∈ x.pends, q.at_ < t → q.wrs.any (Wr.isTile c) = false) →
       x.streamFree ≤ x.clk →
       ∃ f : Flight, exec (.mmaStart p) s = .next (s.setSp p { x with
           arrayQ := rest
           flight := x.flight ++ [f]
           streamFree := x.clk + pairPasses fa fb * rows
           slotFree := upd x.slotFree m (x.clk + pairPasses fa fb * rows) }) ∧
         f.c = c ∧ f.m = m ∧ f.mode = mode ∧ f.tag = (pairTag fa fb).getD .fp ∧ f.rows = rows ∧ f.start = x.clk ∧
         f.ends = x.clk + pairPasses fa fb * rows ∧ f.due = x.clk + pairPasses fa fb * rows + 270 ∧
         (f.sums, f.flags) = mmaSums x (x.slot.get m) off rows fa sca fb))

/-- An `mma` commits (03 R71 to R75, R77, R80): pass by pass, every element of a row it streamed takes the block sum, or
its own value with the block sum added or subtracted and rounded once, and under `set` the passes after the first add.
The tile takes the pair's tag; a `set` that changes the tag leaves +0 in the rows it did not stream. The other tiles
stay. -/
def Obligations.MatrixCommit : Prop :=
  ∀ (p : Fin 136) (s : State) (f : Flight) (fs : List Flight),
    let x := s.sp p
    let tile := x.tile.get f.c
    s.mgmt.clockLost = false → x.flight = f :: fs → (∀ sum ∈ f.sums, sum.length = f.rows) → f.due ≤ x.clk →
    ∃ t : State, exec (.mmaCommit p) s = .next t ∧ (t.sp p).flight = fs ∧
      ((t.sp p).tile.get f.c).tag = f.tag ∧ (∀ c, c ≠ f.c → (t.sp p).tile.get c = x.tile.get c) ∧
      (∀ i j : Fin 128,
        let old := (tile.rows.get i).get j
        let one (mode : MmaMode) (a u : Lane) : Lane :=
          match mode, f.tag with
          | .set, _ => u
          | .acc, .fp => (rne32 ((f32 a).add (f32 u))).1
          | .sub, .fp => (rne32 ((f32 a).add (f32 u).neg)).1
          | .acc, .int => BitVec.ofInt 32 (max (-2147483648) (min 2147483647 (a.toInt + u.toInt)))
          | .sub, .int => BitVec.ofInt 32 (max (-2147483648) (min 2147483647 (a.toInt - u.toInt)))
        (((t.sp p).tile.get f.c).rows.get i).get j =
          if f.rows ≤ i.val then (if f.mode = .set ∧ tile.tag ≠ f.tag then 0 else old)
          else (f.sums.zipIdx).foldl (fun a su =>
            one (if f.mode = .set ∧ su.2 ≠ 0 then .acc else f.mode) a ((su.1.getD i.val []).getD j.val 0)) old) ∧
      (t.sp p).s = x.s ∧ (t.sp p).v = x.v ∧ (t.sp p).bobbin = x.bobbin ∧ t.mem = s.mem

/-- Vector arithmetic (04 R88, R89, R91; 07 R181): one issue a cycle, the result due four cycles later. In FP32 each lane
is rounded once from its exact value; in packed BF16 each half is.
`vmin` and `vmax` (04 R88, R89), in FP32 and on the halves of packed BF16: the operand that is no NaN when one is,
the canonical NaN when both are.
`vcvt` (07 R182; 02 R55) on a pair of formats and a rounding mode that R55 supports: each element is rounded once,
under SR with the twist of its index; to BF16 a second source fills the upper halves with indices from 128 on. A `VB` or
`NP` that the formats do not use changes nothing (DEDUCED, log 86). -/
def Obligations.VectorInstructions : Prop :=
  (∀ (h : Hdr) (vd va vc : Fin 32) (vb : VSrc) (f : Fmt) (rm : RM) (np nc : Bool) (s : State), s.issues h →
     let x := s.sp h.sp
     x.needV [va, vc] = [] → x.needV [va, va] = [] → vsrcNeed x vb = [] → x.wawUnits vd = [] → x.vPort = [] →
     (f = .fp32 ∨ f = .bf16) → (rm = .rne ∨ rm = .rtz) →
     let result (w : Instr) (vc : Fin 32) (op : Ext → Ext → Ext → Ext) : Prop :=
       ∃ (r : VReg) (fl : Flags),
         exec w s = .next (s.ran h.sp fun y => { y with
           vFree := x.clk + 1
           vpend := x.vpend ++ [{ at_ := x.clk, busy := x.clk + 1, due := x.clk + 4, reads := [],
                                  wrs := [.v vd r], flags := fl }] }) ∧
         ∀ i : Fin 128,
           let a := (x.v.get va).get i
           let b := (vsrc x vb).get i
           let c := (x.v.get vc).get i
           (f = .fp32 → r.get i = (toF32 rm 0 (op (f32 a) (f32 b) (f32 c))).1) ∧
           (f = .bf16 → ∀ hi : Bool, half (r.get i) hi =
             (encodeFP fparB16 true rm 0 (op (decodeFP fparB16 (half a hi)) (decodeFP fparB16 (half b hi))
               (decodeFP fparB16 (half c hi)))).1 % 2 ^ 16)
     result (.vadd h vd va vb f rm np) va (fun a b _ => (negIf np a).add b) ∧
     result (.vmul h vd va vb f rm np) va (fun a b _ => negIf np (a.mul b)) ∧
     result (.vfma h vd va vb vc f rm np nc) vc (fun a b c => (negIf np (a.mul b)).add (negIf nc c))) ∧
  (∀ (h : Hdr) (vd va : Fin 32) (vb : VSrc) (f : Fmt) (s : State), s.issues h →
     let x := s.sp h.sp
     x.needV [va] = [] → vsrcNeed x vb = [] → x.wawUnits vd = [] → x.vPort = [] → (f = .fp32 ∨ f = .bf16) →
     let pick (first : Ext → Ext → Bool) (nan a b : Nat) : Nat :=
       if (decode f a).isNan then (if (decode f b).isNan then nan else b)
       else if (decode f b).isNan then a else if first (decode f a) (decode f b) then a else b
     let result (w : Instr) (first : Ext → Ext → Bool) : Prop :=
       ∃ r : VReg,
         exec w s = .next (s.ran h.sp fun y => { y with
           vFree := x.clk + 1
           vpend := x.vpend ++ [{ at_ := x.clk, busy := x.clk + 1, due := x.clk + 4, reads := [],
                                  wrs := [.v vd r], flags := {} }] }) ∧
         ∀ i : Fin 128,
           let a := (x.v.get va).get i
           let b := (vsrc x vb).get i
           (f = .fp32 → r.get i = BitVec.ofNat 32 (pick first 0x7FC00000 a.toNat b.toNat)) ∧
           (f = .bf16 → ∀ hi : Bool, half (r.get i) hi = pick first 0x7FC0 (half a hi) (half b hi))
     result (.vmin h vd va vb f) (fun a b => a.lt b) ∧ result (.vmax h vd va vb f) (fun a b => b.lt a)) ∧
  (∀ (h : Hdr) (vd va vb ix : Fin 32) (f f2 : Fmt) (rm : RM) (satInf np : Bool) (s : State), s.issues h →
     let x := s.sp h.sp
     x.needV [va, vb] = [] → x.needV [va] = [] → x.needS [ix] = [] → x.wawUnits vd = [] → x.vPort = [] →
     convCheck f f2 rm = none → (rm = .sr ∨ ix = 0) →
     ∃ (r : VReg) (fl : Flags),
       exec (.vcvt h vd va vb f f2 rm satInf np ix) s = .next (s.ran h.sp fun y => { y with
         vFree := x.clk + 1
         vpend := x.vpend ++ [{ at_ := x.clk, busy := x.clk + 1, due := x.clk + 4, reads := [],
                                wrs := [.v vd r], flags := fl }] }) ∧
       ∀ i : Fin 128,
         let code (l : Lane) (n : Nat) : Nat :=
           (encode f2 satInf rm (x.rnd (x.rs ix) n) (decode f (cvtSource f np l))).1
         r.get i = if f2 = .bf16
           then pack2 (code ((x.v.get va).get i) i.val) (code ((x.v.get vb).get i) (128 + i.val))
           else cvtLane f2 (code ((x.v.get va).get i) i.val))

/-- The special functions (04 R91 to R94; 07 R183): in FP32 each lane is the function of its source; in packed BF16 each
half is the FP32 function of the half, rounded once, under SR with the twist of its element's index. The function sets
the interval and the latency.
The special values of 04 R94, as results and flags: a NaN gives the canonical NaN without a flag; a NaN made from
another value sets NV. -/
def Obligations.SpecialInstructions : Prop :=
  (∀ (h : Hdr) (vd va ix : Fin 32) (f : Fmt) (rm : RM) (s : State), s.issues h →
     let x := s.sp h.sp
     x.needV [va] = [] → x.needS [ix] = [] → x.wawUnits vd = [] → x.vPort = [] →
     ((f = .fp32 ∧ rm = .rne) ∨ (f = .bf16 ∧ rm ≠ .rha)) → (rm = .sr ∨ ix = 0) →
     let result (w : Instr) (fn : Lane → Lane × Flags) (interval lat : Nat) : Prop :=
       ∃ (r : VReg) (fl : Flags),
         exec w s = .next (s.ran h.sp fun y => { y with
           vFree := x.clk + interval
           vpend := x.vpend ++ [{ at_ := x.clk, busy := x.clk + interval, due := x.clk + lat, reads := [],
                                  wrs := [.v vd r], flags := fl }] }) ∧
         ∀ i : Fin 128,
           let a := (x.v.get va).get i
           (f = .fp32 → r.get i = (fn a).1) ∧
           (f = .bf16 → ∀ hi : Bool, half (r.get i) hi =
             (encodeFP fparB16 true rm (x.rnd (x.rs ix) (2 * i.val + b2n hi))
               (f32 (fn (BitVec.ofNat 32 (half a hi * 2 ^ 16))).1)).1 % 2 ^ 16)
     result (.vexp2 h vd va f rm ix) fnExp2 1 12 ∧ result (.vlog2 h vd va f rm ix) fnLog2 1 12 ∧
     result (.vrcp h vd va f rm ix) fnRcp 1 12 ∧ result (.vrsq h vd va f rm ix) fnRsq 1 12 ∧
     result (.vtanh h vd va f rm ix) fnTanh 1 12 ∧ result (.vsin h vd va f rm ix) fnSin 1 14 ∧
     result (.vcos h vd va f rm ix) fnCos 1 14 ∧ result (.vsig h vd va f rm ix) fnSig 2 22 ∧
     result (.vgelu h vd va f rm ix) fnGelu 2 22 ∧ result (.vsilu h vd va f rm ix) fnSilu 2 22) ∧
  ((∀ x : Lane, f32 x = .nan → ∀ fn ∈ [fnExp2, fnLog2, fnRcp, fnRsq, fnTanh, fnSin, fnCos, fnSig, fnGelu, fnSilu],
     fn x = (0x7FC00000, {})) ∧
   [fnExp2, fnLog2, fnRcp, fnRsq, fnTanh, fnSin, fnCos, fnSig, fnGelu, fnSilu].map (fun fn => fn 0x7F800000) =
     [(0x7F800000, {}), (0x7F800000, {}), (0, {}), (0, {}), (0x3F800000, {}), (0x7FC00000, { nv := true }),
      (0x7FC00000, { nv := true }), (0x3F800000, {}), (0x7F800000, {}), (0x7F800000, {})] ∧
   [fnExp2, fnLog2, fnRcp, fnRsq, fnTanh, fnSin, fnCos, fnSig, fnGelu, fnSilu].map (fun fn => fn 0xFF800000) =
     [(0, {}), (0x7FC00000, { nv := true }), (0x80000000, {}), (0x7FC00000, { nv := true }), (0xBF800000, {}),
      (0x7FC00000, { nv := true }), (0x7FC00000, { nv := true }), (0, {}), (0x80000000, {}), (0x80000000, {})] ∧
   [fnExp2, fnLog2, fnRcp, fnRsq, fnTanh, fnSin, fnCos, fnSig, fnGelu, fnSilu].map (fun fn => fn 0) =
     [(0x3F800000, {}), (0xFF800000, {}), (0x7F800000, {}), (0x7F800000, {}), (0, {}), (0, {}), (0x3F800000, {}),
      (0x3F000000, {}), (0, {}), (0, {})] ∧
   [fnRcp, fnRsq, fnTanh, fnSin, fnGelu, fnSilu].map (fun fn => fn 0x80000000) =
     [(0xFF800000, {}), (0xFF800000, {}), (0x80000000, {}), (0x80000000, {}), (0x80000000, {}), (0x80000000, {})])

/-- Tile rows and bobbin rows (04 R90, 07 R184): `vrd` and `vwr` copy a row, `vscr` multiplies every element of row `i`
by lane `i` and keeps the tag, `vld` and `vst` move 512 bytes of the spindle's own bobbin, lane 0 lowest.
`rsave` and `rload` (04 R114): the row-state file goes to 8 KiB of the bobbin and comes back, 64 bytes an entry in the
device's own layout (log 11); a load takes its bytes at issue (DESIGN CHOICE, log 136); a load of the bytes that a save wrote, whole or in part, wherever it was, restores the
entries saved there. -/
def Obligations.VectorRowMoves : Prop :=
  (∀ (h : Hdr) (vd ra : Fin 32) (c : Fin 4) (n : Num7) (row : Fin 128) (off : BitVec 16) (s : State), s.issues h →
     s.canonical →
     let x := s.sp h.sp
     num7 x n = row.val → x.needS (num7Regs n) = [] →
     x.vPort = [] → x.wawUnits vd = [] → x.needV [vd] = [] → x.needS [ra] = [] →
     let pend (interval lat : Nat) (w : List Wr) (fl : Flags) : State := s.ran h.sp fun y => { y with
       vFree := x.clk + interval
       vpend := x.vpend ++ [{ at_ := x.clk, busy := x.clk + interval, due := x.clk + lat, reads := [],
                              wrs := w, flags := fl }] }
     let a := (x.rs ra + off.signExtend 64).toNat
     let o := a - bobbinBase h.sp
     (x.needTile [c] = [] →
       exec (.vrd h vd c n) s = .next (pend 1 3 [.v vd ((x.tile.get c).rows.get row)] {})) ∧
     (x.freeRow c = [] →
       exec (.vwr h c n vd) s = .next (pend 1 3 [.tileRow c row (x.v.get vd)] {})) ∧
     (x.needTile [c] = [] → x.freeTile c = [] → (x.tile.get c).tag = .fp →
       ∃ (t : Tile) (fl : Flags), exec (.vscr h c vd) s = .next (pend 128 132 [.tile c t] fl) ∧ t.tag = .fp ∧
         ∀ i j : Fin 128, (t.rows.get i).get j =
           (rne32 ((f32 (((x.tile.get c).rows.get i).get j)).mul (f32 ((x.v.get vd).get i)))).1) ∧
     (ownBobbin h.sp a 512 = true → a % 16 = 0 →
       (readStall s h.sp o 512 = [] → ∃ r : VReg, exec (.vld h vd ra off) s = .next (pend 1 8 [.v vd r] {}) ∧
         ∀ i : Fin 128, r.get i = BitVec.ofNat 32 (leNat (cellsRead x.bobbin (o + 4 * i.val) 4))) ∧
       (writeStall s h.sp o 512 = [] → ∃ t : State, exec (.vst h vd ra off) s = .next t ∧
         (∀ (i : Fin 128) (b : Nat), b < 4 → cellGet (t.sp h.sp).bobbin (o + 4 * i.val + b) =
           ((x.v.get vd).get i).extractLsb' (8 * b) 8) ∧
         (∀ i, i < o ∨ o + 512 ≤ i → cellGet (t.sp h.sp).bobbin i = cellGet x.bobbin i) ∧
         t = s.ran h.sp fun y => { y with bobbin := (t.sp h.sp).bobbin }))) ∧
  (∀ (h : Hdr) (ra : Fin 32) (s : State), s.issues h →
     let x := s.sp h.sp
     let a := (x.rs ra).toNat
     let o := a - bobbinBase h.sp
     let queued (reads : List (Nat × Nat × Nat)) (w : List Wr) : State := s.ran h.sp fun y => { y with
       rq := x.rq ++ [{ at_ := x.clk, busy := queueStart x.clk x.rq + 16, due := queueStart x.clk x.rq + 24,
                        reads, wrs := w, flags := {} }] }
     ownBobbin h.sp a 8192 = true → a % 16 = 0 → x.needS [ra] = [] → queueStall x.clk x.rq = [] →
     (writeStall s h.sp o 8192 = [] → exec (.rsave h ra) s = .next (queued [] [.mem o (fileBytes x.rows)])) ∧
     (readStall s h.sp o 8192 = [] →
       ∃ file : Vector RowEntry 128,
         exec (.rload h ra) s = .next (queued
           ((List.range 16).map fun i => (o + 512 * i, 512, queueStart x.clk x.rq + i)) [.rowFile file]) ∧
         ∀ (i : Fin 128) (e : RowEntry),
           cellsRead x.bobbin (o + 64 * i.val) 64 = entryBytes e → file.get i = e)) ∧
  (∀ (f : Vector RowEntry 128), (fileBytes f).length = 8192 ∧
     ∀ i : Fin 128, ((fileBytes f).drop (64 * i.val)).take 64 = entryBytes (f.get i))

/-- With the clock running (01 R35), a vector result that is due is written and its flags join `FLAGS` (04 R89, R91); nothing else changes.
The row unit and the quantiser write the result of the instruction at the head of their queue when it is due, and
its flags join `FLAGS` (04 R111, R112; 05 R131, R132). -/
def Obligations.UnitResults : Prop :=
  (∀ (p : Fin 136) (s : State) (q : Pend) (rest : List Pend), s.mgmt.clockLost = false →
     let x := s.sp p
     x.vpend = q :: rest → q.due ≤ x.clk →
     let writes (f : Spindle → Spindle) : Prop :=
       exec (.vectorResultWrite p) s =
         .next (s.setSp p { f x with vpend := rest, flags := x.flags.or q.flags })
     (∀ r v, q.wrs = [.v r v] → writes fun y => { y with v := upd y.v r v }) ∧
     (∀ c t, q.wrs = [.tile c t] → writes fun y => { y with tile := upd y.tile c t }) ∧
     (∀ c i v, q.wrs = [.tileRow c i v] → writes fun y =>
       { y with tile := upd y.tile c { y.tile.get c with rows := upd (y.tile.get c).rows i v } })) ∧
  (∀ (p : Fin 136) (s : State) (q : Pend) (rest : List Pend), s.mgmt.clockLost = false →
     let x := s.sp p
     q.due ≤ x.clk →
     (x.rq = q :: rest → ∃ t, exec (.rowUnitComplete p) s = .next t ∧ (t.sp p).rq = rest ∧
       (t.sp p).flags = x.flags.or q.flags ∧ (∀ f, q.wrs = [.rowFile f] → (t.sp p).rowFile = f ∧ (t.sp p).v = x.v) ∧
       (∀ r v, q.wrs = [.v r v] → (t.sp p).v = upd x.v r v ∧ (t.sp p).rowFile = x.rowFile)) ∧
     (x.qq = q :: rest → ∃ t, exec (.quantiserComplete p) s = .next t ∧ (t.sp p).qq = rest ∧
       (t.sp p).flags = x.flags.or q.flags ∧ (∀ k b, q.wrs = [.e k b] → (t.sp p).e = upd x.e k b ∧ (t.sp p).s = x.s) ∧
       (∀ r v, r ≠ 0 → q.wrs = [.s r v] → (t.sp p).s = upd x.s r v ∧ (t.sp p).e = x.e) ∧
       (∀ o bs, q.wrs = [.mem o bs] → (t.sp p).bobbin = cellsWrite x.bobbin o bs)))

/-- The soft maximum (04 R99 to R103, R111, R115): over the positions that no mask hides, `smax.p1` gives every row its
new maximum, factor and sum, `smax.p2` its probabilities (NaN where the maximum is +∞), `smax.fac` and `smax.lse` read the entry, `smax.merge` merges a
state into it. Each result stands in the row unit's queue until it is due.
An EMPTY entry counts as the start state (log 83); a masked position of a row whose maximum is +∞ gives +0, and
`smax.merge` with one register for both takes the second result last (DESIGN CHOICE, log 135); a mask is read as it stands
at issue (DESIGN CHOICE, log 136). -/
def Obligations.SoftMaximum : Prop :=
  ∀ (h : Hdr) (c cd : Fin 4) (n : Num7) (sc va vb : Fin 32) (mask : Mask) (init raw : Bool) (s : State),
    s.issues h →
    let x := s.sp h.sp
    let k := count7 x n
    let f := x.rows
    let cc : Lane := (x.rs sc).setWidth 32
    1 ≤ k → k ≤ 128 → x.needS (sc :: num7Regs n ++ maskRegs mask) = [] → maskRaise x h.sp mask = [] →
    maskStall s h.sp mask = [] → x.needTile [c] = [] → x.freeTile cd = [] → x.needV [va, vb] = [] → x.wawRow va = [] →
    x.wawRow vb = [] → queueStall x.clk x.rq = [] →
    (x.tile.get c).tag = .fp → (∀ i, RowEntry.isStat (f.get i) = false) →
    let row (i : Fin 128) : List (Option Lane × Flags) :=
      scaledRow (maskTest x h.sp mask i.val) cc ((x.tile.get c).rows.get i) k
    let masks : List (Nat × Nat × Nat) := (List.range 128).flatMap fun i =>
      (maskReads x h.sp mask i).map fun r => (r.1, r.2, queueStart x.clk x.rq + i)
    let queuedOn (reads : List (Nat × Nat × Nat)) (busy lat : Nat) (w : List Wr) (fl : Flags) : State :=
      s.ran h.sp fun y => { y with
        rq := x.rq ++ [{ at_ := x.clk, busy := queueStart x.clk x.rq + busy, due := queueStart x.clk x.rq + lat,
                         reads, wrs := w, flags := fl }] }
    let queued := queuedOn []
    (∃ (file : Vector RowEntry 128) (fl : Flags),
      exec (.smaxP1 h c n sc mask init) s = .next (queuedOn masks 128 152 [.rowFile file] fl) ∧
      ∀ i : Fin 128,
        let old := if init then (floor32, (0 : Lane)) else smaxOf (f.get i)
        let live := (row i).filterMap (·.1)
        let m := live.foldl maxNan old.1
        let fac := (fnExp2 (sub32 old.1 m).1).1
        let t := live.foldl (fun t y => (add32 t (fnExp2 (sub32 y m).1).1).1) 0
        file.get i = .smax m (fma32 old.2 fac t).1 fac) ∧
    (∃ (t : Tile) (fl : Flags),
      exec (.smaxP2 h cd c n sc mask raw) s = .next (queuedOn masks 128 166 [.tile cd t] fl) ∧ t.tag = .fp ∧
      ∀ i j : Fin 128,
        let st := smaxOf (f.get i)
        (t.rows.get i).get j =
          match (row i)[j.val]? with
          | none => ((x.tile.get cd).rows.get i).get j
          | some (y, _) =>
            if (f32 st.2).isZero then 0 else
            match y with
            | none => 0
            | some y =>
              if st.1 = 0x7F800000 then 0x7FC00000 else
              let p := (fnExp2 (sub32 y st.1).1).1
              if raw then p else (mul32 p (recipIn st.2)).1) ∧
    (∃ v : VReg, exec (.smaxFac h va) s = .next (queued 1 8 [.v va v] {}) ∧
      ∀ i m u g, f.get i = .smax m u g → v.get i = g) ∧
    (∃ (v : VReg) (fl : Flags), exec (.smaxLse h va) s = .next (queued 1 14 [.v va v] fl) ∧
      ∀ i : Fin 128,
        let st := smaxOf (f.get i)
        v.get i = if (f32 st.2).isZero then 0xFF800000 else (add32 st.1 (fnLog2 st.2).1).1) ∧
    (∃ (file : Vector RowEntry 128) (a b : VReg) (fl : Flags),
      exec (.smaxMerge h va vb) s = .next (queued 1 16 [.rowFile file, .v va a, .v vb b] fl) ∧
      ∀ i : Fin 128,
        let st := smaxOf (f.get i)
        let mb := (x.v.get va).get i
        let sb := (x.v.get vb).get i
        let m := maxNan st.1 mb
        a.get i = (fnExp2 (sub32 st.1 m).1).1 ∧ b.get i = (fnExp2 (sub32 mb m).1).1 ∧
        smaxOf (file.get i) = (m, (rne32 (((f32 st.2).mul (f32 (a.get i))).add ((f32 sb).mul (f32 (b.get i))))).1))

/-- The statistics of the rows (04 R98, R105 to R110): `rstat.p1` with `init` over finite elements counts them and sums
them and their squares in the wide format, in ascending column order; `rstat.get`, the normalisations, `rdot` and `rsum` take each row by itself. -/
def Obligations.RowStatistics : Prop :=
  ∀ (h : Hdr) (c cd cb : Fin 4) (n : Num7) (se vd : Fin 32) (q : Stat) (s : State), s.issues h →
    let x := s.sp h.sp
    let k := count7 x n
    let f := x.rows
    let eps : Lane := (x.rs se).setWidth 32
    let elem (t : Fin 4) (i : Fin 128) : List Lane := ((x.tile.get t).rows.get i).toList.take k
    1 ≤ k → k ≤ 128 → x.needS (num7Regs n) = [] → x.needS (se :: num7Regs n) = [] → x.needTile [c] = [] →
    x.needTile [c, cb] = [] → x.freeTile cd = [] → x.needV [vd] = [] → x.wawRow vd = [] →
    queueStall x.clk x.rq = [] → (x.tile.get c).tag = .fp → (x.tile.get cb).tag = .fp →
    let queued (busy lat : Nat) (w : List Wr) (fl : Flags) : State := s.ran h.sp fun y => { y with
      rq := x.rq ++ [{ at_ := x.clk, busy := queueStart x.clk x.rq + busy, due := queueStart x.clk x.rq + lat,
                       reads := [], wrs := w, flags := fl }] }
    (∃ (file : Vector RowEntry 128) (fl : Flags),
      exec (.rstatP1 h c n true) s = .next (queued 128 152 [.rowFile file] fl) ∧
      ∀ i : Fin 128, (∀ l ∈ elem c i, ∃ b m e, f32 l = .fin b m e) →
        file.get i = .stat
          ((elem c i).foldl (fun a l => BitVec.ofNat 32 (pickCode .fp32 true 0x7FC00000 a.toNat l.toNat)) nan32)
          ((elem c i).foldl (fun a l => BitVec.ofNat 32 (pickCode .fp32 false 0x7FC00000 a.toNat l.toNat)) nan32)
          (BitVec.ofNat 32 k) (((elem c i).map f32).foldl widePlus {})
          (((elem c i).map fun l => (f32 l).mul (f32 l)).foldl widePlus {}) none {} false false false) ∧
    (∃ (v : VReg) (fl : Flags), exec (.rsum h vd c n) s = .next (queued 128 150 [.v vd v] fl) ∧
      ∀ i, v.get i = (rowSum ((x.v.get vd).get i) ((elem c i).map f32) (List.replicate 128 (.ofInt 1))).1) ∧
    (∃ (v : VReg) (fl : Flags), exec (.rdot h vd c cb n) s = .next (queued 128 150 [.v vd v] fl) ∧
      ∀ i, v.get i = (rowSum ((x.v.get vd).get i) ((elem c i).map f32) ((elem cb i).map f32)).1) ∧
    ((∀ i, RowEntry.isStat (f.get i) = true) →
      (∃ (file : Vector RowEntry 128) (fl : Flags),
        exec (.rstatP2 h c n) s = .next (queued 128 152 [.rowFile file] fl) ∧
        ∀ i, file.get i = (devRow (f.get i) (elem c i)).1) ∧
      (∃ (v : VReg) (fl : Flags), exec (.rstatGet h vd q) s = .next (queued 1 20 [.v vd v] fl) ∧
        ∀ i, v.get i = (statGet q (f.get i)).1) ∧
      (∃ (t : Tile) (fl : Flags), exec (.rnormLn h cd c n se) s = .next (queued 128 166 [.tile cd t] fl) ∧
        t.tag = .fp ∧ ∀ i j : Fin 128, (t.rows.get i).get j =
          if j.val < k then (normLn (f.get i) eps (((x.tile.get c).rows.get i).get j)).1
          else ((x.tile.get cd).rows.get i).get j) ∧
      (∃ (t : Tile) (fl : Flags), exec (.rnormRms h cd c n se) s = .next (queued 128 166 [.tile cd t] fl) ∧
        t.tag = .fp ∧ ∀ i j : Fin 128, (t.rows.get i).get j =
          if j.val < k then (normRms (f.get i) eps (((x.tile.get c).rows.get i).get j)).1
          else ((x.tile.get cd).rows.get i).get j))

/-- 04 R106: in a row whose maximum equals its minimum and that holds no NaN, the mean is that value and the variance
exactly +0, `rstat.p2` adds nothing and `rnorm.ln` writes +0 at every position, whatever ε is. -/
def Obligations.ConstantRow : Prop :=
  ∀ (mx mn : Lane) (n : BitVec 32) (sum sq dev : Wide) (mean : Option Lane) (pi ni : Bool) (xs : List Lane) (eps l : Lane),
    (f32 mx).same (f32 mn) = true →
    let e : RowEntry := .stat mx mn n sum sq mean dev false pi ni
    (mean = none → (statGet .mean e).1 = mx ∧ (statGet .mean (devRow e xs).1).1 = mx) ∧ statGet .var e = (0, {}) ∧
    (∃ m, (devRow e xs).1 = .stat mx mn n sum sq m dev false pi ni) ∧ normLn e eps l = (0, {})

/-- The scale exponents (05 R116, R117; 07 R188): `emov` takes the low byte of an s register, `emovs` gives an exponent
sign-extended, `eadd` adds and saturates at ±127 with OF, and the NaN exponent −128 stays.
Quantisation of a register (05 R118, R120, R121, R123; 07 R186, R187): with an exponent `e` from a register, element
`j` is lane `j` times 2^−e rounded once; a NaN exponent gives code 0 with NV. The codes are packed from the bobbin address
on.
The tile forms of the quantiser (05 R119 to R130; 07 R187), over the first rows of an FP-tagged tile (`rsc`:
INT-tagged): where the bobbin area is the spindle's own and aligned, each enters the quantiser's queue with its result.
An exponent comes from a register (`granExp`), or under `blk` and `blks` from a scale byte for each 32 columns: that of
the block's own elements (05 R120), or the byte of the bobbin area.
`qgrad` gives +0 where a finite value overflows and passes a NaN into a format that has none (DESIGN CHOICE, log 135);
sources are read at issue (DESIGN CHOICE, log 136). -/
def Obligations.Quantiser : Prop :=
  (∀ (h : Hdr) (k j : Fin 8) (r : Fin 32) (imm : BitVec 8) (s : State), s.issues h →
     let x := s.sp h.sp
     queueStall x.clk x.qq = [] →
     let queued (w : Wr) (fl : Flags) : Res := .next (s.ran h.sp fun y => { y with
       qq := x.qq ++ [{ at_ := x.clk, busy := queueStart x.clk x.qq + 1, due := queueStart x.clk x.qq + 2,
                        reads := [], wrs := [w], flags := fl }] })
     (x.needS [r] = [] → exec (.emov h k r) s = queued (.e k ((x.rs r).setWidth 8)) {}) ∧
     (x.needE [k] = [] → x.freeS r → exec (.emovs h r k) s = queued (.s r ((x.e.get k).signExtend 64)) {}) ∧
     (x.needE [j] = [] →
       let sum := (x.e.get j).toInt + imm.toInt
       exec (.eadd h k j imm) s =
         if x.e.get j = 0x80 then queued (.e k 0x80) {}
         else if sum < -127 then queued (.e k 0x81) { ovf := true }
         else if 127 < sum then queued (.e k 0x7F) { ovf := true }
         else queued (.e k (x.e.get j + imm)) {})) ∧
  (∀ (h : Hdr) (ra vs : Fin 32) (fmt : Fmt) (rm : RM) (satInf : Bool) (g : Gran) (ix : Fin 32) (s : State),
     s.issues h →
     let x := s.sp h.sp
     let a := (x.rs ra).toNat
     let o := a - bobbinBase h.sp
     let n := 16 * fmtWidth fmt
     ownBobbin h.sp a n = true → a % 16 = 0 → quantFmt fmt = true → granBlocks g = false → rm ≠ .rha →
     (rm = .sr ∨ ix = 0) → x.needS [ra, ix] = [] → x.needV [vs] = [] → granStall s h.sp g = [] →
     writeStall s h.sp o n = [] → queueStall x.clk x.qq = [] →
     ∃ (codes : List Nat) (fl : Flags),
       exec (.qnt h ra vs fmt rm satInf g ix) s = .next (s.ran h.sp fun y => { y with
         qq := x.qq ++ [{ at_ := x.clk, busy := queueStart x.clk x.qq + 1, due := queueStart x.clk x.qq + 6,
                          reads := [], wrs := [.mem o (packBytes (fmtWidth fmt) codes)], flags := fl }] }) ∧
       codes.length = 128 ∧
       ∀ j : Fin 128, codes.getD j.val 0 =
         match granExp x g 0 j with
         | none => 0
         | some e => (encode fmt satInf rm (x.rnd (x.rs ix) j.val) ((f32 ((x.v.get vs).get j)).scale (-e))).1) ∧
  (∀ (h : Hdr) (ra : Fin 32) (ct cd cg : Fin 4) (n : Num7) (fmt : Fmt) (rm : RM) (satInf : Bool) (g : Gran) (gt : GTag)
       (k : Fin 8) (ix va vm vs : Fin 32) (s : State), s.issues h →
     let x := s.sp h.sp
     let rows := count7 x n
     let a := (x.rs ra).toNat
     let o := a - bobbinBase h.sp
     let bytes := rows * hankPitch fmt
     1 ≤ rows → rows ≤ 128 → x.needS (ra :: ix :: num7Regs n) = [] → x.needS (ra :: num7Regs n) = [] →
     x.needS (ix :: num7Regs n) = [] → x.needS (num7Regs n) = [] → x.needTile [ct] = [] →
     queueStall x.clk x.qq = [] →
     let queued (busy lat : Nat) (reads : List (Nat × Nat × Nat)) (w : List Wr) (fl : Flags) : State :=
       s.ran h.sp fun y => { y with
         qq := x.qq ++ [{ at_ := x.clk, busy := queueStart x.clk x.qq + busy, due := queueStart x.clk x.qq + lat,
                          reads, wrs := w, flags := fl }] }
     let inside (scales : Bool) : Prop := bobbinBase h.sp ≤ a ∧ o + bytes ≤ 0x100000 ∧ a % 16 = 0 ∧
       (scales = true → o + hankBytes fmt + 512 ≤ 0x100000)
     let element (i j : Fin 128) : Lane := ((x.tile.get ct).rows.get i).get j
     let free : Prop := granStall s h.sp g = [] ∧ granRaise x h.sp g = [] ∧ (granBlocks g = true → fmtScalable fmt = true)
     (inside (granBlocks g) → free → quantFmt fmt = true → rm ≠ .rha → (rm = .sr ∨ ix = 0) → (x.tile.get ct).tag = .fp →
       (∀ r ∈ imageRanges o fmt (granBlocks g) rows, writeStall s h.sp r.1 r.2 = []) →
       ∃ (codes : List (List Nat × List Nat)) (reads : List (Nat × Nat × Nat)) (fl : Flags),
         exec (.qntt h ra ct n fmt rm satInf g ix) s =
           .next (queued 128 140 reads (imageWrites o fmt (granBlocks g) codes) fl) ∧
         codes.length = rows ∧
         ∀ i j : Fin 128, i.val < rows →
           let row := codes.getD i.val ([], [])
           (g = .blk → row.2.getD (j.val / 32) 0 =
             (blockScale fmt (((((x.tile.get ct).rows.get i).toList.drop (32 * (j.val / 32))).take 32).map f32)).1) ∧
           (∀ sb, g = .blks sb → row.2.getD (j.val / 32) 0 =
             (cellGet x.bobbin ((x.rs sb).toNat - bobbinBase h.sp + 4 * i.val + j.val / 32)).toNat) ∧
           row.1.getD j.val 0 =
             match (if granBlocks g then expOfE8 (row.2.getD (j.val / 32) 0) else granExp x g i j) with
             | none => 0
             | some e => (encode fmt satInf rm (x.rnd (x.rs ix) (128 * i.val + j.val)) ((f32 (element i j)).scale (-e))).1) ∧
     (expFmt fmt = true → (x.tile.get ct).tag = .fp →
       let group (l : List Ext) : Byte × Flags := groupByte fmt l
       let row (i : Nat) : List Ext := (((x.tile.get ct).rows.toList.getD i (rep 128 0)).toList).map f32
       exec (.qexp h (.tensor k) ct n fmt) s =
         .next (queued 128 140 [] [.e k (group ((List.range rows).flatMap row)).1]
           (group ((List.range rows).flatMap row)).2) ∧
       (x.wawQuant va = [] → ∃ (v : VReg) (fl : Flags),
         exec (.qexp h (.col va) ct n fmt) s = .next (queued 128 140 [] [.v va v] fl) ∧
         ∀ j : Fin 128, v.get j =
           ((group ((List.range rows).map fun i => (row i).getD j.val .zero)).1).signExtend 32) ∧
       (x.wawQuant va = [] → x.needV [va] = [] → ∃ (v : VReg) (fl : Flags),
         exec (.qexp h (.row va) ct n fmt) s = .next (queued 128 140 [] [.v va v] fl) ∧
         ∀ i : Fin 128, v.get i =
           if i.val < rows then ((group (row i.val)).1).signExtend 32 else (x.v.get va).get i)) ∧
     (inside (g == .blk) → free → quantFmt fmt = true → x.freeTile cd = [] →
       (∀ r ∈ imageRanges o fmt (g == .blk) rows, readStall s h.sp r.1 r.2 = []) →
       ∃ (t : Tile) (fl : Flags) (reads : List (Nat × Nat × Nat)),
         exec (.dqnt h cd ra n fmt g) s = .next (queued 128 136 reads [.tile cd t] fl) ∧ t.tag = .fp ∧
         ∀ i j : Fin 128,
           let code := (elems (fmtWidth fmt) 128
             (cellsRead x.bobbin (o + i.val * hankPitch fmt) (hankPitch fmt))).getD j.val 0
           let area := if g = .blk then o + hankBytes fmt else
             match g with
             | .blks sb => (x.rs sb).toNat - bobbinBase h.sp
             | _ => 0
           (t.rows.get i).get j =
             if rows ≤ i.val then 0 else
             match (if granBlocks g then expOfE8 (cellGet x.bobbin (area + 4 * i.val + j.val / 32)).toNat
                 else granExp x g i j) with
             | none => 0x7FC00000
             | some e => (rne32 ((decode fmt code).scale e)).1) ∧
     (quantFmt fmt = true → granBlocks g = false → granStall s h.sp g = [] → rm ≠ .rha → (rm = .sr ∨ ix = 0) →
       (x.tile.get ct).tag = .fp → (x.tile.get cg).tag = .fp →
       x.needTile [ct, cg] = [] → x.freeTile cd = [] → x.needV [va] = [] → x.wawQuant va = [] →
       ∃ (t : Tile) (v : VReg) (fl : Flags),
         exec (.qgrad h cd ct cg n va fmt rm satInf g ix) s =
           .next (queued 128 156 [] [.tile cd t, .v va v] fl) ∧ t.tag = .fp ∧
         ∀ i j : Fin 128,
           (i.val < rows → ∀ e, granExp x g i j = some e →
             let r := encode fmt satInf rm (x.rnd (x.rs ix) (128 * i.val + j.val)) ((f32 (element i j)).scale (-e))
             (t.rows.get i).get j =
               if (f32 (element i j)).isInf = true ∨ r.2.ovf = true then 0 else ((x.tile.get cg).rows.get i).get j) ∧
           (rows ≤ i.val → (t.rows.get i).get j = ((x.tile.get cd).rows.get i).get j)) ∧
     (inside false → (fmt = .i8 ∨ fmt = .u8 ∨ fmt = .i4) → (rm = .rne ∨ rm = .rha) → gtagBlocks gt = false →
       (x.tile.get ct).tag = .int → x.needV [vm, vs] = [] → writeStall s h.sp o bytes = [] →
       ∃ (codes : List (List Nat)) (fl : Flags),
         exec (.rsc h ra ct n fmt rm gt vm vs) s =
           .next (queued 128 140 [] [.mem o (codes.flatMap (packBytes (fmtWidth fmt)))] fl) ∧
         codes.length = rows ∧
         ∀ i j : Fin 128, i.val < rows →
           let l : Fin 128 := match gt with
             | .col => j
             | .row => i
             | _ => 0
           (codes.getD i.val []).getD j.val 0 =
             (rescale fmt (rm == .rha) (element i j) ((x.v.get vm).get l) ((x.v.get vs).get l)).1))

/-- The flyer instructions (06 R148, R156 to R158; 07 R189 to R191): where the operands are readable, the word, layouts,
bases and formats pass their checks, every range is reached and no interlock holds, the token becomes BUSY and the move,
with its translations, goes to the skein's flyers or their queue, and a tenant's pages are looked up (11 R301).
The sync instructions (06 R149, R155, R156; 07 R192, R193): on a token that is not BUSY `twait` goes on, `tpoll`
gives 1 and `tstat` the status its last move left; `sfence` goes on when the units' queues are empty; `cread` and
`cwait` read the completion count of a queue of the kernel's own owner. -/
def Obligations.FlyerAndSync : Prop :=
  (∀ (h : Hdr) (f : Fl) (own : Owner) (s : State) (a d w : List Seg), s.issues h →
     let x := s.sp h.sp
     let sk := skeinOf h.sp
     x.share.map (·.owner) = some own →
     let moves (i : Instr) (op : MoveOp) (g : Fl) : Prop :=
       let m := flMove x h.sp op g
       m.pitchOk = true → m.skipTooBig = false → m.basesOk = true → m.formatOf = none →
       flReach s h.sp own m = (.ok a, .ok d, .ok w) → flStall s h.sp m g.t = [] →
       x.needS ([g.sd, g.ss, g.sn] ++
         (if g.sp = 0 then [] else [g.sp, g.sp + 1] ++ (if g.path = .shadow then [g.sp + 2] else []))) = [] →
       exec i s = .next (
         let s' := lookUpSegs (s.ran h.sp fun y => { y with tok := upd y.tok g.t .busy }) sk own (a ++ d ++ w)
         s'.setSk sk (feed { s'.sk sk with
           fq := (s'.sk sk).fq ++ [{ m with srcSegs := a, dstSegs := d, shSegs := w }] }))
     (flEnc f = none → moves (.fmv h f) .copy f) ∧
     (flEnc f = none → f.path = .hold → moves (.fadd h f) .add f) ∧
     moves (.ffill h f.t f.sd f.ss f.sn f.fs f.fd f.hint) .fill
       { f with tr := false, rm := .rne, satInf := false, path := .hold, sp := 0, scs := false, scd := false }) ∧
  (∀ (h : Hdr) (t : Fin 16) (pd : Fin 8) (rd ra rb : Fin 32) (q : Fin 4096) (sh : Share) (s : State), s.issues h →
     let x := s.sp h.sp
     (x.tok.get t ≠ .busy →
       exec (.twait h t) s = .next (s.ran h.sp id) ∧
       exec (.tpoll h pd t) s = .next (s.ran h.sp fun y => y.wp pd true) ∧
       (x.freeS rd → exec (.tstat h rd t) s =
         .next (s.ran h.sp fun y => y.gets rd (BitVec.ofNat 64 (Token.status (x.tok.get t))) 1))) ∧
     (x.tok.get t = .busy →
       exec (.tpoll h pd t) s = .next (s.ran h.sp fun y => y.wp pd false) ∧
       exec (.twait h t) s = .next (s.setSp h.sp (Spindle.count { x with fetched := [.twait h t] } 5 1))) ∧
     (x.arrayQ = [] → x.flight = [] → x.rq = [] → x.qq = [] → exec (.sfence h) s = .next (s.ran h.sp id)) ∧
     (x.share = some sh → (x.rs ra).toNat = q.val → (q.val < 16 ↔ sh.owner = .controller) → x.needS [ra] = [] →
       (x.freeS rd → exec (.cread h rd ra) s =
         .next (s.ran h.sp fun y => y.gets rd (BitVec.ofNat 64 (s.q q).lc) 40)) ∧
       (x.needS [ra, rb] = [] → (x.rs rb).toNat ≤ (s.q q).lc → exec (.cwait h ra rb) s = .next (s.ran h.sp id)) ∧
       (x.needS [ra, rb] = [] → (s.q q).lc < (x.rs rb).toNat →
         exec (.cwait h ra rb) s = .next (s.setSp h.sp (Spindle.count { x with fetched := [.cwait h ra rb] } 5 1)))))

/-- A KERNEL whose turn has come, whose body passes its checks and whose image and arguments are reached dispatches (06
R136; 12 R317, R322, R327): its descriptor runs, and one share for each spindle of its set waits to be launched. A body
that fails a check completes once with the check's status and has no other effect; its `VALUE` is 0 (DEDUCED, log 92).
The launch of a share (01 R28; 06 R163; 12 R327), with its image and arguments mapped and sound: on a free spindle whose skein runs, when it is the queue's turn there, the
first share of the queue's oldest kernel that it hosts starts with the launch registers, the seed its queue had when the
kernel dispatched first, every other register 0 or +0, tokens FREE, an
empty row-state file, `PC` at the entry and the argument block at the base of the bobbin. -/
def Obligations.KernelsStart : Prop :=
  (∀ (q : Fin 4096) (d : Desc) (segs args : List Seg) (s : State), mayDispatch s q 0 = some d →
     let b := kernelBody d.raw
     (kernelCheck d.raw = none → resolveDesc s q false .fetch b.image b.imageLen = .ok segs →
       resolveDesc s q false .fetch b.args b.argLen = .ok args → d.waitMig = false →
       ∃ (t : State) (k : Kernel), exec (.kernel q) s = .next t ∧ t.kernels = s.kernels ++ [k] ∧
         k.queue = q ∧ k.seq = d.seq ∧ k.seed = d.seed.getD (s.q q).cfg.seed ∧ k.segs = segs ∧ k.args = args ∧ k.ended = [] ∧
         k.count = (spinList b.spins).length ∧ k.waiting.map (·.2) = spinList b.spins ∧
         (descOf t q d.seq).map (·.st) = some .running ∧ t.spindles = s.spindles ∧ t.mem.cells = s.mem.cells) ∧
     (∀ st, kernelCheck d.raw = some st →
       exec (.kernel q) s = .next (failDesc s q d.seq st) ∧
       (descOf (failDesc s q d.seq st) q d.seq).map (·.st) = some (.finished st {} 0 0 0))) ∧
  (∀ (q : Fin 4096) (p : Fin 136) (k : Kernel) (w : Nat × Fin 128) (d : Desc) (s : State),
     mayLaunch s p = true → spindleTurn s q p = true →
     s.kernels.findSome? (fun j => if j.queue = q ∧ !j.stopped ∧ mayHost s p j then
       (j.waiting.find? fun w => shareTurn s j p w.2).map fun w => (j, w) else none) = some (k, w) →
     descOf s q k.seq = some d →
     let b := kernelBody d.raw
     let s1 := serveSpindle (touchSegs s k.args b.args b.argLen false) q p
     segsMapped s1 (k.segs ++ k.args) = true →
     firstPoison s1 k.args b.args b.argLen = none → firstPoison s1 k.segs b.image b.imageLen = none →
     ∃ t, exec (.shareLaunch q p) s = .next t ∧
       (let y := t.sp p
        (∀ r : Fin 32, y.rs r =
           if r = 1 ∨ r = 2 then BitVec.ofNat 64 (bobbinBase p)
           else if r = 3 then BitVec.ofNat 64 w.2.val
           else if r = 4 then BitVec.ofNat 64 w.1
           else if r = 5 then BitVec.ofNat 64 k.count
           else if r = 6 then BitVec.ofNat 64 k.queue.val else 0) ∧
        (∀ r : Fin 8, y.rp r = decide (r = 0)) ∧ y.v = rep 32 (rep 128 0) ∧ y.e = rep 8 0 ∧ y.tok = rep 16 .free ∧
        y.tile = rep 4 {} ∧ y.rowFile = rep 128 .empty ∧ y.flags = {} ∧ y.cause = 0 ∧ y.cycle = 0 ∧
        y.seed = k.seed ∧ y.step = BitVec.ofNat 32 b.step ∧ y.pc = BitVec.ofNat 22 (b.entry / 8) ∧
        y.share.map (fun h => (h.queue, h.seq, h.index, h.count, h.logical, h.imageLen, h.phase)) =
          some (k.queue, k.seq, w.1, k.count, w.2, b.imageLen, .running) ∧
        y.bobbin = cellsWrite (if (s.sp p).owner = some (queueOwner k.queue) ∨ (s.sp p).owner = none
          then (s.sp p).bobbin else []) 0 (readSegs s1 k.args b.args b.argLen)) ∧
       (∀ p', p' ≠ p → t.sp p' = s.sp p') ∧ t.mem.cells = s.mem.cells)

/-- An exception is taken once earlier work is done (06 R159, R162; 11 R303): `CAUSE` names it; FORMAT ends the share with
FORMAT, ILLEGAL and ALIGN with ACCESS; BREAK halts it and sends a record with a fault of its own (DEDUCED, log 21); PAGE sends a record, switches the share out
into a save image and leaves its queue in WAIT_PAGE.
A bundle given by its words that breaks a rule of the encoding raises ILLEGAL with the sub-code of the rule and has no
other effect (06 R137, R138, R141, R161); a word that breaks none acts as the instruction it encodes (06 R141).
Words written out from the encodings of 06 R141 to R149 decode to the instructions they stand for.
A bobbin access outside the spindle's own bobbin raises ILLEGAL 0x06, and one inside it that is not aligned raises
ALIGN 0x04 (07 R174), once its operands are ready (06 R152): the bundle has no effect, and the share waits for the
exception with its cause (06 R159, R160). -/
def Obligations.ExceptionsTaken : Prop :=
  (∀ (p : Fin 136) (sh : Share) (tr : Trap) (s : State),
     (s.sp p).share = some sh → sh.phase = .trapping tr → quiet s p = true → s.serving = true →
     let x := s.sp p
     (tr.exc = .format → exec (.exceptionTaken p) s =
       .next (s.setSp p { x with cause := tr.cause, share := some { sh with phase := .ended .format } })) ∧
     (tr.exc = .illegal ∨ tr.exc = .align → exec (.exceptionTaken p) s =
       .next (s.setSp p { x with cause := tr.cause, share := some { sh with phase := .ended .access } })) ∧
     (tr.exc = .brk → ∃ t, exec (.exceptionTaken p) s = .next t ∧
       t.sp p = { x with cause := tr.cause, share := some { sh with phase := .halted tr.len } } ∧
       t.trans.nextFault = s.trans.nextFault + 1 ∧
       (t.trans.faults.getLast?.map fun f => (f.id, f.queue, f.work, f.brk)) =
         some (s.trans.nextFault, sh.queue, .share sh.logical sh.seq, true)) ∧
     (tr.exc = .page → s.mgmt.faults.length < 256 → s.trans.images = [] → (∀ k, (s.sk k).changes = []) → ∃ t, exec (.exceptionTaken p) s = .next t ∧
       (t.sp p).share = none ∧
       t.trans.images = [{ queue := sh.queue, share := { sh with phase := .running }
                           regs := { x with cause := tr.cause } }] ∧
       t.mgmt.faults.length = s.mgmt.faults.length + 1 ∧ t.trans.nextFault = s.trans.nextFault + 1 ∧
       ((s.q sh.queue).st = .opened → (t.q sh.queue).st = .waitPage))) ∧
  (∀ (p : Fin 136) (ws : List Word) (sh : Share) (s : State), (s.sp p).share = some sh → sh.phase = .running →
     (s.sp p).fetched = [] → ws ≠ [] →
     let x := s.sp p
     let n := min 4 ws.length
     let trap (d slot cls opc : Nat) : Trap := { exc := .illegal, cause := causeWord 2 slot d cls opc x.pcBytes, len := n }
     let traps (d slot cls opc : Nat) : Prop := exec (.malformedBundle p ws) s =
       .next (s.setSp p { x with share := some { sh with phase := .trapping (trap d slot cls opc) } })
     (sh.imageLen < x.pcBytes + 8 * n → traps 0x07 0 0 0) ∧
     (x.pcBytes + 8 * n ≤ sh.imageLen →
       (wordsWhole ws = false → traps 0x03 0 0 0) ∧
       (∀ w d, wordsWhole ws = true →
         (wordsBySlot ws).findSome? (fun w => (wordError w).map fun d => (w, d)) = some (w, d) →
         traps d (classSlot (w.bits 62 60)) (w.bits 62 60) (w.bits 59 52)))) ∧
  (∀ (p : Fin 136) (w : Word) (i : Instr) (sh : Share) (s : State), (s.sp p).share = some sh → sh.phase = .running →
     (s.sp p).fetched = [] → (s.sp p).pcBytes + 8 ≤ sh.imageLen → wordsWhole [w] = true → decodeWord p w = some i →
     exec (.malformedBundle p [w]) s = exec i s) ∧
  (let h (k : Fin 8) : Hdr := { sp := 0, e := true, pred := k }
   let words : List (Nat × Instr) := [
      (0x8000308800000000, .add (h 0) 3 1 2),
      (0x81024280FFFFFFF8, .addi (h 1) 4 5 0xFFFFFFF8),
      (0x8220230200000064, .cmpLt (h 0) 2 6 (.imm 100)),
      (0x8280530000000000, .pand (h 0) 1 2 3),
      (0x8330740000000010, .ld8 (h 0) 7 8 16),
      (0x90169000FFFFFFE0, .bdec (h 3) 9 0xFFFFFFE0),
      (0xF040A00100000000, .csrw (h 0) 1 10),
      (0xA001224000000000, .ldw (h 0) 1 4 .e4m3 true),
      (0xA010887EA2000000, .mma (h 0) 1 0 4 (.imm 63) .acc .e4m3 false .e2m1 false),
      (0xB0243088E0010000, .vfma (h 2) 3 1 (.v 2) 7 .fp32 .rne true false),
      (0xB080531D20500000, .vcvt (h 0) 5 6 7 .fp32 .bf16 .sr false false 9),
      (0xB2005A2C00000000, .vrd (h 0) 5 2 (.reg 11)),
      (0xB23050007FFE0000, .vld (h 0) 5 3 0xFFF0),
      (0xC00105300019F800, .smaxP1 (h 0) 2 (.imm 63) 5 (.causal 6) true),
      (0xC0A0000200000002, .rstatGet (h 0) 8 .rstd),
      (0xC290895022446B00, .qntt (h 0) 9 1 (.reg 13) .e2m1 .sr false (.blks 12) 10),
      (0xD000432149224C80, .fmv (h 0)
        { t := 2, sd := 3, ss := 4, sn := 5, fs := .bf16, fd := .e4m3, tr := true, rm := .rne, satInf := false,
          hint := .keep, path := .shadow, sp := 6, scs := false, scd := true }),
      (0xE010A30000000000, .tpoll (h 0) 3 5)]
   ∀ x ∈ words, decodeTableWord 64 x.1 = some x.2) ∧
  (∀ (h : Hdr) (rd ra : Fin 32) (off : BitVec 32) (sh : Share) (s : State),
     s.issues h → (s.sp h.sp).share = some sh →
     let x := s.sp h.sp
     let a := scalarAddr x ra off
     let traps (r : Raise) (opc : Nat) : Res := .next (s.setSp h.sp (raise x sh r 0 0 opc 1))
     let o := a - bobbinBase h.sp
     let ready := x.needS [ra] = [] ∧ x.freeS rd ∧ (ownBobbin h.sp a 4 = true → readStall s h.sp o 4 = [])
     let storeReady := x.needS [ra, rd] = [] ∧ (ownBobbin h.sp a 4 = true → writeStall s h.sp o 4 = [])
     (ownBobbin h.sp a 4 = false →
       (ready → exec (.ld4 h rd ra off) s = traps { exc := .illegal, detail := 0x06 } 0x32) ∧
       (storeReady → exec (.st4 h rd ra off) s = traps { exc := .illegal, detail := 0x06 } 0x3A)) ∧
     (ownBobbin h.sp a 4 = true → a % 4 ≠ 0 →
       (ready → exec (.ld4 h rd ra off) s = traps { exc := .align, detail := 0x04 } 0x32) ∧
       (storeReady → exec (.st4 h rd ra off) s = traps { exc := .align, detail := 0x04 } 0x3A)))

/-- A share halted in place for want of a save image switches out once an image is free (11 R303).
`end` ends a share once its queued work has committed and its moves have completed, and a kernel completes when its
last share has ended (06 R167): every share OK gives OK. -/
def Obligations.SharesEnd : Prop :=
  (∀ (p : Fin 136) (sh : Share) (tr : Trap) (s : State),
     (s.sp p).share = some sh → sh.phase = .noImage tr true → sh.drained = false → s.serving = true →
     s.trans.images.length < 256 → (∀ i ∈ s.trans.images, i.resume = false) → (∀ k, (s.sk k).changes = []) →
     ∃ t, exec (.saveImageFreed p) s = .next t ∧ (t.sp p).share = none ∧
       t.trans.images = s.trans.images ++
         [{ queue := sh.queue, slot := freeImage s, share := { sh with phase := .running }, regs := s.sp p }]) ∧
  (∀ (p : Fin 136) (sh : Share) (k : Kernel) (d : Desc) (s : State),
     (s.sp p).share = some sh → sh.phase = .ending → quiet s p = true → s.serving = true → sh.moveFaulted = false →
     kernelOf s sh.queue sh.seq = some k → descOf s sh.queue sh.seq = some d → d.st = .running →
     s.trans.images = [] → (∀ k, (s.sk k).changes = []) →
     ∃ t, exec (.shareEnd p) s = .next t ∧ (t.sp p).share = none ∧
       (k.ended.length + 1 < k.count →
         (kernelOf t sh.queue sh.seq).map (·.ended) = some (k.ended ++
           [(sh.index, sh.logical, .ok, (s.sp p).cause, (s.sp p).flags.or sh.moveFlags)]) ∧
         descOf t sh.queue sh.seq = some d) ∧
       (k.ended.length + 1 = k.count → (∀ e ∈ k.ended, e.2.2.1 = .ok) →
         kernelOf t sh.queue sh.seq = none ∧
         ∃ fl : Flags, (descOf t sh.queue sh.seq).map (·.st) = some (.finished .ok fl 0 0 0xFFFF)))

/-- The MOVE descriptors (08 R205 to R207; 12 R318, R322, R327): one whose turn has come, whose body passes its checks and
whose ranges are all reached runs when it is its queue's turn at the flyers of the skein of its ranges; with its
translations it goes to them or to their queue. Which skein takes a move between two, and the order of equals, is the
model's (DESIGN CHOICE, log 23). A body that fails a check completes once with the check's status.
The end of a move (06 R156; 08 R211, R213): a move dropped by SKIP writes nothing and its token holds DEADLINE; any
other that meets no fault writes its hanks and its token holds OK. Its flyer takes the oldest waiting move.
The deadline of a move that has not completed (08 R213 to R216): the queue's count of misses advances once; HOLD goes
on, SHADOW switches to the shadow from the hanks the primary has not written, SKIP drops the move unless its last source
byte has been read. No other move changes. -/
def Obligations.Moves : Prop :=
  (∀ (q : Fin 4096) (d : Desc) (a b w : List Seg) (s : State), mayDispatch s q 1 = some d →
     let runs (c : Instr) (op : MoveOp) (n : Nat) : Prop :=
       let m := descMove s q d op
       let m' := { m with srcSegs := a, dstSegs := b, shSegs := w }
       let s1 := startDesc s q d.seq
       fieldAt d.raw 0x28 0 3 = n →
       (moveCheck d.raw m = none → descReach s q m = (.ok a, .ok b, .ok w) →
         let k := moveSkein s m'
         let s2 := s1.setSk k { s1.sk k with lastF := served s1 (s1.sk k).lastF q }
         let s3 := lookUpSegs s2 k (queueOwner q) (a ++ b ++ w)
         flyerTurn s q k = true →
         exec c s = .next (s3.setSk k (feed { s3.sk k with fq := (s3.sk k).fq ++ [m'] }))) ∧
       (∀ st, moveCheck d.raw m = some st → exec c s = .next (failDesc s q d.seq st))
     runs (.copy q) .copy 0 ∧ runs (.moveAdd q) .add 1 ∧ runs (.fill q) .fill 2) ∧
  (∀ (k : Fin 8) (f : Fin 4) (n : Nat) (m : Move) (p : Fin 136) (tk : Fin 16) (s : State),
     ((s.sk k).fly.get f).move = some m → m.origin = .instr p tk → moveHeld s m = false → s.serving = true →
     (m.op = .add → addsWait s m.dstSegs = false) → m.poisonMet s n = none →
     (m.dropped = true → ∃ t, exec (.flyerMoveComplete k f n) s = .next t ∧
       (t.sp p).tok.get tk = .done .deadline ∧ (t.sp p).bobbin = (s.sp p).bobbin ∧ t.mem = s.mem ∧
       (t.q m.queue).dropped = min (2 ^ 16 - 1) ((s.q m.queue).dropped + 1) ∧
       ((s.sk k).fq = [] → ((t.sk k).fly.get f).move = none)) ∧
     (m.dropped = false → m.faulted = false → m.stopped = false → m.meetsPoison s = false →
       segsMapped s (m.srcSegs ++ m.dstSegs ++ m.shSegs) = true →
       ∀ (ws : List (Nat × List Byte)) (fl : Flags) (s' : State), m.writes s m.dest.hanks = (ws, fl) →
         applyWrites (m.traffic s ws) m.dstSegs ws = (s', true) →
         ∃ t, exec (.flyerMoveComplete k f n) s = .next t ∧ (t.sp p).tok.get tk = .done .ok ∧ t.mem = s'.mem ∧
           (∀ p', (t.sp p').bobbin = (s'.sp p').bobbin) ∧
           ((s'.sk k).fq = [] → ((t.sk k).fly.get f).move = none))) ∧
  (∀ (o : Origin) (n : Nat) (readDone : Bool) (m : Move) (s : State),
     (s.skeins.toList.flatMap Skein.moves).find? (fun m => m.origin = o) = some m →
     m.deadline ≠ 0 → m.missed = false → s.serving = true →
     ∃ t, exec (.moveDeadlineExpiry o n readDone) s = .next t ∧
       (t.q m.queue).miss = min (2 ^ 24 - 1) ((s.q m.queue).miss + 1) ∧
       (∀ k : Fin 8, t.sk k = (s.sk k).mapMoves fun x => if x ≠ m then x else
         match m.path with
         | .hold => { m with missed := true }
         | .shadow => { m with missed := true, switched := true, primary := n }
         | .skip => { m with missed := true, dropped := !readDone }) ∧
       t.spindles = s.spindles ∧ t.mem = s.mem)

/-- BIND in full service (08 R218, R219, R224; 12 R319): a 64 KiB-aligned backing of 1 to 256 leas in stacked memory that
overlaps no binding and no plane of running distaff work, in a free slot, within the queue's quotas and the skein's
free leas, with no binding that it has evicted still on its way, gets a binding with every sector INVALID; the descriptor completes OK (a tenant's while its pages stand as
they were captured, 11 R299).
The other creel operations on a bound slot (08 R218 to R223): FLUSH writes the dirty sectors back and leaves them
CLEAN, RELEASE removes the binding, with its dirty sectors written back unless it drops them, PIN and UNPIN set its pin.
The creel's own work (08 R220, R225): an eviction that ends writes its binding back and gives its leas to the pool;
the background fill makes an INVALID sector CLEAN. -/
def Obligations.CreelWork : Prop :=
  (∀ (q : Fin 4096) (d : Desc) (segs : List Seg) (s : State), creelTurn s q 3 = some d → s.mgmt.phase = .full →
     let c := creelBody d.raw
     let k := c.skein
     creelClean d.raw true = true → c.backing % 0x10000 = 0 → c.leas ≠ 0 → c.leas ≤ 256 →
     resolveDesc s q false .read c.backing (c.leas * 0x10000) = .ok segs → allStacked s segs = true →
     slotBinding s q c.slot = none → overlapsLive s segs = false → overlapsEvicting s segs = false →
     overlapsPlane s segs = false → (queueOwner q = .tenant → ∀ b : Binding, b.segs = segs → bindingLost s.trans b = false) →
     (s.sk k).heldBy q + c.leas ≤ (s.q q).leas → c.leas ≤ (s.sk k).leasFree →
     (∀ b ∈ (s.sk k).bindings, b.evicting = true → b.evictor ≠ some (q, d.seq)) →
     (c.pin = true → (s.sk k).pinnedBy q + c.leas ≤ (s.q q).pin ∧ (s.sk k).pinnedLeas + c.leas ≤ 224) →
     ∃ t, exec (.bind q) s = .next t ∧
       (t.sk k).bindings = insertByAge
         { queue := q, slot := c.slot, backing := c.backing, segs, leas := c.leas, fill := c.fill, pinned := c.pin
           hint := c.hint, sectors := List.replicate (16 * c.leas) .invalid, data := [], age := (s.sk k).bindSeq }
         (s.sk k).bindings ∧
       (descOf t q d.seq).map (·.st) = some (.finished .ok {} 0 0 0) ∧ t.mem.cells = s.mem.cells) ∧
  (∀ (q : Fin 4096) (d : Desc) (s : State), s.canonical → creelClean d.raw false = true →
     let c := creelBody d.raw
     let done (t : State) : Prop := (descOf t q d.seq).map (·.st) = some (.finished .ok {} 0 0 0)
     (∀ (k : Fin 8) (b : Binding), slotBinding s q c.slot = some (k, b) → b ∈ (s.sk k).bindings →
       (b.data.map (·.1)).Nodup → (∀ k, (s.sk k).bindWait = []) →
       let back (t : State) : Prop := ∀ x ∈ b.data, cellGet t.mem.cells x.1 = x.2 ^^^ farBase s.mem x.1
       (creelTurn s q 4 = some d → ∃ t, exec (.flush q) s = .next t ∧ done t ∧ back t ∧
         (t.sk k).bindings = (s.sk k).bindings.map fun x => if x = b
           then { b with data := [], sectors := b.sectors.map fun y => if y = .dirty then .clean else y } else x) ∧
       (creelTurn s q 5 = some d → ∃ t, exec (.moveRelease q) s = .next t ∧ done t ∧ (c.drop = false → back t) ∧
         (c.drop = true → t.mem = { s.mem with creelPoison := t.mem.creelPoison }) ∧ (t.sk k).bindings = (s.sk k).bindings.filter fun x => x ≠ b) ∧
       (creelTurn s q 6 = some d →
         ((s.sk k).pinnedBy q + b.leas ≤ (s.q q).pin ∧ (s.sk k).pinnedLeas + b.leas ≤ 224) →
         ∃ t, exec (.pin q) s = .next t ∧ done t ∧ t.mem = s.mem ∧
           (t.sk k).bindings = (s.sk k).bindings.map fun x => if x = b then { b with pinned := true } else x) ∧
       (creelTurn s q 7 = some d → ∃ t, exec (.unpin q) s = .next t ∧ done t ∧ t.mem = s.mem ∧
         (t.sk k).bindings = (s.sk k).bindings.map fun x => if x = b then { b with pinned := false } else x))) ∧
  (∀ (q : Fin 4096) (k : Fin 8) (b : Binding) (s : State), s.canonical → s.serving = true →
     ((s.sk k).bindings.find? (·.evicting) = some b → (b.data.map (·.1)).Nodup → (∀ k, (s.sk k).bindWait = []) →
       ∃ t, exec (.evictionComplete k) s = .next t ∧ (t.sk k).bindings = (s.sk k).bindings.filter (fun x => x ≠ b) ∧
         ∀ x ∈ b.data, cellGet t.mem.cells x.1 = x.2 ^^^ farBase s.mem x.1) ∧
     (∀ (slot : Fin 64) (n : Nat), slotBinding s q slot = some (k, b) → b.fill = true → b.sectors[n]? = some .invalid →
       ∃ t, exec (.bindFill q slot n) s = .next t ∧ t.mem.cells = s.mem.cells ∧
         (t.sk k).bindings = (s.sk k).bindings.map fun x => if x = b
           then { b with sectors := b.sectors.set n .clean } else x))

/-- The slots of a queue's bindings (08 R219). -/
def Obligations.SlotRules : Prop :=
  ∀ (q : Fin 4096) (d : Desc) (s : State),
    let c := creelBody d.raw
    let ends (t : State) (st : Status) : Prop := (descOf t q d.seq).map (·.st) = some (.finished st {} 0 0 0) ∧
      (∀ k, (t.sk k).bindings = (s.sk k).bindings) ∧ t.mem.cells = s.mem.cells
    (creelTurn s q 3 = some d → creelClean d.raw true = true →
      (slotBinding s q c.slot ≠ none → ∃ t, exec (.bind q) s = .next t ∧ ends t .access) ∧
      (∀ segs, resolveDesc s q false .read c.backing (c.leas * 0x10000) = .ok segs → overlapsLive s segs = true →
        ∃ t, exec (.bind q) s = .next t ∧ ends t .access)) ∧
    ((∀ (k : Fin 8), ∀ b ∈ (s.sk k).bindings, b.queue = q → b.slot = c.slot → b.evicting = true) →
      creelClean d.raw false = true →
      ∀ x ∈ [(4, Instr.flush q), (5, Instr.moveRelease q), (6, Instr.pin q), (7, Instr.unpin q)],
        creelTurn s q x.1 = some d → ∃ t, exec x.2 s = .next t ∧ ends t .ok ∧ t.skeins = s.skeins ∧ t.mem = s.mem)

/-- WAIT, FENCE and MARK (12 R328): a WAIT on a queue of the same owner completes once that queue's count has reached its
target and runs until then; a FENCE completes when it is the oldest descriptor of its queue; a MARK completes with its
tag and sets the seed where it says so.
RESUME (06 R162; 11 R305; 12 R310): naming an open fault of a queue it may name, it completes OK with the fault's
number and resolves the fault; a descriptor that waited starts again, a share that BREAK halted goes on at the bundle
after it; a share that a page fault switched out is released, and restored onto its spindle where that stands at its
kernel boundary. With ABANDON the descriptor, or the share with its cause and flags, ends with PAGE. A fault that does not
exist is REFUSED. -/
def Obligations.WaitFenceResume : Prop :=
  (∀ (q : Fin 4096) (d : Desc) (s : State), (s.q q).descs = [d] →
     let raw := d.raw
     let w : Fin 4096 := ⟨fieldAt raw 0x10 0 11 % 4096, Nat.mod_lt _ (by omega)⟩
     let st (t : State) : Option DState := (descOf t q d.seq).map (·.st)
     let ok (v : Nat) : Option DState := some (.finished .ok {} 0 0 (BitVec.ofNat 64 v))
     hdrClean raw = true → hdrNcont raw = 0 →
     (mayDispatch s q 6 = some d → zeros raw [(0x10, 12, 63), (0x20, 0, 63), (0x28, 0, 63), (0x30, 0, 63), (0x38, 0, 63)] =
         true → queueOwner w = queueOwner q →
       ∃ t, exec (.wait q) s = .next t ∧ (word64 raw 0x18 ≤ (s.q w).lc → st t = ok 0) ∧
         ((s.q w).lc < word64 raw 0x18 → st t = some .running)) ∧
     (mayDispatch s q 7 = some d → zeros raw [(0x10, 1, 63), (0x18, 0, 63), (0x20, 0, 63), (0x28, 0, 63), (0x30, 0, 63),
         (0x38, 0, 63)] = true → ∃ t, exec (.fence q) s = .next t ∧ st t = ok 0) ∧
     (reservedTurn s q = none → mayDispatch s q 8 = some d →
       zeros raw [(0x10, 33, 63), (0x20, 0, 63), (0x28, 0, 63), (0x30, 0, 63), (0x38, 0, 63)] = true →
       ∃ t, exec (.mark q) s = .next t ∧ st t = ok (fieldAt raw 0x10 0 31) ∧
         (let seed := if fieldAt raw 0x10 32 32 = 1 then BitVec.ofNat 64 (word64 raw 0x18) else (s.q q).cfg.seed
          (t.q q).cfg = { (s.q q).cfg with seed := seed }) ∧
         t.mem = s.mem)) ∧
  (∀ (q : Fin 4096) (d : Desc) (s : State), mayDispatch s q 10 = some d →
     let raw := d.raw
     let id := fieldAt raw 0x18 0 31
     let rq : Fin 4096 := ⟨fieldAt raw 0x10 0 11 % 4096, Nat.mod_lt _ (by omega)⟩
     hdrClean raw = true → hdrNcont raw = 0 →
     zeros raw [(0x10, 12, 31), (0x10, 33, 63), (0x18, 32, 63), (0x20, 0, 63), (0x28, 0, 63), (0x30, 0, 63), (0x38, 0, 63)] =
       true →
     (queueOwner q = .controller ∨ queueOwner rq = queueOwner q) →
     (s.trans.faults.find? (fun f => f.id = id ∧ f.queue = rq) = none →
       ∃ t, exec (.resume q) s = .next t ∧
         (descOf t q d.seq).map (·.st) = some (.finished .refused {} 0 0 (BitVec.ofNat 64 id)) ∧ t.trans = s.trans) ∧
     (∀ f, s.trans.faults.find? (fun f => f.id = id ∧ f.queue = rq) = some f → fieldAt raw 0x10 32 32 = 0 →
       (∀ n, f.work = .desc n → ∃ t, exec (.resume q) s = .next t ∧
         t.trans.faults = s.trans.faults.filter (fun g => g.id != id) ∧ t.spindles = s.spindles ∧
         (descOf t q d.seq).map (·.st) = some (.finished .ok {} 0 0 (BitVec.ofNat 64 id))) ∧
       (∀ l n p len, f.work = .share l n → f.brk = true → imageOf s rq n l = none → spindleOf s rq n l = some p →
         Option.map Share.phase (s.sp p).share = some (.halted len) →
         ∃ t, exec (.resume q) s = .next t ∧ Option.map Share.phase (t.sp p).share = some .running ∧
           (t.sp p).pc = (s.sp p).pc + BitVec.ofNat 22 len ∧ (t.sp p).s = (s.sp p).s) ∧
       (∀ l n i p k, f.work = .share l n → s.trans.images = [i] → imageOf s rq n l = some i → kernelOf s rq n = some k →
         shareHost s k l = some p → (∀ j, (s.sk j).changes = []) →
         ((s.sp p).share ≠ none → ∃ t, exec (.resume q) s = .next t ∧ t.spindles = s.spindles ∧
           t.trans.images = [{ i with resume := true }] ∧ t.trans.faults = s.trans.faults.filter (fun g => g.id != id)) ∧
         ((s.sp p).share = none → s.worksFor i.queue = true → mayHost s p k = true → shareTurn s k p l = true →
           ∃ t, exec (.resume q) s = .next t ∧ t.trans.images = [] ∧ t.sp p = restored (s.sp p) p i ∧
             ∀ p', p' ≠ p → t.sp p' = s.sp p'))) ∧
     (∀ f, s.trans.faults.find? (fun f => f.id = id ∧ f.queue = rq) = some f → fieldAt raw 0x10 32 32 = 1 →
       (∀ n e, f.work = .desc n → (rq ≠ q ∨ n ≠ d.seq) → descOf s rq n = some e → e.st = .accepted →
         ∃ t, exec (.resume q) s = .next t ∧ t.trans.faults = s.trans.faults.filter (fun g => g.id != id) ∧
           (descOf t rq n).map (·.st) = some (.finished .page {} 0 0 0) ∧
           (descOf t q d.seq).map (·.st) = some (.finished .ok {} 0 0 (BitVec.ofNat 64 id))) ∧
       (∀ l n i k, f.work = .share l n → s.trans.images = [i] → imageOf s rq n l = some i → kernelOf s rq n = some k →
         k.ended.length + 1 < k.count → i.share.moveFaulted = false →
         ∃ t, exec (.resume q) s = .next t ∧ t.trans.images = [] ∧ t.spindles = s.spindles ∧
           t.trans.faults = s.trans.faults.filter (fun g => g.id != id) ∧
           (kernelOf t rq n).map (·.ended) = some (k.ended ++
             [(i.share.index, i.share.logical, .page, i.regs.cause, i.regs.flags.or i.share.moveFlags)])) ∧
       (∀ l n p sh, f.work = .share l n → imageOf s rq n l = none → spindleOf s rq n l = some p →
         (s.sp p).share = some sh → ∃ t, exec (.resume q) s = .next t ∧
           t.sp p = { s.sp p with share := some { sh with phase := .ended .page } })))

/-- The completion of the oldest descriptor of a queue (12 R329, R330, R332): its count is its sequence number, its record
stands in the completion ring, a status other than OK is kept as the last bad one and holds a queue that stops on
errors. Before full service only what queues 0 to 15 hold is counted (18 R491). -/
def Obligations.DescriptorCompletes : Prop :=
  ∀ (q : Fin 4096) (a b c : Nat) (d : Desc) (rest : List Desc) (st : Status) (fl : Flags) (code detail : Nat)
      (value : Word) (s : State),
    s.worksFor q = true → (s.q q).descs = d :: rest → d.st = .finished st fl code detail value →
    s.canonical → (∀ k, (s.sk k).bindings = []) →
    ringArea ≤ (s.q q).cfg.cpl d.seq → (s.q q).cfg.cpl d.seq + 32 ≤ reserveTop s.mem →
    reserveTop s.mem ≤ 0x7000000000 →
    ∃ t, exec (.descriptorComplete q a b c) s = .next t ∧ (t.q q).lc = d.seq ∧ (t.q q).descs.length = rest.length ∧
      readPhys t ((s.q q).cfg.cpl d.seq) 32 = cplBytes s d st fl code detail value ∧
      (t.q q).bad = (if st = .ok then (s.q q).bad else d.seq) ∧
      ((s.q q).st = .opened → (t.q q).st = (if st ≠ .ok ∧ (s.q q).cfg.stopOnErr = true then .held else .opened)) ∧
      (∀ x, x < (s.q q).cfg.cpl d.seq ∨ (s.q q).cfg.cpl d.seq + 32 ≤ x → cellGet t.mem.cells x = cellGet s.mem.cells x)

/-- The orders on a queue (12 R311, R312, R332): RELEASE takes it out of HELD, RESET_SEQ clears the counters of an OFF
queue and is ignored otherwise, a commit that breaks no rule puts the staged words into effect as a whole (a HELD queue
with `ENABLE` 0 goes OFF: DEDUCED, log 93) and one that breaks a rule changes nothing and is REFUSED.
The drain of a queue (12 R333, R344): what waits on the queue leaves, nothing new of it starts, sweeps, transfers and
group operations of it stop; when nothing is left in flight the queue is OPEN again, or OFF where it is not enabled.
Acceptance goes on where its pause has ended and the queue's turn has come (12 R323, R326): the next descriptor of the
ring is accepted in its sequence. -/
def Obligations.QueueOrders : Prop :=
  (∀ (q : Fin 4096) (s : State),
     let x := s.q q
     (x.st = .held → (s.trans.faults.all fun f => f.brk || f.queue != q) = true →
       exec (.queueRelease q) s = .next (s.setQ q { x with st := .opened })) ∧
     (x.st = .off → exec (.resetSeq q) s =
       .next (s.setQ q { x with la := 0, lc := 0, head := 0, tail := 0, bad := 0, rings := [] })) ∧
     (x.st ≠ .off → exec (.resetSeq q) s = .next s) ∧
     (let c := qcfgOf (stagedOr x.staged 0x00 x.cfg.ringWord) (stagedOr x.staged 0x08 x.cfg.cfgWord)
       (stagedOr x.staged 0x10 x.cfg.seed)
      x.staged ≠ [] →
       (queueGroupOk s q c = true → exec (.queueCommit q) s = .next (s.setQ q { x with
         cfg := c, staged := [], result := .ok, st := qstAfter x.st c.enable })) ∧
       (queueGroupOk s q c = false → exec (.queueCommit q) s =
         .next (s.setQ q { x with staged := [], result := .refused })))) ∧
  (∀ (q : Fin 4096) (s : State),
     let x := s.q q
     (x.st ≠ .off → x.st ≠ .draining → ∃ t, exec (.queueDrain q) s = .next t ∧ (t.q q).st = .draining ∧
       (t.q q).head = x.tail ∧ (∀ w ∈ t.sweeps, w.queue ≠ q) ∧ (∀ r ∈ t.twine.rmas, r.queue ≠ q) ∧
       (∀ o ∈ t.ply.ops, o.queue ≠ q) ∧ (∀ w ∈ t.kernels, w.queue = q → w.waiting = []) ∧
       ∀ j, ∀ m ∈ (t.sk j).fq, m.queue ≠ q) ∧
     (x.st = .draining → x.descs = [] → x.closing = false → exec (.drainComplete q) s =
       .next (s.setQ q { x with st := if x.cfg.enable = true then .opened else .off })) ∧
     (x.st = .draining → x.descs = [] → x.closing = true → ∃ t, exec (.drainComplete q) s = .next t ∧
       (t.q q).st = .off ∧ (t.q q).la = 0 ∧ (t.q q).lc = 0 ∧ (t.q q).cfg = {})) ∧
  (∀ (q : Fin 4096) (raw : List Byte) (s : State), wantsAccept s q = true → acceptTurn s q = true → paused s q = false →
     headEntries s q = some raw → hdrSeq raw = (s.q q).la + 1 → journalUse s + raw.length / 64 ≤ 2097152 →
     ∃ t, exec (.acceptanceResume q) s = .next t ∧
       (s.q q).descs ++ [{ seq := hdrSeq raw, raw, dchk := crc32c raw }] <+: (t.q q).descs ∧
       (s.q q).head + raw.length / 64 ≤ (t.q q).head ∧ (s.q q).la + 1 ≤ (t.q q).la ∧ (t.q q).tail = (s.q q).tail)

/-- The mirror of a lost stack is rebuilt on another one (12 R341), with a fault record (18 R510).
The loss of a stack and the far tier (09 R243, R252, R253): a lost stack leaves the map and the interleave goes with
it until a rebuild over the stacks that survive; an expander whose link drops is unmapped, trains again, and maps again only
by an order, with unspecified contents. -/
def Obligations.StackLoss : Prop :=
  (∀ s : State, s.jrn.rebuilding = true → s.jrn.mirrorA ≠ s.jrn.mirrorB →
     (s.mem.stack.get s.jrn.mirrorA).lost = true → (s.mem.stack.get s.jrn.mirrorB).lost = false →
     (∃ k, k ≠ s.jrn.mirrorB ∧ (s.mem.stack.get k).up = true ∧ (s.mem.stack.get k).lost = false) →
     s.mgmt.faults.length < 256 →
     ∃ t, exec .mirrorRebuildComplete s = .next t ∧ t.jrn.rebuilding = false ∧ t.jrn.mirrorB = s.jrn.mirrorB ∧
       t.jrn.mirrorA ≠ t.jrn.mirrorB ∧ (s.mem.stack.get t.jrn.mirrorA).lost = false ∧
       t.mgmt.faults.length = s.mgmt.faults.length + 1) ∧
  (∀ (k : Fin 8) (i : Fin 2) (s : State),
     ((s.mem.stack.get k).up = true → (s.mem.stack.get k).lost = false → s.mem.migWait = [] → s.mem.heldCtrl = [] →
       ∃ t, exec (.stackLost k) s = .next t ∧ (t.mem.stack.get k).lost = true ∧ (t.mem.stack.get k).up = false ∧
         t.mem.il = [] ∧ t.mem.ilMib = 0 ∧ t.mem.memGen = s.mem.memGen + 1 ∧
         (∀ c, stackOf c = k → (t.mem.chan.get c).st = .mappedOut)) ∧
     (s.mem.mig = none → s.mem.il = [] → s.mgmt.phase = .full → (∃ j, (s.mem.stack.get j).lost = true) →
       let il := (List.finRange 8).filter fun j => (s.mem.stack.get j).up && !(s.mem.stack.get j).lost
       ∃ t, exec .rebuild s = .next t ∧ t.mem.il = il ∧ t.mem.memGen = s.mem.memGen + 1 ∧
         ∀ n, il ≠ [] → (∀ j ∈ il, (s.mem.stack.get j).channels = n) → t.mem.ilMib = il.length * (n * 1536)) ∧
     ((s.mem.far.get i).link ≠ .down → ∃ t, exec (.cxlLinkDrop i) s = .next t ∧
       (t.mem.far.get i).link = .down ∧ (t.mem.far.get i).mapped = false) ∧
     (∀ up, ∃ t, exec (.cxlRetrain i up) s = .next t ∧ t.mem.cells = s.mem.cells ∧
       t.mem.far.get i = (if (s.mem.far.get i).link = .down
         then { s.mem.far.get i with link := if up = true then .unmapped else .down } else s.mem.far.get i)) ∧
     ((s.mem.far.get i).link = .unmapped → ∃ t, exec (.farReenable i) s = .next t ∧ t.free = s.free + 1 ∧
       t.mem.far.get i = { s.mem.far.get i with link := .up, mapped := true, fresh := some s.free }))

/-- Updates of the translation tables (11 R296 to R300): one that passes its checks waits for its apply point and changes
no translation before it; the first failed check of R297 ends it; at the apply point the whole record list and the
generation of its stage take effect and the other stage stays; the oldest of a queue whose old translations no work holds
completes OK with its generation. -/
def Obligations.TableUpdates : Prop :=
  ∀ (q : Fin 4096) (s : State),
    (∀ d, mayDispatch s q 9 = some d →
      (s.trans.updates.any fun v => v.stage == (updateOf q d).stage && !v.applied) = false →
      (updateCheck s q d = none → ∃ t, exec (.tableUpdate q) s = .next t ∧ t.trans.s1 = s.trans.s1 ∧
        t.trans.s2 = s.trans.s2 ∧ t.trans.updates = s.trans.updates ++ [updateOf q d]) ∧
      (∀ st, updateCheck s q d = some st → ∃ t, exec (.tableUpdate q) s = .next t ∧ t.trans = s.trans ∧
        (descOf t q d.seq).map (·.st) = some (.finished st {} 0 0 (BitVec.ofNat 64 (updateOf q d).gen)))) ∧
    (∀ u, s.trans.updates.find? (fun u => u.queue = q ∧ u.applied = false) = some u → mayApply s u = true →
      s.serving = true →
      ∃ t, exec (.tableUpdateApply q) s = .next t ∧
        t.trans.s1 = (if u.stage = 1 then applyRecs s.trans.s1 u.recs else s.trans.s1) ∧
        t.trans.s2 = (if u.stage = 2 then applyRecs s.trans.s2 u.recs else s.trans.s2) ∧
        t.trans.gen1 = (if u.stage = 1 then BitVec.ofNat 64 u.gen else s.trans.gen1) ∧
        t.trans.gen2 = (if u.stage = 2 then BitVec.ofNat 64 u.gen else s.trans.gen2) ∧ t.mem = s.mem) ∧
    (∀ u, s.trans.updates.find? (fun u => u.queue = q ∧ u.applied = true ∧ !updateHeld s (u.queue, u.seq)) = some u →
      s.serving = true → (descOf s q u.seq).map (·.st) = some .running →
      ∃ t, exec (.tableUpdateComplete q) s = .next t ∧ t.trans.updates = s.trans.updates.filter (· != u) ∧
        (descOf t q u.seq).map (·.st) = some (.finished .ok {} 0 0 (BitVec.ofNat 64 u.gen)))

/-- The dispatch of optimiser, check and digest work (10 R268 to R270, R278, R279, R283): a block that passes its checks
admits one sweep, for an OPTIM under the decision of its own step; a decision of another step is stale.
The work of a sweep (10 R280, R282, R283, R285): a unit writes the new values of its elements and is counted once; the
end of an OPTIM sweep adjusts the bucket table and writes the block's fields back, the end of a CHECK or DIGEST that no
group compares writes its results, one of a DIGEST that a group compares waits there (15 R414); none of it goes on while
the sweep is held in the warm-up after a warm reset (18 R491; DESIGN CHOICE, log 166); a distaff takes its sweep up again after the migration has passed its stack. -/
def Obligations.Sweeps : Prop :=
  (∀ (q : Fin 4096) (d : Desc) (bsegs : List Seg) (w : Sweep) (c : Instr) (s : State),
     let ty := if c = .digest q then 5 else 4
     let b := readSegs s bsegs (word64 d.raw 0x10) 640
     (c = .adamw q ∧ blkAlgo b = 0 ∨ c = .lion q ∧ blkAlgo b = 1 ∨ c = .sgdWithMomentum q ∧ blkAlgo b = 2 ∨
       c = .check q ∧ blkAlgo b = 3 ∨ c = .digest q) →
     let kind : SweepKind := if c = .digest q then .digest else if c = .check q then .check else .optim
     let s1 := distTouch s bsegs (word64 d.raw 0x10) 640 false
     mayDispatch s q ty = some d → hdrClean d.raw = true → hdrNcont d.raw = 0 →
     zeros d.raw [(0x18, 32, 63), (0x20, 0, 63), (0x28, 0, 63), (0x30, 0, 63), (0x38, 0, 63)] = true →
     blockSegs s q d.raw false = some bsegs → segsPoisoned s bsegs (word64 d.raw 0x10) 640 = false →
     blockFormOk b kind = true → (kind = .optim → (blockSegs s1 q d.raw true).isSome = true) →
     sweepOf s1 q d b bsegs kind = some w →
     (kind ≠ .optim → ∃ t, exec c s = .next t ∧ t.sweeps = s.sweeps ++ [w] ∧ t.mem.cells = s.mem.cells) ∧
     (let n := 8 + (blkBuckets b + 7) / 8
      let dec := readSegs s1 w.decSegs (blkDecision b) n
      kind = .optim → segsPoisoned s1 w.decSegs (blkDecision b) n = false →
       (fieldAt dec 0 32 63 = fieldAt d.raw 0x18 0 31 → ∃ t, exec c s = .next t ∧ t.mem.cells = s.mem.cells ∧
         t.sweeps = s.sweeps ++ [{ w with
           skip := fieldAt dec 0 0 0 == 1, map := dec.drop 8
           flags := if fieldAt dec 0 0 0 = 1 then {} else (sweepPre b).flags }]) ∧
       (fieldAt dec 0 32 63 ≠ fieldAt d.raw 0x18 0 31 → ∃ t, exec c s = .next t ∧ t.sweeps = s.sweeps ∧
         t.mem.cells = s.mem.cells ∧ (descOf t q d.seq).map (·.st) = some (.finished .staleGeneration {} 0 0 0)))) ∧
  (∀ (q : Fin 4096) (k : Fin 8) (s : State),
     (∀ w g, s.sweeps = [w] → w.queue = q → w.kind = .optim → sweepHeld s w = false →
       w.parts.find? (fun g => g.stack = k ∧ g.open_ = true) = some g → distaffRuns s k = true →
       let n := min 1024 (g.count - g.done * 1024)
       let e := unitEntries w g (g.done * 1024) n
       let s0 := distTouch (serveDistaff s q k) w.tabSegs e.1 e.2 false
       let es := (List.range n).map fun i => elemWrites s0 w g (g.done * 1024 + i)
       let ws := unitWrites w g (g.done * 1024) n (es.flatMap (·.1))
       segsMapped (serveDistaff s q k) (g.segs ++ if w.skip then [] else w.tabSegs) = true →
       unitPoison s0 w g (g.done * 1024) n = none → (∀ x ∈ ws, firstPart s0 g.segs x.1 x.2.length = none) →
       ∃ t, exec (.sweepUnitDone q k) s = .next t ∧
         (∀ x, cellGet t.mem.cells x = cellGet (applyWrites s0 g.segs ws).1.mem.cells x) ∧
         (t.mem.stack.get k).distRedo = false ∧
         (t.mem.stack.get k).units = (s.mem.stack.get k).units + 1 ∧
         t.sweeps.map (·.parts) = [w.parts.map fun x => if x = g then { g with done := g.done + 1 } else x]) ∧
     (∀ w d, s.sweeps = [w] → w.queue = q → sweepHeld s w = false → descOf s q w.seq = some d → d.st = .running →
       w.parts.any (fun g => !g.lost && !distaffRuns s g.stack) = false → w.parts.any SweepSeg.open_ = false →
       w.bad = false → (∀ i, (s.sk i).bindWait = []) →
       segsMapped s (w.blockSeg ++ w.tabSegs ++ w.decSegs ++ w.resSegs ++ w.parts.flatMap (·.segs)) = true →
       let s0 := dropPlanes s w
       let segs := match w.kind with
         | .optim => w.tabSegs ++ w.blockSeg
         | .check => w.tabSegs ++ w.resSegs ++ w.decSegs
         | .digest => w.resSegs
       let ws := match w.kind with
         | .optim => joinWrites (endWrites s0 w) ++ blockWrites w (word64 d.raw 0x10)
         | .check => checkWrites s0 w ++
             [(blkDecision w.block, decisionBytes w.step.toNat (!(marked s0 w).isEmpty) (overflowMap s0 w))]
         | .digest => digestWrites s0 w
       let fl : Flags := match w.kind with
         | .optim => w.flags
         | .check => (sumSquares s0 w).2
         | .digest => {}
       (w.kind ≠ .optim → sweepPoison s0 w = none ∧ stepSlot s0 = none) →
       (w.kind = .optim → firstPoison s0 w.tabSegs (blkBtab w.block) (8 * blkBuckets w.block) = none) →
       (∀ x ∈ ws, firstPart s0 segs x.1 x.2.length = none) →
       ∃ t, exec (.sweepComplete q) s = .next t ∧ t.sweeps = [] ∧
         (∀ x, cellGet t.mem.cells x = cellGet (distWrites s0 segs ws).mem.cells x) ∧
         (descOf t q w.seq).map (·.st) = some (.finished .ok fl 0 0 0)) ∧
     (∀ w j, s.sweeps = [w] → w.queue = q → sweepHeld s w = false → w.kind = .digest → w.bad = false →
       w.parts.any (fun g => !g.lost && !distaffRuns s g.stack) = false → (∀ i, (s.sk i).bindWait = []) →
       segsMapped s w.allSegs = true → sweepPoison (dropPlanes s w) w = none → stepSlot s = some j →
       digestCompared s j w.step.toNat = true → (s.slot j).short = false →
       ∃ t o, exec (.sweepComplete q) s = .next t ∧ t.sweeps = [] ∧ t.mem.cells = s.mem.cells ∧
         t.ply.ops = s.ply.ops ++ [o] ∧ o.slot = j ∧ o.kind = .digest ∧ o.queue = q ∧ o.seq = w.seq ∧
         o.value = digestWrites (dropPlanes s w) w ∧ (t.slot j).freshDigest = false) ∧
     ((s.mem.stack.get k).distWait = true →
       (∀ w ∈ s.sweeps, ∀ g ∈ w.parts, g.stack = k → g.lost = false → migPassed s g.segs = true) →
       ∃ t, exec (.sweepRecovery k) s = .next t ∧ (t.mem.stack.get k).distWait = false ∧ t.sweeps = s.sweeps ∧
         ((t.mem.stack.get k).distRedo = true ↔ ∃ w ∈ s.sweeps, w.kind = .optim ∧ ∃ g ∈ w.parts, g.stack = k ∧
           g.open_ = true)))

/-- The skein map (01 R21, R22, R25, R35): a spindle that fails, or leaves at the kernel boundary, gives its logical ID to
the spare; one that joins takes the lowest absent ID; the generation counts each change. The kernel a failed spindle ran is
replayed if it may be and ends with FAULTED and its flags otherwise (in a queue that does not drain). A failed flyer takes no further move. A link retry is counted. -/
def Obligations.PartFaults : Prop :=
  ∀ (p : Fin 136) (k : Fin 8) (f : Fin 4) (s : State),
    (let k := skeinOf p
     let l := localOf p
     let x := s.sk k
     x.healthy.getLsbD l.val = true → (∀ j, (s.sk j).changes = []) →
      ∃ t, exec (.spindleFail p) s = .next t ∧ (t.sk k).healthy = x.healthy &&& ~~~(1#17 <<< l.val) ∧
        (t.sk k).mapGen = x.mapGen + 1 ∧
        (x.spare = localIx l → (t.sk k).phys = x.phys ∧ (t.sk k).spare = noLocal) ∧
        (∀ i, x.spare ≠ localIx l → x.logicalAt l = some i →
          (t.sk k).phys = upd x.phys i x.spare ∧ (t.sk k).spare = noLocal) ∧
        (∀ h d, (s.sp p).share = some h → descOf s h.queue h.seq = some d → d.st = .running →
          (s.q h.queue).st ≠ .draining →
          (descOf t h.queue h.seq).map (fun d => (d.st, d.replayed)) =
            some (if hdrReplay d.raw = true then (.accepted, true)
              else (.finished .faulted (kernelFlags s h.queue h.seq) 0 0 0, d.replayed)))) ∧
    (((s.sk k).fly.get f).failed = false → ∃ t, exec (.flyerFail k f) s = .next t ∧
      ((t.sk k).fly.get f).failed = true ∧ ((t.sk k).fly.get f).move = none) ∧
    exec .d2dLinkRetry s = .next { s with mgmt := { s.mgmt with d2d := s.mgmt.d2d + 1 } } ∧
    ((∀ c ∈ (s.sk k).changes, changeDue s k c = false) → exec (.mapChangeApply k) s = .next s) ∧
    (∀ c, (s.sk k).changes = [c] → changeDue s k c = true → s.mgmt.clockLost = false →
      ∃ t, exec (.mapChangeApply k) s = .next t ∧ (t.sk k).changes = [] ∧ (t.sk k).mapGen = (s.sk k).mapGen + 1 ∧
        (∀ l, c = .join l → (t.sk k).healthy = (s.sk k).healthy ||| (1#17 <<< l.val) ∧
          (∀ i, (s.sk k).absent = some i → (t.sk k).phys = upd (s.sk k).phys i (localIx l)) ∧
          ((s.sk k).absent = none → (t.sk k).spare = localIx l)) ∧
        (∀ l, c = .leave l → (t.sk k).healthy = (s.sk k).healthy &&& ~~~(1#17 <<< l.val)))

/-- Errors of memory channels (09 R236 to R238, 10 R265): a scrub counts corrected errors and poisons the bursts it cannot
correct, in the far tier and the creel too (DEDUCED, log 144); a channel that faults, a distaff that fails or an order
maps its channel out, one migration at a time; one that comes back and has not joined stays out with the cause (DESIGN
CHOICE, log 170).
Limits of memory errors, creel quotas and the KEEP limit of a reel cache (09 R256, R247; 08 R227): a commit whose
staged words break no rule puts them into effect, one that breaks a rule changes no limit; for the quotas a GO with nothing
staged is such a commit (DEDUCED, log 111). -/
def Obligations.MemoryErrors : Prop :=
  (∀ (c : Fin 256) (s : State),
     (∀ ces ues, (s.mem.chan.get c).st = .inService → s.mgmt.clockLost = false →
       let keys := ues.filterMap fun a => locKey (physLoc s.mem a)
       let mine := keys.filter fun key => keyChan s.mem key == some c
       let far := keys.filter fun key => decide (0x100000000000 ≤ key)
       ∃ t, exec (.patrolScrub c ces ues) s = .next t ∧
         (t.mem.chan.get c).ce = min 0xFFFFFF ((s.mem.chan.get c).ce + ces) ∧
         (t.mem.chan.get c).ue = min 0xFFFF ((s.mem.chan.get c).ue + mine.length) ∧ t.mem.cells = s.mem.cells ∧
         ((∀ k, (s.sk k).bindings = []) →
           ∀ b, b ∈ t.mem.poison ↔ b ∈ s.mem.poison ∨ ∃ key ∈ mine ++ far, key / 32 = b)) ∧
     (mayLeave s c = true → comesBack s c = true →
       ∀ x cause, (x = .channelFault c ∧ cause = faultCause s.mem (s.now / 1000) (s.mem.chan.get c) ∨
           x = .distaffFail c ∧ cause = 4 ∧ (s.mem.stack.get (stackOf c)).distFailed.getLsbD (c.val % 32) = false) →
         ∃ t, exec x s = .next t ∧ (t.mem.chan.get c).st = .mappedOut ∧ (t.mem.chan.get c).cause = cause ∧
           t.mem.mig = s.mem.mig ∧ ∀ g ∈ t.mem.migWait, g.chan ≠ c) ∧
     (mayLeave s c = true → comesBack s c = false →
       (∀ x cause, (x = .channelFault c ∧ cause = faultCause s.mem (s.now / 1000) (s.mem.chan.get c) ∨
           x = .distaffFail c ∧ cause = 4 ∧ (s.mem.stack.get (stackOf c)).distFailed.getLsbD (c.val % 32) = false) →
         ∃ t, exec x s = .next t ∧
           (s.mem.mig = none → t.mem.mig = some ⟨c, false, cause⟩ ∧ (t.mem.chan.get c).st = .draining) ∧
           (s.mem.mig ≠ none → t.mem.mig = s.mem.mig ∧ t.mem.migWait = s.mem.migWait ++ [⟨c, false, cause⟩])) ∧
       (s.mem.mig = none → ∃ t, exec (.mapOut c) s = .next t ∧ t.mem.mig = some ⟨c, false, 5⟩ ∧
         (t.mem.chan.get c).st = .draining ∧ t.mem.cells = s.mem.cells ∧
         (s.mgmt.faults.length < 256 → t.mgmt.faults.length = s.mgmt.faults.length + 1))) ∧
     (s.mem.mig ≠ none → exec (.mapOut c) s = .next { s with mem :=
       { s.mem with heldCtrl := s.mem.heldCtrl ++ [BitVec.ofNat 64 (c.val + 0x100)] } })) ∧
  (∀ (k : Fin 8) (w : Fin 16) (s : State),
     (s.mem.limSt ≠ [] →
       let v := (stagedOr s.mem.limSt 0x2080 (BitVec.ofNat 64
         (fld s.mem.ceLimit 0 16 + fld s.mem.ceWindow 16 16 + fld s.mem.ueLimit 32 8))).toNat
       let good := bitsOf v 0 16 ≠ 0 ∧ bitsOf v 16 16 ≠ 0 ∧ bitsOf v 32 8 ≠ 0
       (good → exec .memErrCommit s = .next { s with mem := { s.mem with
         limSt := [], limRes := .ok, ceLimit := bitsOf v 0 16, ceWindow := bitsOf v 16 16, ueLimit := bitsOf v 32 8 } }) ∧
       (¬ good → exec .memErrCommit s = .next { s with mem := { s.mem with limSt := [], limRes := .refused } })) ∧
     (let good := ∀ q, (s.q q).quota.1 ≤ 256 ∧ (s.q q).quota.2 ≤ 224 ∧ (s.q q).quota.2 ≤ (s.q q).quota.1
      ∃ t, exec .creelQuotaCommit s = .next t ∧ (∀ q, (t.q q).quotaSt = none ∧ (t.q q).cfg = (s.q q).cfg) ∧
       (good → t.quotaRes = .ok ∧ ∀ q, (t.q q).leas = (s.q q).quota.1 ∧ (t.q q).pin = (s.q q).quota.2) ∧
       (¬ good → t.quotaRes = .refused ∧ ∀ q, (t.q q).leas = (s.q q).leas ∧ (t.q q).pin = (s.q q).pin)) ∧
     (∃ t, exec (.keepWaysWrite k w) s = .next t ∧ (t.mem.reel.get k).keepWays = w ∧ t.mem.cells = s.mem.cells))

/-- A re-interleave (09 R238 to R242): a granule at a time, the bursts of it that cannot be read poisoned; at its end a
channel that left shrinks its stack and the interleave and one that joined is in service; a restored channel that joins
raises the sizes at once. When in these the sizes, `IL_SIZE` and `MEM_GEN` change is the model's reading (log 102). -/
def Obligations.Migrations : Prop :=
  ∀ (c : Fin 256) (ues : List Nat) (s : State),
    let k := stackOf c
    let size (n : Nat) := s.mem.il.length * n * 1536
    (∀ g, s.mem.mig = some g → s.serving = true → (s.mem.stack.get (stackOf g.chan)).up = true → (s.mem.stack.get (stackOf g.chan)).granule < granulesAfter s.mem g →
      ∃ t, exec (.migrationGranuleCopy ues) s = .next t ∧ t.mem.mig = some g ∧
        (t.mem.stack.get (stackOf g.chan)).granule = (s.mem.stack.get (stackOf g.chan)).granule + 1 ∧
        t.mem.cells = s.mem.cells ∧
        (∀ i b, i ∈ ues → i < 128 → burstAt s.mem (aliasBase (stackOf g.chan).val +
            (s.mem.stack.get (stackOf g.chan)).granule * 4096 + 32 * i) = some b → b ∈ t.mem.poison)) ∧
    (s.mem.migWait = [] → s.mem.heldCtrl = [] → s.serving = true →
      (∀ cause, s.mem.mig = some ⟨c, false, cause⟩ → 1 ≤ (s.mem.stack.get k).channels →
        ∃ t, exec .migrationEnd s = .next t ∧ t.mem.mig = none ∧ (t.mem.chan.get c).st = .mappedOut ∧
          (t.mem.stack.get k).channels + 1 = (s.mem.stack.get k).channels ∧ t.mem.memGen = s.mem.memGen + 1 ∧
          ((∀ j ∈ s.mem.il, j = k ∨ (s.mem.stack.get k).channels ≤ (s.mem.stack.get j).channels) → k ∈ s.mem.il →
            t.mem.ilMib = size ((s.mem.stack.get k).channels - 1))) ∧
      (∀ cause, s.mem.mig = some ⟨c, true, cause⟩ → ∃ t, exec .migrationEnd s = .next t ∧ t.mem.mig = none ∧
        (t.mem.chan.get c).st = .inService ∧ t.mem.ilMib = s.mem.ilMib ∧ t.mem.cells = s.mem.cells)) ∧
    ((s.mem.chan.get c).st = .restoring → s.mem.mig = none → s.mem.migWait = [] →
      (s.mgmt.unit.busy = false ∨ s.mgmt.unit.runUnit ≠ 3 ∨ s.mgmt.unit.runIndex ≠ c.val) → (s.mem.stack.get k).lost = false →
      ∃ t, exec (.channelRestoreJoin c) s = .next t ∧ t.mem.mig = some ⟨c, true, 0⟩ ∧
        (t.mem.stack.get k).channels = (s.mem.stack.get k).channels + 1 ∧ t.mem.memGen = s.mem.memGen + 1)

/-- Collectives (15 R399, R406, R407, R410): each of the seven forms, on a READY or forming group of its own queue's owner,
passes its checks and waits in the slot's order; a group no enabled slot holds, or of another owner, is REFUSED.
The rounds of a READY group (15 R406, R408, R410, R412 to R414): agreeing signatures begin the data phase or complete a
barrier, a checkpoint barrier setting every member's epoch to the master's and 1; a signature of another step is stale; each chunk acknowledged is applied
once and in order; a skip decision and a digest comparison in which all agree write what they held back. That the device's
own copy is written at completion is the model's choice (log 108). -/
def Obligations.Collectives : Prop :=
  (∀ (q : Fin 4096) (d : Desc) (c : Instr) (s : State), mayDispatch s q 3 = some d → collFormOk d.raw = true →
     let b := collBody d.raw
     (c = .allReduce q ∧ b.cop = 0 ∧ b.count ≠ 0 ∨ c = .reduceScatter q ∧ b.cop = 1 ∨ c = .allGather q ∧ b.cop = 2 ∨
       c = .broadcast q ∧ b.cop = 3 ∧ b.count ≠ 0 ∨ c = .allToAll q ∧ b.cop = 4 ∨ c = .barrier q ∧ b.cop = 0 ∧ b.count = 0 ∨
       c = .checkpointBarrier q ∧ b.cop = 3 ∧ b.count = 0) →
     let refused (t : State) : Prop := t.ply = s.ply ∧ t.mem = s.mem ∧
       (descOf t q d.seq).map (·.st) = some (.finished .refused {} 0 0 0)
     (slotOf s b.group = none → ∃ t, exec c s = .next t ∧ refused t) ∧
     (∀ k, slotOf s b.group = some k → groupOwned s (s.slot k) (queueOwner q) = false → ∃ t, exec c s = .next t ∧ refused t) ∧
     (∀ k o, slotOf s b.group = some k → groupOwned s (s.slot k) (queueOwner q) = true →
       collCheck (s.slot k).cfg b = none → collOp s q d.seq k b = some o → collTurn s q k b.group = true →
       (s.slot k).st = .forming ∨ (s.slot k).st = .ready →
       ∃ t, exec c s = .next t ∧ t.ply.ops = s.ply.ops ++ [o] ∧ t.mem.cells = s.mem.cells ∧ o.slot = k ∧
         o.kind = .collective b.cop ∧ o.step = b.step ∧ o.count = b.count)) ∧
  (∀ (k : Fin 8) (o : GOp) (s : State), headOp s k = some o → (s.slot k).st = .ready → s.worksFor o.queue = true →
     (descOf s o.queue o.seq).map (·.st) = some .running →
     let others := (s.slot k).others
     let ends (t : State) (st : Status) : Prop := (descOf t o.queue o.seq).map (·.st) =
       some (.finished st o.flags 0 0 0)
     (∀ (cop : Nat) (parts : List SigPart), o.kind = .collective cop → o.data = false →
       (∀ i ∈ others, ∃ p ∈ parts, p.member.val = i) →
       ((∀ p ∈ parts, p.member.val ∈ others → p.step = o.step ∧ p.crc = o.crc ∧ sigSame p o cop = true) →
         ∃ t, exec (.signatureRoundComplete k parts) s = .next t ∧ (t.slot k).match_ = (s.slot k).match_ + 1 ∧
           (o.count = 0 → ends t .ok ∧ (t.slot k).epoch =
             (if cop = 3 then nextEpoch (s.slot k) (parts.filter fun p => others.contains p.member.val)
               else (s.slot k).epoch)) ∧
           (let plan := planOf (s.slot k).cfg cop o.alg o.root o.src o.dst (collBytes o.fmt o.count)
            let n := (collBufs (s.slot k).cfg { src := o.src, dst := o.dst, count := o.count, fmt := o.fmt, cop, alg := o.alg
                                                root := o.root, group := 0, step := 0, btab := 0 }).1.2.1
            o.count ≠ 0 → plan ≠ [] → opMapped s o = true → opReadable s o n = true → headOp t k = some { o with data := true, plan })) ∧
       ((∃ p ∈ parts, p.member.val ∈ others ∧ p.step ≠ o.step) →
         ∃ t, exec (.signatureRoundComplete k parts) s = .next t ∧ ends t .staleGeneration ∧ t.mem = s.mem)) ∧
     (∀ cop x rest data s' f, o.kind = .collective cop → o.plan = x :: rest →
       opMapped s o = true → xferWaits s o x = false → runXfer s o x data = some (s', true, f) →
       ∃ t, exec (.collectiveChunkAcked k data) s = .next t ∧
         (rest ≠ [] → headOp t k = some { o with plan := rest, flags := o.flags.or f } ∧ t.mem = s'.mem) ∧
         (rest = [] → (∃ st fl, (descOf t o.queue o.seq).map (·.st) = some (.finished st fl 0 0 0)) ∧
           ∀ a b n, ownCopy (s.slot k).cfg cop o.alg o.root o.src o.dst (collBytes o.fmt o.count) = some (a, b, n) →
             let u := setOp s' o { o with plan := [], flags := o.flags.or f }
             let v := (pieces o.dstSegs b n).foldl (fun s y => reelTouch s y.1 y.2.2 .stream true)
               (touchSegs u o.srcSegs a n false)
             segsPoisoned u o.srcSegs a n = false → ∀ y, cellGet t.mem.cells y =
               cellGet (writeSegs (poisonRecord v (firstPart v o.dstSegs b n) o.queue.val 3) o.dstSegs b
                 (readSegs u o.srcSegs a n)).1.mem.cells y)) ∧
     (∀ parts : List SkipPart, o.kind = .check → (∀ i ∈ others, ∃ p ∈ parts, p.member.val = i) →
       (∀ p ∈ parts, p.member.val ∈ others → p.step = o.step ∧ p.nb = o.nb) →
       let ps := parts.filter fun p => others.contains p.member.val
       let map := (ps.foldl (fun m p => orBytes m p.map) o.body).take o.body.length
       let segs := o.resSegs ++ o.decSegs
       let ws := o.value ++ [(o.decBase, decisionBytes o.step (o.skip || ps.any (·.skip)) map)]
       opMapped s o = true → (∀ w ∈ ws, firstPart s segs w.1 w.2.length = none) →
       ∃ t, exec (.skipDecision k parts) s = .next t ∧ ends t .ok ∧
         ∀ x, cellGet t.mem.cells x = cellGet (distWrites (matched s k o) segs ws).mem.cells x) ∧
     (∀ parts : List DigestPart, o.kind = .digest → (∀ i ∈ others, ∃ p ∈ parts, p.member.val = i) →
       (∀ p ∈ parts, p.member.val ∈ others → p.shard = (s.slot k).cfg.shard →
         p.mask = o.mask ∧ p.planes = o.planes ∧ p.entries = o.body) →
       (∀ p ∈ parts, ∀ r ∈ parts, p.shard = r.shard → digestSame p r = true) →
       let segs := o.resSegs ++ o.decSegs
       opMapped s o = true → (∀ w ∈ o.value, firstPart s segs w.1 w.2.length = none) →
       ∃ t, exec (.digestComparison k parts) s = .next t ∧ ends t .ok ∧ t.mgmt = s.mgmt ∧
         ∀ x, cellGet t.mem.cells x = cellGet (distWrites (matched s k o) segs o.value).mem.cells x))

/-- Group slots and peers (15 R401 to R403, R425, R426; 00 R14): a commit that breaks no rule puts the staged words into
effect, a GEN that is not newer is stale (what was staged goes with it: DEDUCED, log 111), one that breaks a rule is REFUSED; a group whose members agree is READY; one that
loses a member is DEGRADED and its operations end; a spare of the same epoch is admitted (that the group stays DEGRADED
while another member is FAILED is the model's choice, log 157).
LAG and PACE (15 R420 to R423): a device below the pace in effect reports it once, with its duration (the model's choice
where the spec gives none, log 149), and reports when it recovers; CANCEL_PACE
ends any pace in effect on the device, and a pace whose duration ends leaves no cap of its slot. -/
def Obligations.Groups : Prop :=
  (∀ (k : Fin 8) (m : Fin 64) (s : State),
     let x := s.slot k
     let c := plyCfgOf fun off => stagedOr x.staged off (x.cfg.word off)
     (x.staged ≠ [] →
       (c.gen ≤ x.cfg.gen →
         exec (.plyCommit k) s = .next (s.setSlot k { x with staged := [], result := .staleGeneration })) ∧
       (x.cfg.gen < c.gen → plyOk s k c = false →
         exec (.plyCommit k) s = .next (s.setSlot k { x with staged := [], result := .refused })) ∧
       (x.cfg.gen < c.gen → plyOk s k c = true → ∃ t, exec (.plyCommit k) s = .next t ∧ (t.slot k).cfg = c ∧
         (t.slot k).staged = [] ∧ (t.slot k).result = .ok ∧ (t.slot k).st = plyAfter x c)) ∧
     (s.ply.peerSt ≠ [] → ∃ t, exec .peerCommit s = .next t ∧ t.ply.peerSt = [] ∧
       (peersOk s = true → t.ply.peerRes = .ok ∧ ∀ e, (t.peer e).strand.val = stagedPeer s e) ∧
       (peersOk s = false → t.ply.peerRes = .refused ∧ t.ply.peers = s.ply.peers)) ∧
     (∀ parts : List GroupPart, x.st = .forming →
       (∀ i ∈ x.others, ∃ n, memberStrand s x i = some n ∧ (s.strand n).st = .opened) →
       (∀ i ∈ x.others, ∃ g ∈ parts, g.member.val = i) →
       (∀ g ∈ parts, g.member.val ∈ x.others → partAgrees g x.cfg = true) →
       exec (.groupReady k parts) s = .next (s.setSlot k { x with st := .ready, match_ := 0 })) ∧
     (x.cfg.enable = true → m.val ≠ x.cfg.index → x.here m.val = true →
       ∀ i ∈ [Instr.memberFail k m, Instr.plyFail k m], ∃ t, exec i s = .next t ∧ (t.slot k).st = .degraded ∧
         (t.slot k).failed = x.failed ||| (1#64 <<< m.val) ∧ (t.slot k).pacing = false ∧
         (∀ o ∈ t.ply.ops, o.slot ≠ k ∧ o ∈ s.ply.ops) ∧
         ∀ o ∈ s.ply.ops, o.slot = k → (∀ u ∈ s.ply.ops, u.queue = o.queue → u.seq = o.seq → u = o) →
           (descOf s o.queue o.seq).map (·.st) = some .running →
           (descOf t o.queue o.seq).map (·.st) = some (.finished .pathLost o.flags 0 0 0)) ∧
     (∀ e step : BitVec 32, x.st = .adopting →
       (if x.spare = true then BitVec.ofNat 32 x.cfg.adoptEpoch else x.epoch) = e →
       let failed := x.failed &&& ~~~x.adopted
       exec (.adoptionAdmit k ⟨e, step⟩) s = .next (s.setSlot k { x with
         st := if failed = 0 then .ready else .degraded, failed, adopted := 0, match_ := 0, epoch := e, freshDigest := true
         epochStep := if x.spare = true then step.toNat else x.epochStep, spare := false }))) ∧
  (∀ (k : Fin 8) (s : State),
     let x := s.slot k
     (∀ (dur : BitVec 16) (rec : Bool), x.cfg.enable = true →
       (rec = false → x.lagSent = none → ownRate s < devPace s →
         ∃ t, exec (.lagTrigger k dur rec) s = .next t ∧ (t.slot k).lagSent = some (ownRate s) ∧
           (x.mine = true →
             (⟨x.cfg.index, ownRate s, lagDur s (lagCause s) dur.toNat⟩ : Lag) ∈ (t.slot k).lags)) ∧
       (rec = true → x.lagSent ≠ none → devPace s ≤ ownRate s →
         ∃ t, exec (.lagTrigger k dur rec) s = .next t ∧ (t.slot k).lagSent = none)) ∧
     (∃ t, exec (.cancelPace k) s = .next t ∧ (∀ j, (t.slot j).pacing = false ∧ (t.slot j).pacePm = 1000) ∧
       ∀ j, (t.sk j).paceDiv = 6) ∧
     (x.pacing = true → x.paceDur ≠ 0 → ∃ t, exec (.paceExpiry k) s = .next t ∧ (t.slot k).pacing = false ∧
       (t.slot k).pacePm = 1000 ∧ (∀ j, j ≠ k → t.slot j = s.slot j) ∧
       ((∀ j, j ≠ k → (s.slot j).pacing = false) → ∀ j, (t.sk j).paceDiv = 6)))

/-- The dispatch of RMA work (14 R381, 12 R322): each form on a strand of its queue's owner captures its ranges and queues
its frames on the strand; a strand of another owner is REFUSED, a CLOSED or LOST one answers PATH_LOST.
The Twine group (14 R395): a commit whose words are in range puts them into effect as a whole. -/
def Obligations.RmaDispatch : Prop :=
  (∀ (q : Fin 4096) (d : Desc) (c : Instr) (s : State), mayDispatch s q 2 = some d → rmaFormOk d.raw = true →
     (c = .rmaWrite q ∧ rmaRop d.raw = 0 ∨ c = .rmaWriteFlagged q ∧ rmaRop d.raw = 1 ∨ c = .rmaRead q ∧ rmaRop d.raw = 2 ∨
       c = .rmaAtomicAdd q ∧ rmaRop d.raw = 3) →
     let n : Fin 2048 := ⟨fieldAt d.raw 0x20 32 42 % 2048, Nat.mod_lt _ (by omega)⟩
     let ends (t : State) (st : Status) : Prop := t.twine = s.twine ∧ t.mem.cells = s.mem.cells ∧
       (descOf t q d.seq).map (·.st) = some (.finished st {} 0 0 0)
     (strandOwned s q n = false → ∃ t, exec c s = .next t ∧ ends t .refused) ∧
     (strandOwned s q n = true →
       (rmaBody s q d n = none → ∃ t, exec c s = .next t ∧ ends t .access) ∧
       ∀ r, rmaBody s q d n = some r →
         ((s.strand n).st = .closed ∨ (s.strand n).st = .lost → ∃ t, exec c s = .next t ∧ ends t .pathLost) ∧
         ((s.strand n).st ≠ .closed → (s.strand n).st ≠ .lost → r.d ≠ 0 → ∃ t, exec c s = .next t ∧
           t.twine.rmas = s.twine.rmas ++ [r] ∧ t.mem.cells = s.mem.cells ∧
           (t.strand n).txq = (s.strand n).txq ++ (List.range r.frames).map fun i => .rma q d.seq i))) ∧
  (∀ s : State,
     let w (off : Nat) : Nat := (stagedOr s.twine.staged off (s.twine.word off)).toNat
     let c := w 0x8000
     let g (i : Fin 8) : GroupAddr :=
       { v4 := bitsOf (w (0x8100 + i.val * 0x20)) 0 32, v4en := bitsOf (w (0x8100 + i.val * 0x20)) 32 1 == 1
         v6en := bitsOf (w (0x8100 + i.val * 0x20)) 33 1 == 1
         v6 := w (0x8100 + i.val * 0x20 + 8) * 2 ^ 64 + w (0x8100 + i.val * 0x20 + 0x10) }
     let good : Prop := 1024 ≤ bitsOf c 0 16 ∧ 1 ≤ bitsOf c 16 10 ∧ bitsOf c 16 10 ≤ 1000 ∧ 100 ≤ bitsOf c 32 16 ∧
       bitsOf c 32 16 ≤ 60000 ∧ 1 ≤ bitsOf c 48 8 ∧ 10 ≤ bitsOf c 56 8 ∧
       ∀ i, ((g i).v4en = true → v4Ok (g i).v4 = true) ∧ ((g i).v6en = true → v6Ok (g i).v6 = true) ∧
         ∀ j, j ≠ i → ¬((g i).v4en = true ∧ (g j).v4en = true ∧ (g i).v4 = (g j).v4) ∧
           ¬((g i).v6en = true ∧ (g j).v6en = true ∧ (g i).v6 = (g j).v6)
     s.twine.staged ≠ [] → ∃ t, exec .twineCommit s = .next t ∧ t.twine.staged = [] ∧
       t.twine.strands = s.twine.strands ∧
       (good → t.twine.result = .ok ∧ t.twine.udp = bitsOf c 0 16 ∧ t.twine.target = bitsOf c 16 10 ∧
         t.twine.pathLost = bitsOf c 32 16 ∧ t.twine.warmHold = bitsOf c 48 8 ∧ t.twine.rtoInit = bitsOf c 56 8 ∧
         ∀ i, t.twine.groups.get i = g i) ∧
       (¬ good → t.twine.result = .refused ∧ t.twine.udp = s.twine.udp ∧ t.twine.groups = s.twine.groups))

/-- Strands (14 R376, R377, R393, R394): a commit that breaks no rule opens an enabled strand under the next epoch, one
that breaks a rule is REFUSED; a closed or lost strand carries nothing; a LOST strand with a joined port opens again; a hold
ends in time; a port's HELLO goes to all, an opening's to its peer, under rising counts (14 R378), and waits for the end of a
pause of control frames (that a HELLO is one is the model's choice, log 147); the answer to an opening opens the strand, or
leaves it STALLED where its group has no joined port. Only a HELLO to the port's group that finds room is taken. -/
def Obligations.StrandLife : Prop :=
  ∀ (n : Fin 2048) (p : Fin 32) (m : HelloMsg) (s : State),
    let x := s.strand n
    (x.staged ≠ [] → (strandOk s n x.stagedCfg = true → ∃ t, exec (.strandCommit n) s = .next t ∧
        (t.strand n).cfg = x.stagedCfg ∧ (t.strand n).staged = [] ∧ (t.strand n).result = .ok ∧
        (x.stagedCfg.enable = true → (t.strand n).st = .opening ∧ (t.strand n).epoch = x.epoch + 1 ∧
          (t.strand n).nextPsn = 1 ∧ (t.strand n).rxC = 0)) ∧
      (strandOk s n x.stagedCfg = false →
        exec (.strandCommit n) s = .next (s.setStrand n { x with staged := [], result := .refused }))) ∧
    (x.st ≠ .closed → ∃ t, exec (.strandClose n) s = .next t ∧ (t.strand n).st = .closed ∧ (t.strand n).txq = [] ∧
      (∀ r ∈ t.twine.rmas, r.strand ≠ n)) ∧
    (x.st = .stalled → x.hold = false → ∃ t, exec (.pathLostExpiry n) s = .next t ∧ (t.strand n).st = .lost ∧
      (t.strand n).txq = [] ∧ (∀ r ∈ t.twine.rmas, r.strand ≠ n)) ∧
    (x.hold = true → ∃ t, exec (.warmHoldExpiry n) s = .next t ∧ (t.strand n).hold = false ∧
      (t.strand n).st = if x.st = .stalled then .lost else x.st) ∧
    (x.st = .lost → joinedPorts s x.cfg.group ≠ [] → ∃ t, exec (.openingHelloTimer n) s = .next t ∧
      (t.strand n).st = .opening ∧ (t.strand n).epoch = x.epoch + 1 ∧
      (portsServe s = true → groupLive s x.cfg.group = true → t.twine.helloCnt = s.twine.helloCnt + 1)) ∧
    (x.st = .opening → joinedPorts s x.cfg.group ≠ [] → portsServe s = true →
      groupLive s (s.port x.port).cfg.group = true → ∃ t h, exec (.openingHelloTimer n) s = .next t ∧
        hellosSent s t x.port [h] ∧ h.opens = true ∧ h.reply = false ∧ h.src = n ∧ h.epoch = x.epoch ∧
        h.dest = x.cfg.ip ∧ h.dport = BitVec.ofNat 16 x.cfg.udp) ∧
    ((s.port p).joined = true → portsServe s = true → groupLive s (s.port p).cfg.group = true → ∃ t hs,
      exec (.helloTimer p) s = .next t ∧ hellosSent s t p hs ∧ hs.map (·.dest) = toAll s p ∧
      ∀ h ∈ hs, h.opens = false ∧ h.pending = false ∧ h.dport = BitVec.ofNat 16 s.twine.udp) ∧
    (helloHere s p m = true → freshHello s m = true →
      (noRoom s p ((if isV6 m.dest = true then 114 else 94) + 48) = true → exec (.hello p m) s =
        .next (s.setPort p { s.port p with rxDrop := satAdd 16 (s.port p).rxDrop })) ∧
      (noRoom s p ((if isV6 m.dest = true then 114 else 94) + 48) = false → x.session = false → x.cfg.enable = true →
        n.val ≠ 0 → m.dst = n → x.cfg.peerStrand = m.src.val → x.cfg.ip = m.ip →
        x.peerNonce = none ∨ x.peerNonce = some m.nonce →
        (m.opens = true → m.reply = true → x.st = .opening → m.epoch = x.epoch → ∃ t, exec (.hello p m) s = .next t ∧
          (t.strand n).st = (if joinedPorts s x.cfg.group = [] then .stalled else .opened) ∧
          (t.strand n).peerId = m.fuse.toNat ∧ (t.strand n).peerNonce = some m.nonce) ∧
        (m.opens = false → x.leadsTo m = true → ∃ t, exec (.hello p m) s = .next t ∧
          (t.strand n).hold = m.pending ∧ (t.port p).twine = true))) ∧
    (helloHere s p m = false ∨ freshHello s m = false → exec (.hello p m) s = .next s)

/-- What a strand sends (14 R379, R386, R387, R390): a frame to be sent again goes with its own PSN, the oldest alone from a
STALLED strand, else the head of the queue under the next PSN where the window has room; a timeout marks every
unacknowledged frame of a strand that stays OPEN, the oldest of one that stalls, and drops the window to one MTU; applied
frames are acknowledged in time, where no pause holds control frames back (that an ACK is one is the model's choice, log
147); an ACK removes what it covers. Each frame carries the 32 bytes of its header (14 R372), the addresses and ports of its
datagram (14 R370) and the ICV of both under the strand's key. -/
def Obligations.StrandSending : Prop :=
  ∀ (n : Fin 2048) (p : Fin 32) (s : State),
    let x := s.strand n
    let y := x.sendable s
    let s' := s.setStrand n y
    (canSend s x = true → mgmtOnly s = false → x.st = .opened ∨ x.st = .stalled →
      (∀ f fs, x.repeats = f :: fs →
        let hdr := frameHdr s n f.psn.toNat true f.head f.data.length
        ∃ t, exec (.frameTransmit n) s = .next t ∧
          t.out = .frame x.port n f.psn true f.msg f.data hdr (sealed_ s n false hdr f.data) :: s.out ∧
          t.twine.retx = satAdd 24 s.twine.retx ∧ (t.strand n).unacked.length = x.unacked.length) ∧
      (x.st = .opened → x.repeats = [] → x.unacked.length < 1024 →
        (∀ q seq i rest r data, y.txq = .rma q seq i :: rest → mayFrame s (.rma q seq i) = true →
          rmaOf s q seq = some r → keyWaits s r = false →
          rmaData (if r.rop = 2 then s' else touchSegs s' r.segs (r.base + i * r.d) (r.size i) false) r i = .ok data →
          x.flight + overhead s x + data.length ≤ x.window →
          let hdr := frameHdr s n x.nextPsn.toNat false (msgHead s (.rma q seq i)) data.length
          ∃ t, exec (.frameTransmit n) s = .next t ∧
            t.out = .frame x.port n x.nextPsn false (.rma q seq i) data hdr (sealed_ s n false hdr data) :: s.out ∧
            (t.strand n).txq = rest ∧
            (t.strand n).nextPsn = x.nextPsn + 1 ∧ (t.strand n).unacked.length = x.unacked.length + 1) ∧
        (∀ kind q res body rest, y.txq = .notify kind q res body :: rest →
          let data := msgData (.notify kind q res body)
          let hdr := frameHdr s n x.nextPsn.toNat false { type := 0x13 } data.length
          x.flight + overhead s x + data.length ≤ x.window → ∃ t, exec (.frameTransmit n) s = .next t ∧
            t.out = .frame x.port n x.nextPsn false (.notify kind q res body) data hdr (sealed_ s n false hdr data) :: s.out ∧
            (t.strand n).txq = rest ∧ (t.strand n).nextPsn = x.nextPsn + 1))) ∧
    (x.unacked ≠ [] → x.st = .opened → ∃ t, exec (.retransmitTimeout n) s = .next t ∧
      (t.strand n).st = (if (t.strand n).usable (joinedPorts s x.cfg.group) = true then .opened else .stalled) ∧
      ((t.strand n).st = .opened → ∀ f ∈ (t.strand n).unacked, f.again = true) ∧
      ((t.strand n).st = .stalled → (t.strand n).unacked = x.probe.unacked) ∧ (t.strand n).backoff = x.backoff + 1 ∧
      (x.pathExp < 2 → x.rechoose = false → (t.strand n).window = mtu s x ∧ (t.strand n).pathExp = x.pathExp + 1)) ∧
    (x.ackDue ≠ 0 → (s.port x.port).joined = true →
      (ctrlSends s x.port = true →
        let bits := x.rxBits.map fun p => (p - x.rxC - 1).toNat
        let sts := x.rxSt.take 16
        let hdr := frameHdr s n 0 false { type := 0x10 } (128 + 8 * sts.length)
        ∃ t, exec (.ackDelayExpiry n) s = .next t ∧ (t.strand n).ackDue = 0 ∧
          t.out = .ack x.port n x.rxC bits sts hdr (sealed_ s n true hdr (ackData bits sts)) :: s.out) ∧
      (ctrlSends s x.port = false → ∃ t, exec (.ackDelayExpiry n) s = .next t ∧
        (t.strand n).ackDue = x.ackDue ∧ t.out = s.out)) ∧
    (∀ (h : FrameHdr) (bits : List (Fin 1024)) (sts : List (BitVec 32 × BitVec 8)) (y : Strand), h.strand = n →
      frameHere s h (128 + 8 * sts.length) = true → noRoom s h.port (frameBytes h (128 + 8 * sts.length)) = false →
      s.pwr.pstate ≠ .p3 → admitFrame s h (128 + 8 * sts.length) = some y →
      ∃ t, exec (.ack h bits sts) s = .next t ∧ (t.strand n).unacked.map (·.psn) =
        (x.unacked.filter fun f => !covers h.ackPsn bits f.psn).map (·.psn)) ∧
    (x.phaseAt + 2 ^ 40 ≤ x.txc →
      exec (.keyPhaseAdvance n) s = .next (s.setStrand n { x with txPhase := x.txPhase + 1, phaseAt := x.txc })) ∧
    exec (.oldKeyPhaseExpiry n) s = .next (s.setStrand n { x with oldPhase := false }) ∧
    (frameReaches s p = true → groupLive s (s.port p).cfg.group = true → exec (.reservedTypeFrame p) s =
      .next { s with twine := { s.twine with bad := satAdd 16 s.twine.bad } })

/-- What a received frame does (14 R382 to R385, R388; 12 R315, R345; 15 R421): the next frame of an open strand applies
once. A write, an add or a response changes the bytes of its target; a target the strand may not reach is counted and
changes none; a read queues its data; a doorbell moves TAIL; a TALLY of the lease holder waits for its snapshot; a PACE of
the group's master sets the pace.
A TALLY's snapshot is taken at one instant and announced (12 R345 to R347). -/
def Obligations.FramesApply : Prop :=
  (∀ (h : FrameHdr) (s : State),
     let n := h.strand
     let x := s.strand n
     let a := takeAck (s.setStrand n { x with rxc := rebuiltTxc x.rxc h.txcLo }) n h.ackPsn [] [] none
     let walked (w : Need) (addr : Word) (k : Nat) : State := walkTarget a n w addr.toNat k
     let here (b : RxBody) : Prop := frameHere s h b.len = true ∧ dataFull s h.port (frameBytes h b.len) = false
     x.sentBy h = true → s.pwr.pstate ≠ .p3 → s.pwr.stopped = false → s.mgmt.restarting = false → n.val ≠ 0 →
     x.st = .opened → h.kphase = decide (x.rxPhase % 2 = 1) → x.keyed s x.rxGen = true → h.psn = x.rxC + 1 → x.rxBits = [] →
     x.held = [] →
     (∀ addr data segs, data.length ≤ 8176 → data ≠ [] → here (.write addr data) →
       let a := walked .write addr data.length
       targetOf a n .write addr.toNat data.length = .mem segs →
       let b := touchSegs a segs addr.toNat data.length true
       ∀ i ∈ [Instr.write h addr data, Instr.writeFlagged h addr data], ∃ t, exec i s = .next t ∧
         (∀ y, cellGet t.mem.cells y = cellGet (writeSegs b segs addr.toNat data).1.mem.cells y) ∧
         (t.strand n).rxC = h.psn) ∧
     (∀ addr data c, data.length ≤ 8176 → data ≠ [] → here (.write addr data) →
       targetOf (walked .write addr data.length) n .write addr.toNat data.length = .fail c →
       ∃ t, exec (.write h addr data) s = .next t ∧ t.mem.cells = s.mem.cells ∧ t.twine.viol = satAdd 8 s.twine.viol) ∧
     (∀ addr len segs, len ≠ 0 → here (.read addr len) →
       let a := walked .read addr len.toNat
       targetOf a n .read addr.toNat len.toNat = .mem segs →
       firstPoison a segs addr.toNat len.toNat = none → ∃ t, exec (.read h addr len) s = .next t ∧
         t.mem.cells = s.mem.cells ∧
         (t.strand n).txq = ((respond a n h.psn (readSegs a segs addr.toNat len.toNat)).strand n).txq) ∧
     (∀ addr data r e, data.length ≤ 8176 → here (.readResp addr data) → respHeld a n (.readResp addr data) = false →
       a.twine.rmas.find? (fun r => r.strand = n ∧ r.resp.any fun e => e.1 = BitVec.ofNat 32 (addr.toNat / 2 ^ 32)) =
         some r → r.resp.find? (fun e => e.1 = BitVec.ofNat 32 (addr.toNat / 2 ^ 32)) = some e → r.rop = 2 →
       let base := r.base + e.2.1 * r.d + addr.toNat % 2 ^ 32
       segsMapped a r.segs = true → ∃ t, exec (.readResp h addr data) s = .next t ∧ ∀ y, cellGet t.mem.cells y =
         cellGet (writeSegs (touchSegs a r.segs base data.length true) r.segs base data).1.mem.cells y) ∧
     (∀ aty fetch addr data segs, data.length ≤ 8176 → data ≠ [] → here (.atomicAdd aty.val fetch addr data) →
       addHeld a n (.atomicAdd aty.val fetch addr data) = false →
       let a := walked .add addr data.length
       addTarget a n aty.val addr.toNat data.length = .mem segs → firstPoison a segs addr.toNat data.length = none →
       let b := (pieces segs addr.toNat data.length).foldl (fun s y => addTouch s y.1 y.2.2) a
       ∃ t, exec (.atomicAdd h aty fetch addr data) s = .next t ∧ ∀ y, cellGet t.mem.cells y =
         cellGet (writeSegs b segs addr.toNat
           (addBytes aty.val (readSegs a segs addr.toNat data.length) data).1).1.mem.cells y) ∧
     (∀ q tail, here (.doorbell q false false tail) → mayRing a n q = true → (s.q q).st = .opened →
       tail.toNat ≤ (s.q q).head + (s.q q).cfg.n →
       ∃ t, exec (.doorbell h q false false tail) s = .next t ∧ (t.q q).tail = max (s.q q).tail tail.toNat) ∧
     (∀ id, here (.tally id) → leaseStrand a n = true → ∃ t, exec (.tally h id) s = .next t ∧
       t.mgmt.tally = s.mgmt.tally ++ [(id, n)] ∧ t.mem = s.mem) ∧
     (∀ w0 w1 k, here (.pace w0 w1) → slotOf a (bitsOf w0.toNat 0 16) = some k →
       memberStrand a (a.slot k) (a.slot k).masterNow = some n →
       (s.slot k).paceIn ≤ bitsOf w0.toNat 32 32 → (s.slot k).st = .ready → ∃ t, exec (.pace h w0 w1) s = .next t ∧
         (t.slot k).pacePm = min 1000 (bitsOf w1.toNat 0 10) ∧ (t.slot k).paceIn = bitsOf w0.toNat 32 32) ∧
     (∀ w0 w1 k, here (.lag w0 w1) → slotOf a (bitsOf w0.toNat 0 16) = some k →
       memberStrand a (a.slot k) (bitsOf w0.toNat 16 6) = some n → bitsOf w1.toNat 32 3 ≠ 4 →
       ∃ t, exec (.lag h w0 w1) s = .next t ∧
         (⟨bitsOf w0.toNat 16 6, bitsOf w1.toNat 0 10, bitsOf w1.toNat 16 16⟩ : Lag) ∈ (t.slot k).lags)) ∧
  (∀ (id : BitVec 32) (n : Fin 2048) (rest : List (BitVec 32 × Fin 2048)) (s : State),
     s.mgmt.tally = (id, n) :: rest → attests s = true → (s.strand n).st = .opened →
     ∃ t, exec .tallyFreeze s = .next t ∧ t.mgmt.frozen = true ∧ t.mgmt.tally = rest ∧
       t.mgmt.win = cellsWrite s.mgmt.win 0x8000000 (snapshot s id) ∧
       (t.strand n).txq = (s.strand n).txq ++ [.notify 4 0 0 (tallyBody id)] ∧ t.mem = s.mem)

/-- The life of a port (13 R352 to R354, R361, R363 to R365, 01 R35): a commit of staged words takes effect where every
port's words are in range and is REFUSED otherwise; a port that joins sends HELLO to all and to the peers of its group's
strands (14 R378); training, joining, loss, failure and a pause storm move a port as the
rules say, its counters kept; a lost reference drops every link. -/
def Obligations.PortLife : Prop :=
  ∀ (p : Fin 32) (s : State),
    let y := s.port p
    (s.eth.staged ≠ [] →
      let mode := (stagedOr s.eth.staged 0x7000 (BitVec.ofNat 64 s.eth.mode)).toNat % 4
      let good := ∀ j : Fin 32, portCount mode ≤ j.val ∨ (s.eth.stagedPort j).ok = true
      (good → ∃ t, exec .ethCommit s = .next t ∧ t.eth.mode = mode ∧ t.eth.staged = [] ∧ t.eth.result = .ok ∧
        ∀ j, (t.port j).cfg = s.eth.stagedPort j) ∧
      (¬ good → exec .ethCommit s = .next { s with eth := { s.eth with staged := [], result := .refused } })) ∧
    (y.link = .training → ∃ t, exec (.portLinkUp p) s = .next t ∧ t.port p = { y with link := .up, attempts := 0 }) ∧
    (y.link = .up → y.joined = false → y.storm = false → ∃ t, exec (.portJoin p) s = .next t ∧
      (t.port p).joined = true ∧ (portsServe s = true → groupLive s y.cfg.group = true → y.ctrlQ = [] → s.sec.spdmQ = [] →
        ∃ hs, hellosSent s t p hs ∧ hs.map (·.dest) = toAll s p ++
          ((((List.finRange 2048).filter fun n => (s.strand n).cfg.enable && (s.strand n).cfg.group == y.cfg.group &&
            (s.strand n).cfg.ip != 0).map fun n => ((s.strand n).cfg.ip, (s.strand n).cfg.udp)).dedup.map (·.1)))) ∧
    (y.link = .up → ∃ t, exec (.portDown p) s = .next t ∧ (t.port p).joined = false ∧ (t.port p).xoffRx = 0 ∧
      (t.port p).flaps = satAdd 16 y.flaps ∧ (t.port p).cfg = y.cfg ∧ (t.port p).fcsBad = y.fcsBad ∧
      (t.port p).link = if portExists s p = true then y.restart else .off) ∧
    (y.link = .training →
      (y.attempts < 19 → exec (.trainingRestart p) s = .next (s.setPort p { y with attempts := y.attempts + 1 })) ∧
      (19 ≤ y.attempts → ∃ t, exec (.trainingRestart p) s = .next t ∧ (t.port p).failed = true ∧
        (t.port p).link = .down)) ∧
    (y.failed = false → y.link ≠ .off → ∃ t, exec (.portFail p) s = .next t ∧ (t.port p).failed = true ∧
      (t.port p).link = .down ∧ (t.port p).joined = false) ∧
    (y.link = .up → y.xoffRx ≠ 0 → y.cfg.storm ≠ 0 → y.storm = false → ∃ t, exec (.pauseStorm p) s = .next t ∧
      t.port p = { y with storm := true, joined := false }) ∧
    (y.storm = true → y.xoffRx = 0 → ∃ t, exec (.stormEnd p) s = .next t ∧ (t.port p).storm = false ∧
      ((t.port p).joined = true ↔ y.link = .up ∨ y.joined = true)) ∧
    (s.mgmt.clockLost = false → s.mgmt.phase ≠ .reset → ∃ t, exec .refclkLoss s = .next t ∧ t.mgmt.clockLost = true ∧
      t.mem = s.mem ∧ ∀ j, (t.port j).link = .off ∨ (t.port j).link = .down ∧ (t.port j).joined = false)

/-- What a port's MAC does with the frames that are not Twine's (13 R355 to R362, R368; 14 R371): bad frames are counted,
address requests answered, LLDP kept and sent, pauses honoured on the priorities the port honours, XOFF and XON sent by the
level of the buffer, a frame that finds no room in it counted, the wake ports set. The header of the LLDP area (log 116), the
priorities that an 802.3x pause stops (log 115) and that answers and LLDPDUs wait for the end of a pause (log 147) are the
model's choices. -/
def Obligations.PortFrames : Prop :=
  ∀ (p : Fin 32) (s : State),
    let y := s.port p
    let ctrl (o : Out) : State := if ctrlPaused y = true then s.setPort p { y with ctrlQ := y.ctrlQ ++ [o] } else s.say o
    let counted (fec : Bool) : State := s.setPort p
      { y with fcsBad := satAdd 16 y.fcsBad, fecUncorr := if fec = true then satAdd 16 y.fecUncorr else y.fecUncorr }
    let dropped : State := s.setPort p { y with rxDrop := satAdd 16 y.rxDrop }
    let freed (m : BitVec 8) (t : State) : Prop :=
      if m.getLsbD y.cfg.ctrlPcp = true then t = s.setPort p { y with xoffRx := m }
      else t.port p = { y with xoffRx := m, ctrlQ := [] } ∧
        t.out = (y.ctrlQ ++ if spdmPort s p = true then s.sec.spdmQ else []).reverse ++ s.out ∧
        t.sec.spdmQ = if spdmPort s p = true then [] else s.sec.spdmQ
    (∀ fec, y.link = .up → exec (.fcsBadFrame p fec) s = .next (counted fec)) ∧
    exec (.otherFrameDiscard p) s = .next s ∧
    (portsServe s = true →
      (∀ ip v6, s.mgmt.restarting = false → y.joined = true → groupHas (s.twine.groups.get y.cfg.group) ip v6 = true →
        exec (.arpRequest p ip v6) s =
          .next (ctrl (.mac p 0 [ip, b2n v6, (Config.baseMac + BitVec.ofNat 48 p.val).toNat]))) ∧
      (∀ ttl data, y.link = .up →
        (y.cfg.maxFrame < data.length + 18 → exec (.lldpduReceive p ttl data) s = .next (counted false)) ∧
        (data.length + 18 ≤ y.cfg.maxFrame → 6291456 < y.fill + (data.length + 18) →
          exec (.lldpduReceive p ttl data) s = .next dropped) ∧
        (data.length + 18 ≤ y.cfg.maxFrame → y.fill + (data.length + 18) ≤ 6291456 → ttl ≠ 0 →
          Memory.wf s.mgmt.win = true → ∃ t, exec (.lldpduReceive p ttl data) s = .next t ∧
          (t.port p).lldp = true ∧ cellsRead t.mgmt.win (0x1000000 + p.val * 0x800) (8 + (data.take 2040).length) =
            leBytes 4 (data.take 2040).length ++ leBytes 4 (s.now / 1000000) ++ data.take 2040)) ∧
      (y.link = .up → y.cfg.enable = true → exec (.lldpTimer p) s = .next (ctrl (.mac p 1 (lldpTlvs s p)))) ∧
      (∀ pfc prios quanta, y.link = .up →
        let m := pauseMask y.cfg pfc prios
        ∃ t, exec (.pauseFrame p pfc prios quanta) s = .next t ∧
          freed (if quanta = 0 then y.xoffRx &&& ~~~m else y.xoffRx ||| m) t) ∧
      (∀ prios, ∃ t, exec (.pauseExpiry p prios) s = .next t ∧ freed (y.xoffRx &&& ~~~prios) t) ∧
      (∀ n, y.link = .up → y.cfg.pause = true ∨ y.cfg.pfc ≠ 0 →
        let say (mask : BitVec 8) (q : Nat) : State := (s.setPort p { y with xoffTx := mask, fill := min 6291456 n }).say
          (if y.cfg.pause = true then .mac p 2 [q] else .mac p 3 [y.cfg.pfc.toNat, q])
        let mine : BitVec 8 := if y.cfg.pause = true then 1 else y.cfg.pfc
        (y.xoffTx = 0 → 6291456 * y.cfg.xoff ≤ n * 100 → exec (.xoffResend p n) s = .next (say mine 0xFFFF)) ∧
        (y.xoffTx ≠ 0 → 6291456 * y.cfg.xon < n * 100 → exec (.xoffResend p n) s = .next (say mine 0xFFFF)) ∧
        (y.xoffTx ≠ 0 → n * 100 ≤ 6291456 * y.cfg.xon → exec (.xon p n) s = .next (say 0 0)))) ∧
    (∀ (h : FrameHdr) (addr : Word) (data : List Byte), h.port = p → frameHere s h data.length = true →
      dataFull s p (frameBytes h data.length) = true → exec (.write h addr data) s = .next dropped) ∧
    (∃ t, exec (.lldpTtlExpiry p) s = .next t ∧ (t.port p).lldp = false) ∧
    (portsServe s = false → ∀ prios, exec (.pauseExpiry p prios) s =
      .next (s.setPort p { y with xoffRx := y.xoffRx &&& ~~~prios })) ∧
    (∀ v : Word, let ports := (List.range 32).filter fun i => v.getLsbD i
      ports.length ≤ 2 → (∀ i ∈ ports, i < portCount s.eth.mode) → exec (.wakeEnWrite v) s =
        .next { s with eth := { s.eth with
          wakeEn := v.setWidth 32, magic := v.getLsbD 32, twineWake := v.getLsbD 33 } })

/-- Rails and regulators (17 R456 to R461, R478, R480): an average above a rail's 1 µs limit stretches the clocks of the skeins
that draw most on it and every stretch for it follows the excess until the average lies below 97% of the limit; one above
its 100 µs limit steps the rail's dividers down, one within it back up; the stack rails first give up bank time, VDD_SERDES
lowers the pacing rate in force in proportion, VDD_IO and VDD_MGMT feed no skein and move no divider; a droop stretches to
N = 4 and relaxes in steps; readings correct the estimator by an eighth and end a gap; a regulator's fault holds every skein
until it is cleared. That a rail moves its levers by one step at a time is the model's choice (log 50), and so are the form of
the estimator's starting gain (log 159) and the mean of the inlet's readings (log 169). -/
def Obligations.RailControl : Prop :=
  ∀ (k : Fin 8) (r : Fin 7) (s : State),
    let x := s.pwr.rails.get r
    let fix (a : Nat) : Nat := ((a : Int) * (startGain s r + x.gain) / 1000).toNat
    (∀ amps skeins, ∀ i : Fin 2, i.val = r.val →
      let lim := guarded s (railLimits r).1
      ∃ t, exec (.estimatorSample r amps skeins) s = .next t ∧ (t.pwr.rails.get r).us = fix amps ∧ ∀ j : Fin 8,
        ((skeins.getLsbD j.val = true ∧ lim < fix amps) ∨ ((s.sk j).stretch.get i).isSome = true →
          (t.sk j).stretch.get i = some (stretchFor (fix amps) lim) ∧
            ∀ m, m ≠ i → (t.sk j).stretch.get m = (s.sk j).stretch.get m) ∧
        ((skeins.getLsbD j.val = false ∨ fix amps ≤ lim) → (s.sk j).stretch.get i = none → t.sk j = s.sk j)) ∧
    (∀ amps skeins, 2 ≤ r.val → ∃ t, exec (.estimatorSample r amps skeins) s = .next t ∧
      (t.pwr.rails.get r).us = fix amps ∧ t.skeins = s.skeins) ∧
    (∀ amps,
      let lim := guarded s (railLimits r).2
      ∃ t, exec (.dividerStepDown r amps) s = .next t ∧ t.skeins = s.skeins ∧
      (∀ m, m ≠ r → t.pwr.rails.get m = s.pwr.rails.get m) ∧ (t.pwr.rails.get r).est = min 65535 (fix amps) ∧
      (let y := t.pwr.rails.get r
       (r.val < 2 → y.div = if lim < fix amps then stepDown x.div else stepUp x.div) ∧
       (r.val = 2 ∨ r.val = 3 →
         (lim < fix amps → x.distPm ≠ 0 → y.distPm = x.distPm - 125 ∧ y.div = x.div) ∧
         (lim < fix amps → x.distPm = 0 → y.distPm = 0 ∧ y.div = stepDown x.div) ∧
         (fix amps ≤ lim → x.div ≠ 6 → y.distPm = x.distPm ∧ y.div = stepUp x.div) ∧
         (fix amps ≤ lim → x.div = 6 → y.distPm = 1000 ∧ y.div = 6)) ∧
       (4 ≤ r.val → y.div = x.div ∧ y.distPm = x.distPm)) ∧
      t.pwr.railPacePm = if r.val ≠ 4 then s.pwr.railPacePm else if fix amps = 0 then 1000
        else max 1 (min 1000 (s.pwr.railPacePm * lim / fix amps))) ∧
    exec (.droopDetect k) s = .next (s.setSk k { s.sk k with droopN := some 4 }) ∧
    (∃ t, exec (.stretchEnd k) s = .next t ∧ (∀ j, j ≠ k → t.sk j = s.sk j) ∧
      (t.sk k).droopN = (s.sk k).droopN.bind (fun n => if n < 32 then some (2 * n) else none) ∧
      ∀ i : Fin 2, ∀ m : Fin 7, m.val = i.val → (t.sk k).stretch.get i =
        if (s.pwr.rails.get m).us * 100 < guarded s (railLimits m).1 * 97 then none else (s.sk k).stretch.get i) ∧
    (readsBoard s = true →
      (∀ amps mv est, ∃ t, exec (.regulatorRead r amps mv est) s = .next t ∧ t.skeins = s.skeins ∧
        (let c := fix est
         let err : Int := if c = 0 then 0 else (((amps : Int) - c) * 1000).tdiv (8 * c)
         (t.pwr.rails.get r).gain = x.gain + err) ∧
        ((t.pwr.rails.get r).missing = true ↔ x.missing = true ∧ x.streak < 9)) ∧
      (∀ f : BitVec 7, ∃ t, exec (.statusWordPoll f) s = .next t ∧ (∀ j : Fin 7, (t.pwr.rails.get j).fault = f.getLsbD j.val) ∧
        (t.pwr.regFault = true ↔ s.pwr.regFault = true ∨
          ∃ j : Fin 7, f.getLsbD j.val = true ∧ (s.pwr.rails.get j).fault = false)) ∧
      ((∀ j, (s.pwr.rails.get j).fault = false) →
        exec .regulatorFaultCleared s = .next { s with pwr := { s.pwr with regFault := false } }) ∧
      exec (.inletPoll none) s = .next { s with pwr := { s.pwr with inlet := 0xFF, inlets := [] } } ∧
      (∀ c : BitVec 8,
        let l := (c.toNat :: s.pwr.inlets).take 10
        exec (.inletPoll (some c)) s = .next { s with pwr := { s.pwr with inlet := l.sum / l.length, inlets := l } })) ∧
    (readsBoard s = false → ∀ (f : BitVec 7) (c : Option (BitVec 8)) (amps mv est : Nat),
      ∀ i ∈ [Instr.regulatorRead r amps mv est, .statusWordPoll f, .regulatorFaultCleared, .inletPoll c],
        exec i s = .next s) ∧
    (s.mgmt.phase ≠ .reset → x.missing = false → s.mgmt.faults.length < 256 → ∃ t, exec (.readingsMissing r) s = .next t ∧
      (t.pwr.rails.get r).missing = true ∧ t.mgmt.faults.length = s.mgmt.faults.length + 1)

/-- The cap (17 R462 to R466): a commit of words in range takes effect; a grant whose measured and predicted demands fit what
the cap leaves puts every skein at its fastest step, one whose demands do not takes the setting that none fitting it is better
than; a burst is paid back. What an excess over the cap takes from the next grant is the model's choice (log 160). -/
def Obligations.PowerCap : Prop :=
  ∀ (g : GrantIn) (s : State),
    let w := (stagedOr s.pwr.staged 0xD000 (BitVec.ofNat 64 s.pwr.capWord)).toNat
    let good : Prop := 200 ≤ bitsOf w 0 10 ∧ bitsOf w 0 10 ≤ 850 ∧ bitsOf w 0 10 ≤ bitsOf w 10 10 ∧
      bitsOf w 10 10 ≤ 950 ∧ 50 ≤ bitsOf w 20 14 ∧ bitsOf w 20 14 ≤ 10000
    let s' : State := { burstStep s with pwr := { (burstStep s).pwr with grantIn := some g, grantDue := false } }
    let p := predicted s' g
    let rem := grantCap s' * 1000 - p.reserved - p.stackMw - p.linkMw
    let total := p.skeins.sum + p.distaff
    (s.pwr.staged ≠ [] →
      (good → ∃ t, exec .pwrCommit s = .next t ∧ t.pwr.cap = bitsOf w 0 10 ∧ t.pwr.burst = bitsOf w 10 10 ∧
        t.pwr.window = bitsOf w 20 14 ∧ t.pwr.staged = [] ∧ t.pwr.result = .ok) ∧
      (¬ good → exec .pwrCommit s = .next { s with pwr := { s.pwr with staged := [], result := .refused } })) ∧
    (total ≤ rem → ∃ t, exec (.grantTick g) s = .next t ∧ t.pwr.distPm = 1000 ∧ t.pwr.pacePm = 1000 ∧
      ∀ k, t.sk k = { s.sk k with stepDiv := 6 }) ∧
    (rem < total → ∃ t set, exec (.grantTick g) s = .next t ∧
      (∀ k : Fin 8, t.sk k = { s.sk k with stepDiv := stepOf (byWork p.work) set k.val }) ∧
      (let fits (u : List Nat) : Prop := settingPower (byWork p.work) p.skeins u ≤ rem * p.skeins.sum / total * 140
       (fits set ∨ set = List.replicate 8 24) ∧ ∀ u ∈ settings 8 steps, fits u → betterSet u set = false)) ∧
    (∀ b, s.pwr.burstAt = some b → exec .burstExpiry s =
      .next { s with pwr := { s.pwr with burstAt := none, holdUntil := s.now + (s.now - b) } })

/-- Energy (17 R468, R469): every skein and the package gain what they used, and the energies of the queues and the
unattributed rest together grow by what the package used, however it is divided among the work. -/
def Obligations.EnergyKept : Prop :=
  ∀ (skeins : List Nat) (served : List (Nat × List (Fin 4096 × Nat × Nat))) (idle : Nat) (s : State),
    let e (k : Fin 8) : Nat := skeins.getD k.val 0
    let total : Word := BitVec.ofNat 64 (((List.finRange 8).map e).sum + (served.map (·.1)).sum + idle)
    let queues (s : State) : Word := (s.queues.toList.map (·.energy)).sum
    ∃ t, exec (.energyAttribution skeins served idle) s = .next t ∧ t.pwr.pkgUj = s.pwr.pkgUj + total ∧
      (∀ k, (t.sk k).energy = (s.sk k).energy + BitVec.ofNat 64 (e k)) ∧
      queues t + t.pwr.unattr = queues s + s.pwr.unattr + total ∧ t.mem = s.mem ∧ t.spindles = s.spindles

/-- Power states (17 R470, R471; 06 R163; 13 R368): an idle skein or device in service enters a state whose latency is
tolerated and leaves it when its exit is done; P2 keeps the bobbins and not the registers (their values then are the model's,
log 5), P3 empties the creel, P4 keeps no bobbin (DEDUCED, log 125); a wake frame that passes its check brings the device out
of P4 and its strands back as after a warm reset (14 R394), one that fails it leaves it there. -/
def Obligations.PowerStates : Prop :=
  ∀ (k : Fin 8) (p : Fin 32) (s : State),
    let x := s.sk k
    (s.inService = true →
      (skeinIdle s k = true → x.exiting = false →
        (x.pstate = .p0 → 1 ≤ s.pwr.latTol → exec (.powerStateEntry (.p1 k)) s = .next (s.setSk k { x with pstate := .p1 })) ∧
        (x.pstate = .p0 ∨ x.pstate = .p1 → 40 ≤ s.pwr.latTol → ∃ t, exec (.powerStateEntry (.p2 k)) s = .next t ∧
          (t.sk k).pstate = .p2 ∧ ∀ l : Fin 17, (t.sp (physOf k l)).bobbin = (s.sp (physOf k l)).bobbin ∧
            (t.sp (physOf k l)).s = ({} : Spindle).s)) ∧
      (deviceIdle s = true → s.pwr.exiting = false →
        (s.pwr.pstate = .p0 → 1500 ≤ s.pwr.latTol → ∃ t, exec (.powerStateEntry .p3) s = .next t ∧ t.pwr.pstate = .p3 ∧
          ∀ j, (t.sk j).bindings = []) ∧
        (s.pwr.pstate = .p0 ∨ s.pwr.pstate = .p3 → s.pwr.allowP4 = true → 250000 ≤ s.pwr.latTol → ∃ t,
          exec (.powerStateEntry .p4) s = .next t ∧ t.pwr.pstate = .p4 ∧ ∀ j, (t.sp j).bobbin = []))) ∧
    ((x.pstate = .p1 → exec (.powerStateExit (.p1 k)) s = .next (s.setSk k { x with exiting := true })) ∧
      (x.pstate = .p1 → x.exiting = true →
        exec (.powerStateExitDone (.p1 k)) s = .next (s.setSk k { x with pstate := .p0, exiting := false })) ∧
      (x.pstate = .p2 → exec (.powerStateExit (.p2 k)) s = .next (s.setSk k { x with exiting := true })) ∧
      (x.pstate = .p2 → x.exiting = true →
        exec (.powerStateExitDone (.p2 k)) s = .next (s.setSk k { x with pstate := .p0, exiting := false })) ∧
      (s.pwr.pstate = .p3 → s.mgmt.phase ≠ .stopped →
        exec (.powerStateExit .p3) s = .next { s with pwr := { s.pwr with exiting := true } }) ∧
      (s.pwr.pstate = .p3 → s.pwr.exiting = true → s.mgmt.phase ≠ .stopped → s.twine.waiting = [] →
        ∃ t, exec (.powerStateExitDone .p3) s = .next t ∧ t.pwr.pstate = .p0 ∧ t.pwr.exiting = false)) ∧
    (s.pwr.pstate = .p4 → (s.port p).link = .up → s.eth.wakeEn.getLsbD p.val = true → s.pwr.exiting = false →
      ∀ magic genuine ctr, (if magic = true then s.eth.magic else s.eth.twineWake) = true →
        exec (.wake p magic genuine ctr) s =
          .next { s with pwr := { s.pwr with exiting := true, wake := some (p, magic, genuine, ctr) } }) ∧
    (s.pwr.pstate = .p4 → s.pwr.exiting = true → ∀ w, s.pwr.wake = some w →
      (w.2.1 = true ∧ s.eth.magic = true ∨ w.2.1 = false ∧ w.2.2.1 = true ∧ s.sec.wakeCtr < w.2.2.2.toNat →
        ∃ t, exec (.powerStateExitDone .p4) s = .next t ∧ t.pwr.pstate = .p0 ∧ t.pwr.wake = none ∧
          ∀ n, (t.strand n).held = [] ∧ ∀ f ∈ (t.strand n).unacked, f.again = true) ∧
      (w.2.1 = true ∧ s.eth.magic = false ∨ w.2.1 = false ∧ (w.2.2.1 = false ∨ w.2.2.2.toNat ≤ s.sec.wakeCtr) →
        ∃ t, exec (.powerStateExitDone .p4) s = .next t ∧ t.pwr.pstate = .p4 ∧ t.pwr.exiting = false ∧
          t.sec = s.sec))

/-- Temperature and airflow (17 R473 to R477; 19 R526): the thresholds act on skeins, stacks and dies by the hottest of their
sensors, each with the offset of the trim table in use (18 R493; its numbering is log 172); a skein too hot steps down in time and
back up when cool; a trip, which RESET_N alone holds off, or an airflow fault without an override, stops a device in service;
the device resumes through a warm reset. That `PHASE` reads MGMT as that reset begins is DEDUCED (log 117), and so is when a
tripped device has cooled (log 118). -/
def Obligations.HeatAndAir : Prop :=
  ∀ (k : Fin 8) (th : ThermIn) (s : State),
    let o := if s.mgmt.calValid = true then 0 else 5
    let served := s.mgmt.phase = .full ∨ s.mgmt.phase = .warmup
    let hot (j : Fin 8) : Nat :=
      ((List.range 4).map fun i => sensed s (4 * j.val + i) (th.skeins.getD (4 * j.val + i) 0)).foldl max 0
    let io : Nat := max (sensed s 32 (th.io.getD 0 0)) (sensed s 33 (th.io.getD 1 0))
    let base (j : Fin 8) : Nat := sensed s (34 + j.val) (th.bases.getD j.val 0)
    (s.sec.override = false → s.mgmt.phase ≠ .reset → ∃ t, exec (.thermalThreshold th) s = .next t ∧ t.mem = s.mem ∧
      t.queues = s.queues ∧ (∀ j, t.pwr.tj.get j = hot j) ∧
      (∀ j : Fin 8, (t.sk j).thermDiv = if 105 < hot j + o ∨ 105 < io + o then 24 else (s.sk j).thermDiv) ∧
      (∀ j : Fin 8, t.pwr.distHot.getLsbD j.val = (decide (95 < base j + o) ||
        s.pwr.distHot.getLsbD j.val && decide (90 ≤ base j + o)))) ∧
    (100 < s.pwr.tj.get k + o → exec (.thermalStepTimer k) s =
      .next (s.setSk k { s.sk k with thermDiv := stepDown (s.sk k).thermDiv })) ∧
    (s.pwr.tj.get k + o < 97 → s.pwr.ioHot = false → exec (.thermalStepTimer k) s =
      .next (s.setSk k { s.sk k with thermDiv := stepUp (s.sk k).thermDiv })) ∧
    (s.mgmt.resetN = true → s.pwr.tripped = false → ∃ t, exec .thermtrip s = .next t ∧ t.pwr.tripped = true ∧
      t.pwr.tripHold = true ∧ t.pwr.stopped = true ∧ t.out = .pin 0 false :: s.out ∧
      (served → t.mgmt.phase = .stopped)) ∧
    (s.mgmt.resetN = false → exec .thermtrip s = .next s) ∧
    (served → s.sec.override = false → ∃ t, exec .airFaultAssert s = .next t ∧ t.pwr.airLow = true ∧
      t.pwr.stopped = true ∧ t.mgmt.phase = .stopped ∧ t.pwr.pstate = .p3) ∧
    (s.pwr.stopped = true → s.pwr.dieOff = false → ∃ t, exec .airFaultPowerDown s = .next t ∧ t.pwr.dieOff = true) ∧
    (s.pwr.airLow = true → s.sec.override = false →
      exec (.airFaultRise false) s = .next { s with pwr := { s.pwr with airLow := false } }) ∧
    (s.pwr.airLow = false → s.pwr.stopped = true → s.pwr.tripHold = false → s.mgmt.phase = .stopped → ∃ t,
      exec .airFaultClear s = .next t ∧ t.pwr.stopped = false ∧ t.mgmt.phase = .mgmt ∧ t.mgmt.warming = true ∧
      t.mgmt.warms = s.mgmt.warms + 1) ∧
    (s.sec.override = true → served → ∃ t, exec .overrideExpiry s = .next t ∧ t.sec.override = false ∧
      (s.pwr.airLow = true → t.mgmt.phase = .stopped))

/-- Attestation (16 R448, R450; SPDM's codes are those of log 40): a request that reaches the device in service is answered
with what the rules say in a frame of TYPE 0x19, the signed answers over what they sign; it waits where a pause stops the
control frames of every port (the model's choice, log 147).
Key rewrites and the debug port (16 R435, R436, R451; 19 R527): a rewrite waits at most 50 µs for the RMAs of the old
generation, then takes its value, its generation counts, tenant-owned peer strands move to a new phase and the old value
stays accepted for a time; TRST_N low keeps the TAP in reset (19 R526); IDCODE reads the device's code; EXTEST, which drives
the pins, needs consent while a tenancy is in force; a private instruction does nothing without consent, and with it a debugger
is attached and reads what is open to inspection, in a form that is a free value (log 131). -/
def Obligations.AttestationAndTap : Prop :=
  (∀ s : State, spdmReaches s = true →
     let tells (i : Instr) (code : Nat) (body : List Nat) : Prop := exec i s =
       .next (sendSpdm (spdmWakes s) (.spdm code body (bareHdr 0x19 s.now (Config.spdmLen code body) 0)))
     (∀ p o, spdmPort s p = true → ctrlSends s p = true → sendSpdm s o = s.say o) ∧
     (∀ o, (∀ p, spdmPort s p = true → ctrlSends s p = false) →
       sendSpdm s o = { s with sec := { s.sec with spdmQ := s.sec.spdmQ ++ [o] } }) ∧
     tells .getVersion 0x04 [0x12] ∧ tells .getCapabilities 0x61 [] ∧
     tells (.negotiateAlgorithms true) 0x63 [384, 384, 384, 256] ∧ tells (.negotiateAlgorithms false) 0x7F [] ∧
     tells .getDigests 0x01 [Config.certDigest] ∧ tells (.getCertificate 0) 0x02 [Config.certChain] ∧
     (∀ n, n ≠ 0 → tells (.getCertificate n) 0x7F []) ∧
     (∀ n : BitVec 256, tells (.challenge n) 0x03 [Config.certDigest, signed [Config.certDigest, n.toNat]]) ∧
     (let b : List Nat := [Config.fuseId.toNat, Config.fleetId.toNat, s.sec.ctr, secBits s,
        if s.sec.tenancyOn = true then (Config.sha384 s.sec.tnKey).toNat else 0]
      tells (.getMeasurements 4) 0x60 (b ++ [signed b])) ∧
     (let b : List Nat := [Config.romHash]
      tells (.getMeasurements 1) 0x60 (b ++ [signed b]))) ∧
  (∀ (n : Fin 4) (s : State),
     (∀ v vs, (s.sec.keys.get n).st = .draining → s.sec.transitPend = v :: vs →
       (s.twine.rmas.any (Rma.holdsCurrent s) = false ∨ s.sec.rewriteAt + 50000 ≤ s.now) →
       ∃ t, exec (.keyRewriteDrained n) s = .next t ∧ t.sec.transit = v ∧ t.sec.transitPend = vs ∧
         t.sec.oldTransit = true ∧ (t.sec.keys.get n).gen = (s.sec.keys.get n).gen + 1 ∧
         (∀ m, (s.strand m).cfg.owner = 2 → (s.strand m).session = false → (s.strand m).st ≠ .closed →
           (t.strand m).txPhase = (s.strand m).txPhase + 1 ∧ (t.strand m).phaseAt = (s.strand m).txc)) ∧
     (s.twine.rmas.any (Rma.holdsCurrent s) = true → s.now < s.sec.rewriteAt + 50000 →
       exec (.keyRewriteDrained n) s = .next s) ∧
     exec .transitOldExpiry s = .next { s with sec := { s.sec with oldTransit := false } } ∧
     (let tap (n : Nat) (s : State) : State := { s with sec := { s.sec with tapNow := n } }
      let drawn (n c : Nat) : State := { s with
        sec := { s.sec with tapNow := n, tapCells := c }, out := .tap n (Config.pinSample s.free) :: s.out, free := s.free + 1 }
      exec (.tapInstruction (.trst true)) s = .next { s with sec := { s.sec with trst := true } } ∧
      exec (.tapInstruction (.trst false)) s =
        .next { s with sec := { s.sec with trst := false, tapNow := 1, attached := false } } ∧
      (s.sec.trst = false → ∀ n, ∀ i ∈ [Tap.bypass, .idcode, .sample n, .extest n, .priv n],
        exec (.tapInstruction i) s = .next s) ∧
      (s.sec.trst = true →
        exec (.tapInstruction .bypass) s = .next ((tap 0 s).say (.tap 0 0)) ∧
        exec (.tapInstruction .idcode) s = .next ((tap 1 s).say (.tap 1 0x10C715B3)) ∧
        ∀ n, exec (.tapInstruction (.sample n)) s = .next (drawn 2 n) ∧
          (s.sec.debug = true ∨ s.sec.tenancyOn = false →
            exec (.tapInstruction (.extest n)) s = .next ((drawn 3 n).say (.drive n))) ∧
          (s.sec.debug = false → s.sec.tenancyOn = true → exec (.tapInstruction (.extest n)) s = .next s) ∧
          (s.sec.debug = false → exec (.tapInstruction (.priv n)) s = .next s) ∧
          (s.sec.debug = true → exec (.tapInstruction (.priv n)) s = .next
            { s with
              sec := { s.sec with attached := true, tapNow := 4 + n }
              out := .tap (4 + n) (Config.inspect n (inspected s) s.free) :: s.out, free := s.free + 1 }))))

/-- Sessions (16 R448, R449; 14 R377): at most eight, opened by KEY_EXCHANGE, ready and given a strand of their owner by
FINISH, which then opens, closed with their strand; a repeated request is answered again; within a session KEY_UPDATE and
HEARTBEAT are answered; the lease holder alone receives the wake key. Which strand a session receives is the model's choice
(log 41), the codes of the answers are those of log 40 and the order of the checks that of log 121.
The controller lease (18 R498, R499): a pair above the holder's passes the lease to the session alone, the holder's own keeps
it with it, a lower one is REFUSED and shown the pair in force. -/
def Obligations.SessionsAndLease : Prop :=
  (∀ (id : Nat) (cred : Cred) (s : State), spdmReaches s = true →
     let w := spdmWakes s
     let hdr (code : Nat) (body : List Nat) : List Byte := bareHdr 0x19 s.now (Config.spdmLen code body) 0
     let open_ (u : State) (code : Nat) (body : List Nat) : State := sendSpdm u (.spdm code body (hdr code body))
     let inside (u : State) (code : Nat) (body : List Nat) : State := sendSpdm u (.session id code body (hdr code body))
     let party : Option Owner := match cred with
       | .none => none
       | .operator => some .controller
       | .tenant => some .tenant
     (s.sec.sessions.length < 8 → sessionOf s id = none →
       (cred = .tenant → s.sec.tenancyOn = true ∧ s.sec.phase ≠ .scrubbing) →
       ∃ u, exec (.keyExchange id cred) s = .next (open_ u 0x64 [id]) ∧ u.out = s.out ∧
         u.sec.sessions = s.sec.sessions ++ [{ id := id, party := party, no := s.sec.nextSession }] ∧
         u.sec.nextSession = s.sec.nextSession + 1) ∧
     (sessionOf s id = none → 8 ≤ s.sec.sessions.length ∨ cred = .tenant ∧ s.sec.tenancyOn = false →
       exec (.keyExchange id cred) s = .next (open_ w 0x7F [])) ∧
     (sessionOf s id = none → id ∈ s.sec.ended → exec (.endSession id) s = .next (inside w 0x6C [])) ∧
     (∀ x, sessionOf s id = some x →
       (x.ready = false → x.party = party → exec (.keyExchange id cred) s = .next (open_ w 0x64 [id])) ∧
       (∀ o n, x.ready = false → x.party = some o → freeStrand s = some n → ∃ u,
         exec (.finish id) s = .next (inside (inside u 0x65 []) 2 [n.val]) ∧
         sessionOf u id = some { x with ready := true, strand := some n } ∧ (u.strand n).st = .opening ∧
         (u.strand n).session = true ∧ (u.strand n).who = some o) ∧
       (∀ i ∈ [Instr.endSession id, Instr.sessionIdleTimeout id], ∃ t, exec i s = .next t ∧ sessionOf t id = none ∧
         ∀ n, x.strand = some n → (t.strand n).st = .closed ∧ (t.strand n).session = false) ∧
       (x.ready = true → exec (.keyUpdate id) s = .next (inside w 0x69 []) ∧
         exec (.heartbeat id) s = .next (inside w 0x68 []) ∧
         exec (.wakeKeyFetch id) s =
           .next (inside w (if x.holds = true then 3 else 0x7F) (if x.holds = true then [wakeKey] else []))))) ∧
  (∀ (id : Nat) (x : Session) (epoch : BitVec 32) (ctrl : BitVec 16) (s : State), spdmReaches s = true →
     sessionOf s id = some x → x.ready = true → x.party = some .controller →
     let inside (u : State) (body : List Nat) : State :=
       sendSpdm u (.session id 4 body (bareHdr 0x19 s.now (Config.spdmLen 4 body) 0))
     (leaseGranted s epoch.toNat ctrl.toNat = false → exec (.leaseRequest id epoch ctrl) s =
       .next (inside (spdmWakes s) (0x09 :: leasePair s))) ∧
     (leaseGranted s epoch.toNat ctrl.toNat = true → ∃ u,
       exec (.leaseRequest id epoch ctrl) s = .next (inside u [0, epoch.toNat, ctrl.toNat]) ∧
       u.sec.lease = some (epoch.toNat, ctrl.toNat, id) ∧ u.sec.leaseEpoch = epoch.toNat ∧
       let passes := leasePasses s epoch.toNat ctrl.toNat
       u.sec.sessions = s.sec.sessions.map (fun y => { y with holds := y.id == id || (y.holds && !passes) }) ∧
       (passes = true → u.mgmt.frozen = false ∧ u.mgmt.tally = [] ∧ ∀ q, (u.q q).staged = [])))

/-- Authorisations (16 R436, R438 to R441, R451; 17 R477): one lodged while none waits is checked at once, and one while a
tenancy starts or ends waits; one that fails a check has its status and no other effect, one that passes takes the effect of
its kind and its ASEQ counts, until the counter of a start moves on. One that a session submits is answered within it, FORMAT
where it is not of 384 bytes (the answer's code is log 40, the order of the checks log 121). -/
def Obligations.Authorisation : Prop :=
  ∀ (id : Nat) (x : Session) (bytes : List Byte) (s : State), attests s = true → s.sec.authWait = [] →
    let b := cellsRead s.mgmt.win 0x8040000 384
    let inside (u : State) (body : List Nat) : State :=
      sendSpdm u (.session id 1 body (bareHdr 0x19 s.now (Config.spdmLen 1 body) 0))
    (s.sec.phase ≠ .none →
      exec (.submit none bytes) s = .next { s with sec := { s.sec with authWait := [(none, b)] } }) ∧
    (sessionOf s id = none → exec (.submit (some id) bytes) s = .next (spdmWakes s)) ∧
    (sessionOf s id = some x → spdmReaches s = true → x.ready = true → x.party ≠ none →
      (bytes.length ≠ 384 →
        exec (.submit (some id) bytes) s = .next (inside (spdmWakes s) [Status.format.code])) ∧
      (bytes.length = 384 → s.sec.phase ≠ .none → ∃ t, exec (.submit (some id) bytes) s = .next t ∧
        t.sec = { s.sec with authWait := [(some id, bytes)] } ∧ t.out = s.out) ∧
      (bytes.length = 384 → s.sec.phase = .none → ∃ u, exec (.submit (some id) bytes) s =
          .next (authRecord (inside u [(authStatus s.sec bytes).code]) (authKind bytes) (authSeq bytes)
            (authStatus s.sec bytes)) ∧
        (authStatus s.sec bytes ≠ .ok → u.sec = s.sec ∧ u.out = s.out))) ∧
    (s.sec.phase = .none → ∀ st, authStatus s.sec b = st → st ≠ .ok → ∃ t, exec (.submit none bytes) s = .next t ∧
      t.sec = { s.sec with authRes := st } ∧ t.mem = s.mem ∧ t.queues = s.queues) ∧
    (s.sec.phase = .none → authStatus s.sec b = .ok → ∃ t, exec (.submit none bytes) s = .next t ∧ t.sec.authRes = .ok ∧
      (authKind b ≠ 0x01 → t.sec.lastAseq = authSeq b ∧ t.sec.ctr = s.sec.ctr) ∧
      (authKind b = 0x01 → t.sec.phase = .starting ∧ t.sec.tnKey = slice b 0x40 0x71 ∧
        (t.sec.ctr = s.sec.ctr ∧ t.sec.lastAseq = authSeq b ∨ t.sec.ctr = s.sec.ctr + 1 ∧ t.sec.lastAseq = 0)) ∧
      (authKind b = 0x02 → t.sec.phase = .draining) ∧
      (authKind b = 0x03 → t.sec.debug = true) ∧
      (authKind b = 0x04 → t.sec.profile = true) ∧
      (authKind b = 0x05 → ∃ l, t.sec.lodged = s.sec.lodged ++ [l] ∧ l.aseq = authSeq b) ∧
      (authKind b = 0x06 → let secs := fieldAt b 0x40 0 31
        t.sec.override = decide (secs ≠ 0) ∧ (secs ≠ 0 → t.sec.overrideEnd = s.now + secs * 1000000000)) ∧
      (authKind b = 0x07 → t.sec.transitNext = some (slice b 0x40 0x50)) ∧
      (authKind b = 0x08 → ∀ v, s.sec.transitNext = some v → t.sec.transitNext = none ∧
        t.sec.transitPend = s.sec.transitPend ++ [v] ∧ (t.sec.keys.get 1).st = .draining) ∧
      (authKind b = 0x09 →
        let d := fieldAt b 0x40 0 0 = 1
        let p := fieldAt b 0x40 1 1 = 1
        (t.sec.debug = true ↔ s.sec.debug = true ∧ ¬ d) ∧ (t.sec.profile = true ↔ s.sec.profile = true ∧ ¬ p) ∧
        (d ∨ p → t.sec.attached = false ∧ t.sec.trace = [])) ∧
      (authKind b = 0x0A → (t.sec.keys.get 1).st = .empty ∧ t.sec.transitNext = none ∧ t.sec.transitPend = [] ∧
        (∀ n, (t.strand n).cfg.owner = 2 → (t.strand n).session = false → (t.strand n).st = .closed) ∧
        ∀ r ∈ t.twine.rmas, (s.strand r.strand).cfg.owner ≠ 2) ∧
      (authKind b = 0x0B → t.sec.opKey = some (slice b 0x40 0x71)))

/-- The life of a tenancy (16 R442 to R447): it begins with keys loaded, stage 1 empty at generation 0 and no violation
counted; its end erases the keys at once and closes the tenant's strands; the scrub leaves no tenancy, no consent, no
lodged authorisation, no session of the tenant, no stage-1 page, no descriptor and no entry of a tenant queue
and no byte of a bobbin; the counter moves on by 1 for the start and by 1 for the end. A scrub mode is committed
only without a tenancy. -/
def Obligations.TenancyLife : Prop :=
  ∀ s : State,
    (s.sec.phase = .starting → s.sec.authWait = [] → ∃ t, exec .tenancyOnSet s = .next t ∧ t.sec.tenancyOn = true ∧
      t.sec.phase = .none ∧ t.trans.s2 = s.trans.s2 ∧ t.twine.viol = 0 ∧
      (s.sec.keysDue.isSome = true → (t.sec.keys.get 0).st = .loaded ∧ (t.sec.keys.get 1).st = .loaded ∧
        t.trans.s1 = [] ∧ t.trans.gen1 = 0 ∧ t.sec.ctr = (if s.sec.ctrDue = true then s.sec.ctr + 1 else s.sec.ctr)) ∧
      (s.sec.keysDue = none → t.sec.keys = s.sec.keys ∧ t.trans.s1 = s.trans.s1)) ∧
    (∀ t0, s.sec.keysDue = some t0 → t0 + 500000 ≤ s.now → ∀ t, t = secTick s → (t.sec.keys.get 0).st = .loaded ∧
      (t.sec.keys.get 1).st = .loaded ∧ t.trans.s1 = [] ∧ t.sec.keysDue = none ∧ t.sec.tenancyOn = s.sec.tenancyOn ∧
      t.sec.ctr = (if s.sec.ctrDue = true then s.sec.ctr + 1 else s.sec.ctr)) ∧
    (s.sec.phase = .draining → ∃ t, exec .tenancyKeyErase s = .next t ∧ t.sec.phase = .scrubbing ∧
      (t.sec.keys.get 0).st = .empty ∧ (t.sec.keys.get 1).st = .empty ∧ t.sec.transit = [] ∧
      (∀ n, (t.strand n).cfg.owner = 2 → (t.strand n).st = .closed) ∧
      (t.sec.ctr = s.sec.ctr ∧ t.sec.ctrDue = true ∨ t.sec.ctr = s.sec.ctr + 1 ∧ t.sec.ctrDue = false)) ∧
    (s.sec.phase = .scrubbing → s.sec.authWait = [] → s.sec.override = false → ∃ t, exec .scrubEnd s = .next t ∧
      t.sec.tenancyOn = false ∧ t.sec.phase = .none ∧ t.sec.debug = false ∧ t.sec.profile = false ∧ t.sec.tnKey = [] ∧
      t.sec.lodged = [] ∧ t.trans.s1 = [] ∧ (∀ x ∈ t.sec.sessions, x.party ≠ some .tenant) ∧
      (∀ q, 16 ≤ q.val → (t.q q).descs = [] ∧ (t.q q).st = .off ∧ (t.q q).head = 0 ∧ (t.q q).tail = 0) ∧
      ∀ p, (t.sp p).bobbin = []) ∧
    (s.sec.scrubSt ≠ [] →
      (s.sec.tenancyOn = true →
        exec .scrubCommit s = .next { s with sec := { s.sec with scrubSt := [], scrubRes := .refused } }) ∧
      (s.sec.tenancyOn = false → ∃ t, exec .scrubCommit s = .next t ∧ t.sec.scrubSt = [] ∧ t.sec.scrubRes = .ok))

/-- Resets (18 R481, R482, R491; 12 R337, R340; 16 R444; 19 R519): a cold reset, the loss of power and TEST_EN leave queues,
spindles, kernels, translation, tenancy, sessions and fault records as they are at reset (registers without a reset value hold
the model's, logs 5 and 6) and keep the counter, the operator's key, the lease epoch, the least version, the image slots and
both copies of the trim table; a warm reset keeps the descriptors, counts and keys and is performed once (that `PHASE` reads
MGMT as it begins is DEDUCED, log 117); it resumes into the map of warm-up (09 R233) with TAIL at HEAD; a management restart
closes the sessions and keeps spindles and memory. -/
def Obligations.Resets : Prop :=
  ∀ s : State,
    (∀ i ∈ [Instr.coldReset, Instr.packagePowerLoss, Instr.testEnHigh], ∃ t, exec i s = .next t ∧ t.mgmt.phase = .reset ∧
      t.mgmt.resetN = false ∧ t.queues = State.reset.queues ∧ t.spindles = State.reset.spindles ∧ t.kernels = [] ∧
      t.trans = State.reset.trans ∧ t.sec.tenancyOn = false ∧ t.sec.sessions = [] ∧ t.mgmt.faults = [] ∧
      t.sec.ctr = s.sec.ctr ∧ t.sec.opKey = s.sec.opKey ∧ t.sec.leaseEpoch = s.sec.leaseEpoch ∧
      t.mgmt.minSvn = s.mgmt.minSvn ∧ t.mgmt.trims = s.mgmt.trims ∧ t.mgmt.trimB = s.mgmt.trimB ∧
      t.mgmt.flash = s.mgmt.flash ∧ t.pending = s.pending ∧ (i = .testEnHigh → t.mgmt.testEn = true) ∧
      (i = .packagePowerLoss → t.mgmt.testEn = false ∧ t.sec.trst = false)) ∧
    (s.mgmt.warming = false → s.mgmt.phase ≠ .reset → s.mgmt.phase ≠ .recovery → ∃ t, exec .warm s = .next t ∧
      t.mgmt.phase = .mgmt ∧ t.mgmt.warming = true ∧ t.mgmt.warms = s.mgmt.warms + 1 ∧ t.sec.keys = s.sec.keys ∧
      t.sec.tenancyOn = s.sec.tenancyOn ∧ (∀ q, (t.q q).staged = []) ∧
      ((∀ n, ∀ m ∈ (s.strand n).txq, ∀ l, m ≠ .accept l) →
        ∀ q, (t.q q).descs = (s.q q).descs ∧ (t.q q).lc = (s.q q).lc)) ∧
    (s.mgmt.warming = true → exec .warm s = .next s) ∧
    (s.mgmt.warming = true → s.mgmt.clockLost = false → s.pwr.stopped = false → s.pwr.tripHold = false →
      s.mgmt.stop = false → s.mgmt.run = true → ∃ t, exec .warmResetResume s = .next t ∧ t.mgmt.warming = false ∧ t.mgmt.phase = .warmup ∧
        t.mem.il = [] ∧ (∀ k : Fin 8, 2 ≤ k.val → (t.mem.stack.get k).up = false) ∧ ∀ q, (t.q q).tail = (t.q q).head ∧ (t.q q).rings = []) ∧
    (s.mgmt.phase ≠ .reset → ∀ i ∈ [Instr.mgmtRestart, Instr.mgmtWatchdogExpiry], ∃ t, exec i s = .next t ∧
      t.mgmt.restarting = true ∧ t.sec.sessions = [] ∧ t.spindles = s.spindles ∧ t.mem = s.mem) ∧
    exec .mgmtRestartEnd s = .next { s with mgmt := { s.mgmt with restarting := false } }

/-- Bring-up (18 R484, R485, R488 to R490, R492, R496, R504; 09 R233; 19 R519, R530): RESET_N rises, the clocks lock when
the reference is there, rails out of range or TEST_EN hold the device in reset, the slot tried first boots if it passes its
checks, else the other one, else the device is in RECOVERY (which is tried first and `FALLBACK` are DEDUCED, log 165); the
firmware's start takes the first whole copy of the board's settings and a good copy of the trim table and begins phase MGMT
with its keys loaded; two stacks and a skein begin warm-up, and no other part comes before; all of them and the far tier full
service with the interleave mapped (far links, reset line and `CXL_CLKOUT`: log 146); a device ordered to stop is STOPPED until
both sides say RUN, and then leaves P3. -/
def Obligations.BringUp : Prop :=
  ∀ (g : PowerGood) (misread lost : BitVec 2) (copies : List CfgCopy) (s : State),
    let done (k : Fin 8) : Prop := (s.mem.stack.get k).trained = true ∨ (s.mem.stack.get k).lost = true
    let held (m : Mgmt) : Prop := m.clockLost = true ∨ m.railsOk = false ∨ m.testEn = true
    (s.mgmt.phase = .reset → s.mgmt.resetN = false → ∃ t, exec (.resetNRise g) s = .next t ∧ t.mgmt.resetN = true ∧
      t.mgmt.clockLost = !g.refclk ∧ t.mgmt.railsOk = g.rails ∧ t.mgmt.testEn = g.testEn ∧ t.mgmt.phase = .reset) ∧
    (s.mgmt.phase = .reset → s.mgmt.resetN = true → held s.mgmt → exec (.whorlLockRetry g) s = .next { s with
      mgmt := { s.mgmt with clockLost := !g.refclk, railsOk := g.rails, testEn := g.testEn } }) ∧
    (s.mgmt.phase = .reset → s.mgmt.resetN = false ∨ held s.mgmt →
      exec (.bringupPhaseAdvance (.firmware misread copies lost)) s = .next s) ∧
    (s.mgmt.phase = .reset → s.mgmt.resetN = true → ¬ held s.mgmt → s.mgmt.skeinsUp = 0 →
      let boots (b : Bool) (img : List Byte) : Prop :=
        misread.getLsbD b.toNat = false ∧ slotImage s.mgmt b = some img ∧ slotBoots s.mgmt img = true
      let first := s.mgmt.lastB != s.mgmt.marked
      ((∀ b img, ¬ boots b img) → exec (.bringupPhaseAdvance (.firmware misread copies lost)) s =
        .next { s with mgmt := { s.mgmt with phase := .recovery } }) ∧
      (∀ b img, boots b img → (b = first ∨ ∀ i, ¬ boots first i) →
        ∃ t, exec (.bringupPhaseAdvance (.firmware misread copies lost)) s = .next t ∧
        t.mgmt.phase = .mgmt ∧ t.mgmt.slot = b ∧ t.mgmt.fallback = (b != first) ∧ t.mgmt.lastB = b ∧
        t.mgmt.fwHash = Config.sha384 img ∧ (t.sec.keys.get 2).st = .loaded ∧
        (t.sec.keys.get 3).st = .loaded ∧ (s.sec.stale = true → t.sec.ctr = s.sec.ctr + 1) ∧
        (t.mgmt.calValid = true ↔ ∃ i : Fin 2, lost.getLsbD i.val = false ∧ (s.mgmt.trims.get i).good = true) ∧
        ((∀ c ∈ copies, c.crc ≠ crc32c (Config.cfgBytes c.cfg)) →
          t.mgmt.cfgDefault = true ∧ t.eth.mode = s.eth.mode ∧ ∀ r, (t.pwr.rails.get r).missing = true) ∧
        (∀ bad c rest, copies = bad ++ c :: rest → (∀ x ∈ bad, x.crc ≠ crc32c (Config.cfgBytes x.cfg)) →
          c.crc = crc32c (Config.cfgBytes c.cfg) → t.mgmt.cfgDefault = false ∧ t.eth.mode = c.cfg.mode ∧
          t.mgmt.sbAddr = c.cfg.sbAddr ∧ t.mem.bifur = c.cfg.bifur ∧ t.sec.scrubMode = c.cfg.scrub ∧
          t.pwr.pmbus = c.cfg.pmbus ∧ t.pwr.avs = c.cfg.avs) ∧
        (∀ i : Fin 2, (t.mem.far.get i).link = .training ∧ (t.mem.far.get i).perst = false) ∧
        ∀ p : Fin 32, p.val < portCount t.eth.mode → (s.port p).cfg.enable = true →
          (s.port p).failed = false → (s.port p).retired = false → (t.port p).link = .training)) ∧
    (bootPhase s = .mgmt → warmReady s = false →
      (∀ (k : Fin 8) c, 2 ≤ k.val → exec (.bringupPhaseAdvance (.stack k c)) s = .next s) ∧
      (∀ (k : Fin 8) sp fl, k ≠ 0 → exec (.bringupPhaseAdvance (.skein k sp fl)) s = .next s)) ∧
    (bootPhase s = .mgmt → s.mgmt.warming = false → done 0 → done 1 → s.mgmt.skeinsUp.getLsbD 0 = false →
      halted s = false → ∀ sp fl, ∃ t, exec (.bringupPhaseAdvance (.skein 0 sp fl)) s = .next t ∧
        t.mgmt.phase = .warmup ∧ t.mgmt.skeinsUp = s.mgmt.skeinsUp ||| 1) ∧
    (bootPhase s = .warmup → s.mgmt.warming = false → s.mgmt.skeinsUp = 0xFF → (∀ k, done k) → s.mgmt.cxlDone = true →
      halted s = false → ∃ t, exec .fullService s = .next t ∧ t.mgmt.phase = .full ∧
        (∀ k : Fin 8, (t.mem.stack.get k).up = ((s.mem.stack.get k).trained && !(s.mem.stack.get k).lost)) ∧
        (∀ i : Fin 2, (s.mem.far.get i).gib = 0 → (t.mem.far.get i).clkOut = false) ∧
        (s.mem.rebuildDue = false → s.mem.ilKept ≠ [] → t.mem.il = s.mem.ilKept) ∧
        (s.mem.rebuildDue = false → s.mem.ilKept = [] →
          (∀ k : Fin 8, (s.mem.stack.get k).trained = true ∧ (s.mem.stack.get k).lost = false) →
          t.mem.il = List.finRange 8)) ∧
    (s.mgmt.phase = .full ∨ s.mgmt.phase = .warmup → ∃ t, exec (.mgmtStop true) s = .next t ∧ t.mgmt.phase = .stopped ∧
      t.mgmt.resume = s.mgmt.phase ∧ t.pwr.pstate = .p3) ∧
    (s.mgmt.phase = .stopped → s.mgmt.run = true → s.pwr.stopped = false → s.mgmt.resume ≠ .stopped → s.pwr.pstate = .p3 →
      ∃ t, exec (.mgmtStop false) s = .next t ∧ t.mgmt.phase = s.mgmt.resume ∧ t.pwr.exiting = true)

/-- Firmware and trim tables (18 R484, R486, R487, R493 to R497): an image or a table that fails a check has its status and
changes nothing in use (their order is log 122, how a mark shows log 71); a good image is written to the slot that does not run,
under the FIRMWARE key of its version, and marked once stored; a confirmed version is the least; a good table is written to the
copy not in use, and in use once written (the places of its fields are log 172).
Units of the retire list and fault records (18 R508, R512 to R514): a flyer leaves service by an order, an order on a part
outside the table is REFUSED, a listed part is restored only after its self-test (which parts are listed is log 60, what an
order shows while another runs log 124), and a spindle retired before it has joined stays out (the model's choice, log 170); a
record closes only when the word written is its first one and it is of no page fault. -/
def Obligations.FirmwareAndUnits : Prop :=
  (∀ s : State,
     let m := s.mgmt
     let img := cellsRead m.win 0x9000000 (min m.fwLen 0x1000000)
     let table := cellsRead m.win 0x80A0000 65536
     (m.fwStage = none →
       (imageStatus m img = .ok → exec .fwStage s = .next { s with mgmt := { m with
         fwStage := some img, marked := false, flash := upd m.flash (if m.slot = true then 0 else 1) .torn } }) ∧
       (imageStatus m img ≠ .ok → ∃ t, exec .fwStage s = .next t ∧ t.mgmt.fwRes = imageStatus m img ∧
         t.mgmt.fwStage = none ∧ t.mgmt.marked = m.marked)) ∧
     (∀ same img, m.fwStage = some img → ∃ t, exec (.fwStageDone same) s = .next t ∧ t.mgmt.fwStage = none ∧
       t.mgmt.marked = same ∧ t.mgmt.fwRes = (if same = true then .ok else .faulted) ∧
       t.mgmt.flash = if same = true then upd m.flash (if m.slot = true then 0 else 1)
         (.image img (firmwareKey (Config.imageSvn img))) else m.flash) ∧
     (m.phase = .full → ∃ t, exec .fwConfirm s = .next t ∧ t.mgmt.fwRes = .ok ∧
       t.mgmt.minSvn = if m.minSvn < m.svn then min 255 m.svn else m.minSvn) ∧
     exec .fwCancel s = .next { s with mgmt := { m with marked := false, fwRes := .ok } } ∧
     (m.trimBusy = false →
       (trimStatus s table = .ok → ∃ t, exec .trimWrite s = .next t ∧ t.mgmt.trimBusy = true ∧
         trimCopy t.mgmt = trimCopy m ∧ t.mgmt.trims.get (otherTrim m) = .torn ∧
         t.mgmt.trimNew = some (table, cellsRead m.win 0x80B0000 128 == trailerOf table)) ∧
       (trimStatus s table ≠ .ok →
         exec .trimWrite s = .next { s with mgmt := { m with trimRes := trimStatus s table } })) ∧
     (∀ tb fac, m.trimNew = some (tb, fac) → ∃ t, exec .trimWriteDone s = .next t ∧ trimCopy t.mgmt = .table tb fac ∧
       t.mgmt.trims.get (otherTrim t.mgmt) = trimCopy m ∧ (∀ r, (t.pwr.rails.get r).gain = 0) ∧ t.mgmt.trimBusy = false ∧ t.mgmt.calValid = true ∧ t.mgmt.calFactory = fac ∧ t.mgmt.trimRes = .ok)) ∧
  (∀ (k : Fin 8) (f : Fin 4) (c : Fin 256) (slot : Fin 256) (s : State),
     let y := (s.sk k).fly.get f
     (s.mgmt.unit.busy = false →
       (y.failed = false → y.retired = false → ∃ t, exec (.retire (.flyer k f)) s = .next t ∧
         (t.sk k).fly.get f = { y with retired := true } ∧ t.mgmt.unit.result = .ok) ∧
       (∀ p : Fin 136, (s.sk (skeinOf p)).changes.contains (.join (localOf p)) = true → ∃ t,
         exec (.retire (.spindle p)) s = .next t ∧ t.mgmt.unit.result = .ok ∧
         (t.sk (skeinOf p)).changes.contains (.join (localOf p)) = false ∧
         (t.sk (skeinOf p)).healthy = (s.sk (skeinOf p)).healthy) ∧
       (∀ u i, exec (.retire (.other u i)) s = .next { s with mgmt := { s.mgmt with unit := ⟨u, i, false, .refused, u, i⟩ } }) ∧
       (listed s (.channel c) = true → ∃ t, exec (.restore (.channel c)) s = .next t ∧ t.mgmt.unit.busy = true ∧
         (t.mem.chan.get c).st = .restoring) ∧
       (∀ u, listed s u = false → ∃ t, exec (.restore u) s = .next t ∧ t.mgmt.unit.busy = false ∧
         t.mgmt.unit.result = .refused ∧ t.mem = s.mem ∧ t.skeins = s.skeins)) ∧
     (s.mgmt.unit.busy = true → ∀ u, ∀ i ∈ [Instr.retire u, Instr.restore u], exec i s = .next { s with mgmt := { s.mgmt with
       unit := { s.mgmt.unit with unit := (UnitRef.code u).1, index := (UnitRef.code u).2 } } }) ∧
     (s.mgmt.unit.busy = true → s.mgmt.unit.runUnit = 2 → s.mgmt.unit.runIndex = 4 * k.val + f.val →
       ∃ t, exec (.restoreSelftestDone true) s = .next t ∧ t.mgmt.unit.busy = false ∧ t.mgmt.unit.result = .ok ∧
         ((t.sk k).fly.get f).failed = false ∧ ((t.sk k).fly.get f).retired = false) ∧
     (s.mgmt.unit.busy = true → ∃ t, exec (.restoreSelftestDone false) s = .next t ∧ t.mgmt.unit.busy = false ∧
       t.mgmt.unit.result = .faulted ∧ t.skeins = s.skeins) ∧
     (∀ r, s.mgmt.faults.find? (fun r => r.slot = slot.val) = some r →
       (r.isPage = false → r.words.getD 0 0 = s.mgmt.ackWord → exec (.faultAck slot) s =
         .next { s with mgmt := { s.mgmt with faults := s.mgmt.faults.filter fun r => r.slot != slot.val } }) ∧
       (r.isPage = true ∨ r.words.getD 0 0 ≠ s.mgmt.ackWord → exec (.faultAck slot) s = .next s)))

/-- The sideband (18 R501 to R505, R507): a transaction with a wrong PEC is answered with NACK and changes nothing; each
code answers what it names or does what it orders; an image that passes its checks stands in slot A and the device boots; held
lines set their event bits, and with PMBus's the readings of every rail are missing. -/
def Obligations.Sideband : Prop :=
  ∀ s : State, s.mgmt.phase ≠ .reset → s.mgmt.restarting = false →
    let tells (i : Instr) (o : Out) : Prop := exec i s = .next (s.say o)
    tells (.sbId false) (.nack 0x00) ∧ tells (.sbCap false (some 200)) (.nack 0x10) ∧
    tells (.sbId true) (.sideband 0x00 [Config.fuseId.toNat, s.mgmt.fwVersion.toNat]) ∧
    tells (.sbStatus true) (.sideband 0x01 [sbStatusWord s]) ∧ tells (.sbPower true) (.sideband 0x02 [s.pwr.pkgW]) ∧
    tells (.sbTemp true) (.sideband 0x03 [s.pwr.inlet, tjMax s, stackMax s]) ∧
    tells (.sbCap true none) (.sideband 0x10 [s.pwr.boardCap]) ∧
    (∀ w : BitVec 16, (200 ≤ w.toNat ∧ w.toNat ≤ 850 → ∃ t, exec (.sbCap true (some w)) s = .next t ∧
        t.pwr.boardCap = w.toNat ∧ t.out = .sideband 0x10 [] :: s.out) ∧
      (w.toNat < 200 ∨ 850 < w.toNat → tells (.sbCap true (some w)) (.nack 0x10))) ∧
    tells (.sbRun true none) (.sideband 0x11 [b2n s.mgmt.run]) ∧
    (∃ t, exec (.sbRun true (some 0)) s = .next t ∧ t.mgmt.run = false ∧ t.out = .sideband 0x11 [] :: s.out) ∧
    (∃ t, exec (.sbWake true 1) s = .next t ∧ t.out = .sideband 0x12 [] :: s.out ∧
      (s.pwr.pstate = .p3 ∨ s.pwr.pstate = .p4 → s.mgmt.phase ≠ .stopped → t.pwr.exiting = true)) ∧
    (s.mgmt.warming = false → s.mgmt.phase ≠ .recovery → ∃ t, exec (.sbWarmReset true 0xA5) s = .next t ∧
      t.mgmt.warming = true ∧ t.mgmt.warms = s.mgmt.warms + 1) ∧
    (∃ t, exec (.sbMgmtRestart true 0x5A) s = .next t ∧ t.mgmt.restarting = true ∧ t.sec.sessions = []) ∧
    tells (.sbFault true) (.sideband 0x20 ((sbRecord s).map (·.toNat))) ∧
    tells (.sbEvents true none) (.sideband 0x21 [s.mgmt.sbEvents.toNat]) ∧
    (∀ w : BitVec 16, exec (.sbEvents true (some w)) s = .next (State.say { s with mgmt :=
      { s.mgmt with sbEvents := s.mgmt.sbEvents &&& ~~~(w.setWidth 3) } } (.sideband 0x21 []))) ∧
    (∀ data : List Byte, data.length = 32 → s.mgmt.recovered + 32 ≤ 0x1000000 → s.mgmt.phase = .recovery →
      let win := cellsWrite s.mgmt.win (0x9000000 + s.mgmt.recovered) data
      s.mgmt.recovered + 32 < Config.imageLen (cellsRead win 0x9000000 (s.mgmt.recovered + 32)) →
      exec (.sbRecovery true data) s = .next (State.say
        { s with mgmt := { s.mgmt with recovered := s.mgmt.recovered + 32, win } } (.sideband 0x30 []))) ∧
    (∀ data : List Byte, data.length = 32 → s.mgmt.recovered + 32 ≤ 0x1000000 → s.mgmt.phase = .recovery →
      let img := cellsRead (cellsWrite s.mgmt.win (0x9000000 + s.mgmt.recovered) data) 0x9000000 (s.mgmt.recovered + 32)
      Config.imageLen img ≤ s.mgmt.recovered + 32 → slotBoots s.mgmt img = true →
      ∃ t, exec (.sbRecovery true data) s = .next t ∧ t.mgmt.phase = .reset ∧ t.mgmt.lastB = false ∧ t.mgmt.marked = false ∧
        t.mgmt.flash.get 0 = .image img (firmwareKey (Config.imageSvn img))) ∧
    (∀ code : BitVec 8, tells (.otherSidebandCode code) (.nack code.toNat)) ∧
    (∀ clk : Bool, ∃ t, exec (.smbusLineHeld clk) s = .next t ∧
      t.mgmt.sbEvents = s.mgmt.sbEvents ||| (if clk = true then 2 else 1)) ∧
    (∃ t, exec .pmbusLineHeld s = .next t ∧ t.mgmt.sbEvents = s.mgmt.sbEvents ||| 4 ∧
      ∀ r, (t.pwr.rails.get r).missing = true)

/-- The register space (00 R11 to R13, R532): words of a staged group wait for its commit, the orders do what their
commands do, a write that is not aligned or is of a read-only register changes nothing. -/
def Obligations.RegisterWrites : Prop :=
  ∀ (v : Word) (s : State),
    (∀ (q : Fin 4096) (o : Nat), o = 0x00 ∨ o = 0x08 ∨ o = 0x10 →
      exec (.registerWrite (0x100000 + 0x80 * q.val + o) v) s =
        .next (s.setQ q { s.q q with staged := stageWord (s.q q).staged o v })) ∧
    (∀ q : Fin 4096, v.getLsbD 0 = true →
      exec (.registerWrite (0x100000 + 0x80 * q.val + 0x18) v) s = exec (.queueCommit q) s) ∧
    (∀ q : Fin 4096, exec (.registerWrite (0x40000 + 8 * q.val) v) s =
      .next (s.setQ q { s.q q with quotaSt := some v })) ∧
    (∀ (n : Fin 2048) (o : Nat), o = 0x00 ∨ o = 0x08 ∨ o = 0x10 →
      exec (.registerWrite (0x2000000 + 0x40 * n.val + o) v) s =
        .next (s.setStrand n { s.strand n with staged := stageWord (s.strand n).staged o v })) ∧
    (v.getLsbD 0 = true → ∀ x ∈ [(0x2088, Instr.memErrCommit), (0x7008, .ethCommit), (0x8008, .twineCommit),
        (0xB400, .peerCommit), (0xC058, .scrubCommit), (0xD008, .pwrCommit), (0xE040, .trimWrite),
        (0x48000, .creelQuotaCommit)],
      exec (.registerWrite x.1 v) s = exec x.2 s) ∧
    (v.getLsbD 0 = true → v.getLsbD 1 = false → exec (.registerWrite 0xE008 v) s = exec .warm s) ∧
    exec (.registerWrite 0xE010 v) s = exec (.mgmtStop (v.getLsbD 0)) s ∧
    exec (.registerWrite 0x7010 v) s = exec (.wakeEnWrite v) s ∧
    exec (.registerWrite 0xE030 v) s = .next { s with mgmt := { s.mgmt with ackWord := v } } ∧
    (∀ off, off % 8 ≠ 0 → exec (.registerWrite off v) s = .next s) ∧
    (∀ off ∈ [0x2000, 0x3A00, 0x5000, 0x6000, 0xC000, 0xC008, 0xD080, 0xE000, 0xE018],
      exec (.registerWrite off v) s = .next s)

/-- Every byte list of the state is canonical at reset (the model's form of memory, log 2). -/
def Obligations.ResetCanonical : Prop := State.reset.canonical

/-- Every step keeps every byte list of the state canonical: addresses rise and no entry holds what an unlisted address
reads as (the model's form of memory, log 2). -/
def Obligations.StepKeepsCanonical : Prop :=
  ∀ s t : State, s.canonical → step s = .next t → t.canonical

/-- A command changes neither the queue of the commands that wait nor the time (the model's own, log 1), and the tenancy
counter never falls (16 R432). -/
def Obligations.CommandsKeepQueue : Prop :=
  ∀ (c : Instr) (s t : State), exec c s = .next t → t.pending = s.pending ∧ t.now = s.now ∧ s.sec.ctr ≤ t.sec.ctr
end

