-- ==== Sys2Proof/Laws/Memory.lean ====
section
/-!
SUPPORT. The canonical byte lists: every operation keeps the form, a read after a write of its address gives the byte
written, and a write leaves every other address alone.
-/

namespace Sys2Proof.Machine

/-- The first address of a canonical list lies below the others; entries are not 0. -/
theorem wf_cons {k : Nat} {b : Byte} {m : List Host.Cell} :
    Memory.wf ((k, b) :: m) = true ↔ b ≠ 0 ∧ (∀ x ∈ m.head?, k < x.1) ∧ Memory.wf m = true := by
  cases m with
  | nil => simp [Memory.wf]
  | cons y m => simp [Memory.wf, and_assoc, and_left_comm]

theorem wf_tail {x : Host.Cell} {m : List Host.Cell} (h : Memory.wf (x :: m) = true) : Memory.wf m = true :=
  (wf_cons.mp h).2.2

/-- No address at or below the one before a canonical list is listed. -/
theorem cellGet_below {m : List Host.Cell} {a : Nat} (h : Memory.wf m = true) (ha : ∀ x ∈ m.head?, a < x.1) :
    cellGet m a = 0 := by
  induction m with
  | nil => rfl
  | cons x m ih =>
    obtain ⟨k, b⟩ := x
    have hk : a < k := ha (k, b) rfl
    obtain ⟨-, h1, h2⟩ := wf_cons.mp h
    rw [cellGet, if_neg (by omega)]
    exact ih h2 fun x hx => by have := h1 x hx; omega

/-- The head of a list after a write is the old head or the address written. -/
theorem cellSet_head {m : List Host.Cell} {a : Nat} {b : Byte} {n : Nat} (hm : ∀ x ∈ m.head?, n < x.1)
    (h : Memory.wf m = true) (ha : n < a) : ∀ x ∈ (cellSet m a b).head?, n < x.1 := by
  cases m with
  | nil => unfold cellSet; split <;> simp [ha]
  | cons y m =>
    obtain ⟨k, c⟩ := y
    have hk : n < k := hm (k, c) rfl
    obtain ⟨-, h1, -⟩ := wf_cons.mp h
    have tl : ∀ x ∈ m.head?, n < x.1 := fun x hx => by have := h1 x hx; omega
    unfold cellSet
    split
    · split
      · exact hm
      · simp [ha]
    · split
      · split
        · exact tl
        · simp [ha]
      · simp [hk]

/-- A write keeps the canonical form. -/
theorem wf_cellSet {m : List Host.Cell} (h : Memory.wf m = true) (a : Nat) (b : Byte) :
    Memory.wf (cellSet m a b) = true := by
  induction m with
  | nil =>
    unfold cellSet
    split
    · rfl
    · next hb => simpa [Memory.wf] using hb
  | cons x m ih =>
    obtain ⟨k, c⟩ := x
    obtain ⟨hc, h1, h2⟩ := wf_cons.mp h
    unfold cellSet
    split
    · next hk =>
      split
      · exact h
      · next hb => exact wf_cons.mpr ⟨hb, by simpa using hk, h⟩
    · split
      · next hk =>
        split
        · exact h2
        · next hb => exact wf_cons.mpr ⟨hb, by subst hk; exact h1, h2⟩
      · exact wf_cons.mpr ⟨hc, cellSet_head h1 h2 (by omega), ih h2⟩

/-- The byte read after a write. -/
theorem cellGet_cellSet {m : List Host.Cell} (h : Memory.wf m = true) (a : Nat) (b : Byte) (i : Nat) :
    cellGet (cellSet m a b) i = if i = a then b else cellGet m i := by
  induction m with
  | nil =>
    unfold cellSet
    split
    · next hb => simp [cellGet, hb]
    · by_cases hi : i = a
      · simp [cellGet, hi]
      · simp [cellGet, hi, Ne.symm hi]
  | cons x m ih =>
    obtain ⟨k, c⟩ := x
    obtain ⟨-, h1, h2⟩ := wf_cons.mp h
    unfold cellSet
    split
    · next hk =>
      have z : cellGet ((k, c) :: m) a = 0 := cellGet_below h (by simpa using hk)
      split
      · next hb => by_cases hi : i = a <;> simp_all
      · by_cases hi : i = a
        · simp [cellGet, hi]
        · simp [cellGet, hi, Ne.symm hi]
    · split
      · next hk =>
        subst hk
        have z : cellGet m a = 0 := cellGet_below h2 h1
        split
        · next hb =>
          by_cases hi : i = a
          · simp [hi, hb, z]
          · simp [cellGet, hi, Ne.symm hi]
        · by_cases hi : i = a
          · simp [cellGet, hi]
          · simp [cellGet, hi, Ne.symm hi]
      · by_cases hk : k = i
        · subst hk; simp [cellGet, show k ≠ a by omega]
        · simp [cellGet, hk, ih h2]

/-- Writing consecutive bytes keeps the canonical form. -/
theorem wf_cellsWrite {m : List Host.Cell} (h : Memory.wf m = true) (a : Nat) (bs : List Byte) :
    Memory.wf (cellsWrite m a bs) = true := by
  induction bs generalizing m a with
  | nil => exact h
  | cons b bs ih => exact ih (wf_cellSet h a b) (a + 1)

/-- The byte read after a write of consecutive bytes. -/
theorem cellGet_cellsWrite {m : List Host.Cell} (h : Memory.wf m = true) (a : Nat) (bs : List Byte) (i : Nat) :
    cellGet (cellsWrite m a bs) i = if a ≤ i then bs.getD (i - a) (cellGet m i) else cellGet m i := by
  induction bs generalizing m a with
  | nil => simp [cellsWrite]
  | cons b bs ih =>
    rw [cellsWrite, ih (wf_cellSet h a b), cellGet_cellSet h]
    by_cases h1 : a + 1 ≤ i
    · obtain ⟨d, rfl⟩ := Nat.exists_eq_add_of_le h1
      have e : a + 1 + d - a = d + 1 := by omega
      simp [show a + 1 + d ≠ a by omega, show a ≤ a + 1 + d by omega, e]
    · by_cases h2 : i = a
      · subst h2; simp
      · simp [h2, show ¬ a ≤ i by omega, show ¬ a + 1 ≤ i by omega]

/-- Consecutive bytes read. -/
theorem cellsRead_length (m : List Host.Cell) (a n : Nat) : (cellsRead m a n).length = n := by
  simp [cellsRead]

/-- Every address of a canonical list is above a number below its first. -/
theorem wf_above {m : List Host.Cell} {n : Nat} (h : Memory.wf m = true) (hn : ∀ x ∈ m.head?, n < x.1) :
    ∀ x ∈ m, n < x.1 := by
  induction m with
  | nil => simp
  | cons y m ih =>
    intro z hz
    rcases List.mem_cons.mp hz with rfl | hz
    · exact hn _ rfl
    · obtain ⟨-, h1, h2⟩ := wf_cons.mp h
      have := hn y rfl
      exact ih h2 (fun w hw => by have := h1 w hw; omega) z hz

/-- Taking entries out of a canonical list leaves a canonical list. -/
theorem wf_filter {m : List Host.Cell} (h : Memory.wf m = true) (f : Host.Cell → Bool) :
    Memory.wf (m.filter f) = true := by
  induction m with
  | nil => rfl
  | cons x m ih =>
    obtain ⟨k, b⟩ := x
    obtain ⟨hb, h1, h2⟩ := wf_cons.mp h
    by_cases hf : f (k, b) = true
    · rw [List.filter_cons_of_pos hf]
      exact wf_cons.mpr ⟨hb, fun x hx =>
        wf_above h2 h1 x (List.mem_filter.mp (List.mem_of_mem_head? hx)).1, ih h2⟩
    · rw [List.filter_cons_of_neg hf]
      exact ih h2

end Sys2Proof.Machine
end

