-- ==== Sys2Proof/Laws/State.lean ====
section
/-!
SUPPORT. What each update of the state leaves and what it sets: one lemma per field and update, true by unfolding.
-/

namespace Sys2Proof.Machine

/-- The later of two replacements of one entry stands. -/
@[simp] theorem upd_upd {α : Type} {n : Nat} (v : Vector α n) (i : Fin n) (x y : α) :
    upd (upd v i x) i y = upd v i y := by
  simp [upd]

variable (s : State)

@[simp] theorem State.setSp_skeins (p : Fin 136) (x : Spindle) : (s.setSp p x).skeins = s.skeins := rfl
@[simp] theorem State.setSp_mem (p : Fin 136) (x : Spindle) : (s.setSp p x).mem = s.mem := rfl
@[simp] theorem State.setSp_sweeps (p : Fin 136) (x : Spindle) : (s.setSp p x).sweeps = s.sweeps := rfl
@[simp] theorem State.setSp_trans (p : Fin 136) (x : Spindle) : (s.setSp p x).trans = s.trans := rfl
@[simp] theorem State.setSp_queues (p : Fin 136) (x : Spindle) : (s.setSp p x).queues = s.queues := rfl
@[simp] theorem State.setSp_quotaRes (p : Fin 136) (x : Spindle) : (s.setSp p x).quotaRes = s.quotaRes := rfl
@[simp] theorem State.setSp_kernels (p : Fin 136) (x : Spindle) : (s.setSp p x).kernels = s.kernels := rfl
@[simp] theorem State.setSp_jrn (p : Fin 136) (x : Spindle) : (s.setSp p x).jrn = s.jrn := rfl
@[simp] theorem State.setSp_twine (p : Fin 136) (x : Spindle) : (s.setSp p x).twine = s.twine := rfl
@[simp] theorem State.setSp_eth (p : Fin 136) (x : Spindle) : (s.setSp p x).eth = s.eth := rfl
@[simp] theorem State.setSp_ply (p : Fin 136) (x : Spindle) : (s.setSp p x).ply = s.ply := rfl
@[simp] theorem State.setSp_sec (p : Fin 136) (x : Spindle) : (s.setSp p x).sec = s.sec := rfl
@[simp] theorem State.setSp_pwr (p : Fin 136) (x : Spindle) : (s.setSp p x).pwr = s.pwr := rfl
@[simp] theorem State.setSp_mgmt (p : Fin 136) (x : Spindle) : (s.setSp p x).mgmt = s.mgmt := rfl
@[simp] theorem State.setSp_out (p : Fin 136) (x : Spindle) : (s.setSp p x).out = s.out := rfl
@[simp] theorem State.setSp_now (p : Fin 136) (x : Spindle) : (s.setSp p x).now = s.now := rfl
@[simp] theorem State.setSp_free (p : Fin 136) (x : Spindle) : (s.setSp p x).free = s.free := rfl
@[simp] theorem State.setSp_pending (p : Fin 136) (x : Spindle) : (s.setSp p x).pending = s.pending := rfl
@[simp] theorem State.setSp_sk (p : Fin 136) (x : Spindle) (i : Fin 8) : (s.setSp p x).sk i = s.sk i := rfl
@[simp] theorem State.setSp_q (p : Fin 136) (x : Spindle) (i : Fin 4096) : (s.setSp p x).q i = s.q i := rfl
@[simp] theorem State.setSp_strand (p : Fin 136) (x : Spindle) (i : Fin 2048) : (s.setSp p x).strand i = s.strand i := rfl
@[simp] theorem State.setSp_port (p : Fin 136) (x : Spindle) (i : Fin 32) : (s.setSp p x).port i = s.port i := rfl
@[simp] theorem State.setSp_slot (p : Fin 136) (x : Spindle) (i : Fin 8) : (s.setSp p x).slot i = s.slot i := rfl
@[simp] theorem State.setSp_serving (p : Fin 136) (x : Spindle) : (s.setSp p x).serving = s.serving := rfl

@[simp] theorem State.setSk_spindles (k : Fin 8) (x : Skein) : (s.setSk k x).spindles = s.spindles := rfl
@[simp] theorem State.setSk_mem (k : Fin 8) (x : Skein) : (s.setSk k x).mem = s.mem := rfl
@[simp] theorem State.setSk_sweeps (k : Fin 8) (x : Skein) : (s.setSk k x).sweeps = s.sweeps := rfl
@[simp] theorem State.setSk_trans (k : Fin 8) (x : Skein) : (s.setSk k x).trans = s.trans := rfl
@[simp] theorem State.setSk_queues (k : Fin 8) (x : Skein) : (s.setSk k x).queues = s.queues := rfl
@[simp] theorem State.setSk_quotaRes (k : Fin 8) (x : Skein) : (s.setSk k x).quotaRes = s.quotaRes := rfl
@[simp] theorem State.setSk_kernels (k : Fin 8) (x : Skein) : (s.setSk k x).kernels = s.kernels := rfl
@[simp] theorem State.setSk_jrn (k : Fin 8) (x : Skein) : (s.setSk k x).jrn = s.jrn := rfl
@[simp] theorem State.setSk_twine (k : Fin 8) (x : Skein) : (s.setSk k x).twine = s.twine := rfl
@[simp] theorem State.setSk_eth (k : Fin 8) (x : Skein) : (s.setSk k x).eth = s.eth := rfl
@[simp] theorem State.setSk_ply (k : Fin 8) (x : Skein) : (s.setSk k x).ply = s.ply := rfl
@[simp] theorem State.setSk_sec (k : Fin 8) (x : Skein) : (s.setSk k x).sec = s.sec := rfl
@[simp] theorem State.setSk_pwr (k : Fin 8) (x : Skein) : (s.setSk k x).pwr = s.pwr := rfl
@[simp] theorem State.setSk_mgmt (k : Fin 8) (x : Skein) : (s.setSk k x).mgmt = s.mgmt := rfl
@[simp] theorem State.setSk_out (k : Fin 8) (x : Skein) : (s.setSk k x).out = s.out := rfl
@[simp] theorem State.setSk_now (k : Fin 8) (x : Skein) : (s.setSk k x).now = s.now := rfl
@[simp] theorem State.setSk_free (k : Fin 8) (x : Skein) : (s.setSk k x).free = s.free := rfl
@[simp] theorem State.setSk_pending (k : Fin 8) (x : Skein) : (s.setSk k x).pending = s.pending := rfl
@[simp] theorem State.setSk_sp (k : Fin 8) (x : Skein) (i : Fin 136) : (s.setSk k x).sp i = s.sp i := rfl
@[simp] theorem State.setSk_q (k : Fin 8) (x : Skein) (i : Fin 4096) : (s.setSk k x).q i = s.q i := rfl
@[simp] theorem State.setSk_strand (k : Fin 8) (x : Skein) (i : Fin 2048) : (s.setSk k x).strand i = s.strand i := rfl
@[simp] theorem State.setSk_port (k : Fin 8) (x : Skein) (i : Fin 32) : (s.setSk k x).port i = s.port i := rfl
@[simp] theorem State.setSk_slot (k : Fin 8) (x : Skein) (i : Fin 8) : (s.setSk k x).slot i = s.slot i := rfl
@[simp] theorem State.setSk_serving (k : Fin 8) (x : Skein) : (s.setSk k x).serving = s.serving := rfl

@[simp] theorem State.setQ_spindles (n : Fin 4096) (x : Queue) : (s.setQ n x).spindles = s.spindles := rfl
@[simp] theorem State.setQ_skeins (n : Fin 4096) (x : Queue) : (s.setQ n x).skeins = s.skeins := rfl
@[simp] theorem State.setQ_mem (n : Fin 4096) (x : Queue) : (s.setQ n x).mem = s.mem := rfl
@[simp] theorem State.setQ_sweeps (n : Fin 4096) (x : Queue) : (s.setQ n x).sweeps = s.sweeps := rfl
@[simp] theorem State.setQ_trans (n : Fin 4096) (x : Queue) : (s.setQ n x).trans = s.trans := rfl
@[simp] theorem State.setQ_quotaRes (n : Fin 4096) (x : Queue) : (s.setQ n x).quotaRes = s.quotaRes := rfl
@[simp] theorem State.setQ_kernels (n : Fin 4096) (x : Queue) : (s.setQ n x).kernels = s.kernels := rfl
@[simp] theorem State.setQ_jrn (n : Fin 4096) (x : Queue) : (s.setQ n x).jrn = s.jrn := rfl
@[simp] theorem State.setQ_twine (n : Fin 4096) (x : Queue) : (s.setQ n x).twine = s.twine := rfl
@[simp] theorem State.setQ_eth (n : Fin 4096) (x : Queue) : (s.setQ n x).eth = s.eth := rfl
@[simp] theorem State.setQ_ply (n : Fin 4096) (x : Queue) : (s.setQ n x).ply = s.ply := rfl
@[simp] theorem State.setQ_sec (n : Fin 4096) (x : Queue) : (s.setQ n x).sec = s.sec := rfl
@[simp] theorem State.setQ_pwr (n : Fin 4096) (x : Queue) : (s.setQ n x).pwr = s.pwr := rfl
@[simp] theorem State.setQ_mgmt (n : Fin 4096) (x : Queue) : (s.setQ n x).mgmt = s.mgmt := rfl
@[simp] theorem State.setQ_out (n : Fin 4096) (x : Queue) : (s.setQ n x).out = s.out := rfl
@[simp] theorem State.setQ_now (n : Fin 4096) (x : Queue) : (s.setQ n x).now = s.now := rfl
@[simp] theorem State.setQ_free (n : Fin 4096) (x : Queue) : (s.setQ n x).free = s.free := rfl
@[simp] theorem State.setQ_pending (n : Fin 4096) (x : Queue) : (s.setQ n x).pending = s.pending := rfl
@[simp] theorem State.setQ_sp (n : Fin 4096) (x : Queue) (i : Fin 136) : (s.setQ n x).sp i = s.sp i := rfl
@[simp] theorem State.setQ_sk (n : Fin 4096) (x : Queue) (i : Fin 8) : (s.setQ n x).sk i = s.sk i := rfl
@[simp] theorem State.setQ_strand (n : Fin 4096) (x : Queue) (i : Fin 2048) : (s.setQ n x).strand i = s.strand i := rfl
@[simp] theorem State.setQ_port (n : Fin 4096) (x : Queue) (i : Fin 32) : (s.setQ n x).port i = s.port i := rfl
@[simp] theorem State.setQ_slot (n : Fin 4096) (x : Queue) (i : Fin 8) : (s.setQ n x).slot i = s.slot i := rfl
@[simp] theorem State.setQ_serving (n : Fin 4096) (x : Queue) : (s.setQ n x).serving = s.serving := rfl

@[simp] theorem State.setMem_spindles (x : Mem) : (s.setMem x).spindles = s.spindles := rfl
@[simp] theorem State.setMem_skeins (x : Mem) : (s.setMem x).skeins = s.skeins := rfl
@[simp] theorem State.setMem_sweeps (x : Mem) : (s.setMem x).sweeps = s.sweeps := rfl
@[simp] theorem State.setMem_trans (x : Mem) : (s.setMem x).trans = s.trans := rfl
@[simp] theorem State.setMem_queues (x : Mem) : (s.setMem x).queues = s.queues := rfl
@[simp] theorem State.setMem_quotaRes (x : Mem) : (s.setMem x).quotaRes = s.quotaRes := rfl
@[simp] theorem State.setMem_kernels (x : Mem) : (s.setMem x).kernels = s.kernels := rfl
@[simp] theorem State.setMem_jrn (x : Mem) : (s.setMem x).jrn = s.jrn := rfl
@[simp] theorem State.setMem_twine (x : Mem) : (s.setMem x).twine = s.twine := rfl
@[simp] theorem State.setMem_eth (x : Mem) : (s.setMem x).eth = s.eth := rfl
@[simp] theorem State.setMem_ply (x : Mem) : (s.setMem x).ply = s.ply := rfl
@[simp] theorem State.setMem_sec (x : Mem) : (s.setMem x).sec = s.sec := rfl
@[simp] theorem State.setMem_pwr (x : Mem) : (s.setMem x).pwr = s.pwr := rfl
@[simp] theorem State.setMem_mgmt (x : Mem) : (s.setMem x).mgmt = s.mgmt := rfl
@[simp] theorem State.setMem_out (x : Mem) : (s.setMem x).out = s.out := rfl
@[simp] theorem State.setMem_now (x : Mem) : (s.setMem x).now = s.now := rfl
@[simp] theorem State.setMem_free (x : Mem) : (s.setMem x).free = s.free := rfl
@[simp] theorem State.setMem_pending (x : Mem) : (s.setMem x).pending = s.pending := rfl
@[simp] theorem State.setMem_mem (x : Mem) : (s.setMem x).mem = x := rfl
@[simp] theorem State.setMem_sp (x : Mem) (i : Fin 136) : (s.setMem x).sp i = s.sp i := rfl
@[simp] theorem State.setMem_sk (x : Mem) (i : Fin 8) : (s.setMem x).sk i = s.sk i := rfl
@[simp] theorem State.setMem_q (x : Mem) (i : Fin 4096) : (s.setMem x).q i = s.q i := rfl
@[simp] theorem State.setMem_strand (x : Mem) (i : Fin 2048) : (s.setMem x).strand i = s.strand i := rfl
@[simp] theorem State.setMem_port (x : Mem) (i : Fin 32) : (s.setMem x).port i = s.port i := rfl
@[simp] theorem State.setMem_slot (x : Mem) (i : Fin 8) : (s.setMem x).slot i = s.slot i := rfl
@[simp] theorem State.setMem_serving (x : Mem) : (s.setMem x).serving = s.serving := rfl

@[simp] theorem State.setTrans_spindles (x : Trans) : (s.setTrans x).spindles = s.spindles := rfl
@[simp] theorem State.setTrans_skeins (x : Trans) : (s.setTrans x).skeins = s.skeins := rfl
@[simp] theorem State.setTrans_mem (x : Trans) : (s.setTrans x).mem = s.mem := rfl
@[simp] theorem State.setTrans_sweeps (x : Trans) : (s.setTrans x).sweeps = s.sweeps := rfl
@[simp] theorem State.setTrans_queues (x : Trans) : (s.setTrans x).queues = s.queues := rfl
@[simp] theorem State.setTrans_quotaRes (x : Trans) : (s.setTrans x).quotaRes = s.quotaRes := rfl
@[simp] theorem State.setTrans_kernels (x : Trans) : (s.setTrans x).kernels = s.kernels := rfl
@[simp] theorem State.setTrans_jrn (x : Trans) : (s.setTrans x).jrn = s.jrn := rfl
@[simp] theorem State.setTrans_twine (x : Trans) : (s.setTrans x).twine = s.twine := rfl
@[simp] theorem State.setTrans_eth (x : Trans) : (s.setTrans x).eth = s.eth := rfl
@[simp] theorem State.setTrans_ply (x : Trans) : (s.setTrans x).ply = s.ply := rfl
@[simp] theorem State.setTrans_sec (x : Trans) : (s.setTrans x).sec = s.sec := rfl
@[simp] theorem State.setTrans_pwr (x : Trans) : (s.setTrans x).pwr = s.pwr := rfl
@[simp] theorem State.setTrans_mgmt (x : Trans) : (s.setTrans x).mgmt = s.mgmt := rfl
@[simp] theorem State.setTrans_out (x : Trans) : (s.setTrans x).out = s.out := rfl
@[simp] theorem State.setTrans_now (x : Trans) : (s.setTrans x).now = s.now := rfl
@[simp] theorem State.setTrans_free (x : Trans) : (s.setTrans x).free = s.free := rfl
@[simp] theorem State.setTrans_pending (x : Trans) : (s.setTrans x).pending = s.pending := rfl
@[simp] theorem State.setTrans_trans (x : Trans) : (s.setTrans x).trans = x := rfl
@[simp] theorem State.setTrans_sp (x : Trans) (i : Fin 136) : (s.setTrans x).sp i = s.sp i := rfl
@[simp] theorem State.setTrans_sk (x : Trans) (i : Fin 8) : (s.setTrans x).sk i = s.sk i := rfl
@[simp] theorem State.setTrans_q (x : Trans) (i : Fin 4096) : (s.setTrans x).q i = s.q i := rfl
@[simp] theorem State.setTrans_strand (x : Trans) (i : Fin 2048) : (s.setTrans x).strand i = s.strand i := rfl
@[simp] theorem State.setTrans_port (x : Trans) (i : Fin 32) : (s.setTrans x).port i = s.port i := rfl
@[simp] theorem State.setTrans_slot (x : Trans) (i : Fin 8) : (s.setTrans x).slot i = s.slot i := rfl
@[simp] theorem State.setTrans_serving (x : Trans) : (s.setTrans x).serving = s.serving := rfl

@[simp] theorem State.say_spindles (x : Out) : (s.say x).spindles = s.spindles := rfl
@[simp] theorem State.say_skeins (x : Out) : (s.say x).skeins = s.skeins := rfl
@[simp] theorem State.say_mem (x : Out) : (s.say x).mem = s.mem := rfl
@[simp] theorem State.say_sweeps (x : Out) : (s.say x).sweeps = s.sweeps := rfl
@[simp] theorem State.say_trans (x : Out) : (s.say x).trans = s.trans := rfl
@[simp] theorem State.say_queues (x : Out) : (s.say x).queues = s.queues := rfl
@[simp] theorem State.say_quotaRes (x : Out) : (s.say x).quotaRes = s.quotaRes := rfl
@[simp] theorem State.say_kernels (x : Out) : (s.say x).kernels = s.kernels := rfl
@[simp] theorem State.say_jrn (x : Out) : (s.say x).jrn = s.jrn := rfl
@[simp] theorem State.say_twine (x : Out) : (s.say x).twine = s.twine := rfl
@[simp] theorem State.say_eth (x : Out) : (s.say x).eth = s.eth := rfl
@[simp] theorem State.say_ply (x : Out) : (s.say x).ply = s.ply := rfl
@[simp] theorem State.say_sec (x : Out) : (s.say x).sec = s.sec := rfl
@[simp] theorem State.say_pwr (x : Out) : (s.say x).pwr = s.pwr := rfl
@[simp] theorem State.say_mgmt (x : Out) : (s.say x).mgmt = s.mgmt := rfl
@[simp] theorem State.say_now (x : Out) : (s.say x).now = s.now := rfl
@[simp] theorem State.say_free (x : Out) : (s.say x).free = s.free := rfl
@[simp] theorem State.say_pending (x : Out) : (s.say x).pending = s.pending := rfl
@[simp] theorem State.say_out (x : Out) : (s.say x).out = x :: s.out := rfl
@[simp] theorem State.say_sp (x : Out) (i : Fin 136) : (s.say x).sp i = s.sp i := rfl
@[simp] theorem State.say_sk (x : Out) (i : Fin 8) : (s.say x).sk i = s.sk i := rfl
@[simp] theorem State.say_q (x : Out) (i : Fin 4096) : (s.say x).q i = s.q i := rfl
@[simp] theorem State.say_strand (x : Out) (i : Fin 2048) : (s.say x).strand i = s.strand i := rfl
@[simp] theorem State.say_port (x : Out) (i : Fin 32) : (s.say x).port i = s.port i := rfl
@[simp] theorem State.say_slot (x : Out) (i : Fin 8) : (s.say x).slot i = s.slot i := rfl
@[simp] theorem State.say_serving (x : Out) : (s.say x).serving = s.serving := rfl

@[simp] theorem State.setStrand_spindles (n : Fin 2048) (x : Strand) : (s.setStrand n x).spindles = s.spindles := rfl
@[simp] theorem State.setStrand_skeins (n : Fin 2048) (x : Strand) : (s.setStrand n x).skeins = s.skeins := rfl
@[simp] theorem State.setStrand_mem (n : Fin 2048) (x : Strand) : (s.setStrand n x).mem = s.mem := rfl
@[simp] theorem State.setStrand_sweeps (n : Fin 2048) (x : Strand) : (s.setStrand n x).sweeps = s.sweeps := rfl
@[simp] theorem State.setStrand_trans (n : Fin 2048) (x : Strand) : (s.setStrand n x).trans = s.trans := rfl
@[simp] theorem State.setStrand_queues (n : Fin 2048) (x : Strand) : (s.setStrand n x).queues = s.queues := rfl
@[simp] theorem State.setStrand_quotaRes (n : Fin 2048) (x : Strand) : (s.setStrand n x).quotaRes = s.quotaRes := rfl
@[simp] theorem State.setStrand_kernels (n : Fin 2048) (x : Strand) : (s.setStrand n x).kernels = s.kernels := rfl
@[simp] theorem State.setStrand_jrn (n : Fin 2048) (x : Strand) : (s.setStrand n x).jrn = s.jrn := rfl
@[simp] theorem State.setStrand_eth (n : Fin 2048) (x : Strand) : (s.setStrand n x).eth = s.eth := rfl
@[simp] theorem State.setStrand_ply (n : Fin 2048) (x : Strand) : (s.setStrand n x).ply = s.ply := rfl
@[simp] theorem State.setStrand_sec (n : Fin 2048) (x : Strand) : (s.setStrand n x).sec = s.sec := rfl
@[simp] theorem State.setStrand_pwr (n : Fin 2048) (x : Strand) : (s.setStrand n x).pwr = s.pwr := rfl
@[simp] theorem State.setStrand_mgmt (n : Fin 2048) (x : Strand) : (s.setStrand n x).mgmt = s.mgmt := rfl
@[simp] theorem State.setStrand_out (n : Fin 2048) (x : Strand) : (s.setStrand n x).out = s.out := rfl
@[simp] theorem State.setStrand_now (n : Fin 2048) (x : Strand) : (s.setStrand n x).now = s.now := rfl
@[simp] theorem State.setStrand_free (n : Fin 2048) (x : Strand) : (s.setStrand n x).free = s.free := rfl
@[simp] theorem State.setStrand_pending (n : Fin 2048) (x : Strand) : (s.setStrand n x).pending = s.pending := rfl
@[simp] theorem State.setStrand_sp (n : Fin 2048) (x : Strand) (i : Fin 136) : (s.setStrand n x).sp i = s.sp i := rfl
@[simp] theorem State.setStrand_sk (n : Fin 2048) (x : Strand) (i : Fin 8) : (s.setStrand n x).sk i = s.sk i := rfl
@[simp] theorem State.setStrand_q (n : Fin 2048) (x : Strand) (i : Fin 4096) : (s.setStrand n x).q i = s.q i := rfl
@[simp] theorem State.setStrand_port (n : Fin 2048) (x : Strand) (i : Fin 32) : (s.setStrand n x).port i = s.port i := rfl
@[simp] theorem State.setStrand_slot (n : Fin 2048) (x : Strand) (i : Fin 8) : (s.setStrand n x).slot i = s.slot i := rfl
@[simp] theorem State.setStrand_serving (n : Fin 2048) (x : Strand) : (s.setStrand n x).serving = s.serving := rfl

@[simp] theorem State.setPort_spindles (p : Fin 32) (x : Port) : (s.setPort p x).spindles = s.spindles := rfl
@[simp] theorem State.setPort_skeins (p : Fin 32) (x : Port) : (s.setPort p x).skeins = s.skeins := rfl
@[simp] theorem State.setPort_mem (p : Fin 32) (x : Port) : (s.setPort p x).mem = s.mem := rfl
@[simp] theorem State.setPort_sweeps (p : Fin 32) (x : Port) : (s.setPort p x).sweeps = s.sweeps := rfl
@[simp] theorem State.setPort_trans (p : Fin 32) (x : Port) : (s.setPort p x).trans = s.trans := rfl
@[simp] theorem State.setPort_queues (p : Fin 32) (x : Port) : (s.setPort p x).queues = s.queues := rfl
@[simp] theorem State.setPort_quotaRes (p : Fin 32) (x : Port) : (s.setPort p x).quotaRes = s.quotaRes := rfl
@[simp] theorem State.setPort_kernels (p : Fin 32) (x : Port) : (s.setPort p x).kernels = s.kernels := rfl
@[simp] theorem State.setPort_jrn (p : Fin 32) (x : Port) : (s.setPort p x).jrn = s.jrn := rfl
@[simp] theorem State.setPort_twine (p : Fin 32) (x : Port) : (s.setPort p x).twine = s.twine := rfl
@[simp] theorem State.setPort_ply (p : Fin 32) (x : Port) : (s.setPort p x).ply = s.ply := rfl
@[simp] theorem State.setPort_sec (p : Fin 32) (x : Port) : (s.setPort p x).sec = s.sec := rfl
@[simp] theorem State.setPort_pwr (p : Fin 32) (x : Port) : (s.setPort p x).pwr = s.pwr := rfl
@[simp] theorem State.setPort_mgmt (p : Fin 32) (x : Port) : (s.setPort p x).mgmt = s.mgmt := rfl
@[simp] theorem State.setPort_out (p : Fin 32) (x : Port) : (s.setPort p x).out = s.out := rfl
@[simp] theorem State.setPort_now (p : Fin 32) (x : Port) : (s.setPort p x).now = s.now := rfl
@[simp] theorem State.setPort_free (p : Fin 32) (x : Port) : (s.setPort p x).free = s.free := rfl
@[simp] theorem State.setPort_pending (p : Fin 32) (x : Port) : (s.setPort p x).pending = s.pending := rfl
@[simp] theorem State.setPort_sp (p : Fin 32) (x : Port) (i : Fin 136) : (s.setPort p x).sp i = s.sp i := rfl
@[simp] theorem State.setPort_sk (p : Fin 32) (x : Port) (i : Fin 8) : (s.setPort p x).sk i = s.sk i := rfl
@[simp] theorem State.setPort_q (p : Fin 32) (x : Port) (i : Fin 4096) : (s.setPort p x).q i = s.q i := rfl
@[simp] theorem State.setPort_strand (p : Fin 32) (x : Port) (i : Fin 2048) : (s.setPort p x).strand i = s.strand i := rfl
@[simp] theorem State.setPort_slot (p : Fin 32) (x : Port) (i : Fin 8) : (s.setPort p x).slot i = s.slot i := rfl
@[simp] theorem State.setPort_serving (p : Fin 32) (x : Port) : (s.setPort p x).serving = s.serving := rfl

@[simp] theorem State.setSlot_spindles (k : Fin 8) (x : Ply) : (s.setSlot k x).spindles = s.spindles := rfl
@[simp] theorem State.setSlot_skeins (k : Fin 8) (x : Ply) : (s.setSlot k x).skeins = s.skeins := rfl
@[simp] theorem State.setSlot_mem (k : Fin 8) (x : Ply) : (s.setSlot k x).mem = s.mem := rfl
@[simp] theorem State.setSlot_sweeps (k : Fin 8) (x : Ply) : (s.setSlot k x).sweeps = s.sweeps := rfl
@[simp] theorem State.setSlot_trans (k : Fin 8) (x : Ply) : (s.setSlot k x).trans = s.trans := rfl
@[simp] theorem State.setSlot_queues (k : Fin 8) (x : Ply) : (s.setSlot k x).queues = s.queues := rfl
@[simp] theorem State.setSlot_quotaRes (k : Fin 8) (x : Ply) : (s.setSlot k x).quotaRes = s.quotaRes := rfl
@[simp] theorem State.setSlot_kernels (k : Fin 8) (x : Ply) : (s.setSlot k x).kernels = s.kernels := rfl
@[simp] theorem State.setSlot_jrn (k : Fin 8) (x : Ply) : (s.setSlot k x).jrn = s.jrn := rfl
@[simp] theorem State.setSlot_twine (k : Fin 8) (x : Ply) : (s.setSlot k x).twine = s.twine := rfl
@[simp] theorem State.setSlot_eth (k : Fin 8) (x : Ply) : (s.setSlot k x).eth = s.eth := rfl
@[simp] theorem State.setSlot_sec (k : Fin 8) (x : Ply) : (s.setSlot k x).sec = s.sec := rfl
@[simp] theorem State.setSlot_pwr (k : Fin 8) (x : Ply) : (s.setSlot k x).pwr = s.pwr := rfl
@[simp] theorem State.setSlot_mgmt (k : Fin 8) (x : Ply) : (s.setSlot k x).mgmt = s.mgmt := rfl
@[simp] theorem State.setSlot_out (k : Fin 8) (x : Ply) : (s.setSlot k x).out = s.out := rfl
@[simp] theorem State.setSlot_now (k : Fin 8) (x : Ply) : (s.setSlot k x).now = s.now := rfl
@[simp] theorem State.setSlot_free (k : Fin 8) (x : Ply) : (s.setSlot k x).free = s.free := rfl
@[simp] theorem State.setSlot_pending (k : Fin 8) (x : Ply) : (s.setSlot k x).pending = s.pending := rfl
@[simp] theorem State.setSlot_sp (k : Fin 8) (x : Ply) (i : Fin 136) : (s.setSlot k x).sp i = s.sp i := rfl
@[simp] theorem State.setSlot_sk (k : Fin 8) (x : Ply) (i : Fin 8) : (s.setSlot k x).sk i = s.sk i := rfl
@[simp] theorem State.setSlot_q (k : Fin 8) (x : Ply) (i : Fin 4096) : (s.setSlot k x).q i = s.q i := rfl
@[simp] theorem State.setSlot_strand (k : Fin 8) (x : Ply) (i : Fin 2048) : (s.setSlot k x).strand i = s.strand i := rfl
@[simp] theorem State.setSlot_port (k : Fin 8) (x : Ply) (i : Fin 32) : (s.setSlot k x).port i = s.port i := rfl
@[simp] theorem State.setSlot_serving (k : Fin 8) (x : Ply) : (s.setSlot k x).serving = s.serving := rfl

@[simp] theorem State.setMgmt_spindles (x : Mgmt) : (s.setMgmt x).spindles = s.spindles := rfl
@[simp] theorem State.setMgmt_skeins (x : Mgmt) : (s.setMgmt x).skeins = s.skeins := rfl
@[simp] theorem State.setMgmt_mem (x : Mgmt) : (s.setMgmt x).mem = s.mem := rfl
@[simp] theorem State.setMgmt_sweeps (x : Mgmt) : (s.setMgmt x).sweeps = s.sweeps := rfl
@[simp] theorem State.setMgmt_trans (x : Mgmt) : (s.setMgmt x).trans = s.trans := rfl
@[simp] theorem State.setMgmt_queues (x : Mgmt) : (s.setMgmt x).queues = s.queues := rfl
@[simp] theorem State.setMgmt_quotaRes (x : Mgmt) : (s.setMgmt x).quotaRes = s.quotaRes := rfl
@[simp] theorem State.setMgmt_kernels (x : Mgmt) : (s.setMgmt x).kernels = s.kernels := rfl
@[simp] theorem State.setMgmt_jrn (x : Mgmt) : (s.setMgmt x).jrn = s.jrn := rfl
@[simp] theorem State.setMgmt_twine (x : Mgmt) : (s.setMgmt x).twine = s.twine := rfl
@[simp] theorem State.setMgmt_eth (x : Mgmt) : (s.setMgmt x).eth = s.eth := rfl
@[simp] theorem State.setMgmt_ply (x : Mgmt) : (s.setMgmt x).ply = s.ply := rfl
@[simp] theorem State.setMgmt_sec (x : Mgmt) : (s.setMgmt x).sec = s.sec := rfl
@[simp] theorem State.setMgmt_pwr (x : Mgmt) : (s.setMgmt x).pwr = s.pwr := rfl
@[simp] theorem State.setMgmt_out (x : Mgmt) : (s.setMgmt x).out = s.out := rfl
@[simp] theorem State.setMgmt_now (x : Mgmt) : (s.setMgmt x).now = s.now := rfl
@[simp] theorem State.setMgmt_free (x : Mgmt) : (s.setMgmt x).free = s.free := rfl
@[simp] theorem State.setMgmt_pending (x : Mgmt) : (s.setMgmt x).pending = s.pending := rfl
@[simp] theorem State.setMgmt_mgmt (x : Mgmt) : (s.setMgmt x).mgmt = x := rfl
@[simp] theorem State.setMgmt_sp (x : Mgmt) (i : Fin 136) : (s.setMgmt x).sp i = s.sp i := rfl
@[simp] theorem State.setMgmt_sk (x : Mgmt) (i : Fin 8) : (s.setMgmt x).sk i = s.sk i := rfl
@[simp] theorem State.setMgmt_q (x : Mgmt) (i : Fin 4096) : (s.setMgmt x).q i = s.q i := rfl
@[simp] theorem State.setMgmt_strand (x : Mgmt) (i : Fin 2048) : (s.setMgmt x).strand i = s.strand i := rfl
@[simp] theorem State.setMgmt_port (x : Mgmt) (i : Fin 32) : (s.setMgmt x).port i = s.port i := rfl
@[simp] theorem State.setMgmt_slot (x : Mgmt) (i : Fin 8) : (s.setMgmt x).slot i = s.slot i := rfl

@[simp] theorem State.setSec_spindles (x : Sec) : (s.setSec x).spindles = s.spindles := rfl
@[simp] theorem State.setSec_skeins (x : Sec) : (s.setSec x).skeins = s.skeins := rfl
@[simp] theorem State.setSec_mem (x : Sec) : (s.setSec x).mem = s.mem := rfl
@[simp] theorem State.setSec_sweeps (x : Sec) : (s.setSec x).sweeps = s.sweeps := rfl
@[simp] theorem State.setSec_trans (x : Sec) : (s.setSec x).trans = s.trans := rfl
@[simp] theorem State.setSec_queues (x : Sec) : (s.setSec x).queues = s.queues := rfl
@[simp] theorem State.setSec_quotaRes (x : Sec) : (s.setSec x).quotaRes = s.quotaRes := rfl
@[simp] theorem State.setSec_kernels (x : Sec) : (s.setSec x).kernels = s.kernels := rfl
@[simp] theorem State.setSec_jrn (x : Sec) : (s.setSec x).jrn = s.jrn := rfl
@[simp] theorem State.setSec_twine (x : Sec) : (s.setSec x).twine = s.twine := rfl
@[simp] theorem State.setSec_eth (x : Sec) : (s.setSec x).eth = s.eth := rfl
@[simp] theorem State.setSec_ply (x : Sec) : (s.setSec x).ply = s.ply := rfl
@[simp] theorem State.setSec_pwr (x : Sec) : (s.setSec x).pwr = s.pwr := rfl
@[simp] theorem State.setSec_mgmt (x : Sec) : (s.setSec x).mgmt = s.mgmt := rfl
@[simp] theorem State.setSec_out (x : Sec) : (s.setSec x).out = s.out := rfl
@[simp] theorem State.setSec_now (x : Sec) : (s.setSec x).now = s.now := rfl
@[simp] theorem State.setSec_free (x : Sec) : (s.setSec x).free = s.free := rfl
@[simp] theorem State.setSec_pending (x : Sec) : (s.setSec x).pending = s.pending := rfl
@[simp] theorem State.setSec_sec (x : Sec) : (s.setSec x).sec = x := rfl
@[simp] theorem State.setSec_sp (x : Sec) (i : Fin 136) : (s.setSec x).sp i = s.sp i := rfl
@[simp] theorem State.setSec_sk (x : Sec) (i : Fin 8) : (s.setSec x).sk i = s.sk i := rfl
@[simp] theorem State.setSec_q (x : Sec) (i : Fin 4096) : (s.setSec x).q i = s.q i := rfl
@[simp] theorem State.setSec_strand (x : Sec) (i : Fin 2048) : (s.setSec x).strand i = s.strand i := rfl
@[simp] theorem State.setSec_port (x : Sec) (i : Fin 32) : (s.setSec x).port i = s.port i := rfl
@[simp] theorem State.setSec_slot (x : Sec) (i : Fin 8) : (s.setSec x).slot i = s.slot i := rfl
@[simp] theorem State.setSec_serving (x : Sec) : (s.setSec x).serving = s.serving := rfl

@[simp] theorem State.setPwr_spindles (x : Pwr) : (s.setPwr x).spindles = s.spindles := rfl
@[simp] theorem State.setPwr_skeins (x : Pwr) : (s.setPwr x).skeins = s.skeins := rfl
@[simp] theorem State.setPwr_mem (x : Pwr) : (s.setPwr x).mem = s.mem := rfl
@[simp] theorem State.setPwr_sweeps (x : Pwr) : (s.setPwr x).sweeps = s.sweeps := rfl
@[simp] theorem State.setPwr_trans (x : Pwr) : (s.setPwr x).trans = s.trans := rfl
@[simp] theorem State.setPwr_queues (x : Pwr) : (s.setPwr x).queues = s.queues := rfl
@[simp] theorem State.setPwr_quotaRes (x : Pwr) : (s.setPwr x).quotaRes = s.quotaRes := rfl
@[simp] theorem State.setPwr_kernels (x : Pwr) : (s.setPwr x).kernels = s.kernels := rfl
@[simp] theorem State.setPwr_jrn (x : Pwr) : (s.setPwr x).jrn = s.jrn := rfl
@[simp] theorem State.setPwr_twine (x : Pwr) : (s.setPwr x).twine = s.twine := rfl
@[simp] theorem State.setPwr_eth (x : Pwr) : (s.setPwr x).eth = s.eth := rfl
@[simp] theorem State.setPwr_ply (x : Pwr) : (s.setPwr x).ply = s.ply := rfl
@[simp] theorem State.setPwr_sec (x : Pwr) : (s.setPwr x).sec = s.sec := rfl
@[simp] theorem State.setPwr_mgmt (x : Pwr) : (s.setPwr x).mgmt = s.mgmt := rfl
@[simp] theorem State.setPwr_out (x : Pwr) : (s.setPwr x).out = s.out := rfl
@[simp] theorem State.setPwr_now (x : Pwr) : (s.setPwr x).now = s.now := rfl
@[simp] theorem State.setPwr_free (x : Pwr) : (s.setPwr x).free = s.free := rfl
@[simp] theorem State.setPwr_pending (x : Pwr) : (s.setPwr x).pending = s.pending := rfl
@[simp] theorem State.setPwr_pwr (x : Pwr) : (s.setPwr x).pwr = x := rfl
@[simp] theorem State.setPwr_sp (x : Pwr) (i : Fin 136) : (s.setPwr x).sp i = s.sp i := rfl
@[simp] theorem State.setPwr_sk (x : Pwr) (i : Fin 8) : (s.setPwr x).sk i = s.sk i := rfl
@[simp] theorem State.setPwr_q (x : Pwr) (i : Fin 4096) : (s.setPwr x).q i = s.q i := rfl
@[simp] theorem State.setPwr_strand (x : Pwr) (i : Fin 2048) : (s.setPwr x).strand i = s.strand i := rfl
@[simp] theorem State.setPwr_port (x : Pwr) (i : Fin 32) : (s.setPwr x).port i = s.port i := rfl
@[simp] theorem State.setPwr_slot (x : Pwr) (i : Fin 8) : (s.setPwr x).slot i = s.slot i := rfl

@[simp] theorem State.setSp_sp_same (p : Fin 136) (x : Spindle) : (s.setSp p x).sp p = x := get_upd_same _ _ _
theorem State.setSp_sp_ne (p : Fin 136) (x : Spindle) (i : Fin 136) (h : i ≠ p) : (s.setSp p x).sp i = s.sp i :=
  get_upd_ne _ _ h
@[simp] theorem State.setSp_setSp (p : Fin 136) (x : Spindle) (y : Spindle) : (s.setSp p x).setSp p y = s.setSp p y := by
  simp [State.setSp]

@[simp] theorem State.setSk_sk_same (k : Fin 8) (x : Skein) : (s.setSk k x).sk k = x := get_upd_same _ _ _
theorem State.setSk_sk_ne (k : Fin 8) (x : Skein) (i : Fin 8) (h : i ≠ k) : (s.setSk k x).sk i = s.sk i :=
  get_upd_ne _ _ h
@[simp] theorem State.setSk_setSk (k : Fin 8) (x : Skein) (y : Skein) : (s.setSk k x).setSk k y = s.setSk k y := by
  simp [State.setSk]

@[simp] theorem State.setQ_q_same (n : Fin 4096) (x : Queue) : (s.setQ n x).q n = x := get_upd_same _ _ _
theorem State.setQ_q_ne (n : Fin 4096) (x : Queue) (i : Fin 4096) (h : i ≠ n) : (s.setQ n x).q i = s.q i :=
  get_upd_ne _ _ h
@[simp] theorem State.setQ_setQ (n : Fin 4096) (x : Queue) (y : Queue) : (s.setQ n x).setQ n y = s.setQ n y := by
  simp [State.setQ]

@[simp] theorem State.setStrand_strand_same (n : Fin 2048) (x : Strand) : (s.setStrand n x).strand n = x := get_upd_same _ _ _
theorem State.setStrand_strand_ne (n : Fin 2048) (x : Strand) (i : Fin 2048) (h : i ≠ n) : (s.setStrand n x).strand i = s.strand i :=
  get_upd_ne _ _ h
@[simp] theorem State.setStrand_setStrand (n : Fin 2048) (x : Strand) (y : Strand) : (s.setStrand n x).setStrand n y = s.setStrand n y := by
  simp [State.setStrand]

@[simp] theorem State.setPort_port_same (p : Fin 32) (x : Port) : (s.setPort p x).port p = x := get_upd_same _ _ _
theorem State.setPort_port_ne (p : Fin 32) (x : Port) (i : Fin 32) (h : i ≠ p) : (s.setPort p x).port i = s.port i :=
  get_upd_ne _ _ h
@[simp] theorem State.setPort_setPort (p : Fin 32) (x : Port) (y : Port) : (s.setPort p x).setPort p y = s.setPort p y := by
  simp [State.setPort]

@[simp] theorem State.setSlot_slot_same (k : Fin 8) (x : Ply) : (s.setSlot k x).slot k = x := get_upd_same _ _ _
theorem State.setSlot_slot_ne (k : Fin 8) (x : Ply) (i : Fin 8) (h : i ≠ k) : (s.setSlot k x).slot i = s.slot i :=
  get_upd_ne _ _ h
@[simp] theorem State.setSlot_setSlot (k : Fin 8) (x : Ply) (y : Ply) : (s.setSlot k x).setSlot k y = s.setSlot k y := by
  simp [State.setSlot]

end Sys2Proof.Machine
end

