-- ==== Sys2Proof/Laws/Traffic.lean ====
section
/-!
SUPPORT. What the traffic of an access and the walks of a translation leave unchanged: everything but the reel caches, the
skeins (the sectors of their bindings, their TLBs), the walker cache and the bytes counted for adds.
-/

namespace Sys2Proof.Machine

/-- A fold of steps each of which keeps a view of the state keeps it. -/
theorem foldl_keeps {α β : Type} (f : State → α) (g : State → β → State) (hg : ∀ s b, f (g s b) = f s) (l : List β)
    (s : State) : f (l.foldl g s) = f s := by
  induction l generalizing s with
  | nil => rfl
  | cons b l ih => rw [List.foldl_cons, ih, hg]

/-- A view of the state that neither the skeins nor the reel caches enter. -/
structure OffReel {α : Type} (f : State → α) : Prop where
  sk (s : State) (k : Fin 8) (x : Skein) : f (s.setSk k x) = f s
  reel (s : State) (r : Vector Reel 8) : f (s.setMem { s.mem with reel := r }) = f s

/-- A view that the walker cache does not enter either. -/
structure OffWalk {α : Type} (f : State → α) extends OffReel f : Prop where
  walk (s : State) (w : List (Nat × Nat)) : f (s.setTrans { s.trans with walker := w }) = f s

section
variable {α : Type} {f : State → α}

theorem reelLine_keeps (hf : OffReel f) (s : State) (kl : Fin 8 × Nat) (h : Hint) (wr : Bool) :
    f (reelLine s kl h wr) = f s := hf.reel s _

theorem touchUnit_keeps (hf : OffReel f) (s : State) (a n : Nat) (h : Hint) (wr : Bool) :
    f (touchUnit s a n h wr) = f s := by
  unfold touchUnit
  split
  · exact foldl_keeps f _ (fun _ _ => reelLine_keeps hf _ _ _ _) _ _
  · exact (foldl_keeps f _ (fun _ _ => reelLine_keeps hf _ _ _ _) _ _).trans (hf.sk _ _ _)

theorem reelTouch_keeps (hf : OffReel f) (s : State) (a n : Nat) (h : Hint) (wr : Bool) :
    f (reelTouch s a n h wr) = f s := foldl_keeps f _ (fun _ _ => touchUnit_keeps hf _ _ _ _ _) _ _

theorem touchSegs_keeps (hf : OffReel f) (s : State) (segs : List Seg) (a n : Nat) (wr : Bool) :
    f (touchSegs s segs a n wr) = f s := foldl_keeps f _ (fun _ _ => reelTouch_keeps hf _ _ _ _ _) _ _

theorem tableRead_keeps (hf : OffReel f) (s : State) (stage va i : Nat) : f (tableRead s stage va i) = f s  :=
  reelLine_keeps hf _ _ _ _

theorem walkPage_keeps (hf : OffWalk f) (s : State) (va : Nat) : f (walkPage s va) = f s := by
  unfold walkPage
  rw [hf.walk, foldl_keeps f _ (fun s i => tableRead_keeps hf.toOffReel s _ _ _)]

theorem lookUpPage_keeps (hf : OffWalk f) (k : Fin 8) (s : State) (e : TlbEntry) : f (lookUpPage k s e) = f s := by
  unfold lookUpPage
  rw [hf.sk]
  split
  · rfl
  · exact walkPage_keeps hf s _

/-- What a look-up of captured ranges leaves. -/
theorem lookUpSegs_keeps (hf : OffWalk f) (s : State) (k : Fin 8) (own : Owner) (segs : List Seg) :
    f (lookUpSegs s k own segs) = f s := by
  unfold lookUpSegs
  split
  · rfl
  · exact foldl_keeps f _ (fun s e => lookUpPage_keeps hf k s e) _ _

/-- What the walks of distaff and Twine work leave. -/
theorem walkSegs_keeps (hf : OffWalk f) (s : State) (own : Owner) (segs : List Seg) : f (walkSegs s own segs) = f s := by
  unfold walkSegs
  split
  · rfl
  · exact foldl_keeps f _ (fun s e => walkPage_keeps hf s _) _ _

end

/-- The views that the statements speak of. -/
theorem offWalk_cells : OffWalk (fun s => s.mem.cells) := ⟨⟨fun _ _ _ => rfl, fun _ _ => rfl⟩, fun _ _ => rfl⟩
theorem offWalk_spindles : OffWalk (fun s => s.spindles) := ⟨⟨fun _ _ _ => rfl, fun _ _ => rfl⟩, fun _ _ => rfl⟩
theorem offWalk_queues : OffWalk (fun s => s.queues) := ⟨⟨fun _ _ _ => rfl, fun _ _ => rfl⟩, fun _ _ => rfl⟩
theorem offWalk_kernels : OffWalk (fun s => s.kernels) := ⟨⟨fun _ _ _ => rfl, fun _ _ => rfl⟩, fun _ _ => rfl⟩
theorem offWalk_sweeps : OffWalk (fun s => s.sweeps) := ⟨⟨fun _ _ _ => rfl, fun _ _ => rfl⟩, fun _ _ => rfl⟩
theorem offWalk_twine : OffWalk (fun s => s.twine) := ⟨⟨fun _ _ _ => rfl, fun _ _ => rfl⟩, fun _ _ => rfl⟩
theorem offWalk_ply : OffWalk (fun s => s.ply) := ⟨⟨fun _ _ _ => rfl, fun _ _ => rfl⟩, fun _ _ => rfl⟩
theorem offWalk_eth : OffWalk (fun s => s.eth) := ⟨⟨fun _ _ _ => rfl, fun _ _ => rfl⟩, fun _ _ => rfl⟩
theorem offWalk_sec : OffWalk (fun s => s.sec) := ⟨⟨fun _ _ _ => rfl, fun _ _ => rfl⟩, fun _ _ => rfl⟩
theorem offWalk_pwr : OffWalk (fun s => s.pwr) := ⟨⟨fun _ _ _ => rfl, fun _ _ => rfl⟩, fun _ _ => rfl⟩
theorem offWalk_mgmt : OffWalk (fun s => s.mgmt) := ⟨⟨fun _ _ _ => rfl, fun _ _ => rfl⟩, fun _ _ => rfl⟩
theorem offWalk_out : OffWalk (fun s => s.out) := ⟨⟨fun _ _ _ => rfl, fun _ _ => rfl⟩, fun _ _ => rfl⟩
theorem offWalk_pending : OffWalk (fun s => s.pending) := ⟨⟨fun _ _ _ => rfl, fun _ _ => rfl⟩, fun _ _ => rfl⟩
theorem offWalk_now : OffWalk (fun s => s.now) := ⟨⟨fun _ _ _ => rfl, fun _ _ => rfl⟩, fun _ _ => rfl⟩
theorem offWalk_chan : OffWalk (fun s => s.mem.chan) := ⟨⟨fun _ _ _ => rfl, fun _ _ => rfl⟩, fun _ _ => rfl⟩

@[simp] theorem touchSegs_cells (s : State) (segs : List Seg) (a n : Nat) (wr : Bool) :
    (touchSegs s segs a n wr).mem.cells = s.mem.cells := touchSegs_keeps offWalk_cells.toOffReel s segs a n wr
@[simp] theorem touchSegs_spindles (s : State) (segs : List Seg) (a n : Nat) (wr : Bool) :
    (touchSegs s segs a n wr).spindles = s.spindles := touchSegs_keeps offWalk_spindles.toOffReel s segs a n wr
@[simp] theorem touchSegs_queues (s : State) (segs : List Seg) (a n : Nat) (wr : Bool) :
    (touchSegs s segs a n wr).queues = s.queues := touchSegs_keeps offWalk_queues.toOffReel s segs a n wr
@[simp] theorem lookUpSegs_cells (s : State) (k : Fin 8) (o : Owner) (segs : List Seg) :
    (lookUpSegs s k o segs).mem.cells = s.mem.cells := lookUpSegs_keeps offWalk_cells s k o segs
@[simp] theorem lookUpSegs_spindles (s : State) (k : Fin 8) (o : Owner) (segs : List Seg) :
    (lookUpSegs s k o segs).spindles = s.spindles := lookUpSegs_keeps offWalk_spindles s k o segs
@[simp] theorem lookUpSegs_queues (s : State) (k : Fin 8) (o : Owner) (segs : List Seg) :
    (lookUpSegs s k o segs).queues = s.queues := lookUpSegs_keeps offWalk_queues s k o segs
@[simp] theorem walkSegs_cells (s : State) (o : Owner) (segs : List Seg) :
    (walkSegs s o segs).mem.cells = s.mem.cells := walkSegs_keeps offWalk_cells s o segs
@[simp] theorem walkSegs_queues (s : State) (o : Owner) (segs : List Seg) :
    (walkSegs s o segs).queues = s.queues := walkSegs_keeps offWalk_queues s o segs

end Sys2Proof.Machine
end

