-- ==== Sys2Proof/Laws/Words.lean ====
section
/-!
SUPPORT. A word presented to a spindle: what issues, what waits and what is left.
-/

namespace Sys2Proof.Machine

theorem bySlot_one (e : Eff) : bySlot [e] = [e] := by
  unfold bySlot
  cases h : e.slot <;> simp [h]

/-- A bundle of one word that nothing stops issues. -/
theorem judge_one {x : Spindle} {sh : Share} {e : Eff} (hlen : x.pcBytes + 8 ≤ sh.imageLen) (henc : e.enc = none)
    (hon : e.on = true) (hexc : e.exc = []) (hst : e.stall = []) (hw : e.waitS x = []) :
    judge x sh 1 true [e] = .go [e] := by
  simp [judge, stallsOf, bySlot_one, sameSlot, twoWriters, pickRaise, henc, hon, hexc, hst, hw, Nat.not_lt.mpr hlen]

/-- A bundle of one word that nothing holds up and a check stops. -/
theorem judge_one_trap {x : Spindle} {sh : Share} {e : Eff} {r : Raise} (hlen : x.pcBytes + 8 ≤ sh.imageLen)
    (henc : e.enc = none) (hon : e.on = true) (hexc : pickRaise [e] = some (e, r)) (hst : e.stall = [])
    (hw : e.waitS x = []) : judge x sh 1 true [e] = .trap r e.slot.num e.cls e.opc := by
  simp [judge, stallsOf, bySlot_one, sameSlot, twoWriters, henc, hon, hexc, hst, hw, Nat.not_lt.mpr hlen]

@[simp] theorem State.holding_sp (s : State) (p : Fin 136) (w : Instr) :
    (s.holding p w).sp p = { s.sp p with fetched := [w] } := by simp [State.holding]

@[simp] theorem State.holding_serving (s : State) (p : Fin 136) (w : Instr) :
    (s.holding p w).serving = s.serving := rfl

theorem presentWord_eq {s : State} {p : Fin 136} {w : Instr} (ht : s.takes p) :
    presentWord effOf w p s = tryIssue effOf (s.holding p w) p := by
  obtain ⟨sh, h1, h2, -, h4, -, -⟩ := ht
  simp [presentWord, h1, h2, h4, State.holding]

/-- A word that issues at once: its acts run on the state whose spindle has moved on. -/
theorem presentWord_issues {s : State} {h : Hdr} {w : Instr} (hi : s.issues h)
    (he : (effOf w (s.holding h.sp w)).e = h.e) (hon : (effOf w (s.holding h.sp w)).on = true)
    (henc : (effOf w (s.holding h.sp w)).enc = none)
    (hexc : (effOf w (s.holding h.sp w)).exc = []) (hst : (effOf w (s.holding h.sp w)).stall = [])
    (hw : (effOf w (s.holding h.sp w)).waitS (s.sp h.sp) = []) :
    presentWord effOf w h.sp s =
      (effOf w (s.holding h.sp w)).acts.foldl (fun t a => a.perform h.sp t) (s.ran h.sp id) := by
  rw [presentWord_eq hi.1]
  obtain ⟨⟨sh, h1, h2, h3, -, h5, h6⟩, h7, -⟩ := hi
  have hs : splitBundle (fun v => (effOf v (s.holding h.sp w)).e) 4 [w] = some ([w], [], true) := by
    simp [splitBundle, he, h7]
  have y1 : ((s.holding h.sp w).sp h.sp).share = some sh := by simp [h1]
  have y2 : ¬((s.holding h.sp w).sp h.sp).clk < ((s.holding h.sp w).sp h.sp).nextIssue := by simpa using h5
  have y3 : ((s.holding h.sp w).sp h.sp).fetched = [w] := by simp
  have hj : judge ((s.holding h.sp w).sp h.sp) sh 1 true [effOf w (s.holding h.sp w)] =
      .go [effOf w (s.holding h.sp w)] := by
    refine judge_one ?_ henc hon hexc hst ?_
    · simpa [Spindle.pcBytes] using h6
    · rw [State.holding_sp]; exact hw
  unfold tryIssue
  simp only [y1, h2, y2, y3, State.holding_serving, h3, hs, List.length_singleton, List.map_cons, List.map_nil, hj,
    goBundle, List.flatMap_cons, List.flatMap_nil, List.append_nil]
  simp only [ne_eq, not_true_eq_false, Bool.not_true, Bool.false_eq_true, or_self, if_false]
  congr 1
  simp [State.ran, State.holding, Spindle.advance, Spindle.count]

/-- A word that nothing holds up and that a check stops other than a page fault: the share waits for the exception, the word
has no other effect (06 R159, R160). -/
theorem presentWord_traps {s : State} {h : Hdr} {w : Instr} {sh : Share} {r : Raise} (hi : s.issues h)
    (hsh : (s.sp h.sp).share = some sh) (he : (effOf w (s.holding h.sp w)).e = h.e)
    (hon : (effOf w (s.holding h.sp w)).on = true) (henc : (effOf w (s.holding h.sp w)).enc = none)
    (hexc : pickRaise [effOf w (s.holding h.sp w)] = some (effOf w (s.holding h.sp w), r)) (htf : r.tf = none)
    (hst : (effOf w (s.holding h.sp w)).stall = [])
    (hw : (effOf w (s.holding h.sp w)).waitS (s.sp h.sp) = []) :
    presentWord effOf w h.sp s =
      s.setSp h.sp (raise (s.sp h.sp) sh r (effOf w (s.holding h.sp w)).slot.num (effOf w (s.holding h.sp w)).cls
        (effOf w (s.holding h.sp w)).opc 1 s.trans.gen1 s.trans.gen2) := by
  rw [presentWord_eq hi.1]
  obtain ⟨⟨sh', h1, h2, h3, -, h5, h6⟩, h7, -⟩ := hi
  obtain rfl : sh' = sh := by rw [hsh] at h1; exact (Option.some.inj h1).symm
  have hs : splitBundle (fun v => (effOf v (s.holding h.sp w)).e) 4 [w] = some ([w], [], true) := by
    simp [splitBundle, he, h7]
  have y1 : ((s.holding h.sp w).sp h.sp).share = some sh' := by simp [h1]
  have y2 : ¬((s.holding h.sp w).sp h.sp).clk < ((s.holding h.sp w).sp h.sp).nextIssue := by simpa using h5
  have y3 : ((s.holding h.sp w).sp h.sp).fetched = [w] := by simp
  have hj : judge ((s.holding h.sp w).sp h.sp) sh' 1 true [effOf w (s.holding h.sp w)] =
      .trap r (effOf w (s.holding h.sp w)).slot.num (effOf w (s.holding h.sp w)).cls
        (effOf w (s.holding h.sp w)).opc := by
    have z1 : ((s.holding h.sp w).sp h.sp).pcBytes + 8 ≤ sh'.imageLen := by simpa [Spindle.pcBytes] using h6
    have z2 : (effOf w (s.holding h.sp w)).waitS ((s.holding h.sp w).sp h.sp) = [] := by
      rw [State.holding_sp]; exact hw
    exact judge_one_trap z1 henc hon hexc hst z2
  unfold tryIssue
  simp only [y1, h2, y2, y3, State.holding_serving, h3, hs, List.length_singleton, List.map_cons, List.map_nil, hj]
  simp only [ne_eq, not_true_eq_false, Bool.not_true, Bool.false_eq_true, or_self, if_false]
  simp [State.holding, raise, walkFault, htf, Spindle.pcBytes]

/-- A word that does not end its bundle waits for the words after it. -/
theorem presentWord_waits {s : State} {h : Hdr} {w : Instr} (ht : s.takes h.sp)
    (he : (effOf w (s.holding h.sp w)).e = false) : presentWord effOf w h.sp s = s.holding h.sp w := by
  rw [presentWord_eq ht]
  obtain ⟨sh, h1, h2, h3, -, h5, -⟩ := ht
  have hs : splitBundle (fun v => (effOf v (s.holding h.sp w)).e) 4 [w] = none := by
    simp [splitBundle, he]
  unfold tryIssue
  simp only [State.holding_sp, State.holding_serving, h1, h2, h3, hs]
  simp

/-- A spindle that runs no share takes no word (log 14). -/
theorem presentWord_idle {s : State} {p : Fin 136} {w : Instr} (h : (s.sp p).share = none) :
    presentWord effOf w p s = s := by
  simp [presentWord, h]

/-! ## What a word reads of its spindle does not depend on the words fetched -/

@[simp] theorem holding_rs (x : Spindle) (w : List Instr) (r : Fin 32) : ({ x with fetched := w } : Spindle).rs r = x.rs r := rfl
@[simp] theorem holding_rp (x : Spindle) (w : List Instr) (r : Fin 8) : ({ x with fetched := w } : Spindle).rp r = x.rp r := rfl
@[simp] theorem holding_needS (x : Spindle) (w : List Instr) (r) : ({ x with fetched := w } : Spindle).needS r = x.needS r := rfl
@[simp] theorem holding_needV (x : Spindle) (w : List Instr) (r) : ({ x with fetched := w } : Spindle).needV r = x.needV r := rfl
@[simp] theorem holding_needE (x : Spindle) (w : List Instr) (r) : ({ x with fetched := w } : Spindle).needE r = x.needE r := rfl
@[simp] theorem holding_pcBytes (x : Spindle) (w : List Instr) : ({ x with fetched := w } : Spindle).pcBytes = x.pcBytes := rfl


theorem holding_loading (x : Spindle) (w : List Instr) (q : List (Nat × ArrOp)) :
    ({ x with fetched := w } : Spindle).loading q = x.loading q := by
  induction q with
  | nil => rfl
  | cons a q ih => obtain ⟨t, a⟩ := a; cases a <;> simp only [Spindle.loading, ih]

theorem holding_unreadOf (x : Spindle) (w : List Instr) (st : Option Nat) (q : List (Nat × ArrOp)) :
    ({ x with fetched := w } : Spindle).unreadOf st q = x.unreadOf st q := by
  induction q generalizing st with
  | nil => rfl
  | cons a q ih => obtain ⟨t, a⟩ := a; cases a <;> simp only [Spindle.unreadOf, ih]

@[simp] theorem holding_unread (x : Spindle) (w : List Instr) :
    ({ x with fetched := w } : Spindle).unread = x.unread := by
  unfold Spindle.unread
  rw [holding_unreadOf, holding_loading]
  rfl

@[simp] theorem holding_movesOf (s : State) (p : Fin 136) (w : Instr) : movesOf (s.holding p w) p = movesOf s p := rfl

@[simp] theorem holding_readStall (s : State) (p : Fin 136) (w : Instr) (o n : Nat) :
    readStall (s.holding p w) p o n = readStall s p o n := by
  unfold readStall
  rw [State.holding_sp, holding_movesOf]
  rfl

@[simp] theorem holding_writeStall (s : State) (p : Fin 136) (w : Instr) (o n : Nat) :
    writeStall (s.holding p w) p o n = writeStall s p o n := by
  unfold writeStall
  rw [State.holding_sp, holding_movesOf, holding_unread]
  rfl

/-! ## A word that changes only its spindle -/

theorem waitS_of_free {e : Eff} {x : Spindle} {r : Fin 32} (hd : e.dests = [.s r]) (h : x.freeS r) :
    e.waitS x = [] := by
  unfold Eff.waitS
  rw [hd]
  rcases h with h | h <;> simp [h]

theorem waitS_nil {e : Eff} {x : Spindle} (hd : e.dests = []) : e.waitS x = [] := by simp [Eff.waitS, hd]

/-- A word that nothing stops, given what it asks for and what its acts do to the spindle. -/
theorem word_runs {s : State} {h : Hdr} {w : Instr} {e : Eff} {f : Spindle → Spindle} (hi : s.issues h)
    (hx : exec w s = .next (presentWord effOf w h.sp s))
    (hw : effOf w (s.holding h.sp w) = e) (he : e.e = h.e) (hon : e.on = (s.sp h.sp).rp h.pred) (henc : e.enc = none)
    (hexc : e.exc = []) (hst : e.stall = []) (hwt : e.waitS (s.sp h.sp) = [])
    (ha : ∀ t : State, t.sp h.sp = (s.sp h.sp).advance 1 [] →
      e.acts.foldl (fun t a => a.perform h.sp t) t = t.setSp h.sp (f (t.sp h.sp))) :
    exec w s = .next (s.ran h.sp f) := by
  rw [hx, presentWord_issues hi (by rw [hw]; exact he) (by rw [hw, hon]; exact hi.2.2) (by rw [hw]; exact henc)
    (by rw [hw]; exact hexc) (by rw [hw]; exact hst) (by rw [hw]; exact hwt), hw, ha _ (by simp [State.ran])]
  simp [State.ran]

/-- A word that writes one s register. -/
theorem word_gets {s : State} {h : Hdr} {w : Instr} {opc lat : Nat} {rd : Fin 32} {need : List (Fin 32)} {v : Word}
    (hi : s.issues h) (hx : exec w s = .next (presentWord effOf w h.sp s))
    (hw : effOf w (s.holding h.sp w) = effToS h opc lat rd need v (s.holding h.sp w))
    (hn : (s.sp h.sp).needS need = []) (hf : (s.sp h.sp).freeS rd) :
    exec w s = .next (s.ran h.sp fun x => x.gets rd v lat) := by
  refine word_runs hi hx hw rfl ?_ rfl rfl ?_ (waitS_of_free rfl hf) ?_
  · simp [effToS, mkEff]
  · simpa [effToS, mkEff] using hn
  · intro t ht; simp [effToS, Act.perform, Spindle.gets]


end Sys2Proof.Machine
end

