-- ==== Sys2Proof/WellFormed.lean ====
section
/-!
DEFINITION. Which commands are well formed: the ranges that the types of `Instr` leave open. A command that is not
names an operand that no wire or register of the device can carry.
-/

namespace Sys2Proof

/-- The operands of a move instruction: the shadow pair lies below s30 and is named where a shadow is (07 R190). -/
def flOk (f : Fl) : Bool := decide (f.sp.val < 30) && (f.path != .shadow || f.sp.val != 0)

/-- Data of a frame: at most 8,176 B (14 R372). -/
def dataOk (data : List Byte) : Bool := decide (data.length ≤ 8176)

/-- An address of 128 bits. -/
def addrOk (a : Nat) : Bool := decide (a < 2 ^ 128)

/-- The addresses of a frame's datagram (14 R370). -/
def FrameHdr.addrsOk (h : FrameHdr) : Bool := addrOk h.src && addrOk h.dst

/-- Fields of `UNIT_CTRL`; a unit of an assigned kind is named by its own constructor (18 R512). -/
def unitOk (u : UnitRef) : Bool :=
  match u with
  | .spindle _ | .flyer _ _ | .channel _ | .port _ => true
  | .other k i => decide (k < 16) && decide (i < 256) && !(k == 1 && decide (i < 136)) && !(k == 2 && decide (i < 32)) &&
      k != 3 && !(k == 5 && decide (i < 32))

/-- A session ID of SPDM has 32 bits (16 R449). -/
def idOk (id : Nat) : Bool := decide (id < 2 ^ 32)

/-- No value stands twice. -/
def distinct (l : List (Fin 64)) : Bool := decide l.Nodup

/-- The flash holds two copies of the configuration block, which sets values that the fields have (18 R483, R485). -/
def bootOk (e : Boots) : Bool :=
  match e with
  | .firmware _ copies _ => decide (copies.length ≤ 2) && copies.all fun x =>
      let c := x.cfg
      decide (c.mode < 4) && c.pmd.length == 32 && c.pmd.all (fun x => decide (x < 3)) && decide (c.addrs.length ≤ 8) &&
        (c.addrs.all fun a => a.1.all (fun v => decide (v < 2 ^ 32)) && a.2.all fun v => addrOk v) &&
        decide (c.pmbus.length ≤ 7) && c.pmbus.all (fun a => decide (a < 128)) && decide (c.avs.length ≤ 7) &&
        c.avs.all fun a => decide (a.1 < 2) && decide (a.2 < 16)
  | .recovery | .stack _ _ | .skein _ _ _ => true
  | .cxl g h _ => decide (g < 65536) && decide (h < 65536)

/-- Well-formed commands. -/
def Instr.wf (i : Instr) : Bool :=
  match i with
  | .add _ _ _ _ | .sub _ _ _ _ | .and _ _ _ _ | .or _ _ _ _ | .xor _ _ _ _ | .sll _ _ _ _ | .srl _ _ _ _
    | .sra _ _ _ _ | .mul _ _ _ _ | .mulhu _ _ _ _ | .min _ _ _ _ | .max _ _ _ _ | .minu _ _ _ _ | .maxu _ _ _ _
    | .addi _ _ _ _ | .andi _ _ _ _ | .ori _ _ _ _ | .xori _ _ _ _ | .slli _ _ _ _ | .srli _ _ _ _ | .srai _ _ _ _
    | .movi _ _ _ | .movhi _ _ _ _ | .cmpEq _ _ _ _ | .cmpNe _ _ _ _ | .cmpLt _ _ _ _ | .cmpGe _ _ _ _
    | .cmpLtu _ _ _ _ | .cmpGeu _ _ _ _ | .pand _ _ _ _ | .por _ _ _ _ | .pxor _ _ _ _ | .pnot _ _ _ | .ld1 _ _ _ _
    | .ld2 _ _ _ _ | .ld4 _ _ _ _ | .ld8 _ _ _ _ | .ld1u _ _ _ _ | .ld2u _ _ _ _ | .ld4u _ _ _ _ | .st1 _ _ _ _
    | .st2 _ _ _ _ | .st4 _ _ _ _ | .st8 _ _ _ _ | .br _ _ | .bdec _ _ _ | .call _ _ | .jr _ _ | .ret _ | .nop _
    | .endShare _ | .brk _ _ | .csrr _ _ _ | .csrw _ _ _ | .ldw _ _ _ _ _ | .mma _ _ _ _ _ _ _ _ _ _
    | .vadd _ _ _ _ _ _ _ | .vmul _ _ _ _ _ _ _ | .vfma _ _ _ _ _ _ _ _ _ | .vmin _ _ _ _ _ | .vmax _ _ _ _ _
    | .vcvt _ _ _ _ _ _ _ _ _ _ | .vexp2 _ _ _ _ _ _ | .vlog2 _ _ _ _ _ _ | .vrcp _ _ _ _ _ _ | .vrsq _ _ _ _ _ _
    | .vtanh _ _ _ _ _ _ | .vsin _ _ _ _ _ _ | .vcos _ _ _ _ _ _ | .vsig _ _ _ _ _ _ | .vgelu _ _ _ _ _ _
    | .vsilu _ _ _ _ _ _ | .vrd _ _ _ _ | .vwr _ _ _ _ | .vscr _ _ _ | .vld _ _ _ _ | .vst _ _ _ _
    | .smaxP1 _ _ _ _ _ _ | .smaxP2 _ _ _ _ _ _ _ | .smaxFac _ _ | .smaxLse _ _ | .smaxMerge _ _ _
    | .rstatP1 _ _ _ _ | .rstatP2 _ _ _ | .rstatGet _ _ _ | .rnormLn _ _ _ _ _ | .rnormRms _ _ _ _ _
    | .rdot _ _ _ _ _ | .rsum _ _ _ _ | .rsave _ _ | .rload _ _ | .emov _ _ _ | .emovs _ _ _ | .eadd _ _ _ _
    | .qnt _ _ _ _ _ _ _ _ | .qntt _ _ _ _ _ _ _ _ _ | .qexp _ _ _ _ _ | .dqnt _ _ _ _ _ _
    | .qgrad _ _ _ _ _ _ _ _ _ _ _ | .rsc _ _ _ _ _ _ _ _ _ => true
  | .fmv _ f => flOk f
  | .fadd _ f => flOk f && f.path == .hold
  | .ffill _ _ _ _ _ _ _ _ | .twait _ _ | .tpoll _ _ _ | .tstat _ _ _ | .sfence _ | .cread _ _ _ | .cwait _ _ _
    | .ldwLoadDone _ | .mmaStart _ | .mmaCommit _ | .vectorResultWrite _ | .rowUnitComplete _
    | .quantiserComplete _ | .exceptionTaken _ | .saveImageFreed _ | .shareEnd _ | .shareLaunch _ _
    | .flyerMoveComplete _ _ _ | .moveDeadlineExpiry _ _ _ => true
  | .registerWrite off _ => off % 8 == 0 && decide (off < 0x10000000)
  | .creelQuotaCommit | .memErrCommit | .queueCommit _ | .ethCommit | .strandCommit _ | .twineCommit | .peerCommit
    | .plyCommit _ | .pwrCommit | .scrubCommit | .mapOut _ | .rebuild | .farReenable _ | .keepWaysWrite _ _
    | .queueDrain _ | .queueRelease _ | .resetSeq _ | .strandClose _ | .plyFail _ _ | .cancelPace _
    | .wakeEnWrite _ | .fwStage | .fwStageDone _ | .fwConfirm | .fwCancel | .trimWrite | .trimWriteDone
    | .mgmtStop _ | .warm | .warmResetResume | .mgmtRestart | .mgmtRestartEnd | .faultAck _ => true
  | .retire u => unitOk u
  | .restore u => unitOk u
  | .restoreSelftestDone _ | .mapChangeApply _ | .acceptanceResume _ | .kernel _ | .copy _
    | .moveAdd _ | .fill _ | .bind _ | .evictionComplete _ => true
  | .bindFill _ _ sector => decide (sector < 4096)
  | .flush _ | .moveRelease _ | .pin _ | .unpin _ | .rmaWrite _ | .rmaWriteFlagged _ | .rmaRead _ | .rmaAtomicAdd _
    | .allReduce _ | .reduceScatter _ | .allGather _ | .broadcast _ | .allToAll _ | .barrier _
    | .checkpointBarrier _ | .adamw _ | .lion _ | .sgdWithMomentum _ | .check _ | .digest _ | .wait _ | .fence _
    | .mark _ | .tableUpdate _ | .resume _ | .tableUpdateApply _ | .tableUpdateComplete _ | .sweepUnitDone _ _
    | .sweepComplete _ | .sweepRecovery _ | .descriptorComplete _ _ _ _ | .drainComplete _ | .tallyFreeze | .mirrorRebuildComplete => true
  | .patrolScrub _ _ ues => ues.all fun a => decide (a < 2 ^ 48)
  | .channelFault _ => true
  | .migrationGranuleCopy ues => ues.all fun a => decide (a < 2 ^ 48)
  | .migrationEnd | .channelRestoreJoin _ | .stackLost _ | .cxlLinkDrop _ | .cxlRetrain _ _ | .distaffFail _
    | .spindleFail _ | .flyerFail _ _ | .d2dLinkRetry | .refclkLoss => true
  | .write h _ data => h.addrsOk && dataOk data
  | .writeFlagged h _ data => h.addrsOk && dataOk data
  | .read h _ _ => h.addrsOk
  | .readResp h _ data => h.addrsOk && dataOk data
  | .atomicAdd h _ _ _ data => h.addrsOk && dataOk data
  | .ack h _ _ => h.addrsOk
  | .lag h _ _ => h.addrsOk
  | .pace h _ _ => h.addrsOk
  | .tally h _ => h.addrsOk
  | .doorbell h _ _ _ _ => h.addrsOk
  | .hello _ m => addrOk m.ip && addrOk m.dest
  | .ackDelayExpiry _ | .frameTransmit _ | .retransmitTimeout _ | .pathLostExpiry _
    | .warmHoldExpiry _ | .helloTimer _ | .openingHelloTimer _ | .keyPhaseAdvance _
    | .oldKeyPhaseExpiry _ | .reservedTypeFrame _ | .wake _ _ _ _ | .lagTrigger _ _ _
    | .paceExpiry _ | .getVersion | .getCapabilities | .negotiateAlgorithms _ | .getDigests => true
  | .getCertificate slot => decide (slot < 8)
  | .challenge _ => true
  | .getMeasurements index => decide (index < 256)
  | .keyExchange id _ => idOk id
  | .finish id => idOk id
  | .endSession id => idOk id
  | .keyUpdate id => idOk id
  | .heartbeat id => idOk id
  | .sessionIdleTimeout id => idOk id
  | .leaseRequest id _ _ => idOk id
  | .wakeKeyFetch id => idOk id
  | .submit session _ => session.all idOk
  | .tenancyOnSet | .tenancyKeyErase | .scrubEnd | .keyRewriteDrained _ | .transitOldExpiry | .portDown _
    | .portLinkUp _ | .portJoin _ | .trainingRestart _ | .portFail _ => true
  | .arpRequest _ ip v6 => decide (ip < 2 ^ (if v6 then 128 else 32))
  | .lldpduReceive _ ttl data => decide (ttl < 65536) && decide (data.length ≤ 16365)
  | .lldpTimer _ | .lldpTtlExpiry _ | .pauseFrame _ _ _ _ | .pauseExpiry _ _ | .otherFrameDiscard _
    | .xoffResend _ _ | .xon _ _ | .pauseStorm _ | .stormEnd _ => true
  | .groupReady _ parts => distinct (parts.map fun p => p.member)
  | .signatureRoundComplete _ parts => distinct (parts.map fun p => p.member)
  | .collectiveChunkAcked _ data => decide (data.length ≤ 8176)
  | .skipDecision _ parts => distinct (parts.map fun p => p.member)
  | .digestComparison _ parts => distinct (parts.map fun p => p.member)
  | .memberFail _ _ | .adoptionAdmit _ _ | .estimatorSample _ _ _ | .dividerStepDown _ _ | .stretchEnd _
    | .droopDetect _ | .regulatorRead _ _ _ _ | .statusWordPoll _ | .regulatorFaultCleared | .inletPoll _
    | .readingsMissing _ => true
  | .grantTick g => g.skeins.length == 8 && g.work.length == 8
  | .burstExpiry => true
  | .energyAttribution skeins _ _ => skeins.length == 8
  | .powerStateEntry _ | .powerStateExit _ => true
  | .thermalThreshold t => t.skeins.length == 32 && t.io.length == 2 && t.bases.length == 8
  | .thermalStepTimer _ | .thermtrip | .airFaultAssert | .airFaultPowerDown | .airFaultClear | .overrideExpiry
    | .coldReset | .resetNRise _ | .whorlLockRetry _ => true
  | .bringupPhaseAdvance e => bootOk e
  | .fullService | .mgmtWatchdogExpiry | .testEnHigh | .sbId _ | .sbStatus _ | .sbPower _ | .sbTemp _ | .sbCap _ _
    | .sbRun _ _ | .sbWake _ _ | .sbWarmReset _ _ | .sbMgmtRestart _ _ | .sbFault _ | .sbEvents _ _ => true
  | .sbRecovery _ data => decide (data.length ≤ 255)
  | .smbusLineHeld _ | .pmbusLineHeld | .packagePowerLoss => true
  | .malformedBundle _ ws => decide (1 ≤ ws.length) && decide (ws.length ≤ 4)
  | .fcsBadFrame _ _ | .airFaultRise _ | .tapInstruction _ | .powerStateExitDone _ | .otherSidebandCode _ => true

end Sys2Proof
end

