-- ==== Sys2Proof/Tests/Slice0.lean ====
section
/-!
SUPPORT. Tests: an ill-formed command for each check of `Instr.wf`, examples the spec works out, and for each statement
of the obligations a state and operands that meet its hypotheses (`wit_<statement>`).
-/

namespace Sys2Proof.Tests
open Sys2Proof.Machine
set_option Elab.async false

/-! ## States that the tests use -/

/-- A share of a tenant kernel with an image of 64 B. -/
def share0 : Share :=
  { queue := 16, seq := 1, index := 0, count := 1, logical := 0, imageLen := 64, owner := .tenant }

/-- The device in full service. -/
def full : State := State.reset.setMgmt { State.reset.mgmt with phase := .full, resetN := true, skeinsUp := 0xFF }

/-- A spindle 0 that runs `share0`, the device in full service. -/
def run (x : Spindle) : State := full.setSp 0 { x with share := some share0 }

/-- Headers of words for spindle 0: the last of its bundle, one that another word follows, one under p1. -/
def hd : Hdr := ⟨0, true, 0⟩
def hdMore : Hdr := ⟨0, false, 0⟩
def hdOff : Hdr := ⟨0, true, 1⟩

theorem run_takes (x : Spindle) (hf : x.fetched = []) (hn : x.nextIssue ≤ x.clk) (hp : x.pcBytes + 8 ≤ 64) :
    (run x).takes 0 := by
  refine ⟨share0, ?_, rfl, ?_, ?_, ?_, ?_⟩
  · simp [run, State.sp, State.setSp]
  · rfl
  · simpa [run, State.sp, State.setSp] using hf
  · simpa [run, State.sp, State.setSp] using hn
  · simpa [run, State.sp, State.setSp, Spindle.pcBytes, share0] using hp

theorem run_issues (x : Spindle) (hf : x.fetched = []) (hn : x.nextIssue ≤ x.clk) (hp : x.pcBytes + 8 ≤ 64) :
    (run x).issues hd := ⟨run_takes x hf hn hp, rfl, rfl⟩

/-- Spindle 0 as it is when nothing of the share has run. -/
def run0 : State := run {}

theorem run0_issues : run0.issues hd := run_issues {} rfl (by decide) (by decide)

theorem run0_canonical : run0.canonical := by unfold State.canonical; decide +kernel

/-! ## Statements about words -/

theorem wit_StepRunsFront : ∃ (c : Instr) (s : State), (s.withCommand c).pending = [c] :=
  ⟨.nop hd, run0, rfl⟩

theorem wit_EmptyQueueTicks : run0.pending = [] := rfl

theorem wit_WordsThatDoNotAct :
    (run0.takes hdOff.sp ∧ hdOff.e = true ∧ (run0.sp hdOff.sp).rp hdOff.pred = false) ∧
    (run0.takes hdMore.sp ∧ hdMore.e = false) ∧
    (let s := run { sReady := upd (rep 32 0) 5 3 }
     s.issues hd ∧ (5 : Fin 32) ≠ 0 ∧ (s.sp hd.sp).clk < (s.sp hd.sp).sReady.get 5) :=
  ⟨⟨run0_issues.1, rfl, by decide +kernel⟩, ⟨run0_issues.1, rfl⟩,
    run_issues _ rfl (by decide) (by decide), by decide, by decide +kernel⟩

theorem wit_WordsThatDoNotAct_any :
    (let c := Instr.emov hdOff 1 2
     c.hdr = some hdOff ∧ run0.takes hdOff.sp ∧ (run0.sp hdOff.sp).rp hdOff.pred = false ∧
     (effOf c (run0.holding 0 c)).enc = none) ∧
    (let c := Instr.emov hdMore 1 2
     c.hdr = some hdMore ∧ run0.takes hdMore.sp ∧ hdMore.e = false) ∧
    (let s := run { sReady := upd (rep 32 0) 5 3 }
     let c := Instr.sub hd 1 5 2
     c.hdr = some hd ∧ s.takes hd.sp ∧
     stallsOf ((s.holding 0 c).sp 0) [effOf c (s.holding 0 c)] = .operands :: []) :=
  ⟨⟨rfl, run0_issues.1, by decide +kernel, by decide +kernel⟩, ⟨rfl, run0_issues.1, rfl⟩,
    rfl, run_takes _ rfl (by decide) (by decide), by decide +kernel⟩

theorem wit_BundleReadsFirst :
    run0.takes hdMore.sp ∧ hd.sp = hdMore.sp ∧ hdMore.e = false ∧ hd.e = true ∧
    (run0.sp 0).rp hdMore.pred = true ∧ (run0.sp 0).rp hd.pred = true ∧
    (run0.sp 0).pcBytes + 16 ≤ ((run0.sp 0).share.map (·.imageLen)).getD 0 ∧
    (run0.sp 0).needS [1, 2] = [] ∧ (run0.sp 0).needS [3] = [] ∧ (run0.sp 0).needE [4] = [] ∧
    (run0.sp 0).freeS 3 ∧ queueStall (run0.sp 0).clk (run0.sp 0).qq = [] ∧
    ∃ t, exec (.add hdMore 3 1 2) run0 = .next t := by
  refine ⟨run0_issues.1, rfl, rfl, rfl, ?_, ?_, ?_, ?_, ?_, ?_, .inr ?_, ?_, _, rfl⟩ <;> decide +kernel

theorem wit_BundleReadsFirst_any :
    let ws := [Instr.add hdMore 3 1 2]
    let c := Instr.emov hd 4 3
    let s := run { fetched := ws }
    let y := s.setSp 0 { s.sp 0 with fetched := ws ++ [c] }
    c.hdr = some hd ∧ (s.sp 0).share = some share0 ∧ s.serving = true ∧ (s.sp 0).nextIssue ≤ (s.sp 0).clk ∧
    (s.sp 0).fetched = ws ∧
    judge (y.sp 0) share0 2 true ((ws ++ [c]).map fun w => effOf w y) = .go (bySlot ((ws ++ [c]).map fun w => effOf w y)) := by
  decide +kernel

theorem wit_ScalarOperations : run0.issues hd ∧ (run0.sp 0).needS [1, 2] = [] ∧ (run0.sp 0).freeS 31 ∧
    (run0.sp 0).freeS 0 ∧ (run0.sp 0).needS [31] = [] :=
  ⟨run0_issues, by decide +kernel, .inr (by decide +kernel), .inl rfl, by decide +kernel⟩

theorem wit_ComparesAndPredicates : run0.issues hd ∧ (run0.sp 0).needS [1, 31] = [] ∧ (run0.sp 0).needS [1] = [] :=
  ⟨run0_issues, by decide +kernel, by decide +kernel⟩

theorem wit_ScalarMemory_access :
    run0.issues hd ∧ run0.canonical ∧ (run0.sp 0).needS [0] = [] ∧ (run0.sp 0).needS [0, 1] = [] ∧ (run0.sp 0).freeS 2 ∧
    ∀ n ∈ [1, 2, 4, 8],
      let a := scalarAddr (run0.sp 0) 0 (BitVec.ofNat 32 (0x100000 - n))
      ownBobbin 0 a n = true ∧ a % n = 0 ∧ a + n = 0x100000 ∧ readStall run0 0 (a - bobbinBase 0) n = [] ∧
      writeStall run0 0 (a - bobbinBase 0) n = [] :=
  ⟨run0_issues, run0_canonical, by decide +kernel, by decide +kernel, .inr (by decide +kernel), by decide +kernel⟩

theorem wit_ExceptionsTaken_bobbin :
    run0.issues hd ∧ (run0.sp 0).share = some share0 ∧ (run0.sp 0).needS [0] = [] ∧ (run0.sp 0).needS [0, 7] = [] ∧
    (run0.sp 0).freeS 7 ∧ ownBobbin 0 (scalarAddr (run0.sp 0) 0 0x100000) 4 = false ∧
    (let a := scalarAddr (run0.sp 0) 0 1
     ownBobbin 0 a 4 = true ∧ a % 4 ≠ 0 ∧ readStall run0 0 (a - bobbinBase 0) 4 = [] ∧
     writeStall run0 0 (a - bobbinBase 0) 4 = []) :=
  ⟨run0_issues, by decide +kernel, by decide +kernel, by decide +kernel, .inr (by decide +kernel), by decide +kernel,
    by decide +kernel⟩

/-- A jump to the last bundle of an image of 16 MiB. -/
def far0 : State := run { s := upd (upd (rep 32 0) 1 0xFFFFF8) 31 0x8 }

theorem wit_Branches : far0.issues hd ∧
    (let x := far0.sp 0
     let target := (BitVec.ofNat 64 x.pcBytes + (0xFFFFF8 : BitVec 32).signExtend 64).toNat
     target % 8 = 0 ∧ target < 0x1000000 ∧ x.freeS 31 ∧ x.needS [1] = [] ∧ x.freeS 1 ∧
     (x.rs 1).toNat % 8 = 0 ∧ (x.rs 1).toNat < 0x1000000 ∧
     (x.rs 31).toNat % 8 = 0 ∧ (x.rs 31).toNat < 0x1000000 ∧ x.needS [31] = []) := by
  refine ⟨run_issues _ rfl (by decide) (by decide), ?_⟩
  simp only [Spindle.freeS]
  decide +kernel

theorem wit_SystemAndControl : run0.issues hd ∧ (run0.sp 0).share = some share0 ∧ (run0.sp 0).freeS 9 ∧
    (run0.sp 0).needS [9] = [] ∧ 2 ≤ (5 : BitVec 12).toNat ∧ (5 : BitVec 12).toNat ≤ 5 :=
  ⟨run0_issues, by decide +kernel, .inr (by decide +kernel), by decide +kernel, by decide, by decide⟩

/-- Slot 0 holds a block of E4M3. -/
def slotted : State := run { slot := upd (rep 2 {}) 0 { fmt := some .e4m3 } }

theorem wit_MatrixInstructions_words :
    (run0.issues hd ∧
      (let x := run0.sp 0
       let a := (x.rs 1).toNat
       let off := a - bobbinBase 0
       bobbinBase 0 ≤ a ∧ a % 16 = 0 ∧ (∀ r ∈ ldwRanges off .e4m3 true, r.1 + r.2 ≤ 0x100000) ∧ arrayFmt .e4m3 = true ∧
       fmtScalable .e4m3 = true ∧ x.needS [1] = [] ∧ x.arrayUse < 8 ∧
       ∀ r ∈ ldwRanges off .e4m3 true, readStall run0 0 r.1 r.2 = [])) ∧
    (slotted.issues hd ∧
      (let x := slotted.sp 0
       let a := (x.rs 1).toNat
       let off := a - bobbinBase 0
       let rows := count7 x (.imm 127)
       let ranges := mmaRanges off rows .e4m3 false (pairDepth .e4m3 .e4m3)
       1 ≤ rows ∧ rows ≤ 128 ∧ bobbinBase 0 ≤ a ∧ a % 16 = 0 ∧
       off % hankPitch .e4m3 * 8 % (pairDepth .e4m3 .e4m3 * fmtWidth .e4m3) = 0 ∧
       (∀ r ∈ ranges, r.1 + r.2 ≤ 0x100000) ∧ pairTag .e4m3 .e4m3 = some .fp ∧ x.tileTag 2 = .fp ∧
       x.slotFmt 0 = some (.e4m3, false) ∧ x.needS (1 :: num7Regs (.imm 127)) = [] ∧ x.arrayUse < 8 ∧
       ∀ r ∈ ranges, readStall slotted 0 r.1 r.2 = [])) :=
  ⟨⟨run0_issues, by decide +kernel⟩, run_issues _ rfl (by decide) (by decide), by decide +kernel⟩

theorem wit_MatrixInstructions_units : State.reset.mgmt.clockLost = false ∧
    (let x : Spindle := { arrayQ := [(0, .ldw 0 0 .e4m3 false {})], clk := 128 }
     x.arrayQ = (0, .ldw 0 0 .e4m3 false {}) :: [] ∧ max 0 (max x.loadFree (x.slotFree.get 0)) + depthOf .e4m3 ≤ x.clk) ∧
    (let x : Spindle := { arrayQ := [(0, .mma 1 0 0 128 .acc .e4m3 false .e4m3 false)] }
     x.arrayQ = (0, .mma 1 0 0 128 .acc .e4m3 false .e4m3 false) :: [] ∧ (∀ f ∈ x.flight, f.c ≠ 1) ∧
     (∀ q ∈ x.pends, q.at_ < 0 → q.wrs.any (Wr.isTile 1) = false) ∧ x.streamFree ≤ x.clk) := by
  decide +kernel

/-- An `mma` of one pass and one row into tile 2. -/
def flight1 : Flight :=
  { c := 2, m := 0, mode := .acc, tag := .fp, rows := 1, start := 0, ends := 1, due := 271, reads := []
    sums := [[List.replicate 128 0x3F800000]], flags := {} }

/-- A `set` of three passes. -/
def flight3 : Flight := { flight1 with mode := .set, tag := .int, sums := List.replicate 3 [List.replicate 128 5] }

theorem wit_MatrixCommit : ∀ f ∈ [flight1, flight3],
    let s := full.setSp 3 { flight := [f], clk := 271 }
    s.mgmt.clockLost = false ∧ (s.sp 3).flight = f :: [] ∧ (∀ sum ∈ f.sums, sum.length = f.rows) ∧ f.due ≤ (s.sp 3).clk ∧
    (f = flight3 → ((s.sp 3).tile.get f.c).tag ≠ f.tag) := by decide +kernel

theorem wit_VectorInstructions : run0.issues hd ∧
    (let x := run0.sp 0
     x.needV [1, 2] = [] ∧ x.needV [1, 1] = [] ∧ vsrcNeed x (.s 3) = [] ∧ vsrcNeed x (.v 3) = [] ∧ x.wawUnits 4 = [] ∧
     x.vPort = [] ∧ x.needV [1] = [] ∧ x.needS [5] = [] ∧ x.needS [0] = [] ∧ convCheck .fp32 .bf16 .sr = none ∧
     convCheck .fp32 .e4m3 .rne = none) := ⟨run0_issues, by decide +kernel⟩

theorem wit_SpecialInstructions : run0.issues hd ∧
    (let x := run0.sp 0
     x.needV [1] = [] ∧ x.needS [5] = [] ∧ x.needS [0] = [] ∧ x.wawUnits 4 = [] ∧ x.vPort = []) ∧
    f32 0x7FC00001 = .nan := ⟨run0_issues, by decide +kernel, by decide +kernel⟩

theorem wit_VectorRowMoves : run0.issues hd ∧ run0.canonical ∧
    (let x := run0.sp 0
     let a := (x.rs 0 + (0x7E00 : BitVec 16).signExtend 64).toNat
     num7 x (.imm 127) = (127 : Fin 128).val ∧ x.needS (num7Regs (.imm 127)) = [] ∧ x.vPort = [] ∧ x.wawUnits 1 = [] ∧
     x.needV [1] = [] ∧ x.needS [0] = [] ∧ x.needTile [2] = [] ∧ x.freeRow 2 = [] ∧ x.freeTile 2 = [] ∧
     (x.tile.get 2).tag = .fp ∧ ownBobbin 0 a 512 = true ∧ a % 16 = 0 ∧ readStall run0 0 (a - bobbinBase 0) 512 = [] ∧
     writeStall run0 0 (a - bobbinBase 0) 512 = []) := ⟨run0_issues, run0_canonical, by decide +kernel⟩

/-- The bytes of one saved entry stand in the bobbin, as its last. -/
def saved (bs : List Byte) : Spindle := { bobbin := cellsWrite [] (64 * 127) bs }

theorem saved_bobbin (bs : List Byte) : (saved bs).bobbin = cellsWrite [] (64 * 127) bs := by unfold saved; rfl

theorem run_sp (x : Spindle) : (run x).sp 0 = { x with share := some share0 } := by
  simp [run, State.sp, State.setSp]

theorem cellsRead_written {bs : List Byte} {o n : Nat} (h : bs.length = n) :
    cellsRead (cellsWrite [] o bs) o n = bs := by
  refine List.ext_getElem (by simp [cellsRead, h]) fun i h1 h2 => ?_
  simp only [cellsRead, List.length_map, List.length_range] at h1
  simp only [cellsRead, List.getElem_map, List.getElem_range]
  rw [cellGet_cellsWrite rfl]
  simp [List.getD_eq_getElem?_getD, h2]

theorem entryBytes_length (e : RowEntry) : (entryBytes e).length = 64 := by
  rw [entryBytes, List.length_map, List.length_range]

theorem saved_reads {bs : List Byte} (h : bs.length = 64) : (run (saved bs)).issues hd ∧
    cellsRead ((run (saved bs)).sp 0).bobbin (64 * 127) 64 = bs := by
  refine ⟨run_issues _ rfl (Nat.le_refl _) (by simp [Spindle.pcBytes, saved]), ?_⟩
  rw [run_sp]
  show cellsRead (saved bs).bobbin (64 * 127) 64 = bs
  rw [saved_bobbin, cellsRead_written h]

theorem wit_VectorRowMoves_files :
    (run0.issues hd ∧
      (let x := run0.sp 0
       let a := (x.rs 0).toNat
       ownBobbin 0 a 8192 = true ∧ a % 16 = 0 ∧ x.needS [0] = [] ∧ queueStall x.clk x.rq = [] ∧
       writeStall run0 0 (a - bobbinBase 0) 8192 = [] ∧ readStall run0 0 (a - bobbinBase 0) 8192 = [])) ∧
    (∀ e, (run (saved (entryBytes e))).issues hd ∧
      cellsRead ((run (saved (entryBytes e))).sp 0).bobbin (64 * 127) 64 = entryBytes e) :=
  ⟨⟨run0_issues, by decide +kernel⟩, fun e => saved_reads (entryBytes_length e)⟩

/-- The statistics entry of a row comes back from the bytes that hold it (04 R114). -/
theorem test_entry_bits :
    let e : RowEntry := .stat 0x40000000 0xBF800000 7 { hi := 1, exp := 600 } { neg := true, lo := 5 } (some 0x3F800000) {} false true false
    entryOf (entryBits e) = e ∧ entryOf (entryBits .empty) = .empty ∧ entryOf (entryBits (.smax 1 2 3)) = .smax 1 2 3 := by
  decide +kernel

/-- A result that is due in cycle 0. -/
def due (w : Wr) : Pend := { at_ := 0, busy := 1, due := 0, reads := [], wrs := [w], flags := { uf := true } }

theorem wit_UnitResults :
    let x : Spindle := { vpend := [due (.v 1 (rep 128 7))], rq := [due (.rowFile (rep 128 .empty))]
                         qq := [due (.e 1 0x80)] }
    let s := full.setSp 135 x
    s.mgmt.clockLost = false ∧ (s.sp 135).vpend = due (.v 1 (rep 128 7)) :: [] ∧ (due (.v 1 (rep 128 7))).due ≤ (s.sp 135).clk ∧
    (s.sp 135).rq = due (.rowFile (rep 128 .empty)) :: [] ∧ (s.sp 135).qq = due (.e 1 0x80) :: [] := by
  decide +kernel

theorem wit_SoftMaximum : run0.issues hd ∧
    (let x := run0.sp 0
     let k := count7 x (.imm 127)
     1 ≤ k ∧ k ≤ 128 ∧ x.needS (3 :: num7Regs (.imm 127) ++ maskRegs (.causal 4)) = [] ∧
     maskRaise x 0 (.causal 4) = [] ∧ maskStall run0 0 (.causal 4) = [] ∧ x.needTile [1] = [] ∧ x.freeTile 2 = [] ∧
     x.needV [1, 2] = [] ∧ x.wawRow 1 = [] ∧ x.wawRow 2 = [] ∧ queueStall x.clk x.rq = [] ∧
     (x.tile.get 1).tag = .fp ∧ (∀ i, RowEntry.isStat (x.rows.get i) = false)) :=
  ⟨run0_issues, by decide +kernel⟩

/-- The statistics of rows of one element 1.0. -/
def statRow : RowEntry :=
  .stat 0x3F800000 0x3F800000 1 { hi := 0x800000, exp := 512 } { hi := 0x800000, exp := 512 } none {} false false false

/-- A spindle with such rows. -/
def statSp : Spindle := { rowFile := rep 128 statRow }

theorem statSp_tile (c : Fin 4) (i : Fin 128) : (((run statSp).sp 0).tile.get c).rows.get i = rep 128 0 := by
  rw [run_sp]
  have h : ∀ (c : Fin 4) (i : Fin 128), (statSp.tile.get c).rows.get i = rep 128 0 := by
    intro c i
    show ((rep 4 ({} : Tile)).get c).rows.get i = rep 128 0
    rw [get_rep]
    exact get_rep _ _ _
  exact h c i

theorem rep_zero : (rep 128 (0 : Lane)).toList.take 1 = [0] := by decide +kernel

theorem wit_RowStatistics : (run statSp).issues hd ∧
    (let x := (run statSp).sp 0
     let k := count7 x (.imm 0)
     1 ≤ k ∧ k ≤ 128 ∧ x.needS (num7Regs (.imm 0)) = [] ∧ x.needS (5 :: num7Regs (.imm 0)) = [] ∧ x.needTile [1] = [] ∧
     x.needTile [1, 2] = [] ∧ x.freeTile 3 = [] ∧ x.needV [4] = [] ∧ x.wawRow 4 = [] ∧ queueStall x.clk x.rq = [] ∧
     (x.tile.get 1).tag = .fp ∧ (x.tile.get 2).tag = .fp) ∧
    (∀ i, RowEntry.isStat (statSp.rows.get i) = true) ∧
    (∀ i : Fin 128, ∀ l ∈ ((((run statSp).sp 0).tile.get 1).rows.get i).toList.take 1, ∃ b m e, f32 l = .fin b m e) := by
  refine ⟨run_issues _ rfl (Nat.le_refl _) (by simp [Spindle.pcBytes, statSp]), by decide +kernel, by decide +kernel,
    fun i l hl => ?_⟩
  rw [statSp_tile, rep_zero, List.mem_singleton] at hl
  rw [hl]
  exact ⟨false, 0, -149, by decide +kernel⟩

theorem wit_ConstantRow : (f32 0x3F800000).same (f32 0x3F800000) = true ∧ (f32 0x80000000).same (f32 0x80000000) = true := by
  decide +kernel

theorem wit_Quantiser_registers : run0.issues hd ∧
    (let x := run0.sp 0
     let a := (x.rs 0).toNat
     queueStall x.clk x.qq = [] ∧ x.needS [1] = [] ∧ x.needE [1] = [] ∧ x.needE [2] = [] ∧ x.freeS 1 ∧
     ownBobbin 0 a (16 * fmtWidth .e4m3) = true ∧ a % 16 = 0 ∧ quantFmt .e4m3 = true ∧ granBlocks (.tensor 1) = false ∧
     x.needS [0, 0] = [] ∧ x.needV [3] = [] ∧ granStall run0 0 (.tensor 1) = [] ∧
     writeStall run0 0 (a - bobbinBase 0) (16 * fmtWidth .e4m3) = []) :=
  ⟨run0_issues, by simp only [Spindle.freeS]; decide +kernel⟩

theorem wit_Quantiser_tiles :
    let s := run { tile := upd (rep 4 {}) 3 { tag := .int } }
    s.issues hd ∧
    (let x := s.sp 0
     let n : Num7 := .imm 127
     let rows := count7 x n
     let a := (x.rs 0).toNat
     let o := a - bobbinBase 0
     1 ≤ rows ∧ rows ≤ 128 ∧ x.needS (0 :: 0 :: num7Regs n) = [] ∧ x.needS (0 :: num7Regs n) = [] ∧
     x.needS (num7Regs n) = [] ∧ x.needTile [1] = [] ∧ queueStall x.clk x.qq = [] ∧
     bobbinBase 0 ≤ a ∧ o + rows * hankPitch .e4m3 ≤ 0x100000 ∧ a % 16 = 0 ∧ o + hankBytes .e4m3 + 512 ≤ 0x100000 ∧
     granStall s 0 .blk = [] ∧ granRaise x 0 .blk = [] ∧ fmtScalable .e4m3 = true ∧ quantFmt .e4m3 = true ∧
     (x.tile.get 1).tag = .fp ∧ (∀ r ∈ imageRanges o .e4m3 true rows, writeStall s 0 r.1 r.2 = []) ∧
     expFmt .e4m3 = true ∧ x.wawQuant 5 = [] ∧ x.needV [5] = [] ∧ x.freeTile 2 = [] ∧
     (∀ r ∈ imageRanges o .e4m3 true rows, readStall s 0 r.1 r.2 = []) ∧
     granBlocks (.tensor 1) = false ∧ granStall s 0 (.tensor 1) = [] ∧ (x.tile.get 0).tag = .fp ∧
     x.needTile [1, 0] = [] ∧ (x.tile.get 3).tag = .int ∧ x.needTile [3] = [] ∧ x.needV [6, 7] = [] ∧
     gtagBlocks .col = false ∧ writeStall s 0 o (rows * hankPitch .i8) = [] ∧ o + rows * hankPitch .i8 ≤ 0x100000) :=
  ⟨run_issues _ rfl (by decide) (by decide), by decide +kernel⟩

/-- Operands of a move of one hank of BF16 from the base of bobbin 0 to the next hank. -/
def fl0 : Fl :=
  { t := 1, sd := 2, ss := 1, sn := 3, fs := .bf16, fd := .bf16, tr := false, rm := .rne, satInf := false, hint := .none
    path := .hold, sp := 0, scs := false, scd := false }

def moving : State := run { s := upd (upd (rep 32 0) 2 0x8000) 3 0xC0000000 }

theorem wit_FlyerAndSync_moves : moving.issues hd ∧ ((moving.sp 0).share.map (·.owner) = some .tenant) ∧
    flEnc fl0 = none ∧
    ∀ op : MoveOp, op = .copy ∨ op = .add ∨ op = .fill →
      let m := flMove (moving.sp 0) 0 op fl0
      m.pitchOk = true ∧ m.skipTooBig = false ∧ m.basesOk = true ∧ m.formatOf = none ∧
      flReach moving 0 .tenant m =
        (if op = .fill then .ok [] else .ok [⟨0, 0, 0x8000⟩], .ok [⟨0x8000, 0x8000, 0x8000⟩], .ok []) ∧
      flStall moving 0 m fl0.t = [] ∧ (moving.sp 0).needS [fl0.sd, fl0.ss, fl0.sn] = [] := by
  refine ⟨run_issues _ rfl (by decide) (by decide), by decide +kernel, by decide, fun op h => ?_⟩
  rcases h with rfl | rfl | rfl <;> decide +kernel

theorem wit_FlyerAndSync_sync :
    let x : Spindle := { s := upd (upd (rep 32 0) 1 16) 2 1, tok := upd (rep 16 .free) 3 .busy }
    let s := run x
    s.issues hd ∧ (s.sp 0).tok.get 0 ≠ .busy ∧ (s.sp 0).freeS 4 ∧ (s.sp 0).tok.get 3 = .busy ∧ (s.sp 0).arrayQ = [] ∧
    (s.sp 0).flight = [] ∧ (s.sp 0).rq = [] ∧ (s.sp 0).qq = [] ∧ (s.sp 0).share = some share0 ∧
    ((s.sp 0).rs 1).toNat = (16 : Fin 4096).val ∧ ((16 : Fin 4096).val < 16 ↔ share0.owner = .controller) ∧
    (s.sp 0).needS [1] = [] ∧ (s.sp 0).needS [1, 0] = [] ∧ ((s.sp 0).rs 0).toNat ≤ (s.q 16).lc ∧
    (s.sp 0).needS [1, 2] = [] ∧ (s.q 16).lc < ((s.sp 0).rs 2).toNat := by
  refine ⟨run_issues _ rfl (by decide) (by decide), ?_⟩
  simp only [Spindle.freeS]
  decide +kernel

/-! ## Statements about kernels, moves and queues -/

/-- Eight stacks of 32 channels in service, all in the interleave. -/
def memUp : Mem :=
  { il := List.finRange 8, ilMib := 393216, stack := rep 8 { up := true, trained := true, channels := 32 }
    chan := rep 256 { st := .inService } }

/-- Full service with memory. -/
def up : State := full.setMem memUp

/-- Descriptor bytes given by their words. -/
def raw (ws : List Nat) : List Byte := ws.flatMap (leBytes 8)

/-- An accepted descriptor of sequence number 1. -/
def desc (ws : List Nat) : Desc := { seq := 1, raw := raw ws, dchk := 0 }

/-- A state whose queue 0 holds one descriptor. -/
def queued (d : Desc) (s : State) : State := s.setQ 0 { s.q 0 with descs := [d], la := 1 }

/-- A KERNEL of one share on logical spindle 0. -/
def kernelWords (image spins : Nat) : List Nat :=
  [1, 0, image, 7 * 2 ^ 32, 0x1200010000, 16 * 2 ^ 32 + 64, spins, 0]

theorem wit_KernelsStart_dispatch :
    (let d := desc (kernelWords 0x1200000000 1)
     let s := queued d up
     let b := kernelBody d.raw
     mayDispatch s 0 0 = some d ∧ kernelCheck d.raw = none ∧
     resolveDesc s 0 false .fetch b.image b.imageLen = .ok [⟨0x1200000000, 0x1200000000, 64⟩] ∧
     resolveDesc s 0 false .fetch b.args b.argLen = .ok [⟨0x1200010000, 0x1200010000, 16⟩]) ∧
    (let d := desc (kernelWords 0x1200000004 1)
     mayDispatch (queued d up) 0 0 = some d ∧ kernelCheck d.raw = some .access) ∧
    (let d := desc (kernelWords 0x1200000000 0)
     mayDispatch (queued d up) 0 0 = some d ∧ kernelCheck d.raw = some .format) := by decide +kernel

/-- A kernel of queue 0 with one share to launch. -/
def kernel0 : Kernel :=
  { queue := 0, seq := 1, segs := [⟨0x1200000000, 0x1200000000, 64⟩], args := [⟨0x1200010000, 0x1200010000, 16⟩]
    seed := 5, warm := false, count := 1, waiting := [(0, 0)], ended := [] }

theorem wit_KernelsStart_launch :
    let d := { desc (kernelWords 0x1200000000 1) with st := .running }
    let s := { queued d up with kernels := [kernel0] }
    let b := kernelBody d.raw
    let s1 := serveSpindle (touchSegs s kernel0.args b.args b.argLen false) 0 0
    mayLaunch s 0 = true ∧ spindleTurn s 0 0 = true ∧
    s.kernels.findSome? (fun j => if j.queue = 0 ∧ !j.stopped ∧ mayHost s 0 j then
      (j.waiting.find? fun w => shareTurn s j 0 w.2).map fun w => (j, w) else none) = some (kernel0, (0, 0)) ∧
    descOf s 0 kernel0.seq = some d ∧ segsMapped s1 (kernel0.segs ++ kernel0.args) = true ∧
    firstPoison s1 kernel0.args b.args b.argLen = none ∧
    firstPoison s1 kernel0.segs b.image b.imageLen = none := by decide +kernel

/-- Spindle 0 runs a share in a given phase. -/
def inPhase (ph : Phase) : State := full.setSp 0 { share := some { share0 with phase := ph } }

theorem wit_ExceptionsTaken_traps : ∀ e : Exc,
    let tr : Trap := { exc := e, cause := 7, len := 1 }
    ((inPhase (.trapping tr)).sp 0).share = some { share0 with phase := .trapping tr } ∧
    quiet (inPhase (.trapping tr)) 0 = true ∧ (inPhase (.trapping tr)).serving = true ∧ (inPhase (.trapping tr)).mgmt.faults.length < 256 ∧
    (inPhase (.trapping tr)).trans.images = [] ∧ ∀ k : Fin 8, ((inPhase (.trapping tr)).sk k).changes = [] := by
  intro e; cases e <;> decide +kernel

theorem wit_ExceptionsTaken_words :
    let s := run { pc := 7 }
    (s.sp 0).share = some share0 ∧ share0.phase = .running ∧ (s.sp 0).fetched = [] ∧
    share0.imageLen < (s.sp 0).pcBytes + 8 * min 4 [(0 : Word), 0].length ∧
    (s.sp 0).pcBytes + 8 * min 4 [(0 : Word)].length ≤ share0.imageLen ∧ wordsWhole [0] = false ∧
    wordsWhole [0xFFF0000000000000] = true ∧
    (wordsBySlot [0xFFF0000000000000]).findSome? (fun w => (wordError w).map fun d => (w, d)) =
      some (0xFFF0000000000000, 0x01) := by decide +kernel

theorem wit_ExceptionsTaken_decodes :
    (run0.sp 0).share = some share0 ∧ share0.phase = .running ∧ (run0.sp 0).fetched = [] ∧
    (run0.sp 0).pcBytes + 8 ≤ share0.imageLen ∧ wordsWhole [0x8000308800000000] = true ∧
    decodeWord 0 0x8000308800000000 = some (.add hd 3 1 2) := by decide +kernel

theorem wit_SharesEnd :
    (let tr : Trap := { exc := .page, cause := 7 }
     let sh := { share0 with phase := .noImage tr true }
     ((inPhase sh.phase).sp 0).share = some sh ∧ sh.drained = false ∧ (inPhase sh.phase).serving = true ∧
     (inPhase sh.phase).trans.images.length < 256 ∧
     (∀ i ∈ (inPhase sh.phase).trans.images, i.resume = false) ∧ ∀ k : Fin 8, ((inPhase sh.phase).sk k).changes = []) ∧
    ∀ n ∈ [1, 2],
      let sh := { share0 with phase := .ending }
      let k : Kernel := { kernel0 with queue := 16, count := n, waiting := [] }
      let d := { desc [1, 0] with st := .running }
      let s := { (inPhase .ending).setQ 16 { descs := [d] } with kernels := [k] }
      (s.sp 0).share = some sh ∧ sh.phase = .ending ∧ quiet s 0 = true ∧ s.serving = true ∧ sh.moveFaulted = false ∧
      kernelOf s sh.queue sh.seq = some k ∧ descOf s sh.queue sh.seq = some d ∧ d.st = .running ∧ s.trans.images = [] ∧
      (∀ k : Fin 8, (s.sk k).changes = []) ∧ (k.ended.length + 1 < k.count ∨ k.ended.length + 1 = k.count) := by
  exact ⟨by decide +kernel, by decide +kernel⟩

/-- A MOVE of one BF16 hank image by operation `op`. -/
def moveWords (op path : Nat) : List Nat :=
  [1, 1, if op = 2 then 7 else 0x1200000000, 0x1200100000, 0xC0000000, op + 2 * 16 + 2 * 256 + path * 2 ^ 18, 0, 0]

theorem wit_Moves_dispatch : ∀ x ∈ [(0, MoveOp.copy), (1, .add), (2, .fill)],
    (let d := desc (moveWords x.1 0)
     let s := queued d up
     let m := descMove s 0 d x.2
     mayDispatch s 0 1 = some d ∧ fieldAt d.raw 0x28 0 3 = x.1 ∧ moveCheck d.raw m = none ∧
     (descReach s 0 m).1 = (if x.2 = .fill then .ok [] else .ok [⟨0x1200000000, 0x1200000000, 0x8000⟩]) ∧
     (descReach s 0 m).2 = (.ok [⟨0x1200100000, 0x1200100000, 0x8000⟩], .ok []) ∧
     flyerTurn s 0 (moveSkein s { m with
       srcSegs := if x.2 = .fill then [] else [⟨0x1200000000, 0x1200000000, 0x8000⟩]
       dstSegs := [⟨0x1200100000, 0x1200100000, 0x8000⟩] }) = true) ∧
    (let d := desc (moveWords x.1 3)
     let s := queued d up
     mayDispatch s 0 1 = some d ∧ moveCheck d.raw (descMove s 0 d x.2) = some .format) := by decide +kernel

/-- A FILL of one FP32 element of bobbin 0 by a flyer instruction of spindle 0. -/
def fill0 : Move :=
  { origin := .instr 0 3, queue := 16, op := .fill, src := 0, dst := 0x40, shadow := 0, srcSegs := []
    dstSegs := [⟨0x40, 0x40, 4⟩], shSegs := [], fillv := 0x3F800000, shape := 0x0002000000810000, fs := .fp32, fd := .fp32
    tr := false, rm := .rne, satInf := false, hint := .none, path := .hold, scs := false, scd := false, seed := 0, step := 0
    ix := 0, deadline := 9 }

/-- Flyer 3 of skein 0 holds a move. -/
def flying (m : Move) : State := up.setSk 0 { fly := upd (rep 4 {}) 3 { move := some m } }

theorem wit_Moves_end :
    (let m := { fill0 with dropped := true }
     (((flying m).sk 0).fly.get 3).move = some m ∧ m.origin = .instr 0 3 ∧ moveHeld (flying m) m = false ∧
     (flying m).serving = true ∧ m.op ≠ .add ∧
     m.poisonMet (flying m) 0 = none ∧ m.dropped = true) ∧
    (let s := flying fill0
     ((s.sk 0).fly.get 3).move = some fill0 ∧ moveHeld s fill0 = false ∧ s.serving = true ∧ fill0.op ≠ .add ∧ fill0.poisonMet s 0 = none ∧
     fill0.dropped = false ∧ fill0.faulted = false ∧ fill0.stopped = false ∧ fill0.meetsPoison s = false ∧
     segsMapped s (fill0.srcSegs ++ fill0.dstSegs ++ fill0.shSegs) = true ∧
     (fill0.writes s fill0.dest.hanks).1 = [(0x40, [0, 0, 0x80, 0x3F])] ∧
     (applyWrites (fill0.traffic s [(0x40, [0, 0, 0x80, 0x3F])]) fill0.dstSegs [(0x40, [0, 0, 0x80, 0x3F])]).2 = true) := by
  decide +kernel

theorem wit_Moves_deadline : ∀ p : Path,
    let m := { fill0 with path := p }
    ((flying m).skeins.toList.flatMap Skein.moves).find? (fun x => x.origin = m.origin) = some m ∧ m.deadline ≠ 0 ∧
    m.missed = false ∧ (flying m).serving = true := by
  intro p; cases p <;> decide +kernel

/-- A creel operation on slot 1 of skein 0; BIND takes one lea. -/
def creelWords (op : Nat) : List Nat :=
  [1, 1, if op = 3 then 0x1200000000 else 0, 0, if op = 3 then 0x10100 else 0x100, op, 0, 0]

/-- A binding of queue 0 in slot 1 of skein 0 with one byte not written back. -/
def binding0 : Binding :=
  { queue := 0, slot := 1, backing := 0x1200000000, segs := [⟨0x1200000000, 0x1200000000, 0x10000⟩], leas := 1
    fill := true, pinned := false, hint := .stream, sectors := .dirty :: List.replicate 15 .invalid
    data := [(0x10008000000, 7)] }

/-- Skein 0 with bindings. -/
def bound (bs : List Binding) (s : State) : State := s.setSk 0 { bindings := bs }

theorem wit_CreelWork_bind :
    let d := desc (creelWords 3)
    let s := queued d up
    let c := creelBody d.raw
    let segs : List Seg := [⟨0x1200000000, 0x1200000000, 0x10000⟩]
    creelTurn s 0 3 = some d ∧ s.mgmt.phase = .full ∧ creelClean d.raw true = true ∧ c.backing % 0x10000 = 0 ∧
    c.leas ≠ 0 ∧ c.leas ≤ 256 ∧ resolveDesc s 0 false .read c.backing (c.leas * 0x10000) = .ok segs ∧
    allStacked s segs = true ∧ slotBinding s 0 c.slot = none ∧ overlapsLive s segs = false ∧
    overlapsEvicting s segs = false ∧ queueOwner 0 ≠ .tenant ∧ overlapsPlane s segs = false ∧ (s.sk c.skein).heldBy 0 + c.leas ≤ (s.q 0).leas ∧ c.leas ≤ (s.sk c.skein).leasFree ∧
    c.pin = false ∧ (∀ b ∈ (s.sk c.skein).bindings, b.evicting = true → b.evictor ≠ some (0, d.seq)) := by decide +kernel

theorem canonical_of {s : State} (h1 : Memory.wf s.mem.cells = true) (h2 : (List.finRange 136).all fun p => Memory.wf (s.sp p).bobbin)
    (h3 : s.trans.images = []) (h4 : Memory.wf s.mgmt.win = true) : s.canonical := by
  refine ⟨h1, fun p => List.all_eq_true.mp h2 p (List.mem_finRange p), ?_, h4⟩
  rw [h3]; simp

theorem wit_CreelWork_slot : ∀ op ∈ [4, 5, 6, 7],
    let d := desc (creelWords op)
    let s := bound [binding0] (queued d up)
    let s := s.setQ 0 { s.q 0 with pin := 1 }
    s.canonical ∧ creelClean d.raw false = true ∧ slotBinding s 0 (creelBody d.raw).slot = some (0, binding0) ∧
    binding0 ∈ (s.sk 0).bindings ∧ (binding0.data.map (·.1)).Nodup ∧ (s.sk 0).bindWait = [] ∧ creelTurn s 0 op = some d ∧
    (s.sk 0).pinnedBy 0 + binding0.leas ≤ (s.q 0).pin ∧ (s.sk 0).pinnedLeas + binding0.leas ≤ 224 := by
  intro op h
  refine ⟨canonical_of rfl (by revert op; decide +kernel) rfl rfl, ?_⟩
  revert op
  decide +kernel

theorem wit_CreelWork_own :
    (let b := { binding0 with evicting := true }
     ((bound [b] up).sk 0).bindings.find? (·.evicting) = some b ∧ (b.data.map (·.1)).Nodup ∧
     ((bound [b] up).sk 0).bindWait = [] ∧ (bound [b] up).serving = true) ∧ (bound [binding0] up).canonical ∧
    slotBinding (bound [binding0] up) 0 1 = some (0, binding0) ∧ binding0.fill = true ∧
    binding0.sectors[15]? = some .invalid :=
  ⟨by decide +kernel, canonical_of rfl (by decide +kernel) rfl rfl, by decide +kernel⟩

theorem wit_SlotRules :
    (let d := desc (creelWords 3)
     let s := bound [binding0] (queued d up)
     creelTurn s 0 3 = some d ∧ creelClean d.raw true = true ∧ slotBinding s 0 (creelBody d.raw).slot ≠ none ∧
     overlapsLive s [⟨0x1200000000, 0x1200000000, 0x10000⟩] = true ∧
     resolveDesc s 0 false .read 0x1200000000 0x10000 = .ok [⟨0x1200000000, 0x1200000000, 0x10000⟩]) ∧
    (∀ op ∈ [4, 5, 6, 7],
      let d := desc (creelWords op)
      let s := queued d up
      (∀ k : Fin 8, (s.sk k).bindings = []) ∧ creelClean d.raw false = true ∧ creelTurn s 0 op = some d) := by
  decide +kernel

theorem wit_WaitFenceResume_wait :
    (∀ target ∈ [0, 1],
      let d := desc [1, 6, 0, target, 0, 0, 0, 0]
      let s := queued d up
      (s.q 0).descs = [d] ∧ hdrClean d.raw = true ∧ hdrNcont d.raw = 0 ∧ mayDispatch s 0 6 = some d ∧
      zeros d.raw [(0x10, 12, 63), (0x20, 0, 63), (0x28, 0, 63), (0x30, 0, 63), (0x38, 0, 63)] = true ∧
      (word64 d.raw 0x18 ≤ (s.q 0).lc ↔ target = 0)) ∧
    (let d := desc [1, 7, 1, 0, 0, 0, 0, 0]
     let s := queued d up
     (s.q 0).descs = [d] ∧ hdrClean d.raw = true ∧ hdrNcont d.raw = 0 ∧ mayDispatch s 0 7 = some d ∧
     zeros d.raw [(0x10, 1, 63), (0x18, 0, 63), (0x20, 0, 63), (0x28, 0, 63), (0x30, 0, 63), (0x38, 0, 63)] = true) ∧
    (let d := desc [1, 8, 2 ^ 32 + 9, 5, 0, 0, 0, 0]
     let s := queued d up
     (s.q 0).descs = [d] ∧ hdrClean d.raw = true ∧ hdrNcont d.raw = 0 ∧ reservedTurn s 0 = none ∧
     mayDispatch s 0 8 = some d ∧
     zeros d.raw [(0x10, 33, 63), (0x20, 0, 63), (0x28, 0, 63), (0x30, 0, 63), (0x38, 0, 63)] = true) := by
  decide +kernel

/-- A RESUME of fault 1 of queue 16. -/
def resume0 : Desc := desc [1, 10, 16, 1, 0, 0, 0, 0]

/-- A share of queue 16 halted by BREAK on spindle 0, with its fault or another one. -/
def halted0 (f : PFault) : State :=
  let s := queued resume0 (up.setSp 0 { share := some { share0 with phase := .halted 1 } })
  s.setTrans { s.trans with faults := [f] }

theorem wit_WaitFenceResume_resume :
    (let s := queued resume0 up
     mayDispatch s 0 10 = some resume0 ∧ hdrClean resume0.raw = true ∧ hdrNcont resume0.raw = 0 ∧
     zeros resume0.raw [(0x10, 12, 31), (0x10, 33, 63), (0x18, 32, 63), (0x20, 0, 63), (0x28, 0, 63), (0x30, 0, 63),
       (0x38, 0, 63)] = true ∧ queueOwner 0 = .controller ∧ fieldAt resume0.raw 0x10 0 11 = 16 ∧
     fieldAt resume0.raw 0x18 0 31 = 1 ∧ s.trans.faults.find? (fun f => f.id = 1 ∧ f.queue = 16) = none) ∧
    (let f : PFault := { id := 1, queue := 16, work := .desc 4 }
     mayDispatch (halted0 f) 0 10 = some resume0 ∧
     (halted0 f).trans.faults.find? (fun f => f.id = 1 ∧ f.queue = 16) = some f ∧ fieldAt resume0.raw 0x10 32 32 = 0) ∧
    (let f : PFault := { id := 1, queue := 16, work := .share 0 1, brk := true }
     mayDispatch (halted0 f) 0 10 = some resume0 ∧
     (halted0 f).trans.faults.find? (fun f => f.id = 1 ∧ f.queue = 16) = some f ∧
     imageOf (halted0 f) 16 1 0 = none ∧ spindleOf (halted0 f) 16 1 0 = some 0 ∧
     Option.map Share.phase ((halted0 f).sp 0).share = some (.halted 1)) := by decide +kernel

/-- A RESUME of fault 1 of queue 16 with ABANDON. -/
def abandon0 : Desc := desc [1, 10, 16 + 2 ^ 32, 1, 0, 0, 0, 0]

/-- A share of queue 16 switched out by a page fault: its image, its kernel, and the state in which `d` names its fault. -/
def image0 : SaveImage := { queue := 16, share := share0, regs := {} }
def kernel16 : Kernel := { kernel0 with queue := 16, count := 2, waiting := [] }
def faulted0 (d : Desc) (x : Spindle) : State :=
  let s := queued d (up.setSp 0 x)
  { s.setTrans { s.trans with faults := [{ id := 1, queue := 16, work := .share 0 1 }], images := [image0] } with
    kernels := [kernel16] }

theorem wit_WaitFenceResume_image :
    (∀ x : Spindle, x = {} ∨ x = { share := some share0 } →
      let s := faulted0 resume0 x
      mayDispatch s 0 10 = some resume0 ∧
      s.trans.faults.find? (fun f => f.id = 1 ∧ f.queue = 16) = some { id := 1, queue := 16, work := .share 0 1 } ∧
      s.trans.images = [image0] ∧ imageOf s 16 1 0 = some image0 ∧ kernelOf s 16 1 = some kernel16 ∧
      shareHost s kernel16 0 = some 0 ∧ (∀ j, (s.sk j).changes = [])) ∧
    ((faulted0 resume0 { share := some share0 }).sp 0).share ≠ none ∧
    (let s := faulted0 resume0 {}
     (s.sp 0).share = none ∧ s.worksFor image0.queue = true ∧ mayHost s 0 kernel16 = true ∧ shareTurn s kernel16 0 0 = true) := by
  refine ⟨fun x h => ?_, by decide +kernel, by decide +kernel⟩
  rcases h with rfl | rfl <;> decide +kernel

theorem wit_WaitFenceResume_abandon :
    mayDispatch (queued abandon0 up) 0 10 = some abandon0 ∧ hdrClean abandon0.raw = true ∧ hdrNcont abandon0.raw = 0 ∧
    zeros abandon0.raw [(0x10, 12, 31), (0x10, 33, 63), (0x18, 32, 63), (0x20, 0, 63), (0x28, 0, 63), (0x30, 0, 63),
      (0x38, 0, 63)] = true ∧ fieldAt abandon0.raw 0x10 0 11 = 16 ∧ fieldAt abandon0.raw 0x10 32 32 = 1 ∧
    (let e := { desc [1, 1] with seq := 4 }
     let s := queued abandon0 (up.setQ 16 { descs := [e] })
     descOf s 16 4 = some e ∧ e.st = .accepted) ∧
    (let s := faulted0 abandon0 {}
     s.trans.images = [image0] ∧ imageOf s 16 1 0 = some image0 ∧ kernelOf s 16 1 = some kernel16 ∧
     kernel16.ended.length + 1 < kernel16.count ∧ image0.share.moveFaulted = false) ∧
    (let s := { faulted0 abandon0 { share := some { share0 with phase := .halted 1 } } with kernels := [] }
     let s := s.setTrans { s.trans with images := [] }
     imageOf s 16 1 0 = none ∧ spindleOf s 16 1 0 = some 0 ∧ (s.sp 0).share = some { share0 with phase := .halted 1 }) := by
  decide +kernel

theorem wit_DescriptorCompletes : ∀ st ∈ [Status.ok, .access],
    let d := { desc [1, 8] with st := .finished st {} 0 0 9 }
    let s := queued d up
    s.worksFor 0 = true ∧ (s.q 0).descs = d :: [] ∧ s.canonical ∧ (∀ k, (s.sk k).bindings = []) ∧ ringArea ≤ (s.q 0).cfg.cpl d.seq ∧
    (s.q 0).cfg.cpl d.seq + 32 ≤ reserveTop s.mem ∧ reserveTop s.mem ≤ 0x7000000000 ∧ (s.q 0).st = .opened := by
  intro st h d s
  have h1 : (List.finRange 136).all fun p => Memory.wf (s.sp p).bobbin := by revert st; decide +kernel
  refine ⟨?_, ?_, canonical_of rfl h1 rfl rfl, ?_, ?_⟩ <;> (revert st; decide +kernel)

/-- Queue 3 with staged words. -/
def staged3 (cfg : Word) : State := up.setQ 3 { up.q 3 with staged := [(0, 0x0010000000080000), (8, cfg)] }

/-- What the staged words of queue 3 say. -/
def cfg3 (cfg : Word) : QCfg :=
  let x := (staged3 cfg).q 3
  qcfgOf (stagedOr x.staged 0x00 x.cfg.ringWord) (stagedOr x.staged 0x08 x.cfg.cfgWord) (stagedOr x.staged 0x10 x.cfg.seed)

theorem up_q (o : Fin 4096) (h : o ≠ 0) : up.q o = {} := by
  have e : ∀ s : State, s.queues = State.reset.queues → s.q o = {} := by
    intro s hs
    unfold State.q
    rw [hs]
    show (upd (rep 4096 ({} : Queue)) 0 _).get o = {}
    rw [get_upd_ne _ _ h, get_rep]
  exact e up rfl

theorem staged3_others (cfg : Word) : ((List.finRange 4096).all fun o => o == 3 || !((staged3 cfg).q o).cfg.enable ||
    (cfg3 cfg).rings.all fun r => ((staged3 cfg).q o).cfg.rings.all fun t => !overlap r.1 r.2 t.1 t.2) =
    ((cfg3 cfg).rings.all fun r => (up.q 0).cfg.rings.all fun t => !overlap r.1 r.2 t.1 t.2) := by
  have h3 : ∀ o : Fin 4096, o ≠ 3 → (staged3 cfg).q o = up.q o := fun o h => by
    simp [staged3, State.q, State.setQ, get_upd_ne _ _ h]
  rw [Bool.eq_iff_iff, List.all_eq_true]
  constructor
  · intro h
    have := h 0 (List.mem_finRange 0)
    rw [h3 0 (by decide)] at this
    have e : (up.q 0).cfg.enable = true := by decide +kernel
    simpa [e] using this
  · intro h o _
    by_cases e3 : o = 3
    · simp [e3]
    · rw [h3 o e3]
      by_cases e0 : o = 0
      · subst e0; rw [h]; simp
      · rw [up_q o e0]; simp

theorem wit_QueueOrders_orders :
    (let s := up.setQ 0 { up.q 0 with st := .held }
     (s.q 0).st = .held ∧ (s.trans.faults.all fun f => f.brk || f.queue != 0) = true) ∧
    (up.q 3).st = .off ∧ (up.q 0).st ≠ .off ∧
    ((staged3 0x106).q 3).staged ≠ [] ∧ queueGroupOk (staged3 0x106) 3 (cfg3 0x106) = true ∧
    ((staged3 0x105).q 3).staged ≠ [] ∧ queueGroupOk (staged3 0x105) 3 (cfg3 0x105) = false := by
  refine ⟨by decide +kernel, by decide +kernel, by decide +kernel, by decide +kernel, ?_, by decide +kernel, by decide +kernel⟩
  unfold queueGroupOk
  rw [staged3_others]
  decide +kernel

theorem wit_QueueOrders_drain :
    ((up.q 0).st ≠ .off ∧ (up.q 0).st ≠ .draining) ∧
    ∀ b : Bool,
      let s := up.setQ 0 { up.q 0 with st := .draining, closing := b }
      (s.q 0).st = .draining ∧ (s.q 0).descs = [] ∧ (s.q 0).closing = b := by decide +kernel

/-- The ring of queue 0 holds one MARK below TAIL. -/
def ringing : State :=
  (up.setMem { memUp with cells := cellsWrite [] 0x1040000000 (raw [1, 8, 7, 0, 0, 0, 0, 0]) }).setQ 0 { up.q 0 with tail := 1 }

theorem wit_QueueOrders_accept : wantsAccept ringing 0 = true ∧ acceptTurn ringing 0 = true ∧ paused ringing 0 = false ∧
    headEntries ringing 0 = some (raw [1, 8, 7, 0, 0, 0, 0, 0]) ∧
    hdrSeq (raw [1, 8, 7, 0, 0, 0, 0, 0]) = (ringing.q 0).la + 1 ∧
    journalUse ringing + (raw [1, 8, 7, 0, 0, 0, 0, 0]).length / 64 ≤ 2097152 := by
  refine ⟨by decide +kernel, ?_, by decide +kernel, by decide +kernel, by decide +kernel, by decide +kernel⟩
  unfold acceptTurn
  refine List.all_eq_true.mpr fun o _ => ?_
  by_cases h : o = 0
  · simp [h]
  · have e : ringing.q o = {} := by
      rw [← up_q o h]
      simp [ringing, State.q, State.setQ, State.setMem, get_upd_ne _ _ h]
    simp [wantsAccept, queueAccepts, e]

/-! ## Statements about memory, translation, distaff work and parts -/

/-- A stack of `up` changed. -/
def stacked (k : Fin 8) (x : Stack) (s : State) : State :=
  s.setMem { s.mem with stack := upd s.mem.stack k x }

theorem wit_StackLoss_mirror :
    let s := { stacked 0 { lost := true, channels := 32 } up with jrn := { rebuilding := true } }
    s.jrn.rebuilding = true ∧ s.jrn.mirrorA ≠ s.jrn.mirrorB ∧ (s.mem.stack.get s.jrn.mirrorA).lost = true ∧
    (s.mem.stack.get s.jrn.mirrorB).lost = false ∧
    (∃ k, k ≠ s.jrn.mirrorB ∧ (s.mem.stack.get k).up = true ∧ (s.mem.stack.get k).lost = false) ∧
    s.mgmt.faults.length < 256 := by decide +kernel

theorem wit_StackLoss_memory :
    ((up.mem.stack.get 7).up = true ∧ (up.mem.stack.get 7).lost = false ∧ up.mem.migWait = [] ∧ up.mem.heldCtrl = []) ∧
    (let s := stacked 0 { lost := true, channels := 32 } (up.setMem { memUp with il := [] })
     s.mem.mig = none ∧ s.mem.il = [] ∧ s.mgmt.phase = .full ∧ (∃ j, (s.mem.stack.get j).lost = true) ∧
     ∀ j : Fin 8, (s.mem.stack.get j).channels = 32) ∧
    (∀ l ∈ [CxlLink.up, .down, .training, .unmapped],
      let s := up.setMem { memUp with far := upd (rep 2 {}) 1 { link := l } }
      (s.mem.far.get 1).link = l) := by decide +kernel

/-- A TABLE_UPDATE of one record of a stage: a page of 64 KiB at input 0 and output 0x100000. -/
def updWords (stage : Nat) : List Nat :=
  [1, 9 + 2 ^ 16, stage + 2 ^ 8, 1, 0, 0, 0, 0, 0x5C, 2 ^ 20 + 1, 0, 0, 0, 0, 0, 0]

/-- Tenant queue 16 holds it. -/
def updating (stage : Nat) : State :=
  up.setQ 16 { st := .opened, la := 1, descs := [desc (updWords stage)] }

theorem updating_check : updateCheck (updating 1) 16 (desc (updWords 1)) =
    if 0x4000000 < Config.tableBytes 1 then some .quota else none := by
  have h1 : updateFormOk (desc (updWords 1)).raw = true := by decide +kernel
  have h2 : ((updateOf 16 (desc (updWords 1))).stage == 1) = true := by decide +kernel
  have h3 : (queueOwner 16 == Owner.controller) = false := by decide
  have h4 : ¬(updateOf 16 (desc (updWords 1))).gen ≤ (genOf (updating 1) (updateOf 16 (desc (updWords 1))).stage).toNat := by
    decide +kernel
  have h5 : ¬(updateOf 16 (desc (updWords 1))).stage = 2 := by decide +kernel
  have h6 : (applyRecs (pagesOf (updating 1) (updateOf 16 (desc (updWords 1))).stage)
      (updateOf 16 (desc (updWords 1))).recs).length = 1 := by decide +kernel
  simp [updateCheck, h1, h2, h3, h4, h5, h6]

theorem wit_TableUpdates_dispatch (h : Config.tableBytes 1 ≤ 0x4000000) :
    (mayDispatch (updating 1) 16 9 = some (desc (updWords 1)) ∧
      ((updating 1).trans.updates.any fun v => v.stage == (updateOf 16 (desc (updWords 1))).stage && !v.applied) = false ∧
      updateCheck (updating 1) 16 (desc (updWords 1)) = none) ∧
    (mayDispatch (updating 3) 16 9 = some (desc (updWords 3)) ∧
      ((updating 3).trans.updates.any fun v => v.stage == (updateOf 16 (desc (updWords 3))).stage && !v.applied) = false ∧
      updateCheck (updating 3) 16 (desc (updWords 3)) = some .format) := by
  refine ⟨⟨by decide +kernel, by decide +kernel, ?_⟩, by decide +kernel, by decide +kernel, by decide +kernel⟩
  rw [updating_check, if_neg (by omega)]

theorem wit_TableUpdates_apply : ∀ b : Bool,
    let d := { desc (updWords 1) with st := .running }
    let u := { updateOf 16 d with applied := b }
    let s := (up.setQ 16 { st := .opened, la := 1, descs := [d] }).setTrans { updates := [u] }
    s.trans.updates.find? (fun u => u.queue = 16 ∧ u.applied = b) = some u ∧ mayApply s u = true ∧
    s.trans.updates.find? (fun u => u.queue = 16 ∧ u.applied = b ∧ !updateHeld s (u.queue, u.seq)) = some u ∧
    updateHeld s (u.queue, u.seq) = false ∧ s.serving = true ∧ (descOf s 16 u.seq).map (·.st) = some .running := by decide +kernel

/-- Address of the block of a sweep, in the alias window of stack 0. -/
def blockAt : Nat := 0x10040000000

/-- A sweep block of an algorithm (4: a digest of the plane P): one segment of one element on stack 0. -/
def blockWords (algo : Nat) : List Nat :=
  let base (j : Nat) (used : Bool) : Nat := if used then 0x10050000000 + j * 0x10000 else 0
  [(if algo = 4 then 2 ^ 12 else algo) + 2 * 16 + 2 ^ 16 + 16 * 2 ^ 24, 0, 0, 0, 0, 2 ^ 32, blockAt + 0x10000, blockAt + 0x20000,
   blockAt + 0x30000, 0, 0, 0, 0, 0, 0, 0, 1, 0, base 0 (decide (algo < 3)), base 1 (algo != 3), base 2 (decide (algo < 3)),
   base 3 (algo == 0), base 4 (algo != 4), 0] ++ List.replicate 56 0

/-- The descriptor of a sweep over the block, of a step. -/
def sweepWords (type step : Nat) : List Nat := [1, type, blockAt, step, 0, 0, 0, 0]

/-- The type of its descriptor, its kind and its bytes. -/
def typeOf (algo : Nat) : Nat := if algo = 4 then 5 else 4
def kindOf (algo : Nat) : SweepKind := if algo = 4 then .digest else if algo = 3 then .check else .optim
def block (algo : Nat) : List Byte := raw (blockWords algo)
def sweepDesc (algo step : Nat) : Desc := desc (sweepWords (typeOf algo) step)

/-- Queue 0 holds the descriptor, memory the block. -/
def sweeping (algo step : Nat) : State :=
  queued (sweepDesc algo step) (up.setMem { memUp with cells := cellsWrite [] blockAt (block algo) })

/-- Where the block and the decision area of a sweep stand. -/
def bsegs0 : List Seg := [⟨blockAt, blockAt, 640⟩]
def dsegs0 : List Seg := [⟨blockAt + 0x20000, blockAt + 0x20000, 9⟩]

theorem wit_Sweeps_block : ∀ algo ∈ [0, 4], readSegs (sweeping algo 0) bsegs0 blockAt 640 = block algo := by
  decide +kernel

theorem wit_Sweeps_admit : ∀ algo ∈ [0, 1, 2, 3, 4],
    (algo < 4 → blkAlgo (block algo) = algo) ∧ blockFormOk (block algo) (kindOf algo) = true ∧
    (sweepOf (distTouch (sweeping algo 0) bsegs0 blockAt 640 false) 0 (sweepDesc algo 0) (block algo) bsegs0
      (kindOf algo)).map (·.decSegs) = some (if algo = 4 then [] else dsegs0) := by decide +kernel

theorem wit_Sweeps_dispatch : ∀ algo ∈ [0, 4], ∀ step ∈ [0, 5],
    mayDispatch (sweeping algo step) 0 (typeOf algo) = some (sweepDesc algo step) ∧
    hdrClean (sweepDesc algo step).raw = true ∧ hdrNcont (sweepDesc algo step).raw = 0 ∧
    zeros (sweepDesc algo step).raw [(0x18, 32, 63), (0x20, 0, 63), (0x28, 0, 63), (0x30, 0, 63), (0x38, 0, 63)] = true ∧
    blockSegs (sweeping algo step) 0 (sweepDesc algo step).raw false = some bsegs0 ∧
    word64 (sweepDesc algo step).raw 0x10 = blockAt ∧
    segsPoisoned (sweeping algo step) bsegs0 blockAt 640 = false ∧
    (let s1 := distTouch (sweeping algo step) bsegs0 blockAt 640 false
     (blockSegs s1 0 (sweepDesc algo step).raw true).isSome = true ∧
     segsPoisoned s1 dsegs0 (blockAt + 0x20000) 9 = false ∧
     (fieldAt (readSegs s1 dsegs0 (blockAt + 0x20000) 9) 0 32 63 =
       fieldAt (sweepDesc algo step).raw 0x18 0 31 ↔ step = 0)) := by decide +kernel

/-- An OPTIM, CHECK or DIGEST of the block in progress. -/
def sweep0 (algo : Nat) : Sweep :=
  { queue := 0, seq := 1, kind := kindOf algo, step := 0, seed := 0, block := block algo, blockSeg := bsegs0
    tabSegs := [⟨blockAt + 0x10000, blockAt + 0x10000, 8⟩], decSegs := dsegs0
    resSegs := [⟨blockAt + 0x30000, blockAt + 0x30000, 512⟩], skip := false, parts := [] }

/-- The segment of the AdamW block, with its planes translated. -/
def part0 : SweepSeg :=
  { stack := 0, count := 1, kind := false, nodecay := false, ix := 0
    base := (List.range 5).map fun j => 0x10050000000 + j * 0x10000
    segs := (List.range 5).map fun j => ⟨0x10050000000 + j * 0x10000, 0x10050000000 + j * 0x10000, 4⟩, bucket0 := 0 }

/-- Queue 0 runs a sweep. -/
def swept (w : Sweep) : State :=
  { queued { sweepDesc 0 0 with st := .running } up with sweeps := [w] }

theorem wit_Sweeps_unit :
    let w := { sweep0 0 with parts := [part0] }
    let s := swept w
    let e := unitEntries w part0 (part0.done * 1024) 1
    let s0 := distTouch (serveDistaff s 0 0) w.tabSegs e.1 e.2 false
    s.sweeps = [w] ∧ w.queue = 0 ∧ w.kind = .optim ∧ sweepHeld s w = false ∧
    min 1024 (part0.count - part0.done * 1024) = 1 ∧
    segsMapped (serveDistaff s 0 0) (part0.segs ++ if w.skip then [] else w.tabSegs) = true ∧
    w.parts.find? (fun g => g.stack = 0 ∧ g.open_ = true) = some part0 ∧ distaffRuns s 0 = true ∧
    (let n := min 1024 (part0.count - part0.done * 1024)
     let es := (List.range n).map fun i => elemWrites s0 w part0 (part0.done * 1024 + i)
     let ws := unitWrites w part0 (part0.done * 1024) n (es.flatMap (·.1))
     unitPoison s0 w part0 (part0.done * 1024) n = none ∧
     ∀ x ∈ ws, firstPart s0 part0.segs x.1 x.2.length = none) := by decide +kernel

theorem wit_Sweeps_end : ∀ algo ∈ [0, 3, 4],
    let w := sweep0 algo
    let s := swept w
    let d := { sweepDesc 0 0 with st := .running }
    let s0 := dropPlanes s w
    s.sweeps = [w] ∧ w.queue = 0 ∧ sweepHeld s w = false ∧ descOf s 0 w.seq = some d ∧ d.st = .running ∧
    w.parts.any (fun g => !g.lost && !distaffRuns s g.stack) = false ∧ w.parts.any SweepSeg.open_ = false ∧
    w.bad = false ∧ (∀ i : Fin 8, (s.sk i).bindWait = []) ∧
    segsMapped s (w.blockSeg ++ w.tabSegs ++ w.decSegs ++ w.resSegs ++ w.parts.flatMap (·.segs)) = true ∧
    (sweepPoison s0 w = none ∧ stepSlot s0 = none) ∧
    firstPoison s0 w.tabSegs (blkBtab w.block) (8 * blkBuckets w.block) = none := by
  decide +kernel

theorem wit_Sweeps_written :
    (let w := sweep0 0
     let s0 := dropPlanes (swept w) w
     ∀ x ∈ joinWrites (endWrites s0 w) ++ blockWrites w (word64 (sweepDesc 0 0).raw 0x10),
       firstPart s0 (w.tabSegs ++ w.blockSeg) x.1 x.2.length = none) ∧
    (let w := sweep0 3
     let s0 := dropPlanes (swept w) w
     ∀ x ∈ checkWrites s0 w ++
         [(blkDecision w.block, decisionBytes w.step.toNat (!(marked s0 w).isEmpty) (overflowMap s0 w))],
       firstPart s0 (w.tabSegs ++ w.resSegs ++ w.decSegs) x.1 x.2.length = none) ∧
    (let w := sweep0 4
     let s0 := dropPlanes (swept w) w
     ∀ x ∈ digestWrites s0 w, firstPart s0 w.resSegs x.1 x.2.length = none) := by decide +kernel

/-- The DIGEST of the block that group 3 compares. -/
def comparing : State :=
  (swept (sweep0 4)).setSlot 7
    { cfg := { group := 3, members := 2, enable := true, step := true, map := [0xFF, 0] }, st := .ready, freshDigest := true }

theorem wit_Sweeps_compared :
    let w := sweep0 4
    let s := comparing
    s.sweeps = [w] ∧ w.queue = 0 ∧ sweepHeld s w = false ∧ w.kind = .digest ∧ w.bad = false ∧
    w.parts.any (fun g => !g.lost && !distaffRuns s g.stack) = false ∧ (∀ i : Fin 8, (s.sk i).bindWait = []) ∧
    segsMapped s w.allSegs = true ∧ sweepPoison (dropPlanes s w) w = none ∧ stepSlot s = some 7 ∧
    digestCompared s 7 w.step.toNat = true ∧ (s.slot 7).short = false := by decide +kernel

theorem wit_Sweeps_redo :
    let s := stacked 0 { up := true, channels := 32, distWait := true } (swept { sweep0 0 with parts := [part0] })
    (s.mem.stack.get 0).distWait = true ∧
    ∀ w ∈ s.sweeps, ∀ g ∈ w.parts, g.stack = 0 → g.lost = false → migPassed s g.segs = true := by
  decide +kernel

/-- Skein 7 with a change of its map that waits. -/
def changing (c : MapChange) : State := up.setSk 7 { changes := [c] }

theorem wit_PartFaults :
    ((up.sk 7).healthy.getLsbD (localOf 135).val = true ∧ (up.sk 7).spare = localIx (localOf 135) ∧
      ∀ j : Fin 8, (up.sk j).changes = []) ∧
    ((up.sk 0).healthy.getLsbD (localOf 3).val = true ∧ (up.sk 0).spare ≠ localIx (localOf 3) ∧
      (up.sk 0).logicalAt (localOf 3) = some 3) ∧
    (∀ replay ∈ [0, 16],
      let d := { desc [1, replay] with st := .running }
      let s := run0.setQ 16 { descs := [d] }
      (s.sp 0).share = some share0 ∧ descOf s share0.queue share0.seq = some d ∧ d.st = .running ∧
      (s.q share0.queue).st ≠ .draining ∧ (∀ j : Fin 8, (s.sk j).changes = []) ∧
      (hdrReplay d.raw = true ↔ replay = 16)) ∧
    ((up.sk 0).fly.get 3).failed = false ∧
    (∀ c ∈ [MapChange.leave 4, .join 16], ((changing c).sk 7).changes = [c] ∧
      changeDue (changing c) 7 c = true ∧ (changing c).mgmt.clockLost = false) ∧
    (let s := run0.setSk 0 { changes := [.leave 0] }
     (s.sk 0).changes = [.leave 0] ∧ ∀ c ∈ (s.sk 0).changes, changeDue s 0 c = false) ∧
    ((changing (.join 16)).sk 7).absent = none := by decide +kernel

theorem wit_MemoryErrors_channels :
    (up.mem.chan.get 255).st = .inService ∧ up.mgmt.clockLost = false ∧ mayLeave up 255 = true ∧ comesBack up 255 = false ∧
    up.mem.mig = none ∧ (∀ k : Fin 8, (up.sk k).bindings = []) ∧ up.mgmt.faults.length < 256 ∧
    (up.mem.stack.get (stackOf 255)).distFailed.getLsbD ((255 : Fin 256).val % 32) = false ∧
    (let s := up.setMem { memUp with mig := some ⟨3, false, 5⟩ }
     s.mem.mig ≠ none ∧ mayLeave s 255 = true ∧ comesBack s 255 = false) ∧
    (let s := up.setMem { memUp with chan := upd memUp.chan 255 { st := .restoring }, migWait := [⟨255, true, 0⟩] }
     mayLeave s 255 = true ∧ comesBack s 255 = true ∧
     (s.mem.stack.get (stackOf 255)).distFailed.getLsbD ((255 : Fin 256).val % 32) = false) := by decide +kernel

theorem wit_MemoryErrors_limits : ∀ w ∈ [0x100010001, 0x100010000],
    let s := up.setMem { memUp with limSt := [(0x2080, BitVec.ofNat 64 w)] }
    let v := (stagedOr s.mem.limSt 0x2080 (BitVec.ofNat 64
      (fld s.mem.ceLimit 0 16 + fld s.mem.ceWindow 16 16 + fld s.mem.ueLimit 32 8))).toNat
    s.mem.limSt ≠ [] ∧ ((bitsOf v 0 16 ≠ 0 ∧ bitsOf v 16 16 ≠ 0 ∧ bitsOf v 32 8 ≠ 0) ↔ w = 0x100010001) := by
  decide +kernel

theorem wit_MemoryErrors_quotas :
    (∀ q, (up.q q).quota.1 ≤ 256 ∧ (up.q q).quota.2 ≤ 224 ∧ (up.q q).quota.2 ≤ (up.q q).quota.1) ∧
    ¬∀ q, ((up.setQ 3 { quotaSt := some 0x1FF }).q q).quota.1 ≤ 256 ∧
      ((up.setQ 3 { quotaSt := some 0x1FF }).q q).quota.2 ≤ 224 ∧
      ((up.setQ 3 { quotaSt := some 0x1FF }).q q).quota.2 ≤ ((up.setQ 3 { quotaSt := some 0x1FF }).q q).quota.1 := by
  refine ⟨fun q => ?_, fun h => absurd (h 3).1 (by decide +kernel)⟩
  by_cases h : q = 0
  · subst h; decide +kernel
  · rw [up_q q h]; decide

/-- A re-interleave of channel 255 in progress. -/
def migrating (g : Migration) : State := up.setMem { memUp with mig := some g }

theorem wit_Migrations :
    (∀ g ∈ [(⟨255, false, 5⟩ : Migration), ⟨255, true, 0⟩],
      (migrating g).mem.mig = some g ∧ (migrating g).serving = true ∧
      ((migrating g).mem.stack.get (stackOf g.chan)).up = true ∧
      ((migrating g).mem.stack.get (stackOf g.chan)).granule < granulesAfter (migrating g).mem g ∧
      (migrating g).mem.migWait = [] ∧ (migrating g).mem.heldCtrl = [] ∧
      1 ≤ ((migrating g).mem.stack.get (stackOf 255)).channels ∧
      (∀ j ∈ (migrating g).mem.il, j = 7 ∨
        ((migrating g).mem.stack.get 7).channels ≤ ((migrating g).mem.stack.get j).channels) ∧ (7 : Fin 8) ∈ (migrating g).mem.il) ∧
    (let s := up.setMem { memUp with chan := upd memUp.chan 255 { st := .restoring } }
     (s.mem.chan.get 255).st = .restoring ∧ s.mem.mig = none ∧ s.mem.migWait = [] ∧ s.mgmt.unit.busy = false ∧
     (s.mem.stack.get (stackOf 255)).lost = false) ∧
    burstAt up.mem (aliasBase (stackOf 255).val + 512 * mib + 32 * 127) ≠ none := by decide +kernel

/-! ## Statements about groups, strands and frames -/

/-- Strand 5, of the controller and open, on port 31. -/
def strand5 : Strand :=
  { cfg := { peerStrand := 6, owner := 1, enable := true, ip := 0xFFFF0A000001 }, st := .opened, port := 31, epoch := 1
    peerId := 9, peerNonce := some 4, nextPsn := 1, window := 65536 }

/-- A port with a joined link. -/
def port0 : Port := { cfg := { maxFrame := 9216, dataPcp := 3 }, link := .up, joined := true }

/-- Group 0 has an IPv4 address. -/
def addressed (s : State) : State :=
  { s with twine := { s.twine with groups := upd (rep 8 {}) 0 { v4 := 0x0A000002, v4en := true } } }

/-- `s` with strand 5 and port 31, whose group has an address. -/
def linked (x : Strand) (y : Port) (s : State) : State := addressed ((s.setStrand 5 x).setPort 31 y)

/-- A group of this device and the peer of strand 5. -/
def plyCfg0 : PlyCfg :=
  { group := 3, members := 2, enable := true, gen := 2, shard := 1, bucketLog2 := 16, map := [0xFF, 0] }

/-- Slot 7 holds the group; operations wait. -/
def grouped (x : Ply) (ops : List GOp) (s : State) : State :=
  let s := linked strand5 port0 s
  let s := (s.setSlot 7 x).setPeer 0 { strand := 5 }
  { s with ply := { s.ply with ops } }

/-- A COLLECTIVE of group 3 and the step 1. -/
def collWords (cop count : Nat) : List Nat :=
  [1, 3, 0x1200000000, 0x1200100000, count + 2 * 2 ^ 40 + cop * 2 ^ 44, 3 + 2 ^ 32, 0, 0]

theorem wit_Collectives_dispatch : ∀ x ∈ [(0, 128), (1, 128), (2, 128), (3, 128), (4, 128), (0, 0), (3, 0)],
    let d := desc (collWords x.1 x.2)
    let s := grouped { cfg := plyCfg0, st := .ready } [] (queued d up)
    let b := collBody d.raw
    mayDispatch s 0 3 = some d ∧ collFormOk d.raw = true ∧ b.cop = x.1 ∧ b.count = x.2 ∧
    slotOf s b.group = some 7 ∧ groupOwned s (s.slot 7) (queueOwner 0) = true ∧ collCheck (s.slot 7).cfg b = none ∧
    (collOp s 0 d.seq 7 b).isSome = true ∧ collTurn s 0 7 b.group = true ∧ (s.slot 7).st = .ready ∧
    slotOf (queued d up) b.group = none ∧ mayDispatch (queued d up) 0 3 = some d ∧
    (let s := s.setStrand 5 { strand5 with cfg := { strand5.cfg with owner := 2 } }
     mayDispatch s 0 3 = some d ∧ slotOf s b.group = some 7 ∧ groupOwned s (s.slot 7) (queueOwner 0) = false) := by
  decide +kernel

/-- An operation of queue 0 on slot 7. -/
def gop (k : GKind) (count : Nat) : GOp :=
  { queue := 0, seq := 1, slot := 7, kind := k, fmt := 2, count, step := 1, src := 0x1200000000, dst := 0x1200100000
    srcSegs := [⟨0x1200000000, 0x1200000000, 256⟩], dstSegs := [⟨0x1200100000, 0x1200100000, 256⟩] }

/-- Slot 7 READY with one running operation. -/
def rounds (o : GOp) : State :=
  grouped { cfg := plyCfg0, st := .ready } [o] (queued { desc (collWords 0 128) with st := .running } up)

/-- What member 1 signs. -/
def sig1 (cop count step : Nat) : SigPart :=
  { member := 1, cop, count, fmt := 2, alg := 0, root := 0, step, crc := none }

theorem wit_Collectives_rounds : ∀ x ∈ [(0, 128), (3, 0)],
    let o := gop (.collective x.1) x.2
    let s := rounds o
    let plan := planOf (s.slot 7).cfg x.1 o.alg o.root o.src o.dst (collBytes o.fmt o.count)
    headOp s 7 = some o ∧ (s.slot 7).st = .ready ∧ s.worksFor o.queue = true ∧ (descOf s o.queue o.seq).map (·.st) = some .running ∧ o.data = false ∧
    (s.slot 7).others = [1] ∧
    ((sig1 x.1 x.2 1).step = o.step ∧ (sig1 x.1 x.2 1).crc = o.crc ∧ sigSame (sig1 x.1 x.2 1) o x.1 = true) ∧
    (sig1 x.1 x.2 2).step ≠ o.step ∧ (o.count ≠ 0 → plan ≠ [] ∧ opMapped s o = true ∧ opReadable s o 256 = true) := by
  decide +kernel

theorem wit_Collectives_chunks : ∀ plan ∈ [[Xfer.add 0x1200000000 128, .store 0x1200100000 128], [.store 0x1200100080 128]],
    let o := { gop (.collective 0) 128 with data := true, plan }
    let s := rounds o
    let data : List Byte := List.replicate 128 1
    headOp s 7 = some o ∧ (descOf s o.queue o.seq).map (·.st) = some .running ∧
    opMapped s o = true ∧
    (o.plan.head?.map fun y => xferWaits s o y) = some false ∧
    (o.plan.head?.bind fun y => runXfer s o y data).map (·.2.1) = some true ∧
    ownCopy (s.slot 7).cfg 0 o.alg o.root o.src o.dst (collBytes o.fmt o.count) = some (0x1200000000, 0x1200100000, 128) ∧
    ((o.plan.head?.bind fun y => runXfer s o y data).map fun r => segsPoisoned (setOp r.1 o { o with plan := [] }) o.srcSegs
      0x1200000000 128) = some false := by decide +kernel

/-- A CHECK and a DIGEST that wait for their group. -/
def held0 (k : GKind) : GOp :=
  { gop k 0 with nb := 2, mask := 1, planes := 1, body := [1, 0, 0, 0, 0, 0, 0, 0], decBase := 0x1200000000
                 decSegs := [⟨0x1200000000, 0x1200000000, 16⟩], resSegs := [⟨0x1200100000, 0x1200100000, 8⟩]
                 value := [(0x1200100000, [7, 0, 0, 0, 0, 0, 0, 0])] }

theorem wit_Collectives_agree :
    (let o := held0 .check
     let s := rounds o
     let p : SkipPart := { member := 1, step := 1, nb := 2, skip := true, map := [2] }
     headOp s 7 = some o ∧ (s.slot 7).others = [1] ∧ p.step = o.step ∧ p.nb = o.nb ∧ opMapped s o = true ∧
     ∀ w ∈ o.value ++ [(o.decBase, decisionBytes o.step true [3])],
       firstPart s (o.resSegs ++ o.decSegs) w.1 w.2.length = none) ∧
    (let o := held0 .digest
     let s := rounds o
     let p : DigestPart := { member := 1, shard := 1, step := 1, mask := 1, planes := 1, entries := o.body }
     headOp s 7 = some o ∧ (s.slot 7).others = [1] ∧ p.shard = (s.slot 7).cfg.shard ∧
     p.mask = o.mask ∧ p.planes = o.planes ∧ p.entries = o.body ∧ digestSame p p = true ∧
     opMapped s o = true ∧ ∀ w ∈ o.value, firstPart s (o.resSegs ++ o.decSegs) w.1 w.2.length = none) := by
  decide +kernel

/-- Staged words of slot 7: a group of two members of generation `g`, this one of index `i`. -/
def plyStaged (g i : Nat) : List (Nat × Word) :=
  [(0, BitVec.ofNat 64 (3 + 2 ^ 16 + i * 2 ^ 22 + 2 ^ 28)), (8, BitVec.ofNat 64 (g + 95 * 2 ^ 49 + 50 * 2 ^ 56)),
   (0x10, 0xFFFFFFFFFFFF00FF)]

theorem wit_Groups_commit : ∀ x ∈ [(2, 0), (3, 0), (3, 2)],
    let y : Ply := { cfg := { plyCfg0 with bucketLog2 := 0 }, staged := plyStaged x.1 x.2 }
    let s := grouped y [] up
    let c := plyCfgOf fun off => stagedOr (s.slot 7).staged off ((s.slot 7).cfg.word off)
    (s.slot 7).staged ≠ [] ∧ (c.gen ≤ (s.slot 7).cfg.gen ↔ x.1 = 2) ∧ (plyOk s 7 c = true ↔ x.2 = 0) := by
  decide +kernel

theorem wit_Groups_peers : ∀ n ∈ [5, 9],
    let s := linked strand5 port0 up
    let s := s.setStrand 9 { session := true }
    let s := { s with ply := { s.ply with peerSt := [(0xB008, BitVec.ofNat 64 n)] } }
    s.ply.peerSt ≠ [] ∧ (peersOk s = true ↔ n = 5) := by decide +kernel

theorem wit_Groups_life :
    (let s := grouped { cfg := plyCfg0, st := .forming } [] up
     let g : GroupPart := { member := 1, group := 3, members := 2, nodeLog2 := 0, bucketLog2 := 16 }
     (s.slot 7).st = .forming ∧ (s.slot 7).others = [1] ∧ memberStrand s (s.slot 7) 1 = some 5 ∧
     (s.strand 5).st = .opened ∧ partAgrees g (s.slot 7).cfg = true) ∧
    (let s := rounds (gop (.collective 0) 128)
     (s.slot 7).cfg.enable = true ∧ (1 : Fin 64).val ≠ (s.slot 7).cfg.index ∧ (s.slot 7).here 1 = true ∧
     s.ply.ops = [gop (.collective 0) 128] ∧
     (descOf s 0 1).map (·.st) = some .running) ∧
    (∀ a : Bool,
      let s := grouped { cfg := { plyCfg0 with adopt := a, adoptEpoch := 4 }, st := .adopting, epoch := 4, spare := a } [] up
      (s.slot 7).st = .adopting ∧
      (if (s.slot 7).spare = true then BitVec.ofNat 32 (s.slot 7).cfg.adoptEpoch else (s.slot 7).epoch) = 4) := by
  decide +kernel

theorem wit_Groups_pace :
    (let s := (grouped { cfg := plyCfg0, st := .ready } [] up).setSk 3 { divider := 24 }
     (s.slot 7).cfg.enable = true ∧ (s.slot 7).lagSent = none ∧ ownRate s < devPace s ∧
     (s.slot 7).mine = true) ∧
    (let s := grouped { cfg := plyCfg0, st := .ready, lagSent := some 500 } [] up
     (s.slot 7).lagSent ≠ none ∧ devPace s ≤ ownRate s) ∧
    (let s := grouped { cfg := plyCfg0, st := .ready, pacing := true, pacePm := 500, paceDur := 9 } [] up
     (s.slot 7).pacing = true ∧ (s.slot 7).paceDur ≠ 0 ∧ ∀ j : Fin 8, j ≠ 7 → (s.slot j).pacing = false) := by decide +kernel

/-- An RMA of 64 B on strand 5 by an operation; atomic adds are of FP32. -/
def rmaWords (rop : Nat) : List Nat :=
  [1, 2, 0x1200000000, 0x1200100000, 64 + 5 * 2 ^ 32 + rop * 2 ^ 48, 0, 0, 0]

theorem wit_RmaDispatch : ∀ rop ∈ [0, 1, 2, 3],
    let d := desc (rmaWords rop)
    let s := linked strand5 port0 (queued d up)
    mayDispatch s 0 2 = some d ∧ rmaFormOk d.raw = true ∧ rmaRop d.raw = rop ∧ fieldAt d.raw 0x20 32 42 % 2048 = 5 ∧
    strandOwned s 0 5 = true ∧ (rmaBody s 0 d 5).isSome = true ∧ (∀ r, rmaBody s 0 d 5 = some r → r.d ≠ 0) ∧
    (s.strand 5).st ≠ .closed ∧ (s.strand 5).st ≠ .lost ∧
    ((linked { strand5 with st := .lost } port0 (queued d up)).strand 5).st = .lost ∧
    strandOwned (queued d up) 0 5 = false ∧
    rmaBody (linked strand5 port0 (queued d full)) 0 d 5 = none := by
  intro rop h
  have e : ∀ (o : Option Rma), (o.all fun r => r.d != 0) = true → ∀ r, o = some r → r.d ≠ 0 := by
    intro o h r e; subst e; simpa using h
  refine ⟨?_, ?_, ?_, ?_, ?_, ?_, e _ ?_, ?_⟩ <;> (clear e; revert rop; decide +kernel)

/-- Staged Twine words: another target delay, or a UDP port below 1,024. -/
def twineStaged (udp : Nat) : State :=
  { up with twine := { up.twine with staged := [(0x8000, BitVec.ofNat 64
    (udp + 20 * 2 ^ 16 + 2000 * 2 ^ 32 + 30 * 2 ^ 48 + 100 * 2 ^ 56))] } }

theorem wit_RmaDispatch_commit : ∀ udp ∈ [1023, 1024],
    let s := twineStaged udp
    let w (off : Nat) : Nat := (stagedOr s.twine.staged off (s.twine.word off)).toNat
    let c := w 0x8000
    s.twine.staged ≠ [] ∧ (1024 ≤ bitsOf c 0 16 ↔ udp = 1024) ∧ 1 ≤ bitsOf c 16 10 ∧ bitsOf c 16 10 ≤ 1000 ∧
    100 ≤ bitsOf c 32 16 ∧ bitsOf c 32 16 ≤ 60000 ∧ 1 ≤ bitsOf c 48 8 ∧ 10 ≤ bitsOf c 56 8 ∧
    ∀ i : Fin 8, bitsOf (w (0x8100 + i.val * 0x20)) 32 2 = 0 := by decide +kernel

theorem up_strand (o : Fin 2048) : up.strand o = {} := by
  show (rep 2048 ({} : Strand)).get o = {}
  exact get_rep _ _ _

/-- Strand 5 with staged words that enable it for an owner. -/
def strandStaged (owner : Nat) : State :=
  linked { staged := [(0, BitVec.ofNat 64 (6 + owner * 2 ^ 16 + 2 ^ 19 + 47130 * 2 ^ 20)), (0x10, 0xFFFF0A000001)] } port0 up

theorem wit_StrandLife_commit : ∀ owner ∈ [1, 3],
    let s := strandStaged owner
    (s.strand 5).staged ≠ [] ∧ (s.strand 5).stagedCfg.enable = true ∧
    (strandOk s 5 (s.strand 5).stagedCfg = true ↔ owner = 1) := by
  intro owner h s
  have others : ∀ c : StrandCfg, ((List.finRange 2048).all fun m =>
      m == 5 || (s.strand m).session || !(s.strand m).cfg.enable ||
        !((s.strand m).cfg.ip == c.ip && (s.strand m).cfg.udp == c.udp && (s.strand m).cfg.peerStrand == c.peerStrand)) = true := by
    intro c
    refine List.all_eq_true.mpr fun m _ => ?_
    by_cases e : m = 5
    · simp [e]
    · have : s.strand m = {} := by
        rw [← up_strand m]
        simp [s, strandStaged, linked, addressed, State.strand, State.setStrand, State.setPort, get_upd_ne _ _ e]
      simp [this]
  refine ⟨?_, ?_, ?_⟩
  · clear others; revert owner; decide +kernel
  · clear others; revert owner; decide +kernel
  · unfold strandOk
    simp only [others, Bool.and_true]
    clear others
    revert owner
    decide +kernel

/-- A HELLO from the peer of strand 5. -/
def hello5 (opens reply : Bool) : HelloMsg :=
  { fuse := 9, nonce := 4, warm := 0, port := 0, group := 0, opens, reply, pending := false, src := 6, dst := 5, epoch := 1
    count := 1, ip := 0xFFFF0A000001 }

theorem wit_StrandLife :
    (strand5.st ≠ .closed ∧ ((linked { strand5 with st := .stalled } port0 up).strand 5).st = .stalled ∧
      ((linked { strand5 with st := .stalled } port0 up).strand 5).hold = false) ∧
    (∀ st ∈ [StrandSt.stalled, .opened], ((linked { strand5 with st, hold := true } port0 up).strand 5).hold = true) ∧
    (∀ st ∈ [StrandSt.lost, .opening],
      let s := linked { strand5 with st } port0 up
      (s.strand 5).st = st ∧ joinedPorts s (s.strand 5).cfg.group ≠ [] ∧ portsServe s = true ∧
      groupLive s (s.strand 5).cfg.group = true ∧ groupLive s (s.port (s.strand 5).port).cfg.group = true ∧
      (s.port 31).joined = true ∧ groupLive s (s.port 31).cfg.group = true) ∧
    (∀ fill ∈ [0, 6291314, 6291315],
      let s := linked strand5 { port0 with fill } up
      helloHere s 31 (hello5 true false) = true ∧ freshHello s (hello5 true false) = true ∧
      (noRoom s 31 ((if isV6 (hello5 true false).dest = true then 114 else 94) + 48) = true ↔ fill = 6291315)) ∧
    helloHere up 31 (hello5 true false) = false ∧
    (∀ opens : Bool,
      let s := linked { strand5 with st := if opens then .opening else .opened } port0 up
      let x := s.strand 5
      let m := hello5 opens opens
      helloHere s 31 m = true ∧ noRoom s 31 ((if isV6 m.dest = true then 114 else 94) + 48) = false ∧
      freshHello s m = true ∧ x.session = false ∧ x.cfg.enable = true ∧ m.dst = 5 ∧
      x.cfg.peerStrand = m.src.val ∧ x.cfg.ip = m.ip ∧ x.peerNonce = some m.nonce ∧
      (x.st = .opening ↔ opens = true) ∧ m.epoch = x.epoch ∧ x.leadsTo m = true) := by decide +kernel

/-- A NOTIFY that waits, and an unacknowledged frame. -/
def note0 : Msg := .notify 1 0 0 [1]
def sent0 : TxFrame :=
  { psn := 1, msg := note0, head := { type := 0x13 }, data := [1], size := 110, sent := 0, again := true }

/-- The RMA of frame 0 of queue 0. -/
def rma0 (rop : Nat) (resp : List (BitVec 32 × Nat × Nat)) : Rma :=
  { queue := 0, seq := 1, strand := 5, rop, aty := 0, fetch := false, len := 64, remote := 0x1200100000
    base := 0x1200000000, segs := [⟨0x1200000000, 0x1200000000, 64⟩], resBase := 0, resSegs := [], d := 4096, resp }

/-- `s` with RMAs. -/
def rmas (rs : List Rma) (s : State) : State := { s with twine := { s.twine with rmas := rs } }

theorem wit_StrandSending_send :
    (∀ st ∈ [StrandSt.opened, .stalled],
      let s := linked { strand5 with st, unacked := [sent0] } port0 up
      canSend s (s.strand 5) = true ∧ mgmtOnly s = false ∧ (s.strand 5).st = st ∧ (s.strand 5).repeats = [sent0]) ∧
    (let s := rmas [rma0 0 []] (linked { strand5 with txq := [.rma 0 1 0] } port0 up)
     let x := s.strand 5
     let y := x.sendable s
     canSend s x = true ∧ mgmtOnly s = false ∧ x.st = .opened ∧ x.repeats = [] ∧ x.unacked.length < 1024 ∧
     y.txq = [.rma 0 1 0] ∧ mayFrame s (.rma 0 1 0) = true ∧ rmaOf s 0 1 = some (rma0 0 []) ∧
     keyWaits s (rma0 0 []) = false ∧
     rmaData (touchSegs (s.setStrand 5 y) (rma0 0 []).segs 0x1200000000 64 false) (rma0 0 []) 0 =
       .ok (List.replicate 64 0) ∧
     x.flight + overhead s x + 64 ≤ x.window) ∧
    (let s := linked { strand5 with txq := [note0] } port0 up
     let x := s.strand 5
     canSend s x = true ∧ mgmtOnly s = false ∧ x.st = .opened ∧ x.repeats = [] ∧ (x.sendable s).txq = [note0] ∧
     x.flight + overhead s x + (msgData note0).length ≤ x.window) := by decide +kernel

/-- A frame of strand 5 with PSN 1. -/
def fh : FrameHdr :=
  { port := 31, strand := 5, psn := 1, ackPsn := 1, ts := 0, tsEcho := 0, ackReq := false, retx := false, kphase := false
    lastf := true, src := 0xFFFF0A000001, dst := 0xFFFF0A000002 }

theorem wit_StrandSending_acks :
    (let s := linked { strand5 with unacked := [sent0] } port0 up
     (s.strand 5).unacked ≠ [] ∧ (s.strand 5).st = .opened ∧ (s.strand 5).pathExp < 2 ∧ (s.strand 5).rechoose = false ∧
     frameHere s fh (128 + 8 * 0) = true ∧ noRoom s fh.port (frameBytes fh (128 + 8 * 0)) = false ∧ s.pwr.pstate ≠ .p3 ∧ (admitFrame s fh (128 + 8 * 0)).isSome = true) ∧
    (∀ b : Bool,
      let s := linked { strand5 with ackDue := 1 } { port0 with xoffRx := if b then 0xFF else 0 } up
      (s.strand 5).ackDue ≠ 0 ∧ (s.port (s.strand 5).port).joined = true ∧ ctrlSends s (s.strand 5).port = !b) ∧
    (let s := linked { strand5 with txc := 2 ^ 40 } port0 up
     (s.strand 5).phaseAt + 2 ^ 40 ≤ (s.strand 5).txc ∧ frameReaches s 31 = true ∧
     groupLive s (s.port 31).cfg.group = true) := by decide +kernel

/-- A state that a frame meets, and what the frame's acknowledgement leaves. -/
def meets (s : State) : Prop :=
  let x := s.strand 5
  x.sentBy fh = true ∧ s.pwr.pstate ≠ .p3 ∧ s.pwr.stopped = false ∧ s.mgmt.restarting = false ∧ fh.strand.val ≠ 0 ∧
  x.st = .opened ∧
  (∀ n ∈ [8, 16, 64, 8176], frameHere s fh n = true ∧ dataFull s fh.port (frameBytes fh n) = false) ∧
  fh.kphase = decide (x.rxPhase % 2 = 1) ∧ x.keyed s x.rxGen = true ∧ fh.psn = x.rxC + 1 ∧ x.rxBits = [] ∧ x.held = []

def acked (s : State) : State :=
  takeAck (s.setStrand 5 { s.strand 5 with rxc := rebuiltTxc (s.strand 5).rxc fh.txcLo }) 5 fh.ackPsn [] [] none

/-- Strand 5 is the session strand of the lease holder. -/
def leased (s : State) : State :=
  { s with sec := { s.sec with lease := some (1, 0, 8), sessions := [{ id := 8, party := some .controller, ready := true
                                                                       strand := some 5, holds := true }] } }

theorem wit_FramesApply_data :
    let s := linked strand5 port0 up
    let segs : List Seg := [⟨0x1200000000, 0x1200000000, 16⟩]
    let data : List Byte := List.replicate 16 1
    meets s ∧ data.length ≤ 8176 ∧ data ≠ [] ∧
    targetOf (walkTarget (acked s) 5 .write 0x1200000000 16) 5 .write 0x1200000000 16 = .mem segs ∧
    targetOf (walkTarget (acked s) 5 .write (2 ^ 52) 16) 5 .write (2 ^ 52) 16 = .fail 1 ∧
    targetOf (walkTarget (acked s) 5 .read 0x1200000000 16) 5 .read 0x1200000000 16 = .mem segs ∧
    firstPoison (walkTarget (acked s) 5 .read 0x1200000000 16) segs 0x1200000000 16 = none ∧
    addTarget (walkTarget (acked s) 5 .add 0x1200000000 16) 5 4 0x1200000000 16 = .mem segs ∧
    firstPoison (walkTarget (acked s) 5 .add 0x1200000000 16) segs 0x1200000000 16 = none ∧
    addHeld (acked s) 5 (.atomicAdd 4 false 0x1200000000 data) = false := by
  unfold meets
  decide +kernel

theorem wit_FramesApply_resp :
    let s := rmas [rma0 2 [(7, 0, 64)]] (linked strand5 port0 up)
    let a : Word := 7 * 2 ^ 32
    meets s ∧ respHeld (acked s) 5 (.readResp a (List.replicate 64 1)) = false ∧ (acked s).twine.rmas.find? (fun r => r.strand = 5 ∧ r.resp.any fun e => e.1 = BitVec.ofNat 32 (a.toNat / 2 ^ 32)) =
      some (rma0 2 [(7, 0, 64)]) ∧
    (rma0 2 [(7, 0, 64)]).resp.find? (fun e => e.1 = BitVec.ofNat 32 (a.toNat / 2 ^ 32)) = some (7, 0, 64) ∧
    (rma0 2 [(7, 0, 64)]).rop = 2 ∧ segsMapped (acked s) (rma0 2 [(7, 0, 64)]).segs = true := by
  unfold meets
  decide +kernel

theorem wit_FramesApply_orders :
    (let s := leased (linked strand5 port0 up)
     meets s ∧ mayRing (acked s) 5 0 = true ∧ (s.q 0).st = .opened ∧ 1 ≤ (s.q 0).head + (s.q 0).cfg.n ∧
     leaseStrand (acked s) 5 = true) ∧
    (let s := grouped { cfg := { plyCfg0 with master := 1, masterSet := true }, st := .ready } [] up
     let w : Word := 3 + 2 ^ 16
     meets s ∧ slotOf (acked s) (bitsOf w.toNat 0 16) = some 7 ∧
     memberStrand (acked s) ((acked s).slot 7) ((acked s).slot 7).masterNow = some 5 ∧
     (s.slot 7).paceIn ≤ bitsOf w.toNat 32 32 ∧ (s.slot 7).st = .ready ∧
     memberStrand (acked s) ((acked s).slot 7) (bitsOf w.toNat 16 6) = some 5 ∧ bitsOf (500 : Word).toNat 32 3 ≠ 4) ∧
    (let s := (linked strand5 port0 up).setMgmt { up.mgmt with tally := [(3, 5)] }
     s.mgmt.tally = (3, 5) :: [] ∧ attests s = true ∧ (s.strand 5).st = .opened) := by
  unfold meets
  decide +kernel

/-! ## Statements about ports, power and temperature -/

/-- `up` with one staged word of the Ethernet group: `PORT_CFG` of port 31. -/
def ethStaged (w : Nat) : State :=
  { up with eth := { up.eth with mode := 0, staged := [(0x7000, 0), (portOff 0, BitVec.ofNat 64 w)] } }

theorem wit_PortLife_commit : ∀ w ∈ [0, 1],
    let s := ethStaged w
    let mode := (stagedOr s.eth.staged 0x7000 (BitVec.ofNat 64 s.eth.mode)).toNat % 4
    s.eth.staged ≠ [] ∧ ((∀ j : Fin 32, portCount mode ≤ j.val ∨ (s.eth.stagedPort j).ok = true) ↔ w = 0) := by
  decide +kernel

theorem wit_PortLife :
    (∀ n ∈ [0, 18, 19], let s := up.setPort 31 { port0 with link := .training, attempts := n }
      (s.port 31).link = .training ∧ ((s.port 31).attempts < 19 ↔ n ≠ 19)) ∧
    (let s := addressed (up.setPort 31 { port0 with joined := false })
     portsServe s = true ∧ groupLive s (s.port 31).cfg.group = true ∧ (s.port 31).ctrlQ = [] ∧ s.sec.spdmQ = [] ∧
     (s.port 31).link = .up ∧ (s.port 31).joined = false ∧ (s.port 31).storm = false ∧ (s.port 31).failed = false ∧
     (s.port 31).link ≠ .off) ∧
    (let s := up.setPort 31 { port0 with cfg := { port0.cfg with storm := 9 }, xoffRx := 8 }
     (s.port 31).link = .up ∧ (s.port 31).xoffRx ≠ 0 ∧ (s.port 31).cfg.storm ≠ 0 ∧ (s.port 31).storm = false) ∧
    (let s := up.setPort 31 { port0 with storm := true, joined := false }
     (s.port 31).storm = true ∧ (s.port 31).xoffRx = 0) ∧
    (up.mgmt.clockLost = false ∧ up.mgmt.phase ≠ .reset) := by decide +kernel

theorem wit_PortFrames :
    (let s := addressed (up.setPort 31 { port0 with cfg := { port0.cfg with pfc := 8 }, xoffTx := 8 })
     (s.port 31).link = .up ∧ portsServe s = true ∧ s.mgmt.restarting = false ∧ (s.port 31).joined = true ∧
     groupHas (s.twine.groups.get (s.port 31).cfg.group) 0x0A000002 false = true ∧ Memory.wf s.mgmt.win = true ∧
     (s.port 31).cfg.enable = true ∧ (s.port 31).cfg.pfc ≠ 0 ∧ (s.port 31).xoffTx ≠ 0 ∧
     (s.port 31).cfg.maxFrame < 9199 + 18 ∧ 2041 + 18 ≤ (s.port 31).cfg.maxFrame ∧ (s.port 31).fill + (2041 + 18) ≤ 6291456 ∧
     6291456 * (s.port 31).cfg.xon < 6291456 * 100 ∧ 0 * 100 ≤ 6291456 * (s.port 31).cfg.xon) ∧
    (∀ fill ∈ [6029312, 6291456],
      let s := linked strand5 { port0 with fill } up
      portsServe s = true ∧ (s.port 31).link = .up ∧ (fill = 6291456 ↔ 6291456 < (s.port 31).fill + (1 + 18)) ∧
      frameHere s fh 16 = true ∧ dataFull s 31 (frameBytes fh 16) = true) ∧
    (let s := up.setPort 31 { port0 with cfg := { port0.cfg with pause := true } }
     (s.port 31).cfg.pause = true ∧ (s.port 31).xoffTx = 0 ∧ 6291456 * (s.port 31).cfg.xoff ≤ 6291456 * 100) ∧
    portsServe (up.setMgmt { up.mgmt with clockLost := true }) = false ∧
    (let ports := (List.range 32).filter fun i => (0x81 : Word).getLsbD i
     ports.length ≤ 2 ∧ ∀ i ∈ ports, i < portCount 2) := by decide +kernel

theorem up_rail (r : Fin 7) : (up.pwr.rails.get r).gain = 0 := by revert r; decide +kernel

/-- Whatever the gain of an estimator starts from, a current of 1,000 times the limit and more lies above it. -/
theorem wit_RailControl_samples (r : Fin 7) :
    let x := up.pwr.rails.get r
    let fix (a : Nat) : Nat := ((a : Int) * (startGain up r + x.gain) / 1000).toNat
    let lim := guarded up (railLimits r).1
    lim < fix (1000 * (lim + 1)) ∧ fix 0 ≤ lim := by
  simp only [up_rail]
  refine ⟨?_, by simp⟩
  generalize guarded up (railLimits r).1 = l
  have hg : 1 ≤ startGain up r := by unfold startGain; omega
  generalize startGain up r = g at hg
  have h : ((l : Int) + 1) ≤ ((1000 * (l + 1) : Nat) : Int) * ((g : Int) + 0) / 1000 := by
    apply Int.le_ediv_of_mul_le (by decide)
    push_cast
    nlinarith
  omega

theorem wit_RailControl :
    (∀ r : Fin 7, (up.pwr.rails.get r).missing = false ∧ up.mgmt.faults.length < 256) ∧
    (∀ j, (up.pwr.rails.get j).fault = false) ∧ (∀ i : Fin 2, ∃ r : Fin 7, i.val = r.val) ∧
    readsBoard up = true ∧ readsBoard (up.setMgmt { up.mgmt with phase := .reset }) = false ∧ up.mgmt.phase ≠ .reset ∧
    (∀ d ∈ [0, 125, 1000], ∀ n ∈ [2, 6], ∀ r : Fin 7,
      let s : State := { up with pwr := { up.pwr with rails := upd up.pwr.rails r { (up.pwr.rails.get r) with distPm := d, div := n } } }
      (s.pwr.rails.get r).distPm = d ∧ (s.pwr.rails.get r).div = n) ∧
    (let s := up.setSk 7 { stretch := upd (rep 2 none) 1 (some 8) }
     ((s.sk 7).stretch.get 1).isSome = true ∧ (s.sk 7).stretch.get 0 = none) := by decide +kernel

/-- Staged `PWR_CAP`. -/
def capStaged (cap : Nat) : State :=
  up.setPwr { up.pwr with staged := [(0xD000, BitVec.ofNat 64 (cap + 950 * 2 ^ 10 + 50 * 2 ^ 20))] }

/-- A grant in which each skein asks for a power in mW. -/
def grant0 (mw : Nat) : GrantIn :=
  { reserved := 50000, stackMw := 50000, linkMw := 0, skeins := List.replicate 8 mw, distaff := 1000
    work := [0, 1, 2, 3, 4, 5, 6, 7] }

theorem wit_PowerCap :
    (∀ cap ∈ [199, 200, 850, 851],
      let s := capStaged cap
      let w := (stagedOr s.pwr.staged 0xD000 (BitVec.ofNat 64 s.pwr.capWord)).toNat
      s.pwr.staged ≠ [] ∧ ((200 ≤ bitsOf w 0 10 ∧ bitsOf w 0 10 ≤ 850) ↔ (cap = 200 ∨ cap = 850)) ∧
      bitsOf w 0 10 ≤ bitsOf w 10 10 ∧ bitsOf w 10 10 ≤ 950 ∧ 50 ≤ bitsOf w 20 14 ∧ bitsOf w 20 14 ≤ 10000) ∧
    (∀ mw ∈ [50000, 100000],
      let g := grant0 mw
      let s : State := { burstStep up with pwr := { (burstStep up).pwr with grantIn := some g, grantDue := false } }
      let p := predicted s g
      (p.skeins.sum + p.distaff ≤ grantCap s * 1000 - p.reserved - p.stackMw - p.linkMw ↔ mw = 50000)) ∧
    (up.setPwr { up.pwr with burstAt := some 0 }).pwr.burstAt = some 0 := by decide +kernel

/-- Skein 7 in a power state. -/
def skein7 (p : PState) (e : Bool) (tol : Nat) : State :=
  (up.setSk 7 { pstate := p, exiting := e }).setPwr { up.pwr with latTol := tol }

theorem wit_PowerStates_skeins : ∀ p ∈ [PState.p0, .p1, .p2],
    (skein7 p false 40).inService = true ∧ skeinIdle (skein7 p false 40) 7 = true ∧
    ((skein7 p false 40).sk 7).exiting = false ∧ ((skein7 p false 40).sk 7).pstate = p ∧
    40 ≤ (skein7 p false 40).pwr.latTol ∧ ((skein7 p true 40).sk 7).exiting = true ∧
    ((skein7 p true 40).sk 7).pstate = p := by decide +kernel

/-- The device in a power state, port 0 up. -/
def device (p : PState) (e : Bool) (w : Option (Fin 32 × Bool × Bool × Word)) : State :=
  (up.setPort 0 port0).setPwr { up.pwr with pstate := p, exiting := e, allowP4 := true, latTol := 250000, wake := w }

theorem all_queues (s : State) (f : Queue → Bool) (h : ∀ o, f (s.q o) = true) : s.queues.toList.all f = true := by
  refine List.all_eq_true.mpr fun x hx => ?_
  obtain ⟨i, hi, rfl⟩ := List.getElem_of_mem hx
  rw [Vector.length_toList] at hi
  have e := h ⟨i, hi⟩
  rw [Vector.getElem_toList]
  exact e

theorem device_idle (p : PState) (e : Bool) : deviceIdle (device p e none) = true := by
  have h : ∀ o : Fin 4096, (device p e none).q o = up.q o := fun _ => rfl
  unfold deviceIdle
  rw [Bool.and_eq_true]
  refine ⟨all_queues _ _ fun o => ?_, rfl⟩
  rw [h]
  by_cases h0 : o = 0
  · rw [h0]; decide +kernel
  · rw [up_q _ h0]; decide

theorem wit_PowerStates_device :
    (∀ p ∈ [PState.p0, .p3], (device p false none).inService = true ∧ deviceIdle (device p false none) = true ∧
      (device p false none).pwr.exiting = false ∧ (device p false none).pwr.pstate = p ∧
      (device p false none).pwr.allowP4 = true ∧ 250000 ≤ (device p false none).pwr.latTol) ∧
    (let s := device .p3 true none
     s.pwr.pstate = .p3 ∧ s.pwr.exiting = true ∧ s.mgmt.phase ≠ .stopped ∧ s.twine.waiting = []) ∧
    (let s := device .p4 false none
     let s := { s with eth := { s.eth with magic := true } }
     s.pwr.pstate = .p4 ∧ (s.port 0).link = .up ∧ s.eth.wakeEn.getLsbD (0 : Fin 32).val = true ∧ s.pwr.exiting = false ∧
     s.eth.twineWake = true ∧ s.eth.magic = true) ∧
    (∀ c ∈ [(0 : Word), 1],
      let s := device .p4 true (some (0, false, true, c))
      s.pwr.pstate = .p4 ∧ s.pwr.exiting = true ∧ s.pwr.wake = some (0, false, true, c) ∧
      (s.sec.wakeCtr < c.toNat ↔ c = 1)) ∧
    (∀ b : Bool,
      let s := device .p4 true (some (0, true, false, 0))
      let s := { s with eth := { s.eth with magic := b } }
      s.pwr.pstate = .p4 ∧ s.pwr.exiting = true ∧ s.pwr.wake = some (0, true, false, 0) ∧ s.eth.magic = b) := by
  refine ⟨fun p hp => ⟨?_, device_idle p false, ?_⟩, ?_⟩
  · revert p; decide +kernel
  · revert p; decide +kernel
  · refine ⟨by decide +kernel, by decide +kernel, ?_, by decide +kernel⟩
    intro c hc
    fin_cases hc <;> decide +kernel

theorem wit_HeatAndAir :
    (up.sec.override = false ∧ (up.mgmt.phase = .full ∨ up.mgmt.phase = .warmup) ∧ up.mgmt.phase ≠ .reset ∧
      up.pwr.tripped = false ∧ up.mgmt.resetN = true ∧ State.reset.mgmt.resetN = false) ∧
    (∀ t ∈ [96, 101],
      let s := up.setPwr { up.pwr with tj := upd (rep 8 0) 7 t }
      (100 < s.pwr.tj.get 7 + 0 ↔ t = 101) ∧ (s.pwr.tj.get 7 + 0 < 97 ↔ t = 96) ∧ s.pwr.ioHot = false ∧
      s.mgmt.calValid = true) ∧
    (∀ low : Bool,
      let s := (up.setPwr { up.pwr with stopped := true, airLow := low }).setMgmt { up.mgmt with phase := .stopped }
      s.pwr.stopped = true ∧ s.pwr.dieOff = false ∧ s.pwr.airLow = low ∧ s.sec.override = false ∧ s.pwr.tripped = false ∧
      s.pwr.tripHold = false ∧ s.mgmt.phase = .stopped) ∧
    (let s := (up.setSec { up.sec with override := true }).setPwr { up.pwr with airLow := true }
     s.sec.override = true ∧ s.mgmt.phase = .full ∧ s.pwr.airLow = true) := by decide +kernel

/-! ## Statements about security and management -/

/-- The device in full service with a joined port. -/
def reached : State := addressed (up.setPort 0 port0)

/-- Its security state changed. -/
def secured (x : Sec) : State := reached.setSec x

theorem wit_AttestationAndTap :
    (spdmReaches reached = true ∧ spdmPort reached 0 = true ∧ ctrlSends reached 0 = true) ∧
    (let s := addressed (up.setPort 0 { port0 with xoffRx := 0xFF })
     spdmReaches s = true ∧ ∀ p, spdmPort s p = true → ctrlSends s p = false) ∧
    (∀ b : Bool, (secured { trst := b }).sec.trst = b) ∧
    (let s := secured { keys := upd (rep 4 {}) 1 { st := .draining }, transitPend := [[1], [2]] }
     (s.sec.keys.get 1).st = .draining ∧ s.sec.transitPend = [1] :: [[2]] ∧
     s.twine.rmas.any (Rma.holdsCurrent s) = false) ∧
    (let s := rmas [rma0 0 []] (linked { strand5 with cfg := { strand5.cfg with owner := 2 } } port0 up)
     s.twine.rmas.any (Rma.holdsCurrent s) = true ∧ s.now < s.sec.rewriteAt + 50000) ∧
    (let s := (linked { strand5 with cfg := { strand5.cfg with owner := 2 } } port0 up)
     (s.strand 5).cfg.owner = 2 ∧ (s.strand 5).session = false ∧ (s.strand 5).st ≠ .closed) ∧
    (∀ b c : Bool, (secured { debug := b, tenancyOn := c }).sec.debug = b ∧
      (secured { debug := b, tenancyOn := c }).sec.tenancyOn = c) := by decide +kernel

/-- Session 8 of the controller. -/
def session8 (ready : Bool) : Session := { id := 8, party := some .controller, ready, strand := none }

theorem wit_SessionsAndLease :
    (∀ b : Bool, let s := secured { sessions := [session8 b], lease := some (1, 4, 8) }
      spdmReaches s = true ∧ sessionOf s 8 = some (session8 b) ∧ (session8 b).ready = b ∧
      (session8 b).party = some .controller ∧ s.sec.sessions.length < 8 ∧ sessionOf s 9 = none ∧
      (leaseGranted s 0 4 = false ∧ leaseGranted s 1 4 = true ∧ leasePasses s 1 3 = true)) ∧
    (let s := secured { sessions := List.replicate 8 (session8 true) }
     8 ≤ s.sec.sessions.length ∧ sessionOf s 9 = none ∧ s.sec.tenancyOn = false) ∧
    (let s := secured { ended := [9], tenancyOn := true }
     sessionOf s 9 = none ∧ 9 ∈ s.sec.ended ∧ s.sec.phase ≠ .scrubbing) ∧
    (let s := leased (linked { strand5 with session := true } port0 up)
     spdmReaches s = true ∧ (sessionOf s 8).bind (·.strand) = some 5) ∧
    (∀ holds : Bool, ({ session8 true with holds } : Session).holds = holds) := by decide +kernel

theorem wit_SessionsAndLease_strand : freeStrand (secured { sessions := [session8 false] }) = some 1 := by
  have h : ∀ o, (secured { sessions := [session8 false] }).strand o = {} := fun o => by
    rw [← up_strand o]; rfl
  unfold freeStrand
  simp only [h]
  have e : List.finRange 2048 = 0 :: 1 :: ((List.finRange 2046).map fun i => i.succ.succ) := by
    rw [List.finRange_succ, List.finRange_succ]
    simp [List.map_map]
  rw [e]
  rfl

/-- A block of an order of kind `k`, signed by both parties or, for the operator's key, by the operator; the device of `FUSE_ID` 7, the counter of the block `ctr`. -/
def authBlock (k ctr : Nat) : List Byte :=
  raw [k + (if k = 0x0B then 1 else 3) * 2 ^ 8, 1, 7, 0, ctr] ++ List.replicate 344 0

/-- The tenancy is in force for the orders that ask for it. -/
def authSec (k : Nat) : Sec :=
  { tenancyOn := decide (k ≠ 1) && decide (k ≠ 0x0B), transitNext := if k = 0x08 then some [1] else none }

/-- The counter that a block names. -/
def authCtr (k : Nat) : Nat := if k = 1 then 1 else 0

theorem auth_ok (x : Sec) (b : List Byte) (hf : Config.fuseId = 7) (hv : ∀ k m g, Config.verify k m g = true)
    (ho : ∀ d m g, Config.verifyHashed d m g = true)
    (h : authFormOk b = true ∧ leNat (slice b 0x10 0x20) = 7 ∧
      ¬(word64 b 0x20 ≠ (if authKind b = 0x01 then x.ctr + 1 else x.ctr) ∨ authSeq b ≤ x.lastAseq) ∧ authOp b = true ∧
      (authTn b = true ∧ (authTnKey x b).isSome = true ∨ authTn b = false ∧ authKind b = 0x0B) ∧ authFits x b = true) :
    authStatus x b = .ok := by
  obtain ⟨h1, h2, h3, h4, h5, h7⟩ := h
  have hop : ∀ m g, opVerifies x m g = true := fun m g => by unfold opVerifies; split <;> simp [hv, ho]
  have hs : authSigned x b = true := by
    rcases h5 with ⟨h5, h6⟩ | ⟨h5, h6⟩
    · obtain ⟨k, hk⟩ := Option.isSome_iff_exists.mp h6
      simp only [authSigned, hv, hop, h4, h5, hk]
      split <;> simp
    · simp [authSigned, hop, h4, h5, h6]
  simp [authStatus, h1, h2, h3, hs, h7, hf]

theorem put_win (x : Sec) (m : Mgmt) (w : List Host.Cell) : ((secured x).setMgmt { m with win := w }).mgmt.win = w := rfl

theorem wit_Authorisation_sessions :
    ∀ p ∈ [TenPhase.none, .starting],
      let s := secured { sessions := [session8 true], phase := p }
      attests s = true ∧ s.sec.authWait = [] ∧ sessionOf s 9 = none ∧ sessionOf s 8 = some (session8 true) ∧
      spdmReaches s = true ∧ (session8 true).ready = true ∧ (session8 true).party ≠ none ∧ (s.sec.phase = .none ↔ p = .none) ∧
      (List.replicate 384 (0 : Byte)).length = 384 ∧ authStatus s.sec (List.replicate 384 0) = .format := by decide +kernel

theorem wit_Authorisation (hf : Config.fuseId = 7) (hv : ∀ k m g, Config.verify k m g = true)
    (ho : ∀ d m g, Config.verifyHashed d m g = true) :
    ∀ k ∈ [0x00, 0x01, 0x02, 0x03, 0x04, 0x05, 0x06, 0x07, 0x08, 0x09, 0x0A, 0x0B],
      let s := (secured (authSec k)).setMgmt { up.mgmt with win := cellsWrite [] 0x8040000 (authBlock k (authCtr k)) }
      let b := cellsRead s.mgmt.win 0x8040000 384
      attests s = true ∧ s.sec.phase = .none ∧ s.sec.authWait = [] ∧ authKind b = k ∧
      (if k = 0 then authStatus s.sec b = .format else authStatus s.sec b = .ok) ∧
      (k = 0x08 → s.sec.transitNext = some [1]) := by
  have e : ∀ k ∈ [0x00, 0x01, 0x02, 0x03, 0x04, 0x05, 0x06, 0x07, 0x08, 0x09, 0x0A, 0x0B],
      cellsRead (cellsWrite [] 0x8040000 (authBlock k (authCtr k))) 0x8040000 384 = authBlock k (authCtr k) := by
    decide +kernel
  intro k hk s b
  have ew : s.mgmt.win = cellsWrite [] 0x8040000 (authBlock k (authCtr k)) := put_win _ _ _
  have eb : b = authBlock k (authCtr k) := by
    show cellsRead s.mgmt.win _ _ = _
    rw [ew]
    exact e k hk
  refine ⟨by rfl, by rfl, by rfl, ?_, ?_, ?_⟩
  · rw [eb]; clear eb ew b s e; revert k; decide +kernel
  · rw [eb]
    show if k = 0 then authStatus (authSec k) _ = .format else authStatus (authSec k) _ = .ok
    clear eb ew b s e
    by_cases h0 : k = 0
    · subst h0; rw [if_pos rfl]; rfl
    · rw [if_neg h0]
      refine auth_ok _ _ hf hv ho ?_
      revert k; decide +kernel
  · intro h
    subst h
    rfl

theorem wit_TenancyLife :
    (∀ p ∈ [TenPhase.starting, .draining, .scrubbing],
      let s := secured { phase := p, tenancyOn := true }
      s.sec.phase = p ∧ s.sec.authWait = [] ∧ s.sec.override = false ∧ s.sec.keysDue = none) ∧
    (let s : State := { secured { phase := .starting, keysDue := some 7 } with now := 500007 }
     s.sec.phase = .starting ∧ s.sec.keysDue = some 7 ∧ 7 + 500000 ≤ s.now) ∧
    (∀ b : Bool,
      let s := secured { scrubSt := [(0xC050, 1)], tenancyOn := b }
      s.sec.scrubSt ≠ [] ∧ s.sec.tenancyOn = b) := by decide +kernel

/-- The device in a phase. -/
def phased (ph : Boot) : State := reached.setMgmt { reached.mgmt with phase := ph }

theorem wit_Resets :
    (up.mgmt.warming = false ∧ up.mgmt.phase ≠ .reset ∧ up.mgmt.phase ≠ .recovery) ∧ (∀ n, (up.strand n).txq = []) ∧
    (let s := up.setMgmt { up.mgmt with warming := true }
     s.mgmt.warming = true ∧ s.mgmt.clockLost = false ∧ s.pwr.stopped = false ∧ s.pwr.tripHold = false ∧ s.mgmt.stop = false ∧
     s.mgmt.run = true) := by
  refine ⟨by decide +kernel, fun n => by rw [up_strand], by decide +kernel⟩

theorem wit_BringUp :
    (∀ n l r e : Bool,
      let s := State.reset.setMgmt { State.reset.mgmt with resetN := n, clockLost := l, railsOk := r, testEn := e }
      s.mgmt.phase = .reset ∧ s.mgmt.resetN = n ∧ s.mgmt.skeinsUp = 0 ∧
      ((s.mgmt.clockLost = true ∨ s.mgmt.railsOk = false ∨ s.mgmt.testEn = true) ↔ !(!l && r && !e) = true)) ∧
    (let s := (phased .mgmt).setMgmt { (phased .mgmt).mgmt with skeinsUp := 0 }
     bootPhase s = .mgmt ∧ warmReady s = false ∧ s.mgmt.warming = false ∧ (s.mem.stack.get 0).trained = true ∧
     (s.mem.stack.get 1).trained = true ∧ s.mgmt.skeinsUp.getLsbD 0 = false ∧ halted s = false) ∧
    (∀ due : Bool, ∀ kept ∈ [[], List.finRange 8],
      let s := (phased .warmup).setMem { memUp with il := [], ilKept := kept, rebuildDue := due }
      let s := s.setMgmt { s.mgmt with cxlDone := true }
      bootPhase s = .warmup ∧ s.mgmt.warming = false ∧ s.mgmt.skeinsUp = 0xFF ∧ s.mgmt.cxlDone = true ∧ s.mem.il = [] ∧
      s.mem.ilKept = kept ∧ s.mem.rebuildDue = due ∧ (∀ k, (s.mem.stack.get k).trained = true) ∧
      (∀ k, (s.mem.stack.get k).lost = false) ∧ (∀ i : Fin 2, (s.mem.far.get i).gib = 0) ∧ halted s = false) ∧
    (phased .full).mgmt.phase = .full ∧
    (let s := (phased .stopped).setPwr { up.pwr with pstate := .p3 }
     s.mgmt.phase = .stopped ∧ s.mgmt.run = true ∧ s.pwr.stopped = false ∧ s.mgmt.resume ≠ .stopped ∧ s.pwr.pstate = .p3) := by
  decide +kernel

/-- A slot whose image decrypts under the key of its version and passes the checks is tried; one that misses its hashes, whose
write was cut short or whose key is another does not boot. -/
theorem wit_BringUp_slots (img : List Byte) (key : Nat) :
    let m (f : FlashSlot) : Mgmt := { State.reset.mgmt with flash := upd State.reset.mgmt.flash 1 f }
    slotImage (m (.image img (firmwareKey (Config.imageSvn img)))) true = some img ∧ slotImage (m .torn) true = none ∧
    (key ≠ firmwareKey (Config.imageSvn img) → slotImage (m (.image img key)) true = none) ∧
    (Config.imageHashes img = true → Config.imageSigned img = true → slotBoots (m (.image img key)) img = true) ∧
    (Config.imageHashes img = false → slotBoots (m (.image img key)) img = false) := by
  refine ⟨?_, ?_, ?_, ?_, ?_⟩
  · show (if _ = _ then some img else none) = some img
    exact if_pos rfl
  · rfl
  · intro h
    show (if _ = _ then some img else none) = none
    exact if_neg h
  · intro hh hs
    have e : State.reset.mgmt.minSvn = 0 := rfl
    simp [slotBoots, hh, hs, e]
  · intro hh
    simp [slotBoots, hh]

/-- Of the copies of the configuration block, one whose CRC holds and one whose CRC is another. -/
theorem wit_BringUp_copies (c : BoardCfg) :
    ({ cfg := c, crc := crc32c (Config.cfgBytes c) } : CfgCopy).crc = crc32c (Config.cfgBytes c) ∧
    ({ cfg := c, crc := crc32c (Config.cfgBytes c) + 1 } : CfgCopy).crc ≠ crc32c (Config.cfgBytes c) := by
  refine ⟨rfl, ?_⟩
  show crc32c (Config.cfgBytes c) + 1 ≠ _
  bv_omega

/-- The marked slot is tried first, and the other one where it does not boot. -/
theorem test_boot_slot (m : Mgmt) (a : List Byte) (ha : bootable m 0#2 false = some a)
    (hb : bootable m 0#2 true = none)
    (hl : m.lastB = false) : bootSlot m 0 = some (false, m.marked, a) := by
  cases hm : m.marked <;> simp [bootSlot, ha, hb, hl, hm]

theorem image_ok (m : Mgmt) (l : List Byte) (h : m.fwLen = 1 ∧ m.minSvn = 0) (hl : Config.imageLen l ≤ 1)
    (hh : Config.imageHashes l = true) (hs : Config.imageSigned l = true) : imageStatus m l = .ok := by
  have : ¬1 < Config.imageLen l := by omega
  simp [imageStatus, h.1, h.2, hh, hs, this]

/-- The firmware area holds an image of `n` bytes. -/
def imaged (n : Nat) : Mgmt := { phase := .full, fwLen := n }

theorem wit_FirmwareAndUnits_images (hl : Config.imageLen [0] ≤ 1) (hh : Config.imageHashes [0] = true)
    (hs : Config.imageSigned [0] = true) :
    let img (n : Nat) : List Byte := cellsRead (up.setMgmt (imaged n)).mgmt.win 0x9000000 (min (imaged n).fwLen 0x1000000)
    (imaged 1).fwStage = none ∧ ({ imaged 1 with fwStage := some [0] } : Mgmt).fwStage = some [0] ∧ (imaged 1).phase = .full ∧ imageStatus (imaged 1) (img 1) = .ok ∧
    imageStatus (imaged 0) (img 0) = .format := by
  have e : cellsRead (imaged 1).win 0x9000000 (min (imaged 1).fwLen 0x1000000) = [0] := by decide +kernel
  refine ⟨rfl, rfl, rfl, ?_, ?_⟩
  · show imageStatus (imaged 1) (cellsRead (imaged 1).win _ _) = _
    rw [e]
    exact image_ok _ _ ⟨rfl, rfl⟩ hl hh hs
  · simp [imageStatus, imaged]

theorem wit_FirmwareAndUnits_trim (hf : Config.trimFuse (cellsRead up.mgmt.win 0x80A0000 65536) = Config.fuseId)
    (ht : trimSound (cellsRead up.mgmt.win 0x80A0000 65536) = true) :
    up.mgmt.trimBusy = false ∧ trimStatus up (cellsRead up.mgmt.win 0x80A0000 65536) = .ok ∧
    trimStatus (secured { tenancyOn := true }) (cellsRead up.mgmt.win 0x80A0000 65536) ≠ .ok ∧
    (up.setMgmt { up.mgmt with trimNew := some ([], true) }).mgmt.trimNew = some ([], true) := by
  have e : up.sec.tenancyOn = false := rfl
  refine ⟨rfl, ?_, ?_, rfl⟩
  · simp [trimStatus, e, hf, ht]
  · simp [trimStatus, secured, State.setSec]

/-- Skein 7's flyer 3 and channel 255 are out of service. -/
def unserved : State :=
  (up.setMem { memUp with chan := upd memUp.chan 255 { st := .mappedOut } }).setSk 7 { fly := upd (rep 4 {}) 3 { failed := true } }

theorem wit_FirmwareAndUnits_units :
    (up.mgmt.unit.busy = false ∧ ((up.sk 7).fly.get 3).failed = false ∧ ((up.sk 7).fly.get 3).retired = false ∧
      listed unserved (.channel 255) = true ∧ listed up (.flyer 7 3) = false) ∧
    ((up.setSk 7 { changes := [.join 16] }).sk 7).changes.contains (.join (localOf (physOf 7 16))) = true ∧ skeinOf (physOf 7 16) = 7 ∧
    (let s := unserved.setMgmt { up.mgmt with unit := ⟨0, 0, true, .ok, 2, 31⟩ }
     s.mgmt.unit.busy = true ∧ s.mgmt.unit.runUnit = 2 ∧ s.mgmt.unit.runIndex = 4 * (7 : Fin 8).val + (3 : Fin 4).val) ∧
    (∀ page : Bool, ∀ w ∈ [5, 6],
      let r : FaultRec := { slot := 255, words := [if page then 4 else 5] }
      let s := up.setMgmt { up.mgmt with faults := [r], ackWord := BitVec.ofNat 64 w }
      s.mgmt.faults.find? (fun r => r.slot = (255 : Fin 256).val) = some r ∧ r.isPage = page ∧
      (page = false → (r.words.getD 0 0 = s.mgmt.ackWord ↔ w = 5))) := by decide +kernel

theorem wit_Sideband :
    (reached.mgmt.phase ≠ .reset ∧ reached.mgmt.restarting = false ∧ reached.mgmt.warming = false ∧
      reached.mgmt.phase ≠ .recovery) ∧
    (∀ p ∈ [PState.p3, .p4], (device p false none).pwr.pstate = p ∧ (device p false none).mgmt.phase ≠ .stopped) ∧
    (∀ n ∈ [199, 200, 850, 851], let w := BitVec.ofNat 16 n
      (200 ≤ w.toNat ∧ w.toNat ≤ 850) ↔ n = 200 ∨ n = 850) ∧
    ((phased .recovery).mgmt.phase = .recovery ∧ (List.replicate 32 (0 : Byte)).length = 32 ∧
      (phased .recovery).mgmt.recovered + 32 ≤ 0x1000000) := by decide +kernel

/-- Recovery data that end an image which boots, and data that do not. -/
theorem wit_Sideband_recovery (l : List Byte) (hh : Config.imageHashes l = true) (hs : Config.imageSigned l = true) :
    slotBoots (phased .recovery).mgmt l = true ∧
    (Config.imageLen l ≤ (phased .recovery).mgmt.recovered + 32 ∨ (phased .recovery).mgmt.recovered + 32 < Config.imageLen l) := by
  have e : (phased .recovery).mgmt.minSvn = 0 := rfl
  refine ⟨by simp [slotBoots, hh, hs, e], by omega⟩

theorem wit_RegisterWrites : (1 : Word).getLsbD 0 = true ∧ (1 : Word).getLsbD 1 = false ∧ 0xE009 % 8 ≠ 0 := by decide

theorem wit_StepKeepsCanonical : State.reset.canonical ∧ ∃ t, step State.reset = .next t := by
  refine ⟨?_, _, rfl⟩
  unfold State.canonical
  decide +kernel

theorem wit_CommandsKeepQueue : ∃ t, exec .refclkLoss up = .next t := ⟨_, rfl⟩

/-! ## Examples that the spec works out -/

/-- The conversion of 0x3EAA_AAAB to BF16x2 (02, the example under R42). -/
theorem test_bf16x2 : (encode .bf16x2 false .rne 0 (decode .fp32 0x3EAAAAAB)).1 = 0x3EABBA2B := by decide +kernel

/-- 2.75 and −7.0 to FP4 by each rounding (02, the example under R54). -/
theorem test_fp4 :
    (encode .e2m1 false .rne 0 (decode .fp32 0x40300000)).1 = 5 ∧
    (encode .e2m1 false .rtz 0 (decode .fp32 0x40300000)).1 = 4 ∧
    (encode .e2m1 false .sr 0x2C000000 (decode .fp32 0x40300000)).1 = 4 ∧
    (encode .e2m1 false .sr 0x40000000 (decode .fp32 0x40300000)).1 = 5 ∧
    (encode .e2m1 false .rne 0 (decode .fp32 0xC0E00000)).1 = 0xF ∧
    (encode .e2m1 false .rne 0 (decode .fp32 0xC0E00000)).2.ovf = true := by decide +kernel

/-- 449 converts to 448 in E4M3 without an overflow (02). -/
theorem test_e4m3 : (encode .e4m3 false .rne 0 (decode .fp32 0x43E08000)).1 = 0x7E ∧
    (encode .e4m3 false .rne 0 (decode .fp32 0x43E08000)).2.ovf = false := by decide +kernel

/-- The address of the example under 09 R233: its alias and its stack. -/
theorem test_interleave : aliasOf memUp 0x1234567A40 = 0x170468ACA40 := by decide +kernel

/-- Words written bit by bit from the formats of 06 R142 to R149: an S3, an SI, a compare, a bdec, a csrw. -/
theorem test_words :
    decodeTableWord 64 0x8000308800000000 = some (.add hd 3 1 2) ∧
    decodeTableWord 64 0x81024280FFFFFFF8 = some (.addi ⟨0, true, 1⟩ 4 5 0xFFFFFFF8) ∧
    decodeTableWord 64 0x8220230200000064 = some (.cmpLt hd 2 6 (.imm 100)) ∧
    decodeTableWord 64 0x90169000FFFFFFE0 = some (.bdec ⟨0, true, 3⟩ 9 0xFFFFFFE0) ∧
    decodeTableWord 64 0xF040A00100000000 = some (.csrw hd 1 10) := by decide +kernel

/-- `movi s5, 0x4567_89AB` then `movhi s5, s5, 0x123` (07, under R172). -/
theorem test_movhi :
    (match exec (.movi hd 5 0x456789AB) run0 with
     | .next t => match exec (.movhi hd 5 5 0x123) (t.setSp 0 { t.sp 0 with clk := 9 }) with
       | .next u => ((u.sp 0).s.get 5).toNat
       | _ => 0
     | _ => 0) = 0x123456789AB := by decide +kernel

/-- The failure of physical spindle 40 (01, under R22): the map of skein 2 is to give logical 6 the spare. -/
theorem test_spindle40 :
    (match exec (.spindleFail 40) up with
     | .next t => ((t.sk 2).healthy.getLsbD 6, (t.sk 2).spare.val, (t.sk 2).phys.get 6)
     | _ => (true, 0, 0)) = (false, 31, 16) := by decide +kernel

/-! ## Ill-formed commands -/

/-- A move's operands with a shadow pair. -/
def fl (path : Path) (sp : Fin 32) : Fl :=
  { t := 0, sd := 1, ss := 2, sn := 3, fs := .bf16, fd := .bf16, tr := false, rm := .rne, satInf := false, hint := .none
    path, sp, scs := false, scd := false }

/-- One ill-formed command for each check on a word or a register order. -/
theorem test_illformed_words : ∀ i ∈ [Instr.fmv hd (fl .shadow 30), .fmv hd (fl .shadow 0), .fadd hd (fl .shadow 2),
      .registerWrite 4 0, .registerWrite 0x10000000 0, .retire (.other 16 0), .retire (.other 0 256),
      .retire (.other 1 135), .restore (.other 2 31), .restore (.other 3 0), .restore (.other 5 31), .bindFill 0 0 4096,
      .malformedBundle 0 [], .malformedBundle 0 [0, 0, 0, 0, 0]], i.wf = false := by decide +kernel

/-- One for each check on an event, a frame or a message. -/
theorem test_illformed_events : ∀ i ∈ [Instr.patrolScrub 0 0 [2 ^ 48], .migrationGranuleCopy [2 ^ 48],
      .write fh 0 (List.replicate 8177 0), .writeFlagged { fh with src := 2 ^ 128 } 0 [], .readResp fh 0 (List.replicate 8177 0),
      .atomicAdd { fh with dst := 2 ^ 128 } 0 false 0 [], .read { fh with src := 2 ^ 128 } 0 8, .hello 0 { hello5 true true with ip := 2 ^ 128 },
      .getCertificate 8, .getMeasurements 256, .keyExchange (2 ^ 32) .none, .finish (2 ^ 32), .endSession (2 ^ 32),
      .keyUpdate (2 ^ 32), .heartbeat (2 ^ 32), .sessionIdleTimeout (2 ^ 32), .leaseRequest (2 ^ 32) 0 0,
      .wakeKeyFetch (2 ^ 32), .submit (some (2 ^ 32)) [], .arpRequest 0 (2 ^ 32) false, .arpRequest 0 (2 ^ 128) true,
      .lldpduReceive 0 65536 [], .lldpduReceive 0 1 (List.replicate 16366 0), .hello 0 { hello5 true true with dest := 2 ^ 128 }], i.wf = false := by decide +kernel

/-- Settings of a configuration block. -/
def board0 : BoardCfg := { mode := 0, pmd := List.replicate 32 0, bifur := false, scrub := false, wakeEn := 0, sbAddr := 0 }

/-- One for each check on a round of a group, a power order or the management interface. -/
theorem test_illformed_orders :
    (∀ i ∈ [Instr.signatureRoundComplete 0 [sig1 0 0 0, sig1 0 0 0], .groupReady 0 [⟨1, 0, 0, 0, 0⟩, ⟨1, 0, 0, 0, 0⟩],
      .skipDecision 0 [⟨1, 0, 0, false, []⟩, ⟨1, 0, 0, false, []⟩],
      .digestComparison 0 [⟨1, 0, 0, 0, 0, []⟩, ⟨1, 0, 0, 0, 0, []⟩], .collectiveChunkAcked 0 (List.replicate 8177 0),
      .grantTick { grant0 0 with work := [] }, .grantTick { grant0 0 with skeins := [] }, .energyAttribution [] [] 0,
      .thermalThreshold ⟨[], [0, 0], List.replicate 8 0⟩, .thermalThreshold ⟨List.replicate 32 0, [0], List.replicate 8 0⟩,
      .thermalThreshold ⟨List.replicate 32 0, [0, 0], []⟩,
      .bringupPhaseAdvance (.cxl 65536 0 0), .bringupPhaseAdvance (.cxl 0 65536 0),
      .sbRecovery true (List.replicate 256 0)], i.wf = false) ∧
    ∀ c ∈ [{ board0 with mode := 4 }, { board0 with pmd := [] }, { board0 with pmd := List.replicate 32 3 },
        { board0 with addrs := List.replicate 9 (none, none) }, { board0 with addrs := [(some (2 ^ 32), none)] },
        { board0 with pmbus := List.replicate 8 0 }, { board0 with pmbus := [128] },
        { board0 with avs := List.replicate 8 (0, 0) }, { board0 with avs := [(2, 0)] }, { board0 with avs := [(0, 16)] }],
      (Instr.bringupPhaseAdvance (.firmware 0 [⟨c, 0⟩] 0)).wf = false := by decide +kernel

/-- A well-formed one of those that carry a check. -/
theorem test_wellformed : ∀ i ∈ [Instr.fmv hd (fl .shadow 2), .fadd hd (fl .hold 0), .registerWrite 8 0, .bindFill 0 0 4095,
    .write fh 0 [], .getCertificate 7, .finish 0, .groupReady 0 [⟨1, 0, 0, 0, 0⟩], .grantTick (grant0 0),
    .retire (.other 1 136), .bringupPhaseAdvance (.firmware 0 [⟨board0, 0⟩, ⟨board0, 1⟩] 0),
    .thermalThreshold ⟨List.replicate 32 0, [0, 0], List.replicate 8 0⟩, .lldpduReceive 0 1 (List.replicate 2041 0)], i.wf = true := by decide +kernel

end Sys2Proof.Tests
end

section
/-!
PROOFS. The register space (00 R11 to R13, R532): where a table of registers answers, what a write of a register does, and
from these the statement of REGISTER_WRITE.
-/

namespace Sys2Proof.Machine

/-! ## Where a table of registers answers -/

/-- The offset `o` within entry `i` of a table is found as that entry and that offset. -/
theorem blockAt_entry {base stride n o : Nat} (i : Fin n) (ho : o < stride) :
    blockAt base stride n (base + stride * i + o) = some (i, o) := by
  have hdiv : (stride * i.val + o) / stride = i := by
    rw [Nat.mul_add_div (by omega), Nat.div_eq_of_lt ho, Nat.add_zero]
  simp [blockAt, hdiv, Nat.mod_eq_of_lt ho, Nat.add_assoc]

/-- An offset before a table or past its end is in no entry of it. -/
theorem blockAt_outside {base stride n off : Nat} (hs : 0 < stride) (h : off < base ∨ base + n * stride ≤ off) :
    blockAt base stride n off = none := by
  refine dif_neg fun ⟨hle, hlt⟩ => ?_
  have := (Nat.div_lt_iff_lt_mul hs).mp hlt
  omega

theorem tableAt_entry {base n : Nat} (i : Fin n) : tableAt base n (base + 8 * i) = some i := by
  have h : blockAt base 8 n (base + 8 * i) = some (i, 0) := blockAt_entry i (o := 0) (by decide)
  simp [tableAt, h]

theorem tableAt_outside {base n off : Nat} (h : off < base ∨ base + n * 8 ≤ off) : tableAt base n off = none := by
  simp [tableAt, blockAt_outside (Nat.zero_lt_succ 7) h]

/-! ## Which register a write reaches -/

section
variable {s t : State} {off : Nat} {v : Word}

/-- Past `FW_CTRL` only the commit of the creel quotas stands alone; every other register is in a table. -/
theorem singleWrite_eq_none (h : 0xE060 < off) (hq : off ≠ 0x48000) : singleWrite s off v = none := by
  rw [singleWrite] <;> omega

theorem tableWrite_quota (q : Fin 4096) :
    tableWrite s (0x40000 + 8 * q.val) v = some (s.setQ q { s.q q with quotaSt := some v }) := by
  have hq := q.isLt
  simp (disch := omega) [tableWrite, blockAt_outside, tableAt_entry]

theorem tableWrite_queue (q : Fin 4096) {o : Nat} (ho : o < 0x80) :
    tableWrite s (0x100000 + 0x80 * q.val + o) v = some (queueRegWrite s q o v) := by
  have hq := q.isLt
  simp (disch := omega) [tableWrite, blockAt_outside, tableAt_outside, blockAt_entry]

theorem tableWrite_strand (n : Fin 2048) {o : Nat} (ho : o < 0x40) :
    tableWrite s (0x2000000 + 0x40 * n.val + o) v = some (strandRegWrite s n o v) := by
  have hn := n.isLt
  simp (disch := omega) [tableWrite, blockAt_outside, tableAt_outside, blockAt_entry]

/-- An aligned register that lies in no window is one that a write names (00 R532). -/
theorem regRange_outside_windows (ha : off % 8 = 0)
    (h : off + 8 ≤ 0x1000000 ∨ 0x1010000 ≤ off ∧ off + 8 ≤ 0x8000000) : regRange off 8 = true := by
  have hw : touchesWindow off 8 = false := by
    simp [touchesWindow, windows]
    omega
  simp [regRange, ha, hw]
  omega

/-! ## What REGISTER_WRITE does -/

theorem exec_registerWrite : exec (.registerWrite off v) s = .next (doRegisterWrite off v s) := rfl

theorem doRegisterWrite_misaligned (h : off % 8 ≠ 0) : doRegisterWrite off v s = s := by
  simp [doRegisterWrite, regRange, h]

/-- A write where no writable register stands changes nothing. -/
theorem doRegisterWrite_unwritable (hs : singleWrite s off v = none) (ht : tableWrite s off v = none) :
    doRegisterWrite off v s = s := by
  simp [doRegisterWrite, regWrite, hs, ht]

theorem doRegisterWrite_single (hr : regRange off 8 = true) (h : singleWrite s off v = some t) :
    doRegisterWrite off v s = t := by
  simp [doRegisterWrite, regWrite, hr, h]

theorem doRegisterWrite_table (hr : regRange off 8 = true) (hs : singleWrite s off v = none)
    (h : tableWrite s off v = some t) : doRegisterWrite off v s = t := by
  simp [doRegisterWrite, regWrite, hr, hs, h]

theorem doRegisterWrite_quota (q : Fin 4096) :
    doRegisterWrite (0x40000 + 8 * q.val) v s = s.setQ q { s.q q with quotaSt := some v } := by
  have hq := q.isLt
  exact doRegisterWrite_table (regRange_outside_windows (by omega) (by omega))
    (singleWrite_eq_none (by omega) (by omega)) (tableWrite_quota q)

theorem doRegisterWrite_queue (q : Fin 4096) {o : Nat} (ha : o % 8 = 0) (ho : o < 0x80) :
    doRegisterWrite (0x100000 + 0x80 * q.val + o) v s = queueRegWrite s q o v := by
  have hq := q.isLt
  exact doRegisterWrite_table (regRange_outside_windows (by omega) (by omega))
    (singleWrite_eq_none (by omega) (by omega)) (tableWrite_queue q ho)

theorem doRegisterWrite_strand (n : Fin 2048) {o : Nat} (ha : o % 8 = 0) (ho : o < 0x40) :
    doRegisterWrite (0x2000000 + 0x40 * n.val + o) v s = strandRegWrite s n o v := by
  have hn := n.isLt
  exact doRegisterWrite_table (regRange_outside_windows (by omega) (by omega))
    (singleWrite_eq_none (by omega) (by omega)) (tableWrite_strand n ho)

/-- A word whose bit 0 is set, written to the register of an order, does what the order's command does. -/
theorem exec_registerWrite_order {c : Instr} {f : State → State} (hv : v.getLsbD 0 = true) (hr : regRange off 8 = true)
    (h : singleWrite s off v = some (if hit v 0 then f s else s)) (hc : exec c s = .next (f s)) :
    exec (.registerWrite off v) s = exec c s := by
  rw [exec_registerWrite, hc, doRegisterWrite_single hr h, if_pos (show hit v 0 = true from hv)]

/-- `WARM` without `MGMT_RESTART` leaves the management processor running: the write is the warm reset alone. -/
theorem singleWrite_warm (h0 : v.getLsbD 0 = true) (h1 : v.getLsbD 1 = false) :
    singleWrite s 0xE008 v = some (doWarm s) := by
  simp only [singleWrite, hit, h0, h1, if_true, Bool.false_eq_true, if_false]

end

/-! ## The statement -/

/-- Settles O57: each write is traced to the register it reaches, alone or in a table, and that register's effect is the
one stated. -/
theorem registerWrites : Obligations.RegisterWrites := by
  intro v s
  refine ⟨?queueWords, ?queueOrder, fun q => congrArg Host.Outcome.next (doRegisterWrite_quota q), ?strandWords, ?orders,
    ?warm, congrArg Host.Outcome.next (doRegisterWrite_single (off := 0xE010) (by decide) rfl),
    congrArg Host.Outcome.next (doRegisterWrite_single (off := 0x7010) (by decide) rfl),
    congrArg Host.Outcome.next (doRegisterWrite_single (off := 0xE030) (by decide) rfl),
    fun off h => congrArg Host.Outcome.next (doRegisterWrite_misaligned h), ?readOnly⟩
  case queueWords =>
    rintro q o (rfl | rfl | rfl) <;> exact congrArg Host.Outcome.next (doRegisterWrite_queue q (by decide) (by decide))
  case queueOrder =>
    intro q hv
    exact congrArg Host.Outcome.next ((doRegisterWrite_queue q (by decide) (by decide)).trans (if_pos hv))
  case strandWords =>
    rintro n o (rfl | rfl | rfl) <;> exact congrArg Host.Outcome.next (doRegisterWrite_strand n (by decide) (by decide))
  case orders =>
    intro hv
    simp only [List.forall_mem_cons, List.not_mem_nil, false_imp_iff, implies_true, and_true]
    exact ⟨exec_registerWrite_order (f := doMemErrCommit) hv (by decide) rfl rfl,
      exec_registerWrite_order (f := doEthCommit) hv (by decide) rfl rfl,
      exec_registerWrite_order (f := doTwineCommit) hv (by decide) rfl rfl,
      exec_registerWrite_order (f := doPeerCommit) hv (by decide) rfl rfl,
      exec_registerWrite_order (f := doScrubCommit) hv (by decide) rfl rfl,
      exec_registerWrite_order (f := doPwrCommit) hv (by decide) rfl rfl,
      exec_registerWrite_order (f := doTrimWrite) hv (by decide) rfl rfl,
      exec_registerWrite_order (f := doCreelQuotaCommit) hv (by decide) rfl rfl⟩
  case warm =>
    intro h0 h1
    exact congrArg Host.Outcome.next (doRegisterWrite_single (by decide) (singleWrite_warm h0 h1))
  case readOnly =>
    simp only [List.forall_mem_cons, List.not_mem_nil, false_imp_iff, implies_true, and_true]
    refine ⟨?_, ?_, ?_, ?_, ?_, ?_, ?_, ?_, ?_⟩ <;> exact congrArg Host.Outcome.next (doRegisterWrite_unwritable rfl rfl)

end Sys2Proof.Machine
end

section
/-!
PROOFS. Work cut off by a part fault (12 R338, 01 R35): a property of the skeins and queues that the elementary changes
leave survives the stop of a kernel and of a move. Three such properties are the maps of the skeins, the descriptors of a
queue, and a failed flyer without a move.
-/

namespace Sys2Proof.Machine

/-! ## What records and changes of the map leave -/

theorem post_frame (s : State) (n : Fin 2048) (m : Msg) : (post s n m).skeins = s.skeins ∧ (post s n m).queues = s.queues := by
  unfold post
  dsimp only
  split <;> exact ⟨rfl, rfl⟩

theorem notify_frame (s : State) (w : Party) (kind q r : Nat) (body : List Byte) :
    (notify s w kind q r body).skeins = s.skeins ∧ (notify s w kind q r body).queues = s.queues := by
  unfold notify
  split
  · exact post_frame _ _ _
  · exact ⟨rfl, rfl⟩

/-- A record goes to the registers and to the controller's strand alone. -/
theorem record_frame (s : State) (kind : Nat) (st : Option Status) (unit index : Nat) (args : List Nat) :
    (record s kind st unit index args).skeins = s.skeins ∧ (record s kind st unit index args).queues = s.queues :=
  notify_frame _ _ _ _ _ _

@[simp] theorem record_skeins (s : State) (kind : Nat) (st : Option Status) (unit index : Nat) (args : List Nat) :
    (record s kind st unit index args).skeins = s.skeins := (record_frame s kind st unit index args).1

@[simp] theorem record_sk (s : State) (kind : Nat) (st : Option Status) (unit index : Nat) (args : List Nat) (k : Fin 8) :
    (record s kind st unit index args).sk k = s.sk k :=
  congrArg (fun v => v.get k) (record_skeins s kind st unit index args)

@[simp] theorem record_queues (s : State) (kind : Nat) (st : Option Status) (unit index : Nat) (args : List Nat) :
    (record s kind st unit index args).queues = s.queues := (record_frame s kind st unit index args).2

@[simp] theorem applyChange_queues (s : State) (k : Fin 8) (c : MapChange) : (applyChange s k c).queues = s.queues := by
  cases c with
  | leave l => exact record_queues _ _ _ _ _ _
  | join l => rfl

theorem settleMap_queues (s : State) (k : Fin 8) : (settleMap s k).queues = s.queues :=
  foldl_keeps (fun s => s.queues) _ (fun s c => by split <;> simp) _ s

/-- With no change that waits the map stays. -/
theorem settleMap_nil {s : State} {k : Fin 8} (h : (s.sk k).changes = []) : settleMap s k = s := by
  simp [settleMap, h]

/-- No change that is due: the map stays. -/
theorem settleMap_none_due {s : State} {k : Fin 8} (h : ∀ c ∈ (s.sk k).changes, changeDue s k c = false) :
    settleMap s k = s :=
  List.foldlRecOn (motive := (· = s)) _ _ rfl fun t ht c hc => by subst ht; simp [h c hc]

/-- The one change that waits and is due takes effect. -/
theorem settleMap_one {s : State} {k : Fin 8} {c : MapChange} (h : (s.sk k).changes = [c]) (hd : changeDue s k c = true) :
    settleMap s k = applyChange s k c := by
  simp [settleMap, h, hd]

theorem applyChange_leave_sk (s : State) (k : Fin 8) (l : Fin 17) : (applyChange s k (.leave l)).sk k =
    { s.sk k with changes := (s.sk k).changes.filter fun x => x != MapChange.leave l }.lose l := by
  simp [applyChange]

theorem applyChange_join_sk (s : State) (k : Fin 8) (l : Fin 17) : (applyChange s k (.join l)).sk k =
    { s.sk k with changes := (s.sk k).changes.filter fun x => x != MapChange.join l }.gain l := by
  simp [applyChange]

/-! ## The map of a skein -/

section
variable (k : Skein) (l : Fin 17)

/-- A loss touches the map alone. -/
theorem Skein.lose_eq : ∃ phys spare, k.lose l =
    { k with healthy := k.healthy &&& ~~~(1#17 <<< l.val), mapGen := k.mapGen + 1, phys, spare } := by
  unfold Skein.lose
  dsimp only
  split
  · exact ⟨_, _, rfl⟩
  · split <;> exact ⟨_, _, rfl⟩

/-- A gain touches the map alone. -/
theorem Skein.gain_eq : ∃ phys spare, k.gain l =
    { k with healthy := k.healthy ||| (1#17 <<< l.val), mapGen := k.mapGen + 1, phys, spare } := by
  unfold Skein.gain
  dsimp only
  split <;> exact ⟨_, _, rfl⟩

@[simp] theorem Skein.lose_changes : (k.lose l).changes = k.changes := by
  obtain ⟨_, _, h⟩ := k.lose_eq l
  rw [h]

@[simp] theorem Skein.lose_fly : (k.lose l).fly = k.fly := by
  obtain ⟨_, _, h⟩ := k.lose_eq l
  rw [h]

@[simp] theorem Skein.lose_healthy : (k.lose l).healthy = k.healthy &&& ~~~(1#17 <<< l.val) := by
  obtain ⟨_, _, h⟩ := k.lose_eq l
  rw [h]

@[simp] theorem Skein.lose_mapGen : (k.lose l).mapGen = k.mapGen + 1 := by
  obtain ⟨_, _, h⟩ := k.lose_eq l
  rw [h]

@[simp] theorem Skein.gain_changes : (k.gain l).changes = k.changes := by
  obtain ⟨_, _, h⟩ := k.gain_eq l
  rw [h]

@[simp] theorem Skein.gain_fly : (k.gain l).fly = k.fly := by
  obtain ⟨_, _, h⟩ := k.gain_eq l
  rw [h]

@[simp] theorem Skein.gain_healthy : (k.gain l).healthy = k.healthy ||| (1#17 <<< l.val) := by
  obtain ⟨_, _, h⟩ := k.gain_eq l
  rw [h]

@[simp] theorem Skein.gain_mapGen : (k.gain l).mapGen = k.mapGen + 1 := by
  obtain ⟨_, _, h⟩ := k.gain_eq l
  rw [h]

variable {k l}

/-- The spare that leaves leaves no spare. -/
theorem Skein.lose_spare (h : k.spare = localIx l) : (k.lose l).phys = k.phys ∧ (k.lose l).spare = noLocal := by
  unfold Skein.lose
  dsimp only
  rw [if_pos h]
  exact ⟨rfl, rfl⟩

/-- The spare takes the logical ID of another that leaves. -/
theorem Skein.lose_logical {i : Fin 16} (h : k.spare ≠ localIx l) (hi : k.logicalAt l = some i) :
    (k.lose l).phys = upd k.phys i k.spare ∧ (k.lose l).spare = noLocal := by
  have hi' : Skein.logicalAt { k with healthy := k.healthy &&& ~~~(1#17 <<< l.val), mapGen := k.mapGen + 1 } l = some i := hi
  unfold Skein.lose
  dsimp only
  rw [if_neg h, hi']
  exact ⟨rfl, rfl⟩

theorem Skein.gain_absent {i : Fin 16} (h : k.absent = some i) : (k.gain l).phys = upd k.phys i (localIx l) := by
  have h' : Skein.absent { k with healthy := k.healthy ||| (1#17 <<< l.val), mapGen := k.mapGen + 1 } = some i := h
  unfold Skein.gain
  dsimp only
  rw [h']

theorem Skein.gain_full (h : k.absent = none) : (k.gain l).spare = localIx l := by
  have h' : Skein.absent { k with healthy := k.healthy ||| (1#17 <<< l.val), mapGen := k.mapGen + 1 } = none := h
  unfold Skein.gain
  dsimp only
  rw [h']

end

/-- The map of a skein and the changes that wait, with nothing else of it. -/
def Skein.mapOnly (k : Skein) : Skein :=
  { phys := k.phys, healthy := k.healthy, spare := k.spare, mapGen := k.mapGen, changes := k.changes }

theorem Skein.mapOnly_fields {j k : Skein} (h : j.mapOnly = k.mapOnly) :
    j.phys = k.phys ∧ j.spare = k.spare ∧ j.healthy = k.healthy ∧ j.mapGen = k.mapGen ∧ j.changes = k.changes := by
  simp only [mapOnly, Skein.mk.injEq] at h
  tauto

theorem Skein.filter_changes_nil {k : Skein} (h : k.changes = []) (g : MapChange → Bool) :
    { k with changes := k.changes.filter g } = k := by
  rw [h, List.filter_nil, ← h]

theorem feed_mapOnly (k : Skein) : (feed k).mapOnly = k.mapOnly := by
  unfold feed
  split <;> rfl

theorem Skein.without_mapOnly (g : Move → Bool) (k : Skein) : (k.without g).mapOnly = k.mapOnly := by
  simp only [Skein.without, feedAll, feed_mapOnly]
  rfl

/-! ## A failed flyer -/

/-- A flyer that has failed and holds no move. -/
def Skein.grounded (f : Fin 4) (k : Skein) : Prop := (k.fly.get f).failed = true ∧ (k.fly.get f).move = none

theorem Skein.grounded_of_fly {f : Fin 4} {k j : Skein} (h : j.fly = k.fly) (hk : k.grounded f) : j.grounded f := by
  unfold Skein.grounded
  rw [h]
  exact hk

/-- A failed flyer takes no waiting move (01 R35). -/
theorem feed_grounded {f : Fin 4} {k : Skein} (hk : k.grounded f) : (feed k).grounded f := by
  unfold feed
  split
  case h_1 m i _ hi =>
    have hne : f ≠ i := fun h => by
      have := List.find?_some hi
      simp [← h, hk.1] at this
    unfold Skein.grounded
    rw [get_upd_ne _ _ hne]
    exact hk
  case h_2 => exact hk

theorem feedAll_grounded {f : Fin 4} {k : Skein} (hk : k.grounded f) : (feedAll k).grounded f :=
  feed_grounded (feed_grounded (feed_grounded (feed_grounded hk)))

theorem Skein.without_grounded {f : Fin 4} {k : Skein} (g : Move → Bool) (hk : k.grounded f) : (k.without g).grounded f := by
  refine feedAll_grounded ?_
  obtain ⟨hf, hm⟩ := hk
  simp only [Vector.get_eq_getElem] at hf hm
  simp [Skein.grounded, Vector.get_eq_getElem, hf, hm]

/-! ## Properties that survive the cutting of work -/

/-- A property of the skeins and queues that the elementary changes of a stop leave: bytes written into the creel, moves
taken off, changes of the map that are due, a queue that leaves WAIT_PAGE. -/
structure Survives (P : State → Prop) : Prop where
  frame {s t : State} : P s → t.skeins = s.skeins → t.queues = s.queues → P t
  creel {s : State} (k : Fin 8) (bs : List Binding) : P s → P (s.setSk k { s.sk k with bindings := bs })
  without {s : State} (g : Move → Bool) : P s → P { s with skeins := s.skeins.map (Skein.without g) }
  settleMap {s : State} (k : Fin 8) : P s → P (settleMap s k)
  settleQueue {s : State} (q : Fin 4096) : P s → P (settleQueue s q)

namespace Survives
variable {P : State → Prop} (hP : Survives P) {s : State}
include hP

theorem writeByte (a : Nat) (b : Byte) (h : P s) : P (writeByte s a b) := by
  unfold Machine.writeByte
  split
  · exact hP.frame h rfl rfl
  · split
    · unfold putByte
      split
      · exact hP.creel _ _ h
      · exact hP.frame h rfl rfl
    · exact h

theorem writePhys (a : Nat) (bs : List Byte) (h : P s) : P (writePhys s a bs) := by
  induction bs generalizing s a with
  | nil => exact h
  | cons b bs ih => exact ih _ (hP.writeByte _ _ h)

theorem writeChecked (a : Nat) (bs : List Byte) (h : P s) : P (writeChecked s a bs).1 := by
  unfold Machine.writeChecked
  split
  · exact h
  · exact hP.writePhys _ _ (hP.frame h rfl rfl)

theorem writeSegs (segs : List Seg) (a : Nat) (bs : List Byte) (h : P s) : P (writeSegs s segs a bs).1 :=
  List.foldlRecOn (motive := fun r : State × Bool => P r.1) _ _ h fun _ hr _ _ => hP.writeChecked _ _ hr

theorem applyWrites (segs : List Seg) (ws : List (Nat × List Byte)) (h : P s) : P (applyWrites s segs ws).1 :=
  List.foldlRecOn (motive := fun r : State × Bool => P r.1) _ _ h fun _ hr _ _ => hP.writeSegs _ _ _ hr

theorem spoil (m : Move) (h : P s) : P (spoil s m) := hP.frame (hP.applyWrites _ _ h) rfl rfl

theorem cutMoves (g : Move → Bool) (h : P s) : P (cutMoves s g) :=
  hP.without g (List.foldlRecOn _ _ h fun _ ht m _ => hP.spoil m ht)

theorem stopShares (q : Fin 4096) (seq : Nat) (h : P s) : P (stopShares s q seq) :=
  List.foldlRecOn _ _ (hP.cutMoves _ h) fun _ ht _ _ => hP.frame ht rfl rfl

theorem dropFault (id : Nat) (h : P s) : P (dropFault s id) := by
  unfold Machine.dropFault
  split
  · exact h
  · refine hP.settleQueue _ ?_
    split <;> exact hP.frame h rfl rfl

theorem boundary (p : Fin 136) (h : P s) : P (boundary s p) := by
  unfold Machine.boundary
  split
  · exact h
  · have hm : P ((List.finRange 8).foldl Machine.settleMap s) :=
      List.foldlRecOn _ _ h fun _ ht k _ => hP.settleMap k ht
    dsimp only
    generalize (List.finRange 8).foldl Machine.settleMap s = settled at hm ⊢
    split
    · exact hm
    · exact hP.frame hm rfl rfl

theorem boundaries (ps : List (Fin 136)) (h : P s) : P (boundaries s ps) :=
  List.foldlRecOn _ _ h fun _ ht p _ => hP.boundary p ht

/-- A kernel that stops. -/
theorem stopKernel (q : Fin 4096) (seq : Nat) (h : P s) : P (stopKernel s q seq) := by
  refine hP.boundaries _ (List.foldlRecOn _ _ ?_ fun _ ht id _ => hP.dropFault id ht)
  exact hP.frame (hP.stopShares q seq h) rfl rfl

end Survives

/-! ## Properties of the skeins alone -/

theorem settleQueue_skeins (s : State) (q : Fin 4096) : (settleQueue s q).skeins = s.skeins := by
  unfold settleQueue
  dsimp only
  split <;> rfl

theorem redo_skeins (s : State) (q : Fin 4096) (seq : Nat) (fl : Flags) : (redo s q seq fl).skeins = s.skeins := by
  unfold redo
  split <;> rfl

theorem reportMove_skeins (s : State) (m : Move) (st : Status) (fl : Flags) : (reportMove s m st fl).skeins = s.skeins := by
  unfold reportMove
  split <;> rfl

/-- A property that the skeins alone enter and that survives. -/
structure SkeinSurvives (P : State → Prop) : Prop extends Survives P where
  skeins {s t : State} : P s → t.skeins = s.skeins → P t

namespace SkeinSurvives
variable {P : State → Prop} (hP : SkeinSurvives P) {s : State}
include hP

theorem interruptKernel (q : Fin 4096) (seq : Nat) (h : P s) : P (interruptKernel s q seq) := by
  have hs := hP.stopKernel q seq h
  unfold Machine.interruptKernel
  dsimp only
  split
  · exact hP.skeins hs (redo_skeins _ _ _ _)
  · exact hP.skeins hs rfl

theorem finishMove (m : Move) (fl : Flags) (h : P s) : P (finishMove s m fl) := by
  unfold Machine.finishMove
  split
  · exact h
  · split
    · exact hP.interruptKernel _ _ h
    · split
      · exact hP.skeins h (redo_skeins _ _ _ _)
      · exact hP.skeins h (reportMove_skeins s m _ _)

end SkeinSurvives

theorem sk_map (s : State) (g : Skein → Skein) (k : Fin 8) : ({ s with skeins := s.skeins.map g } : State).sk k = g (s.sk k) := by
  simp [State.sk, Vector.get_eq_getElem]

/-- A view of a skein that an update of some skein keeps is kept of every skein. -/
theorem setSk_view {α : Type} (v : Skein → α) {s : State} {j : Fin 8} {x : Skein} (h : v x = v (s.sk j)) (k : Fin 8) :
    v ((s.setSk j x).sk k) = v (s.sk k) := by
  by_cases hk : k = j
  · rw [hk, State.setSk_sk_same, h]
  · rw [State.setSk_sk_ne _ _ _ _ hk]

/-- The maps of the skeins, where no change waits. -/
theorem skeinSurvives_maps {m : Fin 8 → Skein} (hm : ∀ j, (m j).changes = []) :
    SkeinSurvives fun s => ∀ j, (s.sk j).mapOnly = m j where
  frame h hs _ j := by rw [State.sk, hs]; exact h j
  creel k bs h j := (setSk_view Skein.mapOnly (by rfl) j).trans (h j)
  without g h j := by rw [sk_map, Skein.without_mapOnly, h j]
  settleMap k h := by
    rw [settleMap_nil (show _ = [] from (congrArg Skein.changes (h k)).trans (hm k))]
    exact h
  settleQueue q h j := by rw [State.sk, settleQueue_skeins]; exact h j
  skeins h hs j := by rw [State.sk, hs]; exact h j

theorem applyChange_fly (s : State) (j : Fin 8) (c : MapChange) (k : Fin 8) :
    ((applyChange s j c).sk k).fly = (s.sk k).fly := by
  cases c with
  | leave l => rw [applyChange, record_sk]; exact setSk_view Skein.fly (by simp) k
  | join l => exact setSk_view Skein.fly (by simp) k

theorem settleMap_fly (s : State) (j k : Fin 8) : ((settleMap s j).sk k).fly = (s.sk k).fly :=
  foldl_keeps (fun s => (s.sk k).fly) _ (fun s c => by split; exacts [applyChange_fly s j c k, rfl]) _ s

/-- A failed flyer without a move. -/
theorem skeinSurvives_grounded (k : Fin 8) (f : Fin 4) : SkeinSurvives fun s => (s.sk k).grounded f where
  frame h hs _ := by rw [State.sk, hs]; exact h
  creel j bs h := Skein.grounded_of_fly (setSk_view Skein.fly (by rfl) k) h
  without g h := by rw [sk_map]; exact Skein.without_grounded g h
  settleMap j h := Skein.grounded_of_fly (settleMap_fly _ j k) h
  settleQueue q h := by rw [State.sk, settleQueue_skeins]; exact h
  skeins h hs := by rw [State.sk, hs]; exact h

/-! ## The descriptors of a queue -/

/-- A queue that does not drain, with its descriptors. -/
def holdsDescs (q : Fin 4096) (ds : List Desc) (s : State) : Prop := (s.q q).descs = ds ∧ (s.q q).st ≠ .draining

theorem holdsDescs_of_queues {q : Fin 4096} {ds : List Desc} {s t : State} (h : t.queues = s.queues)
    (hs : holdsDescs q ds s) : holdsDescs q ds t := by
  unfold holdsDescs State.q
  rw [h]
  exact hs

theorem settleQueue_holdsDescs {q : Fin 4096} {ds : List Desc} {s : State} (n : Fin 4096) (h : holdsDescs q ds s) :
    holdsDescs q ds (settleQueue s n) := by
  unfold settleQueue
  dsimp only
  split
  · by_cases hn : q = n
    · subst hn
      refine ⟨by simpa using h.1, ?_⟩
      rw [State.setQ_q_same]
      dsimp only
      split <;> decide
    · unfold holdsDescs
      rw [State.setQ_q_ne _ _ _ _ hn]
      exact h
  · exact h

theorem survives_holdsDescs (q : Fin 4096) (ds : List Desc) : Survives (holdsDescs q ds) where
  frame h _ hq := holdsDescs_of_queues hq h
  creel _ _ h := h
  without _ h := h
  settleMap k h := holdsDescs_of_queues (settleMap_queues _ k) h
  settleQueue n h := settleQueue_holdsDescs n h

theorem setDesc_holdsDescs {q : Fin 4096} {ds : List Desc} {s : State} (seq : Nat) (g : Desc → Desc)
    (h : holdsDescs q ds s) : holdsDescs q (ds.map fun d => if d.seq = seq then g d else d) (setDesc s q seq g) := by
  obtain ⟨hd, hs⟩ := h
  unfold holdsDescs setDesc
  rw [State.setQ_q_same]
  exact ⟨by rw [hd], hs⟩

/-- The first descriptor of a sequence number, after a change of the descriptors of that number that keeps it. -/
theorem find_seq_map {seq : Nat} {g : Desc → Desc} (hg : ∀ d, (g d).seq = d.seq) (ds : List Desc) :
    (ds.map fun d => if d.seq = seq then g d else d).find? (fun d => d.seq = seq) =
      (ds.find? fun d => d.seq = seq).map g := by
  induction ds with
  | nil => rfl
  | cons d ds ih => by_cases hd : d.seq = seq <;> simp [hd, hg, ih]

/-- A change of the descriptors of one sequence number is found at the first of them. -/
theorem setDesc_find {s : State} {q : Fin 4096} {seq : Nat} {ds : List Desc} {d : Desc} {g : Desc → Desc}
    (hs : holdsDescs q ds s) (hd : ds.find? (fun d => d.seq = seq) = some d) (hg : ∀ d, (g d).seq = d.seq) :
    ∃ ds', holdsDescs q ds' (setDesc s q seq g) ∧ ds'.find? (fun d => d.seq = seq) = some (g d) :=
  ⟨_, setDesc_holdsDescs seq g hs, by rw [find_seq_map hg, hd, Option.map_some]⟩

/-- The end of a descriptor in flight. -/
theorem finish_find {s : State} {q : Fin 4096} {seq : Nat} {ds : List Desc} {d : Desc} (st : Status) (fl : Flags)
    (code detail value : Nat) (hs : holdsDescs q ds s) (hd : ds.find? (fun d => d.seq = seq) = some d)
    (hr : d.st = .running) :
    ∃ ds', holdsDescs q ds' (finish s q seq st fl code detail value) ∧ ds'.find? (fun d => d.seq = seq) =
      some { d with st := .finished st fl code detail (BitVec.ofNat 64 value) } := by
  refine (setDesc_find hs hd fun d => ?_).imp fun ds h => ⟨h.1, h.2.trans ?_⟩
  · split <;> rfl
  · rw [hr]

/-- The descriptor of an interrupted kernel: it goes back to be dispatched where it may be replayed, and ends with FAULTED
and its kernel's flags otherwise (12 R338). -/
def interruptedDesc (s : State) (q : Fin 4096) (seq : Nat) (d : Desc) : Desc :=
  if hdrReplay d.raw = true then { d with st := .accepted, replayed := true, flags := noFlags }
  else { d with st := .finished .faulted (kernelFlags s q seq) 0 0 0 }

/-- How an interruption leaves the descriptors of the kernel's queue. -/
theorem interruptKernel_find {s : State} {q : Fin 4096} {seq : Nat} {d : Desc} (hd : descOf s q seq = some d)
    (hr : d.st = .running) (hq : (s.q q).st ≠ .draining) :
    ∃ ds, holdsDescs q ds (interruptKernel s q seq) ∧
      ds.find? (fun d => d.seq = seq) = some (interruptedDesc s q seq d) := by
  have hs : holdsDescs q (s.q q).descs (stopKernel s q seq) :=
    (survives_holdsDescs q _).stopKernel q seq ⟨rfl, hq⟩
  have safe : replaySafe s q seq = hdrReplay d.raw := by simp [replaySafe, hd]
  by_cases hp : hdrReplay d.raw = true
  · have replayed : interruptKernel s q seq = setDesc (stopKernel s q seq) q seq
        fun d => { d with st := .accepted, replayed := true, flags := noFlags } := by
      simp [interruptKernel, safe, hp, redo, hs.2]
    rw [replayed, interruptedDesc, if_pos hp]
    exact setDesc_find hs hd fun _ => rfl
  · have faulted : interruptKernel s q seq =
        finish (stopKernel s q seq) q seq .faulted (kernelFlags s q seq) 0 0 0 := by
      simp [interruptKernel, safe, hp]
    rw [faulted, interruptedDesc, if_neg hp]
    exact finish_find _ _ _ _ _ hs hd hr

/-! ## The failure of a spindle (01 R21, R22, R35) -/

/-- The state in which a failed spindle has left the map and its kernel has not stopped yet. -/
def spindleLeft (p : Fin 136) (s : State) : State :=
  let k := skeinOf p
  let l := localOf p
  let sk := s.sk k
  s.setSk k ({ sk with changes := sk.changes.filter fun c => c != MapChange.leave l && c != MapChange.join l }.lose l)

/-- The kernel of the share on a spindle stops. -/
def stopHosted (s : State) (p : Fin 136) : State :=
  match (s.sp p).share with
  | some h => interruptKernel s h.queue h.seq
  | none => s

/-- The state before the record of a spindle's failure. -/
def spindleCleared (s : State) (p : Fin 136) : State :=
  boundaries (s.setSp p { s.sp p with owner := none, bobbin := [] }) (List.finRange 136)

theorem doSpindleFail_healthy {p : Fin 136} {s : State} (h : (s.sk (skeinOf p)).healthy.getLsbD (localOf p).val = true) :
    let t := spindleCleared (stopHosted (spindleLeft p s) p) p
    doSpindleFail p s = record t 0x01 none 1 p.val [(t.sk (skeinOf p)).mapGen.toNat, 2] := by
  simp only [doSpindleFail, h, Bool.not_true, Bool.false_eq_true, if_false]
  rfl

theorem SkeinSurvives.spindleCleared {P : State → Prop} (hP : SkeinSurvives P) {s : State} (p : Fin 136) (h : P s) :
    P (spindleCleared (stopHosted s p) p) := by
  have stopped : P (stopHosted s p) := by
    unfold stopHosted
    split
    · exact hP.interruptKernel _ _ h
    · exact h
  exact hP.boundaries _ (hP.skeins stopped rfl)

/-- A spindle's failure changes the map of its skein by its loss alone. -/
theorem doSpindleFail_mapOnly {p : Fin 136} {s : State} (h : (s.sk (skeinOf p)).healthy.getLsbD (localOf p).val = true)
    (hc : ∀ j, (s.sk j).changes = []) :
    ((doSpindleFail p s).sk (skeinOf p)).mapOnly = ((s.sk (skeinOf p)).lose (localOf p)).mapOnly := by
  have left : (spindleLeft p s).sk (skeinOf p) = (s.sk (skeinOf p)).lose (localOf p) := by
    rw [spindleLeft, State.setSk_sk_same, Skein.filter_changes_nil (hc _)]
  have none_waits : ∀ j, ((spindleLeft p s).sk j).changes = [] := fun j =>
    (setSk_view Skein.changes (by simp [hc]) j).trans (hc j)
  have kept := (skeinSurvives_maps (m := fun j => ((spindleLeft p s).sk j).mapOnly) none_waits).spindleCleared p
    fun _ => rfl
  rw [doSpindleFail_healthy h, record_sk, kept, left]

/-- The descriptor of the kernel that ran on a failed spindle. -/
theorem doSpindleFail_desc {p : Fin 136} {s : State} {h : Share} {d : Desc}
    (hh : (s.sk (skeinOf p)).healthy.getLsbD (localOf p).val = true) (hs : (s.sp p).share = some h)
    (hd : descOf s h.queue h.seq = some d) (hr : d.st = .running) (hq : (s.q h.queue).st ≠ .draining) :
    descOf (doSpindleFail p s) h.queue h.seq = some (interruptedDesc s h.queue h.seq d) := by
  obtain ⟨ds, hold, found⟩ := interruptKernel_find (s := spindleLeft p s) hd hr hq
  have stopped : stopHosted (spindleLeft p s) p = interruptKernel (spindleLeft p s) h.queue h.seq := by
    unfold stopHosted
    rw [show ((spindleLeft p s).sp p).share = some h from hs]
  have cleared : holdsDescs h.queue ds (spindleCleared (stopHosted (spindleLeft p s) p) p) := by
    rw [stopped]
    exact (survives_holdsDescs _ _).boundaries _ hold
  have recorded : holdsDescs h.queue ds (doSpindleFail p s) := by
    rw [doSpindleFail_healthy hh]
    exact holdsDescs_of_queues (record_queues _ _ _ _ _ _) cleared
  rw [descOf, recorded.1]
  exact found

/-! ## The failure of a flyer (01 R35) -/

theorem interruptFlyer_grounded {s : State} {k : Fin 8} {f : Fin 4} (h : ((s.sk k).fly.get f).failed = true) :
    ((interruptFlyer s k f).sk k).grounded f := by
  unfold interruptFlyer
  dsimp only
  split
  case h_1 none_there => exact ⟨h, none_there⟩
  case h_2 m _ =>
    have hP := skeinSurvives_grounded k f
    refine hP.finishMove _ _ (hP.spoil _ ?_)
    simp [Skein.grounded, h]

theorem doFlyerFail_grounded {s : State} {k : Fin 8} {f : Fin 4} (h : ((s.sk k).fly.get f).failed = false) :
    ((doFlyerFail k f s).sk k).grounded f := by
  simp only [doFlyerFail, h, Bool.false_eq_true, if_false, record_sk, State.setSk_sk_same]
  exact feedAll_grounded (interruptFlyer_grounded (by simp))

/-! ## The statement -/

/-- Settles O33: the map of a skein, the descriptor of a kernel and a failed flyer each survive the stop of the work that
the fault interrupts, so what the fault sets first is what stands at its end. -/
theorem partFaults : Obligations.PartFaults := by
  intro p k f s
  refine ⟨?spindle, fun h => ⟨_, rfl, doFlyerFail_grounded h⟩, rfl, ?noneDue, ?oneDue⟩
  case spindle =>
    intro k l x hh hc
    obtain ⟨phys, spare, healthy, mapGen, -⟩ := Skein.mapOnly_fields (doSpindleFail_mapOnly hh hc)
    refine ⟨_, rfl, healthy.trans (Skein.lose_healthy x l), mapGen.trans (Skein.lose_mapGen x l), ?_, ?_, ?_⟩
    · intro hs
      rw [phys, spare]
      exact Skein.lose_spare hs
    · intro i hs hi
      rw [phys, spare]
      exact Skein.lose_logical hs hi
    · intro h d hs hd hr hq
      rw [doSpindleFail_desc hh hs hd hr hq]
      by_cases hp : hdrReplay d.raw = true <;> simp [interruptedDesc, hp]
  case noneDue =>
    intro h
    refine congrArg Host.Outcome.next ?_
    unfold doMapChangeApply
    rw [settleMap_none_due h, ite_self]
  case oneDue =>
    intro c hc hd hl
    have applied : doMapChangeApply k s = applyChange s k c := by simp [doMapChangeApply, hl, settleMap_one hc hd]
    refine ⟨_, congrArg Host.Outcome.next applied, ?_⟩
    cases c with
    | leave l => simp [applyChange_leave_sk, hc]
    | join l =>
      rw [applyChange_join_sk]
      refine ⟨by simp [hc], by simp, ?_, by simp⟩
      rintro _ ⟨⟩
      exact ⟨by simp, fun i hi => Skein.gain_absent hi, fun hn => Skein.gain_full hn⟩

end Sys2Proof.Machine
end

section
/-!
PROOFS. The write of a vector result (04 R89, R91): what VECTOR_RESULT_WRITE does with a result at the head of the queue,
and from it the refutation of the statement that it changes nothing but the register and `FLAGS`.
-/

namespace Sys2Proof.Machine

theorem takeDue_head {clk : Nat} {q : Pend} (rest : List Pend) (h : q.due ≤ clk) :
    takeDue clk [] (q :: rest) = some ([], q, rest) := by
  simp [takeDue, h]

/-- A result at the head that is due is finished: its writes, its flags in `FLAGS`, and the cycle of those flags, which a
`csrw` of `FLAGS` in that cycle does not clear (02 R63). -/
theorem exec_vectorResultWrite_head {s : State} {p : Fin 136} {q : Pend} {rest : List Pend}
    (hc : s.mgmt.clockLost = false) (hq : (s.sp p).vpend = q :: rest) (hd : q.due ≤ (s.sp p).clk) :
    exec (.vectorResultWrite p) s = .next (s.setSp p { (s.sp p).finish q with vpend := rest }) := by
  show Host.Outcome.next (doVectorResultWrite p s) = _
  simp [doVectorResultWrite, hc, hq, takeDue_head rest hd]

/-- A result for v0 that is due in cycle 0 and sets no flag. -/
def zeroResult : Pend :=
  { at_ := 0, busy := 1, due := 0, reads := [], wrs := [.v 0 (rep 128 0)], flags := {} }

/-- Refutes O15: in cycle 1 the write of a result leaves cycle 1 as the cycle in which flags were last set, where the
statement keeps the cycle 0 of before. -/
theorem not_unitResults : ¬ Obligations.UnitResults := by
  intro h
  let x : Spindle := { clk := 1, setAt := 0, vpend := [zeroResult] }
  let s : State := State.reset.setSp 0 x
  have hx : s.sp 0 = x := State.setSp_sp_same _ _ _
  have hc : s.mgmt.clockLost = false := by decide
  have hq : (s.sp 0).vpend = [zeroResult] := by rw [hx]
  have hd : zeroResult.due ≤ (s.sp 0).clk := by rw [hx]; decide
  have stated := (h.1 0 s zeroResult [] hc hq hd).1 0 (rep 128 0) rfl
  rw [exec_vectorResultWrite_head hc hq hd, hx] at stated
  have setAt : (1 : Nat) = 0 := by
    simpa [x, Spindle.finish, Spindle.setFlags, zeroResult, Spindle.write] using
      congrArg (fun t => (t.sp 0).setAt) (Host.Outcome.next.inj stated)
  exact absurd setAt (by decide)

end Sys2Proof.Machine
end

section
/-!
PROOFS. The matrix array (03): the words `ldw` and `mma` enter the array queue, the load port and the stream port take the
head of that queue, and a commit rounds element by element. From these the statements O10 and O11.
-/

namespace Sys2Proof.Machine

/-! ## A word that enters the array queue -/

@[simp] theorem holding_arrayStall (x : Spindle) (w : List Instr) :
    ({ x with fetched := w } : Spindle).arrayStall = x.arrayStall := rfl

@[simp] theorem holding_loadBlock (x : Spindle) (w : List Instr) (off : Nat) (f : Fmt) (sc : Bool) :
    loadBlock { x with fetched := w } off f sc = loadBlock x off f sc := rfl

@[simp] theorem holding_slotFmt (x : Spindle) (w : List Instr) (m : Fin 2) :
    ({ x with fetched := w } : Spindle).slotFmt m = x.slotFmt m := rfl

@[simp] theorem holding_tileTag (x : Spindle) (w : List Instr) (c : Fin 4) :
    ({ x with fetched := w } : Spindle).tileTag c = x.tileTag c := rfl

@[simp] theorem holding_count7 (x : Spindle) (w : List Instr) (n : Num7) :
    count7 { x with fetched := w } n = count7 x n := by cases n <;> rfl

theorem arrayStall_eq_nil {x : Spindle} : x.arrayStall = [] ↔ x.arrayUse < 8 := by
  simp [Spindle.arrayStall]

theorem raiseIf_eq_nil {c : Bool} {e : Exc} {d : Nat} : raiseIf c e d = [] ↔ c = false := by
  cases c <;> simp [raiseIf]

theorem rangesRaise_eq_nil {rs : List (Nat × Nat)} : rangesRaise rs = [] ↔ ∀ r ∈ rs, r.1 + r.2 ≤ 0x100000 := by
  simp [rangesRaise]

theorem countRaise_eq_nil {n : Nat} : countRaise n = [] ↔ 1 ≤ n ∧ n ≤ 128 := by
  simp [countRaise]
  omega

/-- A word that nothing stops and whose act is to enter the array queue. -/
theorem arrayWord_runs {s : State} {h : Hdr} {w : Instr} {e : Eff} {op : ArrOp} (hi : s.issues h)
    (hx : exec w s = .next (presentWord effOf w h.sp s)) (hw : effOf w (s.holding h.sp w) = e) (he : e.e = h.e)
    (hon : e.on = (s.sp h.sp).rp h.pred) (henc : e.enc = none) (hexc : e.exc = []) (hst : e.stall = [])
    (hwt : e.waitS (s.sp h.sp) = []) (ha : e.acts = [.array op]) :
    exec w s = .next (s.ran h.sp fun y =>
      { y with arrayQ := (s.sp h.sp).arrayQ ++ [((s.sp h.sp).clk, op)] }) := by
  refine word_runs hi hx hw he hon henc hexc hst hwt fun t ht => ?_
  simp [ha, Act.perform, ht, Spindle.advance, Spindle.count]

/-! ## `ldw` -/

section
variable {h : Hdr} {m : Fin 2} {ra : Fin 32} {fb : Fmt} {scb : Bool} {s : State}

theorem effLdw_holding (w : Instr) : effLdw h m ra fb scb (s.holding h.sp w) = effLdw h m ra fb scb s := by
  simp [effLdw, mkEff]

/-- The checks of 07 R180 that an `ldw` passes. -/
theorem effLdw_exc (hbase : bobbinBase h.sp ≤ ((s.sp h.sp).rs ra).toNat) (halign : ((s.sp h.sp).rs ra).toNat % 16 = 0)
    (hrange : ∀ r ∈ ldwRanges (((s.sp h.sp).rs ra).toNat - bobbinBase h.sp) fb scb, r.1 + r.2 ≤ 0x100000)
    (hfmt : arrayFmt fb = true) (hscale : scb = true → fmtScalable fb = true) :
    (effLdw h m ra fb scb s).exc = [] := by
  have hrsv : (fb == .rsv) = false := by cases fb <;> simp_all [arrayFmt]
  have hsc : (scb && !fmtScalable fb) = false := by simpa using hscale
  simp [effLdw, hbase, rangesRaise_eq_nil.mpr hrange, raiseIf_eq_nil, halign, hfmt, hsc, hrsv]

theorem effLdw_stall (hneed : (s.sp h.sp).needS [ra] = []) (hroom : (s.sp h.sp).arrayUse < 8)
    (hread : ∀ r ∈ ldwRanges (((s.sp h.sp).rs ra).toNat - bobbinBase h.sp) fb scb, readStall s h.sp r.1 r.2 = []) :
    (effLdw h m ra fb scb s).stall = [] := by
  simpa [effLdw, hneed, arrayStall_eq_nil.mpr hroom] using hread

end

/-! ## `mma` -/

/-- What an `mma` raises by the number and the place of its rows at address `a` (03 R68, R70). -/
def mmaPlaceRaises (base a rows : Nat) (fa : Fmt) (sca : Bool) (fb : Fmt) : List Raise :=
  countRaise rows ++
    (if base ≤ a then
      rangesRaise (if rows ≤ 128 then mmaRanges (a - base) rows fa sca (pairDepth fa fb) else [])
    else [{ exc := .illegal, detail := 0x06 }]) ++
    raiseIf (a % 16 != 0) .align 0x01 ++
    raiseIf ((a - base) % hankPitch fa * 8 % (pairDepth fa fb * fmtWidth fa) != 0) .align 0x02

/-- What an `mma` raises by its formats, its tile and its slot (03 R69, R71, R87). -/
def mmaFormatRaises (x : Spindle) (c : Fin 4) (m : Fin 2) (mode : MmaMode) (fa : Fmt) (sca : Bool) (fb : Fmt)
    (scb : Bool) : List Raise :=
  raiseIf (!(fa == .rsv || fb == .rsv) && (pairTag fa fb).isNone) .format 0x01 ++
    raiseIf ((sca && !fmtScalable fa) || (scb && !fmtScalable fb)) .format 0x02 ++
    raiseIf (mode != .set && (pairTag fa fb).isSome && pairTag fa fb != some (x.tileTag c)) .format 0x03 ++
    raiseIf (x.slotFmt m != some (fb, scb)) .format 0x04 ++
    raiseIf (fa == .rsv || fb == .rsv) .format 0x05

theorem mmaPlaceRaises_eq_nil {base a rows : Nat} {fa fb : Fmt} {sca : Bool} (hpos : 1 ≤ rows) (hmax : rows ≤ 128)
    (hbase : base ≤ a) (halign : a % 16 = 0)
    (hstep : (a - base) % hankPitch fa * 8 % (pairDepth fa fb * fmtWidth fa) = 0)
    (hrange : ∀ r ∈ mmaRanges (a - base) rows fa sca (pairDepth fa fb), r.1 + r.2 ≤ 0x100000) :
    mmaPlaceRaises base a rows fa sca fb = [] := by
  simp [mmaPlaceRaises, countRaise_eq_nil.mpr ⟨hpos, hmax⟩, hmax, hbase, rangesRaise_eq_nil.mpr hrange, raiseIf_eq_nil,
    halign, hstep]

theorem mmaFormatRaises_eq_nil {x : Spindle} {c : Fin 4} {m : Fin 2} {mode : MmaMode} {fa fb : Fmt} {sca scb : Bool}
    {tag : Tag} (hfa : fa ≠ .rsv) (hfb : fb ≠ .rsv) (htag : pairTag fa fb = some tag)
    (hsca : sca = true → fmtScalable fa = true) (hscb : scb = true → fmtScalable fb = true)
    (hmode : mode ≠ .set → x.tileTag c = tag) (hslot : x.slotFmt m = some (fb, scb)) :
    mmaFormatRaises x c m mode fa sca fb scb = [] := by
  have hscale : (sca && !fmtScalable fa || scb && !fmtScalable fb) = false := by
    simpa using And.intro hsca hscb
  have htile : (mode != .set && some tag != some (x.tileTag c)) = false := by
    simpa using fun hm => (hmode hm).symm
  simp only [mmaFormatRaises, htag, hscale, hslot, raiseIf_eq_nil, List.append_eq_nil_iff, Option.isSome_some,
    Bool.and_true, htile]
  simp [hfa, hfb]

section
variable {h : Hdr} {c : Fin 4} {m : Fin 2} {ra : Fin 32} {n : Num7} {mode : MmaMode} {fa fb : Fmt} {sca scb : Bool}
  {s : State}

theorem effMma_holding (w : Instr) :
    effMma h c m ra n mode fa sca fb scb (s.holding h.sp w) = effMma h c m ra n mode fa sca fb scb s := by
  simp [effMma, mkEff]

theorem effMma_waitS (x : Spindle) : (effMma h c m ra n mode fa sca fb scb s).waitS x = [] := by
  simp [effMma, Eff.waitS]

theorem effMma_exc : (effMma h c m ra n mode fa sca fb scb s).exc =
    mmaPlaceRaises (bobbinBase h.sp) ((s.sp h.sp).rs ra).toNat (count7 (s.sp h.sp) n) fa sca fb ++
      mmaFormatRaises (s.sp h.sp) c m mode fa sca fb scb := by
  simp [effMma, mmaPlaceRaises, mmaFormatRaises]

theorem effMma_stall (hmax : count7 (s.sp h.sp) n ≤ 128) (hneed : (s.sp h.sp).needS (ra :: num7Regs n) = [])
    (hroom : (s.sp h.sp).arrayUse < 8)
    (hread : ∀ r ∈ mmaRanges (((s.sp h.sp).rs ra).toNat - bobbinBase h.sp) (count7 (s.sp h.sp) n) fa sca
      (pairDepth fa fb), readStall s h.sp r.1 r.2 = []) :
    (effMma h c m ra n mode fa sca fb scb s).stall = [] := by
  simpa [effMma, hmax, hneed, arrayStall_eq_nil.mpr hroom] using hread

end

/-! ## The load port and the stream port take the head of the queue -/

section
variable {p : Fin 136} {s : State} {t : Nat} {rest : List (Nat × ArrOp)}

theorem takeFirst_head {α : Type} {f : α → Bool} {a : α} {as : List α} (h : f a = true) :
    takeFirst f (a :: as) = some ([], a, as) := by
  simp [takeFirst, h]

/-- An `ldw` at the head is loaded once its depth has passed since it started (03 R67, R81). -/
theorem doLdwLoadDone_head {m : Fin 2} {off : Nat} {fb : Fmt} {scb : Bool} {block : WSlot}
    (hc : s.mgmt.clockLost = false) (hq : (s.sp p).arrayQ = (t, .ldw m off fb scb block) :: rest)
    (hd : max t (max (s.sp p).loadFree ((s.sp p).slotFree.get m)) + depthOf fb ≤ (s.sp p).clk) :
    doLdwLoadDone p s = s.setSp p { s.sp p with
      arrayQ := rest
      slot := upd (s.sp p).slot m block
      loadFree := max t (max (s.sp p).loadFree ((s.sp p).slotFree.get m)) + depthOf fb } := by
  have hf : takeFirst (fun a => a.2.isLdw) (s.sp p).arrayQ = some ([], (t, .ldw m off fb scb block), rest) := by
    rw [hq]
    exact takeFirst_head rfl
  simp [doLdwLoadDone, hc, hf, Nat.not_lt.mpr hd]

/-- The `mma` that streams when it starts in the present cycle (03 R70 to R79). -/
def startedFlight (x : Spindle) (c : Fin 4) (m : Fin 2) (off rows : Nat) (mode : MmaMode) (fa : Fmt) (sca : Bool)
    (fb : Fmt) : Flight :=
  { c, m, mode, tag := (pairTag fa fb).getD .fp, rows, start := x.clk
    ends := x.clk + pairPasses fa fb * rows
    due := x.clk + pairPasses fa fb * rows + 270
    reads := (List.range rows).flatMap fun i =>
      (rowRanges off i fa sca (pairDepth fa fb)).map fun g => (g.1, g.2, x.clk + pairPasses fa fb * rows - rows + i)
    sums := (mmaSums x (x.slot.get m) off rows fa sca fb).1
    flags := (mmaSums x (x.slot.get m) off rows fa sca fb).2 }

/-- An `mma` at the head starts when no other into its tile runs, every earlier write of the tile has been performed, and
the port is free (03 R79, R81). -/
theorem doMmaStart_head {c : Fin 4} {m : Fin 2} {off rows : Nat} {mode : MmaMode} {fa fb : Fmt} {sca scb : Bool}
    (hc : s.mgmt.clockLost = false) (hq : (s.sp p).arrayQ = (t, .mma c m off rows mode fa sca fb scb) :: rest)
    (htile : ∀ f ∈ (s.sp p).flight, f.c ≠ c)
    (hwritten : ∀ q ∈ (s.sp p).pends, q.at_ < t → q.wrs.any (Wr.isTile c) = false)
    (hport : (s.sp p).streamFree ≤ (s.sp p).clk) :
    doMmaStart p s = s.setSp p { s.sp p with
      arrayQ := rest
      flight := (s.sp p).flight ++ [startedFlight (s.sp p) c m off rows mode fa sca fb]
      streamFree := (s.sp p).clk + pairPasses fa fb * rows
      slotFree := upd (s.sp p).slotFree m ((s.sp p).clk + pairPasses fa fb * rows) } := by
  have hf : takeFirst (fun a => !a.2.isLdw) (s.sp p).arrayQ =
      some ([], (t, .mma c m off rows mode fa sca fb scb), rest) := by
    rw [hq]
    exact takeFirst_head rfl
  have hw : ((s.sp p).pends.any fun q => decide (q.at_ < t) && q.wrs.any (Wr.isTile c)) = false := by
    simpa using hwritten
  have hfl : ((s.sp p).flight.any fun f => decide (f.c = c)) = false := by simpa using htile
  simp [doMmaStart, hc, hf, hw, hfl, Nat.not_lt.mpr hport, startedFlight]

end

/-- Settles O10: each word passes its checks and enters the queue, and each port takes the head of the queue. -/
theorem matrixInstructions : Obligations.MatrixInstructions := by
  refine ⟨?ldw, ?mma, fun p s t rest hc => ⟨?load, ?start⟩⟩
  case ldw =>
    intro h m ra fb scb s hi x a off hbase halign hrange hfmt hscale hneed hroom hread
    exact arrayWord_runs hi rfl (effLdw_holding _) rfl rfl rfl (effLdw_exc hbase halign hrange hfmt hscale)
      (effLdw_stall hneed hroom hread) (waitS_nil rfl) rfl
  case mma =>
    intro h c m ra n mode fa sca fb scb tag s hi x a off rows ranges hpos hmax hbase halign hstep hrange hfa hfb htag
      hsca hscb hmode hslot hneed hroom hread
    exact arrayWord_runs hi rfl (effMma_holding _) rfl rfl rfl
      (effMma_exc.trans (List.append_eq_nil_iff.mpr ⟨mmaPlaceRaises_eq_nil hpos hmax hbase halign hstep hrange,
        mmaFormatRaises_eq_nil hfa hfb htag hsca hscb hmode hslot⟩))
      (effMma_stall hmax hneed hroom hread) (effMma_waitS _) rfl
  case load =>
    intro m off fb scb block hq hd
    exact congrArg Host.Outcome.next (doLdwLoadDone_head hc hq hd)
  case start =>
    intro c m off rows mode fa sca fb scb hq htile hwritten hport
    exact ⟨_, congrArg Host.Outcome.next (doMmaStart_head hc hq htile hwritten hport),
      rfl, rfl, rfl, rfl, rfl, rfl, rfl, rfl, rfl⟩

/-! ## One element of a tile under a commit -/

theorem clampTo_fst {lo hi i : Int} (h : lo ≤ hi) : (clampTo lo hi i).1 = max lo (min hi i) := by
  unfold clampTo
  split
  · omega
  · split <;> omega

section
variable {tag : Tag} {a u : Lane}

theorem combine_set : (combine tag .set a u).1 = u := by cases tag <;> rfl

theorem combine_acc_fp : (combine .fp .acc a u).1 = (rne32 ((f32 a).add (f32 u))).1 := rfl

theorem combine_sub_fp : (combine .fp .sub a u).1 = (rne32 ((f32 a).add (f32 u).neg)).1 := rfl

theorem combine_acc_int : (combine .int .acc a u).1 =
    BitVec.ofInt 32 (max (-2147483648) (min 2147483647 (a.toInt + u.toInt))) :=
  congrArg (BitVec.ofInt 32) (clampTo_fst (by decide))

theorem combine_sub_int : (combine .int .sub a u).1 =
    BitVec.ofInt 32 (max (-2147483648) (min 2147483647 (a.toInt - u.toInt))) :=
  congrArg (BitVec.ofInt 32) (clampTo_fst (by decide))

end

/-- The mode in which pass `k` of an `mma` acts: the passes of a `set` after the first add (03 R77). -/
def Flight.passMode (f : Flight) (k : Nat) : MmaMode := if f.mode = .set ∧ k ≠ 0 then .acc else f.mode

/-- What a pass, given by its block sum and its number, leaves in element `j` of row `i`. -/
def Flight.passElement (f : Flight) (i j : Fin 128) (a : Lane) (su : List (List Lane) × Nat) : Lane :=
  match su.1[i.val]? with
  | some r => (combine f.tag (f.passMode su.2) a (r.getD j.val 0)).1
  | none => a

/-- The rows on which the passes of a commit act (03 R71). -/
def commitBase (t : Tile) (f : Flight) : Vector VReg 128 :=
  if f.mode = .set ∧ t.tag ≠ f.tag then vecOf 128 fun i => if i.val < f.rows then t.rows.get i else rep 128 0
  else t.rows

section
variable {f : Flight} {t : Tile} {i j : Fin 128}

theorem passElement_streamed {a : Lane} {su : List (List Lane) × Nat} (h : i.val < su.1.length) :
    f.passElement i j a su =
      (combine f.tag (f.passMode su.2) a ((su.1.getD i.val []).getD j.val 0)).1 := by
  simp [Flight.passElement, List.getD_eq_getElem?_getD, h]

theorem passElement_unstreamed {a : Lane} {su : List (List Lane) × Nat} (h : su.1.length ≤ i.val) :
    f.passElement i j a su = a := by
  simp [Flight.passElement, h]

theorem commitBase_streamed (h : i.val < f.rows) : (commitBase t f).get i = t.rows.get i := by
  unfold commitBase
  split <;> simp [h]

theorem commitBase_unstreamed (h : f.rows ≤ i.val) :
    ((commitBase t f).get i).get j = if f.mode = .set ∧ t.tag ≠ f.tag then 0 else (t.rows.get i).get j := by
  unfold commitBase
  split <;> simp [Nat.not_lt.mpr h]

theorem combineRows_get (mode : MmaMode) (rows : Vector VReg 128) (su : List (List Lane) × Nat)
    (hm : mode = f.passMode su.2) :
    (((combineRows f.tag mode rows su.1).get i).get j).1 = f.passElement i j ((rows.get i).get j) su := by
  subst hm
  simp only [combineRows, get_vecOf, Flight.passElement]
  cases su.1[i.val]? <;> rfl

@[simp] theorem commitTile_tag : (commitTile t f).1.tag = f.tag := rfl

/-- The passes of a commit act on each element alone. -/
theorem commitTile_get : ((commitTile t f).1.rows.get i).get j =
    f.sums.zipIdx.foldl (f.passElement i j) (((commitBase t f).get i).get j) := by
  unfold commitTile
  refine (List.foldl_hom (fun a : Vector VReg 128 × Flags => (a.1.get i).get j) fun a su => ?_).symm
  simp only [get_vecOf]
  exact (combineRows_get _ a.1 su rfl).symm

/-- A row that was not streamed (03 R71, R80). -/
theorem commitTile_unstreamed (hlen : ∀ sum ∈ f.sums, sum.length = f.rows) (h : f.rows ≤ i.val) :
    ((commitTile t f).1.rows.get i).get j =
      if f.mode = .set ∧ t.tag ≠ f.tag then 0 else (t.rows.get i).get j := by
  have keeps : ∀ a, ∀ su ∈ f.sums.zipIdx, f.passElement i j a su = a := fun a su hm =>
    passElement_unstreamed (by rw [hlen _ (List.fst_mem_of_mem_zipIdx hm)]; exact h)
  rw [commitTile_get, commitBase_unstreamed h, List.foldl_ext _ (fun a _ => a) _ keeps, List.foldl_fixed]

/-- A row that was streamed: pass by pass the element is combined with that of the block sum (03 R71 to R77). -/
theorem commitTile_streamed (hlen : ∀ sum ∈ f.sums, sum.length = f.rows) (h : i.val < f.rows) :
    ((commitTile t f).1.rows.get i).get j =
      f.sums.zipIdx.foldl
        (fun a su => (combine f.tag (f.passMode su.2) a ((su.1.getD i.val []).getD j.val 0)).1)
        ((t.rows.get i).get j) := by
  rw [commitTile_get, commitBase_streamed h]
  refine List.foldl_ext _ _ _ fun a su hm => passElement_streamed ?_
  rw [hlen _ (List.fst_mem_of_mem_zipIdx hm)]
  exact h

end

/-! ## The commit -/

/-- The oldest started `mma` commits once its cycle has come (03 R75, R80). -/
theorem doMmaCommit_due {p : Fin 136} {s : State} {f : Flight} {fs : List Flight} (hc : s.mgmt.clockLost = false)
    (hf : (s.sp p).flight = f :: fs) (hd : f.due ≤ (s.sp p).clk) :
    doMmaCommit p s = s.setSp p
      ({ s.sp p with
          flight := fs
          tile := upd (s.sp p).tile f.c (commitTile ((s.sp p).tile.get f.c) f).1 }.setFlags
        (Flags.or f.flags (commitTile ((s.sp p).tile.get f.c) f).2)) := by
  simp [doMmaCommit, hc, hf, Nat.not_lt.mpr hd]

/-- Settles O11: the commit writes the tile of `commitTile`, whose elements are folds over the passes. -/
theorem matrixCommit : Obligations.MatrixCommit := by
  intro p s f fs x tile hc hf hlen hd
  refine ⟨_, congrArg Host.Outcome.next (doMmaCommit_due hc hf hd), ?_⟩
  simp only [State.setSp_sp_same, State.setSp_mem, Spindle.setFlags, get_upd_same, commitTile_tag, true_and, and_true]
  refine ⟨fun c hne => get_upd_ne _ _ hne, fun i j => ?_, rfl, rfl, rfl⟩
  by_cases h : f.rows ≤ i.val
  · rw [commitTile_unstreamed hlen h, if_pos h]
  · rw [commitTile_streamed hlen (Nat.not_le.mp h), if_neg h]
    refine List.foldl_ext _ _ _ fun a su _ => ?_
    unfold Flight.passMode
    generalize (if f.mode = .set ∧ su.2 ≠ 0 then MmaMode.acc else f.mode) = mode
    generalize f.tag = tag
    cases mode with
    | set => exact combine_set
    | acc =>
      cases tag with
      | fp => exact combine_acc_fp
      | int => exact combine_acc_int
    | sub =>
      cases tag with
      | fp => exact combine_sub_fp
      | int => exact combine_sub_int

end Sys2Proof.Machine
end

section
/-!
PROOFS. Words of the V slot that enter a unit: what such a word reads of its spindle does not depend on the words fetched,
and a word that nothing stops leaves one pending result with the vector unit or in the row unit's queue.
-/

namespace Sys2Proof.Machine

/-! ## What a word reads of its spindle -/

@[simp] theorem holding_needTile (x : Spindle) (w : List Instr) (cs : List (Fin 4)) :
    ({ x with fetched := w } : Spindle).needTile cs = x.needTile cs := rfl

@[simp] theorem holding_freeTile (x : Spindle) (w : List Instr) (c : Fin 4) :
    ({ x with fetched := w } : Spindle).freeTile c = x.freeTile c := rfl

@[simp] theorem holding_freeRow (x : Spindle) (w : List Instr) (c : Fin 4) :
    ({ x with fetched := w } : Spindle).freeRow c = x.freeRow c := rfl

@[simp] theorem holding_wawUnits (x : Spindle) (w : List Instr) (r : Fin 32) :
    ({ x with fetched := w } : Spindle).wawUnits r = x.wawUnits r := rfl

@[simp] theorem holding_wawRow (x : Spindle) (w : List Instr) (r : Fin 32) :
    ({ x with fetched := w } : Spindle).wawRow r = x.wawRow r := rfl

@[simp] theorem holding_vPort (x : Spindle) (w : List Instr) : ({ x with fetched := w } : Spindle).vPort = x.vPort := rfl

@[simp] theorem holding_rnd (x : Spindle) (w : List Instr) (ix : Word) (i : Nat) :
    ({ x with fetched := w } : Spindle).rnd ix i = x.rnd ix i := rfl

@[simp] theorem holding_vsrc (x : Spindle) (w : List Instr) (b : VSrc) :
    vsrc { x with fetched := w } b = vsrc x b := by cases b <;> rfl

@[simp] theorem holding_vsrcNeed (x : Spindle) (w : List Instr) (b : VSrc) :
    vsrcNeed { x with fetched := w } b = vsrcNeed x b := by cases b <;> rfl

@[simp] theorem holding_num7 (x : Spindle) (w : List Instr) (n : Num7) :
    num7 { x with fetched := w } n = num7 x n := by cases n <;> rfl

@[simp] theorem holding_rowAddr (x : Spindle) (w : List Instr) (ra : Fin 32) (off : BitVec 16) :
    rowAddr { x with fetched := w } ra off = rowAddr x ra off := rfl

@[simp] theorem holding_offOf (x : Spindle) (w : List Instr) (p : Fin 136) (ra : Fin 32) :
    offOf { x with fetched := w } p ra = offOf x p ra := rfl

@[simp] theorem holding_rows (x : Spindle) (w : List Instr) : ({ x with fetched := w } : Spindle).rows = x.rows := rfl

@[simp] theorem holding_vecPend (x : Spindle) (w : List Instr) (iv lat : Nat) (wrs : List Wr) (fl : Flags) :
    vecPend { x with fetched := w } iv lat wrs fl = vecPend x iv lat wrs fl := rfl

@[simp] theorem holding_rowPend (x : Spindle) (w : List Instr) (busy lat : Nat) (wrs : List Wr) (fl : Flags)
    (reads : Nat → List (Nat × Nat)) :
    rowPend { x with fetched := w } busy lat wrs fl reads = rowPend x busy lat wrs fl reads := rfl

@[simp] theorem holding_fpRaise (x : Spindle) (w : List Instr) (cs : List (Fin 4)) :
    fpRaise { x with fetched := w } cs = fpRaise x cs := rfl

@[simp] theorem holding_maskTest (x : Spindle) (w : List Instr) (p : Fin 136) (mask : Mask) :
    maskTest { x with fetched := w } p mask = maskTest x p mask := by cases mask <;> rfl

@[simp] theorem holding_maskReads (x : Spindle) (w : List Instr) (p : Fin 136) (mask : Mask) :
    maskReads { x with fetched := w } p mask = maskReads x p mask := by cases mask <;> rfl

@[simp] theorem holding_maskRaise (x : Spindle) (w : List Instr) (p : Fin 136) (mask : Mask) :
    maskRaise { x with fetched := w } p mask = maskRaise x p mask := by cases mask <;> rfl

@[simp] theorem holding_maskStall (s : State) (p : Fin 136) (w : Instr) (mask : Mask) :
    maskStall (s.holding p w) p mask = maskStall s p mask := by cases mask <;> simp [maskStall]

/-! ## Checks that raise nothing -/

theorem modeRaise_eq_nil {f : Vector RowEntry 128} {bad : RowEntry → Bool} :
    modeRaise f bad = [] ↔ ∀ i, bad (f.get i) = false := by
  simp only [modeRaise, raiseIf_eq_nil, List.any_eq_false, Vector.mem_toList_iff, Vector.mem_iff_getElem,
    Bool.not_eq_true, forall_exists_index]
  exact ⟨fun h i => h _ i.val i.isLt rfl, fun h e i hi he => he ▸ h ⟨i, hi⟩⟩

theorem fpRaise_eq_nil {x : Spindle} {cs : List (Fin 4)} :
    fpRaise x cs = [] ↔ ∀ c ∈ cs, (x.tile.get c).tag = .fp := by
  simp only [fpRaise, raiseIf_eq_nil, List.any_eq_false, beq_iff_eq]
  exact forall₂_congr fun c _ => by cases (x.tile.get c).tag <;> simp

theorem bobbinRaise_eq_nil {p : Fin 136} {a n align detail : Nat} (hown : ownBobbin p a n = true)
    (halign : a % align = 0) : bobbinRaise p a n align detail = [] := by
  simp [bobbinRaise, hown, halign]

/-- Only a destination that is an s register makes a word wait for a unit's write of it. -/
theorem waitS_of_no_s {e : Eff} {x : Spindle} (h : ∀ r, Dest.s r ∉ e.dests) : e.waitS x = [] := by
  simp only [Eff.waitS, ite_eq_right_iff, List.any_eq_true]
  rintro ⟨d, hd, hs⟩
  cases d <;> simp_all

/-! ## Results that wait in a unit -/

/-- The state after a word that leaves a result with the vector unit (04 R91). -/
def State.vecWaits (s : State) (p : Fin 136) (interval lat : Nat) (wrs : List Wr) (fl : Flags) : State :=
  s.ran p fun y => { y with
    vFree := (s.sp p).clk + interval
    vpend := (s.sp p).vpend ++ [vecPend (s.sp p) interval lat wrs fl] }

/-- The state after a word that enters the row unit's queue (04 R111). -/
def State.rowWaits (s : State) (p : Fin 136) (reads : List (Nat × Nat × Nat)) (busy lat : Nat) (wrs : List Wr)
    (fl : Flags) : State :=
  s.ran p fun y => { y with
    rq := (s.sp p).rq ++ [{ at_ := (s.sp p).clk, busy := queueStart (s.sp p).clk (s.sp p).rq + busy
                            due := queueStart (s.sp p).clk (s.sp p).rq + lat, reads, wrs, flags := fl }] }

/-- The bobbin bytes that a row-unit instruction issued now will read, with the cycle of each read. -/
def Spindle.rowReads (x : Spindle) (busy : Nat) (reads : Nat → List (Nat × Nat)) : List (Nat × Nat × Nat) :=
  (List.range busy).flatMap fun i => (reads i).map fun r => (r.1, r.2, queueStart x.clk x.rq + i)

section
variable {s : State} {h : Hdr} {w : Instr}

/-- A word that nothing stops and whose act is to hand the vector unit a result. -/
theorem vecWord_runs {e : Eff} {interval lat : Nat} {wrs : List Wr} {fl : Flags} (hi : s.issues h)
    (hx : exec w s = .next (presentWord effOf w h.sp s)) (hw : effOf w (s.holding h.sp w) = e) (he : e.e = h.e)
    (hon : e.on = (s.sp h.sp).rp h.pred) (henc : e.enc = none) (hexc : e.exc = []) (hst : e.stall = [])
    (hd : ∀ r, Dest.s r ∉ e.dests) (ha : e.acts = [.vec interval (vecPend (s.sp h.sp) interval lat wrs fl)]) :
    exec w s = .next (s.vecWaits h.sp interval lat wrs fl) := by
  refine word_runs hi hx hw he hon henc hexc hst (waitS_of_no_s hd) fun t ht => ?_
  simp [ha, Act.perform, ht, Spindle.advance, Spindle.count]

/-- An instruction of the vector unit that writes a v register (04 R91). -/
theorem effVec_runs {opc interval lat : Nat} {vd : Fin 32} {need : List Stall} {exc : List Raise} {enc : Option Nat}
    {out : Vector (Lane × Flags) 128} (hi : s.issues h) (hx : exec w s = .next (presentWord effOf w h.sp s))
    (hw : effOf w (s.holding h.sp w) = effVec h opc interval lat vd need exc enc out s) (henc : enc = none)
    (hexc : exc = []) (hneed : need = []) (hwaw : (s.sp h.sp).wawUnits vd = []) (hport : (s.sp h.sp).vPort = []) :
    exec w s = .next (s.vecWaits h.sp interval lat [.v vd (lanesOf out)] (vflags out)) :=
  vecWord_runs hi hx hw rfl rfl henc hexc (by simp [effVec, hneed, hwaw, hport]) (by simp [effVec]) rfl

/-- An instruction of the row unit (04 R111). -/
theorem effRow_runs {opc busy lat : Nat} {dests : List Dest} {exc : List Raise} {stall : List Stall} {wrs : List Wr}
    {fl : Flags} {reads : Nat → List (Nat × Nat)} (hi : s.issues h)
    (hx : exec w s = .next (presentWord effOf w h.sp s))
    (hw : effOf w (s.holding h.sp w) = effRow h opc busy lat dests exc stall wrs fl s reads)
    (hd : ∀ r, Dest.s r ∉ dests) (hexc : exc = []) (hst : stall = [])
    (hq : queueStall (s.sp h.sp).clk (s.sp h.sp).rq = []) :
    exec w s = .next (s.rowWaits h.sp ((s.sp h.sp).rowReads busy reads) busy lat wrs fl) := by
  refine word_runs hi hx hw rfl rfl rfl hexc (by simp [effRow, hst, hq]) (waitS_of_no_s hd) fun t ht => ?_
  simp [effRow, Act.perform, ht, Spindle.advance, Spindle.count, rowPend, Spindle.rowReads]

/-- An instruction of the row unit that reads no bobbin bytes. -/
theorem effRow_runs_unread {opc busy lat : Nat} {dests : List Dest} {exc : List Raise} {stall : List Stall}
    {wrs : List Wr} {fl : Flags} (hi : s.issues h) (hx : exec w s = .next (presentWord effOf w h.sp s))
    (hw : effOf w (s.holding h.sp w) = effRow h opc busy lat dests exc stall wrs fl s)
    (hd : ∀ r, Dest.s r ∉ dests) (hexc : exc = []) (hst : stall = [])
    (hq : queueStall (s.sp h.sp).clk (s.sp h.sp).rq = []) :
    exec w s = .next (s.rowWaits h.sp [] busy lat wrs fl) := by
  have hnone : (s.sp h.sp).rowReads busy (fun _ => []) = [] := List.flatMap_eq_nil_iff.mpr fun _ _ => rfl
  rw [effRow_runs hi hx hw hd hexc hst hq, hnone]

end

end Sys2Proof.Machine
end

section
/-!
PROOFS. Vector arithmetic, minimum and maximum, and conversion (04 R88 to R91; 07 R181, R182): each lane of the pending
result is the operation on the lanes of the sources, in packed BF16 half by half. From these the statement O12.
-/

namespace Sys2Proof.Machine

/-! ## Lanes and halves -/

@[simp] theorem lanesOf_get (v : Vector (Lane × Flags) 128) (i : Fin 128) : (lanesOf v).get i = (v.get i).1 := by
  simp [lanesOf]

@[simp] theorem half_pack2 (lo hi : Nat) (b : Bool) :
    half (pack2 lo hi) b = (if b then hi else lo) % 2 ^ 16 := by
  cases b
  · simp [half, pack2]
  · simp [half, pack2]
    omega

theorem half_lt (l : Lane) (b : Bool) : half l b < 2 ^ 16 := by
  have := l.isLt
  cases b <;> simp [half] <;> omega

/-! ## Arithmetic -/

section
variable {s : State} {h : Hdr} {w : Instr} {opc : Nat} {vd va vc : Fin 32} {vb : VSrc} {f : Fmt} {rm : RM}
  {op : Ext → Ext → Ext → Ext × Flags}

theorem laneOp_fp32 (a b c : Lane) :
    (laneOp .fp32 rm op a b c).1 = (toF32 rm 0 (op (f32 a) (f32 b) (f32 c)).1).1 := rfl

theorem half_laneOp_bf16 (a b c : Lane) (hi : Bool) : half (laneOp .bf16 rm op a b c).1 hi =
    (encodeFP fparB16 true rm 0 (op (decodeFP fparB16 (half a hi)) (decodeFP fparB16 (half b hi))
      (decodeFP fparB16 (half c hi))).1).1 % 2 ^ 16 := by
  simp only [laneOp, if_true, half_pack2]
  cases hi <;> rfl

theorem effArith_holding :
    effArith h opc vd va vb vc f rm op (s.holding h.sp w) = effArith h opc vd va vb vc f rm op s := by
  simp [effArith, effVec, mkEff]

/-- An arithmetic instruction with an element format and a rounding mode it has (07 R181): each lane is rounded once, in
packed BF16 each half. -/
theorem arith_runs (hi : s.issues h) (hx : exec w s = .next (presentWord effOf w h.sp s))
    (hw : ∀ t, effOf w t = effArith h opc vd va vb vc f rm op t) (hva : (s.sp h.sp).needV [va, vc] = [])
    (hvb : vsrcNeed (s.sp h.sp) vb = []) (hwaw : (s.sp h.sp).wawUnits vd = []) (hport : (s.sp h.sp).vPort = [])
    (hf : f = .fp32 ∨ f = .bf16) (hrm : rm = .rne ∨ rm = .rtz) :
    ∃ (r : VReg) (fl : Flags), exec w s = .next (s.vecWaits h.sp 1 4 [.v vd r] fl) ∧
      ∀ i : Fin 128,
        let a := ((s.sp h.sp).v.get va).get i
        let b := (vsrc (s.sp h.sp) vb).get i
        let c := ((s.sp h.sp).v.get vc).get i
        (f = .fp32 → r.get i = (toF32 rm 0 (op (f32 a) (f32 b) (f32 c)).1).1) ∧
        (f = .bf16 → ∀ hi : Bool, half (r.get i) hi =
          (encodeFP fparB16 true rm 0 (op (decodeFP fparB16 (half a hi)) (decodeFP fparB16 (half b hi))
            (decodeFP fparB16 (half c hi))).1).1 % 2 ^ 16) := by
  have hexc : vecFmtRaise f ++ rmRaise rm = [] := by
    rcases hf with rfl | rfl <;> rcases hrm with rfl | rfl <;> rfl
  refine ⟨_, _, effVec_runs hi hx ((hw _).trans effArith_holding) rfl hexc (by simp [hva, hvb]) hwaw hport, fun i => ?_⟩
  rw [lanesOf_get, get_vecOf]
  constructor
  · rintro rfl
    exact laneOp_fp32 ..
  · rintro rfl
    exact half_laneOp_bf16 _ _ _

end

/-! ## Minimum and maximum -/

theorem pickCode_lt {f : Fmt} {mx : Bool} {nanC a b n : Nat} (hn : nanC < n) (ha : a < n) (hb : b < n) :
    pickCode f mx nanC a b < n := by
  simp only [pickCode]
  split_ifs <;> assumption

section
variable {s : State} {h : Hdr} {w : Instr} {opc : Nat} {mx : Bool} {vd va : Fin 32} {vb : VSrc} {f : Fmt}

theorem lanePick_fp32 (a b : Lane) :
    lanePick .fp32 mx a b = BitVec.ofNat 32 (pickCode .fp32 mx 0x7FC00000 a.toNat b.toNat) := rfl

theorem half_lanePick_bf16 (a b : Lane) (hi : Bool) :
    half (lanePick .bf16 mx a b) hi = pickCode .bf16 mx 0x7FC0 (half a hi) (half b hi) := by
  have hlt := pickCode_lt (f := .bf16) (mx := mx) (nanC := 0x7FC0) (by decide) (half_lt a hi) (half_lt b hi)
  simp only [lanePick, if_true, half_pack2]
  cases hi <;> exact Nat.mod_eq_of_lt hlt

theorem effPick_holding :
    effPick h opc mx vd va vb f (s.holding h.sp w) = effPick h opc mx vd va vb f s := by
  simp [effPick, effVec, mkEff]

theorem orFlags_noFlags {fs : List Flags} (hall : ∀ g ∈ fs, g = noFlags) : orFlags fs = noFlags := by
  induction fs with
  | nil => rfl
  | cons g fs ih =>
    obtain ⟨rfl, hfs⟩ := List.forall_mem_cons.mp hall
    exact ih hfs

theorem vflags_noFlags (l : Fin 128 → Lane) : vflags (vecOf 128 fun i => (l i, noFlags)) = {} := by
  refine orFlags_noFlags fun g hg => ?_
  simp [vecOf] at hg
  exact hg.symm

/-- `vmin` and `vmax` with an element format they have (04 R89). -/
theorem pick_runs (hi : s.issues h) (hx : exec w s = .next (presentWord effOf w h.sp s))
    (hw : ∀ t, effOf w t = effPick h opc mx vd va vb f t) (hva : (s.sp h.sp).needV [va] = [])
    (hvb : vsrcNeed (s.sp h.sp) vb = []) (hwaw : (s.sp h.sp).wawUnits vd = []) (hport : (s.sp h.sp).vPort = [])
    (hf : f = .fp32 ∨ f = .bf16) :
    ∃ r : VReg, exec w s = .next (s.vecWaits h.sp 1 4 [.v vd r] {}) ∧
      ∀ i : Fin 128,
        let a := ((s.sp h.sp).v.get va).get i
        let b := (vsrc (s.sp h.sp) vb).get i
        (f = .fp32 → r.get i = BitVec.ofNat 32 (pickCode f mx 0x7FC00000 a.toNat b.toNat)) ∧
        (f = .bf16 → ∀ hi : Bool, half (r.get i) hi = pickCode f mx 0x7FC0 (half a hi) (half b hi)) := by
  have hexc : vecFmtRaise f = [] := by rcases hf with rfl | rfl <;> rfl
  have hrun := effVec_runs hi hx ((hw _).trans effPick_holding) rfl hexc (by simp [hva, hvb]) hwaw hport
  rw [vflags_noFlags] at hrun
  refine ⟨_, hrun, fun i => ?_⟩
  rw [lanesOf_get, get_vecOf]
  constructor
  · rintro rfl
    exact lanePick_fp32 ..
  · rintro rfl
    exact half_lanePick_bf16 _ _

end

/-! ## Conversion -/

section
variable {s : State} {h : Hdr} {vd va vb ix : Fin 32} {f f2 : Fmt} {rm : RM} {satInf np : Bool}

theorem effVcvt_holding (w : Instr) : effVcvt h vd va vb f f2 rm satInf np ix (s.holding h.sp w) =
    effVcvt h vd va vb f f2 rm satInf np ix s := by
  simp [effVcvt, effVec, mkEff]

/-- An index register is named under SR alone (07 R182). -/
theorem indexEnc_eq_none (h : rm = .sr ∨ ix = 0) : indexEnc rm ix = none := by
  rcases h with rfl | rfl <;> simp [indexEnc]

end

/-- Settles O12: each word passes its checks, and the lanes of its pending result are those of `laneOp`, of `lanePick` and
of the conversion. -/
theorem vectorInstructions : Obligations.VectorInstructions := by
  refine ⟨?arith, ?pick, ?convert⟩
  case arith =>
    intro h vd va vc vb f rm np nc s hi x hvac hvaa hvb hwaw hport hf hrm result
    exact ⟨arith_runs (op := opAdd np) hi rfl (fun _ => rfl) hvaa hvb hwaw hport hf hrm,
      arith_runs (op := opMul np) hi rfl (fun _ => rfl) hvaa hvb hwaw hport hf hrm,
      arith_runs (op := opFma np nc) hi rfl (fun _ => rfl) hvac hvb hwaw hport hf hrm⟩
  case pick =>
    intro h vd va vb f s hi x hva hvb hwaw hport hf pick result
    exact ⟨pick_runs (mx := false) hi rfl (fun _ => rfl) hva hvb hwaw hport hf,
      pick_runs (mx := true) hi rfl (fun _ => rfl) hva hvb hwaw hport hf⟩
  case convert =>
    intro h vd va vb ix f f2 rm satInf np s hi x hvab hva hix hwaw hport hconv hrm
    refine ⟨_, _, effVec_runs hi rfl (effVcvt_holding _) (indexEnc_eq_none hrm) (by simp [hconv]) ?_ hwaw hport, ?_⟩
    · split
      · exact List.append_eq_nil_iff.mpr ⟨hvab, hix⟩
      · exact List.append_eq_nil_iff.mpr ⟨hva, hix⟩
    · intro i code
      rw [lanesOf_get, get_vecOf]
      split <;> rfl

end Sys2Proof.Machine
end

section
/-!
PROOFS. The special functions (04 R91 to R94; 07 R183): a lane of the pending result is the function of its source, in
packed BF16 the rounded function of each half, and the functions take the special values of R94. From these the
statement O13.
-/

namespace Sys2Proof.Machine

/-! ## A word of a special function -/

section
variable {s : State} {h : Hdr} {w : Instr} {opc interval lat : Nat} {uf : Bool} {fn : Lane → Lane × Flags}
  {vd va ix : Fin 32} {f : Fmt} {rm : RM}

theorem effFn_holding : effFn h opc interval lat uf fn vd va f rm ix (s.holding h.sp w) =
    effFn h opc interval lat uf fn vd va f rm ix s := by
  simp [effFn, effVec, mkEff]

/-- A special function rounds by RNE in FP32, by any mode but RHA in packed BF16 (07 R183). -/
theorem fnRaises_eq_nil (hf : (f = .fp32 ∧ rm = .rne) ∨ (f = .bf16 ∧ rm ≠ .rha)) :
    fnFmtRaise f ++ raiseIf (if f = .bf16 then rm == .rha else rm != .rne) .format 0x06 = [] := by
  rcases hf with ⟨rfl, rfl⟩ | ⟨rfl, hrm⟩
  · rfl
  · simp [fnFmtRaise, vecFmtRaise, raiseIf_eq_nil, hrm]

theorem fn_runs (hi : s.issues h) (hx : exec w s = .next (presentWord effOf w h.sp s))
    (hw : ∀ t, effOf w t = effFn h opc interval lat uf fn vd va f rm ix t) (hva : (s.sp h.sp).needV [va] = [])
    (hix : (s.sp h.sp).needS [ix] = []) (hwaw : (s.sp h.sp).wawUnits vd = []) (hport : (s.sp h.sp).vPort = [])
    (hf : (f = .fp32 ∧ rm = .rne) ∨ (f = .bf16 ∧ rm ≠ .rha)) (hrm : rm = .sr ∨ ix = 0) :
    ∃ (r : VReg) (fl : Flags), exec w s = .next (s.vecWaits h.sp interval lat [.v vd r] fl) ∧
      ∀ i : Fin 128,
        let a := ((s.sp h.sp).v.get va).get i
        (f = .fp32 → r.get i = (fn a).1) ∧
        (f = .bf16 → ∀ hi : Bool, half (r.get i) hi =
          (encodeFP fparB16 true rm ((s.sp h.sp).rnd ((s.sp h.sp).rs ix) (2 * i.val + b2n hi))
            (f32 (fn (BitVec.ofNat 32 (half a hi * 2 ^ 16))).1)).1 % 2 ^ 16) := by
  refine ⟨_, _, effVec_runs hi hx ((hw _).trans effFn_holding) (indexEnc_eq_none hrm) (fnRaises_eq_nil hf)
    (List.append_eq_nil_iff.mpr ⟨hva, hix⟩) hwaw hport, fun i => ?_⟩
  rw [lanesOf_get, get_vecOf]
  constructor
  · rintro rfl
    rfl
  · rintro rfl hi
    simp only [if_true, half_pack2]
    cases hi <;> rfl

end

/-! ## Special values (04 R94) -/

/-- The special functions of 07 R183. -/
def specialFns : List (Lane → Lane × Flags) :=
  [fnExp2, fnLog2, fnRcp, fnRsq, fnTanh, fnSin, fnCos, fnSig, fnGelu, fnSilu]

theorem specialFns_of_nan {x : Lane} (hx : f32 x = .nan) : ∀ fn ∈ specialFns, fn x = (nan32, noFlags) := by
  simp [specialFns, fnExp2, fnLog2, fnRcp, fnRsq, fnTanh, fnSin, fnCos, fnSig, fnGelu, fnSilu, hx]

theorem specialFns_of_inf {x : Lane} (hx : f32 x = .inf false) : specialFns.map (· x) =
    [(0x7F800000, {}), (0x7F800000, {}), (0, {}), (0, {}), (0x3F800000, {}), (0x7FC00000, flagNV),
      (0x7FC00000, flagNV), (0x3F800000, {}), (0x7F800000, {}), (0x7F800000, {})] := by
  simp [specialFns, fnExp2, fnLog2, fnRcp, fnRsq, fnTanh, fnSin, fnCos, fnSig, fnGelu, fnSilu, hx, zero32, inf32, one32,
    nan32, noFlags]

theorem specialFns_of_negInf {x : Lane} (hx : f32 x = .inf true) : specialFns.map (· x) =
    [(0, {}), (0x7FC00000, flagNV), (0x80000000, {}), (0x7FC00000, flagNV), (0xBF800000, {}),
      (0x7FC00000, flagNV), (0x7FC00000, flagNV), (0, {}), (0x80000000, {}), (0x80000000, {})] := by
  simp [specialFns, fnExp2, fnLog2, fnRcp, fnRsq, fnTanh, fnSin, fnCos, fnSig, fnGelu, fnSilu, hx, zero32, one32, nan32,
    noFlags]

theorem f32_zero : f32 0 = .fin false 0 (-149) := by decide

theorem f32_negZero : f32 0x80000000 = .fin true 0 (-149) := by decide

section
variable {x : Lane} {n : Bool}

theorem specialFns_of_zero (hx : f32 x = .fin n 0 (-149)) : specialFns.map (· x) =
    [(one32 false, {}), (inf32 true, {}), (inf32 n, {}), (inf32 n, {}), (x, {}), (zero32 n, {}), (one32 false, {}),
      (0x3F000000, {}), (zero32 n, {}), (zero32 n, {})] := by
  have hexp : (Ext.fin n 0 (-149)).lt (.ofInt 128) = true := by cases n <;> decide
  simp [specialFns, fnExp2, fnLog2, fnRcp, fnRsq, fnTanh, fnSin, fnCos, fnSig, fnGelu, fnSilu, hx, hexp, noFlags]

/-- The functions that keep the sign of a zero or give an infinity of its sign. -/
theorem signedFns_of_zero (hx : f32 x = .fin n 0 (-149)) :
    [fnRcp, fnRsq, fnTanh, fnSin, fnGelu, fnSilu].map (· x) =
      [(inf32 n, {}), (inf32 n, {}), (x, {}), (zero32 n, {}), (zero32 n, {}), (zero32 n, {})] := by
  simp [fnRcp, fnRsq, fnTanh, fnSin, fnGelu, fnSilu, hx, noFlags]

end

/-- Settles O13: each word passes its checks and the lanes of its pending result are those of its function; the special
values are those of the functions at a NaN, at the infinities and at the zeros. -/
theorem specialInstructions : Obligations.SpecialInstructions := by
  refine ⟨?words, fun x hx => specialFns_of_nan hx, specialFns_of_inf (by decide), specialFns_of_negInf (by decide),
    specialFns_of_zero f32_zero, signedFns_of_zero f32_negZero⟩
  case words =>
    intro h vd va ix f rm s hi x hva hix hwaw hport hf hrm result
    have runs {w : Instr} {opc interval lat : Nat} {uf : Bool} {fn : Lane → Lane × Flags}
        (hx : exec w s = .next (presentWord effOf w h.sp s))
        (hw : ∀ t, effOf w t = effFn h opc interval lat uf fn vd va f rm ix t) : result w fn interval lat :=
      fn_runs hi hx hw hva hix hwaw hport hf hrm
    exact ⟨runs rfl fun _ => rfl, runs rfl fun _ => rfl, runs rfl fun _ => rfl, runs rfl fun _ => rfl,
      runs rfl fun _ => rfl, runs rfl fun _ => rfl, runs rfl fun _ => rfl, runs rfl fun _ => rfl,
      runs rfl fun _ => rfl, runs rfl fun _ => rfl⟩

end Sys2Proof.Machine
end

section
/-!
PROOFS. Rows between tiles, registers and the bobbin, and the image of the row-state file (04 R90, R114; 07 R184): chunks
of byte lists, the lanes and the fields that bytes hold, and from these the statement O14.
-/

namespace Sys2Proof.Machine

/-! ## Byte lists -/

/-- Chunk `i` of a list made of chunks of one length. -/
theorem take_drop_flatMap {α β : Type} {f : α → List β} {k : Nat} (hf : ∀ a, (f a).length = k) (l : List α) (i : Nat)
    (hi : i < l.length) : ((l.flatMap f).drop (k * i)).take k = f l[i] := by
  induction l generalizing i with
  | nil => simp at hi
  | cons a l ih =>
    cases i with
    | zero => simp [← hf a]
    | succ i =>
      have hdrop : (f a ++ l.flatMap f).drop (k * (i + 1)) = (l.flatMap f).drop (k * i) := by
        rw [Nat.mul_succ, Nat.add_comm, ← hf a, List.drop_append]
        simp
      rw [List.flatMap_cons, hdrop]
      exact ih i (Nat.lt_of_succ_lt_succ hi)

theorem length_flatMap_const {α β : Type} {f : α → List β} {k : Nat} (hf : ∀ a, (f a).length = k) (l : List α) :
    (l.flatMap f).length = k * l.length := by
  simp [List.length_flatMap, hf, Nat.mul_comm]

theorem leNat_drop (bs : List Byte) (k : Nat) : leNat (bs.drop k) = leNat bs / 256 ^ k := by
  induction bs generalizing k with
  | nil => simp [leNat]
  | cons b bs ih =>
    cases k with
    | zero => simp
    | succ k =>
      have hb := b.isLt
      have hdiv : (b.toNat + 256 * leNat bs) / 256 = leNat bs := by omega
      rw [List.drop_succ_cons, ih, leNat, Nat.pow_succ', ← Nat.div_div_eq_div_mul, hdiv]

theorem leNat_take (bs : List Byte) (n : Nat) : leNat (bs.take n) = leNat bs % 256 ^ n := by
  induction bs generalizing n with
  | nil => simp [leNat]
  | cons b bs ih =>
    cases n with
    | zero => simp [leNat, Nat.mod_one]
    | succ n =>
      have hb : b.toNat < 256 := b.isLt
      have hdiv : (b.toNat + 256 * leNat bs) / 256 = leNat bs := by omega
      rw [List.take_succ_cons, leNat, leNat, ih, Nat.pow_succ', Nat.mod_mul, hdiv, Nat.add_mul_mod_self_left,
        Nat.mod_eq_of_lt hb]

/-- The bytes of a range within a range that is read. -/
theorem take_drop_cellsRead (m : List Host.Cell) {a n k j : Nat} (h : k + j ≤ n) :
    ((cellsRead m a n).drop k).take j = cellsRead m (a + k) j := by
  refine List.ext_getElem (by simp [cellsRead]; omega) fun i h1 h2 => ?_
  simp [cellsRead, Nat.add_assoc]

theorem leBytes_length (n x : Nat) : (leBytes n x).length = n := by
  induction n generalizing x with
  | zero => rfl
  | succ n ih => simp [leBytes, ih]

theorem leBytes_getElem? {n b : Nat} (x : Nat) (h : b < n) : (leBytes n x)[b]? = some (BitVec.ofNat 8 (x / 256 ^ b)) := by
  induction n generalizing x b with
  | zero => omega
  | succ n ih =>
    cases b with
    | zero => simp [leBytes]
    | succ b => rw [leBytes, List.getElem?_cons_succ, ih _ (by omega), Nat.div_div_eq_div_mul, Nat.pow_succ']

/-! ## Lanes in the bobbin -/

theorem lanesFrom_get (bs : List Byte) (i : Fin 128) :
    (lanesFrom bs).get i = BitVec.ofNat 32 (leNat ((bs.drop (4 * i.val)).take 4)) := by
  have hpow : (2 : Nat) ^ (32 * i.val) = 256 ^ (4 * i.val) := by
    rw [show (256 : Nat) = 2 ^ 8 from rfl, ← Nat.pow_mul]
    congr 1
    omega
  simp [lanesFrom, elems, bitsOf, leNat_drop, leNat_take, hpow]

theorem ofNat_div_eq_extractLsb' (l : Lane) (b : Nat) : BitVec.ofNat 8 (l.toNat / 256 ^ b) = l.extractLsb' (8 * b) 8 := by
  rw [BitVec.extractLsb', Nat.shiftRight_eq_div_pow, Nat.pow_mul]

theorem lanesTo_getElem? (v : VReg) (i : Fin 128) {b : Nat} (hb : b < 4) :
    (lanesTo v)[4 * i.val + b]? = some ((v.get i).extractLsb' (8 * b) 8) := by
  have hrow := take_drop_flatMap (f := fun l : Lane => leBytes 4 l.toNat) (fun _ => leBytes_length _ _) v.toList i.val
    (by simp)
  rw [← List.getElem?_drop, ← List.getElem?_take_of_lt hb, lanesTo, hrow, leBytes_getElem? _ hb,
    ← ofNat_div_eq_extractLsb']
  rfl

theorem lanesTo_length (v : VReg) : (lanesTo v).length = 512 := by
  rw [lanesTo, length_flatMap_const fun _ => leBytes_length _ _, Vector.length_toList]

/-- A lane stored in the bobbin, byte by byte. -/
theorem cellGet_lanesTo {m : List Host.Cell} (hm : Memory.wf m = true) (o : Nat) (v : VReg) (i : Fin 128) {b : Nat}
    (hb : b < 4) : cellGet (cellsWrite m o (lanesTo v)) (o + 4 * i.val + b) = (v.get i).extractLsb' (8 * b) 8 := by
  have hoff : o + 4 * i.val + b - o = 4 * i.val + b := by omega
  rw [cellGet_cellsWrite hm, if_pos (by omega), hoff, List.getD_eq_getElem?_getD, lanesTo_getElem? v i hb]
  rfl

/-- A write of consecutive bytes leaves the others. -/
theorem cellGet_cellsWrite_outside {m : List Host.Cell} (hm : Memory.wf m = true) {o i : Nat} {bs : List Byte}
    (h : i < o ∨ o + bs.length ≤ i) : cellGet (cellsWrite m o bs) i = cellGet m i := by
  rw [cellGet_cellsWrite hm]
  split
  · rw [List.getD_eq_default _ _ (by omega)]
  · rfl

/-! ## The image of a row-state entry -/

section
variable {w n o k : Nat} (x : BitVec w)

/-- A field placed in 512 bits is read back at its place. -/
theorem field_same (h : o + w ≤ 512) : (x.setWidth 512 <<< o).extractLsb' o w = x := by
  ext i hi
  have h1 : o + i < 512 := by omega
  simp [h1, BitVec.getLsbD_eq_getElem, hi]

/-- A field placed apart from the bits that are read leaves them 0. -/
theorem field_apart (h : o + w ≤ k ∨ k + n ≤ o) : (x.setWidth 512 <<< o).extractLsb' k n = 0 := by
  ext i hi
  have hout : k + i < o ∨ w ≤ k + i - o := by omega
  rcases hout with hout | hout
  · simp [hout]
  · simp [BitVec.getLsbD_of_ge x _ hout]

end

/-- The bits of an image put together from the first `n` of its bytes. -/
def joinBytes (b : BitVec 512) (n : Nat) : BitVec 512 :=
  (List.range n).foldl (fun a i => a ||| (b.extractLsb' (8 * i) 8).setWidth 512 <<< (8 * i)) 0

theorem joinBytes_getLsbD (b : BitVec 512) {n j : Nat} (hj : j < 512) :
    (joinBytes b n).getLsbD j = (decide (j < 8 * n) && b.getLsbD j) := by
  induction n with
  | zero => simp [joinBytes]
  | succ n ih =>
    have hstep : joinBytes b (n + 1) = joinBytes b n ||| (b.extractLsb' (8 * n) 8).setWidth 512 <<< (8 * n) := by
      simp [joinBytes, List.range_succ]
    rw [hstep, BitVec.getLsbD_or, ih]
    by_cases hlt : j < 8 * n
    · have hlt' : j < 8 * (n + 1) := by omega
      simp [hlt, hlt']
    · have hin : j < 8 * (n + 1) ↔ j - 8 * n < 8 := by omega
      have hat : 8 * n + (j - 8 * n) = j := by omega
      simp [hlt, hin, hat, hj]

theorem joinBytes_all (b : BitVec 512) : joinBytes b 64 = b := by
  ext j hj
  simp [← BitVec.getLsbD_eq_getElem, joinBytes_getLsbD b hj]
  omega

theorem entryBytes_length (e : RowEntry) : (entryBytes e).length = 64 := by simp [entryBytes]

/-- The bytes of an entry hold its 512 bits under the device's layout. -/
theorem entryFrom_entryBytes (e : RowEntry) : entryFrom (entryBytes e) = entryOf (entryBits e) := by
  have hbyte : ∀ i ∈ List.range 64,
      (entryBytes e).getD i 0 ^^^ Config.rowMask i = (entryBits e).extractLsb' (8 * i) 8 := by
    intro i hi
    rw [List.mem_range] at hi
    simp [entryBytes, hi]
  refine congrArg entryOf (Eq.trans ?_ (joinBytes_all (entryBits e)))
  exact List.foldl_ext _ _ _ fun a i hi => by rw [hbyte i hi]

/-- The wide number of 59 bits. -/
def wideFrom (b : BitVec 59) : Wide :=
  { neg := b.getLsbD 58, hi := b.extractLsb' 34 24, lo := b.extractLsb' 10 24, exp := b.extractLsb' 0 10 }

theorem wideFrom_wideBits (w : Wide) : wideFrom (wideBits w) = w := by
  obtain ⟨neg, hi, lo, exp⟩ := w
  have hneg : (BitVec.ofBool neg ++ hi ++ lo ++ exp).getLsbD 58 = neg := by
    simp only [BitVec.getLsbD_append]
    simp
  have hhi : (BitVec.ofBool neg ++ hi ++ lo ++ exp).extractLsb' 34 24 = hi := by
    rw [BitVec.extractLsb'_append_eq_of_le (by decide), BitVec.extractLsb'_append_eq_of_le (by decide),
      BitVec.extractLsb'_append_eq_right]
  have hlo : (BitVec.ofBool neg ++ hi ++ lo ++ exp).extractLsb' 10 24 = lo := by
    rw [BitVec.extractLsb'_append_eq_of_le (by decide), BitVec.extractLsb'_append_eq_right]
  have hexp : (BitVec.ofBool neg ++ hi ++ lo ++ exp).extractLsb' 0 10 = exp := BitVec.extractLsb'_append_eq_right
  exact Wide.mk.injEq .. ▸ ⟨hneg, hhi, hlo, hexp⟩

theorem extractLsb'_extractLsb' {w o m k n : Nat} (b : BitVec w) (h : k + n ≤ m) :
    (b.extractLsb' o m).extractLsb' k n = b.extractLsb' (o + k) n := by
  ext i hi
  have hin : k + i < m := by omega
  simp [hin, Nat.add_assoc]

theorem wideAt_eq (b : BitVec 512) (o : Nat) : wideAt b o = wideFrom (b.extractLsb' o 59) := by
  simp [wideAt, wideFrom, extractLsb'_extractLsb']

theorem entryOf_entryBits (e : RowEntry) : entryOf (entryBits e) = e := by
  cases e with
  | empty => simp [entryOf, entryBits]
  | smax m s f => simp [entryOf, entryBits, BitVec.extractLsb'_or, field_same, field_apart]
  | stat mx mn n sum sq mean dev na pi ni =>
     simp [entryOf, entryBits, BitVec.extractLsb'_or, field_same, field_apart, wideAt_eq, wideFrom_wideBits]
     cases mean <;> rfl

/-! ## The image of the file -/

theorem fileBytes_length (f : Vector RowEntry 128) : (fileBytes f).length = 8192 := by
  rw [fileBytes, length_flatMap_const entryBytes_length, Vector.length_toList]

theorem take_drop_fileBytes (f : Vector RowEntry 128) (i : Fin 128) :
    ((fileBytes f).drop (64 * i.val)).take 64 = entryBytes (f.get i) :=
  take_drop_flatMap entryBytes_length f.toList i.val (by simp)

/-- A load of the bytes of a saved entry restores it, wherever the others came from (04 R114). -/
theorem fileFrom_get {m : List Host.Cell} {o : Nat} {i : Fin 128} {e : RowEntry}
    (h : cellsRead m (o + 64 * i.val) 64 = entryBytes e) : (fileFrom (cellsRead m o 8192)).get i = e := by
  have hi := i.isLt
  rw [fileFrom, get_vecOf, take_drop_cellsRead m (by omega), h, entryFrom_entryBytes, entryOf_entryBits]

/-! ## Tiles -/

theorem rowOf_val {n : Nat} {row : Fin 128} (h : n = row.val) : rowOf n = row := by
  subst h
  simp [rowOf]

/-! ## Words -/

section
variable {s : State} {h : Hdr} {w : Instr}

theorem effVrd_holding {vd : Fin 32} {c : Fin 4} {n : Num7} :
    effVrd h vd c n (s.holding h.sp w) = effVrd h vd c n s := by simp [effVrd, mkEff]

theorem effVwr_holding {c : Fin 4} {n : Num7} {vs : Fin 32} :
    effVwr h c n vs (s.holding h.sp w) = effVwr h c n vs s := by simp [effVwr, mkEff]

theorem effVscr_holding {c : Fin 4} {vs : Fin 32} :
    effVscr h c vs (s.holding h.sp w) = effVscr h c vs s := by simp [effVscr, mkEff]

theorem effVld_holding {vd ra : Fin 32} {off : BitVec 16} :
    effVld h vd ra off (s.holding h.sp w) = effVld h vd ra off s := by simp [effVld, mkEff]

theorem effVst_holding {vs ra : Fin 32} {off : BitVec 16} :
    effVst h vs ra off (s.holding h.sp w) = effVst h vs ra off s := by simp [effVst, mkEff]

theorem effRsave_holding {ra : Fin 32} : effRsave h ra (s.holding h.sp w) = effRsave h ra s := by
  simp [effRsave, effRow, mkEff]

theorem effRload_holding {ra : Fin 32} : effRload h ra (s.holding h.sp w) = effRload h ra s := by
  simp [effRload, effRow, mkEff]

end

/-- A row number that a row has raises nothing (07 R184). -/
theorem rowRaise_val {n : Nat} {row : Fin 128} (h : n = row.val) : rowRaise n = [] := by
  have hrow := row.isLt
  simp [rowRaise, raiseIf_eq_nil, h]
  omega

/-- The reads of a row-state image, 512 bytes in each of 16 cycles (04 R114). -/
theorem rowReads_image (x : Spindle) (o : Nat) :
    x.rowReads 16 (fun i => if i < 16 then [(o + 512 * i, 512)] else []) =
      (List.range 16).map fun i => (o + 512 * i, 512, queueStart x.clk x.rq + i) := rfl

/-- The spindle after a bundle of one word. -/
theorem State.ran_sp (s : State) (p : Fin 136) (f : Spindle → Spindle) :
    (s.ran p f).sp p = f ((s.sp p).advance 1 []) := by simp [State.ran]

/-- A word that stores bytes in the bobbin as it issues. -/
theorem storeWord_runs {s : State} {h : Hdr} {w : Instr} {e : Eff} {o : Nat} {bs : List Byte} (hi : s.issues h)
    (hx : exec w s = .next (presentWord effOf w h.sp s)) (hw : effOf w (s.holding h.sp w) = e) (he : e.e = h.e)
    (hon : e.on = (s.sp h.sp).rp h.pred) (henc : e.enc = none) (hexc : e.exc = []) (hst : e.stall = [])
    (hd : e.dests = []) (ha : e.acts = [.wr (.mem o bs)]) :
    exec w s = .next (s.ran h.sp fun y => { y with bobbin := cellsWrite (s.sp h.sp).bobbin o bs }) := by
  refine word_runs hi hx hw he hon henc hexc hst (waitS_nil hd) fun t ht => ?_
  simp [ha, Act.perform, ht, Spindle.advance, Spindle.count, Spindle.write, Spindle.poke]

section
variable {s : State} {h : Hdr} {c : Fin 4} {n : Num7} {row : Fin 128} {vd ra : Fin 32} {off : BitVec 16}
  (hi : s.issues h)
include hi

section
variable (hport : (s.sp h.sp).vPort = [])
include hport

/-- `vrd` copies a tile row into a register (04 R90). -/
theorem vrd_runs (hrow : num7 (s.sp h.sp) n = row.val) (hn : (s.sp h.sp).needS (num7Regs n) = [])
    (hwaw : (s.sp h.sp).wawUnits vd = []) (htile : (s.sp h.sp).needTile [c] = []) :
    exec (.vrd h vd c n) s = .next (s.vecWaits h.sp 1 3 [.v vd (((s.sp h.sp).tile.get c).rows.get row)] {}) := by
  rw [← rowOf_val hrow]
  exact vecWord_runs hi rfl (effVrd_holding (w := .vrd h vd c n)) rfl rfl rfl (rowRaise_val hrow)
    (by simp [effVrd, hn, htile, hwaw, hport]) (by simp [effVrd]) rfl

/-- `vwr` copies a register into a tile row (04 R90). -/
theorem vwr_runs (hrow : num7 (s.sp h.sp) n = row.val) (hn : (s.sp h.sp).needS (num7Regs n) = [])
    (hvs : (s.sp h.sp).needV [vd] = []) (hfree : (s.sp h.sp).freeRow c = []) :
    exec (.vwr h c n vd) s = .next (s.vecWaits h.sp 1 3 [.tileRow c row ((s.sp h.sp).v.get vd)] {}) := by
  rw [← rowOf_val hrow]
  exact vecWord_runs hi rfl (effVwr_holding (w := .vwr h c n vd)) rfl rfl rfl (rowRaise_val hrow)
    (by simp [effVwr, hn, hvs, hfree, hport]) (by simp [effVwr]) rfl

/-- `vscr` multiplies each element of row `i` of an FP tile by lane `i`, rounded once (04 R90). -/
theorem vscr_runs (hvs : (s.sp h.sp).needV [vd] = []) (htile : (s.sp h.sp).needTile [c] = [])
    (hfree : (s.sp h.sp).freeTile c = []) (htag : ((s.sp h.sp).tile.get c).tag = .fp) :
    ∃ (t : Tile) (fl : Flags), exec (.vscr h c vd) s = .next (s.vecWaits h.sp 128 132 [.tile c t] fl) ∧ t.tag = .fp ∧
      ∀ i j : Fin 128, (t.rows.get i).get j = (rne32 ((f32 ((((s.sp h.sp).tile.get c).rows.get i).get j)).mul
        (f32 (((s.sp h.sp).v.get vd).get i)))).1 := by
  refine ⟨_, _, vecWord_runs hi rfl (effVscr_holding (w := .vscr h c vd)) rfl rfl rfl ?_
    (by simp [effVscr, hvs, htile, hfree, hport]) (by simp [effVscr]) rfl, htag, fun i j => ?_⟩
  · simp [effVscr, htag, raiseIf]
  · rw [get_vecOf, lanesOf_get, get_vecOf, get_vecOf]
    rfl

variable (hra : (s.sp h.sp).needS [ra] = []) (hown : ownBobbin h.sp (rowAddr (s.sp h.sp) ra off) 512 = true)
  (halign : rowAddr (s.sp h.sp) ra off % 16 = 0)
include hra hown halign

/-- `vld` loads 512 bytes, lane 0 lowest (07 R184). -/
theorem vld_runs (hwaw : (s.sp h.sp).wawUnits vd = [])
    (hread : readStall s h.sp (rowAddr (s.sp h.sp) ra off - bobbinBase h.sp) 512 = []) :
    ∃ r : VReg, exec (.vld h vd ra off) s = .next (s.vecWaits h.sp 1 8 [.v vd r] {}) ∧
      ∀ i : Fin 128, r.get i = BitVec.ofNat 32 (leNat
        (cellsRead (s.sp h.sp).bobbin (rowAddr (s.sp h.sp) ra off - bobbinBase h.sp + 4 * i.val) 4)) := by
  refine ⟨_, vecWord_runs hi rfl (effVld_holding (w := .vld h vd ra off)) rfl rfl rfl (bobbinRaise_eq_nil hown halign)
    (by simp [effVld, hra, hread, hwaw, hport]) (by simp [effVld]) rfl, fun i => ?_⟩
  have hlt := i.isLt
  rw [lanesFrom_get, take_drop_cellsRead _ (by omega)]

/-- `vst` stores the lanes of a register from an address on, lane 0 lowest (07 R184). -/
theorem vst_runs (hvs : (s.sp h.sp).needV [vd] = [])
    (hwrite : writeStall s h.sp (rowAddr (s.sp h.sp) ra off - bobbinBase h.sp) 512 = []) :
    exec (.vst h vd ra off) s = .next (s.ran h.sp fun y => { y with
      bobbin := cellsWrite (s.sp h.sp).bobbin (rowAddr (s.sp h.sp) ra off - bobbinBase h.sp)
        (lanesTo ((s.sp h.sp).v.get vd)) }) :=
  storeWord_runs hi rfl (effVst_holding (w := .vst h vd ra off)) rfl rfl rfl (bobbinRaise_eq_nil hown halign)
    (by simp [effVst, hra, hvs, hwrite, hport]) rfl rfl

end

variable (hown : ownBobbin h.sp ((s.sp h.sp).rs ra).toNat 8192 = true)
  (halign : ((s.sp h.sp).rs ra).toNat % 16 = 0) (hra : (s.sp h.sp).needS [ra] = [])
  (hq : queueStall (s.sp h.sp).clk (s.sp h.sp).rq = [])
include hown halign hra hq

/-- `rsave` queues the image of the row-state file (04 R114). -/
theorem rsave_runs (hwrite : writeStall s h.sp (offOf (s.sp h.sp) h.sp ra) 8192 = []) :
    exec (.rsave h ra) s = .next
      (s.rowWaits h.sp [] 16 24 [.mem (offOf (s.sp h.sp) h.sp ra) (fileBytes (s.sp h.sp).rows)] {}) :=
  effRow_runs_unread hi rfl effRsave_holding (by simp) (bobbinRaise_eq_nil hown halign) (by simp [hra, hwrite]) hq

/-- `rload` queues the file of the bytes as they stand at issue (04 R114). -/
theorem rload_runs (hread : readStall s h.sp (offOf (s.sp h.sp) h.sp ra) 8192 = []) :
    exec (.rload h ra) s = .next (s.rowWaits h.sp
      ((List.range 16).map fun i => (offOf (s.sp h.sp) h.sp ra + 512 * i, 512,
        queueStart (s.sp h.sp).clk (s.sp h.sp).rq + i)) 16 24
      [.rowFile (fileFrom (cellsRead (s.sp h.sp).bobbin (offOf (s.sp h.sp) h.sp ra) 8192))] {}) :=
  rowReads_image _ _ ▸ effRow_runs hi rfl effRload_holding (by simp) (bobbinRaise_eq_nil hown halign)
    (by simp [hra, hread]) hq

end

/-- Settles O14: each word passes its checks; the lanes, the tile rows and the entries are those that the byte lists and
the rows give. -/
theorem vectorRowMoves : Obligations.VectorRowMoves := by
  refine ⟨?rows, ?files, fun f => ⟨fileBytes_length f, take_drop_fileBytes f⟩⟩
  case rows =>
    intro h vd ra c n row off s hi hcan x hrow hn hport hwaw hvd hra pend a o
    refine ⟨vrd_runs hi hport hrow hn hwaw, vwr_runs hi hport hrow hn hvd, vscr_runs hi hport hvd, fun hown halign =>
      ⟨vld_runs hi hport hra hown halign hwaw, fun hwrite => ⟨_, vst_runs hi hport hra hown halign hvd hwrite, ?_⟩⟩⟩
    obtain ⟨-, hwf, -⟩ := hcan
    rw [State.ran_sp]
    exact ⟨fun i b hb => cellGet_lanesTo (hwf h.sp) o _ i hb,
      fun i hout => cellGet_cellsWrite_outside (hwf h.sp) (by rwa [lanesTo_length]), rfl⟩
  case files =>
    intro h ra s hi x a o queued hown halign hra hq
    exact ⟨rsave_runs hi hown halign hra hq, fun hread =>
      ⟨_, rload_runs hi hown halign hra hq hread, fun i e => fileFrom_get⟩⟩

end Sys2Proof.Machine
end

section
/-!
PROOFS. The soft maximum (04 R99 to R103, R111, R115): what one row of each instruction gives, position by position, and
the words that enter the row unit's queue with those rows. From these the statement O16.
-/

namespace Sys2Proof.Machine

/-! ## One row -/

/-- A term added to the sum of a row with maximum `m`, with the flags so far (04 R100). -/
def sumTerm (m : Lane) (a : Lane × Flags) (y : Lane) : Lane × Flags :=
  let p := fnExp2 (sub32 y m).1
  let t := add32 a.1 p.1
  (t.1, a.2.or ((sub32 y m).2.or (p.2.or t.2)))

theorem foldl_sumTerm_fst (m : Lane) (live : List Lane) : (live.foldl (sumTerm m) (0, noFlags)).1 =
    live.foldl (fun t y => (add32 t (fnExp2 (sub32 y m).1).1).1) 0 :=
  (List.foldl_hom (g₁ := sumTerm m) Prod.fst fun _ _ => rfl).symm

/-- The new state of a row: its maximum, its sum and the factor of the old sum (04 R100). -/
theorem smaxRow_fst (e : RowEntry) (init : Bool) (xs : List (Option Lane × Flags)) :
    let old := if init then (floor32, (0 : Lane)) else smaxOf e
    let live := xs.filterMap (·.1)
    let m := live.foldl maxNan old.1
    let fac := (fnExp2 (sub32 old.1 m).1).1
    let t := live.foldl (fun t y => (add32 t (fnExp2 (sub32 y m).1).1).1) 0
    (smaxRow e init xs).1 = .smax m (fma32 old.2 fac t).1 fac := by
  intro old live m fac t
  exact congrArg (fun t => RowEntry.smax m (fma32 old.2 fac t).1 fac) (foldl_sumTerm_fst m live)

section
variable {e : RowEntry} {raw : Bool} {xs : List (Option Lane × Flags)} {old : VReg} {j : Fin 128} {y : Lane} {g : Flags}

/-- A position past the row keeps the old element of the destination. -/
theorem probRow_beyond (h : xs[j.val]? = none) : (probRow e raw xs old).get j = (old.get j, noFlags) := by
  simp [probRow, h]

/-- Every position of a row without a sum is +0 (04 R101). -/
theorem probRow_empty {o : Option Lane} (h : xs[j.val]? = some (o, g)) (hs : (f32 (smaxOf e).2).isZero = true) :
    (probRow e raw xs old).get j = (0, flagMK) := by
  simp [probRow, h, hs]

/-- A masked position is +0 (04 R99). -/
theorem probRow_masked (h : xs[j.val]? = some (none, g)) (hs : (f32 (smaxOf e).2).isZero = false) :
    (probRow e raw xs old).get j = (0, g) := by
  simp [probRow, h, hs]

/-- An unmasked position of a row whose maximum is +∞ is NaN (04 R115). -/
theorem probRow_infinite (h : xs[j.val]? = some (some y, g)) (hs : (f32 (smaxOf e).2).isZero = false)
    (hm : (smaxOf e).1 = inf32 false) : (probRow e raw xs old).get j = (nan32, flagNV) := by
  simp [probRow, h, hs, hm]

/-- Any other position is its probability, or with RAW its power of two (04 R101). -/
theorem probRow_live (h : xs[j.val]? = some (some y, g)) (hs : (f32 (smaxOf e).2).isZero = false)
    (hm : (smaxOf e).1 ≠ inf32 false) : ((probRow e raw xs old).get j).1 =
      if raw then (fnExp2 (sub32 y (smaxOf e).1).1).1
      else (mul32 (fnExp2 (sub32 y (smaxOf e).1).1).1 (recipIn (smaxOf e).2)).1 := by
  cases raw <;> simp [probRow, h, hs, hm]

end

/-- The factors of a merge and the state it leaves (04 R103). -/
theorem mergeRow_fst (e : RowEntry) (mb sb : Lane) :
    let m := maxNan (smaxOf e).1 mb
    let fa := (fnExp2 (sub32 (smaxOf e).1 m).1).1
    let fb := (fnExp2 (sub32 mb m).1).1
    (mergeRow e mb sb).1.2 = (fa, fb) ∧ smaxOf (mergeRow e mb sb).1.1 =
      (m, (rne32 (((f32 (smaxOf e).2).mul (f32 fa)).add ((f32 sb).mul (f32 fb)))).1) := ⟨rfl, rfl⟩

/-! ## Words -/

section
variable {s : State} {h : Hdr} {c cd : Fin 4} {n : Num7} {sc va vb : Fin 32} {mask : Mask} {init raw : Bool}

theorem effSmaxP1_holding (w : Instr) : effSmaxP1 h c n sc mask init (s.holding h.sp w) =
    effSmaxP1 h c n sc mask init s := by simp [effSmaxP1, effRow, mkEff]

theorem effSmaxP2_holding (w : Instr) : effSmaxP2 h cd c n sc mask raw (s.holding h.sp w) =
    effSmaxP2 h cd c n sc mask raw s := by simp [effSmaxP2, effRow, mkEff]

theorem effSmaxFac_holding (w : Instr) : effSmaxFac h va (s.holding h.sp w) = effSmaxFac h va s := by
  simp [effSmaxFac, effRow, mkEff]

theorem effSmaxLse_holding (w : Instr) : effSmaxLse h va (s.holding h.sp w) = effSmaxLse h va s := by
  simp [effSmaxLse, effRow, mkEff]

theorem effSmaxMerge_holding (w : Instr) : effSmaxMerge h va vb (s.holding h.sp w) = effSmaxMerge h va vb s := by
  simp [effSmaxMerge, effRow, mkEff]

/-- The checks of an instruction over the rows of an FP tile whose entries are in the wanted mode (04 R112; 07 R185). -/
theorem rowRaises_eq_nil {x : Spindle} {p : Fin 136} {cs : List (Fin 4)} {bad : RowEntry → Bool} (hpos : 1 ≤ count7 x n)
    (hmax : count7 x n ≤ 128) (hmask : maskRaise x p mask = []) (htag : ∀ c ∈ cs, (x.tile.get c).tag = .fp)
    (hmode : ∀ i, bad (x.rows.get i) = false) :
    countRaise (count7 x n) ++ maskRaise x p mask ++ fpRaise x cs ++ modeRaise x.rows bad = [] := by
  simp [countRaise_eq_nil.mpr ⟨hpos, hmax⟩, hmask, fpRaise_eq_nil.mpr htag, modeRaise_eq_nil.mpr hmode]

section
variable (hi : s.issues h) (hq : queueStall (s.sp h.sp).clk (s.sp h.sp).rq = [])
  (hmode : ∀ i, RowEntry.isStat ((s.sp h.sp).rows.get i) = false)
include hi hq hmode

theorem smaxFac_runs (hwaw : (s.sp h.sp).wawRow va = []) :
    ∃ v : VReg, exec (.smaxFac h va) s = .next (s.rowWaits h.sp [] 1 8 [.v va v] {}) ∧
      ∀ i m u g, (s.sp h.sp).rows.get i = .smax m u g → v.get i = g :=
  ⟨_, effRow_runs_unread hi rfl (effSmaxFac_holding _) (by simp) (modeRaise_eq_nil.mpr hmode) hwaw hq,
    fun i m u g he => by rw [get_vecOf, he]⟩

theorem smaxLse_runs (hwaw : (s.sp h.sp).wawRow va = []) :
    ∃ (v : VReg) (fl : Flags), exec (.smaxLse h va) s = .next (s.rowWaits h.sp [] 1 14 [.v va v] fl) ∧
      ∀ i, v.get i = if (f32 (smaxOf ((s.sp h.sp).rows.get i)).2).isZero then 0xFF800000
        else (add32 (smaxOf ((s.sp h.sp).rows.get i)).1 (fnLog2 (smaxOf ((s.sp h.sp).rows.get i)).2).1).1 :=
  ⟨_, _, effRow_runs_unread hi rfl (effSmaxLse_holding _) (by simp) (modeRaise_eq_nil.mpr hmode) hwaw hq, fun i => by
    rw [lanesOf_get, get_vecOf]
    exact apply_ite Prod.fst _ _ _⟩

theorem smaxMerge_runs (hab : (s.sp h.sp).needV [va, vb] = []) (hwa : (s.sp h.sp).wawRow va = [])
    (hwb : (s.sp h.sp).wawRow vb = []) :
    ∃ (file : Vector RowEntry 128) (a b : VReg) (fl : Flags), exec (.smaxMerge h va vb) s = .next
        (s.rowWaits h.sp [] 1 16 [.rowFile file, .v va a, .v vb b] fl) ∧
      ∀ i, ((file.get i, a.get i, b.get i) : RowEntry × Lane × Lane) = (mergeRow ((s.sp h.sp).rows.get i)
        (((s.sp h.sp).v.get va).get i) (((s.sp h.sp).v.get vb).get i)).1 :=
  ⟨_, _, _, _, effRow_runs_unread hi rfl (effSmaxMerge_holding _) (by simp) (modeRaise_eq_nil.mpr hmode)
    (by simp only [hab, hwa, hwb, List.append_nil]) hq, fun i => by simp only [get_vecOf]⟩

variable (hpos : 1 ≤ count7 (s.sp h.sp) n) (hmax : count7 (s.sp h.sp) n ≤ 128)
  (hneed : (s.sp h.sp).needS (sc :: num7Regs n ++ maskRegs mask) = []) (hmr : maskRaise (s.sp h.sp) h.sp mask = [])
  (hms : maskStall s h.sp mask = []) (htile : (s.sp h.sp).needTile [c] = [])
  (htag : ((s.sp h.sp).tile.get c).tag = .fp)
include hpos hmax hneed hmr hms htile htag

theorem smaxP1_runs :
    ∃ (file : Vector RowEntry 128) (fl : Flags), exec (.smaxP1 h c n sc mask init) s = .next
        (s.rowWaits h.sp ((s.sp h.sp).rowReads 128 (maskReads (s.sp h.sp) h.sp mask)) 128 152 [.rowFile file] fl) ∧
      ∀ i : Fin 128, file.get i = (smaxRow ((s.sp h.sp).rows.get i) init
        (scaledRow (maskTest (s.sp h.sp) h.sp mask i.val) (((s.sp h.sp).rs sc).setWidth 32)
          (((s.sp h.sp).tile.get c).rows.get i) (count7 (s.sp h.sp) n))).1 :=
  ⟨_, _, effRow_runs hi rfl (effSmaxP1_holding _) (by simp)
    (rowRaises_eq_nil hpos hmax hmr (by simpa using htag) hmode)
    (by simp only [hneed, htile, hms, List.append_nil]) hq, fun i => by rw [get_vecOf, get_vecOf]⟩

theorem smaxP2_runs (hfree : (s.sp h.sp).freeTile cd = []) :
    ∃ (t : Tile) (fl : Flags), exec (.smaxP2 h cd c n sc mask raw) s = .next
        (s.rowWaits h.sp ((s.sp h.sp).rowReads 128 (maskReads (s.sp h.sp) h.sp mask)) 128 166 [.tile cd t] fl) ∧
      t.tag = .fp ∧ ∀ i j : Fin 128, (t.rows.get i).get j = ((probRow ((s.sp h.sp).rows.get i) raw
        (scaledRow (maskTest (s.sp h.sp) h.sp mask i.val) (((s.sp h.sp).rs sc).setWidth 32)
          (((s.sp h.sp).tile.get c).rows.get i) (count7 (s.sp h.sp) n))
        (((s.sp h.sp).tile.get cd).rows.get i)).get j).1 :=
  ⟨_, _, effRow_runs hi rfl (effSmaxP2_holding _) (by simp)
    (rowRaises_eq_nil hpos hmax hmr (by simpa using htag) hmode)
    (by simp only [hneed, htile, hfree, hms, List.append_nil]) hq, rfl,
    fun i j => by rw [get_vecOf, lanesOf_get, get_vecOf]⟩

end
end

/-- Settles O16: each word enters the queue with the rows that `smaxRow`, `probRow` and `mergeRow` give. -/
theorem softMaximum : Obligations.SoftMaximum := by
  intro h c cd n sc va vb mask init raw s hi x k f cc hpos hmax hneed hmr hms htile hfree hab hwa hwb hq htag hmode row
    masks queuedOn queued
  obtain ⟨file, fl, hrun, hfile⟩ := smaxP1_runs (init := init) hi hq hmode hpos hmax hneed hmr hms htile htag
  obtain ⟨t, fl', hrun', htt, hprob⟩ := smaxP2_runs (raw := raw) hi hq hmode hpos hmax hneed hmr hms htile htag hfree
  obtain ⟨file', a, b, fl'', hrun'', hmerge⟩ := smaxMerge_runs hi hq hmode hab hwa hwb
  refine ⟨⟨file, fl, hrun, fun i => (hfile i).trans (smaxRow_fst _ _ _)⟩, ⟨t, fl', hrun', htt, fun i j => ?prob⟩,
    smaxFac_runs hi hq hmode hwa, smaxLse_runs hi hq hmode hwa, ⟨file', a, b, fl'', hrun'', fun i => ?merge⟩⟩
  case prob =>
    intro st
    rw [hprob]
    rcases hj : (row i)[j.val]? with _ | ⟨o, g⟩
    · exact congrArg Prod.fst (probRow_beyond hj)
    by_cases hs : (f32 st.2).isZero = true
    · simp only [hs, if_true]
      exact congrArg Prod.fst (probRow_empty hj hs)
    simp only [hs]
    rw [Bool.not_eq_true] at hs
    cases o with
    | none => exact congrArg Prod.fst (probRow_masked hj hs)
    | some y =>
      by_cases hm : st.1 = inf32 false
      · exact (congrArg Prod.fst (probRow_infinite hj hs hm)).trans (if_pos hm).symm
      · exact (probRow_live hj hs hm).trans (if_neg hm).symm
  case merge =>
    intro st mb sb m
    obtain ⟨hstate, hfactors⟩ := Prod.mk.inj (hmerge i)
    obtain ⟨ha, hb⟩ := Prod.mk.inj hfactors
    rw [hstate, ha, hb]
    exact ⟨rfl, rfl, rfl⟩

end Sys2Proof.Machine
end

section
/-!
PROOFS. The statistics of the rows (04 R98, R105 to R110): a fresh entry after a run of finite elements, the row of one
value, and the words of the row unit that work row by row. From these the statements O17 and O18.
-/

namespace Sys2Proof.Machine

/-! ## A fresh entry and its elements -/

/-- A statistics entry of `n` finite elements whose mean nothing has fixed. -/
def finiteStat (mx mn : Lane) (n : Nat) (sum sq : Wide) : RowEntry :=
  .stat mx mn (BitVec.ofNat 32 n) sum sq none {} false false false

/-- One finite element more, below the limit of the count (04 R105). -/
theorem statAdd_finiteStat {mx mn l : Lane} {n : Nat} {sum sq : Wide} (hn : n < 2 ^ 24)
    (hl : ∃ b m e, f32 l = .fin b m e) :
    (statAdd (finiteStat mx mn n sum sq) l).1 =
      finiteStat (lanePick .fp32 true mx l) (lanePick .fp32 false mn l) (n + 1) (widePlus sum (f32 l))
        (widePlus sq ((f32 l).mul (f32 l))) := by
  obtain ⟨b, m, e, hl⟩ := hl
  have hcount : ¬2 ^ 24 ≤ (BitVec.ofNat 32 n).toNat := by
    rw [BitVec.toNat_ofNat, Nat.mod_eq_of_lt (by omega)]
    omega
  simp only [statAdd, finiteStat, hl, hcount, decide_false, Bool.false_eq_true, if_false, BitVec.ofNat_add]
  rfl

theorem foldl_statAdd_finiteStat (xs : List Lane) (hfin : ∀ l ∈ xs, ∃ b m e, f32 l = .fin b m e) (mx mn : Lane) (n : Nat)
    (sum sq : Wide) (hn : n + xs.length ≤ 2 ^ 24) :
    xs.foldl (fun e l => (statAdd e l).1) (finiteStat mx mn n sum sq) =
      finiteStat (xs.foldl (lanePick .fp32 true) mx) (xs.foldl (lanePick .fp32 false) mn) (n + xs.length)
        ((xs.map f32).foldl widePlus sum) ((xs.map fun l => (f32 l).mul (f32 l)).foldl widePlus sq) := by
  induction xs generalizing mx mn n sum sq with
  | nil => rfl
  | cons l xs ih =>
    obtain ⟨hl, hxs⟩ := List.forall_mem_cons.mp hfin
    rw [List.length_cons] at hn
    rw [List.foldl_cons, statAdd_finiteStat (by omega) hl, ih hxs _ _ _ _ _ (by omega), Nat.add_right_comm,
      Nat.add_assoc]
    rfl

/-- One element more of a row, with the flags so far (04 R105). -/
def statStep (a : RowEntry × Flags) (l : Lane) : RowEntry × Flags := ((statAdd a.1 l).1, a.2.or (statAdd a.1 l).2)

theorem statRow_init_fst (e : RowEntry) (xs : List Lane) :
    (statRow e true xs).1 = xs.foldl (fun e l => (statAdd e l).1) (finiteStat nan32 nan32 0 {} {}) :=
  (List.foldl_hom (g₁ := statStep) Prod.fst fun _ _ => rfl).symm

/-! ## A row of one value (04 R106) -/

/-- Settles O18: a row whose extremes are one value and that holds no NaN is flat, and a flat row fixes its mean, its
variance and its normalised positions. -/
theorem constantRow : Obligations.ConstantRow := by
  intro mx mn n sum sq dev mean pi ni xs eps l hsame e
  have hflat : flatRow mx mn false = true := hsame
  refine ⟨?mean, ?var, ?dev, ?norm⟩
  case mean =>
    rintro rfl
    simp [statGet, meanOf, devRow, e, hflat]
  case var =>
    have hvar : varOf e = .zero := by simp [varOf, e, hflat]
    calc statGet .var e = rne32 .zero := congrArg rne32 hvar
      _ = (0, {}) := by decide
  case dev =>
    cases mean with
    | none => exact ⟨some mx, by simp [devRow, meanOf, e, hflat]⟩
    | some mu => exact ⟨some mu, by simp [devRow, e, hflat]⟩
  case norm => simp [normLn, e, hflat, noFlags]

/-! ## Words -/

section
variable {s : State} {h : Hdr} {w : Instr} {c cd cb : Fin 4} {n : Num7} {se vd : Fin 32} {q : Stat} {init : Bool}
  {opc : Nat} {cs : List (Fin 4)} {other : Fin 128 → List Ext} {fn : RowEntry → Lane → Lane → Lane × Flags}

theorem effRstatP1_holding : effRstatP1 h c n init (s.holding h.sp w) = effRstatP1 h c n init s := by
  simp [effRstatP1, effRow, mkEff]

theorem effRstatP2_holding : effRstatP2 h c n (s.holding h.sp w) = effRstatP2 h c n s := by
  simp [effRstatP2, effRow, mkEff]

theorem effRstatGet_holding : effRstatGet h vd q (s.holding h.sp w) = effRstatGet h vd q s := by
  simp [effRstatGet, effRow, mkEff]

theorem effNorm_holding : effNorm h opc fn cd c n se (s.holding h.sp w) = effNorm h opc fn cd c n se s := by
  simp [effNorm, effRow, mkEff]

theorem effRowSum_holding : effRowSum h opc vd cs c other n (s.holding h.sp w) = effRowSum h opc vd cs c other n s := by
  simp [effRowSum, effRow, mkEff]

theorem effRdot_holding : effRdot h vd c cb n (s.holding h.sp w) = effRdot h vd c cb n s := by
  simp [effRdot, effRowSum_holding]

section
variable (hi : s.issues h) (hq : queueStall (s.sp h.sp).clk (s.sp h.sp).rq = [])
include hi hq

theorem rstatGet_runs (hwaw : (s.sp h.sp).wawRow vd = [])
    (hmode : ∀ i, RowEntry.isStat ((s.sp h.sp).rows.get i) = true) :
    ∃ (v : VReg) (fl : Flags), exec (.rstatGet h vd q) s = .next (s.rowWaits h.sp [] 1 20 [.v vd v] fl) ∧
      ∀ i, v.get i = (statGet q ((s.sp h.sp).rows.get i)).1 :=
  ⟨_, _, effRow_runs_unread hi rfl effRstatGet_holding (by simp) (by simp [modeRaise_eq_nil, hmode]) hwaw hq,
    fun i => by rw [lanesOf_get, get_vecOf]⟩

variable (hpos : 1 ≤ count7 (s.sp h.sp) n) (hmax : count7 (s.sp h.sp) n ≤ 128)
include hpos hmax

/-- A row sum adds what each row of a tile gives with the other factors to the lanes of a register (04 R110). -/
theorem rowSum_runs (hx : exec w s = .next (presentWord effOf w h.sp s))
    (hw : effOf w (s.holding h.sp w) = effRowSum h opc vd cs c other n s)
    (hneed : (s.sp h.sp).needS (num7Regs n) = []) (htile : (s.sp h.sp).needTile cs = [])
    (htag : ∀ c ∈ cs, ((s.sp h.sp).tile.get c).tag = .fp) (hvd : (s.sp h.sp).needV [vd] = [])
    (hwaw : (s.sp h.sp).wawRow vd = []) :
    ∃ (v : VReg) (fl : Flags), exec w s = .next (s.rowWaits h.sp [] 128 150 [.v vd v] fl) ∧
      ∀ i, v.get i = (rowSum (((s.sp h.sp).v.get vd).get i)
        ((tileCols ((s.sp h.sp).tile.get c) i (count7 (s.sp h.sp) n)).map f32) (other i)).1 :=
  ⟨_, _, effRow_runs_unread hi hx hw (by simp)
    (by simp [countRaise_eq_nil.mpr ⟨hpos, hmax⟩, fpRaise_eq_nil.mpr htag])
    (by simp only [hneed, htile, hvd, hwaw, List.append_nil]) hq, fun i => by rw [lanesOf_get, get_vecOf]⟩

variable (htile : (s.sp h.sp).needTile [c] = []) (htag : ((s.sp h.sp).tile.get c).tag = .fp)
include htile htag

theorem rstatP1_runs (hneed : (s.sp h.sp).needS (num7Regs n) = []) :
    ∃ (file : Vector RowEntry 128) (fl : Flags),
      exec (.rstatP1 h c n true) s = .next (s.rowWaits h.sp [] 128 152 [.rowFile file] fl) ∧
      ∀ i, file.get i = (statRow ((s.sp h.sp).rows.get i) true
        (tileCols ((s.sp h.sp).tile.get c) i (count7 (s.sp h.sp) n))).1 :=
  ⟨_, _, effRow_runs_unread hi rfl effRstatP1_holding (by simp)
    (by simp [countRaise_eq_nil.mpr ⟨hpos, hmax⟩, fpRaise_eq_nil, htag])
    (List.append_eq_nil_iff.mpr ⟨hneed, htile⟩) hq, fun i => by rw [get_vecOf, get_vecOf]⟩

variable (hmode : ∀ i, RowEntry.isStat ((s.sp h.sp).rows.get i) = true)
include hmode

theorem rstatP2_runs (hneed : (s.sp h.sp).needS (num7Regs n) = []) :
    ∃ (file : Vector RowEntry 128) (fl : Flags),
      exec (.rstatP2 h c n) s = .next (s.rowWaits h.sp [] 128 152 [.rowFile file] fl) ∧
      ∀ i, file.get i = (devRow ((s.sp h.sp).rows.get i)
        (tileCols ((s.sp h.sp).tile.get c) i (count7 (s.sp h.sp) n))).1 :=
  ⟨_, _, effRow_runs_unread hi rfl effRstatP2_holding (by simp)
    (by simp [countRaise_eq_nil.mpr ⟨hpos, hmax⟩, fpRaise_eq_nil, htag, modeRaise_eq_nil, hmode])
    (List.append_eq_nil_iff.mpr ⟨hneed, htile⟩) hq, fun i => by rw [get_vecOf, get_vecOf]⟩

/-- A normalisation works on the first columns of a tile and keeps the others of its destination (04 R108). -/
theorem norm_runs (hx : exec w s = .next (presentWord effOf w h.sp s))
    (hw : ∀ t, effOf w t = effNorm h opc fn cd c n se t) (hneed : (s.sp h.sp).needS (se :: num7Regs n) = [])
    (hfree : (s.sp h.sp).freeTile cd = []) :
    ∃ (t : Tile) (fl : Flags), exec w s = .next (s.rowWaits h.sp [] 128 166 [.tile cd t] fl) ∧ t.tag = .fp ∧
      ∀ i j : Fin 128, (t.rows.get i).get j =
        if j.val < count7 (s.sp h.sp) n then (fn ((s.sp h.sp).rows.get i) (((s.sp h.sp).rs se).setWidth 32)
          ((((s.sp h.sp).tile.get c).rows.get i).get j)).1
        else (((s.sp h.sp).tile.get cd).rows.get i).get j := by
  refine ⟨_, _, effRow_runs_unread hi hx ((hw _).trans effNorm_holding) (by simp)
    (by simp [countRaise_eq_nil.mpr ⟨hpos, hmax⟩, fpRaise_eq_nil, htag, modeRaise_eq_nil, hmode])
    (by simp only [hneed, htile, hfree, List.append_nil]) hq, rfl, fun i j => ?_⟩
  rw [get_vecOf, lanesOf_get, get_vecOf, get_vecOf]
  exact apply_ite Prod.fst _ _ _

end
end

/-- Settles O17: each word enters the queue with the rows of its function, and a fresh entry after finite elements holds
their extremes, their count and their sums. -/
theorem rowStatistics : Obligations.RowStatistics := by
  intro h c cd cb n se vd q s hi x k f eps elem hpos hmax hneed hneedS htile htiles hfree hvd hwaw hq htag htagb queued
  refine ⟨?p1, ?sum, ?dot, fun hmode => ⟨rstatP2_runs hi hq hpos hmax htile htag hmode hneed,
    rstatGet_runs hi hq hwaw hmode, norm_runs hi hq hpos hmax htile htag hmode rfl (fun _ => rfl) hneedS hfree,
    norm_runs hi hq hpos hmax htile htag hmode rfl (fun _ => rfl) hneedS hfree⟩⟩
  case sum => exact rowSum_runs hi hq hpos hmax rfl effRowSum_holding hneed htile (by simpa using htag) hvd hwaw
  case dot => exact rowSum_runs hi hq hpos hmax rfl effRdot_holding hneed htiles (by simpa using ⟨htag, htagb⟩) hvd hwaw
  case p1 =>
    obtain ⟨file, fl, hrun, hfile⟩ := rstatP1_runs hi hq hpos hmax htile htag hneed
    refine ⟨file, fl, hrun, fun i hfin => ?_⟩
    have hlen : (elem c i).length = k := by simpa [elem] using hmax
    rw [hfile, statRow_init_fst]
    have hfold := foldl_statAdd_finiteStat (elem c i) hfin nan32 nan32 0 {} {} (by omega)
    rw [hlen, Nat.zero_add] at hfold
    exact hfold

end Sys2Proof.Machine
end

section
/-!
PROOFS. The quantiser (05 R116 to R130; 07 R186 to R188): a word that nothing stops enters the quantiser's queue with its
result; the exponent registers; the codes and the scale bytes of a quantised row; and the words over the rows of a tile.
From these the statement O19.
-/

namespace Sys2Proof.Machine

/-! ## What a quantiser word reads of its spindle -/

@[simp] theorem holding_wawQuant (x : Spindle) (w : List Instr) (r : Fin 32) :
    ({ x with fetched := w } : Spindle).wawQuant r = x.wawQuant r := rfl

@[simp] theorem holding_rndFrom (x : Spindle) (w : List Instr) (ix : Word) :
    ({ x with fetched := w } : Spindle).rnd ix = x.rnd ix := rfl

@[simp] theorem holding_granExp (x : Spindle) (w : List Instr) (g : Gran) :
    granExp { x with fetched := w } g = granExp x g := by
  funext i j
  cases g <;> rfl

@[simp] theorem holding_granRaise (x : Spindle) (w : List Instr) (p : Fin 136) (g : Gran) :
    granRaise { x with fetched := w } p g = granRaise x p g := by cases g <;> rfl

@[simp] theorem holding_granArea (x : Spindle) (w : List Instr) (p : Fin 136) (g : Gran) :
    granArea { x with fetched := w } p g = granArea x p g := by cases g <;> rfl

@[simp] theorem holding_granReads (x : Spindle) (w : List Instr) (p : Fin 136) (g : Gran) :
    granReads { x with fetched := w } p g = granReads x p g := by cases g <;> rfl

@[simp] theorem holding_imageRaise (x : Spindle) (w : List Instr) (p : Fin 136) (ra : Fin 32) (f : Fmt) (sc : Bool)
    (n : Nat) : imageRaise { x with fetched := w } p ra f sc n = imageRaise x p ra f sc n := rfl

@[simp] theorem holding_intRaise (x : Spindle) (w : List Instr) (c : Fin 4) :
    intRaise { x with fetched := w } c = intRaise x c := rfl

@[simp] theorem holding_granStall (s : State) (p : Fin 136) (w : Instr) (g : Gran) :
    granStall (s.holding p w) p g = granStall s p g := by cases g <;> simp [granStall]

section
variable {s : State} {h : Hdr} {w : Instr} {k j : Fin 8} {rd ra vs ix va vm : Fin 32} {imm : BitVec 8} {ct cd cg : Fin 4}
  {n : Num7} {fmt : Fmt} {rm : RM} {satInf : Bool} {g : Gran} {gt : GTag} {dst : QDst}

theorem effEmov_holding : effEmov h k ra (s.holding h.sp w) = effEmov h k ra s := by
  simp [effEmov, effQuant, mkEff]

theorem effEmovs_holding : effEmovs h rd k (s.holding h.sp w) = effEmovs h rd k s := by
  simp [effEmovs, effQuant, mkEff]

theorem effEadd_holding : effEadd h k j imm (s.holding h.sp w) = effEadd h k j imm s := by
  simp [effEadd, effQuant, mkEff]

theorem effQnt_holding : effQnt h ra vs fmt rm satInf g ix (s.holding h.sp w) = effQnt h ra vs fmt rm satInf g ix s := by
  simp [effQnt, effQuant, mkEff]

theorem effQntt_holding :
    effQntt h ra ct n fmt rm satInf g ix (s.holding h.sp w) = effQntt h ra ct n fmt rm satInf g ix s := by
  simp [effQntt, effQuant, mkEff]

theorem effQexp_holding : effQexp h dst ct n fmt (s.holding h.sp w) = effQexp h dst ct n fmt s := by
  cases dst <;> simp [effQexp, effQuant, mkEff]

theorem effDqnt_holding : effDqnt h cd ra n fmt g (s.holding h.sp w) = effDqnt h cd ra n fmt g s := by
  simp [effDqnt, effQuant, mkEff]

theorem effQgrad_holding : effQgrad h cd ct cg n va fmt rm satInf g ix (s.holding h.sp w) =
    effQgrad h cd ct cg n va fmt rm satInf g ix s := by
  simp [effQgrad, effQuant, mkEff]

theorem effRsc_holding :
    effRsc h ra ct n fmt rm gt vm vs (s.holding h.sp w) = effRsc h ra ct n fmt rm gt vm vs s := by
  simp [effRsc, effQuant, mkEff]

end

/-! ## A word that enters the quantiser's queue -/

/-- The state after a word that enters the quantiser's queue (05 R131). -/
def State.quantWaits (s : State) (p : Fin 136) (reads : List (Nat × Nat × Nat)) (busy lat : Nat) (wrs : List Wr)
    (fl : Flags) : State :=
  s.ran p fun y => { y with
    qq := (s.sp p).qq ++ [{ at_ := (s.sp p).clk, busy := queueStart (s.sp p).clk (s.sp p).qq + busy
                            due := queueStart (s.sp p).clk (s.sp p).qq + lat, reads, wrs, flags := fl }] }

/-- The bobbin bytes that a quantiser instruction issued now will read, with the cycle of each read. -/
def Spindle.quantReads (x : Spindle) (reads : List (Nat × Nat × Nat)) : List (Nat × Nat × Nat) :=
  reads.map fun r => (r.1, r.2.1, queueStart x.clk x.qq + r.2.2)

/-- A word all of whose s destinations are free waits for no unit's write. -/
theorem waitS_of_all_free {e : Eff} {x : Spindle} (h : ∀ r, Dest.s r ∈ e.dests → x.freeS r) : e.waitS x = [] := by
  simp only [Eff.waitS, ite_eq_right_iff, List.any_eq_true]
  rintro ⟨d, hd, hs⟩
  cases d with
  | s r => rcases h r hd with hr | hr <;> simp_all
  | _ => simp at hs

/-- A quantiser word that nothing stops. -/
theorem effQuant_runs {s : State} {h : Hdr} {w : Instr} {opc busy lat : Nat} {enc : Option Nat} {dests : List Dest}
    {exc : List Raise} {stall : List Stall} {reads : List (Nat × Nat × Nat)} {wrs : List Wr} {fl : Flags}
    (hi : s.issues h) (hx : exec w s = .next (presentWord effOf w h.sp s))
    (hw : effOf w (s.holding h.sp w) = effQuant h opc busy lat enc dests exc stall reads wrs fl s)
    (hd : ∀ r, Dest.s r ∈ dests → (s.sp h.sp).freeS r) (henc : enc = none) (hexc : exc = []) (hst : stall = [])
    (hq : queueStall (s.sp h.sp).clk (s.sp h.sp).qq = []) :
    exec w s = .next (s.quantWaits h.sp ((s.sp h.sp).quantReads reads) busy lat wrs fl) := by
  refine word_runs hi hx hw rfl rfl henc hexc (by simp [effQuant, hst, hq]) (waitS_of_all_free hd) fun t ht => ?_
  simp [effQuant, Act.perform, ht, Spindle.advance, Spindle.count, Spindle.quantReads]

/-- A quantiser word that reads no bobbin bytes. -/
theorem effQuant_runs_unread {s : State} {h : Hdr} {w : Instr} {opc busy lat : Nat} {enc : Option Nat}
    {dests : List Dest} {exc : List Raise} {stall : List Stall} {wrs : List Wr} {fl : Flags} (hi : s.issues h)
    (hx : exec w s = .next (presentWord effOf w h.sp s))
    (hw : effOf w (s.holding h.sp w) = effQuant h opc busy lat enc dests exc stall [] wrs fl s)
    (hd : ∀ r, Dest.s r ∈ dests → (s.sp h.sp).freeS r) (henc : enc = none) (hexc : exc = []) (hst : stall = [])
    (hq : queueStall (s.sp h.sp).clk (s.sp h.sp).qq = []) :
    exec w s = .next (s.quantWaits h.sp [] busy lat wrs fl) :=
  effQuant_runs hi hx hw hd henc hexc hst hq

/-! ## The exponent registers (05 R116, R117) -/

theorem expOf_toNat {b : Byte} (h : b ≠ 0x80) : expOf b.toNat = some b.toInt := by
  have hlt : b.toNat < 256 := b.isLt
  have hb : b.toNat % 256 = b.toNat := Nat.mod_eq_of_lt hlt
  have hne : b.toNat ≠ 128 := fun hb => h (BitVec.eq_of_toNat_eq hb)
  have hval : Sys2Proof.signedOf 8 b.toNat = b.toInt := by
    rw [BitVec.toInt_eq_toNat_cond, Sys2Proof.signedOf]
    split_ifs <;> omega
  rw [expOf, hb, if_neg hne, hval]

/-- What `eadd` gives with its flags. -/
def expPlus (e imm : Byte) : Byte × Flags :=
  match expOf e.toNat with
  | none => (0x80, noFlags)
  | some v => (BitVec.ofInt 8 (clampTo (-127) 127 (v + imm.toInt)).1, flagOF.when (clampTo (-127) 127 (v + imm.toInt)).2)

theorem effEadd_eq (h : Hdr) (k j : Fin 8) (imm : BitVec 8) (s : State) : effEadd h k j imm s =
    effQuant h 0x22 1 2 none [.e k] [] ((s.sp h.sp).needE [j]) [] [.e k (expPlus ((s.sp h.sp).e.get j) imm).1]
      (expPlus ((s.sp h.sp).e.get j) imm).2 s := rfl

theorem expPlus_nan {e imm : Byte} (h : e = 0x80) : expPlus e imm = (0x80, {}) := by
  rw [h]
  rfl

section
variable {e imm : Byte} (h : e ≠ 0x80)
include h

theorem expPlus_low (hlow : e.toInt + imm.toInt < -127) : expPlus e imm = (0x81, { ovf := true }) := by
  simp only [expPlus, expOf_toNat h, clampTo, if_pos hlow]
  rfl

theorem expPlus_high (hhigh : 127 < e.toInt + imm.toInt) : expPlus e imm = (0x7F, { ovf := true }) := by
  have hlow : ¬e.toInt + imm.toInt < -127 := by omega
  simp only [expPlus, expOf_toNat h, clampTo, if_neg hlow, if_pos hhigh]
  rfl

theorem expPlus_within (hlow : ¬e.toInt + imm.toInt < -127) (hhigh : ¬127 < e.toInt + imm.toInt) :
    expPlus e imm = (e + imm, {}) := by
  simp only [expPlus, expOf_toNat h, clampTo, if_neg hlow, if_neg hhigh, BitVec.ofInt_add, BitVec.ofInt_toInt]
  rfl

end

section
variable {s : State} {h : Hdr} {k j : Fin 8} {rd ra : Fin 32} {imm : BitVec 8} (hi : s.issues h)
  (hq : queueStall (s.sp h.sp).clk (s.sp h.sp).qq = [])
include hi hq

theorem emov_runs (hra : (s.sp h.sp).needS [ra] = []) :
    exec (.emov h k ra) s = .next (s.quantWaits h.sp [] 1 2 [.e k (((s.sp h.sp).rs ra).setWidth 8)] {}) :=
  effQuant_runs_unread hi rfl effEmov_holding (by simp) rfl rfl hra hq

theorem emovs_runs (hk : (s.sp h.sp).needE [k] = []) (hrd : (s.sp h.sp).freeS rd) :
    exec (.emovs h rd k) s = .next (s.quantWaits h.sp [] 1 2 [.s rd (((s.sp h.sp).e.get k).signExtend 64)] {}) :=
  effQuant_runs_unread hi rfl effEmovs_holding (by simpa using hrd) rfl rfl hk hq

theorem eadd_runs (hj : (s.sp h.sp).needE [j] = []) :
    exec (.eadd h k j imm) s = .next (s.quantWaits h.sp [] 1 2 [.e k (expPlus ((s.sp h.sp).e.get j) imm).1]
      (expPlus ((s.sp h.sp).e.get j) imm).2) :=
  effQuant_runs_unread hi rfl (effEadd_holding.trans (effEadd_eq ..)) (by simp) rfl rfl hj hq

end

/-! ## Lists over the rows and the columns of a tile -/

theorem getD_map_finRange {α : Type} {n : Nat} (f : Fin n → α) (i : Fin n) (d : α) :
    ((List.finRange n).map f).getD i.val d = f i := by
  simp [List.getD_eq_getElem?_getD]

theorem getD_map_take_finRange {α : Type} {n k : Nat} (f : Fin n → α) {i : Fin n} (hi : i.val < k) (d : α) :
    (((List.finRange n).take k).map f).getD i.val d = f i := by
  simp [List.getD_eq_getElem?_getD, hi]

theorem getD_cellsRead (m : List Host.Cell) (o : Nat) {n i : Nat} (hi : i < n) (d : Byte) :
    (cellsRead m o n).getD i d = cellGet m (o + i) := by
  simp [cellsRead, hi]

/-! ## A quantised element and a quantised row (05 R118, R120, R121) -/

/-- An element with its exponent is scaled and rounded once; under a NaN exponent its code is 0. -/
theorem quantElem_fst (f : Fmt) (satInf : Bool) (rm : RM) (r : Nat) (e : Option Int) (l : Lane) :
    (quantElem f satInf rm r e l).1 =
      match e with
      | none => 0
      | some e => (encode f satInf rm r ((f32 l).scale (-e))).1 := by
  cases e <;> rfl

theorem dequantElem_fst (f : Fmt) (e : Option Int) (c : Nat) :
    (dequantElem f e c).1 =
      match e with
      | none => 0x7FC00000
      | some e => (rne32 ((decode f c).scale e)).1 := by
  cases e <;> rfl

theorem scale_isInf (x : Ext) (k : Int) : (x.scale k).isInf = x.isInf := by cases x <;> rfl

/-- The gradient passes where the quantised element did not saturate (05 R126). -/
theorem gradElem_fst (f : Fmt) (satInf : Bool) (rm : RM) (r : Nat) (e : Int) (l gl : Lane) :
    (gradElem f satInf rm r (some e) l gl).1 =
      if (f32 l).isInf = true ∨ (encode f satInf rm r ((f32 l).scale (-e))).2.ovf = true then 0 else gl := by
  simp [gradElem, scale_isInf]

section
variable {f : Fmt} {satInf : Bool} {rm : RM} {rnd : Nat → Nat} {g : Gran} {area : List Byte}
  {exps : Fin 128 → Option Int} {i : Nat} {row : VReg}

theorem quantRow_length : (quantRow f satInf rm rnd g area exps i row).1.length = 128 := by simp [quantRow]

theorem quantRow_code (j : Fin 128) : (quantRow f satInf rm rnd g area exps i row).1.getD j.val 0 =
    match (if granBlocks g then expOfE8 ((quantRow f satInf rm rnd g area exps i row).2.1.getD (j.val / 32) 0)
      else exps j) with
    | none => 0
    | some e => (encode f satInf rm (rnd j.val) ((f32 (row.get j)).scale (-e))).1 := by
  have hfst (l : List (Nat × Flags)) (b : Nat) : (l.map (·.1)).getD b 0 = (l.getD b (0, noFlags)).1 :=
    List.getD_map l (0, noFlags) Prod.fst
  simp only [quantRow, hfst, getD_map_finRange, quantElem_fst]

theorem quantRow_scale_blk (hg : g = .blk) (j : Fin 128) :
    (quantRow f satInf rm rnd g area exps i row).2.1.getD (j.val / 32) 0 =
      (blockScale f (((row.toList.drop (32 * (j.val / 32))).take 32).map f32)).1 := by
  subst hg
  have hj : j.val / 32 < 4 := by omega
  simp [quantRow, hj]

theorem quantRow_scale_blks {sb : Fin 32} (hg : g = .blks sb) (j : Fin 128) :
    (quantRow f satInf rm rnd g area exps i row).2.1.getD (j.val / 32) 0 =
      (area.getD (4 * i + j.val / 32) 0).toNat := by
  subst hg
  have hj : j.val / 32 < 4 := by omega
  simp [quantRow, hj]

end

/-! ## Checks that raise nothing -/

theorem quantFmt_ne_rsv {f : Fmt} (h : quantFmt f = true) : (f == .rsv) = false := by
  cases f with
  | rsv => cases h
  | _ => rfl

/-- A hank image that starts in the spindle's own bobbin and ends in it (05 R121; 07 R187). -/
theorem imageRaise_eq_nil {x : Spindle} {p : Fin 136} {ra : Fin 32} {f : Fmt} {scaled : Bool} {n : Nat}
    (hbase : bobbinBase p ≤ (x.rs ra).toNat)
    (hrows : (x.rs ra).toNat - bobbinBase p + n * hankPitch f ≤ 0x100000) (halign : (x.rs ra).toNat % 16 = 0)
    (hscales : scaled = true → (x.rs ra).toNat - bobbinBase p + hankBytes f + 512 ≤ 0x100000) :
    imageRaise x p ra f scaled n = [] := by
  have hranges : rangesRaise (imageRanges (offOf x p ra) f scaled n) = [] := by
    cases scaled with
    | false => simp [rangesRaise_eq_nil, imageRanges, offOf, hrows]
    | true => simp [rangesRaise_eq_nil, imageRanges, offOf, hrows, hscales]
  simp [imageRaise, hbase, hranges, raiseIf_eq_nil, halign]

/-- The scale byte of element (`i`, `j`) in the 512 bytes from `o` on (05 R120). -/
theorem cellsRead_scale (m : List Host.Cell) (o : Nat) (i j : Fin 128) (d : Byte) :
    (cellsRead m o 512).getD (4 * i.val + j.val / 32) d = cellGet m (o + 4 * i.val + j.val / 32) := by
  rw [getD_cellsRead _ _ (by omega), Nat.add_assoc]

/-- The bobbin offset of the scale bytes that `dqnt` reads: behind the image, or in an area of their own (05 R120). -/
def scaleArea (x : Spindle) (p : Fin 136) (ra : Fin 32) (f : Fmt) (g : Gran) : Nat :=
  match g with
  | .blk => offOf x p ra + hankBytes f
  | .blks sb => (x.rs sb).toNat - bobbinBase p
  | _ => 0

theorem scaleArea_byte {x : Spindle} {p : Fin 136} {ra : Fin 32} {f : Fmt} {g : Gran} (hg : granBlocks g = true)
    (i j : Fin 128) :
    (if (g == .blk) = true then cellsRead x.bobbin (offOf x p ra + hankBytes f) 512 else granArea x p g).getD
      (4 * i.val + j.val / 32) 0 = cellGet x.bobbin (scaleArea x p ra f g + 4 * i.val + j.val / 32) := by
  cases g with
  | blk => rw [if_pos (beq_self_eq_true _), cellsRead_scale, scaleArea]
  | blks sb => rw [if_neg (by simp), granArea, cellsRead_scale, scaleArea]
  | _ => cases hg

/-- The lane of the multipliers and the shifts for element (`i`, `j`) (05 R129). -/
def rscLane (gt : GTag) (i j : Fin 128) : Fin 128 :=
  match gt with
  | .col => j
  | .row => i
  | _ => 0

/-- The exact values of row `i` of a tile. -/
def Tile.exactRow (t : Tile) (i : Nat) : List Ext := ((t.rows.toList.getD i (rep 128 0)).toList).map f32

/-- The checks of `qexp` (05 R122; 07 R187). -/
theorem qexpRaises_eq_nil {x : Spindle} {k : Nat} {f : Fmt} {dst : QDst} {c : Fin 4} (hpos : 1 ≤ k) (hmax : k ≤ 128)
    (hfmt : expFmt f = true) (hdst : qdstBlocks dst = false) (htag : (x.tile.get c).tag = .fp) :
    countRaise k ++ raiseIf (!expFmt f) .format 0x01 ++ raiseIf (qdstBlocks dst) .format 0x02 ++ fpRaise x [c] = [] := by
  simp [countRaise_eq_nil.mpr ⟨hpos, hmax⟩, raiseIf_eq_nil, hfmt, hdst, fpRaise_eq_nil, htag]

/-- The writes of an image without scale bytes: the packed codes of its rows. -/
theorem imageWrites_unscaled (o : Nat) (f : Fmt) (rows : List (List (Nat × Flags))) :
    imageWrites o f false (rows.map fun r => (r.map (·.1), [])) =
      [.mem o ((rows.map fun r => r.map (·.1)).flatMap (packBytes (fmtWidth f)))] := by
  simp [imageWrites, List.flatMap_map]

/-! ## Words -/

section
variable {s : State} {h : Hdr} {ra vs ix va vm : Fin 32} {ct cd cg : Fin 4} {n : Num7} {fmt : Fmt} {rm : RM}
  {satInf : Bool} {g : Gran} {gt : GTag} (hi : s.issues h) (hq : queueStall (s.sp h.sp).clk (s.sp h.sp).qq = [])
include hi hq

/-- `qnt` packs the codes of a register from the bobbin address on (05 R121). -/
theorem qnt_runs (hown : ownBobbin h.sp ((s.sp h.sp).rs ra).toNat (16 * fmtWidth fmt) = true)
    (halign : ((s.sp h.sp).rs ra).toNat % 16 = 0) (hfmt : quantFmt fmt = true) (hblocks : granBlocks g = false)
    (hrm : rm ≠ .rha) (hix : rm = .sr ∨ ix = 0) (hneed : (s.sp h.sp).needS [ra, ix] = [])
    (hvs : (s.sp h.sp).needV [vs] = []) (hgran : granStall s h.sp g = [])
    (hwrite : writeStall s h.sp (((s.sp h.sp).rs ra).toNat - bobbinBase h.sp) (16 * fmtWidth fmt) = []) :
    ∃ (codes : List Nat) (fl : Flags),
      exec (.qnt h ra vs fmt rm satInf g ix) s = .next (s.quantWaits h.sp [] 1 6
        [.mem (((s.sp h.sp).rs ra).toNat - bobbinBase h.sp) (packBytes (fmtWidth fmt) codes)] fl) ∧
      codes.length = 128 ∧ ∀ j : Fin 128, codes.getD j.val 0 =
        match granExp (s.sp h.sp) g 0 j with
        | none => 0
        | some e => (encode fmt satInf rm ((s.sp h.sp).rnd ((s.sp h.sp).rs ix) j.val)
            ((f32 (((s.sp h.sp).v.get vs).get j)).scale (-e))).1 := by
  refine ⟨_, _, effQuant_runs_unread hi rfl effQnt_holding (by simp) (indexEnc_eq_none hix) ?_ ?_ hq, quantRow_length,
    fun j => ?_⟩
  · simp [bobbinRaise_eq_nil hown halign, raiseIf_eq_nil, hfmt, hblocks, quantFmt_ne_rsv hfmt, hrm]
  · simpa [hneed, hvs, hblocks, hgran, offOf] using hwrite
  · rw [quantRow_code, hblocks]
    rfl

variable (hpos : 1 ≤ count7 (s.sp h.sp) n) (hmax : count7 (s.sp h.sp) n ≤ 128)
include hpos hmax

/-- `qntt` stores the codes and, where scaled, the scale bytes of the first rows of a tile (05 R121). -/
theorem qntt_runs (himage : imageRaise (s.sp h.sp) h.sp ra fmt (granBlocks g) (count7 (s.sp h.sp) n) = [])
    (hgr : granRaise (s.sp h.sp) h.sp g = []) (hscalable : granBlocks g = true → fmtScalable fmt = true)
    (hfmt : quantFmt fmt = true) (hrm : rm ≠ .rha) (hix : rm = .sr ∨ ix = 0)
    (htag : ((s.sp h.sp).tile.get ct).tag = .fp) (hneed : (s.sp h.sp).needS (ra :: ix :: num7Regs n) = [])
    (htile : (s.sp h.sp).needTile [ct] = []) (hgran : granStall s h.sp g = [])
    (hwrite : ∀ r ∈ imageRanges (offOf (s.sp h.sp) h.sp ra) fmt (granBlocks g) (count7 (s.sp h.sp) n),
      writeStall s h.sp r.1 r.2 = []) :
    ∃ (codes : List (List Nat × List Nat)) (reads : List (Nat × Nat × Nat)) (fl : Flags),
      exec (.qntt h ra ct n fmt rm satInf g ix) s = .next (s.quantWaits h.sp reads 128 140
        (imageWrites (offOf (s.sp h.sp) h.sp ra) fmt (granBlocks g) codes) fl) ∧
      codes.length = count7 (s.sp h.sp) n ∧ ∀ i : Fin 128, i.val < count7 (s.sp h.sp) n →
        let row := quantRow fmt satInf rm (fun j => (s.sp h.sp).rnd ((s.sp h.sp).rs ix) (128 * i.val + j)) g
          (granArea (s.sp h.sp) h.sp g) (granExp (s.sp h.sp) g i) i.val (((s.sp h.sp).tile.get ct).rows.get i)
        codes.getD i.val ([], []) = (row.1, row.2.1) := by
  refine ⟨_, _, _, effQuant_runs hi rfl effQntt_holding (by simp) (indexEnc_eq_none hix) ?_ ?_ hq, ?_, fun i hk => ?_⟩
  · simpa [countRaise_eq_nil.mpr ⟨hpos, hmax⟩, himage, hgr, fpRaise_eq_nil, raiseIf_eq_nil, hfmt, quantFmt_ne_rsv hfmt,
      hrm, htag] using hscalable
  · simp only [hneed, htile, hgran, List.flatMap_eq_nil_iff.mpr hwrite, List.append_nil]
  · simpa using hmax
  · rw [List.map_map, getD_map_take_finRange _ hk]
    rfl

/-- `dqnt` gives the first rows of a tile the codes of a hank image times their scales, and +0 to the others
(05 R124). -/
theorem dqnt_runs (himage : imageRaise (s.sp h.sp) h.sp ra fmt (g == .blk) (count7 (s.sp h.sp) n) = [])
    (hgr : granRaise (s.sp h.sp) h.sp g = []) (hscalable : granBlocks g = true → fmtScalable fmt = true)
    (hfmt : quantFmt fmt = true) (hneed : (s.sp h.sp).needS (ra :: num7Regs n) = [])
    (hfree : (s.sp h.sp).freeTile cd = []) (hgran : granStall s h.sp g = [])
    (hread : ∀ r ∈ imageRanges (offOf (s.sp h.sp) h.sp ra) fmt (g == .blk) (count7 (s.sp h.sp) n),
      readStall s h.sp r.1 r.2 = []) :
    ∃ (t : Tile) (fl : Flags) (reads : List (Nat × Nat × Nat)),
      exec (.dqnt h cd ra n fmt g) s = .next (s.quantWaits h.sp reads 128 136 [.tile cd t] fl) ∧ t.tag = .fp ∧
      ∀ i j : Fin 128, (t.rows.get i).get j =
        if count7 (s.sp h.sp) n ≤ i.val then 0
        else (dequantElem fmt
          (if granBlocks g then expOfE8 (cellGet (s.sp h.sp).bobbin
            (scaleArea (s.sp h.sp) h.sp ra fmt g + 4 * i.val + j.val / 32)).toNat
          else granExp (s.sp h.sp) g i j)
          ((elems (fmtWidth fmt) 128 (cellsRead (s.sp h.sp).bobbin
            (offOf (s.sp h.sp) h.sp ra + i.val * hankPitch fmt) (hankPitch fmt))).getD j.val 0)).1 := by
  refine ⟨_, _, _, effQuant_runs hi rfl effDqnt_holding (by simp) rfl ?_ ?_ hq, rfl, fun i j => ?_⟩
  · simpa [countRaise_eq_nil.mpr ⟨hpos, hmax⟩, himage, hgr, quantRaise, raiseIf_eq_nil, hfmt, quantFmt_ne_rsv hfmt]
      using hscalable
  · simp only [hneed, hgran, hfree, List.flatMap_eq_nil_iff.mpr hread, List.append_nil]
  · rw [get_vecOf, lanesOf_get, get_vecOf]
    by_cases hk : i.val < count7 (s.sp h.sp) n
    · rw [if_pos hk, if_neg (Nat.not_le.mpr hk), get_vecOf]
      by_cases hg : granBlocks g = true
      · rw [if_pos hg, if_pos hg, scaleArea_byte hg]
      · rw [if_neg hg, if_neg hg]
    · rw [if_neg hk, if_pos (Nat.not_lt.mp hk), get_rep]

/-- `rsc` stores the rescaled codes of the first rows of an INT tile (05 R129). -/
theorem rsc_runs (himage : imageRaise (s.sp h.sp) h.sp ra fmt false (count7 (s.sp h.sp) n) = [])
    (hfmt : fmt = .i8 ∨ fmt = .u8 ∨ fmt = .i4) (hrm : rm = .rne ∨ rm = .rha) (hblocks : gtagBlocks gt = false)
    (htag : ((s.sp h.sp).tile.get ct).tag = .int) (hneed : (s.sp h.sp).needS (ra :: num7Regs n) = [])
    (htile : (s.sp h.sp).needTile [ct] = []) (hv : (s.sp h.sp).needV [vm, vs] = [])
    (hwrite : writeStall s h.sp (offOf (s.sp h.sp) h.sp ra) (count7 (s.sp h.sp) n * hankPitch fmt) = []) :
    ∃ (codes : List (List Nat)) (fl : Flags),
      exec (.rsc h ra ct n fmt rm gt vm vs) s = .next (s.quantWaits h.sp [] 128 140
        [.mem (offOf (s.sp h.sp) h.sp ra) (codes.flatMap (packBytes (fmtWidth fmt)))] fl) ∧
      codes.length = count7 (s.sp h.sp) n ∧ ∀ i j : Fin 128, i.val < count7 (s.sp h.sp) n →
        (codes.getD i.val []).getD j.val 0 =
          (rescale fmt (rm == .rha) ((((s.sp h.sp).tile.get ct).rows.get i).get j)
            (((s.sp h.sp).v.get vm).get (rscLane gt i j)) (((s.sp h.sp).v.get vs).get (rscLane gt i j))).1 := by
  have hrun := effQuant_runs_unread (w := .rsc h ra ct n fmt rm gt vm vs) hi rfl effRsc_holding (by simp) rfl ?exc ?stall
    hq
  case exc =>
    have hrsv : (fmt == .rsv) = false := by rcases hfmt with rfl | rfl | rfl <;> rfl
    have hlisted : (fmt == .i8 || fmt == .u8 || fmt == .i4) = true := by simpa [or_assoc] using hfmt
    have hmode : (rm == .rtz || rm == .sr) = false := by rcases hrm with rfl | rfl <;> rfl
    simp [countRaise_eq_nil.mpr ⟨hpos, hmax⟩, himage, raiseIf_eq_nil, hrsv, hlisted, hblocks, hmode, intRaise, htag]
  case stall =>
    simp [hneed, htile, hv, imageRanges, hwrite]
  rw [imageWrites_unscaled] at hrun
  refine ⟨_, _, hrun, ?_, fun i j hk => ?_⟩
  · simpa using hmax
  · rw [List.map_map, getD_map_take_finRange _ hk, Function.comp_apply, List.map_map, getD_map_finRange]
    cases gt <;> rfl

/-- `qgrad` passes the gradient of the first rows and adds to the lanes of the exponents' gradient (05 R126). -/
theorem qgrad_runs (hfmt : quantFmt fmt = true) (hblocks : granBlocks g = false) (hgran : granStall s h.sp g = [])
    (hrm : rm ≠ .rha) (hix : rm = .sr ∨ ix = 0) (htag : ((s.sp h.sp).tile.get ct).tag = .fp)
    (htag' : ((s.sp h.sp).tile.get cg).tag = .fp) (hneed : (s.sp h.sp).needS (ix :: num7Regs n) = [])
    (htile : (s.sp h.sp).needTile [ct, cg] = []) (hfree : (s.sp h.sp).freeTile cd = [])
    (hva : (s.sp h.sp).needV [va] = []) (hwaw : (s.sp h.sp).wawQuant va = []) :
    ∃ (t : Tile) (v : VReg) (fl : Flags),
      exec (.qgrad h cd ct cg n va fmt rm satInf g ix) s =
        .next (s.quantWaits h.sp [] 128 156 [.tile cd t, .v va v] fl) ∧ t.tag = .fp ∧
      ∀ i j : Fin 128, (t.rows.get i).get j =
        if i.val < count7 (s.sp h.sp) n then
          (gradElem fmt satInf rm ((s.sp h.sp).rnd ((s.sp h.sp).rs ix) (128 * i.val + j.val)) (granExp (s.sp h.sp) g i j)
            ((((s.sp h.sp).tile.get ct).rows.get i).get j) ((((s.sp h.sp).tile.get cg).rows.get i).get j)).1
        else (((s.sp h.sp).tile.get cd).rows.get i).get j := by
  refine ⟨_, _, _, effQuant_runs_unread hi rfl effQgrad_holding (by simp) (indexEnc_eq_none hix) ?_ ?_ hq, rfl,
    fun i j => ?_⟩
  · simp [countRaise_eq_nil.mpr ⟨hpos, hmax⟩, raiseIf_eq_nil, fpRaise_eq_nil, hfmt, quantFmt_ne_rsv hfmt, hblocks, hrm,
      htag, htag']
  · simp [hneed, htile, hfree, hva, hwaw, hblocks, hgran]
  · rw [get_vecOf]
    split
    · rw [get_vecOf, get_vecOf, get_vecOf]
    · rfl

/-! ### `qexp` (05 R122) -/

section
variable (hfmt : expFmt fmt = true) (htag : ((s.sp h.sp).tile.get ct).tag = .fp)
  (hneed : (s.sp h.sp).needS (num7Regs n) = []) (htile : (s.sp h.sp).needTile [ct] = [])
include hfmt htag hneed htile

/-- A tile has one exponent. -/
theorem qexp_tensor_runs (k : Fin 8) : exec (.qexp h (.tensor k) ct n fmt) s = .next (s.quantWaits h.sp [] 128 140
    [.e k (groupByte fmt ((List.range (count7 (s.sp h.sp) n)).flatMap ((s.sp h.sp).tile.get ct).exactRow)).1]
    (groupByte fmt ((List.range (count7 (s.sp h.sp) n)).flatMap ((s.sp h.sp).tile.get ct).exactRow)).2) :=
  effQuant_runs_unread hi rfl (effQexp_holding (dst := .tensor k)) (by simp) rfl
    (qexpRaises_eq_nil hpos hmax hfmt rfl htag) (List.append_eq_nil_iff.mpr ⟨hneed, htile⟩) hq

variable (hwaw : (s.sp h.sp).wawQuant va = [])
include hwaw

/-- Each column has an exponent. -/
theorem qexp_col_runs : ∃ (v : VReg) (fl : Flags),
    exec (.qexp h (.col va) ct n fmt) s = .next (s.quantWaits h.sp [] 128 140 [.v va v] fl) ∧
    ∀ j : Fin 128, v.get j = expLane (groupByte fmt ((List.range (count7 (s.sp h.sp) n)).map fun i =>
      (((s.sp h.sp).tile.get ct).exactRow i).getD j.val .zero)).1 := by
  refine ⟨_, _, effQuant_runs_unread hi rfl (effQexp_holding (dst := .col va)) (by simp) rfl
    (qexpRaises_eq_nil (dst := .col va) hpos hmax hfmt rfl htag) ?_ hq, fun j => ?_⟩
  · simp only [hneed, htile, hwaw, List.append_nil]
  · rw [get_vecOf, get_vecOf, List.map_map]
    rfl

/-- Each of the first rows has an exponent; the lanes of the other rows stay. -/
theorem qexp_row_runs (hva : (s.sp h.sp).needV [va] = []) : ∃ (v : VReg) (fl : Flags),
    exec (.qexp h (.row va) ct n fmt) s = .next (s.quantWaits h.sp [] 128 140 [.v va v] fl) ∧
    ∀ i : Fin 128, v.get i = if i.val < count7 (s.sp h.sp) n then
      expLane (groupByte fmt (((s.sp h.sp).tile.get ct).exactRow i)).1 else ((s.sp h.sp).v.get va).get i := by
  refine ⟨_, _, effQuant_runs_unread hi rfl (effQexp_holding (dst := .row va)) (by simp) rfl
    (qexpRaises_eq_nil (dst := .row va) hpos hmax hfmt rfl htag) ?_ hq, fun i => ?_⟩
  · simp only [hneed, htile, hva, hwaw, List.append_nil]
  · rw [get_vecOf]
    by_cases hk : i.val < count7 (s.sp h.sp) n
    · rw [if_pos hk, if_pos hk, get_vecOf]
      simp [List.getD_eq_getElem?_getD, hk, Tile.exactRow]
    · rw [if_neg hk, if_neg hk]

end

end

/-- Settles O19: each word passes its checks and enters the queue; its result is that of `expPlus`, of the elements and
the scale codes of `quantRow`, of `groupByte`, `dequantElem`, `gradElem` or `rescale`. -/
theorem quantiser : Obligations.Quantiser := by
  refine ⟨?registers, ?register, ?tiles⟩
  case registers =>
    intro h k j r imm s hi x hq queued
    refine ⟨emov_runs hi hq, emovs_runs hi hq, fun hj => ?_⟩
    intro sum
    rw [eadd_runs hi hq hj]
    split_ifs with hnan hlow hhigh
    · rw [expPlus_nan hnan]
      rfl
    · rw [expPlus_low hnan hlow]
      rfl
    · rw [expPlus_high hnan hhigh]
      rfl
    · rw [expPlus_within hnan hlow hhigh]
      rfl
  case register =>
    intro h ra vs fmt rm satInf g ix s hi x a o n hown halign hfmt hblocks hrm hix hneed hvs hgran hwrite hq
    obtain ⟨codes, fl, hrun, hlen, hcode⟩ := qnt_runs (satInf := satInf) hi hq hown halign hfmt hblocks hrm hix hneed hvs
      hgran hwrite
    exact ⟨codes, fl, hrun, hlen, hcode⟩
  case tiles =>
    intro h ra ct cd cg n fmt rm satInf g gt k ix va vm vs s hi x rows a o bytes hpos hmax hneedRaIx hneedRa hneedIx hneed
      htile hq queued inside element free
    refine ⟨?qntt, ?qexp, ?dqnt, ?qgrad, ?rsc⟩
    case qntt =>
      rintro ⟨hbase, hend, halign, hscales⟩ ⟨hgran, hgr, hscalable⟩ hfmt hrm hix htag hwrite
      obtain ⟨codes, reads, fl, hrun, hlen, hrow⟩ := qntt_runs (satInf := satInf) hi hq hpos hmax
        (imageRaise_eq_nil hbase hend halign hscales) hgr hscalable hfmt hrm hix htag hneedRaIx htile hgran hwrite
      refine ⟨codes, reads, fl, hrun, hlen, fun i j hk => ?_⟩
      intro row
      have hrow : row = _ := hrow i hk
      refine ⟨fun hg => ?_, fun sb hg => ?_, ?_⟩
      · rw [hrow, quantRow_scale_blk hg]
      · rw [hrow, quantRow_scale_blks hg, hg, granArea, cellsRead_scale]
      · rw [hrow]
        exact quantRow_code (rnd := fun j => x.rnd (x.rs ix) (128 * i.val + j)) j
    case qexp =>
      intro hfmt htag group row
      exact ⟨qexp_tensor_runs hi hq hpos hmax hfmt htag hneed htile k,
        qexp_col_runs hi hq hpos hmax hfmt htag hneed htile, qexp_row_runs hi hq hpos hmax hfmt htag hneed htile⟩
    case dqnt =>
      rintro ⟨hbase, hend, halign, hscales⟩ ⟨hgran, hgr, hscalable⟩ hfmt hfree hread
      obtain ⟨t, fl, reads, hrun, htag, hget⟩ := dqnt_runs hi hq hpos hmax
        (imageRaise_eq_nil hbase hend halign hscales) hgr hscalable hfmt hneedRa hfree hgran hread
      refine ⟨t, fl, reads, hrun, htag, fun i j => ?_⟩
      intro code area
      have harea : area = scaleArea x h.sp ra fmt g := by
        cases g with
        | blk => exact if_pos rfl
        | _ => exact if_neg Gran.noConfusion
      rw [hget, dequantElem_fst, harea]
      rfl
    case qgrad =>
      intro hfmt hblocks hgran hrm hix htag htag' htiles hfree hva hwaw
      obtain ⟨t, v, fl, hrun, htt, hget⟩ := qgrad_runs (satInf := satInf) hi hq hpos hmax hfmt hblocks hgran hrm hix htag
        htag' hneedIx htiles hfree hva hwaw
      refine ⟨t, v, fl, hrun, htt, fun i j => ⟨fun hk e he => ?_, fun hk => ?_⟩⟩
      · intro r
        rw [hget, if_pos hk, he]
        exact gradElem_fst ..
      · rw [hget, if_neg (Nat.not_lt.mpr hk)]
    case rsc =>
      rintro ⟨hbase, hend, halign, hscales⟩ hfmt hrm hblocks htag hv hwrite
      obtain ⟨codes, fl, hrun, hlen, hcode⟩ := rsc_runs hi hq hpos hmax
        (imageRaise_eq_nil hbase hend halign hscales) hfmt hrm hblocks htag hneedRa htile hv hwrite
      refine ⟨codes, fl, hrun, hlen, fun i j hk => ?_⟩
      rw [hcode i j hk]
      cases gt <;> rfl

end Sys2Proof.Machine
end

section
/-!
PROOFS. Bundles (06 R137, R151 to R154): what one presented word does as its bundle is completed, held up or kept. From
these the statements O3 and O4.
-/

namespace Sys2Proof.Machine

/-! ## A command that is a word is presented to its spindle -/

section
variable {c : Instr} {h : Hdr} (hc : c.hdr = some h)
include hc

theorem exec_word (s : State) : exec c s = .next (presentWord effOf c h.sp s) := by
  cases c <;> cases hc <;> rfl

/-- A word's effect has the `E` bit of its header and is on as its predicate says (06 R137, R151). -/
theorem effOf_hdr (s : State) : (effOf c s).e = h.e ∧ (effOf c s).on = (s.sp h.sp).rp h.pred := by
  cases c
  case qexp h dst ct n fmt => cases hc; cases dst <;> exact ⟨rfl, rfl⟩
  all_goals cases hc <;> exact ⟨rfl, rfl⟩

end

/-! ## The bundle that a spindle has fetched -/

/-- The state whose spindle `p` has fetched the words `ws`. -/
def State.fetching (s : State) (p : Fin 136) (ws : List Instr) : State :=
  s.setSp p { s.sp p with fetched := ws }

@[simp] theorem State.fetching_sp (s : State) (p : Fin 136) (ws : List Instr) :
    (s.fetching p ws).sp p = { s.sp p with fetched := ws } := by simp [State.fetching]

@[simp] theorem State.fetching_serving (s : State) (p : Fin 136) (ws : List Instr) :
    (s.fetching p ws).serving = s.serving := rfl

/-- A bundle is complete with the first word that ends it (06 R137). -/
theorem splitBundle_whole {isEnd : Instr → Bool} {c : Instr} (hc : isEnd c = true) (ws : List Instr) {k : Nat}
    (hk : ws.length < k) (hws : ∀ w ∈ ws, isEnd w = false) :
    splitBundle isEnd k (ws ++ [c]) = some (ws ++ [c], [], true) := by
  induction ws generalizing k with
  | nil =>
    obtain ⟨k, rfl⟩ := Nat.exists_eq_succ_of_ne_zero (Nat.ne_of_gt hk)
    simp [splitBundle, hc]
  | cons w ws ih =>
    obtain ⟨k, rfl⟩ := Nat.exists_eq_succ_of_ne_zero (Nat.ne_of_gt (Nat.zero_lt_of_lt hk))
    obtain ⟨hw, hws⟩ := List.forall_mem_cons.mp hws
    have := ih (k := k) (by simpa using hk) hws
    simp [splitBundle, hw, this]

section
variable {y : State} {p : Fin 136} {sh : Share} {ws rest : List Instr} {whole : Bool}
  (hsplit : splitBundle (fun w => (effOf w y).e) 4 (y.sp p).fetched = some (ws, rest, whole))
  (hsh : (y.sp p).share = some sh) (hrun : sh.phase = .running) (hserv : y.serving = true)
  (hready : (y.sp p).nextIssue ≤ (y.sp p).clk)
include hsplit hsh hrun hserv hready

/-- A bundle that nothing stops issues. -/
theorem tryIssue_go {es : List Eff}
    (hj : judge (y.sp p) sh ws.length whole (ws.map fun w => effOf w y) = .go es) :
    tryIssue effOf y p = goBundle y p ws.length rest es := by
  simp [tryIssue, hsh, hrun, hserv, Nat.not_lt.mpr hready, hsplit, hj]

/-- A bundle that has to wait stays fetched and advances the counter of its stall (06 R152; 18 R511). -/
theorem tryIssue_stall {w : Stall}
    (hj : judge (y.sp p) sh ws.length whole (ws.map fun w => effOf w y) = .stall w) :
    tryIssue effOf y p = y.setSp p ((y.sp p).count w.num 1) := by
  simp [tryIssue, hsh, hrun, hserv, Nat.not_lt.mpr hready, hsplit, hj]

end

/-- A bundle of one to four words that its last word completes, on a running share whose spindle may issue (06 R152). -/
structure Completes (s : State) (h : Hdr) (sh : Share) (ws : List Instr) (c : Instr) : Prop where
  share : (s.sp h.sp).share = some sh
  running : sh.phase = .running
  serving : s.serving = true
  ready : (s.sp h.sp).nextIssue ≤ (s.sp h.sp).clk
  fetched : (s.sp h.sp).fetched = ws
  last : c.hdr = some h
  ends : h.e = true
  short : ws.length ≤ 3
  more : ∀ w ∈ ws, ∃ k : Hdr, w.hdr = some k ∧ k.sp = h.sp ∧ k.e = false

section
variable {s : State} {h : Hdr} {sh : Share} {ws : List Instr} {c : Instr} (hb : Completes s h sh ws c)
include hb

theorem Completes.split :
    splitBundle (fun w => (effOf w (s.fetching h.sp (ws ++ [c]))).e) 4 ((s.fetching h.sp (ws ++ [c])).sp h.sp).fetched =
      some (ws ++ [c], [], true) := by
  rw [State.fetching_sp]
  refine splitBundle_whole ((effOf_hdr hb.last _).1.trans hb.ends) ws (Nat.lt_succ_of_le hb.short) fun w hw => ?_
  obtain ⟨k, hk, -, he⟩ := hb.more w hw
  exact (effOf_hdr hk _).1.trans he

theorem Completes.exec_eq : exec c s = .next (tryIssue effOf (s.fetching h.sp (ws ++ [c])) h.sp) := by
  rw [exec_word hb.last]
  simp [presentWord, hb.share, hb.running, hb.fetched, State.fetching]

/-- A bundle that nothing stops does what its words ask for, each read from the state before it (06 R153). -/
theorem Completes.exec_go {es : List Eff}
    (hj : judge ((s.fetching h.sp (ws ++ [c])).sp h.sp) sh (ws.length + 1) true
      ((ws ++ [c]).map fun w => effOf w (s.fetching h.sp (ws ++ [c]))) = .go es) :
    exec c s = .next (goBundle (s.fetching h.sp (ws ++ [c])) h.sp (ws.length + 1) [] es) := by
  rw [hb.exec_eq, tryIssue_go hb.split (by simpa using hb.share) hb.running hb.serving (by simpa using hb.ready)
    (by simpa only [List.length_append, List.length_singleton] using hj)]
  simp

/-- A bundle that has to wait. -/
theorem Completes.exec_stall {w : Stall}
    (hj : judge ((s.fetching h.sp (ws ++ [c])).sp h.sp) sh (ws.length + 1) true
      ((ws ++ [c]).map fun w => effOf w (s.fetching h.sp (ws ++ [c]))) = .stall w) :
    exec c s = .next ((s.fetching h.sp (ws ++ [c])).setSp h.sp
      (((s.fetching h.sp (ws ++ [c])).sp h.sp).count w.num 1)) := by
  rw [hb.exec_eq, tryIssue_stall hb.split (by simpa using hb.share) hb.running hb.serving (by simpa using hb.ready)
    (by simpa only [List.length_append, List.length_singleton] using hj)]

end

/-- A word that ends its bundle, on a spindle that takes it, completes a bundle of one word. -/
theorem State.takes.completes {s : State} {h : Hdr} {c : Instr} (ht : s.takes h.sp) (hc : c.hdr = some h)
    (he : h.e = true) :
    ∃ sh, Completes s h sh [] c ∧ (s.sp h.sp).pcBytes + 8 ≤ sh.imageLen := by
  obtain ⟨sh, hsh, hrun, hserv, hf, hready, hlen⟩ := ht
  exact ⟨sh, ⟨hsh, hrun, hserv, hready, hf, hc, he, Nat.zero_le _, by simp⟩, hlen⟩

/-! ## The verdict on a bundle -/

theorem sameSlot_one (e : Eff) : sameSlot [e] = false := by simp [sameSlot]

theorem mem_bySlot {e : Eff} {es : List Eff} (h : e ∈ bySlot es) : e ∈ es := by
  obtain ⟨k, -, hk⟩ := List.mem_flatMap.mp h
  exact (List.mem_filter.mp hk).1

/-- A bundle that goes does what its words that are on ask for. -/
theorem judge_go {x : Spindle} {sh : Share} {n : Nat} {whole : Bool} {es fs : List Eff}
    (h : judge x sh n whole es = .go fs) : fs = (bySlot es).filter fun e => e.on := by
  unfold judge at h
  dsimp only at h
  split_ifs at h
  split at h
  · cases h
  split at h
  · cases h
  split at h
  · cases h
  split at h
  · cases h
  exact (Verdict.go.inj h).symm

/-- The words that are on hold their bundle up. -/
theorem stallsOf_one {e : Eff} (hon : e.on = true) (x : Spindle) : stallsOf x [e] = e.stall ++ e.waitS x := by
  simp [stallsOf, hon]

/-- A word that waits holds its bundle up. -/
theorem judge_one_stall {x : Spindle} {sh : Share} {e : Eff} {w : Stall} {ws : List Stall}
    (hlen : x.pcBytes + 8 ≤ sh.imageLen) (hst : stallsOf x [e] = w :: ws) : judge x sh 1 true [e] = .stall w := by
  simp [judge, bySlot_one, sameSlot_one, hst, Nat.not_lt.mpr hlen]

/-- A word under a predicate of 0 is checked for its encoding alone, and does nothing (06 R151). -/
theorem judge_one_off {x : Spindle} {sh : Share} {e : Eff} (hlen : x.pcBytes + 8 ≤ sh.imageLen) (hon : e.on = false)
    (henc : e.enc = none) : judge x sh 1 true [e] = .go [] := by
  simp [judge, bySlot_one, sameSlot_one, stallsOf, twoWriters, pickRaise, hon, henc, Nat.not_lt.mpr hlen]

/-! ## Words that do not act -/

section
variable {c : Instr} {h : Hdr} {s : State} (hc : c.hdr = some h) (ht : s.takes h.sp)
include hc ht

/-- A word under a predicate of 0 issues, and its spindle moves on. -/
theorem offWord_runs (he : h.e = true) (hp : (s.sp h.sp).rp h.pred = false)
    (henc : (effOf c (s.holding h.sp c)).enc = none) : exec c s = .next (s.ran h.sp id) := by
  obtain ⟨sh, hb, hlen⟩ := ht.completes hc he
  have hon : (effOf c (s.holding h.sp c)).on = false := by simp [(effOf_hdr hc _).2, hp]
  rw [hb.exec_go (judge_one_off (by simpa using hlen) hon henc)]
  simp [goBundle, State.ran, Spindle.advance, Spindle.count, State.fetching]

theorem unendedWord_waits (he : h.e = false) : exec c s = .next (s.holding h.sp c) := by
  rw [exec_word hc, presentWord_waits ht ((effOf_hdr hc _).1.trans he)]

theorem stalledWord_waits (he : h.e = true) {w : Stall} {ws : List Stall}
    (hst : stallsOf ((s.holding h.sp c).sp h.sp) [effOf c (s.holding h.sp c)] = w :: ws) :
    exec c s = .next ((s.holding h.sp c).setSp h.sp (((s.holding h.sp c).sp h.sp).count w.num 1)) := by
  obtain ⟨sh, hb, hlen⟩ := ht.completes hc he
  exact hb.exec_stall (judge_one_stall (by simpa using hlen) hst)

end

/-- Settles O3: a word that is off issues and does nothing, one that does not end its bundle is kept, one that waits stays
fetched; `add` waits for a register of which it is one of the operands. -/
theorem wordsThatDoNotAct : Obligations.WordsThatDoNotAct := by
  refine ⟨fun c h s hc ht => ⟨offWord_runs hc ht, unendedWord_waits hc ht, fun he w ws => stalledWord_waits hc ht he⟩,
    fun h rd ra rb imm off m s ht he hp => ?off, fun h rd ra rb s ht he => unendedWord_waits rfl ht he, ?add⟩
  case off =>
    have hoff {c : Instr} (hc : c.hdr = some h) (henc : (effOf c (s.holding h.sp c)).enc = none) :=
      offWord_runs hc ht he hp henc
    exact ⟨hoff rfl rfl, hoff rfl rfl, hoff rfl rfl, hoff rfl rfl, hoff rfl rfl, hoff rfl rfl, by simp [State.ran]⟩
  case add =>
    intro h rd ra rb s hi hra hclk
    have hneed : (s.sp h.sp).needS [ra, rb] = [.operands] := by simp [Spindle.needS, hra, hclk]
    have hon : (effOf (.add h rd ra rb) (s.holding h.sp (.add h rd ra rb))).on = true :=
      (effOf_hdr rfl _).2.trans (by simpa using hi.2.2)
    have hst : (effOf (.add h rd ra rb) (s.holding h.sp (.add h rd ra rb))).stall = [.operands] :=
      (congrArg (fun x => x.needS [ra, rb]) (s.holding_sp ..)).trans hneed
    rw [stalledWord_waits (w := .operands) (ws := _) rfl hi.1 hi.2.1 (by rw [stallsOf_one hon, hst]; rfl)]
    simp [State.holding, Stall.num]

/-! ## A bundle of two words -/

/-- Nothing stops a word. -/
structure Eff.Clean (e : Eff) (x : Spindle) : Prop where
  on : e.on = true
  enc : e.enc = none
  exc : e.exc = []
  stall : e.stall = []
  waitS : e.waitS x = []

/-- A bundle of words that nothing stops, in different slots and with no destination in common, goes as a whole. -/
theorem judge_clean {x : Spindle} {sh : Share} {n : Nat} {es : List Eff} (hlen : x.pcBytes + 8 * n ≤ sh.imageLen)
    (hslot : sameSlot (bySlot es) = false) (hdest : twoWriters [] (bySlot es) = none) (hes : ∀ e ∈ es, e.Clean x) :
    judge x sh n true es = .go (bySlot es) := by
  have hcl : ∀ e ∈ bySlot es, e.Clean x := fun e he => hes e (mem_bySlot he)
  have hst : stallsOf x (bySlot es) = [] :=
    List.flatMap_eq_nil_iff.mpr fun e he => by
      have := hcl e (List.mem_filter.mp he).1
      simp [this.stall, this.waitS]
  have henc : (bySlot es).find? (fun e => e.enc.isSome) = none :=
    List.find?_eq_none.mpr fun e he => by simp [(hcl e he).enc]
  have hexc : pickRaise (bySlot es) = none :=
    List.findSome?_eq_none_iff.mpr fun k _ => List.findSome?_eq_none_iff.mpr fun e he => by simp [(hcl e he).exc]
  simp only [judge, Nat.not_lt.mpr hlen, hslot, hst, henc, hdest, hexc, List.filter_eq_self.mpr fun e he => (hcl e he).on]
  simp

@[simp] theorem holding_freeS (x : Spindle) (w : List Instr) (r : Fin 32) :
    ({ x with fetched := w } : Spindle).freeS r ↔ x.freeS r := Iff.rfl

@[simp] theorem State.holding_fetching (s : State) (p : Fin 136) (w : Instr) (ws : List Instr) :
    (s.holding p w).fetching p ws = s.fetching p ws := by simp [State.holding, State.fetching]

theorem effAdd_fetching (s : State) (h : Hdr) (rd ra rb : Fin 32) (ws : List Instr) :
    effAdd h rd ra rb (s.fetching h.sp ws) = effAdd h rd ra rb s := by
  simp [effAdd, effS3, effToS, mkEff]

theorem effEmov_fetching (s : State) (h : Hdr) (k : Fin 8) (ra : Fin 32) (ws : List Instr) :
    effEmov h k ra (s.fetching h.sp ws) = effEmov h k ra s := by
  simp [effEmov, effQuant, mkEff]

theorem effEmov_acts (s : State) (h : Hdr) (k : Fin 8) (ra : Fin 32) :
    ∃ q : Pend, (effEmov h k ra s).acts = [.quant q] ∧ q.wrs = [.e k (((s.sp h.sp).rs ra).setWidth 8)] :=
  ⟨_, rfl, rfl⟩

@[simp] theorem Spindle.gets_pc (x : Spindle) (r : Fin 32) (v : Word) (lat : Nat) : (x.gets r v lat).pc = x.pc := by
  unfold Spindle.gets Spindle.ws
  split <;> rfl

section
variable {s : State} {h h' : Hdr} {rd ra rb : Fin 32} {k : Fin 8} (hsp : h'.sp = h.sp)
include hsp

/-- `add` in slot C and `emov` in slot V go together, though the one reads what the other writes. -/
theorem judge_addEmov {x : Spindle} {sh : Share} (hp : (s.sp h.sp).rp h.pred = true)
    (hp' : (s.sp h.sp).rp h'.pred = true) (hlen : x.pcBytes + 16 ≤ sh.imageLen)
    (hab : (s.sp h.sp).needS [ra, rb] = []) (hd : (s.sp h.sp).needS [rd] = []) (hfree : x.freeS rd)
    (hq : queueStall (s.sp h.sp).clk (s.sp h.sp).qq = []) :
    judge x sh 2 true [effAdd h rd ra rb s, effEmov h' k rd s] =
      .go [effAdd h rd ra rb s, effEmov h' k rd s] := by
  have hslots : bySlot [effAdd h rd ra rb s, effEmov h' k rd s] = [effAdd h rd ra rb s, effEmov h' k rd s] := rfl
  have hdest : twoWriters [] [effAdd h rd ra rb s, effEmov h' k rd s] = none := by
    simp [twoWriters, effAdd, effS3, effToS, effEmov, effQuant]
  have hadd : (effAdd h rd ra rb s).Clean x := ⟨hp, rfl, rfl, hab, waitS_of_free rfl hfree⟩
  have hemov : (effEmov h' k rd s).Clean x := by
    refine ⟨?_, rfl, rfl, ?_, waitS_of_no_s fun r => by simp [effEmov, effQuant]⟩
    · simpa [effEmov, effQuant, mkEff, hsp] using hp'
    · simp [effEmov, effQuant, hsp, hd, hq]
  exact judge_clean hlen rfl (hslots ▸ hdest) (by simpa using ⟨hadd, hemov⟩)

/-- The bundle of `add` and `emov` writes the register and leaves the quantiser the byte of the old value. -/
theorem goBundle_addEmov (y : State) : ∃ q : Pend, q.wrs = [.e k (((s.sp h.sp).rs rd).setWidth 8)] ∧
    goBundle y h.sp 2 [] [effAdd h rd ra rb s, effEmov h' k rd s] =
      y.setSp h.sp { ((y.sp h.sp).advance 2 []).gets rd ((s.sp h.sp).rs ra + (s.sp h.sp).rs rb) 1 with
        qq := (((y.sp h.sp).advance 2 []).gets rd ((s.sp h.sp).rs ra + (s.sp h.sp).rs rb) 1).qq ++ [q] } := by
  obtain ⟨q, hacts, hwrs⟩ := effEmov_acts s h' k rd
  refine ⟨q, hsp ▸ hwrs, ?_⟩
  simp [goBundle, hacts, effAdd, effS3, effToS, Act.perform, Spindle.gets]

end

/-- The bundle of `add` and `emov`, whose last word is presented. -/
theorem emov_after_add {s : State} {h h' : Hdr} {rd ra rb : Fin 32} {k : Fin 8} {sh : Share}
    (hb : Completes (s.holding h.sp (.add h rd ra rb)) h' sh [.add h rd ra rb] (.emov h' k rd)) (hsp : h'.sp = h.sp)
    (hp : (s.sp h.sp).rp h.pred = true) (hp' : (s.sp h.sp).rp h'.pred = true)
    (hlen : (s.sp h.sp).pcBytes + 16 ≤ sh.imageLen) (hab : (s.sp h.sp).needS [ra, rb] = [])
    (hd : (s.sp h.sp).needS [rd] = []) (hfree : (s.sp h.sp).freeS rd)
    (hq : queueStall (s.sp h.sp).clk (s.sp h.sp).qq = []) :
    exec (.emov h' k rd) (s.holding h.sp (.add h rd ra rb)) =
      .next (goBundle (s.fetching h.sp [.add h rd ra rb, .emov h' k rd]) h.sp 2 []
        [effAdd h rd ra rb s, effEmov h' k rd s]) := by
  have hy : (s.holding h.sp (.add h rd ra rb)).fetching h'.sp ([.add h rd ra rb] ++ [.emov h' k rd]) =
      s.fetching h.sp [.add h rd ra rb, .emov h' k rd] := by
    rw [hsp, State.holding_fetching]
    rfl
  have hemov : effEmov h' k rd (s.fetching h.sp [.add h rd ra rb, .emov h' k rd]) = effEmov h' k rd s := by
    rw [← hsp]
    exact effEmov_fetching ..
  have hgo := hb.exec_go (es := [effAdd h rd ra rb s, effEmov h' k rd s]) (by
    rw [hy, hsp, State.fetching_sp]
    show judge _ sh 2 true [effAdd h rd ra rb (s.fetching h.sp _), effEmov h' k rd (s.fetching h.sp _)] = _
    rw [effAdd_fetching, hemov]
    exact judge_addEmov hsp hp hp' hlen hab hd hfree hq)
  rw [hy, hsp] at hgo
  exact hgo

/-- Settles O4: the effects of a bundle that goes are those of its words in the state before it; of `add` and `emov`
both read the old value. -/
theorem bundleReadsFirst : Obligations.BundleReadsFirst := by
  refine ⟨?any, ?addEmov⟩
  case any =>
    intro c h ws sh s es hc he x hsh hrun hserv hready hf hlen hmore y hj
    have hb : Completes s h sh ws c := ⟨hsh, hrun, hserv, hready, hf, hc, he, hlen, hmore⟩
    refine ⟨hb.exec_go hj, fun e hmem => ?_⟩
    rw [judge_go hj] at hmem
    obtain ⟨w, hw, rfl⟩ := List.mem_map.mp (mem_bySlot (List.mem_filter.mp hmem).1)
    exact ⟨w, hw, rfl⟩
  case addEmov =>
    intro h h' rd ra rb k s t ht hsp he he' hp hp' hlen hab hd _ hfree hq hexec
    obtain rfl : s.holding h.sp (.add h rd ra rb) = t :=
      Host.Outcome.next.inj ((unendedWord_waits rfl ht he).symm.trans hexec)
    obtain ⟨sh, hsh, hrun, hserv, hf, hready, -⟩ := ht
    have hb : Completes (s.holding h.sp (.add h rd ra rb)) h' sh [.add h rd ra rb] (.emov h' k rd) := by
      refine ⟨?_, hrun, hserv, ?_, ?_, rfl, he', Nat.le_add_left _ _, ?_⟩
      · simpa [hsp] using hsh
      · simpa [hsp] using hready
      · simp [hsp]
      · simpa using ⟨h, rfl, hsp.symm, he⟩
    have hgo := emov_after_add hb hsp hp hp' (by simpa [hsh] using hlen) hab hd hfree hq
    obtain ⟨q, hwrs, hu⟩ := goBundle_addEmov (rd := rd) (ra := ra) (rb := rb) (k := k) (s := s) hsp
      (s.fetching h.sp [.add h rd ra rb, .emov h' k rd])
    refine ⟨_, hgo.trans (congrArg _ hu), fun hrd => ?_, ?_, ?_⟩
    · simp [Spindle.rs, hrd, Spindle.gets, Spindle.ws]
    · simp [hwrs]
    · simp only [State.setSp_sp_same, Spindle.gets_pc, State.fetching_sp]
      rfl

end Sys2Proof.Machine
end

section
/-!
PROOFS. The flyer and sync classes (06 R148, R149, R156 to R158; 07 R189 to R193): what such a word reads of its spindle, a
flyer word that nothing stops, and the sync words. From these the statement O20.
-/

namespace Sys2Proof.Machine

/-! ## What the word reads does not depend on the words fetched -/

section
variable (s : State) (p : Fin 136) (w : Instr)

theorem holding_owner (i : Fin 136) : ((s.holding p w).sp i).owner = (s.sp i).owner := by
  by_cases h : i = p
  · rw [h, State.holding_sp]
  · rw [State.holding, State.setSp_sp_ne _ _ _ _ h]

@[simp] theorem holding_resolvePhys (a n : Nat) : resolvePhys (s.holding p w) a n = resolvePhys s a n := by
  have hb (own : Owner) (i : Fin 136) : bobbinOpen (s.holding p w) own i = bobbinOpen s own i := by
    unfold bobbinOpen
    rw [holding_owner]
    rfl
  have hr : ctrlReaches (s.holding p w) = ctrlReaches s := by
    funext b
    simp only [ctrlReaches, hb]
    rfl
  simp only [resolvePhys, hr]

@[simp] theorem holding_resolveInstr (i : Fin 136) (own : Owner) (pm : Perm) (a n : Nat) :
    resolveInstr (s.holding p w) i own pm a n = resolveInstr s i own pm a n := by
  cases own
  · simp only [resolveInstr, holding_resolvePhys]
  · rfl

@[simp] theorem holding_flReach (own : Owner) (m : Move) : flReach (s.holding p w) p own m = flReach s p own m := by
  simp only [flReach, holding_resolveInstr]

@[simp] theorem holding_flMove (x : Spindle) (ws : List Instr) (op : MoveOp) (f : Fl) :
    flMove { x with fetched := ws } p op f = flMove x p op f := rfl

@[simp] theorem holding_flStall (m : Move) (t : Fin 16) : flStall (s.holding p w) p m t = flStall s p m t := by
  simp only [flStall, State.holding_sp, holding_movesOf, holding_unread]
  rfl

@[simp] theorem holding_ownQueue (x : Spindle) (ws : List Instr) (v : Word) :
    ownQueue { x with fetched := ws } v = ownQueue x v := rfl

end

/-! ## Flyer words -/

section
variable {s : State} {h : Hdr} {w : Instr} {opc : Nat} {op : MoveOp} {f : Fl} {enc : Option Nat}

theorem effFl_holding : effFl h opc op f enc (s.holding h.sp w) = effFl h opc op f enc s := by
  simp [effFl, mkEff]

/-- The s registers that a flyer word reads (06 R148). -/
def flRegs (f : Fl) : List (Fin 32) :=
  [f.sd, f.ss, f.sn] ++ (if f.sp = 0 then [] else [f.sp, f.sp + 1] ++ (if f.path = .shadow then [f.sp + 2] else []))

/-- The move of a flyer word becomes its spindle's: its token is BUSY, and the move goes to the flyers of its skein or to
their queue (06 R156, R158; 11 R301). -/
def State.moveGoes (s : State) (p : Fin 136) (own : Owner) (t : Fin 16) (m : Move) : State :=
  let s' := lookUpSegs (s.ran p fun y => { y with tok := upd y.tok t .busy }) (skeinOf p) own
    (m.srcSegs ++ m.dstSegs ++ m.shSegs)
  s'.setSk (skeinOf p) (feed { s'.sk (skeinOf p) with fq := (s'.sk (skeinOf p)).fq ++ [m] })

/-- A flyer word whose checks pass, whose ranges are reached and that no interlock holds (06 R148, R156 to R158). -/
theorem flyerWord_runs {own : Owner} {a d v : List Seg} (hi : s.issues h)
    (hx : exec w s = .next (presentWord effOf w h.sp s))
    (hw : effOf w (s.holding h.sp w) = effFl h opc op f enc (s.holding h.sp w)) (henc : enc = none)
    (hown : (s.sp h.sp).share.map (·.owner) = some own)
    (hpitch : (flMove (s.sp h.sp) h.sp op f).pitchOk = true) (hskip : (flMove (s.sp h.sp) h.sp op f).skipTooBig = false)
    (hbases : (flMove (s.sp h.sp) h.sp op f).basesOk = true) (hfmt : (flMove (s.sp h.sp) h.sp op f).formatOf = none)
    (hreach : flReach s h.sp own (flMove (s.sp h.sp) h.sp op f) = (.ok a, .ok d, .ok v))
    (hstall : flStall s h.sp (flMove (s.sp h.sp) h.sp op f) f.t = []) (hneed : (s.sp h.sp).needS (flRegs f) = []) :
    exec w s = .next (s.moveGoes h.sp own f.t
      { flMove (s.sp h.sp) h.sp op f with srcSegs := a, dstSegs := d, shSegs := v }) := by
  obtain ⟨sh, hsh, rfl⟩ := Option.map_eq_some_iff.mp hown
  have he : effOf w (s.holding h.sp w) = { mkEff h .f 5 opc s with
      dests := [.tok f.t]
      acts := [.move f.t { flMove (s.sp h.sp) h.sp op f with srcSegs := a, dstSegs := d, shSegs := v }] } := by
    rw [hw, effFl_holding]
    simpa [effFl, hsh, hreach, henc, hpitch, hskip, hbases, hfmt, hstall, raiseIf, Reach.raises, Reach.segs, mkEff, flRegs]
      using hneed
  rw [hx, presentWord_issues hi (by rw [he]; rfl) (by rw [he]; exact hi.2.2) (by rw [he]; rfl) (by rw [he]; rfl)
    (by rw [he]; rfl) (by rw [he]; exact waitS_of_no_s (by simp)), he]
  simp [Act.perform, State.moveGoes, State.ran, Spindle.advance, Spindle.count, hsh]

end

/-! ## Sync words -/

theorem State.setSp_self (s : State) (p : Fin 136) : s.setSp p (s.sp p) = s := by
  have h : upd s.spindles p (s.spindles.get p) = s.spindles := Vector.set_getElem_self _
  simp [State.setSp, State.sp, h]

/-- A word that nothing stops and whose acts change only its spindle. -/
theorem cleanWord_runs {c : Instr} {h : Hdr} {s : State} {e : Eff} {f : Spindle → Spindle} (hc : c.hdr = some h)
    (hi : s.issues h) (hw : effOf c (s.holding h.sp c) = e) (henc : e.enc = none) (hexc : e.exc = [])
    (hst : e.stall = []) (hwt : e.waitS (s.sp h.sp) = [])
    (ha : ∀ t : State, e.acts.foldl (fun t a => a.perform h.sp t) t = t.setSp h.sp (f (t.sp h.sp))) :
    exec c s = .next (s.ran h.sp f) := by
  subst hw
  exact word_runs hi (exec_word hc s) rfl (effOf_hdr hc _).1 ((effOf_hdr hc _).2.trans (by simp)) henc hexc hst hwt
    fun t _ => ha t

/-- A word that waits for one thing alone. -/
theorem waitingWord_waits {c : Instr} {h : Hdr} {s : State} {e : Eff} {w : Stall} (hc : c.hdr = some h)
    (hi : s.issues h) (hw : effOf c (s.holding h.sp c) = e) (hst : e.stall = [w]) :
    exec c s = .next (s.setSp h.sp (Spindle.count { s.sp h.sp with fetched := [c] } w.num 1)) := by
  subst hw
  have hon : (effOf c (s.holding h.sp c)).on = true := (effOf_hdr hc _).2.trans (by simpa using hi.2.2)
  rw [stalledWord_waits (w := w) (ws := _) hc hi.1 hi.2.1 (by rw [stallsOf_one hon, hst]; rfl)]
  simp [State.holding]

/-- A queue of the kernel's own owner (06 R149). -/
theorem ownQueue_own {x : Spindle} {v : Word} {sh : Share} {q : Fin 4096} (hsh : x.share = some sh)
    (hv : v.toNat = q.val) (hown : q.val < 16 ↔ sh.owner = .controller) : ownQueue x v = some q := by
  have hq : queueOwner q = sh.owner := by
    unfold queueOwner
    split
    case isTrue h => exact (hown.mp h).symm
    case isFalse h =>
      cases ho : sh.owner
      · exact absurd (hown.mpr ho) h
      · rfl
  simp [ownQueue, hsh, hv, hq]

section
variable {s : State} {h : Hdr} {t : Fin 16} {pd : Fin 8} {rd ra rb : Fin 32} {w : Instr}

@[simp] theorem State.holding_q (p : Fin 136) (q : Fin 4096) : (s.holding p w).q q = s.q q := rfl

theorem effTwait_holding : effTwait h t (s.holding h.sp w) = effTwait h t s := by simp [effTwait, mkEff]

theorem effTpoll_holding : effTpoll h pd t (s.holding h.sp w) = effTpoll h pd t s := by simp [effTpoll, mkEff]

theorem effTstat_holding : effTstat h rd t (s.holding h.sp w) = effTstat h rd t s := by simp [effTstat, mkEff]

theorem effSfence_holding : effSfence h (s.holding h.sp w) = effSfence h s := by simp [effSfence, mkEff]

theorem effCread_holding : effCread h rd ra (s.holding h.sp w) = effCread h rd ra s := by simp [effCread, mkEff]

theorem effCwait_holding : effCwait h ra rb (s.holding h.sp w) = effCwait h ra rb s := by simp [effCwait, mkEff]

variable (hi : s.issues h)
include hi

theorem twait_free (ht : (s.sp h.sp).tok.get t ≠ .busy) : exec (.twait h t) s = .next (s.ran h.sp id) :=
  cleanWord_runs rfl hi effTwait_holding rfl rfl (if_neg ht) (waitS_nil rfl) fun u => (u.setSp_self h.sp).symm

theorem twait_busy (ht : (s.sp h.sp).tok.get t = .busy) : exec (.twait h t) s =
    .next (s.setSp h.sp (Spindle.count { s.sp h.sp with fetched := [.twait h t] } 5 1)) :=
  waitingWord_waits (w := .wait) rfl hi effTwait_holding (if_pos ht)

theorem tpoll_runs {b : Bool} (hb : decide ((s.sp h.sp).tok.get t ≠ .busy) = b) :
    exec (.tpoll h pd t) s = .next (s.ran h.sp fun y => y.wp pd b) := by
  subst hb
  exact cleanWord_runs rfl hi effTpoll_holding rfl rfl rfl (waitS_of_no_s (by simp [effTpoll])) fun _ => rfl

theorem tstat_runs (ht : (s.sp h.sp).tok.get t ≠ .busy) (hrd : (s.sp h.sp).freeS rd) : exec (.tstat h rd t) s =
    .next (s.ran h.sp fun y => y.gets rd (BitVec.ofNat 64 ((s.sp h.sp).tok.get t).status) 1) :=
  cleanWord_runs rfl hi effTstat_holding rfl rfl (if_neg ht) (waitS_of_free rfl hrd) fun _ => rfl

theorem sfence_runs (ha : (s.sp h.sp).arrayQ = []) (hf : (s.sp h.sp).flight = []) (hr : (s.sp h.sp).rq = [])
    (hq : (s.sp h.sp).qq = []) : exec (.sfence h) s = .next (s.ran h.sp id) :=
  cleanWord_runs rfl hi effSfence_holding rfl rfl (by simp [effSfence, ha, hf, hr, hq]) (waitS_nil rfl)
    fun u => (u.setSp_self h.sp).symm

section
variable {q : Fin 4096} (hown : ownQueue (s.sp h.sp) ((s.sp h.sp).rs ra) = some q)
include hown

theorem cread_runs (hneed : (s.sp h.sp).needS [ra] = []) (hrd : (s.sp h.sp).freeS rd) : exec (.cread h rd ra) s =
    .next (s.ran h.sp fun y => y.gets rd (BitVec.ofNat 64 (s.q q).lc) 40) :=
  cleanWord_runs rfl hi effCread_holding rfl (by simp [effCread, hown, raiseIf]) hneed (waitS_of_free rfl hrd) fun u => by
    simp [effCread, hown, Act.perform, Spindle.gets]

theorem cwait_runs (hneed : (s.sp h.sp).needS [ra, rb] = []) (hle : ((s.sp h.sp).rs rb).toNat ≤ (s.q q).lc) :
    exec (.cwait h ra rb) s = .next (s.ran h.sp id) :=
  cleanWord_runs rfl hi effCwait_holding rfl (by simp [effCwait, hown, raiseIf])
    (by simp [effCwait, hown, hneed, Nat.not_lt.mpr hle]) (waitS_nil rfl) fun u => (u.setSp_self h.sp).symm

theorem cwait_waits (hneed : (s.sp h.sp).needS [ra, rb] = []) (hlt : (s.q q).lc < ((s.sp h.sp).rs rb).toNat) :
    exec (.cwait h ra rb) s =
      .next (s.setSp h.sp (Spindle.count { s.sp h.sp with fetched := [.cwait h ra rb] } 5 1)) :=
  waitingWord_waits (w := .wait) rfl hi effCwait_holding (by simp [effCwait, hown, hneed, hlt])

end

end

/-- Settles O20: each flyer word is `flyerWord_runs` for its operation; each sync word goes on, or waits for its token or
its count. -/
theorem flyerAndSync : Obligations.FlyerAndSync := by
  refine ⟨?flyer, ?sync⟩
  case flyer =>
    intro h f own s a d w hi x sk hown moves
    refine ⟨fun henc => ?fmv, fun henc hpath => ?fadd, ?ffill⟩
    case fmv => exact flyerWord_runs hi rfl rfl henc hown
    case fadd => exact flyerWord_runs hi rfl rfl ((if_neg (not_not.mpr hpath)).trans henc) hown
    case ffill => exact flyerWord_runs hi rfl rfl rfl hown
  case sync =>
    intro h t pd rd ra rb q sh s hi x
    refine ⟨fun ht => ⟨twait_free hi ht, tpoll_runs hi (decide_eq_true ht), tstat_runs hi ht⟩,
      fun ht => ⟨tpoll_runs hi (decide_eq_false (not_not.mpr ht)), twait_busy hi ht⟩, sfence_runs hi,
      fun hsh hv hq hra => ?_⟩
    have hown := ownQueue_own hsh hv hq
    exact ⟨cread_runs hi hown hra, cwait_runs hi hown, cwait_waits hi hown⟩

end Sys2Proof.Machine
end

section
/-!
PROOFS. Exceptions (06 R137, R138, R141, R159 to R162; 07 R174; 11 R303): what the exception of each kind leaves once it is
taken, bundles given by their words, and bobbin accesses that a check stops. From these the statement O22.
-/

namespace Sys2Proof.Machine

/-! ## Frames and records sent -/

section
variable {α : Type} {f : State → α} (hf : ∀ s n x, f (State.setStrand s n x) = f s)
include hf

theorem notify_keeps (s : State) (w : Party) (kind q r : Nat) (body : List Byte) :
    f (notify s w kind q r body) = f s := by
  unfold notify
  split
  · unfold post
    dsimp only
    split
    · rfl
    · rfl
    · exact hf _ _ _
  · rfl

/-- A record goes to the registers and to strands alone. -/
theorem addRecord_keeps (s : State) (q : Nat) (ws : List Word) (ten : Bool) :
    f (addRecord s q ws ten) = f { s with mgmt := (keepRecord s.mgmt ws).1 } := by
  unfold addRecord
  dsimp only
  split
  · rw [notify_keeps hf, notify_keeps hf]
  · rw [notify_keeps hf]

end

/-- With room left a record is kept (18 R508). -/
theorem keepRecord_length {m : Mgmt} (h : m.faults.length < 256) (ws : List Word) :
    (keepRecord m ws).1.faults.length = m.faults.length + 1 := by
  simp [keepRecord, h]

/-! ## Physical writes -/

/-- A view of the state that no physical write enters: neither the bobbins nor the memory nor the bindings. -/
structure OffBytes {α : Type} (f : State → α) : Prop where
  sp (s : State) (p : Fin 136) (x : Spindle) : f (s.setSp p x) = f s
  creel (s : State) (k : Fin 8) (bs : List Binding) : f (s.setSk k { s.sk k with bindings := bs }) = f s
  mem (s : State) (m : Mem) : f (s.setMem m) = f s

section
variable {α : Type} {f : State → α} (hf : OffBytes f)
include hf

theorem writeByte_keeps (s : State) (a : Nat) (b : Byte) : f (writeByte s a b) = f s := by
  unfold writeByte
  split
  · exact hf.sp _ _ _
  · split
    · unfold putByte
      split
      · exact hf.creel _ _ _
      · exact hf.mem _ _
    · rfl

theorem writePhys_keeps (s : State) (a : Nat) (bs : List Byte) : f (writePhys s a bs) = f s := by
  induction bs generalizing s a with
  | nil => rfl
  | cons b bs ih => exact (ih _ _).trans (writeByte_keeps hf s a b)

end

theorem offBytes_trans : OffBytes (fun s => s.trans) := ⟨fun _ _ _ => rfl, fun _ _ _ => rfl, fun _ _ => rfl⟩
theorem offBytes_mgmt : OffBytes (fun s => s.mgmt) := ⟨fun _ _ _ => rfl, fun _ _ _ => rfl, fun _ _ => rfl⟩
theorem offBytes_queues : OffBytes (fun s => s.queues) := ⟨fun _ _ _ => rfl, fun _ _ _ => rfl, fun _ _ => rfl⟩
theorem offBytes_changes (k : Fin 8) : OffBytes (fun s => (s.sk k).changes) := by
  refine ⟨fun _ _ _ => rfl, fun s j bs => ?_, fun _ _ => rfl⟩
  by_cases h : k = j
  · rw [h, State.setSk_sk_same]
  · rw [State.setSk_sk_ne _ _ _ _ h]

/-! ## A share switched out -/

/-- Where no change of the map waits and no share has been released, a boundary changes nothing (01 R25, R28). -/
theorem boundary_still {s : State} {p : Fin 136} (hc : ∀ k, (s.sk k).changes = [])
    (hi : ∀ i ∈ s.trans.images, i.resume = false) : boundary s p = s := by
  have hm : (List.finRange 8).foldl settleMap s = s :=
    List.foldlRecOn (motive := (· = s)) _ _ rfl fun t ht k _ => by subst ht; exact settleMap_nil (hc k)
  unfold boundary
  split
  · rfl
  · dsimp only
    rw [hm]
    split
    · rfl
    · next i hfind =>
      have := List.find?_some hfind
      simp [hi i (List.mem_of_find?_eq_some hfind)] at this

/-- The save image that a switch-out writes (06 R166). -/
def switchImage (s : State) (p : Fin 136) (sh : Share) : SaveImage :=
  { queue := sh.queue, slot := freeImage s, share := { sh with phase := .running }, regs := s.sp p }

theorem switchOut_eq (s : State) (p : Fin 136) (sh : Share) : ∃ a bs n,
    let t := { writePhys s a bs with free := n }
    switchOut s p sh =
      vacate (t.setTrans { t.trans with images := t.trans.images ++ [switchImage s p sh] }) p :=
  ⟨_, _, _, rfl⟩

/-- A switch-out where no change of the map waits and no share has been released: the spindle is vacant, the image is one
more (06 R166; 11 R303). -/
theorem switchOut_still {s : State} {p : Fin 136} {sh : Share} (hc : ∀ k, (s.sk k).changes = [])
    (hi : ∀ i ∈ s.trans.images, i.resume = false) :
    ((switchOut s p sh).sp p).share = none ∧ (switchOut s p sh).queues = s.queues ∧
    (switchOut s p sh).mgmt = s.mgmt ∧
    (switchOut s p sh).trans = { s.trans with images := s.trans.images ++ [switchImage s p sh] } := by
  obtain ⟨a, bs, n, hout⟩ := switchOut_eq s p sh
  have htrans : (writePhys s a bs).trans = s.trans := writePhys_keeps offBytes_trans s a bs
  rw [hout, vacate, boundary_still]
  · refine ⟨?_, ?_, ?_, ?_⟩
    · simp
    · exact writePhys_keeps offBytes_queues s a bs
    · exact writePhys_keeps offBytes_mgmt s a bs
    · simp [htrans]
  · exact fun k => (writePhys_keeps (offBytes_changes k) s a bs).trans (hc k)
  · simp only [State.setSp_trans, State.setTrans_trans, htrans, List.mem_append, List.mem_singleton]
    rintro i (h | rfl)
    · exact hi i h
    · rfl

/-! ## Exceptions taken -/

theorem setPhase_eq {s : State} {p : Fin 136} {sh : Share} (h : (s.sp p).share = some sh) (ph : Phase) :
    setPhase s p ph = s.setSp p { s.sp p with share := some { sh with phase := ph } } := by
  simp [setPhase, h]

theorem waitPage_st {s : State} {q : Fin 4096} (h : (s.q q).st = .opened) : ((waitPage s q).q q).st = .waitPage := by
  simp [waitPage, h]

/-- A page fault of a share: its record, its fault, and its queue waits (11 R303, R304). -/
theorem shareFault_frame {s : State} (sh : Share) (tr : Trap) (hroom : s.mgmt.faults.length < 256) :
    (shareFault s sh tr).spindles = s.spindles ∧ (shareFault s sh tr).skeins = s.skeins ∧
    (shareFault s sh tr).trans.images = s.trans.images ∧
    (shareFault s sh tr).trans.nextFault = s.trans.nextFault + 1 ∧
    (shareFault s sh tr).mgmt.faults.length = s.mgmt.faults.length + 1 ∧
    ((s.q sh.queue).st = .opened → ((shareFault s sh tr).q sh.queue).st = .waitPage) := by
  unfold shareFault addFault
  dsimp only
  refine ⟨?_, ?_, ?_, rfl, ?_, fun h => waitPage_st ?_⟩
  · exact addRecord_keeps (f := fun s => s.spindles) (fun _ _ _ => rfl) ..
  · exact addRecord_keeps (f := fun s => s.skeins) (fun _ _ _ => rfl) ..
  · exact addRecord_keeps (f := fun s => s.trans.images) (fun _ _ _ => rfl) ..
  · exact (addRecord_keeps (f := fun s => s.mgmt.faults.length) (fun _ _ _ => rfl) ..).trans (keepRecord_length hroom _)
  · exact (addRecord_keeps (f := fun s => (s.q sh.queue).st) (fun _ _ _ => rfl) ..).trans h

section
variable {p : Fin 136} {sh : Share} {tr : Trap} {s : State} (hsh : (s.sp p).share = some sh)
  (hph : sh.phase = .trapping tr) (hquiet : quiet s p = true) (hserv : s.serving = true)

/-- The state in which an exception is handled: `CAUSE` names it (06 R140, R161). -/
def State.caused (s : State) (p : Fin 136) (tr : Trap) : State := s.setSp p { s.sp p with cause := tr.cause }

include hsh in
theorem caused_share : ((s.caused p tr).sp p).share = some sh := by simpa [State.caused] using hsh

theorem exec_exceptionTaken : exec (.exceptionTaken p) s = .next (doExceptionTaken p s) := rfl

/-- The fault that BREAK opens (06 R162; log 21). -/
def breakFault (s : State) (sh : Share) : PFault :=
  { id := s.trans.nextFault, queue := sh.queue, work := .share sh.logical sh.seq, brk := true }

/-- The record that BREAK sends (06 R162). -/
def breakRecord (s : State) (sh : Share) (tr : Trap) (t : State) : State :=
  record t 0x05 none 0 sh.queue.val
    [sh.logical.val, bitsOf tr.cause.toNat 32 24, bitsOf tr.cause.toNat 8 8, s.trans.nextFault]

/-- The record of BREAK changes neither the spindles nor the faults. -/
theorem breakRecord_frame (t : State) :
    (breakRecord s sh tr t).spindles = t.spindles ∧ (breakRecord s sh tr t).trans = t.trans :=
  ⟨addRecord_keeps (f := fun s => s.spindles) (fun _ _ _ => rfl) ..,
    addRecord_keeps (f := fun s => s.trans) (fun _ _ _ => rfl) ..⟩

include hsh hph hquiet hserv

theorem exec_exceptionTaken_format (he : tr.exc = .format) :
    exec (.exceptionTaken p) s = .next (setPhase (s.caused p tr) p (.ended .format)) := by
  simp [exec_exceptionTaken, doExceptionTaken, hsh, hph, hquiet, hserv, he, State.caused]

theorem exec_exceptionTaken_access (he : tr.exc = .illegal ∨ tr.exc = .align) :
    exec (.exceptionTaken p) s = .next (setPhase (s.caused p tr) p (.ended .access)) := by
  rcases he with he | he <;>
    simp [exec_exceptionTaken, doExceptionTaken, hsh, hph, hquiet, hserv, he, State.caused]

theorem exec_exceptionTaken_page (he : tr.exc = .page) :
    exec (.exceptionTaken p) s = .next (pageOut (s.caused p tr) p sh tr false) := by
  simp [exec_exceptionTaken, doExceptionTaken, hsh, hph, hquiet, hserv, he, State.caused]

theorem exec_exceptionTaken_brk (he : tr.exc = .brk) :
    let t := breakRecord s sh tr (s.caused p tr)
    exec (.exceptionTaken p) s = .next (setPhase (t.setTrans { t.trans with
      nextFault := s.trans.nextFault + 1, faults := t.trans.faults ++ [breakFault s sh] }) p (.halted tr.len)) := by
  simp [exec_exceptionTaken, doExceptionTaken, hsh, hph, hquiet, hserv, he, State.caused, breakFault, breakRecord]

end

/-- A share that faults with room for its record and its image switches out (11 R303). -/
theorem pageOut_switches {s : State} {p : Fin 136} {sh : Share} {tr : Trap} (hroom : s.mgmt.faults.length < 256)
    (himages : s.trans.images = []) (hc : ∀ k, (s.sk k).changes = []) :
    let t := pageOut s p sh tr false
    (t.sp p).share = none ∧
    t.trans.images = [{ queue := sh.queue, share := { sh with phase := .running }, regs := s.sp p }] ∧
    t.mgmt.faults.length = s.mgmt.faults.length + 1 ∧ t.trans.nextFault = s.trans.nextFault + 1 ∧
    ((s.q sh.queue).st = .opened → (t.q sh.queue).st = .waitPage) := by
  obtain ⟨hsp, hsk, him, hnext, hlen, hq⟩ := shareFault_frame sh tr hroom
  have him' : (shareFault s sh tr).trans.images = [] := him.trans himages
  have hpage : pageOut s p sh tr false = switchOut (shareFault s sh tr) p sh := by
    have hslot : pageSlot s.mgmt = true := by simp [pageSlot, hroom]
    simp [pageOut, hslot, him']
  have himage : switchImage (shareFault s sh tr) p sh =
      { queue := sh.queue, share := { sh with phase := .running }, regs := s.sp p } := by
    have hfree : freeImage (shareFault s sh tr) = 0 := by
      rw [freeImage, him', show 256 = 255 + 1 from rfl, List.range_succ_eq_map]
      rfl
    rw [switchImage, hfree, State.sp, hsp, State.sp]
  have hc' : ∀ k, ((shareFault s sh tr).sk k).changes = [] := by
    intro k
    rw [State.sk, hsk]
    exact hc k
  obtain ⟨hshare, hqs, hmgmt, htrans⟩ := switchOut_still (p := p) (sh := sh) hc' (by simp [him'])
  intro t
  refine ⟨?_, ?_, ?_, ?_, ?_⟩
  · simpa only [t, hpage] using hshare
  · simp only [t, hpage, htrans, him', himage, List.nil_append]
  · simpa only [t, hpage, hmgmt] using hlen
  · simpa only [t, hpage, htrans] using hnext
  · simpa only [t, hpage, State.q, hqs] using hq

/-! ## A bundle given by its words -/

section
variable {p : Fin 136} {ws : List Word} {sh : Share} {s : State}

theorem exec_malformedBundle : exec (.malformedBundle p ws) s = .next (doMalformedBundle p ws s) := rfl

section
variable (hsh : (s.sp p).share = some sh) (hrun : sh.phase = .running) (hf : (s.sp p).fetched = []) (hws : ws ≠ [])
include hsh hrun hf hws

/-- A bundle that does not lie in its image (06 R138). -/
theorem doMalformedBundle_outside (hlen : sh.imageLen < (s.sp p).pcBytes + 8 * min 4 ws.length) :
    doMalformedBundle p ws s =
      s.setSp p (raise (s.sp p) sh ⟨.illegal, 0x07, none, 0, 0⟩ 0 0 0 (min 4 ws.length)) := by
  simp [doMalformedBundle, hsh, hrun, hf, hws, hlen]

variable (hlen : (s.sp p).pcBytes + 8 * min 4 ws.length ≤ sh.imageLen)
include hlen

/-- A bundle whose words do not form one (06 R137). -/
theorem doMalformedBundle_unformed (hwhole : wordsWhole ws = false) : doMalformedBundle p ws s =
    s.setSp p (raise (s.sp p) sh ⟨.illegal, 0x03, none, 0, 0⟩ 0 0 0 (min 4 ws.length)) := by
  simp [doMalformedBundle, hsh, hrun, hf, hws, Nat.not_lt.mpr hlen, hwhole]

/-- A bundle of which a word breaks a rule of the encoding (06 R141, R160). -/
theorem doMalformedBundle_error {w : Word} {d : Nat} (hwhole : wordsWhole ws = true)
    (hw : (wordsBySlot ws).findSome? (fun w => (wordError w).map fun d => (w, d)) = some (w, d)) :
    doMalformedBundle p ws s = s.setSp p (raise (s.sp p) sh ⟨.illegal, d, none, 0, 0⟩ (classSlot (w.bits 62 60))
      (w.bits 62 60) (w.bits 59 52) (min 4 ws.length)) := by
  simp [doMalformedBundle, hsh, hrun, hf, hws, Nat.not_lt.mpr hlen, hwhole, hw]

/-- A bundle that breaks no rule is presented word by word (06 R141). -/
theorem doMalformedBundle_presents (hwhole : wordsWhole ws = true)
    (hw : (wordsBySlot ws).findSome? (fun w => (wordError w).map fun d => (w, d)) = none) :
    doMalformedBundle p ws s = (ws.filterMap (decodeWord p)).foldl (fun s i => presentWord effOf i p s) s := by
  simp [doMalformedBundle, hsh, hrun, hf, hws, Nat.not_lt.mpr hlen, hwhole, hw]

end

/-- The exception that ILLEGAL of a bundle of `n` words leaves to be taken (06 R140, R161). -/
def illegalTrap (d slot cls opc pcBytes n : Nat) : Trap :=
  { exc := .illegal, cause := causeWord 2 slot d cls opc pcBytes, len := n }

theorem raise_illegal {x : Spindle} (hf : x.fetched = []) (d slot cls opc n : Nat) :
    raise x sh ⟨.illegal, d, none, 0, 0⟩ slot cls opc n =
      { x with share := some { sh with phase := .trapping (illegalTrap d slot cls opc x.pcBytes n) } } := by
  rw [raise, ← hf]
  rfl

theorem mem_wordsBySlot {w : Word} (h : w ∈ wordsBySlot ws) : w ∈ ws := by
  obtain ⟨k, -, hk⟩ := List.mem_flatMap.mp h
  exact (List.mem_filter.mp hk).1

/-- A word that decodes is a word of its spindle. -/
theorem decodeWord_hdr {w : Word} {i : Instr} (h : decodeWord p w = some i) : i.hdr = some (w.hdr p) := by
  unfold decodeWord at h
  split at h
  · cases h
  · split at h
    · unfold decodeScalar at h; dsimp only at h; split at h <;> cases h <;> rfl
    · unfold decodeBranch at h; split at h <;> cases h <;> rfl
    · unfold decodeMatrix at h; split at h <;> cases h <;> rfl
    · unfold decodeVector at h; dsimp only at h; split at h <;> cases h <;> rfl
    · unfold decodeRow at h; dsimp only at h; split at h <;> cases h <;> rfl
    · unfold decodeFlyer at h; split at h <;> cases h <;> rfl
    · unfold decodeSync at h; split at h <;> cases h <;> rfl
    · unfold decodeSystem at h; dsimp only at h; split at h <;> cases h <;> rfl

theorem wordError_of_decodeWord {w : Word} {i : Instr} (h : decodeWord p w = some i) : wordError w = none := by
  unfold decodeWord at h
  split at h
  · cases h
  · next he => simpa using he

/-- A bundle of one word that breaks no rule acts as the instruction of the word (06 R141). -/
theorem malformedBundle_decodes {w : Word} {i : Instr} (hsh : (s.sp p).share = some sh) (hrun : sh.phase = .running)
    (hf : (s.sp p).fetched = []) (hlen : (s.sp p).pcBytes + 8 ≤ sh.imageLen) (hwhole : wordsWhole [w] = true)
    (hdec : decodeWord p w = some i) : exec (.malformedBundle p [w]) s = exec i s := by
  have hnone : (wordsBySlot [w]).findSome? (fun w => (wordError w).map fun d => (w, d)) = none :=
    List.findSome?_eq_none_iff.mpr fun v hv => by
      rw [List.mem_singleton.mp (mem_wordsBySlot hv), wordError_of_decodeWord hdec]
      rfl
  rw [exec_malformedBundle, doMalformedBundle_presents hsh hrun hf (List.cons_ne_nil w []) hlen hwhole hnone,
    exec_word (decodeWord_hdr hdec)]
  simp [hdec, Word.hdr]

end

/-! ## A bobbin access that a check stops -/

theorem raise_untranslated {x : Spindle} {sh : Share} {r : Raise} (htf : r.tf = none) (slot cls opc n : Nat)
    (g1 g2 : Word) : raise x sh r slot cls opc n g1 g2 = raise x sh r slot cls opc n := by
  simp [raise, htf]

section
variable {h : Hdr} {opc n : Nat} {signed : Bool} {rd ra : Fin 32} {off : BitVec 32} {s : State} {w : Instr}

theorem effOf_ld4 (t : State) : effOf (.ld4 h rd ra off) t = effLoad h 0x32 4 true rd ra off t := rfl

theorem effOf_st4 (t : State) : effOf (.st4 h rd ra off) t = effStore h 0x3A 4 rd ra off t := rfl

theorem effLoad_stall (hneed : (s.sp h.sp).needS [ra] = [])
    (hread : ownBobbin h.sp (scalarAddr (s.sp h.sp) ra off) n = true →
      readStall s h.sp (scalarAddr (s.sp h.sp) ra off - bobbinBase h.sp) n = []) :
    (effLoad h opc n signed rd ra off s).stall = [] :=
  List.append_eq_nil_iff.mpr ⟨hneed, ite_eq_right_iff.mpr hread⟩

theorem effStore_stall (hneed : (s.sp h.sp).needS [ra, rd] = [])
    (hwrite : ownBobbin h.sp (scalarAddr (s.sp h.sp) ra off) n = true →
      writeStall s h.sp (scalarAddr (s.sp h.sp) ra off - bobbinBase h.sp) n = []) :
    (effStore h opc n rd ra off s).stall = [] :=
  List.append_eq_nil_iff.mpr ⟨hneed, ite_eq_right_iff.mpr hwrite⟩

theorem effLoad_holding :
    effLoad h opc n signed rd ra off (s.holding h.sp w) = effLoad h opc n signed rd ra off s := by
  have ha (x : Spindle) : scalarAddr { x with fetched := [w] } ra off = scalarAddr x ra off := rfl
  simp [effLoad, mkEff, ha]

theorem effStore_holding : effStore h opc n rd ra off (s.holding h.sp w) = effStore h opc n rd ra off s := by
  have ha (x : Spindle) : scalarAddr { x with fetched := [w] } ra off = scalarAddr x ra off := rfl
  simp [effStore, mkEff, ha]

end

section
variable {e : Eff} {p : Fin 136} {a n align detail : Nat} (hon : e.on = true)
  (hexc : e.exc = bobbinRaise p a n align detail)
include hon hexc

/-- Outside the spindle's own bobbin ILLEGAL is recorded, aligned or not (06 R160). -/
theorem pickRaise_outside (hown : ownBobbin p a n = false) :
    pickRaise [e] = some (e, { exc := .illegal, detail := 0x06 }) := by
  simp [pickRaise, hon, hexc, bobbinRaise, hown]

theorem pickRaise_misaligned (hown : ownBobbin p a n = true) (halign : a % align ≠ 0) :
    pickRaise [e] = some (e, { exc := .align, detail }) := by
  simp [pickRaise, hon, hexc, bobbinRaise, hown, halign]

end

section
variable {h : Hdr} {rd ra : Fin 32} {off : BitVec 32} {sh : Share} {s : State} {r : Raise} (hi : s.issues h)
  (hsh : (s.sp h.sp).share = some sh) (htf : r.tf = none)
include hi hsh htf

/-- A scalar word that nothing holds up and a check stops (06 R159, R160). -/
theorem scalarWord_traps {c : Instr} {e : Eff} {opc : Nat} (hc : c.hdr = some h)
    (hw : effOf c (s.holding h.sp c) = e) (hslot : e.slot = .c) (hcls : e.cls = 0) (hopc : e.opc = opc)
    (henc : e.enc = none) (hpick : e.on = true → pickRaise [e] = some (e, r)) (hst : e.stall = [])
    (hwt : e.waitS (s.sp h.sp) = []) :
    exec c s = .next (s.setSp h.sp (raise (s.sp h.sp) sh r 0 0 opc 1)) := by
  subst hw
  have hon : (effOf c (s.holding h.sp c)).on = true := (effOf_hdr hc _).2.trans (by simpa using hi.2.2)
  rw [exec_word hc, presentWord_traps hi hsh (effOf_hdr hc _).1 hon henc (hpick hon) htf hst hwt, hslot, hcls, hopc,
    raise_untranslated htf]
  rfl

theorem ld4_traps (hneed : (s.sp h.sp).needS [ra] = []) (hfree : (s.sp h.sp).freeS rd)
    (hread : ownBobbin h.sp (scalarAddr (s.sp h.sp) ra off) 4 = true →
      readStall s h.sp (scalarAddr (s.sp h.sp) ra off - bobbinBase h.sp) 4 = [])
    (hpick : ∀ e : Eff, e.on = true → e.exc = bobbinRaise h.sp (scalarAddr (s.sp h.sp) ra off) 4 4 0x04 →
      pickRaise [e] = some (e, r)) :
    exec (.ld4 h rd ra off) s = .next (s.setSp h.sp (raise (s.sp h.sp) sh r 0 0 0x32 1)) :=
  scalarWord_traps hi hsh htf rfl ((effOf_ld4 _).trans effLoad_holding) rfl rfl rfl rfl (fun hon => hpick _ hon rfl)
    (effLoad_stall hneed hread) (waitS_of_free rfl hfree)

theorem st4_traps (hneed : (s.sp h.sp).needS [ra, rd] = [])
    (hwrite : ownBobbin h.sp (scalarAddr (s.sp h.sp) ra off) 4 = true →
      writeStall s h.sp (scalarAddr (s.sp h.sp) ra off - bobbinBase h.sp) 4 = [])
    (hpick : ∀ e : Eff, e.on = true → e.exc = bobbinRaise h.sp (scalarAddr (s.sp h.sp) ra off) 4 4 0x04 →
      pickRaise [e] = some (e, r)) :
    exec (.st4 h rd ra off) s = .next (s.setSp h.sp (raise (s.sp h.sp) sh r 0 0 0x3A 1)) :=
  scalarWord_traps hi hsh htf rfl ((effOf_st4 _).trans effStore_holding) rfl rfl rfl rfl (fun hon => hpick _ hon rfl)
    (effStore_stall hneed hwrite) (waitS_nil rfl)

end

/-- Settles O22: an exception of each kind; a bundle outside its image, unformed or with an error in a word; a word that
decodes; the written words, decoded; and a load and a store that the bobbin's checks stop. -/
theorem exceptionsTaken : Obligations.ExceptionsTaken := by
  refine ⟨?taken, ?malformed, fun p w i sh s hsh hrun hf hlen hwhole hdec =>
    malformedBundle_decodes hsh hrun hf hlen hwhole hdec, ?decoded, ?bobbin⟩
  case taken =>
    intro p sh tr s hsh hph hquiet hserv x
    have hcaused := caused_share (tr := tr) hsh
    refine ⟨fun he => ?format, fun he => ?access, fun he => ?brk, fun he hroom him hc => ?page⟩
    case format =>
      rw [exec_exceptionTaken_format hsh hph hquiet hserv he, setPhase_eq hcaused]
      simp [State.caused, x]
    case access =>
      rw [exec_exceptionTaken_access hsh hph hquiet hserv he, setPhase_eq hcaused]
      simp [State.caused, x]
    case brk =>
      refine ⟨_, exec_exceptionTaken_brk hsh hph hquiet hserv he, ?_⟩
      obtain ⟨hsps, htr⟩ := breakRecord_frame (s := s) (sh := sh) (tr := tr) (s.caused p tr)
      generalize breakRecord s sh tr (s.caused p tr) = t at hsps htr ⊢
      have hsp : t.sp p = { x with cause := tr.cause } :=
        (congrArg (fun v => v.get p) hsps).trans (State.setSp_sp_same ..)
      rw [setPhase_eq (sh := sh) (by simpa [hsp] using hsh)]
      simp [hsp, htr, State.caused, breakFault]
    case page =>
      exact ⟨_, exec_exceptionTaken_page hsh hph hquiet hserv he, by
        simpa [State.caused] using pageOut_switches (s := s.caused p tr) (p := p) (sh := sh) (tr := tr) hroom him hc⟩
  case malformed =>
    intro p ws sh s hsh hrun hf hws x n trap traps
    refine ⟨fun hlen => ?_, fun hlen => ⟨fun hwhole => ?_, fun w d hwhole hw => ?_⟩⟩
    · exact congrArg Host.Outcome.next
        ((doMalformedBundle_outside hsh hrun hf hws hlen).trans (by rw [raise_illegal hf]; rfl))
    · exact congrArg Host.Outcome.next
        ((doMalformedBundle_unformed hsh hrun hf hws hlen hwhole).trans (by rw [raise_illegal hf]; rfl))
    · exact congrArg Host.Outcome.next
        ((doMalformedBundle_error hsh hrun hf hws hlen hwhole hw).trans (by rw [raise_illegal hf]; rfl))
  case decoded => decide
  case bobbin =>
    intro h rd ra off sh s hi hsh x a traps o ready storeReady
    refine ⟨fun hown => ⟨fun ⟨hneed, hfree, hread⟩ => ?_, fun ⟨hneed, hwrite⟩ => ?_⟩,
      fun hown halign => ⟨fun ⟨hneed, hfree, hread⟩ => ?_, fun ⟨hneed, hwrite⟩ => ?_⟩⟩
    · exact ld4_traps hi hsh rfl hneed hfree hread fun e hon hexc => pickRaise_outside hon hexc hown
    · exact st4_traps hi hsh rfl hneed hwrite fun e hon hexc => pickRaise_outside hon hexc hown
    · exact ld4_traps hi hsh rfl hneed hfree hread fun e hon hexc => pickRaise_misaligned hon hexc hown halign
    · exact st4_traps hi hsh rfl hneed hwrite fun e hon hexc => pickRaise_misaligned hon hexc hown halign

end Sys2Proof.Machine
end

section
/-!
PROOFS. Kernels (06 R136, R163; 12 R317, R322, R327): the dispatch of a KERNEL, the one that fails a check, and the launch
of a share. From these the statement O21.
-/

namespace Sys2Proof.Machine

/-! ## Descriptors -/

/-- The descriptor that may dispatch is one of its queue's. -/
theorem mem_of_nextDesc {prev p : Option Desc} {ds : List Desc} {d : Desc} (h : nextDesc prev ds = some (p, d)) :
    d ∈ ds := by
  induction ds generalizing prev with
  | nil => cases h
  | cons e ds ih =>
    unfold nextDesc at h
    split at h
    · cases h
      exact List.mem_cons_self
    · exact List.mem_cons_of_mem _ (ih h)

theorem mem_of_mayDispatch {s : State} {q : Fin 4096} {type : Nat} {d : Desc} (h : mayDispatch s q type = some d) :
    d ∈ (s.q q).descs := by
  unfold mayDispatch at h
  split at h
  · cases h
  · dsimp only at h
    split at h
    · cases h
    · next hnext =>
      simp only [Option.ite_none_right_eq_some, Option.some.injEq] at h
      obtain ⟨-, rfl⟩ := h
      exact mem_of_nextDesc hnext

theorem descOf_of_mem {s : State} {q : Fin 4096} {d : Desc} (h : d ∈ (s.q q).descs) : ∃ e, descOf s q d.seq = some e :=
  Option.isSome_iff_exists.mp (List.find?_isSome.mpr ⟨d, h, by simp⟩)

/-- A descriptor changed under its number. -/
theorem descOf_setDesc {s : State} {q : Fin 4096} {seq : Nat} {f : Desc → Desc} (hf : ∀ d, (f d).seq = d.seq) :
    descOf (setDesc s q seq f) q seq = (descOf s q seq).map f := by
  have hseq (d : Desc) : (if d.seq = seq then f d else d).seq = d.seq := by split <;> simp [hf]
  simp only [descOf, setDesc, State.setQ_q_same, List.find?_map, Function.comp_def, hseq]
  cases hd : (s.q q).descs.find? fun d => d.seq = seq with
  | none => rfl
  | some d =>
    have : d.seq = seq := by simpa using List.find?_some hd
    simp [this]

theorem descOf_congr {s t : State} (h : t.queues = s.queues) (q : Fin 4096) (seq : Nat) :
    descOf t q seq = descOf s q seq := by
  simp only [descOf, State.q, h]

/-- The start of a descriptor changes its queue and the grant that it asks for alone. -/
theorem startDesc_keeps {α : Type} {f : State → α} (hq : ∀ s n x, f (State.setQ s n x) = f s)
    (hp : ∀ s x, f (State.setPwr s x) = f s) (s : State) (q : Fin 4096) (seq : Nat) :
    f (startDesc s q seq) = f s := by
  refine (hq _ _ _).trans ?_
  unfold wantGrant
  split
  · split
    · rfl
    · exact hp _ _
  · rfl

theorem wantGrant_queues (s : State) (q : Fin 4096) (seq : Nat) : (wantGrant s q seq).queues = s.queues := by
  unfold wantGrant
  split
  · split <;> rfl
  · rfl

theorem startDesc_runs {s : State} {q : Fin 4096} {seq : Nat} {e : Desc} (h : descOf s q seq = some e) :
    (descOf (startDesc s q seq) q seq).map (·.st) = some .running := by
  rw [startDesc, descOf_setDesc, descOf_congr (wantGrant_queues s q seq), h]
  · rfl
  · exact fun _ => rfl

/-- A running descriptor finishes (12 R329, R330). -/
theorem finish_finishes {s : State} {q : Fin 4096} {seq : Nat} (h : (descOf s q seq).map (·.st) = some .running)
    (st : Status) (flags : Flags) (code detail value : Nat) :
    (descOf (finish s q seq st flags code detail value) q seq).map (·.st) =
      some (.finished st flags code detail (BitVec.ofNat 64 value)) := by
  obtain ⟨e, he, hst⟩ := Option.map_eq_some_iff.mp h
  rw [finish, descOf_setDesc, he]
  · simp [hst]
  · intro d
    cases d.st <;> rfl

/-- A descriptor that fails a check completes with the check's status alone (12 R322; log 92). -/
theorem failDesc_finishes {s : State} {q : Fin 4096} {seq : Nat} {e : Desc} (h : descOf s q seq = some e) (st : Status) :
    (descOf (failDesc s q seq st) q seq).map (·.st) = some (.finished st {} 0 0 0) :=
  finish_finishes (startDesc_runs h) st noFlags 0 0 0

/-! ## The dispatch of a KERNEL -/

theorem kernelWalks_keeps {α : Type} {f : State → α} (hf : OffWalk f) (s : State) (q : Fin 4096) (ls : List (Fin 128))
    (segs : List Seg) : f (kernelWalks s q ls segs) = f s :=
  foldl_keeps f _ (fun s k => lookUpSegs_keeps hf s k _ _) _ _

/-- The kernel of a descriptor that dispatches: a share for each spindle of its set waits (06 R136; 12 R317). -/
def kernelOfDesc (s : State) (q : Fin 4096) (d : Desc) (segs args : List Seg) : Kernel :=
  let ls := spinList (kernelBody d.raw).spins
  { queue := q, seq := d.seq, segs, args, seed := seedFor s q d, warm := s.mgmt.phase == .warmup
    count := ls.length, waiting := (List.range ls.length).zip ls, ended := [] }

theorem kernelOfDesc_waiting (s : State) (q : Fin 4096) (d : Desc) (segs args : List Seg) :
    (kernelOfDesc s q d segs args).waiting.map (·.2) = spinList (kernelBody d.raw).spins :=
  List.map_snd_zip (by simp)

/-- A state with one kernel more. -/
def State.addKernel (s : State) (k : Kernel) : State := { s with kernels := s.kernels ++ [k] }

theorem State.addKernel_kernels (s : State) (k : Kernel) : (s.addKernel k).kernels = s.kernels ++ [k] := rfl

theorem State.addKernel_spindles (s : State) (k : Kernel) : (s.addKernel k).spindles = s.spindles := rfl

theorem State.addKernel_mem (s : State) (k : Kernel) : (s.addKernel k).mem = s.mem := rfl

theorem descOf_addKernel (s : State) (k : Kernel) (q : Fin 4096) (seq : Nat) :
    descOf (s.addKernel k) q seq = descOf s q seq := rfl

/-- The state after the look-ups and the start of a KERNEL that dispatches. -/
def kernelStarts (s : State) (q : Fin 4096) (d : Desc) (segs : List Seg) : State :=
  startDesc (kernelWalks s q (spinList (kernelBody d.raw).spins) segs) q d.seq

theorem kernelStarts_keeps {α : Type} {f : State → α} (hf : OffWalk f) (hq : ∀ s n x, f (State.setQ s n x) = f s)
    (hp : ∀ s x, f (State.setPwr s x) = f s) (s : State) (q : Fin 4096) (d : Desc) (segs : List Seg) :
    f (kernelStarts s q d segs) = f s :=
  (startDesc_keeps hq hp ..).trans (kernelWalks_keeps hf ..)

theorem kernelStarts_runs {s : State} {q : Fin 4096} {d e : Desc} (h : descOf s q d.seq = some e) (segs : List Seg) :
    (descOf (kernelStarts s q d segs) q d.seq).map (·.st) = some .running :=
  startDesc_runs ((descOf_congr (kernelWalks_keeps offWalk_queues ..) q d.seq).trans h)

section
variable {s : State} {q : Fin 4096} {d : Desc} (hd : mayDispatch s q 0 = some d)
include hd

theorem doKernel_fails {st : Status} (hst : kernelCheck d.raw = some st) : doKernel q s = failDesc s q d.seq st := by
  simp [doKernel, hd, hst]

theorem doKernel_dispatches {segs args : List Seg} (hcheck : kernelCheck d.raw = none)
    (himage : resolveDesc s q false .fetch (kernelBody d.raw).image (kernelBody d.raw).imageLen = .ok segs)
    (hargs : resolveDesc s q false .fetch (kernelBody d.raw).args (kernelBody d.raw).argLen = .ok args)
    (hmig : d.waitMig = false) :
    doKernel q s = (kernelStarts s q d (segs ++ args)).addKernel (kernelOfDesc s q d segs args) := by
  simp [doKernel, hd, hcheck, kernelReach, himage, hargs, hmig, kernelOfDesc, kernelStarts, State.addKernel]

end

/-! ## The launch of a share -/

section
variable (x : Spindle) (p : Fin 136) (k : Kernel) (b : KernelBody) (i : Nat) (l : Fin 128) (args : List Byte)

/-- The launch registers (06 R163). -/
theorem launchState_rs (r : Fin 32) : (launchState x p k b i l args).rs r =
    if r = 1 ∨ r = 2 then BitVec.ofNat 64 (bobbinBase p)
    else if r = 3 then BitVec.ofNat 64 l.val
    else if r = 4 then BitVec.ofNat 64 i
    else if r = 5 then BitVec.ofNat 64 k.count
    else if r = 6 then BitVec.ofNat 64 k.queue.val else 0 := by
  simp only [Spindle.rs, launchState, get_upd, get_rep]
  split_ifs <;> simp_all

theorem launchState_rp (r : Fin 8) : (launchState x p k b i l args).rp r = decide (r = 0) := by
  simp [Spindle.rp, launchState]

end

/-- What a launched share finds (06 R163). -/
theorem launchState_launches (x : Spindle) (p : Fin 136) (k : Kernel) (b : KernelBody) (i : Nat) (l : Fin 128)
    (args : List Byte) :
    let y := launchState x p k b i l args
    (∀ r : Fin 32, y.rs r =
       if r = 1 ∨ r = 2 then BitVec.ofNat 64 (bobbinBase p)
       else if r = 3 then BitVec.ofNat 64 l.val
       else if r = 4 then BitVec.ofNat 64 i
       else if r = 5 then BitVec.ofNat 64 k.count
       else if r = 6 then BitVec.ofNat 64 k.queue.val else 0) ∧
    (∀ r : Fin 8, y.rp r = decide (r = 0)) ∧ y.v = rep 32 (rep 128 0) ∧ y.e = rep 8 0 ∧ y.tok = rep 16 .free ∧
    y.tile = rep 4 {} ∧ y.rowFile = rep 128 .empty ∧ y.flags = {} ∧ y.cause = 0 ∧ y.cycle = 0 ∧
    y.seed = k.seed ∧ y.step = BitVec.ofNat 32 b.step ∧ y.pc = BitVec.ofNat 22 (b.entry / 8) ∧
    y.share.map (fun h => (h.queue, h.seq, h.index, h.count, h.logical, h.imageLen, h.phase)) =
      some (k.queue, k.seq, i, k.count, l, b.imageLen, .running) ∧
    y.bobbin = cellsWrite (if x.owner = some (queueOwner k.queue) ∨ x.owner = none then x.bobbin else []) 0 args :=
  ⟨launchState_rs x p k b i l args, launchState_rp x p k b i l args, rfl, rfl, rfl, rfl, rfl, rfl, rfl, rfl, rfl, rfl, rfl,
    rfl, rfl⟩

section
variable {s : State} {q : Fin 4096} {p : Fin 136} {k : Kernel} {w : Nat × Fin 128} {d : Desc}

/-- The state after the accesses of a launch: its arguments are read, and its queue has been served at the spindle. -/
def launchReads (s : State) (q : Fin 4096) (p : Fin 136) (k : Kernel) (b : KernelBody) : State :=
  serveSpindle (touchSegs s k.args b.args b.argLen false) q p

theorem launchReads_spindles (b : KernelBody) : (launchReads s q p k b).spindles = s.spindles :=
  touchSegs_spindles ..

theorem launchReads_cells (b : KernelBody) : (launchReads s q p k b).mem.cells = s.mem.cells :=
  touchSegs_cells ..

/-- A share whose image and arguments are mapped and sound starts (06 R163). -/
theorem doShareLaunch_starts (hmay : mayLaunch s p = true) (hturn : spindleTurn s q p = true)
    (hk : s.kernels.findSome? (fun j => if j.queue = q ∧ !j.stopped ∧ mayHost s p j then
       (j.waiting.find? fun w => shareTurn s j p w.2).map fun w => (j, w) else none) = some (k, w))
    (hd : descOf s q k.seq = some d)
    (hmap : segsMapped (launchReads s q p k (kernelBody d.raw)) (k.segs ++ k.args) = true)
    (hargs : firstPoison (launchReads s q p k (kernelBody d.raw)) k.args (kernelBody d.raw).args
      (kernelBody d.raw).argLen = none)
    (himage : firstPoison (launchReads s q p k (kernelBody d.raw)) k.segs (kernelBody d.raw).image
      (kernelBody d.raw).imageLen = none) :
    let b := kernelBody d.raw
    let s1 := launchReads s q p k b
    doShareLaunch q p s = setKernel (s1.setSp p
      (launchState (s1.sp p) p k b w.1 w.2 (readSegs s1 k.args b.args b.argLen))) q k.seq
        fun k => { k with waiting := k.waiting.filter fun v => v != w } := by
  rw [launchReads] at hmap hargs himage
  simp only [doShareLaunch, hmay, hturn, hk, hd, hmap, hargs, himage, launchEnds]
  simp [poisonRecord, launchReads]

theorem setKernel_sp (s : State) (q : Fin 4096) (seq : Nat) (f : Kernel → Kernel) (i : Fin 136) :
    (setKernel s q seq f).sp i = s.sp i := rfl

theorem setKernel_cells (s : State) (q : Fin 4096) (seq : Nat) (f : Kernel → Kernel) (x : Spindle) :
    (setKernel (s.setSp p x) q seq f).mem.cells = s.mem.cells := rfl

/-- The kernel whose share starts is one of the queue's. -/
theorem queue_of_launch (hk : s.kernels.findSome? (fun j => if j.queue = q ∧ !j.stopped ∧ mayHost s p j then
    (j.waiting.find? fun w => shareTurn s j p w.2).map fun w => (j, w) else none) = some (k, w)) : k.queue = q := by
  obtain ⟨j, -, hj⟩ := List.exists_of_findSome?_eq_some hk
  split at hj
  · next h =>
    obtain ⟨v, -, hv⟩ := Option.map_eq_some_iff.mp hj
    obtain ⟨rfl, -⟩ := Prod.mk.inj hv
    exact h.1
  · cases hj

end

/-- Settles O21: the dispatch starts the descriptor and adds its kernel; a failed check finishes it; the launch puts
`launchState` on the spindle. -/
theorem kernelsStart : Obligations.KernelsStart := by
  refine ⟨?kernel, ?launch⟩
  case kernel =>
    intro q d segs args s hd b
    obtain ⟨e, he⟩ := descOf_of_mem (mem_of_mayDispatch hd)
    refine ⟨fun hcheck himage hargs hmig => ?dispatch, fun st hst => ?fail⟩
    case dispatch =>
      have hkernels : (kernelStarts s q d (segs ++ args)).kernels = s.kernels :=
        kernelStarts_keeps offWalk_kernels (fun _ _ _ => rfl) (fun _ _ => rfl) ..
      have hspindles : (kernelStarts s q d (segs ++ args)).spindles = s.spindles :=
        kernelStarts_keeps offWalk_spindles (fun _ _ _ => rfl) (fun _ _ => rfl) ..
      have hcells : (kernelStarts s q d (segs ++ args)).mem.cells = s.mem.cells :=
        kernelStarts_keeps offWalk_cells (fun _ _ _ => rfl) (fun _ _ => rfl) ..
      refine ⟨_, kernelOfDesc s q d segs args,
        congrArg Host.Outcome.next (doKernel_dispatches hd hcheck himage hargs hmig), ?_,
        rfl, rfl, rfl, rfl, rfl, rfl, rfl, kernelOfDesc_waiting .., ?_, ?_, ?_⟩
      · rw [State.addKernel_kernels, hkernels]
      · rw [descOf_addKernel, kernelStarts_runs he]
      · rw [State.addKernel_spindles, hspindles]
      · rw [State.addKernel_mem, hcells]
    case fail =>
      exact ⟨congrArg Host.Outcome.next (doKernel_fails hd hst), failDesc_finishes he st⟩
  case launch =>
    intro q p k w d s hmay hturn hk hd b s1 hmap hargs himage
    have hs1 : s1 = launchReads s q p k b := rfl
    clear_value s1
    subst hs1
    have hsp (i : Fin 136) : (launchReads s q p k b).sp i = s.sp i :=
      congrArg (fun v => v.get i) (launchReads_spindles b)
    refine ⟨_, congrArg Host.Outcome.next (doShareLaunch_starts hmay hturn hk hd hmap hargs himage), ?_, fun i hi => ?_,
      ?_⟩
    · rw [setKernel_sp, State.setSp_sp_same, hsp]
      exact launchState_launches ..
    · rw [setKernel_sp, State.setSp_sp_ne _ _ _ _ hi, hsp]
    · rw [setKernel_cells, launchReads_cells]

end Sys2Proof.Machine
end

section
/-!
PROOFS. The scalar, branch and system words (07 R171 to R179): each passes its checks and changes its spindle alone.
From these the statements O5 to O9.
-/

namespace Sys2Proof.Machine

/-! ## Words that change their spindle alone -/

/-- A word that nothing stops, given what its acts do to the spindle that has moved on. -/
theorem advancedWord_runs {c : Instr} {h : Hdr} {s : State} {e : Eff} {f : Spindle → Spindle} (hc : c.hdr = some h)
    (hi : s.issues h) (hw : effOf c (s.holding h.sp c) = e) (henc : e.enc = none) (hexc : e.exc = [])
    (hst : e.stall = []) (hwt : e.waitS (s.sp h.sp) = [])
    (ha : ∀ t : State, t.sp h.sp = (s.sp h.sp).advance 1 [] →
      e.acts.foldl (fun t a => a.perform h.sp t) t = t.setSp h.sp (f (t.sp h.sp))) :
    exec c s = .next (s.ran h.sp f) := by
  subst hw
  exact word_runs hi (exec_word hc s) rfl (effOf_hdr hc _).1 ((effOf_hdr hc _).2.trans (by simp)) henc hexc hst hwt ha

/-! ## Register and immediate operations (07 R171, R172) -/

section
variable {c : Instr} {h : Hdr} {s : State} {opc lat : Nat} {rd ra rb : Fin 32} {v : Word} (hc : c.hdr = some h)
  (hi : s.issues h) (hrd : (s.sp h.sp).freeS rd)
include hc hi hrd

/-- A word of format S3 puts its function of two registers. -/
theorem s3Word_puts {f : Word → Word → Word} (hw : ∀ t, effOf c t = effS3 h opc lat rd ra rb f t)
    (hneed : (s.sp h.sp).needS [ra, rb] = []) (hv : f ((s.sp h.sp).rs ra) ((s.sp h.sp).rs rb) = v) :
    exec c s = .next (s.ran h.sp fun x => x.gets rd v lat) :=
  word_gets (opc := opc) hi (exec_word hc s) ((hw _).trans (by simp [effS3, hv])) hneed hrd

/-- A word of format SI puts its function of one register. -/
theorem siWord_puts {f : Word → Word} (hw : ∀ t, effOf c t = effSI h opc rd ra f t)
    (hneed : (s.sp h.sp).needS [ra] = []) (hv : f ((s.sp h.sp).rs ra) = v) :
    exec c s = .next (s.ran h.sp fun x => x.gets rd v 1) :=
  word_gets (opc := opc) hi (exec_word hc s) ((hw _).trans (by simp [effSI, hv])) hneed hrd

end

section
variable (a b : Word) (imm : BitVec 32)

/-- The upper half of a product of 128 bits (`mulhu`). -/
theorem ofNat_mul_div_eq_extractLsb' :
    BitVec.ofNat 64 (a.toNat * b.toNat / 2 ^ 64) = (a.setWidth 128 * b.setWidth 128).extractLsb' 64 64 := by
  have hab : a.toNat * b.toNat < 2 ^ 128 :=
    (Nat.mul_lt_mul'' a.isLt b.isLt).trans_eq (Nat.pow_add 2 64 64).symm
  have hwide : (a.setWidth 128 * b.setWidth 128).toNat = a.toNat * b.toNat := by
    rw [BitVec.toNat_mul, BitVec.toNat_setWidth_of_le (by decide), BitVec.toNat_setWidth_of_le (by decide),
      Nat.mod_eq_of_lt hab]
  rw [BitVec.extractLsb', hwide, Nat.shiftRight_eq_div_pow]

/-- The immediate above the lower half of a register (`movhi`). -/
theorem setWidth_shiftLeft_add_low_eq_append :
    imm.setWidth 64 <<< 32 + (a &&& 0xFFFFFFFF#64) = (imm ++ a.setWidth 32 : BitVec (32 + 32)) := by
  have hlow : (a &&& 0xFFFFFFFF#64).toNat = a.toNat % 2 ^ 32 := by
    rw [BitVec.toNat_and]
    exact Nat.and_two_pow_sub_one_eq_mod a.toNat 32
  have himm := imm.isLt
  apply BitVec.eq_of_toNat_eq
  rw [BitVec.toNat_append, BitVec.toNat_setWidth, ← Nat.shiftLeft_add_eq_or_of_lt (Nat.mod_lt _ (by decide)),
    BitVec.toNat_add, hlow, BitVec.toNat_shiftLeft, BitVec.toNat_setWidth, Nat.shiftLeft_eq, Nat.shiftLeft_eq]
  omega

/-- Where equal keys mean equal values, a choice by `<` is the choice by `≤`. -/
theorem ite_lt_eq_ite_le {α β : Type} [LinearOrder α] {x y : α} {u v : β} (h : x = y → u = v) :
    (if x < y then u else v) = if x ≤ y then u else v := by
  rcases lt_trichotomy x y with hlt | heq | hgt
  · rw [if_pos hlt, if_pos hlt.le]
  · rw [if_neg heq.not_lt, if_pos heq.le, h heq]
  · rw [if_neg hgt.not_gt, if_neg hgt.not_ge]

theorem ite_slt_eq_ite_toInt_le {u v : Word} (h : a = b → u = v) :
    (if a.slt b then u else v) = if a.toInt ≤ b.toInt then u else v := by
  simp only [BitVec.slt_iff_toInt_lt]
  exact ite_lt_eq_ite_le fun heq => h (BitVec.eq_of_toInt_eq heq)

theorem ite_ult_eq_ite_toNat_le {u v : Word} (h : a = b → u = v) :
    (if a.ult b then u else v) = if a.toNat ≤ b.toNat then u else v := by
  simp only [BitVec.ult_iff_toNat_lt]
  exact ite_lt_eq_ite_le fun heq => h (BitVec.eq_of_toNat_eq heq)

end

/-- Settles O5: each word puts its function of its operands, which for `mulhu`, the minima, the maxima and `movhi` is
the one that the statement names by a law of words. -/
theorem scalarOperations : Obligations.ScalarOperations := by
  refine ⟨?register, ?immediate⟩
  case register =>
    intro h rd ra rb s hi hneed hrd a b n puts
    have op {c : Instr} {opc lat : Nat} {v : Word} (f : Word → Word → Word) (hc : c.hdr = some h)
        (hw : ∀ t, effOf c t = effS3 h opc lat rd ra rb f t) (hv : f a b = v) : exec c s = puts v lat :=
      s3Word_puts hc hi hrd hw hneed hv
    exact ⟨op (· + ·) rfl (fun _ => rfl) rfl, op (· - ·) rfl (fun _ => rfl) rfl,
      op (· &&& ·) rfl (fun _ => rfl) rfl, op (· ||| ·) rfl (fun _ => rfl) rfl,
      op (· ^^^ ·) rfl (fun _ => rfl) rfl,
      op (· <<< shiftAmt ·) rfl (fun _ => rfl) rfl, op (· >>> shiftAmt ·) rfl (fun _ => rfl) rfl,
      op (fun a b => a.sshiftRight (shiftAmt b)) rfl (fun _ => rfl) rfl, op (· * ·) rfl (fun _ => rfl) rfl,
      op (fun a b => BitVec.ofNat 64 (a.toNat * b.toNat / 2 ^ 64)) rfl (fun _ => rfl)
        (ofNat_mul_div_eq_extractLsb' a b),
      op (fun a b => if a.slt b then a else b) rfl (fun _ => rfl) (ite_slt_eq_ite_toInt_le a b id),
      op (fun a b => if a.slt b then b else a) rfl (fun _ => rfl) (ite_slt_eq_ite_toInt_le a b Eq.symm),
      op (fun a b => if a.ult b then a else b) rfl (fun _ => rfl) (ite_ult_eq_ite_toNat_le a b id),
      op (fun a b => if a.ult b then b else a) rfl (fun _ => rfl) (ite_ult_eq_ite_toNat_le a b Eq.symm)⟩
  case immediate =>
    intro h rd ra imm sh s hi hneed hrd a i puts
    have op {c : Instr} {opc : Nat} {v : Word} (f : Word → Word) (hc : c.hdr = some h)
        (hw : ∀ t, effOf c t = effSI h opc rd ra f t) (hv : f a = v) : exec c s = puts v :=
      siWord_puts hc hi hrd hw hneed hv
    exact ⟨op (· + i) rfl (fun _ => rfl) rfl, op (· &&& i) rfl (fun _ => rfl) rfl,
      op (· ||| i) rfl (fun _ => rfl) rfl, op (· ^^^ i) rfl (fun _ => rfl) rfl,
      op (· <<< sh.val) rfl (fun _ => rfl) rfl, op (· >>> sh.val) rfl (fun _ => rfl) rfl,
      op (·.sshiftRight sh.val) rfl (fun _ => rfl) rfl,
      word_gets (need := []) hi rfl rfl rfl hrd,
      op (fun a => imm.setWidth 64 <<< 32 + (a &&& 0xFFFFFFFF#64)) rfl (fun _ => rfl)
        (setWidth_shiftLeft_add_low_eq_append a imm)⟩

/-! ## Compares and predicate operations (07 R173) -/

/-- The second operand of a compare. -/
def cmpValue (x : Spindle) : CmpSrc → Word
  | .reg r => x.rs r
  | .imm i => sext i

/-- The registers that a compare with `ra` reads. -/
def cmpRegs (ra : Fin 32) : CmpSrc → List (Fin 32)
  | .reg r => [ra, r]
  | .imm _ => [ra]

section
variable {h : Hdr} {s : State} {opc : Nat} {pd : Fin 8} {ra : Fin 32} {b : CmpSrc} {w : Instr}

theorem effCmp_eq (f : Word → Word → Bool) : effCmp h opc pd ra b f s = { mkEff h .c 0 opc s with
    dests := [.p pd], stall := (s.sp h.sp).needS (cmpRegs ra b)
    acts := [.wr (.p pd (f ((s.sp h.sp).rs ra) (cmpValue (s.sp h.sp) b)))] } := by
  cases b <;> rfl

theorem effCmp_holding {f : Word → Word → Bool} :
    effCmp h opc pd ra b f (s.holding h.sp w) = effCmp h opc pd ra b f s := by cases b <;> simp [effCmp, mkEff]

theorem effPred_holding {v : Bool} : effPred h opc pd v (s.holding h.sp w) = effPred h opc pd v s := by
  simp [effPred, mkEff]

end

section
variable {c : Instr} {h : Hdr} {s : State} {opc : Nat} {pd : Fin 8} {ra : Fin 32} {b : CmpSrc} {v : Bool}

section
variable (hc : c.hdr = some h) (hi : s.issues h)
include hc hi

/-- A word that writes one predicate. -/
theorem predicateWord_puts {e : Eff} (hw : effOf c (s.holding h.sp c) = e) (henc : e.enc = none) (hexc : e.exc = [])
    (hst : e.stall = []) (hd : e.dests = [.p pd]) (ha : e.acts = [.wr (.p pd v)]) :
    exec c s = .next (s.ran h.sp fun x => x.wp pd v) :=
  cleanWord_runs hc hi hw henc hexc hst (waitS_of_no_s (by simp [hd])) fun _ => by rw [ha]; rfl

/-- A compare puts its test of its operands. -/
theorem cmpWord_puts {f : Word → Word → Bool} (hw : ∀ t, effOf c t = effCmp h opc pd ra b f t)
    (hneed : (s.sp h.sp).needS (cmpRegs ra b) = []) (hv : f ((s.sp h.sp).rs ra) (cmpValue (s.sp h.sp) b) = v) :
    exec c s = .next (s.ran h.sp fun x => x.wp pd v) :=
  hv ▸ predicateWord_puts hc hi (by rw [hw, effCmp_holding, effCmp_eq]) rfl rfl hneed rfl rfl

/-- A predicate operation puts its function of the predicates. -/
theorem logicWord_puts {f : (Fin 8 → Bool) → Bool} (hw : ∀ t, effOf c t = effPred h opc pd (f (t.sp h.sp).rp) t)
    (hv : f (s.sp h.sp).rp = v) : exec c s = .next (s.ran h.sp fun x => x.wp pd v) := by
  have hrp : ((s.holding h.sp c).sp h.sp).rp = (s.sp h.sp).rp := by rw [State.holding_sp]; rfl
  exact predicateWord_puts hc hi (by rw [hw, hrp, hv, effPred_holding]) rfl rfl rfl rfl rfl

end

/-- The six compares, with a register or an immediate. -/
theorem compares_put (hi : s.issues h) (hneed : (s.sp h.sp).needS (cmpRegs ra b) = []) :
    let x := (s.sp h.sp).rs ra
    let y := cmpValue (s.sp h.sp) b
    let puts (v : Bool) : Res := .next (s.ran h.sp fun z => z.wp pd v)
    exec (.cmpEq h pd ra b) s = puts (decide (x = y)) ∧
    exec (.cmpNe h pd ra b) s = puts (decide (x ≠ y)) ∧
    exec (.cmpLt h pd ra b) s = puts (decide (x.toInt < y.toInt)) ∧
    exec (.cmpGe h pd ra b) s = puts (decide (y.toInt ≤ x.toInt)) ∧
    exec (.cmpLtu h pd ra b) s = puts (decide (x.toNat < y.toNat)) ∧
    exec (.cmpGeu h pd ra b) s = puts (decide (y.toNat ≤ x.toNat)) := by
  intro x y puts
  have cmp {c : Instr} {opc : Nat} {v : Bool} (f : Word → Word → Bool) (hc : c.hdr = some h)
      (hw : ∀ t, effOf c t = effCmp h opc pd ra b f t) (hv : f x y = v) : exec c s = puts v :=
    cmpWord_puts hc hi hw hneed hv
  exact ⟨cmp (· == ·) rfl (fun _ => rfl) rfl, cmp (· != ·) rfl (fun _ => rfl) (decide_not ..).symm,
    cmp (·.slt ·) rfl (fun _ => rfl) rfl, cmp (!·.slt ·) rfl (fun _ => rfl) BitVec.sle_eq_not_slt.symm,
    cmp (·.ult ·) rfl (fun _ => rfl) rfl, cmp (!·.ult ·) rfl (fun _ => rfl) (BitVec.ule_eq_not_ult ..).symm⟩

end

/-- Settles O6: each compare puts its test of its operands, and each predicate word its function of predicates. -/
theorem comparesAndPredicates : Obligations.ComparesAndPredicates := by
  intro h pd pa pb ra rb imm s hi x a b i puts
  refine ⟨fun hneed => ?register, fun hneed => ?immediate, ?pand, ?por, ?pxor, ?pnot⟩
  case register => exact compares_put (b := .reg rb) hi hneed
  case immediate => exact compares_put (b := .imm imm) hi hneed
  case pand => exact logicWord_puts (f := fun p => p pa && p pb) rfl hi (fun _ => rfl) rfl
  case por => exact logicWord_puts (f := fun p => p pa || p pb) rfl hi (fun _ => rfl) rfl
  case pxor => exact logicWord_puts (f := fun p => p pa != p pb) rfl hi (fun _ => rfl) rfl
  case pnot => exact logicWord_puts (f := fun p => !p pa) rfl hi (fun _ => rfl) rfl

/-! ## Loads and stores (07 R174) -/

/-- The number of a two's complement code is the integer of its word. -/
theorem signedOf_eq_toInt {w : Nat} (hw : 0 < w) (x : Nat) : Sys2Proof.signedOf w x = (BitVec.ofNat w x).toInt := by
  have hpow : 2 ^ w = 2 * 2 ^ (w - 1) := (mul_pow_sub_one hw.ne' 2).symm
  have hhalf : 2 * (x % 2 ^ w) < 2 ^ w ↔ x % 2 ^ w < 2 ^ (w - 1) := by omega
  rw [BitVec.toInt_eq_toNat_cond, BitVec.toNat_ofNat, Sys2Proof.signedOf]
  simp only [hhalf]
  push_cast
  rfl

/-- The word that a load of `n` bytes with value `x` leaves. -/
def loadedWord (signed : Bool) (n x : Nat) : Word :=
  if signed then (BitVec.ofNat (8 * n) x).signExtend 64 else BitVec.ofNat 64 x

theorem effLoad_acts {h : Hdr} {opc n : Nat} {signed : Bool} {rd ra : Fin 32} {off : BitVec 32} {s : State}
    (hn : 0 < n) : (effLoad h opc n signed rd ra off s).acts = [.late rd (loadedWord signed n
      (leNat (cellsRead (s.sp h.sp).bobbin (scalarAddr (s.sp h.sp) ra off - bobbinBase h.sp) n))) 4] := by
  simp only [effLoad, loadedWord, signedOf_eq_toInt (w := 8 * n) (by omega)]
  rfl

/-- A byte of a word as its stored bytes have it. -/
theorem ofNat_toNat_div_eq_extractLsb' {w : Nat} (x : BitVec w) (i : Nat) :
    BitVec.ofNat 8 (x.toNat / 256 ^ i) = x.extractLsb' (8 * i) 8 := by
  rw [BitVec.extractLsb', Nat.shiftRight_eq_div_pow, Nat.pow_mul]

/-- The low bytes of a word are stored lowest first. -/
theorem cellGet_cellsWrite_leBytes {m : List Host.Cell} (hm : Memory.wf m = true) (o : Nat) {n i : Nat} (x : Word)
    (hi : i < n) : cellGet (cellsWrite m o (leBytes n x.toNat)) (o + i) = x.extractLsb' (8 * i) 8 := by
  rw [cellGet_cellsWrite hm, if_pos (Nat.le_add_right _ _), Nat.add_sub_cancel_left, List.getD_eq_getElem?_getD,
    leBytes_getElem? _ hi, ← ofNat_toNat_div_eq_extractLsb', Option.getD_some]

section
variable {c : Instr} {h : Hdr} {s : State} {opc n : Nat} {ra : Fin 32} {off : BitVec 32} (hc : c.hdr = some h)
  (hi : s.issues h) (hown : ownBobbin h.sp (scalarAddr (s.sp h.sp) ra off) n = true)
  (halign : scalarAddr (s.sp h.sp) ra off % n = 0)
include hc hi hown halign

/-- A load puts what its bytes say. -/
theorem load_puts {signed : Bool} {rd : Fin 32} (hw : ∀ t, effOf c t = effLoad h opc n signed rd ra off t) (hn : 0 < n)
    (hneed : (s.sp h.sp).needS [ra] = []) (hrd : (s.sp h.sp).freeS rd)
    (hread : readStall s h.sp (scalarAddr (s.sp h.sp) ra off - bobbinBase h.sp) n = []) :
    exec c s = .next (s.ran h.sp fun x => x.gets rd (loadedWord signed n
      (leNat (cellsRead (s.sp h.sp).bobbin (scalarAddr (s.sp h.sp) ra off - bobbinBase h.sp) n))) 4) :=
  cleanWord_runs hc hi ((hw _).trans effLoad_holding) rfl (bobbinRaise_eq_nil hown halign)
    (effLoad_stall hneed fun _ => hread) (waitS_of_free rfl hrd) fun _ => by rw [effLoad_acts hn]; rfl

/-- A store writes the low bytes of its register. -/
theorem store_writes {rs : Fin 32} (hw : ∀ t, effOf c t = effStore h opc n rs ra off t)
    (hneed : (s.sp h.sp).needS [ra, rs] = [])
    (hwrite : writeStall s h.sp (scalarAddr (s.sp h.sp) ra off - bobbinBase h.sp) n = []) :
    exec c s = .next (s.ran h.sp fun y => { y with
      bobbin := cellsWrite (s.sp h.sp).bobbin (scalarAddr (s.sp h.sp) ra off - bobbinBase h.sp)
        (leBytes n ((s.sp h.sp).rs rs).toNat) }) :=
  storeWord_runs hi (exec_word hc s) ((hw _).trans effStore_holding) rfl rfl rfl (bobbinRaise_eq_nil hown halign)
    (effStore_stall hneed fun _ => hwrite) rfl rfl

end

/-- Settles O7: each load puts what its bytes say, and each store writes its bytes and leaves the others. -/
theorem scalarMemory : Obligations.ScalarMemory := by
  refine ⟨?load, ?store⟩
  case load =>
    intro h rd ra off s hi hneed hrd x a o fits v puts
    have load {c : Instr} {opc : Nat} (signed : Bool) (n : Nat) (hn : 0 < n) (hfits : fits n) (hc : c.hdr = some h)
        (hw : ∀ t, effOf c t = effLoad h opc n signed rd ra off t) : exec c s = puts (loadedWord signed n (v n)) := by
      obtain ⟨hlow, hhigh, halign, hread⟩ := hfits
      have hown : ownBobbin h.sp a n = true := Bool.and_eq_true_iff.mpr ⟨decide_eq_true hlow, decide_eq_true hhigh⟩
      exact load_puts hc hi hown halign hw hn hneed hrd hread
    refine ⟨fun hf => ⟨load true 1 (by decide) hf rfl fun _ => rfl, load false 1 (by decide) hf rfl fun _ => rfl⟩,
      fun hf => ⟨load true 2 (by decide) hf rfl fun _ => rfl, load false 2 (by decide) hf rfl fun _ => rfl⟩,
      fun hf => ⟨load true 4 (by decide) hf rfl fun _ => rfl, load false 4 (by decide) hf rfl fun _ => rfl⟩,
      fun hf => ?ld8⟩
    case ld8 =>
      rw [← BitVec.signExtend_eq (BitVec.ofNat 64 (v 8))]
      exact load true 8 (by decide) hf rfl fun _ => rfl
  case store =>
    intro h rs ra off s hi hcanon hneed x a o fits stores
    obtain ⟨-, hbobbin, -, -⟩ := hcanon
    have store {c : Instr} {opc n : Nat} (hc : c.hdr = some h) (hw : ∀ t, effOf c t = effStore h opc n rs ra off t) :
        stores c n := by
      rintro ⟨hown, halign, hwrite⟩
      refine ⟨_, store_writes hc hi hown halign hw hneed hwrite, ?_⟩
      rw [State.ran_sp]
      exact ⟨fun i hin => cellGet_cellsWrite_leBytes (hbobbin h.sp) o (x.rs rs) hin,
        fun i hout => cellGet_cellsWrite_outside (hbobbin h.sp) (by rwa [leBytes_length]), rfl⟩
    exact ⟨store rfl fun _ => rfl, store rfl fun _ => rfl, store rfl fun _ => rfl, store rfl fun _ => rfl⟩

/-! ## Branches (07 R176) -/

theorem targetRaise_aligned {t : Nat} (h : t % 8 = 0) : targetRaise t = [] := if_pos h

theorem pcTarget_of_lt {t : Nat} (h : t < 0x1000000) : pcTarget t = t := if_pos h

@[simp] theorem Spindle.gets_clk (x : Spindle) (r : Fin 32) (v : Word) (lat : Nat) : (x.gets r v lat).clk = x.clk := by
  unfold Spindle.gets Spindle.ws
  split <;> rfl

section
variable {c : Instr} {h : Hdr} {s : State} {ra : Fin 32} {off : BitVec 32} {w : Instr}

theorem effBr_holding : effBr h off (s.holding h.sp w) = effBr h off s := by simp [effBr, branchTarget, mkEff]

theorem effCall_holding : effCall h off (s.holding h.sp w) = effCall h off s := by simp [effCall, branchTarget, mkEff]

theorem effBdec_holding : effBdec h ra off (s.holding h.sp w) = effBdec h ra off s := by
  simp [effBdec, branchTarget, mkEff]

theorem effJr_holding : effJr h ra (s.holding h.sp w) = effJr h ra s := by simp [effJr, mkEff]

theorem effRet_holding : effRet h (s.holding h.sp w) = effRet h s := by simp [effRet, mkEff]

variable (hi : s.issues h)
include hi

/-- A word whose last act is a jump. -/
theorem jumpWord_goes {e : Eff} {t : Nat} {as : List Act} {f : Spindle → Spindle} (hc : c.hdr = some h)
    (hw : effOf c (s.holding h.sp c) = e) (henc : e.enc = none) (hexc : e.exc = targetRaise t) (hst : e.stall = [])
    (hwt : e.waitS (s.sp h.sp) = []) (ha : e.acts = as ++ [.jump (pcTarget t)]) (halign : t % 8 = 0)
    (hlt : t < 0x1000000) (hclk : ∀ y, (f y).clk = y.clk)
    (hf : ∀ u : State, as.foldl (fun u a => a.perform h.sp u) u = u.setSp h.sp (f (u.sp h.sp))) :
    exec c s = .next (s.ran h.sp fun y =>
      { f y with pc := BitVec.ofNat 22 (t / 8), nextIssue := (s.sp h.sp).clk + 3 }) := by
  refine advancedWord_runs hc hi hw henc (hexc.trans (targetRaise_aligned halign)) hst hwt fun u hu => ?_
  have hclk' : (u.sp h.sp).clk = (s.sp h.sp).clk := by rw [hu]; rfl
  rw [ha, List.foldl_append, hf]
  simp [Act.perform, pcTarget_of_lt hlt, hclk, hclk']

/-- A word that does nothing but jump. -/
theorem plainJump_goes {e : Eff} {t : Nat} (hc : c.hdr = some h) (hw : effOf c (s.holding h.sp c) = e)
    (henc : e.enc = none) (hexc : e.exc = targetRaise t) (hst : e.stall = []) (hdests : e.dests = [])
    (ha : e.acts = [.jump (pcTarget t)]) (halign : t % 8 = 0) (hlt : t < 0x1000000) :
    exec c s = .next (s.ran h.sp fun y =>
      { y with pc := BitVec.ofNat 22 (t / 8), nextIssue := (s.sp h.sp).clk + 3 }) :=
  jumpWord_goes (as := []) (f := id) hi hc hw henc hexc hst (waitS_nil hdests) ha halign hlt (fun _ => rfl)
    fun u => (u.setSp_self h.sp).symm

/-- `bdec` falls through when it counts down to 0 (07 R176). -/
theorem bdec_ends (hneed : (s.sp h.sp).needS [ra] = []) (hra : (s.sp h.sp).freeS ra)
    (halign : branchTarget (s.sp h.sp) off % 8 = 0) (hone : (s.sp h.sp).rs ra = 1) :
    exec (.bdec h ra off) s = .next (s.ran h.sp fun y => y.gets ra 0 1) :=
  cleanWord_runs rfl hi effBdec_holding rfl (targetRaise_aligned halign) hneed (waitS_of_free rfl hra) fun u => by
    simp [effBdec, hone, Act.perform, Spindle.gets]

/-- `bdec` branches while the count is not 0 (07 R176). -/
theorem bdec_goes (hneed : (s.sp h.sp).needS [ra] = []) (hra : (s.sp h.sp).freeS ra)
    (halign : branchTarget (s.sp h.sp) off % 8 = 0) (hlt : branchTarget (s.sp h.sp) off < 0x1000000)
    (hmore : (s.sp h.sp).rs ra ≠ 1) :
    exec (.bdec h ra off) s = .next (s.ran h.sp fun y => { y.gets ra ((s.sp h.sp).rs ra - 1) 1 with
      pc := BitVec.ofNat 22 (branchTarget (s.sp h.sp) off / 8), nextIssue := (s.sp h.sp).clk + 3 }) := by
  have hv : (s.sp h.sp).rs ra - 1 ≠ 0 := sub_ne_zero.mpr hmore
  have hacts : (effBdec h ra off s).acts = [.late ra ((s.sp h.sp).rs ra - 1) 1] ++
      [.jump (pcTarget (branchTarget (s.sp h.sp) off))] := by
    simp only [effBdec, if_neg hv]
    rfl
  exact jumpWord_goes (f := fun y => y.gets ra ((s.sp h.sp).rs ra - 1) 1) hi rfl effBdec_holding rfl rfl hneed
    (waitS_of_free rfl hra) hacts halign hlt (by simp) fun _ => rfl

end

/-- Settles O8: each branch goes to its target; `call` writes its link and `bdec` its count first. -/
theorem branches : Obligations.Branches := by
  intro h ra off s hi x target goes
  refine ⟨fun halign hlt => ⟨?br, fun hlink => ?call, fun hneed hra => ?bdec⟩, fun halign hlt hneed => ?jr,
    fun halign hlt hneed => ?ret⟩
  case br => exact plainJump_goes hi rfl effBr_holding rfl rfl rfl rfl rfl halign hlt
  case call =>
    exact jumpWord_goes (as := [.link]) (f := fun y => y.gets 31 (BitVec.ofNat 64 y.pcBytes) 1) hi rfl effCall_holding
      rfl rfl rfl (waitS_of_free rfl hlink) rfl halign hlt (by simp) fun _ => rfl
  case bdec =>
    by_cases hone : x.rs ra = 1
    · simp only [if_pos hone]
      exact bdec_ends hi hneed hra halign hone
    · simp only [if_neg hone]
      exact bdec_goes hi hneed hra halign hlt hone
  case jr => exact plainJump_goes hi rfl effJr_holding rfl rfl hneed rfl rfl halign hlt
  case ret => exact plainJump_goes hi rfl effRet_holding rfl rfl hneed rfl rfl halign hlt

/-! ## System words (07 R177 to R179) -/

section
variable {h : Hdr} {s : State} {rd ra : Fin 32} {csr : BitVec 12} {code : BitVec 8} {sh : Share} {w : Instr}

theorem csrValue_holding (x : Spindle) (ws : List Instr) (n : Nat) :
    csrValue { x with fetched := ws } n = csrValue x n := rfl

theorem csrEnc_assigned (h : csr.toNat ≤ 5) : csrEnc csr = none := if_pos h

theorem effCsrr_holding : effCsrr h rd csr (s.holding h.sp w) = effCsrr h rd csr s := by
  simp [effCsrr, mkEff, csrValue_holding]

theorem effCsrw_holding : effCsrw h csr ra (s.holding h.sp w) = effCsrw h csr ra s := by simp [effCsrw, mkEff]

variable (hi : s.issues h)
include hi

theorem nop_runs : exec (.nop h) s = .next (s.ran h.sp id) :=
  cleanWord_runs (e := effNop h (s.holding h.sp (.nop h))) rfl hi rfl rfl rfl rfl (waitS_nil rfl)
    fun u => (u.setSp_self h.sp).symm

section
variable (hsh : (s.sp h.sp).share = some sh)
include hsh

theorem end_runs : exec (.endShare h) s = .next (s.ran h.sp fun y =>
    { y with share := some { sh with phase := .ending } }) :=
  advancedWord_runs (e := effEnd h (s.holding h.sp (.endShare h))) rfl hi rfl rfl rfl rfl (waitS_nil rfl) fun u hu => by
    simp [effEnd, Act.perform, hu, Spindle.advance, Spindle.count, hsh]

/-- The exception that `brk` leaves to be taken (06 R140, 07 R177). -/
def breakTrap (code : BitVec 8) (pcBytes : Nat) : Trap :=
  { exc := .brk, cause := causeWord 5 0 code.toNat 7 2 pcBytes, len := 1 }

theorem brk_traps : exec (.brk h code) s = .next (s.setSp h.sp { s.sp h.sp with
    fetched := [], share := some { sh with phase := .trapping (breakTrap code (s.sp h.sp).pcBytes) } }) := by
  have hon : (effOf (.brk h code) (s.holding h.sp (.brk h code))).on = true :=
    (effOf_hdr rfl _).2.trans (by simpa using hi.2.2)
  have hexc : (effOf (.brk h code) (s.holding h.sp (.brk h code))).exc = [{ exc := .brk, detail := code.toNat }] := rfl
  have hpick : pickRaise [effOf (.brk h code) (s.holding h.sp (.brk h code))] =
      some (effOf (.brk h code) (s.holding h.sp (.brk h code)), { exc := .brk, detail := code.toNat }) := by
    simp [pickRaise, hon, hexc]
  rw [exec_word rfl, presentWord_traps hi hsh rfl hon rfl hpick rfl rfl (waitS_nil rfl)]
  rfl

end

/-- `csrr` puts the value of the register it names (06 R140). -/
theorem csrr_runs (hcsr : csr.toNat ≤ 5) (hrd : (s.sp h.sp).freeS rd) : exec (.csrr h rd csr) s =
    .next (s.ran h.sp fun y => y.gets rd (csrValue (s.sp h.sp) csr.toNat) 2) :=
  cleanWord_runs rfl hi effCsrr_holding (csrEnc_assigned hcsr) rfl rfl (waitS_of_free rfl hrd) fun _ => rfl

/-- `csrw` does what the access code of its register says (06 R140). -/
theorem csrw_runs (hcsr : csr.toNat ≤ 5) (hneed : (s.sp h.sp).needS [ra] = []) {f : Spindle → Spindle}
    (ha : ∀ t : State, t.sp h.sp = (s.sp h.sp).advance 1 [] →
      (effCsrw h csr ra s).acts.foldl (fun t a => a.perform h.sp t) t = t.setSp h.sp (f (t.sp h.sp))) :
    exec (.csrw h csr ra) s = .next (s.ran h.sp f) :=
  advancedWord_runs rfl hi effCsrw_holding (csrEnc_assigned hcsr) rfl hneed (waitS_nil rfl) ha

end

/-- A write of a register without write access does nothing (06 R140). -/
theorem effCsrw_readOnly {h : Hdr} {csr : BitVec 12} {ra : Fin 32} {s : State} (h2 : 2 ≤ csr.toNat) :
    (effCsrw h csr ra s).acts = [] := by
  unfold effCsrw
  dsimp only
  split
  · omega
  · omega
  · rfl

/-- Settles O9: each word runs, or for `brk` traps, as its own rule says. -/
theorem systemAndControl : Obligations.SystemAndControl := by
  refine ⟨fun h code sh s hi hsh => ⟨nop_runs hi, end_runs hi hsh, brk_traps hi hsh⟩, ?csr⟩
  intro h rd ra csr s hi x a
  refine ⟨fun hrd => ?read, fun hneed => ⟨?flags, ?seed, fun h2 h5 => ?readOnly⟩⟩
  case read =>
    have reads {n : BitVec 12} (hn : n.toNat ≤ 5) := csrr_runs hi hn hrd
    exact ⟨reads (by decide), reads (by decide), reads (by decide), reads (by decide), reads (by decide),
      reads (by decide)⟩
  case flags =>
    refine csrw_runs hi (by decide) hneed fun t ht => ?_
    simp [effCsrw, Act.perform, ht, Spindle.advance, Spindle.count, Spindle.clearFlags, noFlags, x, a,
      BitVec.getLsbD_eq_getElem]
  case seed => exact csrw_runs hi (by decide) hneed fun _ _ => rfl
  case readOnly =>
    refine csrw_runs hi h5 hneed fun t _ => ?_
    rw [effCsrw_readOnly h2]
    exact (t.setSp_self h.sp).symm

end Sys2Proof.Machine
end

section
/-!
PROOFS. Slots of the creel (08 R218, R219; 12 R319): what the end of a descriptor and the look-ups of its ranges leave, what
the checks of a BIND look at, and when a slot is empty. From these the statement O26.
-/

namespace Sys2Proof.Machine

/-! ## Descriptors that end -/

/-- A descriptor that ends at its dispatch changes its queue and the grant that it asks for alone. -/
theorem failDesc_keeps {α : Type} {f : State → α} (hq : ∀ s n x, f (State.setQ s n x) = f s)
    (hp : ∀ s x, f (State.setPwr s x) = f s) (s : State) (q : Fin 4096) (seq : Nat) (st : Status) :
    f (failDesc s q seq st) = f s :=
  (hq _ _ _).trans (startDesc_keeps hq hp s q seq)

section
variable (s : State) (q : Fin 4096) (seq : Nat) (st : Status)

@[simp] theorem startDesc_skeins : (startDesc s q seq).skeins = s.skeins :=
  startDesc_keeps (f := fun s => s.skeins) (fun _ _ _ => rfl) (fun _ _ => rfl) s q seq

@[simp] theorem failDesc_skeins : (failDesc s q seq st).skeins = s.skeins :=
  failDesc_keeps (f := fun s => s.skeins) (fun _ _ _ => rfl) (fun _ _ => rfl) s q seq st

@[simp] theorem failDesc_mem : (failDesc s q seq st).mem = s.mem :=
  failDesc_keeps (f := fun s => s.mem) (fun _ _ _ => rfl) (fun _ _ => rfl) s q seq st

@[simp] theorem failDesc_sk (k : Fin 8) : (failDesc s q seq st).sk k = s.sk k :=
  congrArg (fun v => v.get k) (failDesc_skeins s q seq st)

theorem ends_startDesc : ends (startDesc s q seq) q seq st = failDesc s q seq st := rfl

end

theorem descOf_setSk (s : State) (k : Fin 8) (x : Skein) (q : Fin 4096) (seq : Nat) :
    descOf (s.setSk k x) q seq = descOf s q seq := rfl

theorem mem_of_creelTurn {s : State} {q : Fin 4096} {n : Nat} {d : Desc} (h : creelTurn s q n = some d) :
    d ∈ (s.q q).descs :=
  mem_of_mayDispatch (Option.filter_eq_some_iff.mp h).1

/-! ## Look-ups leave the creel as it is -/

theorem walkPage_skeins (s : State) (va : Nat) : (walkPage s va).skeins = s.skeins := by
  unfold walkPage
  dsimp only
  rw [State.setTrans_skeins]
  exact foldl_keeps (fun s => s.skeins) (fun s i => tableRead s (1 + i % 2) va i) (fun _ _ => rfl) _ s

section
variable {α : Type} {v : Skein → α} (hv : ∀ x tlb hits misses, v { x with tlb, hits, misses } = v x)
include hv

theorem lookUpPage_view (k : Fin 8) (s : State) (e : TlbEntry) (j : Fin 8) : v ((lookUpPage k s e).sk j) = v (s.sk j) := by
  have hlook (x : Skein) : v (x.lookUp e) = v x := by
    unfold Skein.lookUp
    split
    · exact hv _ _ _ _
    · exact hv _ _ _ _
  unfold lookUpPage
  dsimp only
  rw [setSk_view v (hlook _)]
  split
  · rfl
  · rw [State.sk, walkPage_skeins, State.sk]

/-- What a look-up of captured ranges leaves of each skein: all but its TLB. -/
theorem lookUpSegs_view (s : State) (k : Fin 8) (own : Owner) (segs : List Seg) (j : Fin 8) :
    v ((lookUpSegs s k own segs).sk j) = v (s.sk j) := by
  unfold lookUpSegs
  split
  · rfl
  · exact foldl_keeps (fun s => v (s.sk j)) _ (fun s e => lookUpPage_view hv k s e j) _ s

theorem lookUpReach_view (s : State) (k : Fin 8) (r : Reach) (j : Fin 8) :
    v ((lookUpReach s k r).sk j) = v (s.sk j) := by
  unfold lookUpReach
  split
  · unfold lookUpFault
    split
    · exact setSk_view v (hv _ _ _ _) j
    · dsimp only
      rw [setSk_view v (hv _ _ _ _), State.sk, walkPage_skeins, State.sk]
  · rfl

end

theorem lookUpReach_keeps {α : Type} {f : State → α} (hf : OffWalk f) (s : State) (k : Fin 8) (r : Reach) :
    f (lookUpReach s k r) = f s := by
  unfold lookUpReach
  split
  · unfold lookUpFault
    split
    · exact hf.sk _ _ _
    · exact (hf.sk _ _ _).trans (walkPage_keeps hf _ _)
  · rfl

theorem offWalk_physLoc (a : Nat) : OffWalk fun s => physLoc s.mem a := ⟨⟨fun _ _ _ => rfl, fun _ _ => rfl⟩, fun _ _ => rfl⟩
theorem offWalk_ilOf (key : Nat) : OffWalk fun s => ilOf s.mem key := ⟨⟨fun _ _ _ => rfl, fun _ _ => rfl⟩, fun _ _ => rfl⟩
theorem offWalk_bindingLost (b : Binding) : OffWalk fun s => bindingLost s.trans b :=
  ⟨⟨fun _ _ _ => rfl, fun _ _ => rfl⟩, fun _ _ => rfl⟩

/-! ## What the checks of a BIND look at -/

/-- What the checks of a BIND look at is the same in two states: the memory map, the bindings, the distaff work and the
quotas. -/
structure SameToBind (s t : State) : Prop where
  loc (a : Nat) : physLoc t.mem a = physLoc s.mem a
  il (key : Nat) : ilOf t.mem key = ilOf s.mem key
  bindings (k : Fin 8) : (t.sk k).bindings = (s.sk k).bindings
  sweeps : t.sweeps = s.sweeps
  leas (n : Fin 4096) : (t.q n).leas = (s.q n).leas
  pin (n : Fin 4096) : (t.q n).pin = (s.q n).pin

theorem slotBinding_congr {s t : State} (h : ∀ k, (t.sk k).bindings = (s.sk k).bindings) (q : Fin 4096) (slot : Fin 64) :
    slotBinding t q slot = slotBinding s q slot := by
  simp only [slotBinding, Skein.live, h]

theorem allBindings_eq (s : State) : allBindings s = (List.finRange 8).flatMap fun k => (s.sk k).bindings := by
  have : s.skeins.toList = (List.finRange 8).map s.sk := by
    refine List.ext_getElem (by simp) fun i _ _ => ?_
    simp [State.sk, Vector.get_eq_getElem]
  rw [allBindings, this, List.flatMap_map]

namespace SameToBind
variable {s t : State} (h : SameToBind s t)
include h

theorem allBindings : allBindings t = Machine.allBindings s := by
  simp only [allBindings_eq, h.bindings]

theorem segsMeet (xs ys : List Seg) : segsMeet t.mem xs ys = Machine.segsMeet s.mem xs ys := by
  simp only [Machine.segsMeet, sameBytes, h.loc, h.il]

theorem allStacked (segs : List Seg) : allStacked t segs = Machine.allStacked s segs := by
  simp only [Machine.allStacked, h.loc]

theorem slotBinding (q : Fin 4096) (slot : Fin 64) : slotBinding t q slot = Machine.slotBinding s q slot :=
  slotBinding_congr h.bindings q slot

theorem overlapsLive (segs : List Seg) : overlapsLive t segs = Machine.overlapsLive s segs := by
  simp only [Machine.overlapsLive, h.allBindings, h.segsMeet]

theorem overlapsEvicting (segs : List Seg) : overlapsEvicting t segs = Machine.overlapsEvicting s segs := by
  simp only [Machine.overlapsEvicting, h.allBindings, h.segsMeet]

theorem overlapsPlane (segs : List Seg) : overlapsPlane t segs = Machine.overlapsPlane s segs := by
  simp only [Machine.overlapsPlane, h.sweeps, h.segsMeet]

end SameToBind

/-! ## A BIND that goes on -/

/-- The state in which the descriptor of a BIND has started. -/
def bindStarted (s : State) (k : Fin 8) (q : Fin 4096) (d : Desc) (segs : List Seg) : State :=
  startDesc (lookUpSegs s k (queueOwner q) segs) q d.seq

/-- The BIND of a descriptor with its backing, in flight at a skein (08 R224). -/
def bindWaitOf (s : State) (k : Fin 8) (q : Fin 4096) (d : Desc) (segs : List Seg) : BindWait :=
  { queue := q, seq := d.seq, segs, age := (s.sk k).bindSeq }

/-- The state in which a BIND is in flight. -/
def bindInFlight (s : State) (k : Fin 8) (q : Fin 4096) (d : Desc) (segs : List Seg) : State :=
  let t := bindStarted s k q d segs
  t.setSk k { t.sk k with bindWait := (t.sk k).bindWait ++ [bindWaitOf t k q d segs], bindSeq := (t.sk k).bindSeq + 1 }

section
variable (s : State) (k : Fin 8) (q : Fin 4096) (d : Desc) (segs : List Seg)

theorem bindStarted_keeps {α : Type} {f : State → α} (hf : OffWalk f) (hq : ∀ s n x, f (State.setQ s n x) = f s)
    (hp : ∀ s x, f (State.setPwr s x) = f s) : f (bindStarted s k q d segs) = f s :=
  (startDesc_keeps hq hp ..).trans (lookUpSegs_keeps hf ..)

theorem bindInFlight_keeps {α : Type} {f : State → α} (hf : OffWalk f) (hq : ∀ s n x, f (State.setQ s n x) = f s)
    (hp : ∀ s x, f (State.setPwr s x) = f s) : f (bindInFlight s k q d segs) = f s :=
  (hf.sk _ _ _).trans (bindStarted_keeps s k q d segs hf hq hp)

theorem bindStarted_view {α : Type} {v : Skein → α} (hv : ∀ x tlb hits misses, v { x with tlb, hits, misses } = v x)
    (j : Fin 8) : v ((bindStarted s k q d segs).sk j) = v (s.sk j) := by
  rw [bindStarted, State.sk, startDesc_skeins]
  exact lookUpSegs_view hv ..

theorem bindInFlight_bindings (j : Fin 8) : ((bindInFlight s k q d segs).sk j).bindings = (s.sk j).bindings :=
  (setSk_view Skein.bindings (by rfl) j).trans (bindStarted_view s k q d segs (fun _ _ _ _ => rfl) j)

theorem startDesc_quota (seq : Nat) (n : Fin 4096) :
    ((startDesc s q seq).q n).leas = (s.q n).leas ∧ ((startDesc s q seq).q n).pin = (s.q n).pin := by
  have hq : (wantGrant s q seq).q n = s.q n := congrArg (fun v => v.get n) (wantGrant_queues s q seq)
  rw [startDesc, setDesc]
  by_cases h : n = q
  · subst h
    rw [State.setQ_q_same, hq]
    exact ⟨rfl, rfl⟩
  · rw [State.setQ_q_ne _ _ _ _ h, hq]
    exact ⟨rfl, rfl⟩

/-- The checks of a BIND find in flight what they would have found at its dispatch. -/
theorem sameToBind_bindInFlight : SameToBind s (bindInFlight s k q d segs) where
  loc a := bindInFlight_keeps s k q d segs (offWalk_physLoc a) (fun _ _ _ => rfl) (fun _ _ => rfl)
  il key := bindInFlight_keeps s k q d segs (offWalk_ilOf key) (fun _ _ _ => rfl) (fun _ _ => rfl)
  bindings := bindInFlight_bindings s k q d segs
  sweeps := bindInFlight_keeps s k q d segs offWalk_sweeps (fun _ _ _ => rfl) (fun _ _ => rfl)
  leas n := by
    refine (startDesc_quota _ q d.seq n).1.trans ?_
    rw [State.q, lookUpSegs_queues, State.q]
  pin n := by
    refine (startDesc_quota _ q d.seq n).2.trans ?_
    rw [State.q, lookUpSegs_queues, State.q]

theorem bindInFlight_lost (b : Binding) :
    bindingLost (bindInFlight s k q d segs).trans b = bindingLost s.trans b :=
  bindInFlight_keeps s k q d segs (offWalk_bindingLost b) (fun _ _ _ => rfl) (fun _ _ => rfl)

theorem bindInFlight_cells : (bindInFlight s k q d segs).mem.cells = s.mem.cells :=
  bindInFlight_keeps s k q d segs offWalk_cells (fun _ _ _ => rfl) (fun _ _ => rfl)

variable {s q d}

theorem bindInFlight_runs {e : Desc} (he : descOf s q d.seq = some e) :
    (descOf (bindInFlight s k q d segs) q d.seq).map (·.st) = some .running :=
  startDesc_runs ((descOf_congr (lookUpSegs_queues s k _ _) q d.seq).trans he)

end

/-! ## Descriptors that end with a status alone -/

section
variable {s : State} {k : Fin 8} {w : BindWait}

theorem bindEnds_finishes (h : (descOf s w.queue w.seq).map (·.st) = some .running) (st : Status) :
    (descOf (bindEnds s k w st) w.queue w.seq).map (·.st) = some (.finished st {} 0 0 0) := by
  unfold bindEnds
  exact finish_finishes (by rwa [descOf_setSk]) st noFlags 0 0 0

theorem bindEnds_bindings (st : Status) (j : Fin 8) : ((bindEnds s k w st).sk j).bindings = (s.sk j).bindings := by
  unfold bindEnds
  exact setSk_view Skein.bindings (by rfl) j

theorem bindEnds_mem (st : Status) : (bindEnds s k w st).mem = s.mem := rfl

end

/-- A descriptor has finished with a status alone; the bindings and the bytes of memory are as they were. -/
def EndsAlone (s t : State) (q : Fin 4096) (seq : Nat) (st : Status) : Prop :=
  (descOf t q seq).map (·.st) = some (.finished st {} 0 0 0) ∧ (∀ k, (t.sk k).bindings = (s.sk k).bindings) ∧
    t.mem.cells = s.mem.cells

section
variable {s : State} {q : Fin 4096} {d e : Desc} (he : descOf s q d.seq = some e)
include he

theorem failDesc_endsAlone (st : Status) : EndsAlone s (failDesc s q d.seq st) q d.seq st :=
  ⟨failDesc_finishes he st, fun k => by rw [failDesc_sk], by rw [failDesc_mem]⟩

theorem failDesc_lookUpReach_endsAlone (k : Fin 8) (r : Reach) (st : Status) :
    EndsAlone s (failDesc (lookUpReach s k r) q d.seq st) q d.seq st := by
  refine ⟨failDesc_finishes ((descOf_congr (lookUpReach_keeps offWalk_queues s k r) q d.seq).trans he) st, fun j => ?_, ?_⟩
  · rw [failDesc_sk]
    exact lookUpReach_view (fun _ _ _ _ => rfl) ..
  · rw [failDesc_mem]
    exact lookUpReach_keeps offWalk_cells s k r

theorem bindEnds_endsAlone (t : State) (k : Fin 8) (segs : List Seg) (st : Status) :
    EndsAlone s (bindEnds (bindInFlight s k q d segs) k (bindWaitOf t k q d segs) st) q d.seq st :=
  ⟨bindEnds_finishes (w := bindWaitOf t k q d segs) (bindInFlight_runs k segs he) st,
    fun _ => (bindEnds_bindings ..).trans (bindInFlight_bindings ..), bindInFlight_cells ..⟩

end

/-! ## BIND -/

/-- A slot in use and a live binding in the backing's way refuse a BIND (08 R219). -/
theorem bindStep_refused {s : State} {k : Fin 8} {w : BindWait} {c : CreelBody} (fuel : Nat)
    (h : slotBinding s w.queue c.slot ≠ none ∨ overlapsLive s w.segs = true) :
    bindStep (fuel + 1) s k w c = bindEnds s k w .access := by
  have hif : (!allStacked s w.segs || (slotBinding s w.queue c.slot).isSome || overlapsLive s w.segs) = true := by
    rcases h with h | h
    · simp [Option.isSome_iff_ne_none.mpr h]
    · simp [h]
  simp [bindStep, hif]

section
variable {s : State} {q : Fin 4096} {d : Desc} (ht : creelTurn s q 3 = some d) (hc : creelClean d.raw true = true)
include ht hc

/-- A BIND that finds its slot in use or a live binding in its backing's way ends with ACCESS alone (08 R219). -/
theorem doBind_refused (h : ∀ segs, resolveDesc s q false .read (creelBody d.raw).backing
      ((creelBody d.raw).leas * 0x10000) = .ok segs →
      slotBinding s q (creelBody d.raw).slot ≠ none ∨ overlapsLive s segs = true) :
    EndsAlone s (doBind q s) q d.seq .access := by
  obtain ⟨e, he⟩ := descOf_of_mem (mem_of_creelTurn ht)
  unfold doBind
  simp only [ht, hc]
  split
  · contradiction
  split
  · exact failDesc_endsAlone he .access
  split
  · next segs hseg =>
    split
    · exact failDesc_endsAlone he .access
    · have hsame (k : Fin 8) := sameToBind_bindInFlight s k q d segs
      change EndsAlone s (bindStep 257 (bindInFlight s _ q d segs) _
        (bindWaitOf (bindStarted s _ q d segs) _ q d segs) _) _ _ _
      rw [bindStep_refused 256]
      · exact bindEnds_endsAlone he _ _ _ .access
      · exact (h segs hseg).imp (fun h => by rwa [(hsame _).slotBinding]) fun h => by rwa [(hsame _).overlapsLive]
  · exact failDesc_lookUpReach_endsAlone he _ _ .access

end

/-! ## An empty slot -/

/-- A slot is empty where every binding that bears it is on its way out (08 R219, R225). -/
theorem slotBinding_eq_none {s : State} {q : Fin 4096} {slot : Fin 64} : slotBinding s q slot = none ↔
    ∀ k, ∀ b ∈ (s.sk k).bindings, b.queue = q → b.slot = slot → b.evicting = true := by
  simp only [slotBinding, Skein.live, List.findSome?_eq_none_iff, List.mem_finRange, Option.map_eq_none_iff,
    List.find?_eq_none, List.mem_filter, true_implies, decide_eq_true_eq]
  grind

theorem slotBinding_failDesc (s : State) (q : Fin 4096) (seq : Nat) (st : Status) (p : Fin 4096) (slot : Fin 64) :
    slotBinding (failDesc s q seq st) p slot = slotBinding s p slot :=
  slotBinding_congr (fun k => by rw [failDesc_sk]) p slot

section
variable {s : State} {q : Fin 4096} {d : Desc} (hc : creelClean d.raw false = true)
  (hnone : slotBinding s q (creelBody d.raw).slot = none)
include hc hnone

theorem doFlush_empty (ht : creelTurn s q 4 = some d) : doFlush q s = failDesc s q d.seq .ok := by
  simp [doFlush, ht, hc, ends_startDesc, slotBinding_failDesc, hnone]

theorem doMoveRelease_empty (ht : creelTurn s q 5 = some d) : doMoveRelease q s = failDesc s q d.seq .ok := by
  simp [doMoveRelease, ht, hc, ends_startDesc, slotBinding_failDesc, hnone]

theorem doPin_empty (ht : creelTurn s q 6 = some d) : doPin q s = failDesc s q d.seq .ok := by
  simp [doPin, ht, hc, hnone]

theorem doUnpin_empty (ht : creelTurn s q 7 = some d) : doUnpin q s = failDesc s q d.seq .ok := by
  simp [doUnpin, ht, hc, slotBinding_failDesc, hnone]

/-- Every other creel operation of an empty slot is the end of its descriptor (08 R219). -/
theorem exec_emptySlot {n : Nat} {i : Instr}
    (hi : (n, i) ∈ [(4, Instr.flush q), (5, Instr.moveRelease q), (6, Instr.pin q), (7, Instr.unpin q)])
    (ht : creelTurn s q n = some d) : exec i s = .next (failDesc s q d.seq .ok) := by
  simp only [List.mem_cons, List.not_mem_nil, or_false, Prod.mk.injEq] at hi
  obtain ⟨rfl, rfl⟩ | ⟨rfl, rfl⟩ | ⟨rfl, rfl⟩ | ⟨rfl, rfl⟩ := hi
  · exact congrArg Host.Outcome.next (doFlush_empty hc hnone ht)
  · exact congrArg Host.Outcome.next (doMoveRelease_empty hc hnone ht)
  · exact congrArg Host.Outcome.next (doPin_empty hc hnone ht)
  · exact congrArg Host.Outcome.next (doUnpin_empty hc hnone ht)

end

/-- Settles O26: a BIND that the slot or the backing refuses ends with ACCESS alone; every other operation of an empty slot
only ends its descriptor. -/
theorem slotRules : Obligations.SlotRules := by
  intro q d s c ends
  refine ⟨fun ht hc => ⟨fun hslot => ?inUse, fun segs hseg hlive => ?overlapping⟩, fun hempty hc x hx ht => ?empty⟩
  case inUse => exact ⟨_, rfl, doBind_refused ht hc fun _ _ => .inl hslot⟩
  case overlapping =>
    refine ⟨_, rfl, doBind_refused ht hc fun segs' hseg' => .inr ?_⟩
    cases hseg.symm.trans hseg'
    exact hlive
  case empty =>
    obtain ⟨e, he⟩ := descOf_of_mem (mem_of_creelTurn ht)
    exact ⟨_, exec_emptySlot hc (slotBinding_eq_none.mpr hempty) hx ht, failDesc_endsAlone he .ok,
      failDesc_skeins .., failDesc_mem ..⟩

end Sys2Proof.Machine
end

section
/-!
PROOFS. Moves (06 R156; 08 R205 to R216; 12 R318, R322, R327): the dispatch of a MOVE descriptor, the end of a flyer
instruction's move, and the miss of a deadline. From these the statement O24.
-/

namespace Sys2Proof.Machine

/-! ## The dispatch of a MOVE -/

/-- The state in which a MOVE has started and its queue has been served at the flyers of a skein. -/
def moveServed (s : State) (q : Fin 4096) (seq : Nat) (k : Fin 8) : State :=
  let t := startDesc s q seq
  t.setSk k { t.sk k with lastF := served t (t.sk k).lastF q }

section
variable {s : State} {q : Fin 4096} {d : Desc} {n : Nat} {op : MoveOp} (hd : mayDispatch s q 1 = some d)
  (hn : fieldAt d.raw 0x28 0 3 = n)
include hd hn

/-- A body that fails a check ends its descriptor with the check's status (12 R322). -/
theorem dispatchMove_fails {st : Status} (hst : moveCheck d.raw (descMove s q d op) = some st) :
    dispatchMove q n op s = failDesc s q d.seq st := by
  have hassigned : ¬ (n = 0 ∧ 8 ≤ n) := by omega
  simp [dispatchMove, hd, hn, hassigned, hst]

/-- A MOVE whose ranges are all reached joins the moves of the skein that takes it, in its queue's turn (12 R318, R327). -/
theorem dispatchMove_goes {a b w : List Seg} (hcheck : moveCheck d.raw (descMove s q d op) = none)
    (hreach : descReach s q (descMove s q d op) = (.ok a, .ok b, .ok w)) :
    let m := { descMove s q d op with srcSegs := a, dstSegs := b, shSegs := w }
    let k := moveSkein s m
    let t := lookUpSegs (moveServed s q d.seq k) k (queueOwner q) (a ++ b ++ w)
    flyerTurn s q k = true → dispatchMove q n op s = t.setSk k (feed { t.sk k with fq := (t.sk k).fq ++ [m] }) := by
  intro m k t hturn
  have hassigned : ¬ (n = 0 ∧ 8 ≤ n) := by omega
  have haccess : anyAccess (.ok a, .ok b, .ok w) = false := rfl
  have hturn' : (!flyerTurn s q (moveSkein s { descMove s q d op with
      srcSegs := (Reach.ok a).segs, dstSegs := (Reach.ok b).segs, shSegs := (Reach.ok w).segs })) = false := by
    rw [Bool.not_eq_false']
    exact hturn
  simp only [dispatchMove, hd, hn, if_neg hassigned, hcheck, hreach, haccess, hturn', ne_eq, not_true_eq_false,
    Bool.false_eq_true, if_false]
  rfl

end

/-! ## The end of a move -/

/-- With no move waiting a skein's flyers take none (08 R207). -/
theorem feed_of_no_waiting {k : Skein} (h : k.fq = []) : feed k = k := by simp [feed, h]

section
variable {s : State} {k : Fin 8} {f : Fin 4} {n : Nat} {m : Move}

/-- The state in which flyer `f` of a skein has put its move down and the skein's flyers take the oldest waiting one. -/
def flyerFreed (s : State) (k : Fin 8) (f : Fin 4) (fl : Flyer) : State :=
  s.setSk k (feed { s.sk k with fly := upd (s.sk k).fly f { fl with move := none } })

/-- A move that waits for nothing and meets no poison ends (06 R156; 08 R211). -/
theorem doFlyerMoveComplete_ends (hm : ((s.sk k).fly.get f).move = some m) (hheld : moveHeld s m = false)
    (hserving : s.serving = true) (hadd : m.op = .add → addsWait s m.dstSegs = false) (hpoison : m.poisonMet s n = none)
    {s' : State} {st : Status} {g : Flags} (hperform : m.perform n s = (s', st, g)) :
    doFlyerMoveComplete k f n s = flyerFreed (countMove (reportMove s' m st g) m st) k f ((s.sk k).fly.get f) := by
  have hwait : (m.op == .add && addsWait s m.dstSegs) = false := by
    by_cases hop : m.op = .add
    · simp [hadd hop]
    · simp [hop]
  simp [doFlyerMoveComplete, hm, hheld, hserving, hwait, hpoison, poisonRecord, hperform, flyerFreed]

/-- A move that SKIP has dropped writes nothing (08 R213; log 135). -/
theorem perform_dropped (h : m.dropped = true) : m.perform n s = (s, .deadline, noFlags) := by simp [Move.perform, h]

/-- A sound move over ranges that are mapped writes its hanks (08 R211). -/
theorem perform_whole (hdropped : m.dropped = false) (hfaulted : m.faulted = false) (hstopped : m.stopped = false)
    (hpoison : m.meetsPoison s = false) (hmapped : segsMapped s (m.srcSegs ++ m.dstSegs ++ m.shSegs) = true)
    {ws : List (Nat × List Byte)} {fl : Flags} (hws : m.writes s m.dest.hanks = (ws, fl)) {s' : State}
    (happly : applyWrites (m.traffic s ws) m.dstSegs ws = (s', true)) : m.perform n s = (s', .ok, fl) := by
  have hends : m.ends n = m.dest.hanks := by simp [Move.ends, hstopped]
  have hmapped' : segsMapped s (m.srcSegs ++ (m.dstSegs ++ m.shSegs)) = true := by rwa [← List.append_assoc]
  simp [Move.perform, hdropped, hfaulted, hstopped, hpoison, hmapped', hends, hws, happly]

end

/-- What the end of an instruction's move leaves once its bytes are written: its token holds its status, the bobbins and the
memory are as they were, its flyer is free where no move waits. -/
theorem flyerFreed_instr {s : State} {k : Fin 8} {f : Fin 4} {fl : Flyer} {m : Move} {p : Fin 136} {tk : Fin 16}
    (ho : m.origin = .instr p tk) (st : Status) (g : Flags) :
    let t := flyerFreed (countMove (reportMove s m st g) m st) k f fl
    (t.sp p).tok.get tk = .done st ∧ (∀ p', (t.sp p').bobbin = (s.sp p').bobbin) ∧ t.mem = s.mem ∧
      (t.q m.queue).dropped = (if st = .deadline then satAdd 16 (s.q m.queue).dropped else (s.q m.queue).dropped) ∧
      ((s.sk k).fq = [] → ((t.sk k).fly.get f).move = none) := by
  simp only [reportMove, ho, countMove, flyerFreed]
  refine ⟨?token, fun p' => ?bobbin, rfl, ?dropped, fun hfq => ?flyer⟩
  case token => simp
  case bobbin =>
    simp only [State.setSk_sp, State.setQ_sp]
    by_cases h : p' = p
    · subst h
      rw [State.setSp_sp_same]
    · rw [State.setSp_sp_ne _ _ _ _ h]
  case dropped => simp
  case flyer =>
    rw [State.setSk_sk_same, feed_of_no_waiting (by simpa using hfq)]
    simp

/-! ## The deadline of a move -/

/-- The miss is counted, and the move that missed changes alone (08 R213, R216). -/
theorem doMoveDeadlineExpiry_misses {s : State} {o : Origin} {m : Move} (n : Nat) (readDone : Bool)
    (hm : (s.skeins.toList.flatMap Skein.moves).find? (fun m => m.origin = o) = some m) (hdeadline : m.deadline ≠ 0)
    (hmissed : m.missed = false) (hserving : s.serving = true) : doMoveDeadlineExpiry o n readDone s =
      { s.setQ m.queue { s.q m.queue with miss := satAdd 24 (s.q m.queue).miss } with
        skeins := vecOf 8 fun k => (s.sk k).mapMoves fun x => if x = m then x.miss n readDone else x } := by
  simp [doMoveDeadlineExpiry, hm, hdeadline, hmissed, hserving]

/-- Settles O24: a MOVE that passes its checks goes to the flyers of its skein in its queue's turn; a move's end is what
`perform` answers, reported and counted; a miss changes the move that missed alone. -/
theorem moves : Obligations.Moves := by
  refine ⟨?dispatch, ?complete, ?deadline⟩
  case dispatch =>
    intro q d a b w s hd
    refine ⟨?_, ?_, ?_⟩ <;> exact fun hn =>
      ⟨fun hcheck hreach hturn => congrArg Host.Outcome.next (dispatchMove_goes hd hn hcheck hreach hturn),
        fun st hst => congrArg Host.Outcome.next (dispatchMove_fails hd hn hst)⟩
  case complete =>
    intro k f n m p tk s hm ho hheld hserving hadd hpoison
    refine ⟨fun hdropped => ?skip, fun hdropped hfaulted hstopped hmeets hmapped ws fl s' hws happly => ?whole⟩
    case skip =>
      obtain ⟨htok, hbobbin, hmem, hcount, hfree⟩ := flyerFreed_instr (s := s) (k := k) (f := f)
        (fl := (s.sk k).fly.get f) ho .deadline noFlags
      exact ⟨_, congrArg Host.Outcome.next
        (doFlyerMoveComplete_ends hm hheld hserving hadd hpoison (perform_dropped hdropped)),
        htok, hbobbin p, hmem, hcount, hfree⟩
    case whole =>
      obtain ⟨htok, hbobbin, hmem, -, hfree⟩ := flyerFreed_instr (s := s') (k := k) (f := f)
        (fl := (s.sk k).fly.get f) ho .ok fl
      exact ⟨_, congrArg Host.Outcome.next (doFlyerMoveComplete_ends hm hheld hserving hadd hpoison
        (perform_whole hdropped hfaulted hstopped hmeets hmapped hws happly)), htok, hmem, hbobbin, hfree⟩
  case deadline =>
    intro o n readDone m s hm hdeadline hmissed hserving
    refine ⟨_, congrArg Host.Outcome.next (doMoveDeadlineExpiry_misses n readDone hm hdeadline hmissed hserving), ?count,
      fun k => ?moves, rfl, rfl⟩
    case count => exact congrArg Queue.miss (State.setQ_q_same ..)
    case moves =>
      refine (get_vecOf ..).trans (congrArg _ (funext fun x => ?_))
      by_cases hx : x = m
      · subst hx
        exact (if_pos rfl).trans (if_neg (not_not_intro rfl)).symm
      · exact (if_neg hx).trans (if_pos hx).symm

end Sys2Proof.Machine
end

section
/-!
PROOFS. Creel operations (08 R218 to R225; 12 R319): a BIND that gets its leas, what a write-back puts into memory, and
what each operation does to the bindings. From these the statement O25.
-/

namespace Sys2Proof.Machine

/-! ## A BIND that gets its leas -/

namespace SameToBind
variable {s t : State} (h : SameToBind s t)
include h

theorem heldBy (k : Fin 8) (q : Fin 4096) : (t.sk k).heldBy q = (s.sk k).heldBy q := by
  simp only [Skein.heldBy, Skein.live, h.bindings]

theorem leasFree (k : Fin 8) : (t.sk k).leasFree = (s.sk k).leasFree := by
  simp only [Skein.leasFree, Skein.leasUsed, h.bindings]

theorem pinnedBy (k : Fin 8) (q : Fin 4096) : (t.sk k).pinnedBy q = (s.sk k).pinnedBy q := by
  simp only [Skein.pinnedBy, Skein.live, h.bindings]

theorem pinnedLeas (k : Fin 8) : (t.sk k).pinnedLeas = (s.sk k).pinnedLeas := by
  simp only [Skein.pinnedLeas, Skein.live, h.bindings]

theorem pinRefused (k : Fin 8) (q : Fin 4096) (n : Nat) : pinRefused t k q n = Machine.pinRefused s k q n := by
  rw [Machine.pinRefused, h.pin, h.pinnedBy, h.pinnedLeas, Machine.pinRefused]

theorem evictsStill (k : Fin 8) (w : BindWait) : evictsStill (t.sk k) w = Machine.evictsStill (s.sk k) w := by
  simp only [Machine.evictsStill, h.bindings]

end SameToBind

/-- What a BIND asks for is there (08 R218, R219, R223, R224): nothing refuses it and it waits for nothing. -/
structure BindMayEnd (s : State) (k : Fin 8) (w : BindWait) (c : CreelBody) : Prop where
  stacked : allStacked s w.segs = true
  free : slotBinding s w.queue c.slot = none
  live : overlapsLive s w.segs = false
  evicting : overlapsEvicting s w.segs = false
  plane : overlapsPlane s w.segs = false
  quota : (s.sk k).heldBy w.queue + c.leas ≤ (s.q w.queue).leas
  pins : (c.pin && pinRefused s k w.queue c.leas) = false
  room : c.leas ≤ (s.sk k).leasFree
  evicted : evictsStill (s.sk k) w = false

theorem SameToBind.mayEnd {s t : State} (h : SameToBind s t) {k : Fin 8} {w : BindWait} {c : CreelBody}
    (hs : BindMayEnd s k w c) : BindMayEnd t k w c where
  stacked := by rw [h.allStacked, hs.stacked]
  free := by rw [h.slotBinding, hs.free]
  live := by rw [h.overlapsLive, hs.live]
  evicting := by rw [h.overlapsEvicting, hs.evicting]
  plane := by rw [h.overlapsPlane, hs.plane]
  quota := by rw [h.heldBy, h.leas]; exact hs.quota
  pins := by rw [h.pinRefused, hs.pins]
  room := by rw [h.leasFree]; exact hs.room
  evicted := by rw [h.evictsStill, hs.evicted]

theorem bindStep_allocates {s : State} {k : Fin 8} {w : BindWait} {c : CreelBody} (fuel : Nat) (h : BindMayEnd s k w c) :
    bindStep (fuel + 1) s k w c = bindAllocate s k w c := by
  have hleas : ¬ (s.q w.queue).leas < c.leas := by have := h.quota; omega
  have hheld : ¬ (s.q w.queue).leas < (s.sk k).heldBy w.queue + c.leas := by have := h.quota; omega
  have hpins := h.pins
  rw [Bool.and_eq_false_imp] at hpins
  simp +contextual [bindStep, h.stacked, h.free, h.live, h.evicting, h.plane, hleas, hheld, hpins, h.room, h.evicted]

theorem pinRefused_eq_false {s : State} {k : Fin 8} {q : Fin 4096} {n : Nat} : pinRefused s k q n = false ↔
    (s.sk k).pinnedBy q + n ≤ (s.q q).pin ∧ (s.sk k).pinnedLeas + n ≤ 224 := by
  simp [pinRefused]

theorem evictsStill_eq_false {k : Skein} {w : BindWait} : evictsStill k w = false ↔
    ∀ b ∈ k.bindings, b.evicting = true → b.evictor ≠ some (w.queue, w.seq) := by
  simp [evictsStill]

/-- The binding that a BIND gets (08 R218, R224): every sector INVALID. -/
def bindingOf (w : BindWait) (c : CreelBody) : Binding :=
  { queue := w.queue, slot := c.slot, backing := c.backing, segs := w.segs, leas := c.leas, fill := c.fill
    pinned := c.pin, hint := c.hint, sectors := List.replicate (16 * c.leas) .invalid, data := [], age := w.age }

/-- A binding whose pages stand as they were captured stays (11 R299). -/
theorem bindAllocate_stays {s : State} {k : Fin 8} {w : BindWait} {c : CreelBody}
    (h : queueOwner w.queue = .tenant → bindingLost s.trans (bindingOf w c) = false) : bindAllocate s k w c =
      bindEnds (s.setSk k { s.sk k with bindings := insertByAge (bindingOf w c) (s.sk k).bindings }) k w .ok := by
  refine if_neg fun hlost => ?_
  exact Bool.false_ne_true ((h hlost.1).symm.trans hlost.2)

section
variable {s : State} {k : Fin 8} {q : Fin 4096} {d : Desc} {segs : List Seg}

theorem bindWaitOf_bindStarted : bindWaitOf (bindStarted s k q d segs) k q d segs = bindWaitOf s k q d segs := by
  rw [bindWaitOf, bindStarted_view s k q d segs (v := Skein.bindSeq) (fun _ _ _ _ => rfl) k, bindWaitOf]

/-- A BIND whose backing is whole leas of stacked memory goes on in flight (08 R218, R224). -/
theorem doBind_goes (ht : creelTurn s q 3 = some d) (hc : creelClean d.raw true = true)
    (hk : (if s.mgmt.phase = .warmup then 0 else (creelBody d.raw).skein) = k)
    (halign : (creelBody d.raw).backing % 0x10000 = 0) (hleas : (creelBody d.raw).leas ≠ 0)
    (hmax : (creelBody d.raw).leas ≤ 256)
    (hseg : resolveDesc s q false .read (creelBody d.raw).backing ((creelBody d.raw).leas * 0x10000) = .ok segs)
    (hst : allStacked s segs = true) :
    doBind q s = bindStep 257 (bindInFlight s k q d segs) k (bindWaitOf s k q d segs) (creelBody d.raw) := by
  rw [← bindWaitOf_bindStarted]
  simp [doBind, ht, hc, hk, halign, hleas, hmax, hseg, hst, bindInFlight, bindStarted, bindWaitOf]

/-- A BIND in flight that may end gets its binding and completes OK; no byte of memory changes (08 R218, R224). -/
theorem bindStep_inFlight_binds {e : Desc} {c : CreelBody} (he : descOf s q d.seq = some e)
    (hmay : BindMayEnd s k (bindWaitOf s k q d segs) c)
    (hlost : queueOwner q = .tenant → bindingLost s.trans (bindingOf (bindWaitOf s k q d segs) c) = false) :
    let t := bindStep 257 (bindInFlight s k q d segs) k (bindWaitOf s k q d segs) c
    (t.sk k).bindings = insertByAge (bindingOf (bindWaitOf s k q d segs) c) (s.sk k).bindings ∧
      (descOf t q d.seq).map (·.st) = some (.finished .ok {} 0 0 0) ∧ t.mem.cells = s.mem.cells := by
  rw [bindStep_allocates 256 ((sameToBind_bindInFlight ..).mayEnd hmay), bindAllocate_stays (by rwa [bindInFlight_lost])]
  refine ⟨?_, bindEnds_finishes (w := bindWaitOf s k q d segs) ?_ .ok, ?_⟩
  · rw [bindEnds_bindings, State.setSk_sk_same, bindInFlight_bindings]
  · rw [descOf_setSk]
    exact bindInFlight_runs k segs he
  · rw [bindEnds_mem, State.setSk_mem, bindInFlight_cells]

end

/-! ## Bindings changed -/

section
variable (s : State) (k : Fin 8) (b : Binding)

theorem setBinding_some (x : Binding) : ((setBinding s k b (some x)).sk k).bindings =
    (s.sk k).bindings.map fun c => if c = b then x else c := by
  simp only [setBinding, State.setSk_sk_same, ← apply_ite some]
  exact congrFun List.filterMap_eq_map _

theorem setBinding_none : ((setBinding s k b none).sk k).bindings = (s.sk k).bindings.filter fun c => c ≠ b := by
  rw [setBinding, State.setSk_sk_same, ← List.filterMap_eq_filter]
  refine List.filterMap_congr fun c _ => ?_
  by_cases h : c = b <;> simp [Option.guard, h]

theorem setBinding_bindWait (x : Option Binding) (j : Fin 8) : ((setBinding s k b x).sk j).bindWait = (s.sk j).bindWait :=
  setSk_view Skein.bindWait (by rfl) j

end

theorem setBinding_mem (s : State) (k : Fin 8) (b : Binding) (x : Option Binding) : (setBinding s k b x).mem = s.mem := rfl

/-! ## Write-back -/

theorem reelLines_skeins (s : State) (ls : List (Fin 8 × Nat)) (h : Hint) (wr : Bool) :
    (ls.foldl (fun s kl => reelLine s kl h wr) s).skeins = s.skeins :=
  foldl_keeps (fun s => s.skeins) (fun s kl => reelLine s kl h wr) (fun _ _ => rfl) ls s

theorem reelLines_keeps {α : Type} {f : State → α} (hf : OffReel f) (s : State) (ls : List (Fin 8 × Nat)) (h : Hint)
    (wr : Bool) : f (ls.foldl (fun s kl => reelLine s kl h wr) s) = f s :=
  foldl_keeps f _ (fun s kl => reelLine_keeps hf s kl h wr) ls s

section
variable (s : State) (k : Fin 8) (b : Binding) (h : Hint)

theorem writeBack_view {α : Type} {v : Skein → α} (hv : ∀ x wbBytes, v { x with wbBytes } = v x) (j : Fin 8) :
    v ((writeBack s k b h).sk j) = v (s.sk j) := by
  refine (setSk_view v (hv _ _) j).trans ?_
  rw [State.sk, reelLines_skeins]
  rfl

theorem writeBack_queues : (writeBack s k b h).queues = s.queues := reelLines_keeps offWalk_queues.toOffReel ..

theorem writeBack_cells : (writeBack s k b h).mem.cells =
    b.data.foldl (fun m c => cellSet m c.1 (c.2 ^^^ farBase s.mem c.1)) s.mem.cells :=
  reelLines_keeps offWalk_cells.toOffReel ..

end

section
variable {g : Host.Cell → Byte} {data : List Host.Cell}

/-- A write of listed bytes leaves an address that is not listed. -/
theorem cellGet_foldl_cellSet_notMem {m : List Host.Cell} (hm : Memory.wf m = true) {a : Nat} (ha : a ∉ data.map (·.1)) :
    cellGet (data.foldl (fun m c => cellSet m c.1 (g c)) m) a = cellGet m a := by
  induction data generalizing m with
  | nil => rfl
  | cons c data ih =>
    simp only [List.map_cons, List.mem_cons, not_or] at ha
    rw [List.foldl_cons, ih (wf_cellSet hm _ _) ha.2, cellGet_cellSet hm, if_neg ha.1]

/-- A write of bytes listed once each puts every one of them. -/
theorem cellGet_foldl_cellSet_mem {m : List Host.Cell} (hm : Memory.wf m = true) (hnd : (data.map (·.1)).Nodup)
    {x : Host.Cell} (hx : x ∈ data) : cellGet (data.foldl (fun m c => cellSet m c.1 (g c)) m) x.1 = g x := by
  induction data generalizing m with
  | nil => cases hx
  | cons c data ih =>
    rw [List.map_cons, List.nodup_cons] at hnd
    rw [List.foldl_cons]
    rcases List.mem_cons.mp hx with rfl | hx
    · rw [cellGet_foldl_cellSet_notMem (wf_cellSet hm _ _) hnd.1, cellGet_cellSet hm, if_pos rfl]
    · exact ih (wf_cellSet hm _ _) hnd.2 hx

end

/-- A write-back puts every byte that the binding holds into memory (08 R220). -/
theorem writeBack_puts {s : State} {k : Fin 8} {b : Binding} {h : Hint} (hm : Memory.wf s.mem.cells = true)
    (hnd : (b.data.map (·.1)).Nodup) {x : Host.Cell} (hx : x ∈ b.data) :
    cellGet (writeBack s k b h).mem.cells x.1 = x.2 ^^^ farBase s.mem x.1 := by
  rw [writeBack_cells]
  exact cellGet_foldl_cellSet_mem (g := fun c => c.2 ^^^ farBase s.mem c.1) hm hnd hx

/-- With no BIND in flight none goes on. -/
theorem bindRetryAll_idle {s : State} (h : ∀ k, (s.sk k).bindWait = []) : bindRetryAll s = s :=
  List.foldlRecOn (motive := (· = s)) _ _ rfl fun t ht k _ => by
    subst ht
    rw [bindRetry, h k, List.foldl_nil]

/-! ## Bindings that leave -/

/-- The state in which a binding has been removed by a RELEASE (08 R218, R221). -/
def released (s : State) (k : Fin 8) (b : Binding) (h : Hint) (drop : Bool) : State :=
  settleCreel (setBinding (if drop then s else writeBack s k b h) k b none)

section
variable (s : State) (k : Fin 8) (b : Binding) (h : Hint) (drop : Bool)

theorem dropOrWriteBack_view {α : Type} {v : Skein → α} (hv : ∀ x wbBytes, v { x with wbBytes } = v x) (j : Fin 8) :
    v ((if drop then s else writeBack s k b h).sk j) = v (s.sk j) := by
  split
  · rfl
  · exact writeBack_view s k b h hv j

theorem released_bindWait (j : Fin 8) : ((released s k b h drop).sk j).bindWait = (s.sk j).bindWait :=
  (setBinding_bindWait ..).trans (dropOrWriteBack_view s k b h drop (fun _ _ => rfl) j)

theorem released_bindings : ((released s k b h drop).sk k).bindings = (s.sk k).bindings.filter fun c => c ≠ b := by
  refine (setBinding_none ..).trans ?_
  rw [dropOrWriteBack_view s k b h drop (v := Skein.bindings) (fun _ _ => rfl) k]

/-- A RELEASE that drops the dirty sectors changes no byte of memory (08 R221). -/
theorem released_dropped_mem : (released s k b h true).mem =
    { s.mem with creelPoison := (released s k b h true).mem.creelPoison } := rfl

theorem released_queues : (released s k b h drop).queues = s.queues := by
  unfold released
  split
  · rfl
  · exact writeBack_queues s k b h

end

theorem doEvictionComplete_ends {s : State} {k : Fin 8} {b : Binding} (hserving : s.serving = true)
    (hb : (s.sk k).bindings.find? (·.evicting) = some b) (hwait : ∀ k, (s.sk k).bindWait = []) :
    doEvictionComplete k s = setBinding (writeBack s k b b.hint) k b none := by
  have hidle := bindRetryAll_idle (s := setBinding (writeBack s k b b.hint) k b none) fun j => by
    rw [setBinding_bindWait, writeBack_view s k b b.hint (v := Skein.bindWait) (fun _ _ => rfl) j, hwait]
  simp [doEvictionComplete, hserving, hb, hidle]

theorem doBindFill_fills {s : State} {q : Fin 4096} {slot : Fin 64} {n : Nat} {k : Fin 8} {b : Binding}
    (hserving : s.serving = true) (hb : slotBinding s q slot = some (k, b)) (hfill : b.fill = true)
    (hn : b.sectors[n]? = some .invalid) : doBindFill q slot n s =
      setBinding ((sectorLines s.mem b n).foldl (fun s kl => reelLine s kl .none false) s) k b
        (some { b with sectors := b.sectors.set n .clean }) := by
  simp [doBindFill, hserving, hb, hfill, hn, Binding.fetched, setSector]

/-! ## Operations on a bound slot -/

/-- A creel operation that has ended with OK shows it, whatever it goes on to do to the creel (12 R329). -/
theorem descOf_ended {s t : State} {q : Fin 4096} {d : Desc} {n : Nat} (ht : creelTurn s q n = some d)
    (hq : t.queues = (failDesc s q d.seq .ok).queues) :
    (descOf t q d.seq).map (·.st) = some (.finished .ok {} 0 0 0) := by
  obtain ⟨e, he⟩ := descOf_of_mem (mem_of_creelTurn ht)
  rw [descOf_congr hq, failDesc_finishes he]

section
variable {s : State} {q : Fin 4096} {d : Desc} {k : Fin 8} {b : Binding} (hc : creelClean d.raw false = true)
  (hb : slotBinding s q (creelBody d.raw).slot = some (k, b))
include hc hb

theorem doFlush_bound (ht : creelTurn s q 4 = some d) :
    doFlush q s = flushBinding (failDesc s q d.seq .ok) k b (creelBody d.raw).hint := by
  simp [doFlush, ht, hc, ends_startDesc, slotBinding_failDesc, hb]

theorem doMoveRelease_bound (ht : creelTurn s q 5 = some d) (hwait : ∀ k, (s.sk k).bindWait = []) :
    doMoveRelease q s = released (failDesc s q d.seq .ok) k b (creelBody d.raw).hint (creelBody d.raw).drop := by
  have hidle := bindRetryAll_idle (s := released (failDesc s q d.seq .ok) k b (creelBody d.raw).hint (creelBody d.raw).drop)
    fun j => by rw [released_bindWait, failDesc_sk, hwait]
  simp only [doMoveRelease, ht, hc, ends_startDesc, slotBinding_failDesc, hb, Bool.not_true, Bool.false_eq_true, if_false]
  exact hidle

theorem doPin_bound (ht : creelTurn s q 6 = some d) (hpins : pinRefused s k q b.leas = false) :
    doPin q s = setBinding (failDesc s q d.seq .ok) k b (some { b with pinned := true }) := by
  simp [doPin, ht, hc, hb, hpins]

theorem doUnpin_bound (ht : creelTurn s q 7 = some d) :
    doUnpin q s = setBinding (failDesc s q d.seq .ok) k b (some { b with pinned := false }) := by
  simp [doUnpin, ht, hc, slotBinding_failDesc, hb]

end

/-- Settles O25: a BIND that nothing refuses or delays ends in `bindAllocate`; the other operations end their descriptor and
then change the one binding, whose bytes a write-back puts into memory. -/
theorem creelWork : Obligations.CreelWork := by
  refine ⟨?bind, ?bound, ?own⟩
  case bind =>
    intro q d segs s ht hphase c k hc halign hleas hmax hseg hst hslot hlive hevicting hplane hlost hquota hroom hstill hpin
    obtain ⟨e, he⟩ := descOf_of_mem (mem_of_creelTurn ht)
    have hk : (if s.mgmt.phase = .warmup then 0 else c.skein) = k := if_neg (by simp [hphase])
    have hpins : (c.pin && pinRefused s k q c.leas) = false := by
      rw [Bool.and_eq_false_imp]
      exact fun h => pinRefused_eq_false.mpr (hpin h)
    have hmay : BindMayEnd s k (bindWaitOf s k q d segs) c :=
      { stacked := hst, free := hslot, live := hlive, evicting := hevicting, plane := hplane, quota := hquota, pins := hpins
        room := hroom, evicted := evictsStill_eq_false.mpr hstill }
    obtain ⟨hbindings, hdone, hcells⟩ := bindStep_inFlight_binds he hmay fun htenant => hlost htenant _ rfl
    exact ⟨_, congrArg Host.Outcome.next (doBind_goes ht hc hk halign hleas hmax hseg hst), hbindings, hdone, hcells⟩
  case bound =>
    intro q d s hs hc c done k b hb hmem hnd hwait back
    obtain ⟨hwf, -⟩ := hs
    have hback : back (writeBack (failDesc s q d.seq .ok) k b c.hint) := fun x hx => by
      rw [writeBack_puts (by rwa [failDesc_mem]) hnd hx, failDesc_mem]
    refine ⟨fun ht => ?flush, fun ht => ?release, fun ht hpins => ?pin, fun ht => ?unpin⟩
    case flush =>
      refine ⟨_, congrArg Host.Outcome.next (doFlush_bound hc hb ht), descOf_ended ht (writeBack_queues _ k ..), hback, ?_⟩
      rw [flushBinding, setBinding_some, writeBack_view _ _ _ _ (v := Skein.bindings) (fun _ _ => rfl), failDesc_sk]
      rfl
    case release =>
      refine ⟨_, congrArg Host.Outcome.next (doMoveRelease_bound hc hb ht hwait), descOf_ended ht (released_queues ..),
        fun hdrop => ?_, fun hdrop => ?_, ?_⟩
      · rw [released, show (creelBody d.raw).drop = false from hdrop]
        exact hback
      · rw [show (creelBody d.raw).drop = true from hdrop, released_dropped_mem, failDesc_mem]
      · rw [released_bindings, failDesc_sk]
    case pin =>
      refine ⟨_, congrArg Host.Outcome.next (doPin_bound hc hb ht (pinRefused_eq_false.mpr hpins)),
        descOf_ended ht rfl, ?_, ?_⟩
      · rw [setBinding_mem, failDesc_mem]
      · rw [setBinding_some, failDesc_sk]
    case unpin =>
      refine ⟨_, congrArg Host.Outcome.next (doUnpin_bound hc hb ht), descOf_ended ht rfl, ?_, ?_⟩
      · rw [setBinding_mem, failDesc_mem]
      · rw [setBinding_some, failDesc_sk]
  case own =>
    intro q k b s hs hserving
    obtain ⟨hwf, -⟩ := hs
    refine ⟨fun hb hnd hwait => ?eviction, fun slot n hb hfill hn => ?fill⟩
    case eviction =>
      refine ⟨_, congrArg Host.Outcome.next (doEvictionComplete_ends hserving hb hwait), ?_,
        fun x hx => writeBack_puts (k := k) hwf hnd hx⟩
      rw [setBinding_none, writeBack_view _ _ _ _ (v := Skein.bindings) (fun _ _ => rfl)]
    case fill =>
      refine ⟨_, congrArg Host.Outcome.next (doBindFill_fills hserving hb hfill hn), ?_, ?_⟩
      · exact reelLines_keeps offWalk_cells.toOffReel ..
      · rw [setBinding_some, State.sk, reelLines_skeins, State.sk]

end Sys2Proof.Machine
end

section
/-!
PROOFS. Errors of memory channels (09 R236 to R241, R256; 10 R265; 08 R227): what the interruption of work leaves of the
memory controllers, what a map-out changes of memory, and which bursts a scrub poisons. From these the statement O34.
-/

namespace Sys2Proof.Machine

/-! ## Interrupted work leaves the memory controllers as they are -/

/-- Memory without its bytes and its poison: the maps, channels, stacks and caches. -/
def Mem.bare (m : Mem) : Mem := { m with cells := [], poison := [], creelPoison := [] }

theorem writeByte_bare (s : State) (a : Nat) (b : Byte) : (writeByte s a b).mem.bare = s.mem.bare := by
  unfold writeByte
  split
  · rfl
  · split
    · unfold putByte
      split <;> rfl
    · rfl

theorem writePhys_bare (s : State) (a : Nat) (bs : List Byte) : (writePhys s a bs).mem.bare = s.mem.bare := by
  induction bs generalizing s a with
  | nil => rfl
  | cons b bs ih => exact (ih _ _).trans (writeByte_bare s a b)

theorem writeChecked_bare (s : State) (a : Nat) (bs : List Byte) : (writeChecked s a bs).1.mem.bare = s.mem.bare := by
  unfold writeChecked
  split
  · rfl
  · exact writePhys_bare (clearPoison s a bs.length) a bs

theorem writeSegs_bare (s : State) (segs : List Seg) (a : Nat) (bs : List Byte) :
    (writeSegs s segs a bs).1.mem.bare = s.mem.bare :=
  List.foldlRecOn (motive := fun r : State × Bool => r.1.mem.bare = s.mem.bare) _ _ rfl
    fun _ hr _ _ => (writeChecked_bare ..).trans hr

theorem applyWrites_bare (s : State) (segs : List Seg) (ws : List (Nat × List Byte)) :
    (applyWrites s segs ws).1.mem.bare = s.mem.bare :=
  List.foldlRecOn (motive := fun r : State × Bool => r.1.mem.bare = s.mem.bare) _ _ rfl
    fun _ hr _ _ => (writeSegs_bare ..).trans hr

theorem spoil_bare (s : State) (m : Move) : (spoil s m).mem.bare = s.mem.bare := applyWrites_bare ..

theorem cutMoves_bare (s : State) (g : Move → Bool) : (cutMoves s g).mem.bare = s.mem.bare :=
  foldl_keeps (fun s => s.mem.bare) spoil spoil_bare _ s

theorem stopShares_bare (s : State) (q : Fin 4096) (seq : Nat) : (stopShares s q seq).mem.bare = s.mem.bare :=
  (foldl_keeps (fun s => s.mem.bare) haltSpindle (fun _ _ => rfl) _ _).trans (cutMoves_bare ..)

theorem settleQueue_mem (s : State) (q : Fin 4096) : (settleQueue s q).mem = s.mem := by
  unfold settleQueue
  dsimp only
  split <;> rfl

theorem dropFault_mem (s : State) (id : Nat) : (dropFault s id).mem = s.mem := by
  unfold dropFault
  split
  · rfl
  · dsimp only
    rw [settleQueue_mem]
    split <;> rfl

@[simp] theorem record_mem (s : State) (kind : Nat) (st : Option Status) (unit index : Nat) (args : List Nat) :
    (record s kind st unit index args).mem = s.mem :=
  addRecord_keeps (f := fun s => s.mem) (fun _ _ _ => rfl) ..

theorem applyChange_mem (s : State) (k : Fin 8) (c : MapChange) : (applyChange s k c).mem = s.mem := by
  cases c with
  | leave l => exact record_mem ..
  | join l => rfl

theorem settleMap_mem (s : State) (k : Fin 8) : (settleMap s k).mem = s.mem :=
  foldl_keeps (fun s => s.mem) _ (fun s c => by split; exacts [applyChange_mem s k c, rfl]) _ s

theorem boundary_mem (s : State) (p : Fin 136) : (boundary s p).mem = s.mem := by
  have settled : ((List.finRange 8).foldl settleMap s).mem = s.mem :=
    foldl_keeps (fun s => s.mem) settleMap settleMap_mem _ s
  unfold boundary
  split
  · rfl
  · dsimp only
    generalize (List.finRange 8).foldl settleMap s = t at settled ⊢
    split <;> exact settled

/-- A kernel that stops leaves of memory what an end of its moves leaves. -/
theorem stopKernel_bare (s : State) (q : Fin 4096) (seq : Nat) : (stopKernel s q seq).mem.bare = s.mem.bare := by
  have hbounds (t : State) (ps : List (Fin 136)) : (boundaries t ps).mem = t.mem :=
    foldl_keeps (fun s => s.mem) boundary boundary_mem ps t
  have hfaults (t : State) (ids : List Nat) : (ids.foldl dropFault t).mem = t.mem :=
    foldl_keeps (fun s => s.mem) dropFault dropFault_mem ids t
  unfold stopKernel
  dsimp only
  rw [hbounds, hfaults]
  exact stopShares_bare s q seq

theorem redo_mem (s : State) (q : Fin 4096) (seq : Nat) (fl : Flags) : (redo s q seq fl).mem = s.mem := by
  unfold redo
  split <;> rfl

theorem interruptKernel_bare (s : State) (q : Fin 4096) (seq : Nat) :
    (interruptKernel s q seq).mem.bare = s.mem.bare := by
  unfold interruptKernel
  dsimp only
  split
  · rw [redo_mem]
    exact stopKernel_bare s q seq
  · exact stopKernel_bare s q seq

theorem reportMove_mem (s : State) (m : Move) (st : Status) (fl : Flags) : (reportMove s m st fl).mem = s.mem := by
  unfold reportMove
  split <;> rfl

theorem finishMove_bare (s : State) (m : Move) (fl : Flags) : (finishMove s m fl).mem.bare = s.mem.bare := by
  unfold finishMove
  split
  · rfl
  · split
    · exact interruptKernel_bare ..
    · split
      · rw [redo_mem]
      · exact congrArg Mem.bare (reportMove_mem s m .faulted fl)

theorem interruptFlyer_bare (s : State) (k : Fin 8) (f : Fin 4) : (interruptFlyer s k f).mem.bare = s.mem.bare := by
  unfold interruptFlyer
  dsimp only
  split
  · rfl
  · exact (finishMove_bare ..).trans (spoil_bare ..)

/-! ## Two states with the same channels -/

/-- The channels, the migration that runs and those that wait are the same in two states. -/
structure SameChannels (s t : State) : Prop where
  chan : t.mem.chan = s.mem.chan
  mig : t.mem.mig = s.mem.mig
  wait : t.mem.migWait = s.mem.migWait

theorem SameChannels.of_mem {s t : State} (h : t.mem = s.mem) : SameChannels s t :=
  ⟨congrArg Mem.chan h, congrArg Mem.mig h, congrArg Mem.migWait h⟩

theorem SameChannels.of_bare {s t : State} (h : t.mem.bare = s.mem.bare) : SameChannels s t := by
  have hchan := congrArg Mem.chan h
  have hmig := congrArg Mem.mig h
  have hwait := congrArg Mem.migWait h
  exact ⟨hchan, hmig, hwait⟩

theorem SameChannels.trans {s t u : State} (h : SameChannels s t) (h' : SameChannels t u) : SameChannels s u :=
  ⟨h'.chan.trans h.chan, h'.mig.trans h.mig, h'.wait.trans h.wait⟩

section
variable {s t : State} (h : SameChannels s t) (hu : t.mgmt.unit = s.mgmt.unit)
include h hu

theorem SameChannels.comesBack (c : Fin 256) : comesBack t c = Machine.comesBack s c := by
  simp only [Machine.comesBack, h.chan, h.mig, hu]

theorem SameChannels.mayLeave (c : Fin 256) : mayLeave t c = Machine.mayLeave s c := by
  simp only [Machine.mayLeave, h.comesBack hu, h.chan, h.mig, h.wait]

end

/-- Marks on sweeps go to the queues; of memory a stack's wait alone changes. -/
theorem needRedo_sameChannels (s : State) (k : Fin 8) : SameChannels s (needRedo s k) := by
  have marked (l : List Sweep) : (l.foldl (fun s w => markReplayed s w.queue w.seq) s).mem = s.mem :=
    foldl_keeps (fun s => s.mem) (fun s (w : Sweep) => markReplayed s w.queue w.seq) (fun _ _ => rfl) l s
  unfold needRedo
  dsimp only
  exact .trans (.of_mem (marked _)) ⟨rfl, rfl, rfl⟩

theorem needRedo_unit (s : State) (k : Fin 8) : (needRedo s k).mgmt.unit = s.mgmt.unit :=
  foldl_keeps (fun s => s.mgmt.unit) (fun s (w : Sweep) => markReplayed s w.queue w.seq) (fun _ _ => rfl) _ s

theorem holdReplays_mem (s : State) (c : Fin 256) (ws : List (Fin 4096 × Nat)) : (holdReplays s c ws).mem = s.mem :=
  foldl_keeps (fun s => s.mem) (fun s (w : Fin 4096 × Nat) => setDesc s w.1 w.2 fun d => { d with waitMig := true })
    (fun _ _ => rfl) ws s

/-- The interruption of the work on a channel leaves the channels and migrations (09 R241). -/
theorem interruptChan_sameChannels (s : State) (c : Fin 256) : SameChannels s (interruptChan s c) := by
  unfold interruptChan
  dsimp only
  refine .trans (.of_bare ?_) (needRedo_sameChannels ..)
  show (holdReplays _ c (chanWork s c).dedup).mem.bare = _
  rw [holdReplays_mem]
  refine (foldl_keeps (fun s => s.mem.bare) _ (fun t k => ?_) _ _).trans ?_
  · refine foldl_keeps (fun s => s.mem.bare) _ (fun t i => ?_) _ t
    split
    · split
      · exact interruptFlyer_bare ..
      · rfl
    · rfl
  · exact foldl_keeps (fun s => s.mem.bare) (fun s (w : Fin 4096 × Nat) => interruptKernel s w.1 w.2)
      (fun _ _ => interruptKernel_bare ..) _ s

/-! ## The record of a part of memory -/

section
variable (s : State) (unit index cause : Nat)

@[simp] theorem memPartRecord_mem : (memPartRecord s unit index cause).mem = s.mem := record_mem ..

theorem memPartRecord_unit : (memPartRecord s unit index cause).mgmt.unit = s.mgmt.unit := by
  refine (addRecord_keeps (f := fun s => s.mgmt.unit) (fun _ _ _ => rfl) ..).trans ?_
  unfold keepRecord
  dsimp only
  split
  · rfl
  · split <;> rfl

theorem memPartRecord_faults (h : s.mgmt.faults.length < 256) :
    (memPartRecord s unit index cause).mgmt.faults.length = s.mgmt.faults.length + 1 :=
  (addRecord_keeps (f := fun s => s.mgmt.faults.length) (fun _ _ _ => rfl) ..).trans (keepRecord_length h _)

theorem memPartRecord_mayLeave (c : Fin 256) : mayLeave (memPartRecord s unit index cause) c = mayLeave s c :=
  (SameChannels.of_mem (memPartRecord_mem ..)).mayLeave (memPartRecord_unit ..) c

theorem memPartRecord_comesBack (c : Fin 256) : comesBack (memPartRecord s unit index cause) c = comesBack s c :=
  (SameChannels.of_mem (memPartRecord_mem ..)).comesBack (memPartRecord_unit ..) c

end

/-! ## Map-out -/

theorem upd_get_self {α : Type} {n : Nat} (v : Vector α n) (i : Fin n) : upd v i (v.get i) = v :=
  Vector.set_getElem_self i.isLt

/-- What a map-out can change of memory: a channel's state and cause, the migration and those that wait; a stack only where
no migration runs (09 R238, R240). -/
def MapOutChanges (c : Fin 256) (m m' : Mem) : Prop :=
  ∃ st why stack mig wait,
    m' = { m with chan := upd m.chan c { m.chan.get c with st, cause := why }, stack, mig, migWait := wait } ∧
    (m.mig ≠ none → mig = m.mig ∧ stack = m.stack)

theorem MapOutChanges.waits (c : Fin 256) (m : Mem) (wait : List Migration) :
    MapOutChanges c m { m with migWait := wait } := by
  have unchanged : upd m.chan c { m.chan.get c with st := (m.chan.get c).st, cause := (m.chan.get c).cause } = m.chan :=
    upd_get_self m.chan c
  exact ⟨_, _, m.stack, m.mig, wait, by rw [unchanged], fun _ => ⟨rfl, rfl⟩⟩

theorem MapOutChanges.refl (c : Fin 256) (m : Mem) : MapOutChanges c m m := .waits c m m.migWait

theorem mapOut_changes (s : State) (c : Fin 256) (cause : Nat) : MapOutChanges c s.mem (mapOut s c cause).mem := by
  unfold mapOut
  split
  · exact .refl c s.mem
  · split
    · exact ⟨_, _, _, _, _, rfl, fun _ => ⟨rfl, rfl⟩⟩
    · unfold startMigration
      split
      case h_1 hidle => exact ⟨_, _, _, _, _, rfl, fun hruns => absurd hidle hruns⟩
      case h_2 => exact .waits c s.mem _

theorem checkLimits_changes (s : State) (c : Fin 256) : MapOutChanges c s.mem (checkLimits s c).mem := by
  unfold checkLimits
  split
  · split
    · simpa only [memPartRecord_mem] using mapOut_changes (memPartRecord s 3 c.val 2) c _
    · exact .refl c s.mem
  · exact .refl c s.mem

section
variable {s : State} {c : Fin 256} (hleave : mayLeave s c = true)
include hleave

/-- A channel that comes back and has not joined stays out with the cause (log 170). -/
theorem mapOut_comesBack (hback : comesBack s c = true) (cause : Nat) :
    mapOut s c cause = s.setMem { s.mem.setChan c { s.mem.chan.get c with st := .mappedOut, cause } with
      migWait := s.mem.migWait.filter fun g => g.chan != c } := by
  simp [mapOut, hleave, hback]

theorem mapOut_starts (hback : comesBack s c = false) (cause : Nat) :
    mapOut s c cause = startMigration s ⟨c, false, cause⟩ := by
  simp [mapOut, hleave, hback]

theorem orderOut_mapsOut : orderOut s c = mapOut (memPartRecord s 3 c.val 3) c 5 := by
  simp [orderOut, hleave]

end

/-- A channel drains as its map-out starts (09 R238). -/
theorem beginMigration_leaves (s : State) (c : Fin 256) (cause : Nat) :
    beginMigration s ⟨c, false, cause⟩ = s.setMem { (s.mem.setChan c
        { s.mem.chan.get c with st := .draining, cause }).setStack (stackOf c)
        { s.mem.stack.get (stackOf c) with granule := 0 } with mig := some ⟨c, false, cause⟩ } := rfl

theorem startMigration_idle {s : State} (h : s.mem.mig = none) (g : Migration) :
    startMigration s g = beginMigration s g := by
  simp [startMigration, h]

theorem startMigration_waits {s : State} (h : s.mem.mig ≠ none) (g : Migration) :
    startMigration s g = s.setMem { s.mem with migWait := s.mem.migWait ++ [g] } := by
  unfold startMigration
  split
  · contradiction
  · rfl

/-! ## A channel that faults and a distaff that fails -/

/-- The commands by which a part of memory fails, with the cause of the map-out (09 R237; 10 R265). -/
def PartFails (s : State) (c : Fin 256) (x : Instr) (cause : Nat) : Prop :=
  x = .channelFault c ∧ cause = faultCause s.mem (s.now / 1000) (s.mem.chan.get c) ∨
    x = .distaffFail c ∧ cause = 4 ∧ (s.mem.stack.get (stackOf c)).distFailed.getLsbD (c.val % 32) = false

/-- A part of memory that fails leaves the channels and migrations that its map-out leaves. -/
theorem exec_partFails {s : State} {c : Fin 256} {x : Instr} {cause : Nat} (hleave : mayLeave s c = true)
    (hx : PartFails s c x cause) : ∃ s' t, exec x s = .next t ∧ SameChannels s s' ∧ s'.mgmt.unit = s.mgmt.unit ∧
      SameChannels (mapOut s' c cause) t := by
  obtain ⟨rfl, rfl⟩ | ⟨rfl, rfl, hdist⟩ := hx
  · refine ⟨memPartRecord s 3 c.val 2, doChannelFault c s, rfl, .of_mem (memPartRecord_mem ..), memPartRecord_unit .., ?_⟩
    simp only [doChannelFault, hleave, Bool.not_true, Bool.false_eq_true, if_false]
    split
    · exact interruptChan_sameChannels ..
    · exact .of_mem rfl
  · let m := s.mem.setStack (stackOf c) { s.mem.stack.get (stackOf c) with
      distFailed := (s.mem.stack.get (stackOf c)).distFailed ||| (1#32 <<< (c.val % 32)) }
    have hfail : doDistaffFail c s = mapOut (memPartRecord (needRedo (s.setMem m) (stackOf c)) 3 c.val 2) c 4 := by
      simp only [doDistaffFail, hdist, Bool.false_eq_true, if_false]
      rfl
    refine ⟨_, doDistaffFail c s, rfl, ?_, ?_, .of_mem (congrArg State.mem hfail)⟩
    · have hset : SameChannels s (s.setMem m) := ⟨rfl, rfl, rfl⟩
      exact (hset.trans (needRedo_sameChannels ..)).trans (.of_mem (memPartRecord_mem ..))
    · exact (memPartRecord_unit ..).trans (needRedo_unit ..)

/-! ## Poison -/

theorem mem_taint_poison {m : Mem} {bs : List Nat} {b : Nat} : b ∈ (m.taint bs).poison ↔ b ∈ m.poison ∨ b ∈ bs := by
  show b ∈ bs.foldl _ m.poison ↔ _
  generalize m.poison = l
  induction bs generalizing l with
  | nil => simp
  | cons x bs ih =>
    rw [List.foldl_cons, ih, List.mem_cons]
    split
    · next hx =>
      have hin : x ∈ l := by simpa using hx
      grind
    · grind

theorem creelByte_unbound {s : State} (h : ∀ k, (s.sk k).bindings = []) (key : Nat) : creelByte s key = none := by
  have : allBindings s = [] := by simp [allBindings_eq, h]
  show (allBindings s).findSome? _ = none
  rw [this, List.findSome?_nil]

/-- With nothing bound the bursts of the given addresses are poisoned in memory (09 R234). -/
theorem mem_taintAt_poison {s : State} (h : ∀ k, (s.sk k).bindings = []) {keys : List Nat} {b : Nat} :
    b ∈ (taintAt s keys).mem.poison ↔ b ∈ s.mem.poison ∨ ∃ key ∈ keys, key / 32 = b := by
  have hheld (k : Nat) : (!(creelByte s k).isSome) = true := by simp [creelByte_unbound h]
  show b ∈ (s.mem.taint ((keys.filter fun k => !(creelByte s k).isSome).map (· / 32))).poison ↔ _
  rw [List.filter_eq_self.mpr fun k _ => hheld k, mem_taint_poison, List.mem_map]

/-- The state in which a scrub has counted its errors and poisoned the bursts of `keys` (09 R236). -/
def scrubbed (s : State) (c : Fin 256) (ces ues : Nat) (keys : List Nat) : State :=
  taintAt (s.setMem (s.mem.setChan c ((s.mem.chan.get c).countErrors s.mem (s.now / 1000) ces ues))) keys

theorem scrubbed_chan (s : State) (c : Fin 256) (ces ues : Nat) (keys : List Nat) :
    (scrubbed s c ces ues keys).mem.chan.get c = (s.mem.chan.get c).countErrors s.mem (s.now / 1000) ces ues :=
  get_upd_same ..

theorem doPatrolScrub_scrubs {s : State} {c : Fin 256} (hin : (s.mem.chan.get c).st = .inService)
    (hclock : s.mgmt.clockLost = false) (ces : Nat) (ues : List Nat) :
    let keys := ues.filterMap fun a => locKey (physLoc s.mem a)
    let mine := keys.filter fun key => keyChan s.mem key == some c
    let far := keys.filter fun key => decide (0x100000000000 ≤ key)
    doPatrolScrub c ces ues s = checkLimits (scrubbed s c ces mine.length (mine ++ far)) c := by
  simp [doPatrolScrub, hin, hclock, scrubbed]

/-! ## Quotas -/

theorem q_map {s t : State} {g : Queue → Queue} (h : t.queues = s.queues.map g) (q : Fin 4096) : t.q q = g (s.q q) := by
  simp [State.q, Vector.get_eq_getElem, h]

theorem queues_all {s : State} {p : Queue → Bool} : s.queues.toList.all p = true ↔ ∀ q, p (s.q q) = true := by
  simp only [State.q, Vector.get_eq_getElem, List.all_eq_true, Vector.mem_toList_iff, Vector.mem_iff_getElem]
  exact ⟨fun h q => h _ ⟨q.val, q.isLt, rfl⟩, fun h x ⟨i, hi, hx⟩ => hx ▸ h ⟨i, hi⟩⟩

/-- The quotas that a commit would put into effect break no rule (08 R227). -/
def QuotasFit (s : State) : Prop :=
  ∀ q, (s.q q).quota.1 ≤ 256 ∧ (s.q q).quota.2 ≤ 224 ∧ (s.q q).quota.2 ≤ (s.q q).quota.1

theorem quotasFit_iff {s : State} : (s.queues.toList.all fun x =>
    decide (x.quota.1 ≤ 256) && decide (x.quota.2 ≤ 224) && decide (x.quota.2 ≤ x.quota.1)) = true ↔ QuotasFit s :=
  queues_all.trans (by simp [QuotasFit, and_assoc])

theorem doCreelQuotaCommit_takes {s : State} (h : QuotasFit s) : (doCreelQuotaCommit s).quotaRes = .ok ∧
    ∀ q, (doCreelQuotaCommit s).q q = { s.q q with leas := (s.q q).quota.1, pin := (s.q q).quota.2, quotaSt := none } := by
  rw [doCreelQuotaCommit, if_pos (quotasFit_iff.mpr h)]
  exact ⟨rfl, fun q => (q_map (s := s) rfl q).trans rfl⟩

theorem doCreelQuotaCommit_refuses {s : State} (h : ¬ QuotasFit s) : (doCreelQuotaCommit s).quotaRes = .refused ∧
    ∀ q, (doCreelQuotaCommit s).q q = { s.q q with quotaSt := none } := by
  rw [doCreelQuotaCommit, if_neg (mt quotasFit_iff.mp h)]
  exact ⟨rfl, fun q => (q_map (s := s) rfl q).trans rfl⟩

/-! ## The statement -/

/-- Settles O34: a scrub ends in the check of the limits, a failed part and an order in a map-out; each changes of memory
what the map-out of one channel may change. -/
theorem memoryErrors : Obligations.MemoryErrors := by
  refine ⟨fun c s => ⟨?scrub, ?stays, ?leaves, ?held⟩, fun k w s => ⟨?limits, ?quotas, ?keep⟩⟩
  case scrub =>
    intro ces ues hin hclock keys mine far
    obtain ⟨st, why, stack, mig, wait, hmem, -⟩ := checkLimits_changes (scrubbed s c ces mine.length (mine ++ far)) c
    refine ⟨_, congrArg Host.Outcome.next (doPatrolScrub_scrubs hin hclock ces ues), ?_, ?_, ?_, fun hfree b => ?_⟩
    · rw [hmem]
      simp only [get_upd_same, scrubbed_chan]
      rfl
    · rw [hmem]
      simp only [get_upd_same, scrubbed_chan]
      rfl
    · rw [hmem]
      rfl
    · rw [hmem]
      exact mem_taintAt_poison hfree
  case stays =>
    intro hleave hback x cause hx
    obtain ⟨s', t, hexec, hsame, hunit, hout⟩ := exec_partFails hleave hx
    rw [mapOut_comesBack ((hsame.mayLeave hunit c).trans hleave) ((hsame.comesBack hunit c).trans hback)] at hout
    refine ⟨t, hexec, ?_, ?_, hout.mig.trans hsame.mig, fun g hg => ?_⟩
    · rw [hout.chan]
      exact congrArg Chan.st (get_upd_same ..)
    · rw [hout.chan]
      exact congrArg Chan.cause (get_upd_same ..)
    · rw [hout.wait] at hg
      simpa using (List.mem_filter.mp hg).2
  case leaves =>
    intro hleave hback
    refine ⟨fun x cause hx => ?part, fun hidle => ?order⟩
    case part =>
      obtain ⟨s', t, hexec, hsame, hunit, hout⟩ := exec_partFails hleave hx
      rw [mapOut_starts ((hsame.mayLeave hunit c).trans hleave) ((hsame.comesBack hunit c).trans hback)] at hout
      refine ⟨t, hexec, fun hidle => ?_, fun hbusy => ?_⟩
      · rw [startMigration_idle (hsame.mig.trans hidle), beginMigration_leaves] at hout
        refine ⟨hout.mig, ?_⟩
        rw [hout.chan]
        exact congrArg Chan.st (get_upd_same ..)
      · rw [startMigration_waits (by rwa [hsame.mig])] at hout
        exact ⟨hout.mig.trans hsame.mig, hout.wait.trans (congrArg (· ++ _) hsame.wait)⟩
    case order =>
      have hmig : (memPartRecord s 3 c.val 3).mem.mig = none := by rwa [memPartRecord_mem]
      have hdone : doMapOut c s = beginMigration (memPartRecord s 3 c.val 3) ⟨c, false, 5⟩ := by
        rw [doMapOut, hidle, orderOut_mapsOut hleave, mapOut_starts, startMigration_idle hmig]
        · rfl
        · rwa [memPartRecord_mayLeave]
        · rwa [memPartRecord_comesBack]
      refine ⟨_, congrArg Host.Outcome.next (hdone.trans (beginMigration_leaves ..)), rfl, ?_, ?_,
        memPartRecord_faults s 3 c.val 3⟩
      · exact congrArg Chan.st (get_upd_same ..)
      · have hcells := congrArg Mem.cells (memPartRecord_mem s 3 c.val 3)
        exact hcells
  case held =>
    intro hbusy
    refine congrArg Host.Outcome.next ?_
    rw [doMapOut, if_pos (Option.isSome_iff_ne_none.mpr hbusy)]
    rfl
  case limits =>
    intro hstaged v good
    have hbad : (bitsOf v 0 16 = 0 ∨ bitsOf v 16 16 = 0 ∨ bitsOf v 32 8 = 0) ↔ ¬ good := by
      simp only [good]
      tauto
    refine ⟨fun h => congrArg Host.Outcome.next ?_, fun h => congrArg Host.Outcome.next ?_⟩
    · exact (if_neg hstaged).trans (if_neg (mt hbad.mp (not_not_intro h)))
    · exact (if_neg hstaged).trans (if_pos (hbad.mpr h))
  case quotas =>
    intro good
    by_cases h : good
    · obtain ⟨hres, hq⟩ := doCreelQuotaCommit_takes h
      refine ⟨_, rfl, fun q => ?_, fun _ => ⟨hres, fun q => ?_⟩, fun hn => absurd h hn⟩ <;> rw [hq] <;> exact ⟨rfl, rfl⟩
    · obtain ⟨hres, hq⟩ := doCreelQuotaCommit_refuses h
      refine ⟨_, rfl, fun q => ?_, fun hg => absurd hg h, fun _ => ⟨hres, fun q => ?_⟩⟩ <;> rw [hq] <;> exact ⟨rfl, rfl⟩
  case keep =>
    exact ⟨_, rfl, congrArg Reel.keepWays (get_upd_same ..), rfl⟩

end Sys2Proof.Machine
end

section
/-!
PROOFS. Re-interleave (09 R238 to R242): what the copy of a granule and the end of a migration leave of memory, and the size
of the interleave once one of its stacks has the fewest channels. From these the statement O35.
-/

namespace Sys2Proof.Machine

/-! ## The copy of a granule -/

/-- The bursts of the next granule of a stack that cannot be read (09 R238). -/
def unreadBursts (m : Mem) (k : Fin 8) (ues : List Nat) : List Nat :=
  (ues.filter (· < 128)).filterMap fun i => burstAt m (aliasBase k.val + (m.stack.get k).granule * 4096 + 32 * i)

theorem mem_unreadBursts {m : Mem} {k : Fin 8} {ues : List Nat} {i b : Nat} (hi : i ∈ ues) (hlt : i < 128)
    (hb : burstAt m (aliasBase k.val + (m.stack.get k).granule * 4096 + 32 * i) = some b) : b ∈ unreadBursts m k ues :=
  List.mem_filterMap.mpr ⟨i, List.mem_filter.mpr ⟨hi, decide_eq_true hlt⟩, hb⟩

/-- A copy counts the granule, poisons the bursts that cannot be read, and leaves no more than the channels' counts and the
migrations that wait to the check of the limits (09 R237, R238). -/
theorem doMigrationGranuleCopy_mem {s : State} {g : Migration} (ues : List Nat) (hmig : s.mem.mig = some g)
    (hserving : s.serving = true) (hup : (s.mem.stack.get (stackOf g.chan)).up = true)
    (hleft : (s.mem.stack.get (stackOf g.chan)).granule < granulesAfter s.mem g) :
    let k := stackOf g.chan
    let y := s.mem.stack.get k
    ∃ chan wait, (doMigrationGranuleCopy ues s).mem =
      { (s.mem.setStack k { y with granule := y.granule + 1 }).taint (unreadBursts s.mem k ues) with
        chan, migWait := wait } := by
  intro k y
  have hgo : ¬ (granulesAfter s.mem g ≤ y.granule ∨ (!s.serving) = true ∨ (!y.up) = true) := by
    simp [y, k, hserving, hup, hleft]
  unfold doMigrationGranuleCopy
  simp only [hmig]
  rw [if_neg hgo]
  split
  case h_2 => exact ⟨_, _, rfl⟩
  case h_1 c' _ =>
    generalize hcopied : releaseMoves _ = copied
    obtain ⟨st, why, stack, mig, wait, hmem, hkept⟩ := checkLimits_changes copied c'
    subst hcopied
    have hruns : s.mem.mig ≠ none := by simp [hmig]
    obtain ⟨rfl, rfl⟩ := hkept hruns
    exact ⟨_, wait, hmem⟩

/-! ## The end of a migration -/

/-- With nothing that waits, the moves that may start are all that goes on (09 R241). -/
theorem afterMigration_idle {s : State} (hmig : s.mem.mig = none) (hwait : s.mem.migWait = [])
    (hheld : s.mem.heldCtrl = []) (fuel : Nat) : afterMigration (fuel + 1) s = releaseMoves s := by
  simp [afterMigration, hmig, hwait, hheld]

theorem releaseMoves_mem (s : State) : (releaseMoves s).mem = s.mem := rfl

section
variable {s : State} {c : Fin 256} {cause : Nat} (hserving : s.serving = true) (hwait : s.mem.migWait = [])
  (hheld : s.mem.heldCtrl = [])
include hserving hwait hheld

/-- A channel that left shrinks its stack; of the bytes and the poison some are lost (09 R239). -/
theorem doMigrationEnd_leaves (hmig : s.mem.mig = some ⟨c, false, cause⟩) :
    let k := stackOf c
    let y := s.mem.stack.get k
    ∃ cells poison creelPoison, (doMigrationEnd s).mem =
      { ((s.mem.setChan c { s.mem.chan.get c with st := .mappedOut }).setStack k
          { y with granule := 0, channels := y.channels - 1 }).resized with mig := none, cells, poison, creelPoison } := by
  unfold doMigrationEnd
  simp only [hserving, hmig, Bool.not_true, Bool.false_eq_true, if_false]
  rw [afterMigration_idle (by rw [record_mem]; rfl) (by rw [record_mem]; exact hwait) (by rw [record_mem]; exact hheld),
    releaseMoves_mem, record_mem]
  exact ⟨_, _, _, rfl⟩

/-- A channel that joined is in service (09 R242). -/
theorem doMigrationEnd_joins (hmig : s.mem.mig = some ⟨c, true, cause⟩) :
    (doMigrationEnd s).mem = { (s.mem.setChan c { s.mem.chan.get c with st := .inService, cause := 0 }).setStack (stackOf c)
      { s.mem.stack.get (stackOf c) with granule := 0 } with mig := none } := by
  unfold doMigrationEnd
  simp only [hserving, hmig, Bool.not_true, Bool.false_eq_true, if_false, if_true]
  rw [afterMigration_idle (by rw [record_mem]; rfl) (by rw [record_mem]; exact hwait) (by rw [record_mem]; exact hheld),
    releaseMoves_mem, record_mem]
  rfl

end

/-! ## The size of the interleave -/

/-- A least value that a list attains is what its minimum comes to. -/
theorem foldl_min_eq {β : Type} {f : β → Nat} {a : Nat} {l : List β} {n : Nat} (hn : a ≤ n) (hl : ∀ j ∈ l, a ≤ f j)
    (hat : n = a ∨ ∃ j ∈ l, f j = a) : l.foldl (fun n j => min n (f j)) n = a := by
  induction l generalizing n with
  | nil => simpa using hat
  | cons x l ih =>
    have hx : a ≤ f x := hl x List.mem_cons_self
    refine ih (le_min hn hx) (fun j hj => hl j (List.mem_cons_of_mem x hj)) ?_
    obtain rfl | ⟨j, hj, hat⟩ := hat
    · exact .inl (min_eq_left hx)
    · obtain rfl | hj := List.mem_cons.mp hj
      · exact .inl ((congrArg (min n) hat).trans (min_eq_right hn))
      · exact .inr ⟨j, hj, hat⟩

/-- The interleave is as wide as the smallest of its windows (09 R231). -/
theorem ilSizeOf_least {m : Mem} {k : Fin 8} (hk : k ∈ m.il) (hleast : ∀ j ∈ m.il, aliasMib m k ≤ aliasMib m j) :
    ilSizeOf m = m.il.length * aliasMib m k := by
  unfold ilSizeOf
  split
  case h_1 hnil => simp [hnil] at hk
  case h_2 k0 ks hil =>
    rw [hil] at hk hleast
    rw [foldl_min_eq (hleast k0 List.mem_cons_self) fun j hj => hleast j (List.mem_cons_of_mem k0 hj)]
    obtain rfl | hk := List.mem_cons.mp hk
    · exact .inl rfl
    · exact .inr ⟨k, hk, rfl⟩

/-- The interleave after a loss of a channel in a stack that had no more channels than the others (09 R239). -/
theorem ilSizeOf_shrunk {m : Mem} {k : Fin 8} {y : Stack} (hk : k ∈ m.il)
    (hleast : ∀ j ∈ m.il, j = k ∨ (m.stack.get k).channels ≤ (m.stack.get j).channels)
    (hy : y.channels = (m.stack.get k).channels - 1) :
    ilSizeOf (m.setStack k y) = m.il.length * ((m.stack.get k).channels - 1) * 1536 := by
  have hself : aliasMib (m.setStack k y) k = ((m.stack.get k).channels - 1) * 1536 := by
    simp [aliasMib, Mem.setStack, hy]
  rw [ilSizeOf_least (m := m.setStack k y) hk, hself, Nat.mul_assoc]
  · rfl
  · intro j hj
    obtain rfl | hle := hleast j hj
    · exact le_rfl
    · by_cases hjk : j = k
      · rw [hjk]
      · have hother : aliasMib (m.setStack k y) j = (m.stack.get j).channels * 1536 := by
          simp [aliasMib, Mem.setStack, get_upd_ne _ _ hjk]
        omega

/-! ## A channel that joins -/

theorem comesBack_of_restoring {s : State} {c : Fin 256} (hst : (s.mem.chan.get c).st = .restoring)
    (hmig : s.mem.mig = none)
    (hunit : s.mgmt.unit.busy = false ∨ s.mgmt.unit.runUnit ≠ 3 ∨ s.mgmt.unit.runIndex ≠ c.val) :
    comesBack s c = true := by
  simp only [comesBack, hst, hmig]
  rcases hunit with h | h | h <;> simp [h]

/-- A restored channel with nothing in its way begins to join (09 R242). -/
theorem doChannelRestoreJoin_begins {s : State} {c : Fin 256} (hback : comesBack s c = true) (hmig : s.mem.mig = none)
    (hwait : s.mem.migWait = []) (hlost : (s.mem.stack.get (stackOf c)).lost = false) :
    doChannelRestoreJoin c s = beginMigration s ⟨c, true, 0⟩ := by
  rw [← startMigration_idle hmig]
  simp [doChannelRestoreJoin, hback, hlost, hwait]

/-! ## The statement -/

/-- Settles O35: a copy, the end of a migration and a join each change of memory what its own lemma names; the size of the
interleave is that of its smallest window. -/
theorem migrations : Obligations.Migrations := by
  intro c ues s k size
  refine ⟨fun g hmig hserving hup hleft => ?copy, fun hwait hheld hserving => ⟨fun cause hmig hsome => ?leave,
    fun cause hmig => ?joined⟩, fun hst hmig hwait hunit hlost => ?join⟩
  case copy =>
    obtain ⟨chan, wait, hmem⟩ := doMigrationGranuleCopy_mem ues hmig hserving hup hleft
    refine ⟨_, rfl, ?_⟩
    rw [hmem]
    exact ⟨hmig, congrArg Stack.granule (get_upd_same ..), rfl,
      fun i b hi hlt hb => mem_taint_poison.mpr (.inr (mem_unreadBursts hi hlt hb))⟩
  case leave =>
    obtain ⟨cells, poison, creelPoison, hmem⟩ := doMigrationEnd_leaves hserving hwait hheld hmig
    refine ⟨_, rfl, ?_⟩
    rw [hmem]
    refine ⟨rfl, congrArg Chan.st (get_upd_same ..), ?_, rfl,
      fun hleast hk => ilSizeOf_shrunk (m := s.mem.setChan c _) hk hleast rfl⟩
    have hfewer := congrArg Stack.channels (get_upd_same s.mem.stack k { s.mem.stack.get k with
      granule := 0, channels := (s.mem.stack.get k).channels - 1 })
    exact (congrArg (· + 1) hfewer).trans (Nat.sub_add_cancel hsome)
  case joined =>
    refine ⟨_, rfl, ?_⟩
    rw [doMigrationEnd_joins hserving hwait hheld hmig]
    exact ⟨rfl, congrArg Chan.st (get_upd_same ..), rfl, rfl⟩
  case join =>
    refine ⟨_, congrArg Host.Outcome.next
      (doChannelRestoreJoin_begins (comesBack_of_restoring hst hmig hunit) hmig hwait hlost), rfl, ?_, rfl⟩
    exact congrArg Stack.channels (get_upd_same ..)

end Sys2Proof.Machine
end

section
/-!
PROOFS. Distaff work (10 R268 to R285; 15 R414; 18 R491): what its traffic and its writes leave unchanged, the dispatch of a
sweep, its units, its end and its recovery. From these the statement O32.
-/

namespace Sys2Proof.Machine

/-! ## Traffic of distaff work -/

/-- A view of the state that neither the bindings nor the reel caches enter. -/
structure OffTraffic {α : Type} (f : State → α) : Prop where
  creel (s : State) (k : Fin 8) (bs : List Binding) : f (s.setSk k { s.sk k with bindings := bs }) = f s
  reel (s : State) (r : Vector Reel 8) : f (s.setMem { s.mem with reel := r }) = f s

/-- The lines of captured ranges leave the reel caches (09 R248). -/
def dropSegs (s : State) (segs : List Seg) : State := segs.foldl (fun s p => reelDrop s p.pa p.len) s

section
variable {α : Type} {f : State → α}

theorem OffReel.offTraffic (hf : OffReel f) : OffTraffic f := ⟨fun _ _ _ => hf.sk _ _ _, hf.reel⟩

theorem OffBytes.offTraffic (hf : OffBytes f) : OffTraffic f := ⟨hf.creel, fun _ _ => hf.mem _ _⟩

end

namespace OffTraffic
variable {α : Type} {f : State → α} (hf : OffTraffic f) (s : State)
include hf

theorem touchUnit (a n : Nat) (h : Hint) (wr : Bool) : f (touchUnit s a n h wr) = f s := by
  unfold Machine.touchUnit
  split
  · exact foldl_keeps f _ (fun _ _ => hf.reel _ _) _ _
  · exact (foldl_keeps f _ (fun _ _ => hf.reel _ _) _ _).trans (hf.creel _ _ _)

theorem reelTouch (a n : Nat) (h : Hint) (wr : Bool) : f (reelTouch s a n h wr) = f s :=
  foldl_keeps f _ (fun _ _ => hf.touchUnit _ _ _ _ _) _ _

theorem reelDrop (a n : Nat) : f (reelDrop s a n) = f s := by
  unfold Machine.reelDrop
  split
  · rfl
  · exact hf.reel _ _

theorem dropSegs (segs : List Seg) : f (dropSegs s segs) = f s :=
  foldl_keeps f (fun s (p : Seg) => Machine.reelDrop s p.pa p.len) (fun s p => hf.reelDrop s p.pa p.len) segs s

theorem distTouch (segs : List Seg) (a n : Nat) (wr : Bool) : f (distTouch s segs a n wr) = f s := by
  refine foldl_keeps f _ (fun s y => ?_) _ s
  split
  · exact hf.reelTouch _ _ _ _ _
  · exact hf.reelDrop _ _ _

theorem dropPlanes (w : Sweep) : f (dropPlanes s w) = f s :=
  (hf.distTouch _ _ _ _ _).trans (hf.dropSegs s _)

end OffTraffic

theorem offReel_stack : OffReel fun s => s.mem.stack := ⟨fun _ _ _ => rfl, fun _ _ => rfl⟩

@[simp] theorem distTouch_cells (s : State) (segs : List Seg) (a n : Nat) (wr : Bool) :
    (distTouch s segs a n wr).mem.cells = s.mem.cells := offWalk_cells.toOffReel.offTraffic.distTouch s segs a n wr

@[simp] theorem distTouch_sweeps (s : State) (segs : List Seg) (a n : Nat) (wr : Bool) :
    (distTouch s segs a n wr).sweeps = s.sweeps := offWalk_sweeps.toOffReel.offTraffic.distTouch s segs a n wr

@[simp] theorem distTouch_queues (s : State) (segs : List Seg) (a n : Nat) (wr : Bool) :
    (distTouch s segs a n wr).queues = s.queues := offWalk_queues.toOffReel.offTraffic.distTouch s segs a n wr

/-! ## Writes through captured ranges -/

theorem offBytes_sweeps : OffBytes fun s => s.sweeps := ⟨fun _ _ _ => rfl, fun _ _ _ => rfl, fun _ _ => rfl⟩
theorem offBytes_ply : OffBytes fun s => s.ply := ⟨fun _ _ _ => rfl, fun _ _ _ => rfl, fun _ _ => rfl⟩

theorem offBytes_bindWait (k : Fin 8) : OffBytes fun s => (s.sk k).bindWait :=
  ⟨fun _ _ _ => rfl, fun _ _ _ => setSk_view Skein.bindWait (by rfl) k, fun _ _ => rfl⟩

section
variable {α : Type} {f : State → α} (hf : OffBytes f) (s : State)
include hf

theorem writeChecked_keeps (a : Nat) (bs : List Byte) : f (writeChecked s a bs).1 = f s := by
  unfold writeChecked
  split
  · rfl
  · exact (writePhys_keeps hf _ a bs).trans (hf.mem s _)

theorem writeSegs_keeps (segs : List Seg) (a : Nat) (bs : List Byte) : f (writeSegs s segs a bs).1 = f s :=
  List.foldlRecOn (motive := fun r : State × Bool => f r.1 = f s) _ _ rfl
    fun _ hr _ _ => (writeChecked_keeps hf _ _ _).trans hr

theorem applyWrites_keeps (segs : List Seg) (ws : List (Nat × List Byte)) : f (applyWrites s segs ws).1 = f s :=
  List.foldlRecOn (motive := fun r : State × Bool => f r.1 = f s) _ _ rfl
    fun _ hr _ _ => (writeSegs_keeps hf _ _ _ _).trans hr

theorem distWrites_keeps (segs : List Seg) (ws : List (Nat × List Byte)) : f (distWrites s segs ws) = f s :=
  (applyWrites_keeps hf _ _ _).trans
    (foldl_keeps f _ (fun s x => hf.offTraffic.distTouch s segs x.1 x.2.length true) ws s)

end

theorem applyWrites_stack (s : State) (segs : List Seg) (ws : List (Nat × List Byte)) :
    (applyWrites s segs ws).1.mem.stack = s.mem.stack := by
  have hbare := congrArg Mem.stack (applyWrites_bare s segs ws)
  exact hbare

/-! ## Writes do not look at the reel caches -/

/-- The state with other reel caches. -/
def State.withReel (s : State) (r : Vector Reel 8) : State := s.setMem { s.mem with reel := r }

theorem bindingsPut_reel (m : Mem) (r : Vector Reel 8) (key : Nat) (x : Byte) (bs : List Binding) :
    bindingsPut { m with reel := r } key x bs = bindingsPut m key x bs := by
  induction bs with
  | nil => rfl
  | cons b bs ih =>
    unfold bindingsPut
    rw [ih]
    rfl

section
variable (s : State) (r : Vector Reel 8)

theorem clearPoison_withReel (a n : Nat) : clearPoison (s.withReel r) a n = (clearPoison s a n).withReel r := by
  have hlands (key : Nat) : landsInCreel (s.withReel r) key = landsInCreel s key := by
    unfold landsInCreel
    simp only [State.withReel, State.setMem_mem, bindingsPut_reel]
    rfl
  unfold clearPoison
  simp only [hlands]
  rfl

theorem putByte_withReel (key : Nat) (x : Byte) : putByte (s.withReel r) key x = (putByte s key x).withReel r := by
  unfold putByte
  simp only [State.withReel, State.setMem_mem, State.setMem_sk, bindingsPut_reel]
  split <;> rfl

theorem writeByte_withReel (a : Nat) (x : Byte) : writeByte (s.withReel r) a x = (writeByte s a x).withReel r := by
  have hloc : physLoc (s.withReel r).mem a = physLoc s.mem a := rfl
  unfold writeByte
  rw [hloc]
  split
  · rfl
  · split
    · exact putByte_withReel s r _ x
    · rfl

theorem writePhys_withReel (a : Nat) (bs : List Byte) :
    writePhys (s.withReel r) a bs = (writePhys s a bs).withReel r := by
  induction bs generalizing s a with
  | nil => rfl
  | cons b bs ih => rw [writePhys, writeByte_withReel, ih, writePhys]

theorem writeChecked_withReel (a : Nat) (bs : List Byte) :
    writeChecked (s.withReel r) a bs = Prod.map (State.withReel · r) id (writeChecked s a bs) := by
  have hpart : partPoisoned (s.withReel r) a bs.length = partPoisoned s a bs.length := rfl
  unfold writeChecked
  rw [hpart, clearPoison_withReel, writePhys_withReel]
  split <;> rfl

theorem writeSegs_withReel (segs : List Seg) (a : Nat) (bs : List Byte) :
    writeSegs (s.withReel r) segs a bs = Prod.map (State.withReel · r) id (writeSegs s segs a bs) :=
  List.foldl_hom (init := (s, true)) (Prod.map (State.withReel · r) id) fun x y => by
    simp only [Prod.map_fst, Prod.map_snd, writeChecked_withReel]
    rfl

theorem applyWrites_withReel (segs : List Seg) (ws : List (Nat × List Byte)) :
    applyWrites (s.withReel r) segs ws = Prod.map (State.withReel · r) id (applyWrites s segs ws) :=
  List.foldl_hom (init := (s, true)) (Prod.map (State.withReel · r) id) fun x y => by
    simp only [Prod.map_fst, Prod.map_snd, writeSegs_withReel]
    rfl

end

/-- Lines dropped change the reel caches alone. -/
theorem dropSegs_withReel (s : State) (segs : List Seg) :
    ∃ r, dropSegs s segs = s.withReel r := by
  refine List.foldlRecOn (motive := fun t => ∃ r, t = s.withReel r) _ _ ⟨s.mem.reel, rfl⟩ fun t ht p _ => ?_
  obtain ⟨r, rfl⟩ := ht
  unfold reelDrop
  split
  · exact ⟨r, rfl⟩
  · exact ⟨_, rfl⟩

/-- What is written does not depend on the lines dropped before (09 R248). -/
theorem applyWrites_dropSegs_cells (s : State) (drop segs : List Seg) (ws : List (Nat × List Byte)) :
    (applyWrites (dropSegs s drop) segs ws).1.mem.cells = (applyWrites s segs ws).1.mem.cells := by
  obtain ⟨r, hr⟩ := dropSegs_withReel s drop
  rw [hr, applyWrites_withReel]
  rfl

/-! ## The dispatch of a sweep (10 R268 to R270, R278, R279, R283) -/

/-- A sweep that a block admits bears its descriptor, its kind, its step and the block. -/
theorem sweepOf_fields {s : State} {q : Fin 4096} {d : Desc} {b : List Byte} {bsegs : List Seg} {kind : SweepKind}
    {w : Sweep} (h : sweepOf s q d b bsegs kind = some w) :
    w.queue = q ∧ w.seq = d.seq ∧ w.kind = kind ∧ w.block = b ∧ w.step.toNat = fieldAt d.raw 0x18 0 31 := by
  unfold sweepOf at h
  dsimp only at h
  split at h
  · obtain ⟨-, hw⟩ := Option.ite_none_right_eq_some.mp h
    obtain rfl := Option.some.inj hw
    have hlt : fieldAt d.raw 0x18 0 31 < 2 ^ 32 := Nat.mod_lt _ (by norm_num)
    exact ⟨rfl, rfl, rfl, rfl, (BitVec.toNat_ofNat ..).trans (Nat.mod_eq_of_lt hlt)⟩
  · cases h

/-- The descriptor type of a sweep's command. -/
def sweepType (q : Fin 4096) (c : Instr) : Nat := if c = .digest q then 5 else 4

/-- The kind of sweep that a command admits. -/
def sweepKind (q : Fin 4096) (c : Instr) : SweepKind :=
  if c = .digest q then .digest else if c = .check q then .check else .optim

/-- Whether a command dispatches the blocks of an algorithm; a DIGEST those of any (10 R269). -/
def SweepCommand (q : Fin 4096) (c : Instr) (algo : Nat) : Prop :=
  c = .adamw q ∧ algo = 0 ∨ c = .lion q ∧ algo = 1 ∨ c = .sgdWithMomentum q ∧ algo = 2 ∨ c = .check q ∧ algo = 3 ∨
    c = .digest q

/-- Each command dispatches the sweeps of its type that are of its algorithm. -/
theorem exec_dispatchSweep {q : Fin 4096} {c : Instr} {algo : Nat} (h : SweepCommand q c algo) (s : State) :
    ∃ mine : Nat → Bool, exec c s = .next (dispatchSweep q (sweepType q c) mine s) ∧
      (sweepType q c = 4 → mine algo = true) ∧
      sweepKind q c = if sweepType q c = 5 then .digest else if algo = 3 then .check else .optim := by
  obtain ⟨rfl, rfl⟩ | ⟨rfl, rfl⟩ | ⟨rfl, rfl⟩ | ⟨rfl, rfl⟩ | rfl := h
  · exact ⟨_, rfl, fun _ => rfl, rfl⟩
  · exact ⟨_, rfl, fun _ => rfl, rfl⟩
  · exact ⟨_, rfl, fun _ => rfl, rfl⟩
  · have hne : Instr.check q ≠ .digest q := nofun
    exact ⟨(· == 3), by rw [sweepType, if_neg hne]; rfl, fun _ => rfl, by simp [sweepKind, sweepType, hne]⟩
  · exact ⟨fun _ => true, by rw [sweepType, if_pos rfl]; rfl, fun _ => rfl, by simp [sweepKind, sweepType]⟩

/-- A block that passes its checks admits its sweep. -/
theorem dispatchSweep_admits {q : Fin 4096} {type : Nat} {mine : Nat → Bool} {s : State} {d : Desc} {bsegs : List Seg}
    {kind : SweepKind} {w : Sweep} (hd : mayDispatch s q type = some d) (hclean : hdrClean d.raw = true)
    (hncont : hdrNcont d.raw = 0)
    (hzeros : zeros d.raw [(0x18, 32, 63), (0x20, 0, 63), (0x28, 0, 63), (0x30, 0, 63), (0x38, 0, 63)] = true)
    (hblock : blockSegs s q d.raw false = some bsegs) (hpoison : segsPoisoned s bsegs (word64 d.raw 0x10) 640 = false) :
    let b := readSegs s bsegs (word64 d.raw 0x10) 640
    let s1 := distTouch s bsegs (word64 d.raw 0x10) 640 false
    (type = 4 → mine (blkAlgo b) = true) →
    kind = (if type = 5 then .digest else if blkAlgo b = 3 then .check else .optim) →
    blockFormOk b kind = true → (kind = .optim → (blockSegs s1 q d.raw true).isSome = true) →
    sweepOf s1 q d b bsegs kind = some w → dispatchSweep q type mine s = admitSweep s1 w := by
  intro b s1 hmine hkind hform hwrite hw
  have hmine' : ¬ (type = 4 ∧ (!mine (blkAlgo b)) = true) := by
    rintro ⟨ht, hm⟩
    simp [hmine ht] at hm
  have hwrite' : ¬ (kind = .optim ∧ (blockSegs s1 q d.raw true).isNone = true) := by
    rintro ⟨ho, hn⟩
    exact absurd hn (by rw [Option.isNone_eq_false_iff.mpr (hwrite ho)]; nofun)
  have hformed : (!hdrClean d.raw || hdrNcont d.raw != 0 ||
      !zeros d.raw [(0x18, 32, 63), (0x20, 0, 63), (0x28, 0, 63), (0x30, 0, 63), (0x38, 0, 63)]) = false := by
    rw [hclean, hncont, hzeros]
    rfl
  have hform' : ¬ (!blockFormOk b kind) = true := by rw [hform]; nofun
  unfold dispatchSweep
  rw [hd]
  dsimp only
  rw [hformed, if_neg Bool.false_ne_true, hblock]
  dsimp only
  rw [hpoison, if_neg Bool.false_ne_true, if_neg hmine', ← hkind, if_neg hform', if_neg hwrite', hw]

section
variable (s : State) (w : Sweep)

/-- The state in which the descriptor of a sweep has started and its planes have left the reel caches. -/
def sweepStarts : State := dropPlanes (startDesc (walkSegs s (queueOwner w.queue) w.allSegs) w.queue w.seq) w

theorem sweepStarts_keeps {α : Type} {f : State → α} (hf : OffWalk f) (hq : ∀ s n x, f (State.setQ s n x) = f s)
    (hp : ∀ s x, f (State.setPwr s x) = f s) : f (sweepStarts s w) = f s :=
  (hf.toOffReel.offTraffic.dropPlanes _ _).trans ((startDesc_keeps hq hp _ _ _).trans (walkSegs_keeps hf _ _ _))

theorem sweepStarts_cells : (sweepStarts s w).mem.cells = s.mem.cells :=
  sweepStarts_keeps s w offWalk_cells (fun _ _ _ => rfl) (fun _ _ => rfl)

theorem sweepStarts_sweeps : (sweepStarts s w).sweeps = s.sweeps :=
  sweepStarts_keeps s w offWalk_sweeps (fun _ _ _ => rfl) (fun _ _ => rfl)

end

/-- A state with one sweep more. -/
def State.addSweep (s : State) (w : Sweep) : State := { s with sweeps := s.sweeps ++ [w] }

section
variable {s : State} {w : Sweep}

/-- A CHECK or DIGEST is admitted as its block gives it. -/
theorem admitSweep_readOnly (h : w.kind ≠ .optim) : admitSweep s w = (sweepStarts s w).addSweep w := by
  unfold admitSweep
  split
  · contradiction
  · rfl

variable (hkind : w.kind = .optim)
  (hpoison : segsPoisoned s w.decSegs (blkDecision w.block) (8 + (blkBuckets w.block + 7) / 8) = false)
include hkind hpoison

/-- An OPTIM is admitted under the decision of its own step (10 R279). -/
theorem admitSweep_decided :
    let dec := readSegs s w.decSegs (blkDecision w.block) (8 + (blkBuckets w.block + 7) / 8)
    fieldAt dec 0 32 63 = w.step.toNat → ∃ s' : State, admitSweep s w = s'.addSweep { w with
        skip := fieldAt dec 0 0 0 == 1, map := dec.drop 8
        flags := if fieldAt dec 0 0 0 = 1 then {} else (sweepPre w.block).flags } ∧
      s'.mem.cells = s.mem.cells ∧ s'.sweeps = s.sweeps := by
  intro dec hstep
  refine ⟨sweepStarts (distTouch s w.decSegs (blkDecision w.block) (8 + (blkBuckets w.block + 7) / 8) false) w, ?_, ?_, ?_⟩
  · have hno : (if (fieldAt dec 0 0 0 == 1) = true then noFlags else (sweepPre w.block).flags) =
        if fieldAt dec 0 0 0 = 1 then {} else (sweepPre w.block).flags := by
      simp only [beq_iff_eq]
      rfl
    unfold admitSweep
    simp only [hkind, hpoison, Bool.false_eq_true, if_false]
    rw [if_neg (not_not_intro hstep), ← hno]
    rfl
  · rw [sweepStarts_cells, distTouch_cells]
  · rw [sweepStarts_sweeps, distTouch_sweeps]

/-- A decision of another step is stale (10 R279). -/
theorem admitSweep_stale :
    fieldAt (readSegs s w.decSegs (blkDecision w.block) (8 + (blkBuckets w.block + 7) / 8)) 0 32 63 ≠ w.step.toNat →
    admitSweep s w = failDesc (distTouch s w.decSegs (blkDecision w.block) (8 + (blkBuckets w.block + 7) / 8) false)
      w.queue w.seq .staleGeneration := by
  intro hstep
  unfold admitSweep
  simp only [hkind, hpoison, Bool.false_eq_true, if_false]
  exact if_pos hstep

end

theorem failDesc_sweeps (s : State) (q : Fin 4096) (seq : Nat) (st : Status) : (failDesc s q seq st).sweeps = s.sweeps :=
  failDesc_keeps (f := fun s => s.sweeps) (fun _ _ _ => rfl) (fun _ _ => rfl) s q seq st

/-! ## The units of a sweep (10 R285) -/

section
variable {s : State} {w : Sweep} {g : SweepSeg} {q : Fin 4096} {k : Fin 8}

/-- The only sweep that runs is the oldest work of its queue on a stack where it has units left (01 R28). -/
theorem workOn_alone (hs : s.sweeps = [w]) (hq : w.queue = q) (hkind : w.kind = .optim) (hheld : sweepHeld s w = false)
    (hg : w.parts.find? (fun g => g.stack = k ∧ g.open_ = true) = some g) : workOn s q k = some (w, g) := by
  have hfind : w.parts.find? (fun g => g.stack = k ∧ (!g.lost) = true ∧ (w.kind ≠ .optim ∨ g.open_ = true)) =
      some g := by
    rw [← hg]
    congr 1
    funext g
    rw [decide_eq_decide]
    simp [hkind, SweepSeg.open_]
  simp only [workOn, hs, List.findSome?_cons, hq, hheld, Bool.not_false, and_self, if_true, hfind, Option.map_some]

/-- A queue that competes with no other has its turn (12 R327). -/
theorem turnOf_alone (s : State) (last : Vector (Fin 4096) 8) (q : Fin 4096) : turnOf s last [q] = some q := by
  have hleast : leastQ [q] = some q := by simp [leastQ]
  have htop : [q].filter (fun x => [q].all fun o => decide ((classOf s o).val ≤ (classOf s x).val)) = [q] := by simp
  unfold turnOf
  dsimp only
  rw [htop, hleast, List.filter_singleton]
  cases decide ((last.get (classOf s q)).val < q.val)
  · rfl
  · rw [cond_true, hleast]
    rfl

theorem distaffTurn_alone (hs : s.sweeps = [w]) (hq : w.queue = q) (hkind : w.kind = .optim)
    (hwork : workOn s q k = some (w, g)) : distaffTurn s q k = true := by
  have hqueues : unitQueues s k = [q] := by simp [unitQueues, hs, hq, hwork, hkind]
  rw [distaffTurn, hqueues, turnOf_alone, beq_self_eq_true]

/-- A stack's distaffs take the next unit of the only sweep that runs. -/
theorem doSweepUnitDone_alone (hs : s.sweeps = [w]) (hq : w.queue = q) (hkind : w.kind = .optim)
    (hheld : sweepHeld s w = false) (hg : w.parts.find? (fun g => g.stack = k ∧ g.open_ = true) = some g)
    (hruns : distaffRuns s k = true) : doSweepUnitDone q k s = runUnit (serveDistaff s q k) w g := by
  have hwork := workOn_alone hs hq hkind hheld hg
  simp only [doSweepUnitDone, hwork, hkind, hruns, distaffTurn_alone hs hq hkind hwork, and_self, if_true]

theorem serveDistaff_units (s : State) (q : Fin 4096) (k : Fin 8) :
    ((serveDistaff s q k).mem.stack.get k).units = (s.mem.stack.get k).units := by
  simp [serveDistaff]

end

/-- Elements of the next unit of a segment. -/
def unitSize (g : SweepSeg) : Nat := min 1024 (g.count - g.done * 1024)

/-- The state in which the next unit of a segment has read its bucket entries. -/
def unitTouched (s : State) (w : Sweep) (g : SweepSeg) : State :=
  let e := unitEntries w g (g.done * 1024) (unitSize g)
  distTouch s w.tabSegs e.1 e.2 false

/-- What the next unit of a segment writes. -/
def unitBytes (s : State) (w : Sweep) (g : SweepSeg) : List (Nat × List Byte) :=
  let es := (List.range (unitSize g)).map fun i => elemWrites s w g (g.done * 1024 + i)
  unitWrites w g (g.done * 1024) (unitSize g) (es.flatMap (·.1))

/-- The state in which the next unit of a segment has written its elements. -/
def unitWritten (s : State) (w : Sweep) (g : SweepSeg) : State :=
  let t := unitTouched s w g
  (applyWrites (dropSegs t g.segs) g.segs (unitBytes t w g)).1

/-- A unit counted at a stack's distaffs; a redo record it had to re-apply is done with. -/
def State.countUnit (s : State) (k : Fin 8) : State :=
  let x := s.mem.stack.get k
  s.setMem { s.mem with stack := upd s.mem.stack k { x with units := x.units + 1, distRedo := false } }

section
variable (s : State) (k : Fin 8)

theorem State.countUnit_cells : (s.countUnit k).mem.cells = s.mem.cells := rfl

theorem State.countUnit_sweeps : (s.countUnit k).sweeps = s.sweeps := rfl

theorem State.countUnit_distRedo : ((s.countUnit k).mem.stack.get k).distRedo = false :=
  congrArg Stack.distRedo (get_upd_same ..)

theorem State.countUnit_units : ((s.countUnit k).mem.stack.get k).units = (s.mem.stack.get k).units + 1 :=
  congrArg Stack.units (get_upd_same ..)

theorem setSweep_mem (w w' : Sweep) : (setSweep s w w').mem = s.mem := rfl

end

section
variable (s : State) (w : Sweep) (g : SweepSeg)

theorem unitWritten_cells : (unitWritten s w g).mem.cells =
    (applyWrites (unitTouched s w g) g.segs (unitBytes (unitTouched s w g) w g)).1.mem.cells := by
  rw [unitWritten, applyWrites_dropSegs_cells]

theorem unitWritten_stack : (unitWritten s w g).mem.stack = s.mem.stack :=
  calc (unitWritten s w g).mem.stack
    _ = (dropSegs (unitTouched s w g) g.segs).mem.stack := applyWrites_stack _ g.segs (unitBytes (unitTouched s w g) w g)
    _ = (unitTouched s w g).mem.stack := offReel_stack.offTraffic.dropSegs _ g.segs
    _ = s.mem.stack := offReel_stack.offTraffic.distTouch s w.tabSegs _ _ false

theorem unitWritten_sweeps : (unitWritten s w g).sweeps = s.sweeps :=
  calc (unitWritten s w g).sweeps
    _ = (dropSegs (unitTouched s w g) g.segs).sweeps :=
      applyWrites_keeps offBytes_sweeps _ g.segs (unitBytes (unitTouched s w g) w g)
    _ = (unitTouched s w g).sweeps := offBytes_sweeps.offTraffic.dropSegs _ g.segs
    _ = s.sweeps := distTouch_sweeps s w.tabSegs _ _ false

end

section
variable {s : State} {w : Sweep} {g : SweepSeg}
  (hmapped : segsMapped s (g.segs ++ if w.skip then [] else w.tabSegs) = true)
  (hpoison : unitPoison (unitTouched s w g) w g (g.done * 1024) (unitSize g) = none)
  (hpart : ∀ x ∈ unitBytes (unitTouched s w g) w g, firstPart (unitTouched s w g) g.segs x.1 x.2.length = none)
include hmapped hpoison hpart

/-- A unit over mapped ranges that meets no poison writes its elements and is counted. -/
theorem runUnit_counts : ∃ fl, runUnit s w g = setSweep ((unitWritten s w g).countUnit g.stack) w
    { w.setPart g { g with done := g.done + 1 } with flags := fl } := by
  have hnone : (unitBytes (unitTouched s w g) w g).findSome?
      (fun x => firstPart (unitTouched s w g) g.segs x.1 x.2.length) = none := List.findSome?_eq_none_iff.mpr hpart
  simp only [unitBytes, unitTouched, unitSize] at hpoison hnone
  unfold runUnit
  dsimp only
  rw [hmapped, Bool.not_true, if_neg Bool.false_ne_true, hpoison, hnone]
  simp only [unitWritten, unitBytes, unitTouched, unitSize, dropSegs, State.countUnit]
  exact ⟨_, rfl⟩

/-- What a unit leaves: its bytes in memory, its count, and its segment one unit further. -/
theorem runUnit_leaves (hs : s.sweeps = [w]) :
    (runUnit s w g).mem.cells = (applyWrites (unitTouched s w g) g.segs (unitBytes (unitTouched s w g) w g)).1.mem.cells ∧
    ((runUnit s w g).mem.stack.get g.stack).distRedo = false ∧
    ((runUnit s w g).mem.stack.get g.stack).units = (s.mem.stack.get g.stack).units + 1 ∧
    (runUnit s w g).sweeps.map (·.parts) = [w.parts.map fun x => if x = g then { g with done := g.done + 1 } else x] := by
  obtain ⟨fl, hrun⟩ := runUnit_counts hmapped hpoison hpart
  have hone : ((unitWritten s w g).countUnit g.stack).sweeps = [w] := by
    rw [State.countUnit_sweeps, unitWritten_sweeps, hs]
  rw [hrun, setSweep_mem, State.countUnit_cells, State.countUnit_distRedo, State.countUnit_units, unitWritten_cells,
    unitWritten_stack]
  exact ⟨rfl, rfl, rfl, by simp [setSweep, hone, Sweep.setPart]⟩

end

/-! ## The end of a sweep (10 R280, R285; 15 R414) -/

/-- Where the end of a sweep that no group compares writes. -/
def endSegs (w : Sweep) : List Seg :=
  match w.kind with
  | .optim => w.tabSegs ++ w.blockSeg
  | .check => w.tabSegs ++ w.resSegs ++ w.decSegs
  | .digest => w.resSegs

/-- What it writes, for a block at `base`. -/
def endBytes (s : State) (w : Sweep) (base : Nat) : List (Nat × List Byte) :=
  match w.kind with
  | .optim => joinWrites (endWrites s w) ++ blockWrites w base
  | .check => checkWrites s w ++
      [(blkDecision w.block, decisionBytes w.step.toNat (!(marked s w).isEmpty) (overflowMap s w))]
  | .digest => digestWrites s w

/-- The flags that its descriptor ends with. -/
def endFlags (s : State) (w : Sweep) : Flags :=
  match w.kind with
  | .optim => w.flags
  | .check => (sumSquares s w).2
  | .digest => {}

/-- A sweep that has ended is gone, and the BINDs that wait go on. -/
def sweepGone (s : State) (w : Sweep) : State := bindRetryAll { s with sweeps := s.sweeps.filter fun x => x != w }

theorem sweepGone_alone {s : State} {w : Sweep} (hs : s.sweeps = [w]) (hwait : ∀ i, (s.sk i).bindWait = []) :
    sweepGone s w = { s with sweeps := [] } := by
  have hnone : s.sweeps.filter (fun x => x != w) = [] := by simp [hs]
  rw [sweepGone, hnone]
  exact bindRetryAll_idle hwait

section
variable {s : State} {w : Sweep} {q : Fin 4096} (hs : s.sweeps = [w]) (hq : w.queue = q) (hheld : sweepHeld s w = false)
  (hruns : w.parts.any (fun g => !g.lost && !distaffRuns s g.stack) = false)
  (hbad : w.bad = false) (hmapped : segsMapped s w.allSegs = true)
include hs hq hheld hruns hbad hmapped

/-- The end of an OPTIM sweep whose bucket table is sound (10 R280, R285). -/
theorem doSweepComplete_optim (hdone : w.parts.any SweepSeg.open_ = false) (hkind : w.kind = .optim) {d : Desc}
    (hd : descOf s q w.seq = some d) :
    let s0 := dropPlanes s w
    firstPoison s0 w.tabSegs (blkBtab w.block) (8 * blkBuckets w.block) = none →
    doSweepComplete q s = sweepGone (writeAndEnd s0 w (w.tabSegs ++ w.blockSeg)
      (joinWrites (endWrites s0 w) ++ blockWrites w (word64 d.raw 0x10)) w.flags) w := by
  intro s0 hpoison
  have hd0 : descOf s0 q w.seq = some d :=
    (descOf_congr (offBytes_queues.offTraffic.dropPlanes s w) q w.seq).trans hd
  simp only [doSweepComplete, sweepFor, hs, hq, hheld, hruns, hdone, hbad, hmapped, hkind, hd0, hpoison, s0,
    List.find?_cons_of_pos, decide_true, Bool.not_true, Bool.false_eq_true, and_false, if_false]
  rfl

/-- The end of a CHECK that has met no poison (10 R278). -/
theorem doSweepComplete_check (hkind : w.kind = .check) (hpoison : sweepPoison (dropPlanes s w) w = none) :
    doSweepComplete q s = sweepGone (endCheck (dropPlanes s w) w) w := by
  simp [doSweepComplete, sweepFor, hs, hq, hheld, hruns, hbad, hmapped, hkind, hpoison, sweepGone]

/-- The end of a DIGEST that has met no poison (10 R283). -/
theorem doSweepComplete_digest (hkind : w.kind = .digest) (hpoison : sweepPoison (dropPlanes s w) w = none) :
    doSweepComplete q s = sweepGone (endDigest (dropPlanes s w) w) w := by
  simp [doSweepComplete, sweepFor, hs, hq, hheld, hruns, hbad, hmapped, hkind, hpoison, sweepGone]

/-- A sweep that no group compares and that meets no poison goes on to write and to end. -/
theorem doSweepComplete_writes (hdone : w.parts.any SweepSeg.open_ = false) {d : Desc} (hd : descOf s q w.seq = some d) :
    let s0 := dropPlanes s w
    (w.kind ≠ .optim → sweepPoison s0 w = none ∧ stepSlot s0 = none) →
    (w.kind = .optim → firstPoison s0 w.tabSegs (blkBtab w.block) (8 * blkBuckets w.block) = none) →
    doSweepComplete q s =
      sweepGone (writeAndEnd s0 w (endSegs w) (endBytes s0 w (word64 d.raw 0x10)) (endFlags s0 w)) w := by
  intro s0 hread htab
  cases hkind : w.kind with
  | optim =>
    rw [doSweepComplete_optim hs hq hheld hruns hbad hmapped hdone hkind hd (htab hkind)]
    simp only [endSegs, endBytes, endFlags, hkind, s0]
  | check =>
    obtain ⟨hpoison, hslot⟩ := hread (by rw [hkind]; nofun)
    rw [doSweepComplete_check hs hq hheld hruns hbad hmapped hkind hpoison]
    simp only [endCheck, hslot, endSegs, endBytes, endFlags, hkind, s0]
  | digest =>
    obtain ⟨hpoison, hslot⟩ := hread (by rw [hkind]; nofun)
    rw [doSweepComplete_digest hs hq hheld hruns hbad hmapped hkind hpoison]
    simp only [endDigest, hslot, endSegs, endBytes, endFlags, hkind, s0]
    rfl

end

/-- Writes that meet no poison are made, and the descriptor ends with OK (10 R285). -/
theorem writeAndEnd_ok {s : State} {w : Sweep} {segs : List Seg} {ws : List (Nat × List Byte)}
    (h : ∀ x ∈ ws, firstPart s segs x.1 x.2.length = none) (fl : Flags) :
    writeAndEnd s w segs ws fl = finish (distWrites s segs ws) w.queue w.seq .ok fl 0 0 0 := by
  rw [writeAndEnd, List.findSome?_eq_none_iff.mpr h]

/-- The end of the only sweep leaves no sweep, its writes in memory and its descriptor finished. -/
theorem sweepGone_finish {s : State} {w : Sweep} (segs : List Seg) (ws : List (Nat × List Byte)) (fl : Flags)
    (hs : s.sweeps = [w]) (hwait : ∀ i, (s.sk i).bindWait = [])
    (hrun : (descOf s w.queue w.seq).map (·.st) = some .running) :
    let t := sweepGone (finish (distWrites s segs ws) w.queue w.seq .ok fl 0 0 0) w
    t.sweeps = [] ∧ t.mem.cells = (distWrites s segs ws).mem.cells ∧
      (descOf t w.queue w.seq).map (·.st) = some (.finished .ok fl 0 0 0) := by
  have hrun' : (descOf (distWrites s segs ws) w.queue w.seq).map (·.st) = some .running := by
    rw [descOf_congr (distWrites_keeps offBytes_queues s segs ws), hrun]
  intro t
  have ht : t = _ := sweepGone_alone (s := finish (distWrites s segs ws) w.queue w.seq .ok fl 0 0 0)
    ((distWrites_keeps offBytes_sweeps s segs ws).trans hs)
    fun i => (distWrites_keeps (offBytes_bindWait i) s segs ws).trans (hwait i)
  rw [ht]
  exact ⟨rfl, rfl, finish_finishes hrun' .ok fl 0 0 0⟩

/-- A state in which a group compares a DIGEST, and with it the first one since an adoption (15 R414). -/
def State.comparing (s : State) (j : Fin 8) (o : GOp) : State :=
  let t := s.setSlot j { s.slot j with freshDigest := false }
  { t with ply := { t.ply with ops := t.ply.ops ++ [o] } }

section
variable {s t : State} (h : t.ply = s.ply)
include h

theorem slot_congr (j : Fin 8) : t.slot j = s.slot j := by rw [State.slot, h, State.slot]

theorem stepSlot_congr : stepSlot t = stepSlot s := by simp only [stepSlot, slot_congr h]

theorem digestCompared_congr (j : Fin 8) (step : Nat) : digestCompared t j step = digestCompared s j step := by
  simp only [digestCompared, slot_congr h]

end

/-- A DIGEST that its group compares waits there with what it will write (15 R414; log 95). -/
theorem endDigest_compared {s : State} {w : Sweep} {j : Fin 8} (hslot : stepSlot s = some j)
    (hcomp : digestCompared s j w.step.toNat = true) (hshort : (s.slot j).short = false) :
    ∃ o, endDigest s w = s.comparing j o ∧ o.slot = j ∧ o.kind = .digest ∧ o.queue = w.queue ∧
      o.seq = w.seq ∧ o.value = digestWrites s w := by
  simp only [endDigest, hslot, hcomp, hshort, Bool.not_true, Bool.false_eq_true, if_false]
  exact ⟨_, rfl, rfl, rfl, rfl, rfl, rfl⟩

/-! ## A distaff that takes its sweeps up again (10 R285, R288) -/

/-- The segments that a stack still has, each with the kind of its sweep. -/
def segmentsOn (s : State) (k : Fin 8) : List (SweepKind × SweepSeg) :=
  s.sweeps.flatMap fun w => (w.parts.filter fun g => g.stack == k && !g.lost).map fun g => (w.kind, g)

theorem mem_segmentsOn {s : State} {k : Fin 8} {x : SweepKind × SweepSeg} :
    x ∈ segmentsOn s k ↔ ∃ w ∈ s.sweeps, ∃ g ∈ w.parts, (g.stack = k ∧ g.lost = false) ∧ (w.kind, g) = x := by
  simp [segmentsOn, and_assoc]

/-- A distaff whose ranges the migration has passed waits no more; where units are left it re-applies the redo record. -/
theorem doSweepRecovery_resumes {s : State} {k : Fin 8} (hwait : (s.mem.stack.get k).distWait = true)
    (hpassed : ∀ w ∈ s.sweeps, ∀ g ∈ w.parts, g.stack = k → g.lost = false → migPassed s g.segs = true) :
    let t := doSweepRecovery k s
    (t.mem.stack.get k).distWait = false ∧ t.sweeps = s.sweeps ∧
      ((t.mem.stack.get k).distRedo = true ↔
        ∃ w ∈ s.sweeps, w.kind = .optim ∧ ∃ g ∈ w.parts, g.stack = k ∧ g.open_ = true) := by
  have hall : (segmentsOn s k).all (fun x => migPassed s x.2.segs) = true := by
    refine List.all_eq_true.mpr fun x hx => ?_
    obtain ⟨w, hw, g, hg, ⟨hk, hlost⟩, rfl⟩ := mem_segmentsOn.mp hx
    exact hpassed w hw g hg hk hlost
  have hopen : (segmentsOn s k).any (fun x => x.1 == .optim && x.2.open_) = true ↔
      ∃ w ∈ s.sweeps, w.kind = .optim ∧ ∃ g ∈ w.parts, g.stack = k ∧ g.open_ = true := by
    simp only [List.any_eq_true, Bool.and_eq_true, beq_iff_eq]
    constructor
    · rintro ⟨x, hx, hkind, hopen⟩
      obtain ⟨w, hw, g, hg, ⟨hk, -⟩, rfl⟩ := mem_segmentsOn.mp hx
      exact ⟨w, hw, hkind, g, hg, hk, hopen⟩
    · rintro ⟨w, hw, hkind, g, hg, hk, hopen⟩
      have hlost : g.lost = false := by
        simp only [SweepSeg.open_, Bool.and_eq_true, Bool.not_eq_true'] at hopen
        exact hopen.1
      exact ⟨(w.kind, g), mem_segmentsOn.mpr ⟨w, hw, g, hg, ⟨hk, hlost⟩, rfl⟩, hkind, hopen⟩
  intro t
  have ht : t = _ := if_pos ⟨hwait, hall⟩
  rw [ht]
  exact ⟨congrArg Stack.distWait (get_upd_same ..), rfl,
    (Bool.eq_iff_iff.mp (congrArg Stack.distRedo (get_upd_same ..))).trans hopen⟩

/-! ## The statement -/

/-- Settles O32: the dispatch ends in `admitSweep`, a unit in the writes of its elements, the end of a sweep in its own
writes or with its group; none of them but the writes reaches the bytes of memory. -/
theorem sweeps : Obligations.Sweeps := by
  refine ⟨?dispatch, fun q k s => ⟨?unit, ?complete, ?compared, ?recovery⟩⟩
  case dispatch =>
    intro q d bsegs w c s ty b hc kind s1 hd hclean hncont hzeros hblock hpoison hform hwrite hw
    obtain ⟨mine, hexec, hmine, hkind⟩ := exec_dispatchSweep hc s
    obtain ⟨hqueue, hseq, hwkind, hwblock, hstep⟩ := sweepOf_fields hw
    have hadmit : exec c s = .next (admitSweep s1 w) := hexec.trans (congrArg Host.Outcome.next
      (dispatchSweep_admits hd hclean hncont hzeros hblock hpoison hmine hkind hform hwrite hw))
    have hsweeps1 : s1.sweeps = s.sweeps := distTouch_sweeps ..
    have hcells1 : s1.mem.cells = s.mem.cells := distTouch_cells ..
    refine ⟨fun hread => ⟨_, hadmit, ?readOnly⟩, fun hoptim hsound =>
      ⟨fun hmatch => ⟨_, hadmit, ?decided⟩, fun hother => ⟨_, hadmit, ?stale⟩⟩⟩
    case readOnly =>
      rw [admitSweep_readOnly (by rwa [hwkind])]
      exact ⟨congrArg (· ++ [w]) ((sweepStarts_sweeps s1 w).trans hsweeps1), (sweepStarts_cells s1 w).trans hcells1⟩
    case decided =>
      obtain ⟨s', hadds, hcells, hsweeps⟩ := admitSweep_decided (s := s1) (w := w) (hwkind.trans hoptim)
        (by rwa [hwblock]) (by rw [hwblock, hstep]; exact hmatch)
      rw [hadds, ← hwblock]
      exact ⟨hcells.trans hcells1, congrArg (· ++ [_]) (hsweeps.trans hsweeps1)⟩
    case stale =>
      obtain ⟨e, he⟩ := descOf_of_mem (mem_of_mayDispatch hd)
      rw [admitSweep_stale (hwkind.trans hoptim) (by rwa [hwblock]) (by rw [hwblock, hstep]; exact hother), hqueue, hseq,
        failDesc_sweeps, failDesc_mem, distTouch_sweeps, distTouch_cells]
      refine ⟨hsweeps1, hcells1, failDesc_finishes ((descOf_congr ?_ q d.seq).trans he) .staleGeneration⟩
      rw [distTouch_queues, distTouch_queues]
  case unit =>
    intro w g hs hq hkind hheld hg hruns n e s0 es ws hmapped hpoison hpart
    obtain ⟨hstack, -⟩ : g.stack = k ∧ g.open_ = true := by simpa using List.find?_some hg
    have hunit := doSweepUnitDone_alone hs hq hkind hheld hg hruns
    obtain ⟨hcells, hredo, hcount, hparts⟩ := runUnit_leaves (s := serveDistaff s q k) hmapped hpoison hpart hs
    rw [hstack, serveDistaff_units] at hcount
    rw [hstack] at hredo
    refine ⟨_, congrArg Host.Outcome.next hunit, fun x => ?_, hredo, hcount, hparts⟩
    rw [hcells]
    rfl
  case complete =>
    intro w d hs hq hheld hd hrun hruns hdone hbad hwait hmapped s0 segs ws fl hread htab hpart
    have hends := doSweepComplete_writes hs hq hheld hruns hbad hmapped hdone hd hread htab
    rw [writeAndEnd_ok (segs := endSegs w) (ws := endBytes s0 w (word64 d.raw 0x10)) hpart] at hends
    subst hq
    obtain ⟨hsweeps, hcells, hfin⟩ := sweepGone_finish (s := s0) (endSegs w) (endBytes s0 w (word64 d.raw 0x10))
      (endFlags s0 w) ((offBytes_sweeps.offTraffic.dropPlanes s w).trans hs)
      (fun i => ((offBytes_bindWait i).offTraffic.dropPlanes s w).trans (hwait i))
      (by rw [descOf_congr (offBytes_queues.offTraffic.dropPlanes s w), hd, Option.map_some, hrun])
    exact ⟨_, congrArg Host.Outcome.next hends, hsweeps, fun x => by rw [hcells]; rfl, hfin⟩
  case compared =>
    intro w j hs hq hheld hkind hbad hruns hwait hmapped hpoison hslot hcomp hshort
    have hends := doSweepComplete_digest hs hq hheld hruns hbad hmapped hkind hpoison
    have hply : (dropPlanes s w).ply = s.ply := offBytes_ply.offTraffic.dropPlanes s w
    obtain ⟨o, hwaits, hof, hokind, hoq, hoseq, hovalue⟩ := endDigest_compared (s := dropPlanes s w) (w := w)
      ((stepSlot_congr hply).trans hslot) ((digestCompared_congr hply j _).trans hcomp) (by rwa [slot_congr hply])
    rw [hwaits, sweepGone_alone (s := (dropPlanes s w).comparing j o) ((offBytes_sweeps.offTraffic.dropPlanes s w).trans hs)
      fun i => ((offBytes_bindWait i).offTraffic.dropPlanes s w).trans (hwait i)] at hends
    refine ⟨_, o, congrArg Host.Outcome.next hends, rfl, offWalk_cells.toOffReel.offTraffic.dropPlanes s w, ?_, hof,
      hokind, hoq.trans hq, hoseq, hovalue, congrArg Ply.freshDigest (get_upd_same ..)⟩
    rw [← hply]
    rfl
  case recovery =>
    intro hwait hpassed
    exact ⟨_, rfl, doSweepRecovery_resumes hwait hpassed⟩

end Sys2Proof.Machine
end

section
/-!
PROOFS. The ends of shares and of kernels (06 R167; 11 R303): a share halted in place that switches out, the report of a share
to its kernel, and the end of a kernel whose shares all end OK. From these the statement O23.
-/

namespace Sys2Proof.Machine

/-! ## A share halted in place (11 R303) -/

/-- A share whose fault is already recorded switches out once a save image is free. -/
theorem doSaveImageFreed_switches {s : State} {p : Fin 136} {sh : Share} {tr : Trap} (hsh : (s.sp p).share = some sh)
    (hph : sh.phase = .noImage tr true) (hdrained : sh.drained = false) (hserv : s.serving = true)
    (hroom : s.trans.images.length < 256) : doSaveImageFreed p s = switchOut s p sh := by
  have hpage : pageOut s p sh tr true = switchOut s p sh := by simp [pageOut, hroom]
  simp [doSaveImageFreed, hsh, hph, hdrained, hserv, Nat.not_le.mpr hroom, hpage]

/-! ## A kernel and the report of a share -/

/-- A kernel changed under its number. -/
theorem kernelOf_setKernel {s : State} {q : Fin 4096} {seq : Nat} {f : Kernel → Kernel}
    (hf : ∀ k, (f k).queue = k.queue ∧ (f k).seq = k.seq) :
    kernelOf (setKernel s q seq f) q seq = (kernelOf s q seq).map f := by
  have hid (k : Kernel) : (if k.queue = q ∧ k.seq = seq then f k else k).queue = k.queue ∧
      (if k.queue = q ∧ k.seq = seq then f k else k).seq = k.seq := by
    split
    · exact hf k
    · exact ⟨rfl, rfl⟩
  simp only [kernelOf, setKernel, List.find?_map, Function.comp_def, hid]
  cases hk : s.kernels.find? fun k => k.queue = q ∧ k.seq = seq with
  | none => rfl
  | some k =>
    have : k.queue = q ∧ k.seq = seq := by simpa using List.find?_some hk
    simp [this]

/-- A state without a kernel that has completed. -/
def State.dropKernel (s : State) (q : Fin 4096) (seq : Nat) : State :=
  { s with kernels := s.kernels.filter fun j => !(j.queue == q && j.seq == seq) }

theorem kernelOf_dropKernel (s : State) (q : Fin 4096) (seq : Nat) : kernelOf (s.dropKernel q seq) q seq = none := by
  refine List.find?_eq_none.mpr fun k hk => ?_
  simpa [State.dropKernel, imp_iff_not_or] using (List.mem_filter.mp hk).2

/-- The trace of a kernel is the profiler's alone (16 R451). -/
theorem traceKernel_keeps {α : Type} {f : State → α} (hsec : ∀ s x, f (State.setSec s x) = f s) (s : State) (q : Fin 4096)
    (seq : Nat) : f (traceKernel s q seq) = f s := by
  unfold traceKernel
  split
  · split
    · exact hsec _ _
    · rfl
  · rfl

/-- The reported share is one that did not end OK, so a kernel whose shares all ended OK has none. -/
theorem worstShare_ok {k : Kernel} (h : ∀ e ∈ k.ended, e.2.2.1 = .ok) : worstShare k = none := by
  refine List.findSome?_eq_none_iff.mpr fun i _ => List.find?_eq_none.mpr fun e he => ?_
  simp [h e he]

theorem settleKernel_open {s : State} {q : Fin 4096} {seq : Nat} {k : Kernel} (hk : kernelOf s q seq = some k)
    (h : k.ended.length < k.count) : settleKernel s q seq = s := by
  simp [settleKernel, hk, h]

/-- The flags of a kernel: those of all its shares. -/
def Kernel.endFlags (k : Kernel) : Flags := orFlags (k.ended.map fun e => e.2.2.2.2)

theorem settleKernel_ok {s : State} {q : Fin 4096} {seq : Nat} {k : Kernel} (hk : kernelOf s q seq = some k)
    (h : k.ended.length = k.count) (hok : ∀ e ∈ k.ended, e.2.2.1 = .ok) :
    settleKernel s q seq = finish (traceKernel (s.dropKernel q seq) q seq) q seq .ok k.endFlags 0 0 0xFFFF := by
  simp [settleKernel, hk, h, worstShare_ok hok, Kernel.endFlags, State.dropKernel]

/-- What the settling of a kernel can change: the kernels, the profiler's trace and the queues. -/
theorem settleKernel_keeps {α : Type} {f : State → α} (hker : ∀ (s : State) ks, f { s with kernels := ks } = f s)
    (hsec : ∀ s x, f (State.setSec s x) = f s) (hq : ∀ s n x, f (State.setQ s n x) = f s) (s : State) (q : Fin 4096)
    (seq : Nat) : f (settleKernel s q seq) = f s := by
  have hdone (st : Status) (fl : Flags) (code detail value : Nat) :
      f (finish (traceKernel (s.dropKernel q seq) q seq) q seq st fl code detail value) = f s :=
    (hq _ _ _).trans ((traceKernel_keeps hsec _ _ _).trans (hker _ _))
  unfold settleKernel
  split
  · rfl
  · split
    · rfl
    · dsimp only
      split
      · exact hdone ..
      · exact hdone ..

theorem reportShare_keeps {α : Type} {f : State → α} (hker : ∀ (s : State) ks, f { s with kernels := ks } = f s)
    (hsec : ∀ s x, f (State.setSec s x) = f s) (hq : ∀ s n x, f (State.setQ s n x) = f s) (s : State) (sh : Share)
    (st : Status) (cause : Word) (fl : Flags) : f (reportShare s sh st cause fl) = f s :=
  (settleKernel_keeps hker hsec hq _ _ _).trans (hker _ _)

/-- A kernel to which a share has been reported that ended OK. -/
def Kernel.withOk (k : Kernel) (sh : Share) (x : Spindle) : Kernel :=
  { k with ended := k.ended ++ [(sh.index, sh.logical, .ok, x.cause, x.flags.or sh.moveFlags)] }

/-- The state in which the report has reached the kernel and the kernel is not settled. -/
def State.okReported (s : State) (sh : Share) (x : Spindle) : State :=
  setKernel s sh.queue sh.seq fun k => k.withOk sh x

theorem kernelOf_okReported {s : State} {sh : Share} {k : Kernel} (x : Spindle)
    (hk : kernelOf s sh.queue sh.seq = some k) :
    kernelOf (s.okReported sh x) sh.queue sh.seq = some (k.withOk sh x) := by
  rw [State.okReported, kernelOf_setKernel (f := fun k => k.withOk sh x) fun _ => ⟨rfl, rfl⟩, hk, Option.map_some]

section
variable {s : State} {sh : Share} {k : Kernel} {d : Desc} (x : Spindle) (hmove : sh.moveFaulted = false)
  (hk : kernelOf s sh.queue sh.seq = some k)
include hmove

theorem reportShare_ok : reportShare s sh .ok x.cause x.flags =
    settleKernel (s.okReported sh x) sh.queue sh.seq := by
  simp [reportShare, hmove, State.okReported, Kernel.withOk]

include hk

/-- Before its last share has ended a kernel goes on (06 R167). -/
theorem reportShare_open (h : k.ended.length + 1 < k.count) :
    reportShare s sh .ok x.cause x.flags = s.okReported sh x := by
  rw [reportShare_ok x hmove, settleKernel_open (kernelOf_okReported x hk)]
  simpa [Kernel.withOk] using h

/-- With its last share a kernel whose shares all ended OK leaves, and its descriptor completes OK (06 R167). -/
theorem reportShare_last (hd : descOf s sh.queue sh.seq = some d) (hrun : d.st = .running)
    (h : k.ended.length + 1 = k.count) (hok : ∀ e ∈ k.ended, e.2.2.1 = .ok) :
    kernelOf (reportShare s sh .ok x.cause x.flags) sh.queue sh.seq = none ∧
    (descOf (reportShare s sh .ok x.cause x.flags) sh.queue sh.seq).map (·.st) =
      some (.finished .ok (k.withOk sh x).endFlags 0 0 0xFFFF) := by
  have hall : ∀ e ∈ (k.withOk sh x).ended, e.2.2.1 = .ok := by
    simp only [Kernel.withOk, List.mem_append, List.mem_singleton]
    rintro e (he | rfl)
    · exact hok e he
    · rfl
  rw [reportShare_ok x hmove, settleKernel_ok (kernelOf_okReported x hk) (by simpa [Kernel.withOk] using h) hall]
  refine ⟨?_, finish_finishes ?_ ..⟩
  · exact (traceKernel_keeps (f := fun s => kernelOf s sh.queue sh.seq) (fun _ _ => rfl) ..).trans
      (kernelOf_dropKernel ..)
  · rw [traceKernel_keeps (f := fun s => descOf s sh.queue sh.seq) fun _ _ => rfl]
    exact (congrArg _ hd).trans (congrArg some hrun)

end

/-! ## The end of a share -/

theorem doShareEnd_ending {s : State} {p : Fin 136} {sh : Share} (hsh : (s.sp p).share = some sh)
    (hph : sh.phase = .ending) (hquiet : quiet s p = true) (hserv : s.serving = true) :
    doShareEnd p s = vacate (reportShare s sh .ok (s.sp p).cause (s.sp p).flags) p := by
  simp [doShareEnd, hsh, hph, hquiet, hserv]

/-- The spindle that a share leaves, where no change of the map waits and no share has been released. -/
theorem vacate_still {s : State} {p : Fin 136} (hc : ∀ k, (s.sk k).changes = [])
    (hi : ∀ i ∈ s.trans.images, i.resume = false) :
    vacate s p = s.setSp p { s.sp p with share := none, fetched := [], counting := false } :=
  boundary_still hc hi

theorem vacate_reportShare {s : State} (p : Fin 136) (sh : Share) (hc : ∀ k, (s.sk k).changes = [])
    (hi : s.trans.images = []) (st : Status) (cause : Word) (fl : Flags) :
    let r := reportShare s sh st cause fl
    vacate r p = r.setSp p { r.sp p with share := none, fetched := [], counting := false } := by
  refine vacate_still (fun k => ?_) ?_
  · exact (reportShare_keeps (f := fun s => (s.sk k).changes) (fun _ _ => rfl) (fun _ _ => rfl) (fun _ _ _ => rfl)
      ..).trans (hc k)
  · rw [reportShare_keeps (f := fun s => s.trans.images) (fun _ _ => rfl) (fun _ _ => rfl) (fun _ _ _ => rfl), hi]
    exact fun _ h => absurd h List.not_mem_nil

/-! ## The statement -/

/-- Settles O23: the share halted in place is `switchOut_still`; the share that ends is reported to its kernel, which goes
on until its last share and then completes. -/
theorem sharesEnd : Obligations.SharesEnd := by
  unfold Obligations.SharesEnd
  refine ⟨?freed, ?ended⟩
  case freed =>
    intro p sh tr s hsh hph hdrained hserv hroom hi hc
    obtain ⟨hshare, -, -, htrans⟩ := switchOut_still (p := p) (sh := sh) hc hi
    have hout := doSaveImageFreed_switches hsh hph hdrained hserv hroom
    exact ⟨_, congrArg Host.Outcome.next hout, hshare, by rw [htrans]; rfl⟩
  case ended =>
    intro p sh k d s hsh hph hquiet hserv hmove hk hd hrun hi hc
    have hend := doShareEnd_ending hsh hph hquiet hserv
    rw [vacate_reportShare p sh hc hi] at hend
    refine ⟨_, congrArg Host.Outcome.next hend, by simp, fun hmore => ?_, fun hlast hok => ?_⟩
    · rw [reportShare_open (s.sp p) hmove hk hmore]
      exact ⟨congrArg (Option.map (·.ended)) (kernelOf_okReported (s.sp p) hk), hd⟩
    · obtain ⟨hgone, hfin⟩ := reportShare_last (s.sp p) hmove hk hd hrun hlast hok
      exact ⟨hgone, _, hfin⟩

end Sys2Proof.Machine
end

section
/-!
PROOFS. Updates of the translation tables (11 R296 to R300; 12 R331): an update that dispatches, its apply point and its
completion. From these the statement O31.
-/

namespace Sys2Proof.Machine

/-! ## The dispatch of an update (11 R297, R298) -/

theorem startDesc_trans (s : State) (q : Fin 4096) (seq : Nat) : (startDesc s q seq).trans = s.trans :=
  startDesc_keeps (f := fun s => s.trans) (fun _ _ _ => rfl) (fun _ _ => rfl) s q seq

theorem notifyUpdate_trans (s : State) (u : TUpdate) (st : Status) : (notifyUpdate s u st).trans = s.trans :=
  notify_keeps (f := fun s => s.trans) (fun _ _ _ => rfl) ..

theorem descOf_notifyUpdate (s : State) (u : TUpdate) (st : Status) (q : Fin 4096) (seq : Nat) :
    descOf (notifyUpdate s u st) q seq = descOf s q seq :=
  notify_keeps (f := fun s => descOf s q seq) (fun _ _ _ => rfl) ..

section
variable {s : State} {q : Fin 4096} {d : Desc} (hd : mayDispatch s q 9 = some d)
  (hfree : (s.trans.updates.any fun v => v.stage == (updateOf q d).stage && !v.applied) = false)
include hd hfree

/-- An update that passes its checks waits for its apply point. -/
theorem doTableUpdate_waits (hcheck : updateCheck s q d = none) : doTableUpdate q s =
    let t := startDesc s q d.seq
    t.setTrans { t.trans with updates := t.trans.updates ++ [updateOf q d] } := by
  simp [doTableUpdate, hd, hfree, hcheck]

/-- The first check that an update fails ends it, and the controller is told. -/
theorem doTableUpdate_refused {st : Status} (hcheck : updateCheck s q d = some st) : doTableUpdate q s =
    notifyUpdate (finish (startDesc s q d.seq) q d.seq st noFlags 0 0 (updateOf q d).gen) (updateOf q d) st := by
  simp [doTableUpdate, hd, hfree, hcheck]

end

/-! ## The apply point (11 R292, R296, R298 to R300) -/

/-- The evictions that an update starts change the skeins and the counts of their queues. -/
theorem evictChanged_keeps {α : Type} {f : State → α} (hsk : ∀ (s : State) v, f { s with skeins := v } = f s)
    (hq : ∀ s n x, f (State.setQ s n x) = f s) (s : State) (id : Fin 4096 × Nat) : f (evictChanged s id) = f s := by
  have hevict (k : Fin 8) (s : State) (b : Binding) : f (evict s k b [id] none) = f s :=
    (hsk _ _).trans ((hq _ _ _).trans (hsk _ _))
  exact (foldl_keeps f _ (fun s k => foldl_keeps f _ (hevict k) _ s) _ _).trans (hsk _ _)

theorem evictChanged_trans (s : State) (id : Fin 4096 × Nat) : (evictChanged s id).trans = s.trans :=
  evictChanged_keeps (f := fun s => s.trans) (fun _ _ => rfl) (fun _ _ _ => rfl) s id

theorem evictChanged_mem (s : State) (id : Fin 4096 × Nat) : (evictChanged s id).mem = s.mem :=
  evictChanged_keeps (f := fun s => s.mem) (fun _ _ => rfl) (fun _ _ _ => rfl) s id

theorem markHolders_trans (s : State) (old : Trans) (id : Fin 4096 × Nat) : (markHolders s old id).trans = s.trans := rfl

theorem markHolders_mem (s : State) (old : Trans) (id : Fin 4096 × Nat) : (markHolders s old id).mem = s.mem := rfl

theorem applyUpdate_mem (s : State) (u : TUpdate) : (applyUpdate s u).mem = s.mem := by
  unfold applyUpdate
  dsimp only
  rw [evictChanged_mem, markHolders_mem, State.setTrans_mem]

/-- The records and the generation of an update enter its own stage, whose pages alone they are applied to. -/
theorem applyUpdate_trans (s : State) (u : TUpdate) : ∃ footprint updates walker, (applyUpdate s u).trans = { s.trans with
    s1 := if u.stage = 1 then applyRecs s.trans.s1 u.recs else s.trans.s1
    s2 := if u.stage = 2 then applyRecs s.trans.s2 u.recs else s.trans.s2
    gen1 := if u.stage = 1 then BitVec.ofNat 64 u.gen else s.trans.gen1
    gen2 := if u.stage = 2 then BitVec.ofNat 64 u.gen else s.trans.gen2
    footprint, updates, walker } := by
  have hs1 : (if u.stage = 1 then applyRecs (pagesOf s u.stage) u.recs else s.trans.s1) =
      if u.stage = 1 then applyRecs s.trans.s1 u.recs else s.trans.s1 :=
    ite_congr rfl (fun h => by rw [pagesOf, if_pos h]) fun _ => rfl
  have hs2 : (if u.stage = 2 then applyRecs (pagesOf s u.stage) u.recs else s.trans.s2) =
      if u.stage = 2 then applyRecs s.trans.s2 u.recs else s.trans.s2 :=
    ite_congr rfl (fun h => by rw [pagesOf, if_neg (by omega)]) fun _ => rfl
  unfold applyUpdate
  dsimp only
  rw [evictChanged_trans, markHolders_trans, State.setTrans_trans, hs1, hs2]
  exact ⟨_, _, _, rfl⟩

theorem doTableUpdateApply_applies {s : State} {q : Fin 4096} {u : TUpdate}
    (hu : s.trans.updates.find? (fun u => u.queue = q ∧ u.applied = false) = some u) (hmay : mayApply s u = true)
    (hserv : s.serving = true) : doTableUpdateApply q s = applyUpdate s u := by
  rw [doTableUpdateApply, hu]
  simp [hmay, hserv]

/-! ## The completion (11 R297, R300) -/

/-- The state in which an update has left the list and the authorisation that it used is consumed. -/
def updateLeaves (s : State) (u : TUpdate) : State :=
  (s.setTrans { s.trans with updates := s.trans.updates.filter fun v => v != u }).setSec { s.sec with
    lodged := s.sec.lodged.filter fun l =>
      !(u.stage == 2 && l.aseq == u.auth && l.gen == u.gen && l.hash == Config.sha384 u.raw) }

theorem doTableUpdateComplete_completes {s : State} {q : Fin 4096} {u : TUpdate}
    (hu : s.trans.updates.find? (fun u => u.queue = q ∧ u.applied = true ∧ !updateHeld s (u.queue, u.seq)) = some u)
    (hserv : s.serving = true) :
    doTableUpdateComplete q s = notifyUpdate (finish (updateLeaves s u) q u.seq .ok noFlags 0 0 u.gen) u .ok := by
  rw [doTableUpdateComplete, hu]
  simp [hserv, updateLeaves]

/-! ## The statement -/

/-- Settles O31: the dispatch adds the update to those that wait or finishes its descriptor; the apply point is
`applyUpdate`; the completion takes the update off the list and finishes its descriptor. -/
theorem tableUpdates : Obligations.TableUpdates := by
  unfold Obligations.TableUpdates
  intro q s
  refine ⟨fun d hd hfree => ⟨fun hcheck => ?waits, fun st hcheck => ?refused⟩, fun u hu hmay hserv => ?apply,
    fun u hu hserv hrun => ?complete⟩
  case waits =>
    refine ⟨_, congrArg Host.Outcome.next (doTableUpdate_waits hd hfree hcheck), ?_⟩
    simp [startDesc_trans]
  case refused =>
    obtain ⟨e, he⟩ := descOf_of_mem (mem_of_mayDispatch hd)
    refine ⟨_, congrArg Host.Outcome.next (doTableUpdate_refused hd hfree hcheck), ?_, ?_⟩
    · exact (notifyUpdate_trans ..).trans (startDesc_trans ..)
    · rw [descOf_notifyUpdate]
      exact finish_finishes (startDesc_runs he) st noFlags 0 0 _
  case apply =>
    obtain ⟨footprint, updates, walker, htrans⟩ := applyUpdate_trans s u
    refine ⟨_, congrArg Host.Outcome.next (doTableUpdateApply_applies hu hmay hserv), ?_⟩
    rw [htrans]
    exact ⟨rfl, rfl, rfl, rfl, applyUpdate_mem s u⟩
  case complete =>
    refine ⟨_, congrArg Host.Outcome.next (doTableUpdateComplete_completes hu hserv), ?_, ?_⟩
    · exact congrArg Trans.updates (notifyUpdate_trans ..)
    · rw [descOf_notifyUpdate]
      exact finish_finishes (s := updateLeaves s u) hrun .ok noFlags 0 0 _

end Sys2Proof.Machine
end

section
/-!
PROOFS. What no command changes: the queue of commands, the time, the tenancy counter but upwards, and the canonical
form of the byte lists. One rule for each function of the model that makes a state from a state; the commands and the tick
follow.
These settle the statements O1, O2, O58, O59 and O60.
-/

namespace Sys2Proof.Machine

/-- From `s` to `t` the queue of commands and the time have not changed, the tenancy counter has not fallen, and byte
lists that were canonical still are. -/
def Kept (s t : State) : Prop :=
  t.pending = s.pending ∧ t.now = s.now ∧ s.sec.ctr ≤ t.sec.ctr ∧ (s.canonical → t.canonical)

/-- The parts of a state that `Kept` speaks of. -/
def vitals (s : State) := (s.pending, s.now, s.sec.ctr, s.mem.cells, s.spindles, s.trans.images, s.mgmt.win)

namespace Kept

section
variable {s t u : State}

theorem refl : Kept s s := ⟨rfl, rfl, le_rfl, id⟩

theorem trans (h : Kept s t) (h' : Kept t u) : Kept s u :=
  ⟨h'.1.trans h.1, h'.2.1.trans h.2.1, h.2.2.1.trans h'.2.2.1, fun c => h'.2.2.2 (h.2.2.2 c)⟩

/-- An update of other parts. -/
theorem same (h : Kept s t) (e : vitals u = vitals t) : Kept s u := by
  simp only [vitals, Prod.mk.injEq] at e
  obtain ⟨hp, hn, hc, hcells, hsp, hi, hw⟩ := e
  simpa only [Kept, State.canonical, State.sp, hp, hn, hc, hcells, hsp, hi, hw] using h

theorem ctr (h : Kept s t) : s.sec.ctr ≤ t.sec.ctr := h.2.2.1
theorem canonical (h : Kept s t) (c : s.canonical) : t.canonical := h.2.2.2 c
theorem cells (h : Kept s t) (c : s.canonical) : Memory.wf t.mem.cells = true := (h.canonical c).1
theorem bobbin (h : Kept s t) (c : s.canonical) (p : Fin 136) : Memory.wf (t.sp p).bobbin = true :=
  (h.canonical c).2.1 p
theorem image (h : Kept s t) (c : s.canonical) : ∀ i ∈ t.trans.images, Memory.wf i.regs.bobbin = true :=
  (h.canonical c).2.2.1
theorem win (h : Kept s t) (c : s.canonical) : Memory.wf t.mgmt.win = true := (h.canonical c).2.2.2

/-! Each update of a part that `Kept` speaks of: one that changes it, and one that leaves it. -/

theorem setMemWf {m : Mem} (h : Kept s t) (hc : s.canonical → Memory.wf m.cells = true) : Kept s (t.setMem m) :=
  ⟨h.1, h.2.1, h.ctr, fun c => ⟨hc c, h.bobbin c, h.image c, h.win c⟩⟩

theorem setMem {m : Mem} (h : Kept s t) (hc : m.cells = t.mem.cells) : Kept s (t.setMem m) :=
  h.setMemWf fun c => hc ▸ h.cells c

theorem setTransWf {x : Trans} (h : Kept s t)
    (hi : s.canonical → ∀ i ∈ x.images, Memory.wf i.regs.bobbin = true) : Kept s (t.setTrans x) :=
  ⟨h.1, h.2.1, h.ctr, fun c => ⟨h.cells c, h.bobbin c, hi c, h.win c⟩⟩

theorem setTrans {x : Trans} (h : Kept s t) (hi : x.images = t.trans.images) : Kept s (t.setTrans x) :=
  h.setTransWf fun c => hi ▸ h.image c

theorem setMgmtWf {x : Mgmt} (h : Kept s t) (hw : s.canonical → Memory.wf x.win = true) : Kept s (t.setMgmt x) :=
  ⟨h.1, h.2.1, h.ctr, fun c => ⟨h.cells c, h.bobbin c, h.image c, hw c⟩⟩

theorem setMgmt {x : Mgmt} (h : Kept s t) (hw : x.win = t.mgmt.win) : Kept s (t.setMgmt x) :=
  h.setMgmtWf fun c => hw ▸ h.win c

theorem setSecLe {x : Sec} (h : Kept s t) (hc : s.sec.ctr ≤ x.ctr) : Kept s (t.setSec x) :=
  ⟨h.1, h.2.1, hc, h.2.2.2⟩

theorem setSec {x : Sec} (h : Kept s t) (hc : x.ctr = t.sec.ctr) : Kept s (t.setSec x) :=
  h.setSecLe (hc ▸ h.ctr)

theorem setSpWf {p : Fin 136} {x : Spindle} (h : Kept s t) (hb : s.canonical → Memory.wf x.bobbin = true) :
    Kept s (t.setSp p x) :=
  ⟨h.1, h.2.1, h.ctr, fun c => ⟨h.cells c, fun i => by
    by_cases hi : i = p
    · subst hi; rw [State.setSp_sp_same]; exact hb c
    · rw [State.setSp_sp_ne _ _ _ _ hi]; exact h.bobbin c i, h.image c, h.win c⟩⟩

theorem setSp {p : Fin 136} {x : Spindle} (h : Kept s t) (hb : x.bobbin = (t.sp p).bobbin) :
    Kept s (t.setSp p x) :=
  h.setSpWf fun c => hb ▸ h.bobbin c p

/-- Save images taken out. -/
theorem setTransFilter {x : Trans} (h : Kept s t) (hi : ∃ f, x.images = t.trans.images.filter f) :
    Kept s (t.setTrans x) :=
  h.setTransWf fun c i hx => let ⟨_, e⟩ := hi; h.image c i (List.mem_of_mem_filter (e ▸ hx))

/-- Bytes of memory taken out. -/
theorem setMemFilter {m : Mem} (h : Kept s t) (hc : ∃ f, m.cells = t.mem.cells.filter f) :
    Kept s (t.setMem m) :=
  h.setMemWf fun c => let ⟨f, e⟩ := hc; e ▸ wf_filter (h.cells c) f

/-- Spindles changed one by one. -/
theorem mapSpindles {f : Spindle → Spindle} (h : Kept s t)
    (hf : ∀ x : Spindle, Memory.wf x.bobbin = true → Memory.wf (f x).bobbin = true) :
    Kept s { t with spindles := t.spindles.map f } :=
  ⟨h.1, h.2.1, h.ctr, fun c => ⟨h.cells c, fun p => by
    rw [State.sp, Vector.get_eq_getElem, Vector.getElem_map]; exact hf _ (h.bobbin c p), h.image c, h.win c⟩⟩

/-- Bytes of the register space's windows written. -/
theorem setWin {a : Nat} {bs : List Byte} (h : Kept s t) :
    Kept s (t.setMgmt { t.mgmt with win := cellsWrite t.mgmt.win a bs }) :=
  h.setMgmtWf fun c => wf_cellsWrite (h.win c) ..

theorem setSk {k : Fin 8} {x : Skein} (h : Kept s t) : Kept s (t.setSk k x) := h.same rfl
theorem setQ {q : Fin 4096} {x : Queue} (h : Kept s t) : Kept s (t.setQ q x) := h.same rfl
theorem say {x : Out} (h : Kept s t) : Kept s (t.say x) := h.same rfl
theorem setStrand {n : Fin 2048} {x : Strand} (h : Kept s t) : Kept s (t.setStrand n x) := h.same rfl
theorem setPort {p : Fin 32} {x : Port} (h : Kept s t) : Kept s (t.setPort p x) := h.same rfl
theorem setSlot {k : Fin 8} {x : Ply} (h : Kept s t) : Kept s (t.setSlot k x) := h.same rfl
theorem setPwr {x : Pwr} (h : Kept s t) : Kept s (t.setPwr x) := h.same rfl

theorem skeins {v : Vector Skein 8} (h : Kept s t) : Kept s { t with skeins := v } := h.same rfl
theorem sweeps {l : List Sweep} (h : Kept s t) : Kept s { t with sweeps := l } := h.same rfl
theorem queues {v : Vector Queue 4096} (h : Kept s t) : Kept s { t with queues := v } := h.same rfl
theorem quotaRes {st : Status} (h : Kept s t) : Kept s { t with quotaRes := st } := h.same rfl
theorem kernels {l : List Kernel} (h : Kept s t) : Kept s { t with kernels := l } := h.same rfl
theorem jrn {j : Journal} (h : Kept s t) : Kept s { t with jrn := j } := h.same rfl
theorem twine {x : Twine} (h : Kept s t) : Kept s { t with twine := x } := h.same rfl
theorem eth {x : Eth} (h : Kept s t) : Kept s { t with eth := x } := h.same rfl
theorem ply {x : Groups} (h : Kept s t) : Kept s { t with ply := x } := h.same rfl
theorem out {l : List Out} (h : Kept s t) : Kept s { t with out := l } := h.same rfl
theorem free {n : Nat} (h : Kept s t) : Kept s { t with free := n } := h.same rfl

theorem ite {c : Prop} [Decidable c] (ha : c → Kept s t) (hb : ¬ c → Kept s u) : Kept s (if c then t else u) := by
  split
  · exact ha ‹_›
  · exact hb ‹_›

/-- A fold of steps each of which keeps what stands. -/
theorem foldl {β : Type} {g : State → β → State} {l : List β} (h : Kept s t)
    (hg : ∀ {u : State} {b : β}, Kept s u → Kept s (g u b)) : Kept s (l.foldl g t) := by
  induction l generalizing t with
  | nil => exact h
  | cons b l ih => exact ih (hg h)

end

end Kept
section
variable {s t : State}

/-! ## State operations -/

theorem Kept.putByte {key : Nat} {x : Byte} (h : Kept s t) : Kept s (putByte t key x) := by
  unfold Machine.putByte
  split
  · exact h.setSk
  · exact h.setMemWf fun c => wf_cellSet (h.cells c) ..

theorem Kept.writeByte {a : Nat} {x : Byte} (h : Kept s t) : Kept s (writeByte t a x) := by
  unfold Machine.writeByte
  split
  · exact h.setSpWf fun c => wf_cellsWrite (h.bobbin c _) ..
  · split
    · exact h.putByte
    · exact h

theorem Kept.writePhys {a : Nat} {bs : List Byte} (h : Kept s t) : Kept s (writePhys t a bs) := by
  induction bs generalizing t a with
  | nil => exact h
  | cons b bs ih => exact ih h.writeByte

theorem Kept.clearPoison {a : Nat} {n : Nat} (h : Kept s t) : Kept s (clearPoison t a n) := by
  unfold Machine.clearPoison
  exact h.setMem (by rfl)

theorem Kept.settleCreel (h : Kept s t) : Kept s (settleCreel t) := by
  unfold Machine.settleCreel
  exact h.setMem (by rfl)

theorem Kept.writeChecked {a : Nat} {bs : List Byte} (h : Kept s t) : Kept s (writeChecked t a bs).1 := by
  unfold Machine.writeChecked
  split
  · exact h
  · exact h.clearPoison.writePhys

theorem Kept.reelLine {kl : Fin 8 × Nat} {h0 : Hint} {wr : Bool} (h : Kept s t) : Kept s (reelLine t kl h0 wr) := by
  unfold Machine.reelLine
  exact h.setMem (by rfl)

theorem Kept.touchUnit {a : Nat} {n : Nat} {h0 : Hint} {wr : Bool}
    (h : Kept s t) : Kept s (touchUnit t a n h0 wr) := by
  unfold Machine.touchUnit
  split
  · exact h.foldl Kept.reelLine
  · exact h.setSk.foldl Kept.reelLine

theorem Kept.reelTouch {a : Nat} {n : Nat} {h0 : Hint} {wr : Bool}
    (h : Kept s t) : Kept s (reelTouch t a n h0 wr) := by
  unfold Machine.reelTouch
  exact h.foldl fun h' => h'.touchUnit

theorem Kept.reelDrop {a : Nat} {n : Nat} (h : Kept s t) : Kept s (reelDrop t a n) := by
  unfold Machine.reelDrop
  exact .ite (fun _ => h) fun _ => h.setMem (by rfl)


/-! ## Translation -/

/-- A fold that also joins up answers keeps what its steps keep. -/
theorem Kept.foldlPair {α β : Type} {g : State × α → β → State × α} {l : List β} {x : State × α} (h : Kept s x.1)
    (hg : ∀ {r : State × α} {b : β}, Kept s r.1 → Kept s (g r b).1) : Kept s (l.foldl g x).1 := by
  induction l generalizing x with
  | nil => exact h
  | cons b l ih => exact ih (hg h)

theorem Kept.writeSegs {segs : List Seg} {a : Nat} {bs : List Byte}
    (h : Kept s t) : Kept s (writeSegs t segs a bs).1 := by
  unfold Machine.writeSegs
  exact Kept.foldlPair h writeChecked

theorem Kept.tableRead {stage : Nat} {va : Nat} {i : Nat} (h : Kept s t) : Kept s (tableRead t stage va i) := by
  unfold Machine.tableRead
  exact h.reelLine

theorem Kept.walkPage {va : Nat} (h : Kept s t) : Kept s (walkPage t va) := by
  unfold Machine.walkPage
  exact (h.foldl Kept.tableRead).setTrans (by rfl)

theorem Kept.lookUpPage {k : Fin 8} {e : TlbEntry} (h : Kept s t) : Kept s (lookUpPage k t e) := by
  unfold Machine.lookUpPage
  exact (Kept.ite (fun _ => h) fun _ => h.walkPage).setSk

theorem Kept.lookUpSegs {k : Fin 8} {own : Owner} {segs : List Seg}
    (h : Kept s t) : Kept s (lookUpSegs t k own segs) := by
  unfold Machine.lookUpSegs
  split
  · exact h
  · exact h.foldl Kept.lookUpPage

theorem Kept.lookUpFault {k : Fin 8} {va : Nat} (h : Kept s t) : Kept s (lookUpFault t k va) := by
  unfold Machine.lookUpFault
  exact .ite (fun _ => h.setSk) fun _ => h.walkPage.setSk

theorem Kept.lookUpReach {k : Fin 8} {r : Reach} (h : Kept s t) : Kept s (lookUpReach t k r) := by
  unfold Machine.lookUpReach
  split
  · exact h.lookUpFault
  · exact h

theorem Kept.walkSegs {own : Owner} {segs : List Seg} (h : Kept s t) : Kept s (walkSegs t own segs) := by
  unfold Machine.walkSegs
  split
  · exact h
  · exact h.foldl Kept.walkPage

theorem Kept.walkReach {r : Reach} (h : Kept s t) : Kept s (walkReach t r) := by
  unfold Machine.walkReach
  split
  · exact h.walkSegs
  · exact h.walkPage
  · exact h

theorem Kept.walkFirst {q : Fin 4096} {tw : Bool} {rs : List (Perm × Nat × Nat)}
    (h : Kept s t) : Kept s (walkFirst t q tw rs) := by
  unfold Machine.walkFirst
  split
  · exact h.walkPage
  · exact h


/-! ## Moves of bytes -/

theorem Kept.applyWrites {segs : List Seg} {ws : List (Nat × List Byte)} (h : Kept s t) :
    Kept s (applyWrites t segs ws).1 := by
  unfold Machine.applyWrites
  exact Kept.foldlPair h writeSegs

theorem Kept.addTouch {a : Nat} {n : Nat} (h : Kept s t) : Kept s (addTouch t a n) := by
  unfold Machine.addTouch
  refine h.foldl fun h' => ?_
  dsimp only
  split
  · exact h'.touchUnit
  · split
    · exact h'.reelDrop.setMem (by rfl)
    · exact h'.reelDrop

theorem Kept.moveTraffic {m : Move} {ws : List (Nat × List Byte)}
    (h : Kept s t) : Kept s (Move.traffic m t ws) := by
  unfold Machine.Move.traffic
  exact (h.foldl fun h' => h'.foldl fun h'' => h''.foldl Kept.reelTouch).foldl fun h' => h'.foldl fun h'' =>
      .ite (fun _ => h''.addTouch) fun _ => h''.reelTouch

theorem Kept.touchSegs {segs : List Seg} {a : Nat} {n : Nat} {wr : Bool}
    (h : Kept s t) : Kept s (touchSegs t segs a n wr) := by
  unfold Machine.touchSegs
  exact h.foldl Kept.reelTouch

theorem Kept.perform {m : Move} {n : Nat} (h : Kept s t) : Kept s (m.perform n t).1 := by
  unfold Move.perform
  split
  · exact h
  · split
    · exact h
    · dsimp only
      split
      · exact h.applyWrites.same (by rfl)
      · exact h.moveTraffic.applyWrites


/-! ## Bundles -/

theorem ws_bobbin (x : Spindle) (r : Fin 32) (v : Word) : (x.ws r v).bobbin = x.bobbin := by
  unfold Spindle.ws; split <;> rfl

theorem wp_bobbin (x : Spindle) (r : Fin 8) (v : Bool) : (x.wp r v).bobbin = x.bobbin := by
  unfold Spindle.wp; split <;> rfl

/-- The write of a unit leaves the bobbin canonical. -/
theorem wf_write {x : Spindle} (w : Wr) (h : Memory.wf x.bobbin = true) : Memory.wf (x.write w).bobbin = true := by
  cases w with
  | s r v => exact (ws_bobbin x r v).symm ▸ h
  | p r v => exact (wp_bobbin x r v).symm ▸ h
  | mem off bs => exact wf_cellsWrite h off bs
  | _ => exact h

theorem wf_finish {x : Spindle} (q : Pend) (h : Memory.wf x.bobbin = true) : Memory.wf (x.finish q).bobbin = true :=
    by
  suffices ∀ x : Spindle, Memory.wf x.bobbin = true → Memory.wf (q.wrs.foldl Spindle.write x).bobbin = true from
      this x h
  induction q.wrs with
  | nil => exact fun _ h => h
  | cons w ws ih => exact fun x h => ih _ (wf_write w h)

theorem Kept.actPerform {a : Act} {p : Fin 136} (h : Kept s t) : Kept s (Act.perform a p t) := by
  cases a with
  | wr w => exact h.setSpWf fun c => wf_write w (h.bobbin c p)
  | late r v lat => exact h.setSp (ws_bobbin ..)
  | link => exact h.setSp (ws_bobbin ..)
  | move r m => exact (h.setSp (by rfl)).lookUpSegs.setSk
  | _ => exact h.setSp (by rfl)

theorem Kept.goBundle {p : Fin 136} {n : Nat} {rest : List Instr} {es : List Eff}
    (h : Kept s t) : Kept s (goBundle t p n rest es) := by
  unfold Machine.goBundle
  exact (h.setSp (by rfl)).foldl Kept.actPerform

theorem Kept.walkFault {p : Fin 136} {r : Raise} (h : Kept s t) : Kept s (walkFault t p r) := by
  unfold Machine.walkFault
  split
  · exact h.lookUpFault
  · exact h

theorem Kept.tryIssue {eff : Instr → State → Eff} {p : Fin 136} (h : Kept s t) : Kept s (tryIssue eff t p) := by
  unfold Machine.tryIssue
  dsimp only
  split
  · exact h
  · split
    · exact h
    · split
      · exact h
      · split
        · exact h.walkFault.setSpWf (h.bobbin · _)
        · exact h.setSp (by rfl)
        · exact h.goBundle

theorem Kept.presentWord {eff : Instr → State → Eff} {w : Instr} {p : Fin 136}
    (h : Kept s t) : Kept s (presentWord eff w p t) := by
  unfold Machine.presentWord
  dsimp only
  split
  · exact h
  · exact .ite (fun _ => h) fun _ => (h.setSp (by rfl)).tryIssue


/-! ## The matrix unit -/

theorem Kept.doLdwLoadDone {p : Fin 136} (h : Kept s t) : Kept s (doLdwLoadDone p t) := by
  unfold Machine.doLdwLoadDone
  split
  · exact h
  · dsimp only
    split
    · exact .ite (fun _ => h) fun _ => h.setSp (by rfl)
    · exact h

theorem Kept.doMmaStart {p : Fin 136} (h : Kept s t) : Kept s (doMmaStart p t) := by
  unfold Machine.doMmaStart
  split
  · exact h
  · dsimp only
    split
    · exact .ite (fun _ => h) fun _ => h.setSp (by rfl)
    · exact h

theorem Kept.doMmaCommit {p : Fin 136} (h : Kept s t) : Kept s (doMmaCommit p t) := by
  unfold Machine.doMmaCommit
  split
  · exact h
  · dsimp only
    split
    · exact h
    · exact .ite (fun _ => h) fun _ => h.setSp (by rfl)


/-! ## The vector unit -/

theorem Kept.doVectorResultWrite {p : Fin 136} (h : Kept s t) : Kept s (doVectorResultWrite p t) := by
  unfold Machine.doVectorResultWrite
  refine .ite (fun _ => h) fun _ => ?_
  dsimp only
  split
  · exact h.setSpWf fun c => wf_finish _ (h.bobbin c p)
  · exact h


/-! ## The row unit -/

theorem Kept.doRowUnitComplete {p : Fin 136} (h : Kept s t) : Kept s (doRowUnitComplete p t) := by
  unfold Machine.doRowUnitComplete
  refine .ite (fun _ => h) fun _ => ?_
  dsimp only
  split
  · exact h.setSpWf fun c => wf_finish _ (h.bobbin c p)
  · exact h


/-! ## The quantiser -/

theorem Kept.doQuantiserComplete {p : Fin 136} (h : Kept s t) : Kept s (doQuantiserComplete p t) := by
  unfold Machine.doQuantiserComplete
  refine .ite (fun _ => h) fun _ => ?_
  dsimp only
  split
  · exact h.setSpWf fun c => wf_finish _ (h.bobbin c p)
  · exact h


/-! ## Queues -/

theorem Kept.post {n : Fin 2048} {m : Msg} (h : Kept s t) : Kept s (post t n m) := by
  unfold Machine.post
  dsimp only
  split
  · exact h
  · exact h
  · exact h.setStrand

theorem Kept.notify {to_ : Party} {kind : Nat} {queue : Nat} {result : Nat} {body : List Byte}
    (h : Kept s t) : Kept s (notify t to_ kind queue result body) := by
  unfold Machine.notify
  split
  · exact h.post
  · exact h

theorem keepRecord_win (m : Mgmt) (ws : List Word) : (keepRecord m ws).1.win = m.win := by
  unfold Machine.keepRecord
  split
  · rfl
  · dsimp only; split <;> rfl

theorem Kept.addRecord {q : Nat} {ws : List Word} {ten : Bool} (h : Kept s t) : Kept s (addRecord t q ws ten) := by
  unfold Machine.addRecord
  have h1 : Kept s (t.setMgmt (keepRecord t.mgmt ws).1) := h.setMgmt (keepRecord_win ..)
  exact .ite (fun _ => h1.notify.notify) fun _ => h1.notify

theorem Kept.record {kind : Nat} {st : Option Status} {unit : Nat} {index : Nat} {args : List Nat}
    (h : Kept s t) : Kept s (record t kind st unit index args) := by
  unfold Machine.record
  exact h.addRecord

theorem Kept.poisonRecord {burst : Option Nat} {q : Nat} {type : Nat}
    (h : Kept s t) : Kept s (poisonRecord t burst q type) := by
  unfold Machine.poisonRecord
  split
  · exact h
  · exact h.record

theorem Kept.closeRecord {slot : Nat} (h : Kept s t) : Kept s (closeRecord t slot) := by
  unfold Machine.closeRecord
  exact h.setMgmt (by rfl)

theorem Kept.acceptOne {q : Fin 4096} {r : AccRec} {u : State}
    (h : Kept s t) (e : acceptOne t q = some (u, r)) : Kept s u := by
  unfold Machine.acceptOne at e
  split at e
  · cases e
  · split at e
    · cases e
    · dsimp only at e
      split at e
      · cases e
      · split at e
        · cases e; exact h.setQ
        · split at e <;> cases e
          · exact h.setQ
          · exact h.same (by rfl)

theorem Kept.acceptAll {n : Nat} {q : Fin 4096} {rs : List AccRec}
    (h : Kept s t) : Kept s (acceptAll n t q rs).1 := by
  induction n generalizing t rs with
  | zero => exact h
  | succ n ih =>
    unfold Machine.acceptAll
    split
    · next e => exact ih (h.acceptOne e)
    · exact h

theorem Kept.sayAccepts {n : Nat} {m : Fin 2048} {rs : List AccRec}
    (h : Kept s t) : Kept s (sayAccepts n t m rs) := by
  induction n generalizing t rs with
  | zero => exact h
  | succ n ih =>
    cases rs with
    | nil => exact h
    | cons r rs => exact ih h.post

theorem Kept.sayRings {a : Nat} {rings : List (Nat × Option (Fin 2048))} {rs : List AccRec} (h : Kept s t) :
    Kept s (sayRings t a rings rs) := by
  induction rings generalizing t a with
  | nil => exact h
  | cons r rings ih =>
    obtain ⟨tail, n⟩ := r
    cases n with
    | none => exact ih h
    | some n => exact ih h.sayAccepts

theorem Kept.runAcceptance {q : Fin 4096} (h : Kept s t) : Kept s (runAcceptance t q) := h.acceptAll.sayRings.setQ

theorem Kept.setDesc {q : Fin 4096} {seq : Nat} {f : Desc → Desc} (h : Kept s t) : Kept s (setDesc t q seq f) := by
  unfold Machine.setDesc
  exact h.setQ

theorem Kept.wantGrant {q : Fin 4096} {seq : Nat} (h : Kept s t) : Kept s (wantGrant t q seq) := by
  unfold Machine.wantGrant
  split
  · exact .ite (fun _ => h) fun _ => h.setPwr
  · exact h

theorem Kept.startDesc {q : Fin 4096} {seq : Nat} (h : Kept s t) : Kept s (startDesc t q seq) := by
  unfold Machine.startDesc
  exact h.wantGrant.setDesc

theorem Kept.finish {q : Fin 4096} {seq : Nat} {st : Status} {flags : Flags} {code : Nat} {detail : Nat}
    {value : Nat} (h : Kept s t) : Kept s (finish t q seq st flags code detail value) := by
  unfold Machine.finish
  exact h.setDesc

theorem Kept.ends {q : Fin 4096} {seq : Nat} {st : Status} (h : Kept s t) : Kept s (ends t q seq st) := by
  unfold Machine.ends
  exact h.finish

theorem Kept.failDesc {q : Fin 4096} {seq : Nat} {st : Status} (h : Kept s t) : Kept s (failDesc t q seq st) := by
  unfold Machine.failDesc
  exact h.startDesc.ends

theorem Kept.countDesc {q : Fin 4096} {d : Desc} {st : Status} {flags : Flags} {code : Nat} {detail : Nat}
    {value : Word} (h : Kept s t) : Kept s (countDesc t q d st flags code detail value) := by
  unfold Machine.countDesc
  dsimp only
  split
  · exact .ite (fun _ => h.writePhys.setQ.notify) fun _ => h.writePhys.setQ
  · exact h.writePhys.setQ

theorem Kept.waitPage {q : Fin 4096} (h : Kept s t) : Kept s (waitPage t q) := by
  unfold Machine.waitPage
  exact h.setQ

theorem Kept.settleQueue {q : Fin 4096} (h : Kept s t) : Kept s (settleQueue t q) := by
  unfold Machine.settleQueue
  exact .ite (fun _ => h.setQ) fun _ => h

theorem Kept.releaseQueue {q : Fin 4096} (h : Kept s t) : Kept s (releaseQueue t q) := by
  unfold Machine.releaseQueue
  exact .ite (fun _ => h.setQ) fun _ => h

theorem Kept.addFault {q : Fin 4096} {seq : Nat} {work : FaultWork} {va : Nat} {ia : Nat} {stage : Nat} {acc : Nat}
    {why : Nat} {side : Nat} {spindle : Nat} {epc : Nat} {g1 : Word} {g2 : Word}
    (h : Kept s t) : Kept s (addFault t q seq work va ia stage acc why side spindle epc g1 g2) := by
  unfold Machine.addFault
  exact (h.addRecord.setTrans (by rfl)).waitPage

theorem Kept.dropFault {id : Nat} (h : Kept s t) : Kept s (dropFault t id) := by
  unfold Machine.dropFault
  split
  · exact h
  · exact (Kept.ite (fun _ => h.setTrans (by rfl)) fun _ => (h.setTrans (by rfl)).closeRecord).settleQueue


/-! ## Shares -/

theorem Kept.kernelWalks {q : Fin 4096} {ls : List (Fin 128)} {segs : List Seg}
    (h : Kept s t) : Kept s (kernelWalks t q ls segs) := by
  unfold Machine.kernelWalks
  exact h.foldl Kept.lookUpSegs

theorem Kept.doKernel {q : Fin 4096} (h : Kept s t) : Kept s (doKernel q t) := by
  unfold Machine.doKernel
  split
  · exact h
  · split
    · exact h.failDesc
    · dsimp only
      split
      · exact .ite (fun _ => h) fun _ => h.kernelWalks.startDesc.kernels
      · exact (h.foldl fun h' => h'.lookUpReach.lookUpReach).failDesc

theorem Kept.applyChange {k : Fin 8} {c : MapChange} (h : Kept s t) : Kept s (applyChange t k c) := by
  cases c with
  | leave l => exact (Kept.setSpWf h.setSk fun _ => rfl).record
  | join l => exact h.setSk

theorem Kept.settleMap {k : Fin 8} (h : Kept s t) : Kept s (settleMap t k) := by
  unfold Machine.settleMap
  exact h.foldl fun h' => .ite (fun _ => h'.applyChange) fun _ => h'

theorem Kept.setKernel {q : Fin 4096} {seq : Nat} {f : Kernel → Kernel}
    (h : Kept s t) : Kept s (setKernel t q seq f) := by
  unfold Machine.setKernel
  exact h.kernels

theorem Kept.serveSpindle {q : Fin 4096} {p : Fin 136} (h : Kept s t) : Kept s (serveSpindle t q p) := by
  unfold Machine.serveSpindle
  exact h.setSk

theorem launchState_wf {x : Spindle} (p : Fin 136) (k : Kernel) (b : KernelBody) (i : Nat) (l : Fin 128)
    (args : List Byte) (h : Memory.wf x.bobbin = true) : Memory.wf (launchState x p k b i l args).bobbin = true :=
        by
  refine wf_cellsWrite ?_ ..
  split
  · exact h
  · rfl

theorem launchEnds_wf {x : Spindle} (o : Option Status) (h : Memory.wf x.bobbin = true) :
    Memory.wf (match o with
      | some st => { x with share := x.share.map fun h : Share => { h with phase := .ended st } }
      | none => x : Spindle).bobbin = true := by
  cases o <;> exact h

theorem Kept.doShareLaunch {q : Fin 4096} {p : Fin 136} (h : Kept s t) : Kept s (doShareLaunch q p t) := by
  unfold Machine.doShareLaunch
  refine .ite (fun _ => h) fun _ => ?_
  split
  · exact h
  · split
    · exact h
    · exact (Kept.setSpWf (.serveSpindle h.touchSegs) fun c => launchEnds_wf _
        (launchState_wf _ _ _ _ _ _ (Kept.bobbin (.serveSpindle h.touchSegs) c p))).poisonRecord.setKernel

theorem Kept.traceKernel {q : Fin 4096} {seq : Nat} (h : Kept s t) : Kept s (traceKernel t q seq) := by
  unfold Machine.traceKernel
  split
  · exact .ite (fun _ => h.setSec (by rfl)) fun _ => h
  · exact h

theorem Kept.settleKernel {q : Fin 4096} {seq : Nat} (h : Kept s t) : Kept s (settleKernel t q seq) := by
  unfold Machine.settleKernel
  split
  · exact h
  · split
    · exact h
    · dsimp only
      split <;> exact h.kernels.traceKernel.finish

theorem Kept.reportShare {sh : Share} {st : Status} {cause : Word} {fl : Flags}
    (h : Kept s t) : Kept s (reportShare t sh st cause fl) := by
  unfold Machine.reportShare
  exact h.setKernel.settleKernel

theorem Kept.boundary {p : Fin 136} (h : Kept s t) : Kept s (boundary t p) := by
  unfold Machine.boundary
  refine .ite (fun _ => h) fun _ => ?_
  have h1 : Kept s ((List.finRange 8).foldl Machine.settleMap t) := h.foldl settleMap
  generalize (List.finRange 8).foldl Machine.settleMap t = u at h1 ⊢
  dsimp only
  split
  · exact h1
  · next i hi =>
      exact (h1.setTransFilter (by exact ⟨_, rfl⟩)).setSpWf fun c => h1.image c i (List.mem_of_find?_eq_some hi)

theorem Kept.vacate {p : Fin 136} (h : Kept s t) : Kept s (vacate t p) := by
  unfold Machine.vacate
  exact (h.setSp (by rfl)).boundary

theorem Kept.switchOut {p : Fin 136} {sh : Share} (h : Kept s t) : Kept s (switchOut t p sh) := by
  unfold Machine.switchOut
  have h1 : Kept s
      { Machine.writePhys t (saveBase (freeImage t)) (saveImage (t.sp p) t.free) with free := t.free + 1 } :=
    h.writePhys.free
  refine (h1.setTransWf fun c i hi => ?_).vacate
  rcases List.mem_append.mp hi with hi | hi
  · exact h1.image c i hi
  · exact (List.mem_singleton.mp hi) ▸ h.bobbin c p

theorem Kept.setPhase {p : Fin 136} {ph : Phase} (h : Kept s t) : Kept s (setPhase t p ph) := by
  unfold Machine.setPhase
  exact h.setSp (by rfl)

theorem Kept.shareFault {sh : Share} {t0 : Trap} (h : Kept s t) : Kept s (shareFault t sh t0) := by
  unfold Machine.shareFault
  exact h.addFault

theorem Kept.pageOut {p : Fin 136} {sh : Share} {t0 : Trap} {recorded : Bool}
    (h : Kept s t) : Kept s (pageOut t p sh t0 recorded) := by
  unfold Machine.pageOut
  exact .ite (fun _ => h.setPhase) fun _ => .ite (fun _ => (Kept.ite (fun _ => h) fun _ =>
      h.shareFault).switchOut) fun _ => (Kept.ite (fun _ => h) fun _ => h.shareFault).setPhase

theorem Kept.doExceptionTaken {p : Fin 136} (h : Kept s t) : Kept s (doExceptionTaken p t) := by
  unfold Machine.doExceptionTaken
  split
  · exact h
  · split
    · split
      · exact h
      · dsimp only
        split
        · exact (h.setSp (by rfl)).pageOut
        · exact ((h.setSp (by rfl)).record.setTrans (by rfl)).setPhase
        · exact (h.setSp (by rfl)).setPhase
        · exact (h.setSp (by rfl)).setPhase
    · exact h

theorem Kept.doSaveImageFreed {p : Fin 136} (h : Kept s t) : Kept s (doSaveImageFreed p t) := by
  unfold Machine.doSaveImageFreed
  split
  · exact h
  · split
    · split
      · exact h
      · split
        · refine Kept.setPhase ?_
          split
          · exact h.dropFault
          · exact h
        · exact h.pageOut
    · exact h

theorem Kept.doShareEnd {p : Fin 136} (h : Kept s t) : Kept s (doShareEnd p t) := by
  unfold Machine.doShareEnd
  dsimp only
  split
  · exact h
  · split
    · exact h
    · split
      · exact h.reportShare.vacate
      · exact h.reportShare.vacate
      · exact h

theorem Kept.resumeWork {f : PFault} (h : Kept s t) : Kept s (resumeWork t f) := by
  unfold Machine.resumeWork
  split
  · exact h.dropFault
  · next l seq =>
    have h1 := h.dropFault (id := f.id)
    dsimp only
    split
    · next i hi =>
      have h2 : Kept s ((Machine.dropFault t f.id).setTrans { (Machine.dropFault t f.id).trans with
          images := (Machine.dropFault t f.id).trans.images.map fun j => if j = i then
              { j with resume := true } else j }) := by
        refine h1.setTransWf fun c j hj => ?_
        obtain ⟨j', hj', rfl⟩ := List.mem_map.mp hj
        have := h1.image c j' hj'
        split <;> exact this
      split
      · exact h2.boundary
      · exact h2
    · split
      · exact h1
      · split
        · exact (h1.setSp (by rfl)).setPhase
        · exact (h1.setSp (by rfl)).setPhase
        · exact h1

theorem Kept.abandonWork {f : PFault} {st : Status} (h : Kept s t) : Kept s (abandonWork t f st) := by
  unfold Machine.abandonWork
  split
  · exact h.failDesc.dropFault
  · split
    · exact (h.setTransFilter (by exact ⟨_, rfl⟩)).reportShare.dropFault
    · split
      · exact h.setPhase.dropFault
      · exact h.dropFault


/-! ## Move work -/

theorem Kept.dispatchMove {q : Fin 4096} {n : Nat} {op : MoveOp}
    (h : Kept s t) : Kept s (dispatchMove q n op t) := by
  unfold Machine.dispatchMove
  split
  · exact h
  · split
    · exact h.failDesc
    · split
      · exact h
      · dsimp only
        split
        · exact h.failDesc
        · split
          · exact .ite (fun _ => h.lookUpFault.failDesc) fun _ => .ite (fun _ => h.lookUpFault.addFault) fun _ => h
          · exact .ite (fun _ => h.failDesc) fun _ => .ite (fun _ => h) fun _ => h.startDesc.setSk.lookUpSegs.setSk

theorem Kept.doCopy {q : Fin 4096} (h : Kept s t) : Kept s (doCopy q t) := by
  unfold Machine.doCopy
  exact h.dispatchMove

theorem Kept.doMoveAdd {q : Fin 4096} (h : Kept s t) : Kept s (doMoveAdd q t) := by
  unfold Machine.doMoveAdd
  exact h.dispatchMove

theorem Kept.doFill {q : Fin 4096} (h : Kept s t) : Kept s (doFill q t) := by
  unfold Machine.doFill
  exact h.dispatchMove

theorem Kept.reportMove {m : Move} {st : Status} {fl : Flags} (h : Kept s t) : Kept s (reportMove t m st fl) := by
  unfold Machine.reportMove
  split
  · exact h.setSp (by rfl)
  · exact h.finish

theorem Kept.countMove {m : Move} {st : Status} (h : Kept s t) : Kept s (countMove t m st) := by
  unfold Machine.countMove
  exact h.setQ

theorem Kept.doFlyerMoveComplete {k : Fin 8} {f : Fin 4} {hanks : Nat}
    (h : Kept s t) : Kept s (doFlyerMoveComplete k f hanks t) := by
  unfold Machine.doFlyerMoveComplete
  dsimp only
  split
  · exact h
  · exact .ite (fun _ => h) fun _ => h.poisonRecord.perform.reportMove.countMove.setSk

theorem Kept.doMoveDeadlineExpiry {o : Origin} {n : Nat} {b : Bool} (h : Kept s t) :
    Kept s (doMoveDeadlineExpiry o n b t) := by
  unfold Machine.doMoveDeadlineExpiry
  split
  · exact h
  · exact .ite (fun _ => h) fun _ => h.setQ.skeins


/-! ## The creel -/

theorem Kept.setBinding {k : Fin 8} {b : Binding} {x : Option Binding}
    (h : Kept s t) : Kept s (setBinding t k b x) := by
  unfold Machine.setBinding
  exact h.setSk

theorem wf_overlay {m : List Host.Cell} (d : List Host.Cell) (f : Nat → Byte) (h : Memory.wf m = true) :
    Memory.wf (d.foldl (fun m c => cellSet m c.1 (c.2 ^^^ f c.1)) m) = true := by
  induction d generalizing m with
  | nil => exact h
  | cons c d ih => exact ih (wf_cellSet h ..)

theorem Kept.writeBack {k : Fin 8} {b : Binding} {v : Hint} (h : Kept s t) : Kept s (writeBack t k b v) :=
  ((h.setMemWf fun c => wf_overlay _ _ (h.cells c)).foldl reelLine).setSk

theorem Kept.flushBinding {k : Fin 8} {b : Binding} {h0 : Hint}
    (h : Kept s t) : Kept s (flushBinding t k b h0) := by
  unfold Machine.flushBinding
  exact h.writeBack.setBinding

theorem Kept.evict {k : Fin 8} {b : Binding} {blocks : List (Fin 4096 × Nat)} {evictor : Option (Fin 4096 × Nat)}
    (h : Kept s t) : Kept s (evict t k b blocks evictor) := by
  unfold Machine.evict
  exact h.setBinding.setQ.setSk

theorem Kept.bindEnds {k : Fin 8} {w : BindWait} {st : Status} (h : Kept s t) : Kept s (bindEnds t k w st) := by
  unfold Machine.bindEnds
  exact h.setSk.ends

theorem Kept.bindAllocate {k : Fin 8} {w : BindWait} {c : CreelBody}
    (h : Kept s t) : Kept s (bindAllocate t k w c) := by
  unfold Machine.bindAllocate
  exact .ite (fun _ => h.setSk.bindEnds.evict) fun _ => h.setSk.bindEnds

theorem Kept.bindStep {n : Nat} {k : Fin 8} {w : BindWait} {b : CreelBody}
    (h : Kept s t) : Kept s (bindStep n t k w b) := by
  induction n generalizing t with
  | zero => exact h
  | succ n ih =>
    unfold Machine.bindStep
    refine .ite (fun _ => h.bindEnds) fun _ => .ite (fun _ => h.bindEnds) fun _ => .ite (fun _ => h) fun _ =>
      .ite (fun _ => ?_) fun _ => .ite (fun _ => .ite (fun _ => h) fun _ => h.bindAllocate) fun _ =>
        .ite (fun _ => h) fun _ => ?_
    · split
      · exact ih h.evict
      · exact h.bindEnds
    · split
      · exact h.evict
      · exact h.bindEnds

theorem Kept.bindRetry {k : Fin 8} (h : Kept s t) : Kept s (bindRetry t k) := by
  unfold Machine.bindRetry
  refine h.foldl fun h' => ?_
  split
  · exact h'.bindStep
  · exact h'

theorem Kept.bindRetryAll (h : Kept s t) : Kept s (bindRetryAll t) := by
  unfold Machine.bindRetryAll
  exact h.foldl Kept.bindRetry

theorem Kept.doBind {q : Fin 4096} (h : Kept s t) : Kept s (doBind q t) := by
  unfold Machine.doBind
  split
  · exact h
  · dsimp only
    split
    · exact h.failDesc
    · split
      · exact h.failDesc
      · split
        · exact .ite (fun _ => h.failDesc) fun _ => h.lookUpSegs.startDesc.setSk.bindStep
        · exact h.lookUpReach.failDesc

theorem Kept.doEvictionComplete {k : Fin 8} (h : Kept s t) : Kept s (doEvictionComplete k t) := by
  unfold Machine.doEvictionComplete
  split
  · exact h
  · split
    · exact h
    · exact h.writeBack.setBinding.bindRetryAll

theorem Kept.doBindFill {q : Fin 4096} {slot : Fin 64} {sector : Nat}
    (h : Kept s t) : Kept s (doBindFill q slot sector t) := by
  unfold Machine.doBindFill
  split
  · exact h
  · split
    · exact h
    · exact .ite (fun _ => (h.foldl Kept.reelLine).setBinding) fun _ => h

theorem Kept.doFlush {q : Fin 4096} (h : Kept s t) : Kept s (doFlush q t) := by
  unfold Machine.doFlush
  split
  · exact h
  · split
    · exact h.failDesc
    · dsimp only
      split
      · exact h.startDesc.ends.flushBinding
      · exact h.startDesc.ends

theorem Kept.doMoveRelease {q : Fin 4096} (h : Kept s t) : Kept s (doMoveRelease q t) := by
  unfold Machine.doMoveRelease
  split
  · exact h
  · split
    · exact h.failDesc
    · dsimp only
      split
      · exact (Kept.ite (fun _ => h.startDesc.ends) fun _ =>
          h.startDesc.ends.writeBack).setBinding.settleCreel.bindRetryAll
      · exact h.startDesc.ends

theorem Kept.doPin {q : Fin 4096} (h : Kept s t) : Kept s (doPin q t) := by
  unfold Machine.doPin
  split
  · exact h
  · split
    · exact h.failDesc
    · dsimp only
      split
      · exact h.failDesc
      · exact .ite (fun _ => h.failDesc) fun _ => h.failDesc.setBinding

theorem Kept.doUnpin {q : Fin 4096} (h : Kept s t) : Kept s (doUnpin q t) := by
  unfold Machine.doUnpin
  split
  · exact h
  · split
    · exact h.failDesc
    · dsimp only
      split
      · exact h.failDesc.setBinding
      · exact h.failDesc

theorem Kept.dropBindings (h : Kept s t) : Kept s (dropBindings t) := by
  unfold Machine.dropBindings
  exact h.foldl fun h' => (h'.foldl Kept.writeBack).setSk


/-! ## Operations of queues -/

theorem Kept.settleWaits (h : Kept s t) : Kept s (settleWaits t) := by
  unfold Machine.settleWaits
  exact h.queues

theorem Kept.flushQueue {q : Fin 4096} (h : Kept s t) : Kept s (flushQueue t q) := by
  unfold Machine.flushQueue
  refine h.foldl fun h' => ?_
  split
  · exact h'.flushBinding
  · exact h'

theorem Kept.settleFence {q : Fin 4096} (h : Kept s t) : Kept s (settleFence t q) := by
  unfold Machine.settleFence
  split
  · exact .ite (fun _ => (Kept.ite (fun _ => h.flushQueue) fun _ => h).ends) fun _ => h
  · exact h

theorem Kept.doWait {q : Fin 4096} (h : Kept s t) : Kept s (doWait q t) := by
  unfold Machine.doWait
  split
  · exact h
  · exact .ite (fun _ => h.failDesc) fun _ => .ite (fun _ => h.failDesc) fun _ => h.startDesc.settleWaits

theorem Kept.doFence {q : Fin 4096} (h : Kept s t) : Kept s (doFence q t) := by
  unfold Machine.doFence
  split
  · exact h
  · exact .ite (fun _ => h.failDesc) fun _ => h.startDesc.settleFence

theorem Kept.doMark {q : Fin 4096} (h : Kept s t) : Kept s (doMark q t) := by
  unfold Machine.doMark
  split
  · exact h.failDesc
  · split
    · exact h
    · exact .ite (fun _ => h.startDesc.finish) fun _ => .ite (fun _ => h.startDesc.finish.setQ) fun _ =>
        h.startDesc.finish

theorem Kept.doResume {q : Fin 4096} (h : Kept s t) : Kept s (doResume q t) := by
  unfold Machine.doResume
  split
  · exact h
  · dsimp only
    split
    · exact h.startDesc.finish
    · split
      · exact h.startDesc.finish
      · split
        · exact h.startDesc.finish
        · exact .ite (fun _ => h.startDesc.finish.abandonWork) fun _ => h.startDesc.finish.resumeWork

theorem Kept.learn {phase : Nat} {spin : Nat} {stack : Nat} {net : Nat}
    (h : Kept s t) : Kept s (learn t phase spin stack net) := by
  unfold Machine.learn
  split
  · exact h.setPwr
  · exact h

theorem Kept.doDescriptorComplete {q : Fin 4096} {spin : Nat} {stack : Nat} {net : Nat}
    (h : Kept s t) : Kept s (doDescriptorComplete q spin stack net t) := by
  unfold Machine.doDescriptorComplete
  split
  · exact h
  · split
    · exact h
    · split
      · exact h.countDesc.learn.settleFence.settleWaits
      · exact h

theorem Kept.doQueueRelease {q : Fin 4096} (h : Kept s t) : Kept s (doQueueRelease q t) := by
  unfold Machine.doQueueRelease
  exact h.releaseQueue

theorem Kept.doResetSeq {q : Fin 4096} (h : Kept s t) : Kept s (doResetSeq q t) := by
  unfold Machine.doResetSeq
  exact .ite (fun _ => h.setQ) fun _ => h

theorem Kept.doQueueCommit {q : Fin 4096} (h : Kept s t) : Kept s (doQueueCommit q t) := by
  unfold Machine.doQueueCommit
  exact .ite (fun _ => h.setQ) fun _ => .ite (fun _ => h.setQ) fun _ => h.setQ

theorem Kept.doAcceptanceResume {q : Fin 4096} (h : Kept s t) : Kept s (doAcceptanceResume q t) := by
  unfold Machine.doAcceptanceResume
  exact .ite (fun _ => h.runAcceptance) fun _ => h

theorem Kept.doMirrorRebuildComplete (h : Kept s t) : Kept s (doMirrorRebuildComplete t) := by
  unfold Machine.doMirrorRebuildComplete
  split
  · exact h
  · dsimp only
    split
    · exact h
    · exact h.jrn.record


/-! ## Table updates -/

theorem Kept.notifyUpdate {u : TUpdate} {st : Status} (h : Kept s t) : Kept s (notifyUpdate t u st) := by
  unfold Machine.notifyUpdate
  exact h.notify

theorem Kept.doTableUpdate {q : Fin 4096} (h : Kept s t) : Kept s (doTableUpdate q t) := by
  unfold Machine.doTableUpdate
  split
  · exact h
  · dsimp only
    split
    · exact h
    · split
      · exact h.startDesc.finish.notifyUpdate
      · exact h.startDesc.setTrans (by rfl)

theorem Kept.markHolders {old : Trans} {id : Fin 4096 × Nat} (h : Kept s t) : Kept s (markHolders t old id) := by
  unfold Machine.markHolders
  exact h.same (by rfl)

theorem Kept.evictChanged {id : Fin 4096 × Nat} (h : Kept s t) : Kept s (evictChanged t id) := by
  unfold Machine.evictChanged
  exact h.skeins.foldl fun h' => h'.foldl Kept.evict

theorem Kept.applyUpdate {u : TUpdate} (h : Kept s t) : Kept s (applyUpdate t u) := by
  unfold Machine.applyUpdate
  exact (h.setTrans (by rfl)).skeins.markHolders.evictChanged

theorem Kept.doTableUpdateApply {q : Fin 4096} (h : Kept s t) : Kept s (doTableUpdateApply q t) := by
  unfold Machine.doTableUpdateApply
  split
  · exact h
  · exact .ite (fun _ => h.applyUpdate) fun _ => h

theorem Kept.doTableUpdateComplete {q : Fin 4096} (h : Kept s t) : Kept s (doTableUpdateComplete q t) := by
  unfold Machine.doTableUpdateComplete
  split
  · exact h
  · exact .ite (fun _ => h) fun _ => ((h.setTrans (by rfl)).setSec (by rfl)).finish.notifyUpdate


/-! ## Sweeps -/

theorem Kept.distTouch {segs : List Seg} {a : Nat} {n : Nat} {wr : Bool}
    (h : Kept s t) : Kept s (distTouch t segs a n wr) := by
  unfold Machine.distTouch
  exact h.foldl fun h' => .ite (fun _ => h'.reelTouch) fun _ => h'.reelDrop

theorem Kept.dropPlanes {w : Sweep} (h : Kept s t) : Kept s (dropPlanes t w) := by
  unfold Machine.dropPlanes
  exact (h.foldl Kept.reelDrop).distTouch

theorem Kept.admitSweep {w : Sweep} (h : Kept s t) : Kept s (admitSweep t w) := by
  unfold Machine.admitSweep
  split
  · exact .ite (fun _ => h.poisonRecord.failDesc) fun _ => .ite (fun _ => h.distTouch.failDesc) fun _ =>
      h.distTouch.walkSegs.startDesc.dropPlanes.sweeps
  · exact h.walkSegs.startDesc.dropPlanes.sweeps

theorem Kept.dispatchSweep {q : Fin 4096} {type : Nat} {mine : Nat → Bool}
    (h : Kept s t) : Kept s (dispatchSweep q type mine t) := by
  unfold Machine.dispatchSweep
  split
  · exact h
  · dsimp only
    split
    · exact .ite (fun _ => h.failDesc) fun _ => h
    · split
      · exact .ite (fun _ => h.walkFirst.failDesc) fun _ => h
      · split
        · exact .ite (fun _ => h.poisonRecord.failDesc) fun _ => h
        · split
          · exact h
          · split
            · split
              · exact h.distTouch.failDesc
              · split
                · exact h.distTouch.failDesc
                · split
                  · exact h.distTouch.walkFirst.failDesc
                  · exact h.distTouch.admitSweep
            · split
              · split
                · exact h.distTouch.failDesc
                · split
                  · exact h.distTouch.failDesc
                  · split
                    · exact h.distTouch.walkFirst.failDesc
                    · exact h.distTouch.admitSweep
              · split
                · exact h.distTouch.failDesc
                · split
                  · exact h.distTouch.failDesc
                  · split
                    · exact h.distTouch.walkFirst.failDesc
                    · exact h.distTouch.admitSweep

theorem Kept.doAdamw {q : Fin 4096} (h : Kept s t) : Kept s (doAdamw q t) := by
  unfold Machine.doAdamw
  exact h.dispatchSweep

theorem Kept.doLion {q : Fin 4096} (h : Kept s t) : Kept s (doLion q t) := by
  unfold Machine.doLion
  exact h.dispatchSweep

theorem Kept.doSgdWithMomentum {q : Fin 4096} (h : Kept s t) : Kept s (doSgdWithMomentum q t) := by
  unfold Machine.doSgdWithMomentum
  exact h.dispatchSweep

theorem Kept.doCheck {q : Fin 4096} (h : Kept s t) : Kept s (doCheck q t) := by
  unfold Machine.doCheck
  exact h.dispatchSweep

theorem Kept.doDigest {q : Fin 4096} (h : Kept s t) : Kept s (doDigest q t) := by
  unfold Machine.doDigest
  exact h.dispatchSweep

theorem Kept.setSweep {w : Sweep} {w' : Sweep} (h : Kept s t) : Kept s (setSweep t w w') := by
  unfold Machine.setSweep
  exact h.sweeps

theorem Kept.runUnit {w : Sweep} {g : SweepSeg} (h : Kept s t) : Kept s (runUnit t w g) := by
  unfold Machine.runUnit
  exact .ite (fun _ => h.setSweep) fun _ => .ite (fun _ => h.distTouch.poisonRecord.setSweep) fun _ =>
      ((h.distTouch.foldl Kept.reelDrop).applyWrites.setMem (by rfl)).setSweep

theorem Kept.serveDistaff {q : Fin 4096} {k : Fin 8} (h : Kept s t) : Kept s (serveDistaff t q k) := by
  unfold Machine.serveDistaff
  exact h.setMem (by rfl)

theorem Kept.doSweepUnitDone {q : Fin 4096} {k : Fin 8} (h : Kept s t) : Kept s (doSweepUnitDone q k t) := by
  unfold Machine.doSweepUnitDone
  split
  · exact h
  · exact .ite (fun _ => h.serveDistaff.runUnit) fun _ => h

theorem Kept.failSweep {w : Sweep} (h : Kept s t) : Kept s (failSweep t w) := by
  unfold Machine.failSweep
  exact h.poisonRecord.finish

theorem Kept.distWrites {segs : List Seg} {ws : List (Nat × List Byte)}
    (h : Kept s t) : Kept s (distWrites t segs ws) := by
  unfold Machine.distWrites
  exact (h.foldl Kept.distTouch).applyWrites

theorem Kept.writeAndEnd {w : Sweep} {segs : List Seg} {ws : List (Nat × List Byte)} {fl : Flags}
    (h : Kept s t) : Kept s (writeAndEnd t w segs ws fl) := by
  unfold Machine.writeAndEnd
  split
  · exact h.poisonRecord.finish
  · exact h.distWrites.finish

theorem Kept.endCheck {w : Sweep} (h : Kept s t) : Kept s (endCheck t w) := by
  unfold Machine.endCheck
  dsimp only
  split
  · exact .ite (fun _ => h.finish) fun _ => h.ply
  · exact h.writeAndEnd

theorem Kept.endDigest {w : Sweep} (h : Kept s t) : Kept s (endDigest t w) := by
  unfold Machine.endDigest
  dsimp only
  split
  · exact .ite (fun _ => h.writeAndEnd) fun _ => .ite (fun _ => h.finish) fun _ => h.setSlot.ply
  · exact h.writeAndEnd

theorem Kept.doSweepComplete {q : Fin 4096} (h : Kept s t) : Kept s (doSweepComplete q t) := by
  unfold Machine.doSweepComplete
  split
  · exact h
  · refine .ite (fun _ => h) fun _ => .ite (fun _ => h) fun _ => .ite (fun _ => h) fun _ => .ite
      (fun _ => h.finish.sweeps.bindRetryAll) fun _ => ?_
    dsimp only
    split
    · refine .ite (fun _ => h.dropPlanes.finish.sweeps.bindRetryAll) fun _ => ?_
      split
      · exact h.dropPlanes.poisonRecord.finish.sweeps.bindRetryAll
      · exact h.dropPlanes.writeAndEnd.sweeps.bindRetryAll
    · exact .ite (fun _ => h.dropPlanes.failSweep.sweeps.bindRetryAll) fun _ =>
        h.dropPlanes.endCheck.sweeps.bindRetryAll
    · exact .ite (fun _ => h.dropPlanes.failSweep.sweeps.bindRetryAll) fun _ =>
        h.dropPlanes.endDigest.sweeps.bindRetryAll

theorem Kept.doSweepRecovery {k : Fin 8} (h : Kept s t) : Kept s (doSweepRecovery k t) := by
  unfold Machine.doSweepRecovery
  exact .ite (fun _ => h.setMem (by rfl)) fun _ => h


/-! ## Recovery -/

theorem Kept.spoil {m : Move} (h : Kept s t) : Kept s (spoil t m) := by
  unfold Machine.spoil
  exact h.applyWrites.free

theorem Kept.cutMoves {f : Move → Bool} (h : Kept s t) : Kept s (cutMoves t f) := by
  unfold Machine.cutMoves
  exact (h.foldl Kept.spoil).skeins

theorem Kept.dropMoves {f : Move → Bool} (h : Kept s t) : Kept s (dropMoves t f) := by
  unfold Machine.dropMoves
  exact h.skeins

theorem Kept.redo {q : Fin 4096} {seq : Nat} {fl : Flags} (h : Kept s t) : Kept s (redo t q seq fl) := by
  unfold Machine.redo
  exact .ite (fun _ => h.finish) fun _ => h.setDesc

theorem Kept.markReplayed {q : Fin 4096} {seq : Nat} (h : Kept s t) : Kept s (markReplayed t q seq) := by
  unfold Machine.markReplayed
  exact h.setDesc

theorem Kept.haltSpindle {p : Fin 136} (h : Kept s t) : Kept s (haltSpindle t p) := by
  unfold Machine.haltSpindle
  exact h.setSp (by rfl)

theorem Kept.boundaries {ps : List (Fin 136)} (h : Kept s t) : Kept s (boundaries t ps) := by
  unfold Machine.boundaries
  exact h.foldl Kept.boundary

theorem Kept.stopShares {q : Fin 4096} {seq : Nat} (h : Kept s t) : Kept s (stopShares t q seq) := by
  unfold Machine.stopShares
  exact h.cutMoves.foldl Kept.haltSpindle

theorem Kept.stopKernel {q : Fin 4096} {seq : Nat} (h : Kept s t) : Kept s (stopKernel t q seq) := by
  unfold Machine.stopKernel
  exact ((h.stopShares.kernels.setTransFilter (by exact ⟨_, rfl⟩)).foldl Kept.dropFault).boundaries

theorem Kept.interruptKernel {q : Fin 4096} {seq : Nat} (h : Kept s t) : Kept s (interruptKernel t q seq) := by
  unfold Machine.interruptKernel
  exact .ite (fun _ => h.stopKernel.redo) fun _ => h.stopKernel.finish

theorem Kept.endShares {k : Kernel} {st : Status} {gone : List (Nat × Fin 128 × Flags)}
    (h : Kept s t) : Kept s (endShares t k st gone) := by
  unfold Machine.endShares
  exact h.setKernel.settleKernel

theorem Kept.replayShares {k : Kernel} {gone : List (Nat × Fin 128 × Flags)}
    (h : Kept s t) : Kept s (replayShares t k gone) := by
  unfold Machine.replayShares
  split
  · exact h.endShares
  · dsimp only
    split
    · exact h.markReplayed.setKernel
    · exact h.markReplayed.endShares

theorem Kept.resetKernel {k : Kernel} (h : Kept s t) : Kept s (resetKernel t k) := by
  unfold Machine.resetKernel
  exact .ite (fun _ => h.interruptKernel) fun _ => .ite (fun _ => h.setKernel) fun _ => h.setKernel.replayShares

theorem Kept.finishMove {m : Move} {fl : Flags} (h : Kept s t) : Kept s (finishMove t m fl) := by
  unfold Machine.finishMove
  split
  · exact h
  · exact .ite (fun _ => h.interruptKernel) fun _ => .ite (fun _ => h.redo) fun _ => h.reportMove.countMove

theorem Kept.interruptMove {m : Move} (h : Kept s t) : Kept s (interruptMove t m) := by
  unfold Machine.interruptMove
  exact h.spoil.finishMove

theorem Kept.interruptFlyer {k : Fin 8} {f : Fin 4} (h : Kept s t) : Kept s (interruptFlyer t k f) := by
  unfold Machine.interruptFlyer
  dsimp only
  split
  · exact h
  · exact h.setSk.interruptMove

theorem Kept.cutKernel {k : Kernel} (h : Kept s t) : Kept s (cutKernel t k) := by
  unfold Machine.cutKernel
  exact h.stopShares.setKernel

theorem Kept.undoDispatch {m : Move} (h : Kept s t) : Kept s (undoDispatch t m) := by
  unfold Machine.undoDispatch
  split
  · exact h.setDesc
  · exact h

theorem Kept.parkMoves (h : Kept s t) : Kept s (parkMoves t) := by
  unfold Machine.parkMoves
  exact ((h.foldl Kept.spoil).foldl Kept.undoDispatch).same (by rfl)

theorem Kept.rerunMarks (h : Kept s t) : Kept s (rerunMarks t) := by
  unfold Machine.rerunMarks
  exact ((h.foldl fun h' => .ite (fun _ => h') fun _ => h'.markReplayed).foldl Kept.redo).skeins

theorem Kept.stopWork (h : Kept s t) : Kept s (stopWork t) := by
  unfold Machine.stopWork
  exact (h.queues.foldl Kept.cutKernel).parkMoves.rerunMarks

theorem Kept.closeCut (h : Kept s t) : Kept s (closeCut t) := by
  unfold Machine.closeCut
  exact h.foldl Kept.dropFault

theorem Kept.finishWork (h : Kept s t) : Kept s (finishWork t) := by
  unfold Machine.finishWork
  exact (((h.closeCut.setMgmt (by rfl)).foldl Kept.resetKernel).foldl Kept.finishMove).boundaries

theorem Kept.interruptAll (h : Kept s t) : Kept s (interruptAll t) := by
  unfold Machine.interruptAll
  exact h.stopWork.finishWork

theorem Kept.doMapChangeApply {k : Fin 8} (h : Kept s t) : Kept s (doMapChangeApply k t) := by
  unfold Machine.doMapChangeApply
  exact .ite (fun _ => h) fun _ => h.settleMap

theorem Kept.doSpindleFail {p : Fin 136} (h : Kept s t) : Kept s (doSpindleFail p t) := by
  unfold Machine.doSpindleFail
  refine .ite (fun _ => .ite (fun _ => h.setSk.record) fun _ => h) fun _ => ?_
  refine (Kept.setSpWf ?_ fun _ => rfl).boundaries.record
  split
  · exact h.setSk.interruptKernel
  · exact h.setSk

theorem Kept.doFlyerFail {k : Fin 8} {f : Fin 4} (h : Kept s t) : Kept s (doFlyerFail k f t) := by
  unfold Machine.doFlyerFail
  exact .ite (fun _ => h) fun _ => h.setSk.interruptFlyer.setSk.record

theorem Kept.doD2dLinkRetry (h : Kept s t) : Kept s (doD2dLinkRetry t) := by
  unfold Machine.doD2dLinkRetry
  exact h.setMgmt (by rfl)


/-! ## Memory events -/

theorem Kept.beginMigration {g : Migration} (h : Kept s t) : Kept s (beginMigration t g) := by
  unfold Machine.beginMigration
  exact .ite (fun _ => h.setMem (by rfl)) fun _ => h.setMem (by rfl)

theorem Kept.startMigration {g : Migration} (h : Kept s t) : Kept s (startMigration t g) := by
  unfold Machine.startMigration
  split
  · exact h.beginMigration
  · exact h.setMem (by rfl)

theorem Kept.mapOut {c : Fin 256} {cause : Nat} (h : Kept s t) : Kept s (mapOut t c cause) := by
  unfold Machine.mapOut
  exact .ite (fun _ => h) fun _ => .ite (fun _ => h.setMem (by rfl)) fun _ => h.startMigration

theorem Kept.memPartRecord {unit : Nat} {index : Nat} {cause : Nat}
    (h : Kept s t) : Kept s (memPartRecord t unit index cause) := by
  unfold Machine.memPartRecord
  exact h.record

theorem Kept.needRedo {k : Fin 8} (h : Kept s t) : Kept s (needRedo t k) := by
  unfold Machine.needRedo
  exact (h.foldl Kept.markReplayed).setMem (by rfl)

theorem Kept.checkLimits {c : Fin 256} (h : Kept s t) : Kept s (checkLimits t c) := by
  unfold Machine.checkLimits
  split
  · exact .ite (fun _ => h.memPartRecord.mapOut) fun _ => h
  · exact h

theorem Kept.taintAt {keys : List Nat} (h : Kept s t) : Kept s (taintAt t keys) := by
  unfold Machine.taintAt
  exact h.setMem (by rfl)

theorem Kept.doPatrolScrub {c : Fin 256} {ces : Nat} {ues : List Nat}
    (h : Kept s t) : Kept s (doPatrolScrub c ces ues t) := by
  unfold Machine.doPatrolScrub
  exact .ite (fun _ => h) fun _ => (h.setMem (by rfl)).taintAt.checkLimits

theorem Kept.holdReplays {c : Fin 256} {ws : List (Fin 4096 × Nat)}
    (h : Kept s t) : Kept s (holdReplays t c ws) := by
  unfold Machine.holdReplays
  exact (h.foldl Kept.setDesc).skeins

theorem Kept.interruptChan {c : Fin 256} (h : Kept s t) : Kept s (interruptChan t c) := by
  unfold Machine.interruptChan
  refine Kept.needRedo ?_
  refine Kept.skeins ?_
  refine Kept.holdReplays ?_
  refine (h.foldl Kept.interruptKernel).foldl fun h' => ?_
  refine h'.foldl fun h'' => ?_
  dsimp only
  split
  · exact .ite (fun _ => h''.interruptFlyer) fun _ => h''
  · exact h''

theorem Kept.releaseMoves (h : Kept s t) : Kept s (releaseMoves t) := by
  unfold Machine.releaseMoves
  exact h.skeins

theorem Kept.doChannelFault {c : Fin 256} (h : Kept s t) : Kept s (doChannelFault c t) := by
  unfold Machine.doChannelFault
  exact .ite (fun _ => h) fun _ => .ite (fun _ => h.memPartRecord.mapOut.interruptChan) fun _ =>
      h.memPartRecord.mapOut

theorem Kept.doDistaffFail {c : Fin 256} (h : Kept s t) : Kept s (doDistaffFail c t) := by
  unfold Machine.doDistaffFail
  exact .ite (fun _ => h) fun _ => (h.setMem (by rfl)).needRedo.memPartRecord.mapOut

theorem Kept.holdOrder {w : Word} (h : Kept s t) : Kept s (holdOrder t w) := by
  unfold Machine.holdOrder
  exact h.setMem (by rfl)

theorem Kept.orderOut {c : Fin 256} (h : Kept s t) : Kept s (orderOut t c) := by
  unfold Machine.orderOut
  exact .ite (fun _ => h.memPartRecord.mapOut) fun _ => h

theorem Kept.doMapOut {c : Fin 256} (h : Kept s t) : Kept s (doMapOut c t) := by
  unfold Machine.doMapOut
  exact .ite (fun _ => h.holdOrder) fun _ => h.orderOut

theorem Kept.rebuildNow (h : Kept s t) : Kept s (rebuildNow t) := by
  unfold Machine.rebuildNow
  split
  · split <;> exact h.setMem (by rfl)
  · exact h

theorem Kept.doRebuild (h : Kept s t) : Kept s (doRebuild t) := by
  unfold Machine.doRebuild
  exact .ite (fun _ => h.holdOrder) fun _ => h.rebuildNow

theorem Kept.afterMigration {n : Nat} (h : Kept s t) : Kept s (afterMigration n t) := by
  induction n generalizing t with
  | zero => exact h
  | succ n ih =>
    unfold Machine.afterMigration
    refine .ite (fun _ => h.releaseMoves) fun _ => ?_
    split
    · exact ih (h.setMem (by rfl)).beginMigration
    · exact ih (.ite (fun _ => (Kept.ite (fun _ => (h.setMem (by rfl)).orderOut) fun _ =>
        h.setMem (by rfl)).rebuildNow) fun _ =>
        .ite (fun _ => (h.setMem (by rfl)).orderOut) fun _ => h.setMem (by rfl))
    · exact h.releaseMoves

theorem Kept.doMigrationGranuleCopy {ues : List Nat} (h : Kept s t) : Kept s (doMigrationGranuleCopy ues t) := by
  unfold Machine.doMigrationGranuleCopy
  split
  · exact h
  · dsimp only
    split
    · exact h
    · split
      · exact (h.setMem (by rfl)).releaseMoves.checkLimits
      · exact (h.setMem (by rfl)).releaseMoves

theorem Kept.cutBindings {k : Fin 8} (h : Kept s t) : Kept s (cutBindings t k) := by
  unfold Machine.cutBindings
  exact (h.setMem (by rfl)).skeins

theorem cutAbove_cells (m : Mem) (k : Fin 8) : ∃ f, ((m.cutAbove k).resized).cells = m.cells.filter f := ⟨_, rfl⟩

theorem Kept.doMigrationEnd (h : Kept s t) : Kept s (doMigrationEnd t) := by
  unfold Machine.doMigrationEnd
  refine .ite (fun _ => h) fun _ => ?_
  split
  · exact h
  · next g _ =>
    refine Kept.afterMigration (Kept.record ?_)
    by_cases hj : g.joins = true
    · rw [if_pos hj, if_pos hj]; exact h.setMem (by rfl)
    · rw [if_neg hj, if_neg hj]; exact (h.setMemFilter (by exact ⟨_, rfl⟩)).cutBindings

theorem Kept.doChannelRestoreJoin {c : Fin 256} (h : Kept s t) : Kept s (doChannelRestoreJoin c t) := by
  unfold Machine.doChannelRestoreJoin
  exact .ite (fun _ => h.startMigration) fun _ => h

theorem Kept.doMemErrCommit (h : Kept s t) : Kept s (doMemErrCommit t) := by
  unfold Machine.doMemErrCommit
  exact .ite (fun _ => h.setMem (by rfl)) fun _ => .ite (fun _ => h.setMem (by rfl)) fun _ => h.setMem (by rfl)

theorem Kept.doCreelQuotaCommit (h : Kept s t) : Kept s (doCreelQuotaCommit t) := by
  unfold Machine.doCreelQuotaCommit
  exact .ite (fun _ => h.same (by rfl)) fun _ => h.same (by rfl)

theorem Kept.doKeepWaysWrite {k : Fin 8} {w : Fin 16} (h : Kept s t) : Kept s (doKeepWaysWrite k w t) := by
  unfold Machine.doKeepWaysWrite
  exact h.setMem (by rfl)


/-! ## Groups -/

theorem Kept.addSegs {segs : List Seg} {n a : Nat} {bs : List Byte}
    (h : Kept s t) : Kept s (addSegs t segs n a bs).1 := by
  unfold Machine.addSegs
  split
  · exact h
  · exact (h.foldl addTouch).writeSegs

theorem Kept.setPeer {e : Fin 64} {x : Peer} (h : Kept s t) : Kept s (State.setPeer t e x) := by
  unfold Machine.State.setPeer
  exact h.ply

theorem Kept.dropOp {o : GOp} (h : Kept s t) : Kept s (dropOp t o) := by
  unfold Machine.dropOp
  exact h.ply

theorem Kept.setOp {o : GOp} {o' : GOp} (h : Kept s t) : Kept s (setOp t o o') := by
  unfold Machine.setOp
  exact h.ply

theorem Kept.endOp {o : GOp} {st : Status} (h : Kept s t) : Kept s (endOp t o st) := by
  unfold Machine.endOp
  exact h.dropOp.finish

theorem Kept.matched {k : Fin 8} {o : GOp} (h : Kept s t) : Kept s (matched t k o) := by
  unfold Machine.matched
  exact h.setSlot

theorem Kept.groupRecord {k : Fin 8} {kind : Nat} {st : Status} {step : Nat} {named : Nat} {info : Nat}
    (h : Kept s t) : Kept s (groupRecord t k kind st step named info) := by
  unfold Machine.groupRecord
  exact h.addRecord

theorem Kept.masterRecord {k : Fin 8} {kind : Nat} {st : Status} {step : Nat} {named : Nat} {info : Nat}
    (h : Kept s t) : Kept s (masterRecord t k kind st step named info) := by
  unfold Machine.masterRecord
  exact .ite (fun _ => h.groupRecord) fun _ => h

theorem Kept.applyPaces (h : Kept s t) : Kept s (applyPaces t) := by
  unfold Machine.applyPaces
  exact h.skeins

theorem Kept.endPace {k : Fin 8} (h : Kept s t) : Kept s (endPace t k) := by
  unfold Machine.endPace
  exact h.setSlot.applyPaces

theorem Kept.setPace {k : Fin 8} {rate : Nat} {dur : Nat} (h : Kept s t) : Kept s (setPace t k rate dur) := by
  unfold Machine.setPace
  exact h.setSlot.applyPaces

theorem Kept.doCancelPace {x : Fin 8} (h : Kept s t) : Kept s (doCancelPace x t) := by
  unfold Machine.doCancelPace
  exact h.foldl Kept.endPace

theorem Kept.doPaceExpiry {k : Fin 8} (h : Kept s t) : Kept s (doPaceExpiry k t) := by
  unfold Machine.doPaceExpiry
  exact .ite (fun _ => h.endPace) fun _ => h

theorem Kept.doPeerCommit (h : Kept s t) : Kept s (doPeerCommit t) := by
  unfold Machine.doPeerCommit
  exact .ite (fun _ => h.ply) fun _ => .ite (fun _ => h.ply) fun _ => h.ply

theorem Kept.sendPace {k : Fin 8} {lagger : Nat} {rate : Nat} {dur : Nat} {dst : List Nat}
    (h : Kept s t) : Kept s (sendPace t k lagger rate dur dst) := by
  unfold Machine.sendPace
  refine h.setSlot.foldl fun h' => ?_
  split
  · exact h'.setPace
  · split
    · exact h'.post
    · exact h'

theorem Kept.doPlyCommit {k : Fin 8} (h : Kept s t) : Kept s (doPlyCommit k t) := by
  unfold Machine.doPlyCommit
  exact .ite (fun _ => h.setSlot) fun _ => .ite (fun _ => h.setSlot) fun _ => .ite (fun _ => (Kept.ite (fun _ =>
      h.sendPace) fun _ => h).setSlot.endPace) fun _ => h.setSlot

theorem Kept.doGroupReady {k : Fin 8} {parts : List GroupPart}
    (h : Kept s t) : Kept s (doGroupReady k parts t) := by
  unfold Machine.doGroupReady
  exact .ite (fun _ => h) fun _ => .ite (fun _ => h) fun _ => .ite (fun _ => h.setSlot) fun _ => h.masterRecord

theorem Kept.collTable {q : Fin 4096} {c : PlyCfg} {b : CollBody} (h : Kept s t) : Kept s (collTable t q c b) := by
  unfold Machine.collTable
  dsimp only
  split
  · exact h.walkSegs.touchSegs
  · exact h

theorem Kept.dispatchColl {q : Fin 4096} {mine : CollBody → Bool}
    (h : Kept s t) : Kept s (dispatchColl q mine t) := by
  unfold Machine.dispatchColl
  split
  · exact h
  · dsimp only
    split
    · exact h
    · split
      · exact h.failDesc
      · split
        · exact h.failDesc
        · split
          · exact h.failDesc
          · split
            · exact h.failDesc
            · split
              · exact h.walkFirst.failDesc
              · exact .ite (fun _ => h.failDesc) fun _ => .ite (fun _ => h) fun _ =>
                  h.setSlot.collTable.walkSegs.startDesc.ply

theorem Kept.doAllReduce {q : Fin 4096} (h : Kept s t) : Kept s (doAllReduce q t) := by
  unfold Machine.doAllReduce
  exact h.dispatchColl

theorem Kept.doReduceScatter {q : Fin 4096} (h : Kept s t) : Kept s (doReduceScatter q t) := by
  unfold Machine.doReduceScatter
  exact h.dispatchColl

theorem Kept.doAllGather {q : Fin 4096} (h : Kept s t) : Kept s (doAllGather q t) := by
  unfold Machine.doAllGather
  exact h.dispatchColl

theorem Kept.doBroadcast {q : Fin 4096} (h : Kept s t) : Kept s (doBroadcast q t) := by
  unfold Machine.doBroadcast
  exact h.dispatchColl

theorem Kept.doAllToAll {q : Fin 4096} (h : Kept s t) : Kept s (doAllToAll q t) := by
  unfold Machine.doAllToAll
  exact h.dispatchColl

theorem Kept.doBarrier {q : Fin 4096} (h : Kept s t) : Kept s (doBarrier q t) := by
  unfold Machine.doBarrier
  exact h.dispatchColl

theorem Kept.doCheckpointBarrier {q : Fin 4096} (h : Kept s t) : Kept s (doCheckpointBarrier q t) := by
  unfold Machine.doCheckpointBarrier
  exact h.dispatchColl

theorem Kept.settleColl {k : Fin 8} {o : GOp} {cop : Nat} (h : Kept s t) : Kept s (settleColl t k o cop) := by
  unfold Machine.settleColl
  split
  · exact h
  · dsimp only
    split
    · exact h.endOp
    · exact .ite (fun _ => h.poisonRecord.endOp) fun _ => (h.touchSegs.foldl
        Kept.reelTouch).poisonRecord.writeSegs.endOp

theorem Kept.beginData {k : Fin 8} {o : GOp} {cop : Nat} {epoch : BitVec 32}
    (h : Kept s t) : Kept s (beginData t k o cop epoch) := by
  unfold Machine.beginData
  exact .ite (fun _ => (Kept.ite (fun _ => h.setSlot) fun _ => h).endOp) fun _ => .ite (fun _ => h.endOp) fun _ =>
      .ite (fun _ => h.poisonRecord.endOp) fun _ => (h.foldl Kept.touchSegs).setOp.settleColl

theorem Kept.doSignatureRoundComplete {k : Fin 8} {parts : List SigPart}
    (h : Kept s t) : Kept s (doSignatureRoundComplete k parts t) := by
  unfold Machine.doSignatureRoundComplete
  dsimp only
  split
  · exact h
  · split
    · exact .ite (fun _ => h) fun _ => .ite (fun _ => h.matched.endOp) fun _ => .ite (fun _ =>
        h.matched.endOp.masterRecord) fun _ => .ite (fun _ => h.matched.endOp) fun _ => h.matched.beginData
    · exact h

theorem Kept.runXfer {o : GOp} {x : Xfer} {data : List Byte} {u : State} {r : Bool × Flags} (h : Kept s t)
    (e : runXfer t o x data = some (u, r)) : Kept s u := by
  unfold Machine.runXfer at e
  cases x with
  | send => dsimp only at e; split at e <;> cases e; exact h
  | add a n =>
    dsimp only at e
    split at e
    · cases e
    · split at e
      · obtain rfl : _ = u := congrArg Prod.fst (Option.some.inj e); exact h.addSegs
      · cases e
  | store a n =>
    dsimp only at e
    split at e
    · cases e
    · obtain rfl : _ = u := congrArg Prod.fst (Option.some.inj e); exact (h.foldl reelTouch).writeSegs

theorem Kept.doCollectiveChunkAcked {k : Fin 8} {data : List Byte} (h : Kept s t) :
    Kept s (doCollectiveChunkAcked k data t) := by
  unfold Machine.doCollectiveChunkAcked
  split
  · exact h
  · split
    · refine .ite (fun _ => h) fun _ => .ite (fun _ => h.endOp) fun _ => ?_
      split
      · exact h
      · next e => exact .ite (fun _ => (h.runXfer e).setOp.settleColl) fun _ => (h.runXfer e).poisonRecord.endOp
    · exact h

theorem Kept.writeOp {o : GOp} {ws : List (Nat × List Byte)} {st : Status}
    (h : Kept s t) : Kept s (writeOp t o ws st) := by
  unfold Machine.writeOp
  exact .ite (fun _ => h.endOp) fun _ => .ite (fun _ => h.poisonRecord.endOp) fun _ => h.distWrites.endOp

theorem Kept.doSkipDecision {k : Fin 8} {parts : List SkipPart}
    (h : Kept s t) : Kept s (doSkipDecision k parts t) := by
  unfold Machine.doSkipDecision
  dsimp only
  split
  · exact h
  · exact .ite (fun _ => h) fun _ => .ite (fun _ => h.matched.endOp) fun _ => h.matched.writeOp

theorem Kept.digestRecord {k : Fin 8} {step : Nat} {g : List DigestPart}
    (h : Kept s t) : Kept s (digestRecord t k step g) := by
  unfold Machine.digestRecord
  exact h.groupRecord

theorem Kept.doDigestComparison {k : Fin 8} {parts : List DigestPart}
    (h : Kept s t) : Kept s (doDigestComparison k parts t) := by
  unfold Machine.doDigestComparison
  dsimp only
  split
  · exact h
  · exact .ite (fun _ => h) fun _ => (Kept.ite (fun _ => h.matched.foldl Kept.digestRecord) fun _ =>
      h.matched).writeOp

theorem Kept.failMember {k : Fin 8} {i : Nat} (h : Kept s t) : Kept s (failMember t k i) := by
  unfold Machine.failMember
  dsimp only
  split
  · exact h
  · refine Kept.masterRecord ?_
    refine Kept.foldl ?_ fun h' => ?_
    · split
      · exact h.setSlot.endPace.setPeer
      · exact h.setSlot.endPace
    · exact h'.endOp

theorem Kept.doMemberFail {k : Fin 8} {m : Fin 64} (h : Kept s t) : Kept s (doMemberFail k m t) := by
  unfold Machine.doMemberFail
  exact h.failMember

theorem Kept.doPlyFail {k : Fin 8} {m : Fin 64} (h : Kept s t) : Kept s (doPlyFail k m t) := by
  unfold Machine.doPlyFail
  exact h.failMember

theorem Kept.failStrand {n : Fin 2048} (h : Kept s t) : Kept s (failStrand t n) := by
  unfold Machine.failStrand
  refine h.foldl fun h' => ?_
  split
  · exact h'.failMember
  · exact h'

theorem Kept.doAdoptionAdmit {k : Fin 8} {epoch : GroupEpoch}
    (h : Kept s t) : Kept s (doAdoptionAdmit k epoch t) := by
  unfold Machine.doAdoptionAdmit
  exact .ite (fun _ => h) fun _ => .ite (fun _ => h.setSlot) fun _ => h.masterRecord

theorem Kept.takeLag {k : Fin 8} {i : Nat} {rate : Nat} {dur : Nat} {cause : Nat}
    (h : Kept s t) : Kept s (takeLag t k i rate dur cause) := by
  unfold Machine.takeLag
  dsimp only
  split
  · split
    · exact h.setSlot
    · split
      · exact h.setSlot.sendPace
      · exact .ite (fun _ => h.setSlot.sendPace) fun _ => h.setSlot
  · split
    · exact h.setSlot
    · split
      · exact h.setSlot.sendPace
      · exact .ite (fun _ => h.setSlot.sendPace) fun _ => h.setSlot

theorem Kept.lagFrame {n : Fin 2048} {w0 : Word} {w1 : Word} (h : Kept s t) : Kept s (lagFrame t n w0 w1) := by
  unfold Machine.lagFrame
  dsimp only
  split
  · split
    · exact h.setPeer
    · exact h
  · split
    · exact .ite (fun _ => h.setPeer.takeLag) fun _ => h.setPeer
    · exact .ite (fun _ => h.takeLag) fun _ => h

theorem Kept.paceFrame {n : Fin 2048} {w0 : Word} {w1 : Word} (h : Kept s t) : Kept s (paceFrame t n w0 w1) := by
  unfold Machine.paceFrame
  dsimp only
  split
  · exact h
  · exact .ite (fun _ => h.setSlot.setPace) fun _ => h

theorem Kept.doLagTrigger {k : Fin 8} {dur : BitVec 16} {recovered : Bool}
    (h : Kept s t) : Kept s (doLagTrigger k dur recovered t) := by
  unfold Machine.doLagTrigger
  dsimp only
  split
  · split
    · exact h
    · split
      · exact h.setSlot.takeLag
      · split
        · exact h.setSlot.post
        · exact h.setSlot
  · split
    · split
      · exact h
      · split
        · exact h.setSlot.takeLag
        · split
          · exact h.setSlot.post
          · exact h.setSlot
    · split
      · exact h
      · split
        · exact h.setSlot.takeLag
        · split
          · exact h.setSlot.post
          · exact h.setSlot


/-! ## Drain -/

theorem Kept.interruptDescs {q : Fin 4096} {f : Desc → Bool} (h : Kept s t) : Kept s (interruptDescs t q f) := by
  unfold Machine.interruptDescs
  exact h.foldl Kept.finish

theorem Kept.drainKernels {q : Fin 4096} (h : Kept s t) : Kept s (drainKernels t q) := by
  unfold Machine.drainKernels
  refine (h.mapSpindles fun x hx => ?_).kernels
  split
  · split <;> exact hx
  · exact hx

theorem Kept.drainImages {q : Fin 4096} (h : Kept s t) : Kept s (drainImages t q) := by
  unfold Machine.drainImages
  exact h.foldl fun h' => (h'.setTransFilter (by exact ⟨_, rfl⟩)).reportShare

theorem Kept.drainFaults {q : Fin 4096} (h : Kept s t) : Kept s (drainFaults t q) := by
  unfold Machine.drainFaults
  exact h.foldl Kept.dropFault

theorem Kept.drainMoves {q : Fin 4096} (h : Kept s t) : Kept s (drainMoves t q) := by
  unfold Machine.drainMoves
  exact (h.skeins.setMgmt (by rfl)).foldl Kept.reportMove

theorem Kept.drainUpdates {q : Fin 4096} (h : Kept s t) : Kept s (drainUpdates t q) := by
  unfold Machine.drainUpdates
  exact h.foldl fun h' => h'.finish.notifyUpdate

theorem Kept.drainRest {q : Fin 4096} (h : Kept s t) : Kept s (drainRest t q) := by
  unfold Machine.drainRest
  exact (h.same (by rfl)).bindRetryAll

theorem Kept.drainQueue {q : Fin 4096} (h : Kept s t) : Kept s (drainQueue t q) := by
  unfold Machine.drainQueue
  exact .ite (fun _ => h) fun _ => ((h.setQ.drainKernels.drainImages.drainFaults.foldl Kept.finish).foldl
      Kept.finish).drainMoves.drainUpdates.drainRest.interruptDescs.foldl Kept.settleKernel

theorem Kept.doQueueDrain {q : Fin 4096} (h : Kept s t) : Kept s (doQueueDrain q t) := by
  unfold Machine.doQueueDrain
  exact h.drainQueue

theorem Kept.doDrainComplete {q : Fin 4096} (h : Kept s t) : Kept s (doDrainComplete q t) := by
  unfold Machine.doDrainComplete
  exact .ite (fun _ => h) fun _ => .ite (fun _ => h.setQ) fun _ => h.setQ


/-! ## Strands -/

theorem Kept.sayCtrl {p : Fin 32} {o : Out} (h : Kept s t) : Kept s (sayCtrl t p o) := by
  unfold Machine.sayCtrl
  exact .ite (fun _ => h.setPort) fun _ => h.say

theorem Kept.sayAll {l : List Out} (h : Kept s t) : Kept s (State.sayAll t l) := by
  unfold Machine.State.sayAll
  exact h.foldl Kept.say

theorem Kept.sendSpdm {o : Out} (h : Kept s t) : Kept s (sendSpdm t o) := by
  unfold Machine.sendSpdm
  exact .ite (fun _ => h.say) fun _ => h.setSec (by rfl)

theorem Kept.releaseCtrl {p : Fin 32} (h : Kept s t) : Kept s (releaseCtrl t p) := by
  unfold Machine.releaseCtrl
  exact .ite (fun _ => h) fun _ => .ite (fun _ => (h.setPort.sayAll.setSec (by rfl)).sayAll) fun _ =>
      h.setPort.sayAll

theorem Kept.settlePaths (h : Kept s t) : Kept s (settlePaths t) := by
  unfold Machine.settlePaths
  exact h.twine

theorem Kept.setRma {q : Fin 4096} {seq : Nat} {f : Rma → Rma} (h : Kept s t) : Kept s (setRma t q seq f) := by
  unfold Machine.setRma
  exact h.twine

theorem Kept.endRma {r : Rma} {st : Status} (h : Kept s t) : Kept s (endRma t r st) := by
  unfold Machine.endRma
  exact .ite (fun _ => h.twine.free.finish) fun _ => h.twine.ends

theorem Kept.dropFrames {rs : List Rma} (h : Kept s t) : Kept s (dropFrames t rs) := by
  unfold Machine.dropFrames
  exact .ite (fun _ => h) fun _ => h.twine

theorem Kept.eraseRmas {f : Rma → Bool} (h : Kept s t) : Kept s (eraseRmas t f) := by
  unfold Machine.eraseRmas
  exact h.dropFrames.foldl Kept.endRma

theorem Kept.settleRmas (h : Kept s t) : Kept s (settleRmas t) := by
  unfold Machine.settleRmas
  exact h.foldl Kept.endRma

theorem Kept.endRmasOn {n : Fin 2048} {st : Status} (h : Kept s t) : Kept s (endRmasOn t n st) := by
  unfold Machine.endRmasOn
  exact h.foldl Kept.endRma

theorem Kept.openStrand {n : Fin 2048} (h : Kept s t) : Kept s (openStrand t n) := by
  unfold Machine.openStrand
  exact h.setStrand

theorem Kept.forgetStrand {n : Fin 2048} (h : Kept s t) : Kept s (forgetStrand t n) := by
  unfold Machine.forgetStrand
  exact h.queues

theorem Kept.endGroupsOn {n : Fin 2048} {st : Status} (h : Kept s t) : Kept s (endGroupsOn t n st) := by
  unfold Machine.endGroupsOn
  refine h.foldl fun h' => ?_
  split
  · split
    · exact .ite (fun _ => h'.endOp) fun _ => h'
    · exact h'
  · exact h'

theorem Kept.closeStrand {n : Fin 2048} {st : Status} (h : Kept s t) : Kept s (closeStrand t n st) := by
  unfold Machine.closeStrand
  exact h.endRmasOn.endGroupsOn.setStrand.forgetStrand

theorem Kept.loseStrand {n : Fin 2048} (h : Kept s t) : Kept s (loseStrand t n) := by
  unfold Machine.loseStrand
  exact h.endRmasOn.setStrand.forgetStrand.failStrand

theorem Kept.putHello {p : Fin 32} {m : HelloMsg} (h : Kept s t) : Kept s (putHello t p m) := by
  unfold Machine.putHello
  exact .ite (fun _ => h) fun _ => h.twine.sayCtrl

theorem Kept.sendHello {p : Fin 32} {pending : Bool} (h : Kept s t) : Kept s (sendHello t p pending) := by
  unfold Machine.sendHello
  exact .ite (fun _ => (Kept.ite (fun _ => h.putHello) fun _ => h).putHello) fun _ => .ite (fun _ =>
      h.putHello) fun _ => h

theorem Kept.helloOpen {n : Fin 2048} (h : Kept s t) : Kept s (helloOpen t n) := by
  unfold Machine.helloOpen
  exact .ite (fun _ => h) fun _ => h.putHello

theorem Kept.doStrandCommit {n : Fin 2048} (h : Kept s t) : Kept s (doStrandCommit n t) := by
  unfold Machine.doStrandCommit
  exact .ite (fun _ => h.setStrand) fun _ => .ite (fun _ => .ite (fun _ =>
      h.setStrand.openStrand.helloOpen) fun _ => h.setStrand) fun _ => h.setStrand

theorem Kept.doStrandClose {n : Fin 2048} (h : Kept s t) : Kept s (doStrandClose n t) := by
  unfold Machine.doStrandClose
  exact .ite (fun _ => h) fun _ => h.closeStrand

theorem Kept.doPathLostExpiry {n : Fin 2048} (h : Kept s t) : Kept s (doPathLostExpiry n t) := by
  unfold Machine.doPathLostExpiry
  exact .ite (fun _ => h.loseStrand) fun _ => h

theorem Kept.doWarmHoldExpiry {n : Fin 2048} (h : Kept s t) : Kept s (doWarmHoldExpiry n t) := by
  unfold Machine.doWarmHoldExpiry
  exact .ite (fun _ => h) fun _ => .ite (fun _ => h.loseStrand) fun _ => h.setStrand

theorem Kept.doTwineCommit (h : Kept s t) : Kept s (doTwineCommit t) := by
  unfold Machine.doTwineCommit
  exact .ite (fun _ => h.twine) fun _ => .ite (fun _ => h.twine) fun _ => h.twine

theorem Kept.announceReset (h : Kept s t) : Kept s (announceReset t) := by
  unfold Machine.announceReset
  exact h.foldl Kept.sendHello

theorem Kept.doHelloTimer {p : Fin 32} (h : Kept s t) : Kept s (doHelloTimer p t) := by
  unfold Machine.doHelloTimer
  exact .ite (fun _ => h.sendHello) fun _ => h

theorem Kept.doOpeningHelloTimer {n : Fin 2048} (h : Kept s t) : Kept s (doOpeningHelloTimer n t) := by
  unfold Machine.doOpeningHelloTimer
  dsimp only
  split
  · exact h.helloOpen
  · exact .ite (fun _ => h) fun _ => h.openStrand.helloOpen
  · exact h

theorem Kept.hear {m : HelloMsg} (h : Kept s t) : Kept s (hear t m) := by
  unfold Machine.hear
  exact h.twine

theorem Kept.helloTo {m : HelloMsg} {n : Fin 2048} (h : Kept s t) : Kept s (helloTo t m n) := by
  unfold Machine.helloTo
  exact .ite (fun _ => h.loseStrand.setStrand) fun _ => h.setStrand

theorem Kept.helloOpens {p : Fin 32} {m : HelloMsg} (h : Kept s t) : Kept s (helloOpens t p m) := by
  unfold Machine.helloOpens
  dsimp only
  split
  · exact h
  · split
    · exact .ite (fun _ => h.setStrand) fun _ => h
    · split
      · exact h
      · split
        · exact h.setStrand.putHello
        · exact .ite (fun _ => h.setStrand.putHello) fun _ => h.loseStrand.openStrand.setStrand.putHello.helloOpen
        · exact .ite (fun _ => h.setStrand.putHello) fun _ => h.loseStrand.openStrand.setStrand.putHello.helloOpen
        · exact h

theorem Kept.helloPeers {m : HelloMsg} (h : Kept s t) : Kept s (helloPeers t m) := by
  unfold Machine.helloPeers
  exact h.ply

theorem Kept.dropRx {p : Fin 32} (h : Kept s t) : Kept s (dropRx t p) := by
  unfold Machine.dropRx
  exact h.setPort

theorem Kept.doHello {p : Fin 32} {m : HelloMsg} (h : Kept s t) : Kept s (doHello p m t) := by
  unfold Machine.doHello
  exact .ite (fun _ => h) fun _ => .ite (fun _ => h.dropRx) fun _ =>
      (h.setPort.hear.foldl Kept.helloTo).helloOpens.helloPeers

theorem Kept.badFrame (h : Kept s t) : Kept s (badFrame t) := by
  unfold Machine.badFrame
  exact h.twine

theorem Kept.doReservedTypeFrame {p : Fin 32} (h : Kept s t) : Kept s (doReservedTypeFrame p t) := by
  unfold Machine.doReservedTypeFrame
  exact .ite (fun _ => h.badFrame) fun _ => h

theorem Kept.doKeyPhaseAdvance {n : Fin 2048} (h : Kept s t) : Kept s (doKeyPhaseAdvance n t) := by
  unfold Machine.doKeyPhaseAdvance
  exact .ite (fun _ => h.setStrand) fun _ => h

theorem Kept.doOldKeyPhaseExpiry {n : Fin 2048} (h : Kept s t) : Kept s (doOldKeyPhaseExpiry n t) := by
  unfold Machine.doOldKeyPhaseExpiry
  exact h.setStrand

theorem Kept.dispatchRma {q : Fin 4096} {mine : Nat → Bool} (h : Kept s t) : Kept s (dispatchRma q mine t) := by
  unfold Machine.dispatchRma
  split
  · exact h
  · split
    · exact h
    · split
      · exact h.failDesc
      · dsimp only
        split
        · exact h.failDesc
        · split
          · exact h.walkFirst.failDesc
          · exact .ite (fun _ => h.failDesc) fun _ => h.walkSegs.startDesc.twine.setStrand

theorem Kept.doRmaWrite {q : Fin 4096} (h : Kept s t) : Kept s (doRmaWrite q t) := by
  unfold Machine.doRmaWrite
  exact h.dispatchRma

theorem Kept.doRmaWriteFlagged {q : Fin 4096} (h : Kept s t) : Kept s (doRmaWriteFlagged q t) := by
  unfold Machine.doRmaWriteFlagged
  exact h.dispatchRma

theorem Kept.doRmaRead {q : Fin 4096} (h : Kept s t) : Kept s (doRmaRead q t) := by
  unfold Machine.doRmaRead
  exact h.dispatchRma

theorem Kept.doRmaAtomicAdd {q : Fin 4096} (h : Kept s t) : Kept s (doRmaAtomicAdd q t) := by
  unfold Machine.doRmaAtomicAdd
  exact h.dispatchRma

theorem Kept.putFrame {n : Fin 2048} {psn : BitVec 32} {retx : Bool} {msg : Msg} {head : Head} {data : List Byte}
    (h : Kept s t) : Kept s (putFrame t n psn retx msg head data) := by
  unfold Machine.putFrame
  exact h.setStrand.say

theorem Kept.sendNew {n : Fin 2048} {msg : Msg} {data : List Byte} {size : Nat}
    (h : Kept s t) : Kept s (sendNew t n msg data size) := by
  unfold Machine.sendNew
  exact h.setStrand.putFrame

theorem Kept.sendHead {n : Fin 2048} (h : Kept s t) : Kept s (sendHead t n) := by
  unfold Machine.sendHead
  dsimp only
  split
  · exact h
  · split
    · split
      · exact h.setStrand
      · split
        · exact h
        · split
          · exact (Kept.ite (fun _ => h) fun _ => h.touchSegs).setStrand.poisonRecord.setRma.settleRmas
          · exact .ite (fun _ => .ite (fun _ => h) fun _ => h.touchSegs) fun _ => (Kept.ite (fun _ => h) fun _ =>
              h.touchSegs).setRma.sendNew
    · exact .ite (fun _ => h.sendNew) fun _ => h

theorem Kept.doFrameTransmit {n : Fin 2048} (h : Kept s t) : Kept s (doFrameTransmit n t) := by
  unfold Machine.doFrameTransmit
  dsimp only
  split
  · exact h
  · split
    · exact h.setStrand.twine.putFrame
    · exact .ite (fun _ => h) fun _ => h.setStrand.sendHead

theorem Kept.doRetransmitTimeout {n : Fin 2048} (h : Kept s t) : Kept s (doRetransmitTimeout n t) := by
  unfold Machine.doRetransmitTimeout
  exact .ite (fun _ => h) fun _ => h.setStrand


/-! ## Losses -/

theorem Kept.interruptStack {k : Fin 8} (h : Kept s t) : Kept s (interruptStack t k) := by
  unfold Machine.interruptStack
  refine (h.foldl Kept.interruptKernel).foldl fun h' => ?_
  split
  · exact .ite (fun _ => h'.cutMoves.redo) fun _ => h'.cutMoves.finish.countMove
  · exact h'

theorem Kept.loseImage {i : SaveImage} (h : Kept s t) : Kept s (loseImage t i) := by
  unfold Machine.loseImage
  dsimp only
  split
  · exact ((h.setTransFilter (by exact ⟨_, rfl⟩)).foldl Kept.dropFault).reportShare
  · split
    · exact ((h.setTransFilter (by exact ⟨_, rfl⟩)).foldl Kept.dropFault).markReplayed.setKernel
    · exact ((h.setTransFilter (by exact ⟨_, rfl⟩)).foldl Kept.dropFault).markReplayed.reportShare

theorem Kept.loseImages {k : Fin 8} (h : Kept s t) : Kept s (loseImages t k) := by
  unfold Machine.loseImages
  exact h.foldl Kept.loseImage

theorem Kept.loseTables (h : Kept s t) : Kept s (loseTables t) := by
  unfold Machine.loseTables
  exact h.same (by rfl)

theorem Kept.loseMirror {k : Fin 8} (h : Kept s t) : Kept s (loseMirror t k) := by
  unfold Machine.loseMirror
  exact .ite (fun _ => h) fun _ => .ite (fun _ => (h.loseTables.same (by rfl)).record) fun _ => h.jrn

theorem Kept.endReach {f : List Seg → Bool} {rst : Status} {st : Status}
    (h : Kept s t) : Kept s (endReach t f rst st) := by
  unfold Machine.endReach
  exact (h.foldl Kept.endRma).foldl Kept.endOp

theorem Kept.doStackLost {k : Fin 8} (h : Kept s t) : Kept s (doStackLost k t) := by
  unfold Machine.doStackLost
  exact .ite (fun _ => h) fun _ => (h.loseImages.interruptStack.endReach.sweeps.setMem (by
      rfl)).memPartRecord.loseMirror.afterMigration

theorem Kept.faultFar {i : Fin 2} (h : Kept s t) : Kept s (faultFar t i) := by
  unfold Machine.faultFar
  exact (h.foldl fun h' => h'.stopKernel.finish).endReach.same (by rfl)

theorem Kept.doCxlLinkDrop {i : Fin 2} (h : Kept s t) : Kept s (doCxlLinkDrop i t) := by
  unfold Machine.doCxlLinkDrop
  exact .ite (fun _ => h) fun _ => (h.faultFar.setMem (by rfl)).record

theorem Kept.doCxlRetrain {i : Fin 2} {up : Bool} (h : Kept s t) : Kept s (doCxlRetrain i up t) := by
  unfold Machine.doCxlRetrain
  exact .ite (fun _ => h.setMem (by rfl)) fun _ => h

theorem Kept.doFarReenable {i : Fin 2} (h : Kept s t) : Kept s (doFarReenable i t) := by
  unfold Machine.doFarReenable
  exact .ite (fun _ => (h.setMemFilter (by exact ⟨_, rfl⟩)).free) fun _ => h


/-! ## Ports -/

theorem Kept.clearLldp {p : Fin 32} (h : Kept s t) : Kept s (clearLldp t p) := h.setWin

theorem Kept.dropPort {p : Fin 32} {l : Link} (h : Kept s t) : Kept s (dropPort t p l) := by
  unfold Machine.dropPort
  exact h.setPort.clearLldp

theorem Kept.retrain {p : Fin 32} (h : Kept s t) : Kept s (retrain t p) := by
  unfold Machine.retrain
  exact h.dropPort

theorem Kept.joinPort {p : Fin 32} (h : Kept s t) : Kept s (joinPort t p) := by
  unfold Machine.joinPort
  exact (h.setPort.settlePaths.sendHello.foldl Kept.putHello).releaseCtrl

theorem Kept.doPortDown {p : Fin 32} (h : Kept s t) : Kept s (doPortDown p t) := by
  unfold Machine.doPortDown
  exact .ite (fun _ => h.retrain.settlePaths) fun _ => h

theorem Kept.doPortLinkUp {p : Fin 32} (h : Kept s t) : Kept s (doPortLinkUp p t) := by
  unfold Machine.doPortLinkUp
  exact .ite (fun _ => h.setPort) fun _ => h

theorem Kept.doPortJoin {p : Fin 32} (h : Kept s t) : Kept s (doPortJoin p t) := by
  unfold Machine.doPortJoin
  exact .ite (fun _ => h.joinPort) fun _ => h

theorem Kept.failPort {p : Fin 32} (h : Kept s t) : Kept s (failPort t p) := by
  unfold Machine.failPort
  exact h.dropPort.setPort.settlePaths.record

theorem Kept.doTrainingRestart {p : Fin 32} (h : Kept s t) : Kept s (doTrainingRestart p t) := by
  unfold Machine.doTrainingRestart
  exact .ite (fun _ => h) fun _ => .ite (fun _ => h.failPort) fun _ => h.setPort

theorem Kept.doPortFail {p : Fin 32} (h : Kept s t) : Kept s (doPortFail p t) := by
  unfold Machine.doPortFail
  exact .ite (fun _ => h) fun _ => h.failPort

theorem Kept.startPorts (h : Kept s t) : Kept s (startPorts t) := by
  unfold Machine.startPorts
  exact h.foldl Kept.retrain

theorem Kept.dropPorts (h : Kept s t) : Kept s (dropPorts t) := by
  unfold Machine.dropPorts
  exact (h.foldl fun h' => .ite (fun _ => h') fun _ => h'.dropPort).settlePaths

theorem Kept.doRefclkLoss (h : Kept s t) : Kept s (doRefclkLoss t) := by
  unfold Machine.doRefclkLoss
  exact .ite (fun _ => h) fun _ => h.dropPorts.setMgmt (by with_reducible rfl)

theorem Kept.commitPort {old : Eth} {moded : Bool} {p : Fin 32}
    (h : Kept s t) : Kept s (commitPort old moded t p) := by
  unfold Machine.commitPort
  exact .ite (fun _ => h.setPort.retrain) fun _ => .ite (fun _ => h.setPort.sendHello) fun _ => h.setPort

theorem Kept.doEthCommit (h : Kept s t) : Kept s (doEthCommit t) := by
  unfold Machine.doEthCommit
  exact .ite (fun _ => h.eth) fun _ => .ite (fun _ => (h.eth.foldl Kept.commitPort).settlePaths) fun _ => h.eth

theorem Kept.doFcsBadFrame {p : Fin 32} {fec : Bool} (h : Kept s t) : Kept s (doFcsBadFrame p fec t) := by
  unfold Machine.doFcsBadFrame
  exact .ite (fun _ => h) fun _ => h.setPort

theorem Kept.doArpRequest {p : Fin 32} {ip : Nat} {v6 : Bool} (h : Kept s t) : Kept s (doArpRequest p ip v6 t) := by
  unfold Machine.doArpRequest
  exact .ite (fun _ => h.sayCtrl) fun _ => h

theorem Kept.doLldpduReceive {p : Fin 32} {n : Nat} {data : List Byte} (h : Kept s t) :
    Kept s (doLldpduReceive p n data t) := by
  unfold Machine.doLldpduReceive
  exact .ite (fun _ => h) fun _ => .ite (fun _ => h.doFcsBadFrame) fun _ => .ite (fun _ => h.dropRx) fun _ =>
    .ite (fun _ => h.setPort.clearLldp) fun _ => h.setPort.clearLldp.setWin

theorem Kept.doLldpTimer {p : Fin 32} (h : Kept s t) : Kept s (doLldpTimer p t) := by
  unfold Machine.doLldpTimer
  exact .ite (fun _ => h.sayCtrl) fun _ => h

theorem Kept.doLldpTtlExpiry {p : Fin 32} (h : Kept s t) : Kept s (doLldpTtlExpiry p t) := by
  unfold Machine.doLldpTtlExpiry
  exact h.setPort.clearLldp

theorem Kept.doPauseFrame {p : Fin 32} {pfc : Bool} {prios : BitVec 8} {quanta : BitVec 16}
    (h : Kept s t) : Kept s (doPauseFrame p pfc prios quanta t) := by
  unfold Machine.doPauseFrame
  exact .ite (fun _ => h) fun _ => h.setPort.releaseCtrl

theorem Kept.doPauseExpiry {p : Fin 32} {prios : BitVec 8} (h : Kept s t) : Kept s (doPauseExpiry p prios t) := by
  unfold Machine.doPauseExpiry
  exact h.setPort.releaseCtrl

theorem Kept.sendPause {p : Fin 32} {quanta : Nat} (h : Kept s t) : Kept s (sendPause t p quanta) := by
  unfold Machine.sendPause
  exact .ite (fun _ => h.say) fun _ => .ite (fun _ => h.say) fun _ => h

theorem Kept.sendXoff {p : Fin 32} {bytes : Nat} (h : Kept s t) : Kept s (sendXoff t p bytes) := by
  unfold Machine.sendXoff
  exact .ite (fun _ => h.setPort.sendPause) fun _ => h

theorem Kept.noteFill {p : Fin 32} {bytes : Nat} (h : Kept s t) : Kept s (noteFill t p bytes) := by
  unfold Machine.noteFill
  exact h.setPort

theorem Kept.doXoffResend {p : Fin 32} {bytes : Nat} (h : Kept s t) : Kept s (doXoffResend p bytes t) := by
  unfold Machine.doXoffResend
  exact .ite (fun _ => h.noteFill.sendXoff) fun _ => h

theorem Kept.doXon {p : Fin 32} {bytes : Nat} (h : Kept s t) : Kept s (doXon p bytes t) := by
  unfold Machine.doXon
  exact .ite (fun _ => .ite (fun _ => h.noteFill.setPort.sendPause) fun _ => h.noteFill) fun _ => h

theorem Kept.doPauseStorm {p : Fin 32} (h : Kept s t) : Kept s (doPauseStorm p t) := by
  unfold Machine.doPauseStorm
  exact .ite (fun _ => h) fun _ => h.setPort.settlePaths.record

theorem Kept.doStormEnd {p : Fin 32} (h : Kept s t) : Kept s (doStormEnd p t) := by
  unfold Machine.doStormEnd
  exact .ite (fun _ => h) fun _ => (Kept.ite (fun _ => h.setPort.joinPort) fun _ => h.setPort).record

theorem Kept.doWakeEnWrite {v : Word} (h : Kept s t) : Kept s (doWakeEnWrite v t) := by
  unfold Machine.doWakeEnWrite
  exact .ite (fun _ => h) fun _ => h.eth


/-! ## Stops -/

theorem Kept.discardStaged (h : Kept s t) : Kept s (discardStaged t) := by
  unfold Machine.discardStaged
  exact h.same (by rfl)

theorem Kept.writeBackAll (h : Kept s t) : Kept s (writeBackAll t) := h.dropBindings.setMem (by with_reducible rfl)

theorem Kept.clearWin {a b : Nat} (h : Kept s t) : Kept s (clearWin t a b) :=
  h.setMgmtWf fun c => wf_filter (h.win c) _

theorem Kept.clearFwArea (h : Kept s t) : Kept s (clearFwArea t) := by
  unfold Machine.clearFwArea
  exact h.clearWin

theorem Kept.startExit (h : Kept s t) : Kept s (startExit t) := by
  unfold Machine.startExit
  split
  · exact h
  · split
    · exact h.setPwr
    · exact h.setPwr
    · exact h

theorem Kept.enterPhase {ph : Boot} (h : Kept s t) : Kept s (enterPhase t ph) := by
  unfold Machine.enterPhase
  exact .ite (fun _ => h.same (by rfl)) fun _ => h.setMgmt (by rfl)

theorem Kept.portsUp (h : Kept s t) : Kept s (portsUp t) := by
  unfold Machine.portsUp
  exact h.foldl fun h' => .ite (fun _ => h'.retrain) fun _ => h'

theorem Kept.haltNow (h : Kept s t) : Kept s (haltNow t) := by
  unfold Machine.haltNow
  exact (Kept.ite (fun _ => h.writeBackAll.portsUp) fun _ => h.writeBackAll).enterPhase

theorem Kept.runAgain (h : Kept s t) : Kept s (runAgain t) := by
  unfold Machine.runAgain
  exact (h.setMgmt (by rfl)).startExit

theorem Kept.settleRun (h : Kept s t) : Kept s (settleRun t) := by
  unfold Machine.settleRun
  split
  · exact .ite (fun _ => h.haltNow) fun _ => h
  · exact .ite (fun _ => h.haltNow) fun _ => h
  · exact .ite (fun _ => h) fun _ => h.runAgain
  · exact h

theorem Kept.doMgmtStop {stop : Bool} (h : Kept s t) : Kept s (doMgmtStop stop t) := by
  unfold Machine.doMgmtStop
  exact (h.setMgmt (by rfl)).settleRun

theorem Kept.releaseTrip (h : Kept s t) : Kept s (releaseTrip t) := by
  unfold Machine.releaseTrip
  exact .ite (fun _ => .ite (fun _ => (Kept.ite (fun _ => h.portsUp) fun _ => h).setPwr) fun _ =>
      (Kept.ite (fun _ => h.portsUp) fun _ => h).setPwr.record) fun _ => h

theorem Kept.endBurst (h : Kept s t) : Kept s (endBurst t) := by
  unfold Machine.endBurst
  split
  · exact h.setPwr
  · exact h

theorem Kept.sendAccepts {n : Nat} {m : Fin 2048} (h : Kept s t) : Kept s (sendAccepts n t m) := by
  induction n generalizing t with
  | zero => exact h
  | succ n ih => exact .ite (fun _ => ih h.doFrameTransmit) fun _ => h

theorem Kept.earnedAccepts (h : Kept s t) : Kept s (earnedAccepts t) := by
  unfold Machine.earnedAccepts
  exact h.foldl Kept.sendAccepts

theorem Kept.dropHeld (h : Kept s t) : Kept s (dropHeld t) := by
  unfold Machine.dropHeld
  exact h.twine

theorem Kept.restoreStrands (h : Kept s t) : Kept s (restoreStrands t) := by
  unfold Machine.restoreStrands
  exact h.dropHeld.twine.foldl Kept.sendHello

/-- The last updates of a warm reset that begins. -/
theorem Kept.warmBegun (h : Kept s t) : Kept s (
    let s := t.setPwr { t.pwr with pstate := .p0, exiting := false, wake := none }
    let s := s.setMem { s.mem with far := s.mem.far.map Far.warm }
    s.setMgmt { s.mgmt with
      phase := .mgmt, warmBoot := true, resetAt := s.now, warms := s.mgmt.warms + 1, clockLost := false,
      cxlDone := s.mgmt.cxlDone && s.mem.far.toList.all (fun x => x.link != .training)
      warming := true, frozen := false, tally := [] }) := (h.setPwr.setMem (by rfl)).setMgmt (by rfl)

theorem Kept.startWarm (h : Kept s t) : Kept s (startWarm t) := by
  unfold Machine.startWarm
  split
  · exact h
  · exact h
  · have h1 : Kept s (Machine.writeBackAll (Machine.earnedAccepts t)) := h.earnedAccepts.writeBackAll
    generalize Machine.writeBackAll (Machine.earnedAccepts t) = u at h1 ⊢
    dsimp only
    have h2 : Kept s (if (u.mgmt.clockLost || u.pwr.dieOff) = true then u else Machine.announceReset u) :=
      .ite (fun _ => h1) fun _ => h1.announceReset
    generalize (if (u.mgmt.clockLost || u.pwr.dieOff) = true then u else Machine.announceReset u) = v at h2 ⊢
    have h3 : Kept s (Machine.dropHeld (Machine.clearFwArea (Machine.discardStaged v))) :=
      h2.discardStaged.clearFwArea.dropHeld
    generalize Machine.dropHeld (Machine.clearFwArea (Machine.discardStaged v)) = w at h3 ⊢
    exact (Kept.ite (fun _ => h3.portsUp) fun _ => h3).warmBegun

theorem Kept.doWarm (h : Kept s t) : Kept s (doWarm t) := by
  unfold Machine.doWarm
  exact .ite (fun _ => h) fun _ => h.startWarm

theorem warmed_cells (m : Mem) : m.warmed.cells = m.cells := by
  unfold Mem.warmed
  dsimp only
  split <;> rfl

theorem Kept.doWarmResetResume (h : Kept s t) : Kept s (doWarmResetResume t) := by
  unfold Machine.doWarmResetResume
  refine .ite (fun _ => h) fun _ => .ite (fun _ => h.releaseTrip) fun _ => ?_
  have h1 : Kept s (Machine.stopWork (Machine.releaseTrip t)) := h.releaseTrip.stopWork
  generalize Machine.stopWork (Machine.releaseTrip t) = u at h1 ⊢
  refine Kept.finishWork (Kept.restoreStrands (Kept.enterPhase (Kept.setMgmt ?_ (by rfl))))
  exact (h1.setMem (warmed_cells u.mem)).same (by rfl)

theorem Kept.noteStop (h : Kept s t) : Kept s (noteStop t) := by
  unfold Machine.noteStop
  exact .ite (fun _ => h) fun _ => h.setMgmt (by rfl)

theorem Kept.stopAir (h : Kept s t) : Kept s (stopAir t) := by
  unfold Machine.stopAir
  exact h.noteStop.setPwr.settleRun

theorem Kept.resumeAir (h : Kept s t) : Kept s (resumeAir t) := by
  unfold Machine.resumeAir
  exact (Kept.ite (fun _ => h.portsUp) fun _ => h).setPwr.startWarm

theorem Kept.beginOverride {secs : Nat} (h : Kept s t) : Kept s (beginOverride t secs) := by
  unfold Machine.beginOverride
  exact .ite (fun _ => (h.setSec (by rfl)).endBurst.resumeAir) fun _ => (h.setSec (by rfl)).endBurst

theorem Kept.endOverride (h : Kept s t) : Kept s (endOverride t) := by
  unfold Machine.endOverride
  exact .ite (fun _ => h) fun _ => .ite (fun _ => (h.setSec (by rfl)).stopAir) fun _ => h.setSec (by rfl)

theorem Kept.doOverrideExpiry (h : Kept s t) : Kept s (doOverrideExpiry t) := by
  unfold Machine.doOverrideExpiry
  exact h.endOverride


/-! ## Security -/

theorem Kept.authRecord {kind : Nat} {aseq : Nat} {st : Status}
    (h : Kept s t) : Kept s (authRecord t kind aseq st) := by
  unfold Machine.authRecord
  exact h.record

theorem Kept.bumpCtr (h : Kept s t) : Kept s (bumpCtr t) := by
  unfold Machine.bumpCtr
  exact h.setSecLe (h.ctr.trans (Nat.le_succ _))

theorem Kept.draw (h : Kept s t) : Kept s t.draw.2 := h.free

theorem Kept.startCtr (h : Kept s t) : Kept s (startCtr t) := by
  unfold Machine.startCtr
  exact .ite (fun _ => (h.draw.setSec (by rfl)).bumpCtr) fun _ => h.draw.setSec (by rfl)

theorem Kept.endCtr (h : Kept s t) : Kept s (endCtr t) := by
  unfold Machine.endCtr
  exact .ite (fun _ => h.bumpCtr) fun _ => h

theorem Kept.bumpKey {n : Fin 4} {st : KeySt} {key : Option Nat} (h : Kept s t) : Kept s (bumpKey t n st key) := by
  unfold Machine.bumpKey
  exact h.setSec (by rfl)

theorem Kept.cryptoErase (h : Kept s t) : Kept s (cryptoErase t) := by
  unfold Machine.cryptoErase
  exact (h.setMemFilter (by exact ⟨_, rfl⟩)).free

theorem Kept.closeTenantStrands {peers : Bool} (h : Kept s t) : Kept s (closeTenantStrands t peers) := by
  unfold Machine.closeTenantStrands
  exact h.foldl Kept.closeStrand

theorem Kept.endApplied {q : Fin 4096} (h : Kept s t) : Kept s (endApplied t q) := by
  unfold Machine.endApplied
  exact h.foldl fun h' => h'.finish.notifyUpdate

theorem Kept.eraseQueue {q : Fin 4096} (h : Kept s t) : Kept s (eraseQueue t q) := by
  unfold Machine.eraseQueue
  exact .ite (fun _ => h) fun _ => ((((h.endApplied.foldl Kept.stopKernel).dropMoves.setMgmt (by with_reducible
      rfl)).foldl Kept.dropFault).drainRest.setTrans (by with_reducible rfl)).setQ

theorem Kept.eraseControllers (h : Kept s t) : Kept s (eraseControllers t) := by
  unfold Machine.eraseControllers
  exact ((((h.dropMoves.foldl fun h' => h'.reportMove.countMove).foldl Kept.finish).eraseRmas.foldl
      Kept.finish).same (by rfl)).bindRetryAll

theorem Kept.dropSession {id : Nat} {st : Status} (h : Kept s t) : Kept s (dropSession t id st) := by
  unfold Machine.dropSession
  split
  · exact h
  · dsimp only
    split
    · exact h.setSec (by rfl)
    · exact (h.setSec (by rfl)).closeStrand.setStrand

theorem Kept.dropSessions {f : Session → Bool} {st : Status} (h : Kept s t) : Kept s (dropSessions t f st) := by
  unfold Machine.dropSessions
  exact h.foldl Kept.dropSession

theorem Kept.startTenancy {b : List Byte} (h : Kept s t) : Kept s (startTenancy t b) := by
  unfold Machine.startTenancy
  exact (h.setSec (by rfl)).startCtr

theorem Kept.endTenancy {b : List Byte} (h : Kept s t) : Kept s (endTenancy t b) := by
  unfold Machine.endTenancy
  exact (h.setSec (by rfl)).foldl fun h' => .ite (fun _ => h') fun _ => h'.drainQueue.setQ

theorem Kept.eraseTransit (h : Kept s t) : Kept s (eraseTransit t) := by
  unfold Machine.eraseTransit
  exact (h.bumpKey.eraseRmas.setSec (by rfl)).closeTenantStrands

theorem Kept.activateTransit (h : Kept s t) : Kept s (activateTransit t) := by
  unfold Machine.activateTransit
  split
  · exact h
  · exact h.setSec (by rfl)

theorem Kept.rotateTransit {b : List Byte} (h : Kept s t) : Kept s (rotateTransit t b) := by
  unfold Machine.rotateTransit
  exact h.setSec (by rfl)

theorem Kept.withdrawConsent {b : List Byte} (h : Kept s t) : Kept s (withdrawConsent t b) := by
  refine h.setSec ?_
  dsimp only
  split <;> rfl

theorem Kept.authEffect {b : List Byte} (h : Kept s t) : Kept s (authEffect t b) := by
  unfold Machine.authEffect
  split
  · exact h.startTenancy
  · exact h.endTenancy
  · exact h.setSec (by rfl)
  · exact h.setSec (by rfl)
  · exact h.setSec (by rfl)
  · exact .ite (fun _ => h.endOverride) fun _ => h.beginOverride
  · exact h.rotateTransit
  · exact h.activateTransit
  · exact h.withdrawConsent
  · exact h.eraseTransit
  · exact h.setSec (by rfl)
  · exact h

theorem Kept.spdmSay {code : Nat} {body : List Nat} (h : Kept s t) : Kept s (spdmSay t code body) := by
  unfold Machine.spdmSay
  exact h.sendSpdm

theorem Kept.sessionSay {id : Nat} {code : Nat} {body : List Nat}
    (h : Kept s t) : Kept s (sessionSay t id code body) := by
  unfold Machine.sessionSay
  exact h.sendSpdm

theorem Kept.authAnswer {via : Option Nat} {st : Status} (h : Kept s t) : Kept s (authAnswer t via st) := by
  unfold Machine.authAnswer
  split
  · exact h.setSec (by rfl)
  · exact h.sessionSay

theorem Kept.checkAuth {via : Option Nat} {b : List Byte} (h : Kept s t) : Kept s (checkAuth t via b) := by
  unfold Machine.checkAuth
  exact (Kept.ite (fun _ => (h.setSec (by rfl)).authEffect) fun _ => h).authAnswer.authRecord

theorem Kept.runAuth {n : Nat} (h : Kept s t) : Kept s (runAuth n t) := by
  induction n generalizing t with
  | zero => exact h
  | succ n ih =>
    unfold Machine.runAuth
    refine .ite (fun _ => h) fun _ => ?_
    split
    · exact h
    · exact ih (h.setSec (by rfl)).checkAuth

theorem Kept.spdmWakes (h : Kept s t) : Kept s (spdmWakes t) := by
  unfold Machine.spdmWakes
  exact .ite (fun _ => h.startExit) fun _ => h

theorem Kept.doSubmit {via : Option Nat} {bytes : List Byte} (h : Kept s t) : Kept s (doSubmit via bytes t) := by
  unfold Machine.doSubmit
  dsimp only
  split
  · exact .ite (fun _ => h) fun _ => (h.setSec (by rfl)).runAuth
  · split
    · exact h
    · exact .ite (fun _ => h) fun _ => .ite (fun _ => h.authAnswer) fun _ => (h.setSec (by rfl)).runAuth

theorem Kept.resetCounters (h : Kept s t) : Kept s (resetCounters t) := by
  unfold Machine.resetCounters
  exact h.same (by rfl)

theorem Kept.loadKeys (h : Kept s t) : Kept s (loadKeys t) := by
  unfold Machine.loadKeys
  exact .ite (fun _ => h) fun _ => (h.endCtr.bumpKey.bumpKey.cryptoErase.setTrans (by rfl)).setSec (by rfl)

theorem Kept.secTick (h : Kept s t) : Kept s (secTick t) := by
  unfold Machine.secTick
  dsimp only
  split
  · exact .ite (fun _ => (Kept.ite (fun _ => h.bumpCtr) fun _ => h).loadKeys) fun _ => .ite (fun _ =>
      h.bumpCtr) fun _ => h
  · exact .ite (fun _ => h.bumpCtr) fun _ => h

theorem Kept.doTenancyOnSet (h : Kept s t) : Kept s (doTenancyOnSet t) := by
  unfold Machine.doTenancyOnSet
  exact .ite (fun _ => h) fun _ => ((h.loadKeys.resetCounters.discardStaged.setTrans (by rfl)).setSec (by
      rfl)).authRecord.runAuth

theorem Kept.dropTenantBindings (h : Kept s t) : Kept s (dropTenantBindings t) := by
  unfold Machine.dropTenantBindings
  exact h.skeins.settleCreel.bindRetryAll

theorem Kept.tenantErased (h : Kept s t) :
    Kept s ((Machine.cryptoErase t).setSec { (Machine.cryptoErase t).sec with phase := .scrubbing }) :=
  h.cryptoErase.setSec (by rfl)

theorem Kept.doTenancyKeyErase (h : Kept s t) : Kept s (doTenancyKeyErase t) := by
  unfold Machine.doTenancyKeyErase
  have h1 : Kept s (tenantQueues.foldl Machine.eraseQueue t) := h.foldl Kept.eraseQueue
  exact .ite (fun _ => h) fun _ =>
    h1.eraseControllers.dropTenantBindings.bumpKey.eraseTransit.dropSessions.closeTenantStrands.tenantErased.startCtr

theorem wf_scrubbed (x : Spindle) (_ : Memory.wf x.bobbin = true) : Memory.wf x.scrubbed.bobbin = true := by
  unfold Spindle.scrubbed
  split <;> rfl

theorem Kept.scrubUnits (h : Kept s t) : Kept s (scrubUnits t) :=
  Kept.bindRetryAll (Kept.settleCreel ⟨h.1, h.2.1, h.ctr, fun c => ⟨wf_filter (h.cells c) _,
    (h.mapSpindles wf_scrubbed).bobbin c, fun i hi => h.image c i (List.mem_of_mem_filter hi), h.win c⟩⟩)

theorem Kept.closeTenantQueues (h : Kept s t) : Kept s (closeTenantQueues t) := by
  unfold Machine.closeTenantQueues
  exact h.queues

theorem Kept.scrubEnded (h : Kept s t) : Kept s (t.setSec { t.sec.detached with
    tenancyOn := false, phase := .none, lodged := [], debug := false, profile := false, tnKey := []
        }) := h.setSec rfl

theorem Kept.doScrubEnd (h : Kept s t) : Kept s (doScrubEnd t) := by
  unfold Machine.doScrubEnd
  refine .ite (fun _ => h) fun _ => ?_
  have h1 := h.dropSessions (f := fun x => x.party == some .tenant) (st := .keyErased) |>.closeTenantStrands (peers
      := false)
  exact (h1.closeTenantQueues.endCtr.scrubUnits.resetCounters.discardStaged.setMgmt (by with_reducible
      rfl)).endOverride.scrubEnded.authRecord.runAuth

theorem Kept.doScrubCommit (h : Kept s t) : Kept s (doScrubCommit t) := by
  unfold Machine.doScrubCommit
  exact .ite (fun _ => h.setSec (by rfl)) fun _ => .ite (fun _ => h.setSec (by rfl)) fun _ => h.setSec (by rfl)

theorem Kept.doKeyRewriteDrained {n : Fin 4} (h : Kept s t) : Kept s (doKeyRewriteDrained n t) := by
  unfold Machine.doKeyRewriteDrained
  split
  · exact h
  · split
    · exact h
    · split
      · exact h
      · exact (h.bumpKey.setSec (by rfl)).twine

theorem Kept.doTransitOldExpiry (h : Kept s t) : Kept s (doTransitOldExpiry t) := by
  unfold Machine.doTransitOldExpiry
  exact h.setSec (by rfl)

theorem Kept.spdm {code : Nat} {body : List Nat} (h : Kept s t) : Kept s (spdm t code body) := by
  unfold Machine.spdm
  exact .ite (fun _ => h.spdmSay) fun _ => h

theorem Kept.doGetMeasurements {i : Nat} (h : Kept s t) : Kept s (doGetMeasurements i t) := by
  unfold Machine.doGetMeasurements
  dsimp only
  split <;> exact h.spdm

theorem Kept.doKeyExchange {id : Nat} {cred : Cred} (h : Kept s t) : Kept s (doKeyExchange id cred t) := by
  unfold Machine.doKeyExchange
  split
  · exact h
  · split
    · exact .ite (fun _ => h.spdmSay) fun _ => h.spdmSay
    · exact .ite (fun _ => h.spdmSay) fun _ => (h.setSec (by rfl)).spdmSay

theorem Kept.openSession {n : Fin 2048} {o : Owner} (h : Kept s t) : Kept s (openSession t n o) := by
  unfold Machine.openSession
  exact h.setStrand.openStrand.helloOpen

theorem Kept.finishAnswer {id : Nat} {n : Option (Fin 2048)} (h : Kept s t) : Kept s (finishAnswer t id n) := by
  unfold Machine.finishAnswer
  split
  · exact h.sessionSay
  · exact h.sessionSay.sessionSay

theorem Kept.doFinish {id : Nat} (h : Kept s t) : Kept s (doFinish id t) := by
  unfold Machine.doFinish
  split
  · exact h
  · split
    · exact h
    · split
      · exact h.finishAnswer
      · dsimp only
        split
        · exact (h.setSec (by rfl)).finishAnswer
        · split
          · exact (h.setSec (by rfl)).spdmSay
          · exact (h.setSec (by rfl)).openSession.finishAnswer

theorem Kept.doEndSession {id : Nat} (h : Kept s t) : Kept s (doEndSession id t) := by
  unfold Machine.doEndSession
  exact .ite (fun _ => h) fun _ => .ite (fun _ => (h.dropSession.setSec (by rfl)).sessionSay) fun _ =>
      .ite (fun _ => h.sessionSay) fun _ => h

theorem Kept.inSession {id : Nat} {code : Nat} (h : Kept s t) : Kept s (inSession t id code) := by
  unfold Machine.inSession
  split
  · exact .ite (fun _ => h.sessionSay) fun _ => h
  · exact h

theorem Kept.doSessionIdleTimeout {id : Nat} (h : Kept s t) : Kept s (doSessionIdleTimeout id t) := by
  unfold Machine.doSessionIdleTimeout
  exact h.dropSession

theorem Kept.doWakeKeyFetch {id : Nat} (h : Kept s t) : Kept s (doWakeKeyFetch id t) := by
  unfold Machine.doWakeKeyFetch
  split
  · exact .ite (fun _ => h) fun _ => .ite (fun _ => h.sessionSay) fun _ => h.sessionSay
  · exact h

theorem Kept.passLease (h : Kept s t) : Kept s (passLease t) := by
  unfold Machine.passLease
  exact (h.discardStaged.clearFwArea.setMgmt (by rfl)).record

theorem Kept.doLeaseRequest {id : Nat} {epoch : BitVec 32} {ctrl : BitVec 16}
    (h : Kept s t) : Kept s (doLeaseRequest id epoch ctrl t) := by
  unfold Machine.doLeaseRequest
  split
  · exact h
  · exact .ite (fun _ => h) fun _ => .ite (fun _ => h.sessionSay) fun _ => (Kept.ite (fun _ =>
      (h.setSec (by rfl)).passLease) fun _ => h.setSec (by rfl)).sessionSay

theorem Kept.capture {i : Nat} {cells : Nat} (h : Kept s t) : Kept s (capture t i cells) := by
  unfold Machine.capture
  exact (h.setSec (by rfl)).say.free

theorem Kept.doTapInstruction {i : Tap} (h : Kept s t) : Kept s (doTapInstruction i t) := by
  cases i with
  | trst high => cases high <;> exact h.setSec (by rfl)
  | bypass => exact .ite (fun _ => (h.setSec (by rfl)).say) fun _ => h
  | idcode => exact .ite (fun _ => (h.setSec (by rfl)).say) fun _ => h
  | sample c => exact .ite (fun _ => h.capture) fun _ => h
  | extest c => exact .ite (fun _ => h.capture.say) fun _ => h
  | priv n => exact .ite (fun _ => (h.setSec (by rfl)).say.free) fun _ => h


/-! ## Power -/

theorem Kept.setRail {r : Fin 7} {x : Rail} (h : Kept s t) : Kept s (setRail t r x) := by
  unfold Machine.setRail
  exact h.setPwr

theorem Kept.doEstimatorSample {r : Fin 7} {amps : Nat} {skeins : BitVec 8}
    (h : Kept s t) : Kept s (doEstimatorSample r amps skeins t) := by
  unfold Machine.doEstimatorSample
  dsimp only
  split
  · exact h.setRail
  · exact h.setRail.skeins

theorem Kept.doDividerStepDown {r : Fin 7} {amps : Nat} (h : Kept s t) : Kept s (doDividerStepDown r amps t) := by
  unfold Machine.doDividerStepDown
  exact .ite (fun _ => h.setRail.setPwr) fun _ => .ite (fun _ => h.setRail) fun _ => h.setRail

theorem Kept.doStretchEnd {k : Fin 8} (h : Kept s t) : Kept s (doStretchEnd k t) := by
  unfold Machine.doStretchEnd
  exact h.setSk

theorem Kept.doDroopDetect {k : Fin 8} (h : Kept s t) : Kept s (doDroopDetect k t) := by
  unfold Machine.doDroopDetect
  exact h.setSk

theorem Kept.doRegulatorRead {r : Fin 7} {amps : Nat} {mv : Nat} {est : Nat}
    (h : Kept s t) : Kept s (doRegulatorRead r amps mv est t) := by
  unfold Machine.doRegulatorRead
  exact .ite (fun _ => h) fun _ => h.setRail

theorem Kept.doReadingsMissing {r : Fin 7} (h : Kept s t) : Kept s (doReadingsMissing r t) := by
  unfold Machine.doReadingsMissing
  exact .ite (fun _ => h) fun _ => .ite (fun _ => (Kept.ite (fun _ => h) fun _ => h.endBurst).setRail) fun _ =>
      (Kept.ite (fun _ => h) fun _ => h.endBurst).setRail.record

theorem Kept.doStatusWordPoll {faults : BitVec 7} (h : Kept s t) : Kept s (doStatusWordPoll faults t) := by
  unfold Machine.doStatusWordPoll
  exact .ite (fun _ => h) fun _ => h.foldl fun h' => .ite (fun _ => h'.setRail.setPwr.record) fun _ => h'.setRail

theorem Kept.doRegulatorFaultCleared (h : Kept s t) : Kept s (doRegulatorFaultCleared t) := by
  unfold Machine.doRegulatorFaultCleared
  exact .ite (fun _ => h) fun _ => h.setPwr

theorem Kept.doInletPoll {temp : Option (BitVec 8)} (h : Kept s t) : Kept s (doInletPoll temp t) := by
  unfold Machine.doInletPoll
  split
  · exact h
  · split <;> exact h.setPwr

theorem Kept.doPwrCommit (h : Kept s t) : Kept s (doPwrCommit t) := by
  unfold Machine.doPwrCommit
  exact .ite (fun _ => h.setPwr) fun _ => .ite (fun _ => (Kept.ite (fun _ => h.endBurst) fun _ =>
      h).setPwr) fun _ => h.setPwr

theorem Kept.doBurstExpiry (h : Kept s t) : Kept s (doBurstExpiry t) := by
  unfold Machine.doBurstExpiry
  exact h.endBurst

theorem Kept.burstStep (h : Kept s t) : Kept s (burstStep t) := by
  unfold Machine.burstStep
  exact .ite (fun _ => h.endBurst) fun _ => .ite (fun _ => h) fun _ => h.setPwr

theorem Kept.divide {g : GrantIn} {cap : Nat} (h : Kept s t) : Kept s (divide g cap t) := by
  unfold Machine.divide
  exact .ite (fun _ => h.setPwr.skeins) fun _ => h.setPwr.skeins

theorem Kept.doGrantTick {g : GrantIn} (h : Kept s t) : Kept s (doGrantTick g t) := by
  unfold Machine.doGrantTick
  exact h.burstStep.setPwr.divide

theorem Kept.dueGrant (h : Kept s t) : Kept s (dueGrant t) := by
  unfold Machine.dueGrant
  split
  · exact h
  · split
    · exact h.doGrantTick
    · exact h

theorem Kept.charge {w : Fin 4096 × Nat × Nat} (h : Kept s t) : Kept s (charge t w) := by
  unfold Machine.charge
  exact h.setQ.setDesc

theorem Kept.doEnergyAttribution {skeins : List Nat} {served : List (Nat × List (Fin 4096 × Nat × Nat))}
    {idle : Nat} (h : Kept s t) : Kept s (doEnergyAttribution skeins served idle t) := by
  unfold Machine.doEnergyAttribution
  exact h.skeins.setPwr.foldl Kept.charge

theorem Kept.millOff (h : Kept s t) : Kept s (millOff t) := h.stopWork.mapSpindles fun _ _ => rfl

theorem Kept.diesOff (h : Kept s t) : Kept s (diesOff t) := by
  unfold Machine.diesOff
  exact (h.millOff.foldl fun h' => .ite (fun _ => h') fun _ => h'.dropPort).settlePaths

theorem Kept.enterP4 (h : Kept s t) : Kept s (enterP4 t) := by
  unfold Machine.enterP4
  exact h.announceReset.writeBackAll.diesOff.setPwr

theorem Kept.doPowerStateEntry {u : PwrUnit} (h : Kept s t) : Kept s (doPowerStateEntry u t) := by
  unfold Machine.doPowerStateEntry
  dsimp only
  split
  · exact h
  · split
    · exact .ite (fun _ => h.setSk) fun _ => h
    · exact .ite (fun _ => (h.foldl fun h' => h'.setSp (by rfl)).setSk) fun _ => h
    · exact .ite (fun _ => h.writeBackAll.setPwr) fun _ => h
    · exact .ite (fun _ => h.enterP4) fun _ => h

theorem Kept.doPowerStateExit {u : PwrUnit} (h : Kept s t) : Kept s (doPowerStateExit u t) := by
  unfold Machine.doPowerStateExit
  split
  · exact .ite (fun _ => h.setSk) fun _ => h
  · exact .ite (fun _ => h.setSk) fun _ => h
  · exact .ite (fun _ => h.startExit) fun _ => h
  · exact h

theorem Kept.doWake {p : Fin 32} {magic : Bool} {genuine : Bool} {ctr : Word}
    (h : Kept s t) : Kept s (doWake p magic genuine ctr t) := by
  unfold Machine.doWake
  split
  · exact h
  · split
    · exact .ite (fun _ => h) fun _ => h.startExit
    · exact .ite (fun _ => h) fun _ => .ite (fun _ => h) fun _ => h.setPwr
    · exact h

theorem Kept.leaveP4 (h : Kept s t) : Kept s (leaveP4 t) := by
  unfold Machine.leaveP4
  dsimp only
  split
  · split
    · exact h.setPwr.record
    · refine Kept.restoreStrands ?_
      refine Kept.skeins ?_
      refine Kept.portsUp ?_
      refine Kept.setPwr ?_
      split
      · exact h.setSec (by rfl)
      · exact h
  · split
    · exact h
    · refine Kept.restoreStrands ?_
      refine Kept.skeins ?_
      refine Kept.portsUp ?_
      refine Kept.setPwr ?_
      split
      · exact h.setSec (by rfl)
      · exact h

theorem Kept.doThermalThreshold {t0 : ThermIn} (h : Kept s t) : Kept s (doThermalThreshold t0 t) := by
  unfold Machine.doThermalThreshold
  exact .ite (fun _ => h) fun _ => .ite (fun _ => (h.setPwr.skeins.setSec (by rfl)).stopAir) fun _ =>
      h.setPwr.skeins

theorem Kept.doThermalStepTimer {k : Fin 8} (h : Kept s t) : Kept s (doThermalStepTimer k t) := by
  unfold Machine.doThermalStepTimer
  exact .ite (fun _ => h.setSk) fun _ => .ite (fun _ => h.setSk) fun _ => h

theorem Kept.doThermtrip (h : Kept s t) : Kept s (doThermtrip t) := by
  unfold Machine.doThermtrip
  exact .ite (fun _ => h) fun _ => .ite (fun _ => h.setPwr.stopAir.say) fun _ => h.setPwr.stopAir.say.record

theorem Kept.doAirFaultAssert (h : Kept s t) : Kept s (doAirFaultAssert t) := by
  unfold Machine.doAirFaultAssert
  exact .ite (fun _ => h.setPwr) fun _ => h.setPwr.stopAir

theorem Kept.doAirFaultPowerDown (h : Kept s t) : Kept s (doAirFaultPowerDown t) := by
  unfold Machine.doAirFaultPowerDown
  exact .ite (fun _ => h) fun _ => .ite (fun _ => h.setPwr.diesOff) fun _ => h.setPwr.diesOff.record

theorem Kept.doAirFaultRise {short : Bool} (h : Kept s t) : Kept s (doAirFaultRise short t) := by
  unfold Machine.doAirFaultRise
  exact .ite (fun _ => h) fun _ => .ite (fun _ => (h.setSec (by rfl)).setPwr.stopAir) fun _ =>
      (h.setSec (by rfl)).setPwr

theorem Kept.doAirFaultClear (h : Kept s t) : Kept s (doAirFaultClear t) := by
  unfold Machine.doAirFaultClear
  exact .ite (fun _ => h) fun _ => h.resumeAir.record


/-! ## Management -/

theorem Kept.setUnit {unit : Nat} {index : Nat} (h : Kept s t) : Kept s (setUnit t unit index) := by
  unfold Machine.setUnit
  exact h.setMgmt (by rfl)

theorem Kept.setOrder {u : UnitRef} {busy : Bool} {r : Status} (h : Kept s t) : Kept s (setOrder t u busy r) := by
  unfold Machine.setOrder
  exact h.setMgmt (by rfl)

theorem Kept.endOrder {r : Status} (h : Kept s t) : Kept s (endOrder t r) := by
  unfold Machine.endOrder
  exact h.setMgmt (by rfl)

theorem Kept.setFlyer {k : Fin 8} {f : Fin 4} {y : Flyer} (h : Kept s t) : Kept s (setFlyer t k f y) := by
  unfold Machine.setFlyer
  exact h.setSk

theorem Kept.retireUnit {u : UnitRef} (h : Kept s t) : Kept s (retireUnit t u) := by
  unfold Machine.retireUnit
  split
  · exact .ite (fun _ => h.setSk.record) fun _ => .ite (fun _ => h) fun _ => h.setSk.settleMap
  · exact .ite (fun _ => h) fun _ => h.setFlyer.record
  · exact h.doMapOut
  · exact .ite (fun _ => h) fun _ => h.dropPort.setPort.settlePaths.record
  · exact h

theorem Kept.doRetire {u : UnitRef} (h : Kept s t) : Kept s (doRetire u t) := by
  unfold Machine.doRetire
  split
  · exact h.setUnit
  · split
    · exact h.setOrder
    · exact h.retireUnit.setOrder

theorem Kept.doRestore {u : UnitRef} (h : Kept s t) : Kept s (doRestore u t) := by
  unfold Machine.doRestore
  split
  · exact h.setUnit
  · split
    · exact h.setOrder
    · dsimp only
      split
      · exact h.setOrder.setMem (by rfl)
      · exact h.setOrder

theorem Kept.joinUnit {u : UnitRef} (h : Kept s t) : Kept s (joinUnit t u) := by
  cases u with
  | spindle p => exact (h.setSpWf (p := p) (x := { clk := (t.sp p).clk }) fun _ => rfl).setSk.settleMap
  | flyer k f => exact h.setFlyer.setSk
  | port p => exact h.setPort.retrain
  | channel c => exact h
  | other a b => exact h

theorem Kept.doRestoreSelftestDone {pass : Bool} (h : Kept s t) : Kept s (doRestoreSelftestDone pass t) := by
  unfold Machine.doRestoreSelftestDone
  dsimp only
  split
  · exact h
  · split
    · exact h.endOrder.joinUnit
    · refine Kept.record ?_
      split
      · exact h.endOrder.setMem (by rfl)
      · exact h.endOrder

theorem Kept.doFaultAck {slot : Fin 256} (h : Kept s t) : Kept s (doFaultAck slot t) := by
  unfold Machine.doFaultAck
  split
  · exact .ite (fun _ => h.closeRecord) fun _ => h
  · exact h

theorem Kept.endStage {st : Status} (h : Kept s t) : Kept s (endStage t st) := by
  unfold Machine.endStage
  exact (h.setMgmt (by rfl)).record

theorem Kept.doFwStage (h : Kept s t) : Kept s (doFwStage t) := by
  unfold Machine.doFwStage
  exact .ite (fun _ => h) fun _ => .ite (fun _ => h.setMgmt (by rfl)) fun _ => (h.setMgmt (by rfl)).record

theorem Kept.doFwStageDone {same : Bool} (h : Kept s t) : Kept s (doFwStageDone same t) := by
  unfold Machine.doFwStageDone
  split
  · exact h
  · exact (Kept.ite (fun _ => h.setMgmt (by rfl)) fun _ => h).endStage

theorem Kept.doFwConfirm (h : Kept s t) : Kept s (doFwConfirm t) := by
  unfold Machine.doFwConfirm
  exact .ite (fun _ => h.setMgmt (by rfl)) fun _ => .ite (fun _ => h.setMgmt (by rfl)) fun _ =>
      (h.setMgmt (by rfl)).record

theorem Kept.doFwCancel (h : Kept s t) : Kept s (doFwCancel t) := by
  unfold Machine.doFwCancel
  exact h.setMgmt (by rfl)

theorem Kept.doTrimWrite (h : Kept s t) : Kept s (doTrimWrite t) := by
  unfold Machine.doTrimWrite
  exact .ite (fun _ => h) fun _ => .ite (fun _ => h.setMgmt (by rfl)) fun _ => h.setMgmt (by rfl)

theorem Kept.doTrimWriteDone (h : Kept s t) : Kept s (doTrimWriteDone t) := by
  unfold Machine.doTrimWriteDone
  split
  · exact h
  · exact (h.setMgmt (by rfl)).setPwr.record

theorem wf_bootTrim_win (m : Mgmt) (lost : BitVec 2) : (bootTrim m lost).win = m.win := by
  unfold Machine.bootTrim
  dsimp only
  split
  · rfl
  · split <;> rfl

theorem Kept.restartMgmt (h : Kept s t) : Kept s (restartMgmt t) := by
  unfold Machine.restartMgmt
  split
  · exact h
  · exact h.dropSessions.clearFwArea.setMgmt (by rfl)

theorem Kept.doMgmtRestartEnd (h : Kept s t) : Kept s (doMgmtRestartEnd t) := by
  unfold Machine.doMgmtRestartEnd
  exact h.setMgmt (by rfl)

theorem wf_freshBobbin (p : Fin 136) : Memory.wf ((rep 136 ({} : Spindle)).get p).bobbin = true := by
  rw [get_rep]
  rfl

theorem wf_coldReset (x : State) (resetN : Bool) : (Machine.coldReset x resetN).canonical := by
  unfold State.canonical
  refine ⟨?_, wf_freshBobbin, ?_, ?_⟩
  · with_unfolding_all rfl
  · exact fun _ h => absurd h (by exact List.not_mem_nil)
  · with_unfolding_all rfl

theorem Kept.coldReset {resetN : Bool} (h : Kept s t) : Kept s (coldReset t resetN) :=
  ⟨h.1, h.2.1, h.ctr, fun _ => wf_coldReset t resetN⟩

theorem Kept.doTestEnHigh (h : Kept s t) : Kept s (doTestEnHigh t) := by
  unfold Machine.doTestEnHigh
  exact (h.setMgmt (by rfl)).coldReset

theorem Kept.doPackagePowerLoss (h : Kept s t) : Kept s (doPackagePowerLoss t) := by
  unfold Machine.doPackagePowerLoss
  exact (h.setMgmt (by rfl)).coldReset.setSec (by rfl)

theorem Kept.doResetNRise {g : PowerGood} (h : Kept s t) : Kept s (doResetNRise g t) := by
  unfold Machine.doResetNRise
  exact .ite (fun _ => h) fun _ => h.setMgmt (by rfl)

theorem Kept.doWhorlLockRetry {g : PowerGood} (h : Kept s t) : Kept s (doWhorlLockRetry g t) := by
  unfold Machine.doWhorlLockRetry
  exact .ite (fun _ => h.setMgmt (by rfl)) fun _ => h

theorem Kept.closeStale (h : Kept s t) : Kept s (closeStale t) := by
  unfold Machine.closeStale
  exact .ite (fun _ => h) fun _ => (h.setSecLe (h.ctr.trans (Nat.le_succ _))).authRecord

theorem Kept.bootConfig {cfg : Option BoardCfg} (h : Kept s t) : Kept s (bootConfig t cfg) := by
  unfold Machine.bootConfig
  split
  · exact h.setPwr
  · exact ((h.setMem (by rfl)).setMgmt (by rfl)).setPwr.same (by rfl)

theorem Kept.runFirmware {slotB : Bool} {fallback : Bool} {cfg : Option BoardCfg} {image : List Byte}
    (h : Kept s t) : Kept s (runFirmware t slotB fallback cfg image) := by
  unfold Machine.runFirmware
  exact (Kept.ite (fun _ => .ite (fun _ => (Kept.ite (fun _ =>
      ((h.setMgmt (by rfl)).setMem (by rfl)).bumpKey.bumpKey.bootConfig.closeStale.record) fun _ =>
      ((h.setMgmt (by rfl)).setMem (by rfl)).bumpKey.bumpKey.bootConfig.closeStale).record) fun _ => .ite (fun _ =>
      ((h.setMgmt (by rfl)).setMem (by rfl)).bumpKey.bumpKey.bootConfig.closeStale.record) fun _ =>
      ((h.setMgmt (by rfl)).setMem (by rfl)).bumpKey.bumpKey.bootConfig.closeStale) fun _ => (Kept.ite (fun _ =>
      (Kept.ite (fun _ => ((h.setMgmt (by rfl)).setMem (by rfl)).bumpKey.bumpKey.bootConfig.closeStale.record) fun _
      => ((h.setMgmt (by rfl)).setMem (by rfl)).bumpKey.bumpKey.bootConfig.closeStale).record) fun _ =>
      .ite (fun _ => ((h.setMgmt (by rfl)).setMem (by rfl)).bumpKey.bumpKey.bootConfig.closeStale.record) fun _ =>
      ((h.setMgmt (by rfl)).setMem (by rfl)).bumpKey.bumpKey.bootConfig.closeStale).record).startPorts

theorem Kept.bootFirmware {misread : BitVec 2} {copies : List CfgCopy} {trimLost : BitVec 2} (h : Kept s t) :
    Kept s (bootFirmware t misread copies trimLost) := by
  unfold Machine.bootFirmware
  refine .ite (fun _ => h) fun _ => ?_
  split
  · exact (h.setMgmt (wf_bootTrim_win ..)).runFirmware
  · exact h.setMgmt (by rfl)

theorem Kept.bootStack {k : Fin 8} {channels : BitVec 32} (h : Kept s t) : Kept s (bootStack t k channels) := by
  unfold Machine.bootStack
  exact .ite (fun _ => h) fun _ => .ite (fun _ => (h.setMem (by rfl)).memPartRecord.loseMirror) fun _ =>
      ((h.setMem (by rfl)).setMgmt (by rfl)).foldl Kept.memPartRecord

theorem Kept.bootSkein {k : Fin 8} {spindles : BitVec 17} {flyers : BitVec 4}
    (h : Kept s t) : Kept s (bootSkein t k spindles flyers) := by
  unfold Machine.bootSkein
  exact .ite (fun _ => h) fun _ => ((h.setMgmt (by rfl)).foldl fun h' => .ite (fun _ => h'.setSk.record) fun _ =>
      h').foldl fun h' => .ite (fun _ => h'.setFlyer.record) fun _ => h'

theorem Kept.clockOut {i : Fin 2} (h : Kept s t) : Kept s (clockOut t i) := by
  unfold Machine.clockOut
  exact .ite (fun _ => (h.setMem (by rfl)).say) fun _ => h

theorem Kept.enumerate {i : Fin 2} {gib : Nat} {kept : Bool} (h : Kept s t) : Kept s (enumerate t i gib kept) := by
  unfold Machine.enumerate
  exact .ite (fun _ => h) fun _ => .ite (fun _ => h.setMem (by rfl)) fun _ =>
      (h.setMemFilter (by exact ⟨_, rfl⟩)).free

theorem Kept.bootCxl {gib0 : Nat} {gib1 : Nat} {kept : BitVec 2}
    (h : Kept s t) : Kept s (bootCxl t gib0 gib1 kept) := by
  unfold Machine.bootCxl
  exact (h.enumerate.enumerate.setMgmt (by rfl)).clockOut.clockOut

theorem Kept.doBringupPhaseAdvance {e : Boots} (h : Kept s t) : Kept s (doBringupPhaseAdvance e t) := by
  unfold Machine.doBringupPhaseAdvance
  dsimp only
  split
  · exact .ite (fun _ => h.bootFirmware.enterPhase) fun _ => h.bootFirmware
  · exact .ite (fun _ => (Kept.ite (fun _ => h.setMgmt (by rfl)) fun _ => h).enterPhase) fun _ => .ite (fun _ =>
      h.setMgmt (by rfl)) fun _ => h
  · exact .ite (fun _ => h.bootStack.enterPhase) fun _ => h.bootStack
  · exact .ite (fun _ => h.bootSkein.enterPhase) fun _ => h.bootSkein
  · exact .ite (fun _ => (Kept.ite (fun _ => h.bootCxl) fun _ => h).enterPhase) fun _ => .ite (fun _ =>
      h.bootCxl) fun _ => h

theorem Kept.rehome (h : Kept s t) : Kept s (rehome t) := by
  unfold Machine.rehome
  exact h.skeins.foldl fun h' => h'.setSk

theorem wf_resized_cells (m : Mem) (l : List (Fin 8)) : (if l = [] then m else m.resized).cells = m.cells := by
  split <;> rfl

theorem Kept.atFull {m : Mem} (h : Kept s t) (e : m.cells = t.mem.cells) :
    Kept s (Machine.enterPhase (Machine.clockOut (Machine.clockOut (t.setMem m) 0) 1) .full) :=
  (h.setMem e).clockOut.clockOut.enterPhase

theorem Kept.fullBegun {m : Mem} {l : List (Fin 8)} (h : Kept s t) (e : m.cells = t.mem.cells) :
    Kept s (Machine.enterPhase (Machine.clockOut (Machine.clockOut
      (t.setMem (if l = [] then m else m.resized)) 0) 1) .full) :=
  h.atFull (by rw [wf_resized_cells]; exact e)

theorem Kept.doFullService (h : Kept s t) : Kept s (doFullService t) := by
  unfold Machine.doFullService
  refine .ite (fun _ => h) fun _ => ?_
  extract_lets m il stack m1 s1 s2
  have h1 : Kept s s1 := h.fullBegun rfl
  clear_value s1 m
  exact (Kept.ite (fun _ => (h1.setMem (by rfl)).rebuildNow) fun _ => h1).rehome.boundaries.finishWork

theorem Kept.sideband {code : Nat} {pec : Bool} {f : State → State} (h : Kept s t) (hf : Kept s (f t)) :
    Kept s (sideband code pec t f) := by
  unfold Machine.sideband
  exact .ite (fun _ => h) fun _ => .ite (fun _ => h.say) fun _ => hf

theorem Kept.doSbId {pec : Bool} (h : Kept s t) : Kept s (doSbId pec t) := h.sideband h.say
theorem Kept.doSbStatus {pec : Bool} (h : Kept s t) : Kept s (doSbStatus pec t) := h.sideband h.say
theorem Kept.doSbPower {pec : Bool} (h : Kept s t) : Kept s (doSbPower pec t) := h.sideband h.say
theorem Kept.doSbTemp {pec : Bool} (h : Kept s t) : Kept s (doSbTemp pec t) := h.sideband h.say
theorem Kept.doSbFault {pec : Bool} (h : Kept s t) : Kept s (doSbFault pec t) := h.sideband h.say

theorem Kept.doSbCap {pec : Bool} {w : Option (BitVec 16)} (h : Kept s t) : Kept s (doSbCap pec w t) := by
  refine h.sideband ?_
  cases w with
  | none => exact h.say
  | some v => exact .ite (fun _ => (Kept.ite (fun _ => h.endBurst) fun _ => h).setPwr.say) fun _ => h.say

theorem Kept.doSbRun {pec : Bool} {w : Option (BitVec 8)} (h : Kept s t) : Kept s (doSbRun pec w t) := by
  refine h.sideband ?_
  cases w with
  | none => exact h.say
  | some v => exact .ite (fun _ => (h.setMgmt (by rfl)).say.settleRun) fun _ => h.say

theorem Kept.doSbWake {pec : Bool} {v : BitVec 8} (h : Kept s t) : Kept s (doSbWake pec v t) :=
  h.sideband (.ite (fun _ => h.say.startExit) fun _ => h.say)

theorem Kept.doSbWarmReset {pec : Bool} {v : BitVec 8} (h : Kept s t) : Kept s (doSbWarmReset pec v t) :=
  h.sideband (.ite (fun _ => h.say.doWarm) fun _ => h.say)

theorem Kept.doSbMgmtRestart {pec : Bool} {v : BitVec 8} (h : Kept s t) : Kept s (doSbMgmtRestart pec v t) :=
  h.sideband (.ite (fun _ => h.say.restartMgmt) fun _ => h.say)

theorem Kept.doSbEvents {pec : Bool} {w : Option (BitVec 16)} (h : Kept s t) : Kept s (doSbEvents pec w t) := by
  refine h.sideband ?_
  cases w with
  | none => exact h.say
  | some v => exact (h.setMgmt (by rfl)).say

theorem Kept.doSbRecovery {pec : Bool} {data : List Byte} (h : Kept s t) : Kept s (doSbRecovery pec data t) := by
  refine h.sideband (.ite (fun _ => h.say) fun _ => ?_)
  have h1 {n : Nat} : Kept s ((t.setMgmt { t.mgmt with
      recovered := n, win := cellsWrite t.mgmt.win (fwArea + t.mgmt.recovered) data }).say (.sideband 0x30 [])) :=
    (h.setMgmtWf fun c => wf_cellsWrite (h.win c) ..).say
  exact .ite (fun _ => h1) fun _ => .ite (fun _ => (h1.setMgmt (by rfl)).coldReset) fun _ =>
      (h1.setMgmt (by rfl)).clearFwArea

theorem Kept.doOtherSidebandCode {code : BitVec 8} (h : Kept s t) : Kept s (doOtherSidebandCode code t) := by
  unfold Machine.doOtherSidebandCode
  exact .ite (fun _ => h.say) fun _ => h

theorem Kept.doSmbusLineHeld {clk : Bool} (h : Kept s t) : Kept s (doSmbusLineHeld clk t) := by
  unfold Machine.doSmbusLineHeld
  exact .ite (fun _ => h) fun _ => (h.setMgmt (by rfl)).record

theorem Kept.doPmbusLineHeld (h : Kept s t) : Kept s (doPmbusLineHeld t) := by
  unfold Machine.doPmbusLineHeld
  exact .ite (fun _ => h) fun _ => (h.setMgmt (by rfl)).record.foldl Kept.doReadingsMissing


/-! ## Registers -/

theorem Kept.queueRegWrite {q : Fin 4096} {o : Nat} {w : Word} (h : Kept s t) : Kept s (queueRegWrite t q o w) := by
  unfold Machine.queueRegWrite
  split
  · exact h.setQ
  · exact h.setQ
  · exact h.setQ
  · exact .ite (fun _ => h.doQueueCommit) fun _ => h
  · exact .ite (fun _ => (Kept.ite (fun _ => (Kept.ite (fun _ => h.doQueueDrain) fun _ =>
      h).doQueueRelease) fun _ => .ite (fun _ => h.doQueueDrain) fun _ => h).doResetSeq) fun _ => .ite (fun _ =>
      (Kept.ite (fun _ => h.doQueueDrain) fun _ => h).doQueueRelease) fun _ => .ite (fun _ =>
      h.doQueueDrain) fun _ => h
  · exact h

theorem Kept.strandRegWrite {n : Fin 2048} {o : Nat} {w : Word}
    (h : Kept s t) : Kept s (strandRegWrite t n o w) := by
  unfold Machine.strandRegWrite
  split
  · exact h.setStrand
  · exact h.setStrand
  · exact h.setStrand
  · exact .ite (fun _ => h.doStrandCommit) fun _ => h
  · exact .ite (fun _ => h.doStrandClose) fun _ => h
  · exact h

theorem Kept.plyRegWrite {k : Fin 8} {o : Nat} {w : Word} (h : Kept s t) : Kept s (plyRegWrite t k o w) := by
  unfold Machine.plyRegWrite
  split
  · exact h.setSlot
  · split
    · exact .ite (fun _ => h.doPlyCommit) fun _ => h
    · exact .ite (fun _ => (Kept.ite (fun _ => h.doPlyFail) fun _ => h).doCancelPace) fun _ => .ite (fun _ =>
        h.doPlyFail) fun _ => h
    · exact h

theorem Kept.stageEth {off : Nat} {w : Word} (h : Kept s t) : Kept s (stageEth t off w) := by
  unfold Machine.stageEth
  exact h.eth

theorem Kept.stageTwine {off : Nat} {w : Word} (h : Kept s t) : Kept s (stageTwine t off w) := by
  unfold Machine.stageTwine
  exact h.twine

theorem Kept.unitRegWrite {w : Word} (h : Kept s t) : Kept s (unitRegWrite t w) := by
  unfold Machine.unitRegWrite
  dsimp only
  split
  · exact h.doRetire
  · exact h.doRestore
  · exact h.setUnit

theorem Kept.fwRegWrite {w : Word} (h : Kept s t) : Kept s (fwRegWrite t w) := by
  unfold Machine.fwRegWrite
  exact .ite (fun _ => (Kept.ite (fun _ => (Kept.ite (fun _ => (h.setMgmt (by rfl)).doFwStage) fun _ =>
      h.setMgmt (by rfl)).doFwConfirm) fun _ => .ite (fun _ => (h.setMgmt (by rfl)).doFwStage) fun _ =>
      h.setMgmt (by rfl)).doFwCancel) fun _ => .ite (fun _ => (Kept.ite (fun _ =>
      (h.setMgmt (by rfl)).doFwStage) fun _ => h.setMgmt (by rfl)).doFwConfirm) fun _ => .ite (fun _ =>
      (h.setMgmt (by rfl)).doFwStage) fun _ => h.setMgmt (by rfl)

theorem Kept.tolRegWrite {w : Word} (h : Kept s t) : Kept s (tolRegWrite t w) := by
  unfold Machine.tolRegWrite
  exact h.setPwr

theorem Kept.singleWrite {off : Nat} {w : Word} {u : State}
    (h : Kept s t) (e : singleWrite t off w = some u) : Kept s u := by
  unfold Machine.singleWrite at e
  dsimp only at e
  split at e <;> try cases e
  · have h1 := Kept.ite (c := hit w 8) (fun _ => h.doMapOut (c := ⟨bitsOf w.toNat 0 8 % 256, Nat.mod_lt _ (by
      omega)⟩)) fun _ => h
    exact .ite (fun _ => h1.doRebuild) fun _ => h1
  · exact h.setMem (by rfl)
  · exact .ite (fun _ => h.doMemErrCommit) fun _ => h
  · have h1 := Kept.ite (c := hit w 0) (fun _ => h.doFarReenable (i := 0)) fun _ => h
    exact .ite (fun _ => h1.doFarReenable) fun _ => h1
  · exact h.stageEth
  · exact .ite (fun _ => h.doEthCommit) fun _ => h
  · exact h.doWakeEnWrite
  · exact h.stageTwine
  · exact .ite (fun _ => h.doTwineCommit) fun _ => h
  · exact .ite (fun _ => h.doPeerCommit) fun _ => h
  · exact .ite (fun _ => h.doSubmit) fun _ => h
  · exact h.setSec (by rfl)
  · exact .ite (fun _ => h.doScrubCommit) fun _ => h
  · exact h.setPwr
  · exact .ite (fun _ => h.doPwrCommit) fun _ => h
  · exact h.tolRegWrite
  · have h1 := Kept.ite (c := hit w 0) (fun _ => h.doWarm) fun _ => h
    exact .ite (fun _ => h1.restartMgmt) fun _ => h1
  · exact h.doMgmtStop
  · exact h.unitRegWrite
  · exact .ite (fun _ => h.doFaultAck) fun _ => h
  · exact h.setMgmt (by rfl)
  · exact .ite (fun _ => h.doTrimWrite) fun _ => h
  · exact h.fwRegWrite
  · exact .ite (fun _ => h.doCreelQuotaCommit) fun _ => h

theorem Kept.tableArm {α : Type} {o : Option α} {f : α → State} {u : State}
    {r : Option State} (e : (o.map f <|> r) = some u)
    (hf : ∀ x, Kept s (f x)) (hr : r = some u → Kept s u) : Kept s u := by
  cases o with
  | none => exact hr e
  | some x => exact Option.some.inj e ▸ hf x

theorem Kept.tableWrite {off : Nat} {w : Word} {u : State} (h : Kept s t) (e : tableWrite t off w = some u) : Kept s
    u := by
  unfold Machine.tableWrite at e
  refine tableArm e (fun x => .ite (fun _ => h.doKeepWaysWrite) fun _ => h) fun e => ?_
  refine tableArm e (fun x => .ite (fun _ => h.stageEth) fun _ => h) fun e => ?_
  refine tableArm e (fun x => .ite (fun _ => h.stageTwine) fun _ => h) fun e => ?_
  refine tableArm e (fun x => h.plyRegWrite) fun e => ?_
  refine tableArm e (fun x => .ite (fun _ => h.ply) fun _ => h) fun e => ?_
  refine tableArm e (fun q => h.setQ) fun e => ?_
  refine tableArm e (fun x => h.queueRegWrite) fun e => ?_
  obtain ⟨x, -, rfl⟩ := Option.map_eq_some_iff.mp e
  exact h.strandRegWrite

theorem Kept.regWrite {off : Nat} {w : Word} (h : Kept s t) : Kept s (regWrite t off w) := by
  unfold Machine.regWrite
  cases e : Machine.singleWrite t off w with
  | some u => exact h.singleWrite e
  | none => cases e' : Machine.tableWrite t off w with
    | some u => exact h.tableWrite e'
    | none => exact h

theorem Kept.regsWrite {off n : Nat} {bs : List Byte} (h : Kept s t) : Kept s (regsWrite t off bs n) := by
  induction n generalizing t off bs with
  | zero => exact h
  | succ n ih => exact ih h.regWrite

theorem Kept.spaceWrite {off : Nat} {bs : List Byte} (h : Kept s t) : Kept s (spaceWrite t off bs) := by
  unfold Machine.spaceWrite
  split
  · exact h.setWin
  · exact h
  · exact h.regsWrite

theorem Kept.doRegisterWrite {off : Nat} {v : Word} (h : Kept s t) : Kept s (doRegisterWrite off v t) := by
  unfold Machine.doRegisterWrite
  exact .ite (fun _ => h.regWrite) fun _ => h


/-! ## TALLY -/

theorem Kept.shownQueues (h : Kept s t) : Kept s (shownQueues t) := by
  unfold Machine.shownQueues
  exact h.same (by rfl)

theorem Kept.takeTally {n : Fin 2048} {id : BitVec 32} (h : Kept s t) : Kept s (takeTally t n id) := by
  unfold Machine.takeTally
  exact .ite (fun _ => h.setMgmt (by rfl)) fun _ => h.notify

theorem Kept.tallyFrozen {id : BitVec 32} {rest : List (BitVec 32 × Fin 2048)} (h : Kept s t) :
    Kept s (t.setMgmt { t.mgmt with
      win := cellsWrite t.mgmt.win 0x8000000 (snapshot t id), frozen := true, tally := rest }) := by
  generalize snapshot t id = b
  exact h.setMgmtWf fun c => wf_cellsWrite (h.win c) ..

theorem Kept.doTallyFreeze (h : Kept s t) : Kept s (doTallyFreeze t) := by
  unfold Machine.doTallyFreeze
  split
  · exact h
  · exact .ite (fun _ => h) fun _ => h.tallyFrozen.notify


/-! ## Frames -/

theorem Kept.refuseFrame {n : Fin 2048} {f : RxFrame} {check : Nat}
    (h : Kept s t) : Kept s (refuseFrame t n f check).1 :=
  h.twine.record

theorem Kept.walkTarget {n : Fin 2048} {w : Need} {a : Nat} {len : Nat}
    (h : Kept s t) : Kept s (walkTarget t n w a len) := by
  unfold Machine.walkTarget
  exact .ite (fun _ => h.walkReach) fun _ => h

theorem Kept.applyWrite {n : Fin 2048} {f : RxFrame} {a : Nat} {bs : List Byte} (h : Kept s t) :
    Kept s (applyWrite t n f a bs).1 := by
  unfold Machine.applyWrite
  split
  · exact h
  dsimp only
  split
  · exact h.walkTarget.refuseFrame
  · exact h.walkTarget.spaceWrite
  · split
    · exact h.walkTarget.touchSegs.writeSegs
    · exact h.walkTarget.touchSegs.writeSegs.poisonRecord

theorem Kept.respond {n : Fin 2048} {psn : BitVec 32} {bs : List Byte} {mgmt : optParam Bool false}
    (h : Kept s t) : Kept s (respond t n psn bs mgmt) := by
  unfold Machine.respond
  exact h.foldl Kept.post

theorem Kept.applyRead {n : Fin 2048} {f : RxFrame} {a len : Nat}
    (h : Kept s t) : Kept s (applyRead t n f a len).1 := by
  unfold Machine.applyRead
  split
  · exact h
  dsimp only
  split
  · exact h.walkTarget.refuseFrame
  · exact h.walkTarget.respond
  · split
    · exact h.walkTarget.poisonRecord
    · exact h.walkTarget.touchSegs.respond

theorem Kept.applyAdd {n : Fin 2048} {f : RxFrame} {aty a : Nat} {fetch : Bool} {bs : List Byte} (h : Kept s t) :
    Kept s (applyAdd t n f aty fetch a bs).1 := by
  unfold Machine.applyAdd
  split
  · exact h
  dsimp only
  split
  · exact h.walkTarget.refuseFrame
  · exact h.walkTarget
  · split
    · exact h.walkTarget.poisonRecord
    · exact .ite (fun _ => h.walkTarget.addSegs.respond) fun _ => h.walkTarget.addSegs

theorem Kept.applyResp {n : Fin 2048} {a : Word} {bs : List Byte} (h : Kept s t) : Kept s (applyResp t n a bs) := by
  unfold Machine.applyResp
  dsimp only
  split
  · exact h
  · split
    · exact h
    · exact (Kept.ite (fun _ => h.touchSegs.writeSegs) fun _ => h.touchSegs).poisonRecord.setRma.settleRmas

theorem Kept.refuseRing {n : Fin 2048} {q : Fin 4096} (h : Kept s t) : Kept s (refuseRing t n q) := h.draw.post

theorem Kept.ringTail {n : Fin 2048} {q : Fin 4096} {tail : Nat} (h : Kept s t) : Kept s (ringTail t n q tail) := by
  unfold Machine.ringTail
  exact .ite (fun _ => h.refuseRing) fun _ => h.setQ

theorem Kept.applyDoorbell {n : Fin 2048} {q : Fin 4096} {drain : Bool} {release : Bool} {tail : Nat}
    (h : Kept s t) : Kept s (applyDoorbell t n q drain release tail) := by
  unfold Machine.applyDoorbell
  exact .ite (fun _ => h.refuseRing) fun _ => .ite (fun _ => (Kept.ite (fun _ => (Kept.ite (fun _ =>
      h.ringTail.drainQueue) fun _ => h.ringTail).releaseQueue) fun _ => .ite (fun _ =>
      h.ringTail.drainQueue) fun _ => h.ringTail).runAcceptance) fun _ => .ite (fun _ => (Kept.ite (fun _ =>
      h.ringTail.drainQueue) fun _ => h.ringTail).releaseQueue) fun _ => .ite (fun _ =>
      h.ringTail.drainQueue) fun _ => h.ringTail

theorem Kept.applyFrame {n : Fin 2048} {f : RxFrame} (h : Kept s t) : Kept s (applyFrame t n f).1 := by
  unfold Machine.applyFrame
  cases f.body with
  | write a d => exact h.applyWrite
  | writeFlagged a d => exact h.applyWrite
  | read a len => exact h.applyRead
  | readResp a d => exact h.applyResp
  | atomicAdd aty fe a d => exact h.applyAdd
  | doorbell q dr rl tail => exact h.applyDoorbell
  | tally id => exact h.takeTally
  | lag w0 w1 => exact h.lagFrame
  | pace w0 w1 => exact h.paceFrame

theorem Kept.sendAck {n : Fin 2048} {first : List (BitVec 32 × Nat)}
    (h : Kept s t) : Kept s (sendAck t n first) := by
  unfold Machine.sendAck
  exact .ite (fun _ => h) fun _ => .ite (fun _ => h.setStrand) fun _ => h.setStrand.say

theorem Kept.ackAgain {n : Fin 2048} {psn : BitVec 32} (h : Kept s t) : Kept s (ackAgain t n psn) := by
  unfold Machine.ackAgain
  exact h.sendAck

theorem Kept.doAckDelayExpiry {n : Fin 2048} (h : Kept s t) : Kept s (doAckDelayExpiry n t) := by
  unfold Machine.doAckDelayExpiry
  exact .ite (fun _ => h) fun _ => h.sendAck

theorem Kept.applyMark {n : Fin 2048} {f : RxFrame} (h : Kept s t) : Kept s (applyMark t n f) := by
  unfold Machine.applyMark
  exact .ite (fun _ => h.applyFrame.setStrand.sendAck) fun _ => h.applyFrame.setStrand

theorem Kept.releaseHeld {fuel : Nat} {n : Fin 2048} (h : Kept s t) : Kept s (releaseHeld fuel t n) := by
  induction fuel generalizing t with
  | zero => exact h
  | succ fuel ih =>
    unfold Machine.releaseHeld
    dsimp only
    split
    · exact ih h.setStrand.applyMark
    · exact h

theorem Kept.sequence {n : Fin 2048} {f : RxFrame} (h : Kept s t) : Kept s (sequence t n f) := by
  unfold Machine.sequence
  exact .ite (fun _ => h.twine.ackAgain) fun _ => .ite (fun _ => h) fun _ => .ite (fun _ => h.sendAck) fun _ =>
      .ite (fun _ => .ite (fun _ => h.setStrand.sendAck) fun _ => h.setStrand) fun _ => h.applyMark.releaseHeld

theorem Kept.tellRma {sts : List (BitVec 32 × BitVec 8)} {f : TxFrame}
    (h : Kept s t) : Kept s (tellRma sts t f) := by
  unfold Machine.tellRma
  split
  · exact h.setRma
  · exact h

theorem Kept.takeAck {n : Fin 2048} {ackPsn : BitVec 32} {bits : List (Fin 1024)}
    {sts : List (BitVec 32 × BitVec 8)} {echo : Option (BitVec 32)}
    (h : Kept s t) : Kept s (takeAck t n ackPsn bits sts echo) := by
  unfold Machine.takeAck
  exact (h.setStrand.foldl Kept.tellRma).settleRmas

theorem Kept.turnAway {h0 : FrameHdr} {len : Nat} (h : Kept s t) : Kept s (turnAway t h0 len) := by
  unfold Machine.turnAway
  exact .ite (fun _ => h.doFcsBadFrame) fun _ => h

theorem Kept.holdFrame {f : RxFrame} (h : Kept s t) : Kept s (holdFrame t f) := by
  unfold Machine.holdFrame
  exact .ite (fun _ => h.twine.sendXoff) fun _ => h.twine

theorem Kept.takeFrame {f : RxFrame} (h : Kept s t) : Kept s (takeFrame t f) := by
  unfold Machine.takeFrame
  split
  · exact h.badFrame
  · exact h.setStrand.takeAck.sequence

theorem Kept.receive {h0 : FrameHdr} {b : RxBody} (h : Kept s t) : Kept s (receive t h0 b) := by
  unfold Machine.receive
  exact .ite (fun _ => h.turnAway) fun _ => .ite (fun _ => h.dropRx) fun _ => .ite (fun _ => h) fun _ =>
      .ite (fun _ => (Kept.ite (fun _ => h.startExit) fun _ => h).holdFrame) fun _ => (Kept.ite (fun _ =>
      h.startExit) fun _ => h).takeFrame

theorem Kept.doWrite {h0 : FrameHdr} {addr : Word} {data : List Byte}
    (h : Kept s t) : Kept s (doWrite h0 addr data t) := by
  unfold Machine.doWrite
  exact h.receive

theorem Kept.doWriteFlagged {h0 : FrameHdr} {addr : Word} {data : List Byte}
    (h : Kept s t) : Kept s (doWriteFlagged h0 addr data t) := by
  unfold Machine.doWriteFlagged
  exact h.receive

theorem Kept.doRead {h0 : FrameHdr} {addr : Word} {len : BitVec 32}
    (h : Kept s t) : Kept s (doRead h0 addr len t) := by
  unfold Machine.doRead
  exact h.receive

theorem Kept.doReadResp {h0 : FrameHdr} {addr : Word} {data : List Byte}
    (h : Kept s t) : Kept s (doReadResp h0 addr data t) := by
  unfold Machine.doReadResp
  exact h.receive

theorem Kept.doAtomicAdd {h0 : FrameHdr} {aty : Fin 8} {fetch : Bool} {addr : Word} {data : List Byte}
    (h : Kept s t) : Kept s (doAtomicAdd h0 aty fetch addr data t) := by
  unfold Machine.doAtomicAdd
  exact h.receive

theorem Kept.doDoorbell {h0 : FrameHdr} {q : Fin 4096} {drain : Bool} {release : Bool} {tail : Word}
    (h : Kept s t) : Kept s (doDoorbell h0 q drain release tail t) := by
  unfold Machine.doDoorbell
  exact h.receive

theorem Kept.doTally {h0 : FrameHdr} {id : BitVec 32} (h : Kept s t) : Kept s (doTally h0 id t) := by
  unfold Machine.doTally
  exact h.receive

theorem Kept.doLag {h0 : FrameHdr} {w0 : Word} {w1 : Word} (h : Kept s t) : Kept s (doLag h0 w0 w1 t) := by
  unfold Machine.doLag
  exact h.receive

theorem Kept.doPace {h0 : FrameHdr} {w0 : Word} {w1 : Word} (h : Kept s t) : Kept s (doPace h0 w0 w1 t) := by
  unfold Machine.doPace
  exact h.receive

theorem Kept.doAck {h0 : FrameHdr} {bits : List (Fin 1024)} {sts : List (BitVec 32 × BitVec 8)}
    (h : Kept s t) : Kept s (doAck h0 bits sts t) := by
  unfold Machine.doAck
  dsimp only
  split
  · exact h.turnAway
  · split
    · exact h.dropRx
    · split
      · exact (Kept.ite (fun _ => h.startExit) fun _ => h).badFrame
      · exact (Kept.ite (fun _ => h.startExit) fun _ => h).setStrand.takeAck

theorem Kept.leaveP3 (h : Kept s t) : Kept s (leaveP3 t) := by
  unfold Machine.leaveP3
  exact (h.same (by rfl)).interruptAll.foldl Kept.takeFrame

theorem Kept.doPowerStateExitDone {u : PwrUnit} (h : Kept s t) : Kept s (doPowerStateExitDone u t) := by
  unfold Machine.doPowerStateExitDone
  split
  · exact .ite (fun _ => h.setSk) fun _ => h
  · exact .ite (fun _ => h.setSk) fun _ => h
  · exact .ite (fun _ => h.leaveP3) fun _ => h
  · exact .ite (fun _ => h.leaveP4) fun _ => h


/-! ## Words -/

theorem Kept.doMalformedBundle {p : Fin 136} {ws : List Word}
    (h : Kept s t) : Kept s (doMalformedBundle p ws t) := by
  unfold Machine.doMalformedBundle
  dsimp only
  split
  · exact h
  · split
    · exact h
    · split
      · exact h.setSp (by rfl)
      · split
        · exact h.setSp (by rfl)
        · split
          · exact h.setSp (by rfl)
          · exact h.foldl Kept.presentWord


/-! ## The tick -/

theorem Kept.cycleSpindle {p : Fin 136} (h : Kept s t) : Kept s (cycleSpindle t p) := by
  unfold Machine.cycleSpindle
  exact (h.setSp (by rfl)).tryIssue

theorem Kept.cycleSkein {k : Fin 8} (h : Kept s t) : Kept s (cycleSkein t k) := by
  unfold Machine.cycleSkein
  exact .ite (fun _ => h.foldl fun h' => h'.setSp (by rfl)) fun _ => .ite (fun _ => h) fun _ => .ite (fun _ =>
      h.foldl Kept.cycleSpindle) fun _ => h

theorem Kept.whorlSkein {k : Fin 8} (h : Kept s t) : Kept s (whorlSkein t k) := by
  unfold Machine.whorlSkein
  dsimp only
  split
  · exact h.setSk
  · split
    · exact h.setSk.cycleSkein
    · exact .ite (fun _ => h.setSk) fun _ => h.setSk.cycleSkein

theorem Kept.whorl (h : Kept s t) : Kept s (whorl t) := by
  unfold Machine.whorl
  exact h.foldl Kept.whorlSkein

theorem Kept.idleSlot {k : Fin 8} (h : Kept s t) : Kept s (idleSlot t k) := by
  unfold Machine.idleSlot
  exact .ite (fun _ => h) fun _ => h.setSlot

theorem Kept.fecTick (h : Kept s t) : Kept s (fecTick t) := by
  unfold Machine.fecTick
  exact h.eth


/-! ## The commands and the tick -/

theorem Kept.exec_plain {c : Instr} (hc : c.hdr = none) : ∃ u, exec c s = .next u ∧ Kept s u := by
  cases c with
  | ldwLoadDone _ => exact ⟨_, rfl, refl.doLdwLoadDone⟩
  | mmaStart _ => exact ⟨_, rfl, refl.doMmaStart⟩
  | mmaCommit _ => exact ⟨_, rfl, refl.doMmaCommit⟩
  | vectorResultWrite _ => exact ⟨_, rfl, refl.doVectorResultWrite⟩
  | rowUnitComplete _ => exact ⟨_, rfl, refl.doRowUnitComplete⟩
  | quantiserComplete _ => exact ⟨_, rfl, refl.doQuantiserComplete⟩
  | exceptionTaken _ => exact ⟨_, rfl, refl.doExceptionTaken⟩
  | saveImageFreed _ => exact ⟨_, rfl, refl.doSaveImageFreed⟩
  | shareEnd _ => exact ⟨_, rfl, refl.doShareEnd⟩
  | shareLaunch _ _ => exact ⟨_, rfl, refl.doShareLaunch⟩
  | flyerMoveComplete _ _ _ => exact ⟨_, rfl, refl.doFlyerMoveComplete⟩
  | moveDeadlineExpiry _ _ _ => exact ⟨_, rfl, refl.doMoveDeadlineExpiry⟩
  | registerWrite _ _ => exact ⟨_, rfl, refl.doRegisterWrite⟩
  | creelQuotaCommit => exact ⟨_, rfl, refl.doCreelQuotaCommit⟩
  | memErrCommit => exact ⟨_, rfl, refl.doMemErrCommit⟩
  | queueCommit _ => exact ⟨_, rfl, refl.doQueueCommit⟩
  | ethCommit => exact ⟨_, rfl, refl.doEthCommit⟩
  | strandCommit _ => exact ⟨_, rfl, refl.doStrandCommit⟩
  | twineCommit => exact ⟨_, rfl, refl.doTwineCommit⟩
  | peerCommit => exact ⟨_, rfl, refl.doPeerCommit⟩
  | plyCommit _ => exact ⟨_, rfl, refl.doPlyCommit⟩
  | pwrCommit => exact ⟨_, rfl, refl.doPwrCommit⟩
  | scrubCommit => exact ⟨_, rfl, refl.doScrubCommit⟩
  | mapOut _ => exact ⟨_, rfl, refl.doMapOut⟩
  | rebuild => exact ⟨_, rfl, refl.doRebuild⟩
  | farReenable _ => exact ⟨_, rfl, refl.doFarReenable⟩
  | keepWaysWrite _ _ => exact ⟨_, rfl, refl.doKeepWaysWrite⟩
  | queueDrain _ => exact ⟨_, rfl, refl.doQueueDrain⟩
  | queueRelease _ => exact ⟨_, rfl, refl.doQueueRelease⟩
  | resetSeq _ => exact ⟨_, rfl, refl.doResetSeq⟩
  | strandClose _ => exact ⟨_, rfl, refl.doStrandClose⟩
  | plyFail _ _ => exact ⟨_, rfl, refl.doPlyFail⟩
  | cancelPace _ => exact ⟨_, rfl, refl.doCancelPace⟩
  | wakeEnWrite _ => exact ⟨_, rfl, refl.doWakeEnWrite⟩
  | fwStage => exact ⟨_, rfl, refl.doFwStage⟩
  | fwStageDone _ => exact ⟨_, rfl, refl.doFwStageDone⟩
  | fwConfirm => exact ⟨_, rfl, refl.doFwConfirm⟩
  | fwCancel => exact ⟨_, rfl, refl.doFwCancel⟩
  | trimWrite => exact ⟨_, rfl, refl.doTrimWrite⟩
  | trimWriteDone => exact ⟨_, rfl, refl.doTrimWriteDone⟩
  | mgmtStop _ => exact ⟨_, rfl, refl.doMgmtStop⟩
  | warm => exact ⟨_, rfl, refl.doWarm⟩
  | warmResetResume => exact ⟨_, rfl, refl.doWarmResetResume⟩
  | mgmtRestart => exact ⟨_, rfl, refl.restartMgmt⟩
  | mgmtRestartEnd => exact ⟨_, rfl, refl.doMgmtRestartEnd⟩
  | faultAck _ => exact ⟨_, rfl, refl.doFaultAck⟩
  | retire _ => exact ⟨_, rfl, refl.doRetire⟩
  | restore _ => exact ⟨_, rfl, refl.doRestore⟩
  | restoreSelftestDone _ => exact ⟨_, rfl, refl.doRestoreSelftestDone⟩
  | mapChangeApply _ => exact ⟨_, rfl, refl.doMapChangeApply⟩
  | doorbell _ _ _ _ _ => exact ⟨_, rfl, refl.doDoorbell⟩
  | acceptanceResume _ => exact ⟨_, rfl, refl.doAcceptanceResume⟩
  | kernel _ => exact ⟨_, rfl, refl.doKernel⟩
  | copy _ => exact ⟨_, rfl, refl.doCopy⟩
  | moveAdd _ => exact ⟨_, rfl, refl.doMoveAdd⟩
  | fill _ => exact ⟨_, rfl, refl.doFill⟩
  | bind _ => exact ⟨_, rfl, refl.doBind⟩
  | evictionComplete _ => exact ⟨_, rfl, refl.doEvictionComplete⟩
  | bindFill _ _ _ => exact ⟨_, rfl, refl.doBindFill⟩
  | flush _ => exact ⟨_, rfl, refl.doFlush⟩
  | moveRelease _ => exact ⟨_, rfl, refl.doMoveRelease⟩
  | pin _ => exact ⟨_, rfl, refl.doPin⟩
  | unpin _ => exact ⟨_, rfl, refl.doUnpin⟩
  | rmaWrite _ => exact ⟨_, rfl, refl.doRmaWrite⟩
  | rmaWriteFlagged _ => exact ⟨_, rfl, refl.doRmaWriteFlagged⟩
  | rmaRead _ => exact ⟨_, rfl, refl.doRmaRead⟩
  | rmaAtomicAdd _ => exact ⟨_, rfl, refl.doRmaAtomicAdd⟩
  | allReduce _ => exact ⟨_, rfl, refl.doAllReduce⟩
  | reduceScatter _ => exact ⟨_, rfl, refl.doReduceScatter⟩
  | allGather _ => exact ⟨_, rfl, refl.doAllGather⟩
  | broadcast _ => exact ⟨_, rfl, refl.doBroadcast⟩
  | allToAll _ => exact ⟨_, rfl, refl.doAllToAll⟩
  | barrier _ => exact ⟨_, rfl, refl.doBarrier⟩
  | checkpointBarrier _ => exact ⟨_, rfl, refl.doCheckpointBarrier⟩
  | adamw _ => exact ⟨_, rfl, refl.doAdamw⟩
  | lion _ => exact ⟨_, rfl, refl.doLion⟩
  | sgdWithMomentum _ => exact ⟨_, rfl, refl.doSgdWithMomentum⟩
  | check _ => exact ⟨_, rfl, refl.doCheck⟩
  | digest _ => exact ⟨_, rfl, refl.doDigest⟩
  | wait _ => exact ⟨_, rfl, refl.doWait⟩
  | fence _ => exact ⟨_, rfl, refl.doFence⟩
  | mark _ => exact ⟨_, rfl, refl.doMark⟩
  | tableUpdate _ => exact ⟨_, rfl, refl.doTableUpdate⟩
  | resume _ => exact ⟨_, rfl, refl.doResume⟩
  | tableUpdateApply _ => exact ⟨_, rfl, refl.doTableUpdateApply⟩
  | tableUpdateComplete _ => exact ⟨_, rfl, refl.doTableUpdateComplete⟩
  | sweepUnitDone _ _ => exact ⟨_, rfl, refl.doSweepUnitDone⟩
  | sweepComplete _ => exact ⟨_, rfl, refl.doSweepComplete⟩
  | sweepRecovery _ => exact ⟨_, rfl, refl.doSweepRecovery⟩
  | descriptorComplete _ _ _ _ => exact ⟨_, rfl, refl.doDescriptorComplete⟩
  | drainComplete _ => exact ⟨_, rfl, refl.doDrainComplete⟩
  | tally _ _ => exact ⟨_, rfl, refl.doTally⟩
  | tallyFreeze => exact ⟨_, rfl, refl.doTallyFreeze⟩
  | mirrorRebuildComplete => exact ⟨_, rfl, refl.doMirrorRebuildComplete⟩
  | patrolScrub _ _ _ => exact ⟨_, rfl, refl.doPatrolScrub⟩
  | channelFault _ => exact ⟨_, rfl, refl.doChannelFault⟩
  | migrationGranuleCopy _ => exact ⟨_, rfl, refl.doMigrationGranuleCopy⟩
  | migrationEnd => exact ⟨_, rfl, refl.doMigrationEnd⟩
  | channelRestoreJoin _ => exact ⟨_, rfl, refl.doChannelRestoreJoin⟩
  | stackLost _ => exact ⟨_, rfl, refl.doStackLost⟩
  | cxlLinkDrop _ => exact ⟨_, rfl, refl.doCxlLinkDrop⟩
  | cxlRetrain _ _ => exact ⟨_, rfl, refl.doCxlRetrain⟩
  | distaffFail _ => exact ⟨_, rfl, refl.doDistaffFail⟩
  | spindleFail _ => exact ⟨_, rfl, refl.doSpindleFail⟩
  | flyerFail _ _ => exact ⟨_, rfl, refl.doFlyerFail⟩
  | d2dLinkRetry => exact ⟨_, rfl, refl.doD2dLinkRetry⟩
  | refclkLoss => exact ⟨_, rfl, refl.doRefclkLoss⟩
  | write _ _ _ => exact ⟨_, rfl, refl.doWrite⟩
  | writeFlagged _ _ _ => exact ⟨_, rfl, refl.doWriteFlagged⟩
  | read _ _ _ => exact ⟨_, rfl, refl.doRead⟩
  | readResp _ _ _ => exact ⟨_, rfl, refl.doReadResp⟩
  | atomicAdd _ _ _ _ _ => exact ⟨_, rfl, refl.doAtomicAdd⟩
  | ack _ _ _ => exact ⟨_, rfl, refl.doAck⟩
  | ackDelayExpiry _ => exact ⟨_, rfl, refl.doAckDelayExpiry⟩
  | frameTransmit _ => exact ⟨_, rfl, refl.doFrameTransmit⟩
  | retransmitTimeout _ => exact ⟨_, rfl, refl.doRetransmitTimeout⟩
  | pathLostExpiry _ => exact ⟨_, rfl, refl.doPathLostExpiry⟩
  | warmHoldExpiry _ => exact ⟨_, rfl, refl.doWarmHoldExpiry⟩
  | hello _ _ => exact ⟨_, rfl, refl.doHello⟩
  | helloTimer _ => exact ⟨_, rfl, refl.doHelloTimer⟩
  | openingHelloTimer _ => exact ⟨_, rfl, refl.doOpeningHelloTimer⟩
  | keyPhaseAdvance _ => exact ⟨_, rfl, refl.doKeyPhaseAdvance⟩
  | oldKeyPhaseExpiry _ => exact ⟨_, rfl, refl.doOldKeyPhaseExpiry⟩
  | reservedTypeFrame _ => exact ⟨_, rfl, refl.doReservedTypeFrame⟩
  | wake _ _ _ _ => exact ⟨_, rfl, refl.doWake⟩
  | lag _ _ _ => exact ⟨_, rfl, refl.doLag⟩
  | lagTrigger _ _ _ => exact ⟨_, rfl, refl.doLagTrigger⟩
  | pace _ _ _ => exact ⟨_, rfl, refl.doPace⟩
  | paceExpiry _ => exact ⟨_, rfl, refl.doPaceExpiry⟩
  | getVersion => exact ⟨_, rfl, refl.spdmWakes.spdm⟩
  | getCapabilities => exact ⟨_, rfl, refl.spdmWakes.spdm⟩
  | negotiateAlgorithms _ => exact ⟨_, rfl, Kept.ite (fun _ => refl.spdmWakes.spdm) fun _ => refl.spdmWakes.spdm⟩
  | getDigests => exact ⟨_, rfl, refl.spdmWakes.spdm⟩
  | getCertificate _ => exact ⟨_, rfl, Kept.ite (fun _ => refl.spdmWakes.spdm) fun _ => refl.spdmWakes.spdm⟩
  | challenge _ => exact ⟨_, rfl, refl.spdmWakes.spdm⟩
  | getMeasurements _ => exact ⟨_, rfl, refl.spdmWakes.doGetMeasurements⟩
  | keyExchange _ _ => exact ⟨_, rfl, refl.spdmWakes.doKeyExchange⟩
  | finish _ => exact ⟨_, rfl, refl.spdmWakes.doFinish⟩
  | endSession _ => exact ⟨_, rfl, refl.spdmWakes.doEndSession⟩
  | keyUpdate _ => exact ⟨_, rfl, refl.spdmWakes.inSession⟩
  | heartbeat _ => exact ⟨_, rfl, refl.spdmWakes.inSession⟩
  | sessionIdleTimeout _ => exact ⟨_, rfl, refl.doSessionIdleTimeout⟩
  | leaseRequest _ _ _ => exact ⟨_, rfl, refl.spdmWakes.doLeaseRequest⟩
  | wakeKeyFetch _ => exact ⟨_, rfl, refl.spdmWakes.doWakeKeyFetch⟩
  | submit _ _ => exact ⟨_, rfl, (Kept.ite (fun _ => refl.spdmWakes) fun _ => refl).doSubmit⟩
  | tenancyOnSet => exact ⟨_, rfl, refl.doTenancyOnSet⟩
  | tenancyKeyErase => exact ⟨_, rfl, refl.doTenancyKeyErase⟩
  | scrubEnd => exact ⟨_, rfl, refl.doScrubEnd⟩
  | keyRewriteDrained _ => exact ⟨_, rfl, refl.doKeyRewriteDrained⟩
  | transitOldExpiry => exact ⟨_, rfl, refl.doTransitOldExpiry⟩
  | portDown _ => exact ⟨_, rfl, refl.doPortDown⟩
  | portLinkUp _ => exact ⟨_, rfl, refl.doPortLinkUp⟩
  | portJoin _ => exact ⟨_, rfl, refl.doPortJoin⟩
  | trainingRestart _ => exact ⟨_, rfl, refl.doTrainingRestart⟩
  | portFail _ => exact ⟨_, rfl, refl.doPortFail⟩
  | arpRequest _ _ _ => exact ⟨_, rfl, refl.doArpRequest⟩
  | lldpduReceive _ _ _ => exact ⟨_, rfl, refl.doLldpduReceive⟩
  | lldpTimer _ => exact ⟨_, rfl, refl.doLldpTimer⟩
  | lldpTtlExpiry _ => exact ⟨_, rfl, refl.doLldpTtlExpiry⟩
  | pauseFrame _ _ _ _ => exact ⟨_, rfl, refl.doPauseFrame⟩
  | pauseExpiry _ _ => exact ⟨_, rfl, refl.doPauseExpiry⟩
  | otherFrameDiscard _ => exact ⟨_, rfl, refl⟩
  | xoffResend _ _ => exact ⟨_, rfl, refl.doXoffResend⟩
  | xon _ _ => exact ⟨_, rfl, refl.doXon⟩
  | pauseStorm _ => exact ⟨_, rfl, refl.doPauseStorm⟩
  | stormEnd _ => exact ⟨_, rfl, refl.doStormEnd⟩
  | groupReady _ _ => exact ⟨_, rfl, refl.doGroupReady⟩
  | signatureRoundComplete _ _ => exact ⟨_, rfl, refl.doSignatureRoundComplete⟩
  | collectiveChunkAcked _ _ => exact ⟨_, rfl, refl.doCollectiveChunkAcked⟩
  | skipDecision _ _ => exact ⟨_, rfl, refl.doSkipDecision⟩
  | digestComparison _ _ => exact ⟨_, rfl, refl.doDigestComparison⟩
  | memberFail _ _ => exact ⟨_, rfl, refl.doMemberFail⟩
  | adoptionAdmit _ _ => exact ⟨_, rfl, refl.doAdoptionAdmit⟩
  | estimatorSample _ _ _ => exact ⟨_, rfl, refl.doEstimatorSample⟩
  | dividerStepDown _ _ => exact ⟨_, rfl, refl.doDividerStepDown⟩
  | stretchEnd _ => exact ⟨_, rfl, refl.doStretchEnd⟩
  | droopDetect _ => exact ⟨_, rfl, refl.doDroopDetect⟩
  | regulatorRead _ _ _ _ => exact ⟨_, rfl, refl.doRegulatorRead⟩
  | statusWordPoll _ => exact ⟨_, rfl, refl.doStatusWordPoll⟩
  | regulatorFaultCleared => exact ⟨_, rfl, refl.doRegulatorFaultCleared⟩
  | inletPoll _ => exact ⟨_, rfl, refl.doInletPoll⟩
  | readingsMissing _ => exact ⟨_, rfl, refl.doReadingsMissing⟩
  | grantTick _ => exact ⟨_, rfl, refl.doGrantTick⟩
  | burstExpiry => exact ⟨_, rfl, refl.doBurstExpiry⟩
  | energyAttribution _ _ _ => exact ⟨_, rfl, refl.doEnergyAttribution⟩
  | powerStateEntry _ => exact ⟨_, rfl, refl.doPowerStateEntry⟩
  | powerStateExit _ => exact ⟨_, rfl, refl.doPowerStateExit⟩
  | thermalThreshold _ => exact ⟨_, rfl, refl.doThermalThreshold⟩
  | thermalStepTimer _ => exact ⟨_, rfl, refl.doThermalStepTimer⟩
  | thermtrip => exact ⟨_, rfl, refl.doThermtrip⟩
  | airFaultAssert => exact ⟨_, rfl, refl.doAirFaultAssert⟩
  | airFaultPowerDown => exact ⟨_, rfl, refl.doAirFaultPowerDown⟩
  | airFaultClear => exact ⟨_, rfl, refl.doAirFaultClear⟩
  | overrideExpiry => exact ⟨_, rfl, refl.doOverrideExpiry⟩
  | coldReset => exact ⟨_, rfl, refl.coldReset⟩
  | resetNRise _ => exact ⟨_, rfl, refl.doResetNRise⟩
  | whorlLockRetry _ => exact ⟨_, rfl, refl.doWhorlLockRetry⟩
  | bringupPhaseAdvance _ => exact ⟨_, rfl, refl.doBringupPhaseAdvance⟩
  | fullService => exact ⟨_, rfl, refl.doFullService⟩
  | mgmtWatchdogExpiry => exact ⟨_, rfl, refl.restartMgmt⟩
  | testEnHigh => exact ⟨_, rfl, refl.doTestEnHigh⟩
  | sbId _ => exact ⟨_, rfl, refl.doSbId⟩
  | sbStatus _ => exact ⟨_, rfl, refl.doSbStatus⟩
  | sbPower _ => exact ⟨_, rfl, refl.doSbPower⟩
  | sbTemp _ => exact ⟨_, rfl, refl.doSbTemp⟩
  | sbCap _ _ => exact ⟨_, rfl, refl.doSbCap⟩
  | sbRun _ _ => exact ⟨_, rfl, refl.doSbRun⟩
  | sbWake _ _ => exact ⟨_, rfl, refl.doSbWake⟩
  | sbWarmReset _ _ => exact ⟨_, rfl, refl.doSbWarmReset⟩
  | sbMgmtRestart _ _ => exact ⟨_, rfl, refl.doSbMgmtRestart⟩
  | sbFault _ => exact ⟨_, rfl, refl.doSbFault⟩
  | sbEvents _ _ => exact ⟨_, rfl, refl.doSbEvents⟩
  | sbRecovery _ _ => exact ⟨_, rfl, refl.doSbRecovery⟩
  | smbusLineHeld _ => exact ⟨_, rfl, refl.doSmbusLineHeld⟩
  | pmbusLineHeld => exact ⟨_, rfl, refl.doPmbusLineHeld⟩
  | packagePowerLoss => exact ⟨_, rfl, refl.doPackagePowerLoss⟩
  | malformedBundle _ _ => exact ⟨_, rfl, refl.doMalformedBundle⟩
  | fcsBadFrame _ _ => exact ⟨_, rfl, refl.doFcsBadFrame⟩
  | airFaultRise _ => exact ⟨_, rfl, refl.doAirFaultRise⟩
  | tapInstruction _ => exact ⟨_, rfl, refl.doTapInstruction⟩
  | powerStateExitDone _ => exact ⟨_, rfl, refl.doPowerStateExitDone⟩
  | otherSidebandCode _ => exact ⟨_, rfl, refl.doOtherSidebandCode⟩
  | _ => exact nomatch hc

theorem exec_kept (c : Instr) (s : State) : ∃ u, exec c s = .next u ∧ Kept s u := by
  cases hc : c.hdr with
  | none => exact Kept.exec_plain hc
  | some h => exact ⟨_, exec_word hc s, Kept.refl.presentWord⟩

theorem Kept.of_exec {c : Instr} (e : exec c s = .next t) : Kept s t := by
  obtain ⟨u, hu, hk⟩ := exec_kept c s
  exact Host.Outcome.next.inj (hu.symm.trans e) ▸ hk

theorem tick_kept (s : State) : Kept { s with now := s.now + 1 } (tick s) := by
  unfold tick
  exact .ite (fun _ => .refl) fun _ => (Kept.refl.fecTick.secTick.dueGrant.foldl Kept.whorl).foldl Kept.idleSlot

end

/-! ## The statements -/

/-- Settles O60: every command keeps what `Kept` says. -/
theorem commandsKeepQueue : Obligations.CommandsKeepQueue := by
  unfold Obligations.CommandsKeepQueue
  intro c s t e
  obtain ⟨hp, hn, hctr, -⟩ := Kept.of_exec e
  exact ⟨hp, hn, hctr⟩

/-- Settles O59: a command keeps the canonical form and so does the tick. -/
theorem stepKeepsCanonical : Obligations.StepKeepsCanonical := by
  unfold Obligations.StepKeepsCanonical
  intro s t hs e
  unfold step at e
  split at e
  · exact Host.Outcome.next.inj e ▸ (tick_kept s).canonical hs
  · exact (Kept.of_exec e).canonical hs

/-- Settles O1: the step takes the front of the queue. -/
theorem stepRunsFront : Obligations.StepRunsFront := by
  unfold Obligations.StepRunsFront
  exact fun c s => rfl

/-- Settles O2: the tick counts the time and leaves the queue. -/
theorem emptyQueueTicks : Obligations.EmptyQueueTicks := by
  unfold Obligations.EmptyQueueTicks
  intro s hs
  obtain ⟨hp, hn, -⟩ := tick_kept s
  exact ⟨tick s, by simp only [step, hs], rfl, hn, hp.trans hs⟩

/-- Settles O58: at reset no byte is listed. -/
theorem resetCanonical : Obligations.ResetCanonical := by
  unfold Obligations.ResetCanonical State.canonical
  exact ⟨rfl, wf_freshBobbin, fun _ h => absurd h List.not_mem_nil, rfl⟩


end Sys2Proof.Machine
end

section
/-!
PROOFS. What frames, records, the end of a strand and the entry into a stop or a warm reset leave unchanged: rules
that several statements use.
-/

namespace Sys2Proof.Machine

/-! ## Frames and records sent -/

/-- A message queued for a strand changes the strands alone. -/
theorem post_form (s : State) (n : Fin 2048) (m : Msg) :
    ∃ v, post s n m = { s with twine := { s.twine with strands := v } } := by
  unfold post
  dsimp only
  split <;> exact ⟨_, rfl⟩

theorem notify_form (s : State) (w : Party) (kind q r : Nat) (body : List Byte) :
    ∃ v, notify s w kind q r body = { s with twine := { s.twine with strands := v } } := by
  unfold notify
  split
  · exact post_form _ _ _
  · exact ⟨_, rfl⟩

/-- A record that is kept changes the records and their count alone (18 R508). -/
theorem keepRecord_form (m : Mgmt) (ws : List Word) :
    ∃ f d, (keepRecord m ws).1 = { m with faults := f, dropped := d } := by
  unfold keepRecord
  split
  · exact ⟨_, _, rfl⟩
  · dsimp only
    split <;> exact ⟨_, _, rfl⟩

/-- A record changes the records and the strands that it is sent on. -/
theorem record_form (s : State) (kind : Nat) (st : Option Status) (unit index : Nat) (args : List Nat) :
    ∃ f d v, record s kind st unit index args =
      { s with mgmt := { s.mgmt with faults := f, dropped := d }, twine := { s.twine with strands := v } } := by
  obtain ⟨f, d, e⟩ := keepRecord_form s.mgmt (recWords s kind st unit index args)
  obtain ⟨v, hv⟩ := notify_form { s with mgmt := { s.mgmt with faults := f, dropped := d } } .controller 2 0 0
    (wordBytes (recWords s kind st unit index args))
  refine ⟨f, d, v, ?_⟩
  unfold record addRecord
  rw [e]
  exact hv

@[simp] theorem record_pwr (s : State) (kind : Nat) (st : Option Status) (unit index : Nat) (args : List Nat) :
    (record s kind st unit index args).pwr = s.pwr := by
  obtain ⟨f, d, v, e⟩ := record_form s kind st unit index args
  rw [e]
/-- What the entry into a stop or a warm reset leaves: keys and tenancy, the orders to run, the resets counted. -/
def standing (s : State) :=
  (s.sec.keys, s.sec.tenancyOn, s.sec.sessions, s.mgmt.run, s.mgmt.warms, s.pwr.stopped)

/-- From `s` to `t` the parts of `standing` have not changed. -/
def Standing (s t : State) : Prop := standing t = standing s

namespace Standing

section
variable {s t u : State}

theorem refl : Standing s s := rfl
theorem trans (h : Standing s t) (h' : Standing t u) : Standing s u := Eq.trans h' h
theorem same (h : Standing s t) (e : standing u = standing t) : Standing s u := e.trans h
theorem setSk {k : Fin 8} {x : Skein} (h : Standing s t) : Standing s (t.setSk k x) := h
theorem setQ {q : Fin 4096} {x : Queue} (h : Standing s t) : Standing s (t.setQ q x) := h
theorem setMem {x : Mem} (h : Standing s t) : Standing s (t.setMem x) := h
theorem setStrand {n : Fin 2048} {x : Strand} (h : Standing s t) : Standing s (t.setStrand n x) := h
theorem setPort {p : Fin 32} {x : Port} (h : Standing s t) : Standing s (t.setPort p x) := h
theorem setMgmt {x : Mgmt} (h : Standing s t) (e : standing (t.setMgmt x) = standing t) :
    Standing s (t.setMgmt x) := e.trans h
theorem setPwr {x : Pwr} (h : Standing s t) (e : standing (t.setPwr x) = standing t) :
    Standing s (t.setPwr x) := e.trans h
theorem say {o : Out} (h : Standing s t) : Standing s (t.say o) := h
theorem twine {x : Twine} (h : Standing s t) : Standing s { t with twine := x } := h
theorem free {x : Nat} (h : Standing s t) : Standing s { t with free := x } := h
theorem setWin {w : List (Nat × Byte)} (h : Standing s t) : Standing s (t.setMgmt { t.mgmt with win := w }) := h
theorem setMgmtRecord {ws : List Word} (h : Standing s t) : Standing s { t with mgmt := (keepRecord t.mgmt ws).1 } := by
  obtain ⟨f, d, e⟩ := keepRecord_form t.mgmt ws
  rw [e]
  exact h

theorem ite {c : Prop} [Decidable c] (ha : c → Standing s t) (hb : ¬ c → Standing s u) :
    Standing s (if c then t else u) := by
  split
  · exact ha ‹_›
  · exact hb ‹_›

theorem foldl {β : Type} {g : State → β → State} {l : List β} (h : Standing s t)
    (hg : ∀ {u : State} {b : β}, Standing s u → Standing s (g u b)) : Standing s (l.foldl g t) := by
  induction l generalizing t with
  | nil => exact h
  | cons b l ih => exact ih (hg h)

end

end Standing

section
variable {s t : State}

theorem Standing.reelLine {kl : Fin 8 × Nat} {h0 : Hint} {wr : Bool}
    (h : Standing s t) : Standing s (reelLine t kl h0 wr) := by
  unfold Machine.reelLine
  exact h.setMem

theorem Standing.writeBack {k : Fin 8} {b : Binding} {h0 : Hint}
    (h : Standing s t) : Standing s (writeBack t k b h0) := by
  unfold Machine.writeBack
  exact (h.setMem.foldl Standing.reelLine).setSk

theorem Standing.dropBindings (h : Standing s t) : Standing s (dropBindings t) := by
  unfold Machine.dropBindings
  exact h.foldl fun h' => (h'.foldl Standing.writeBack).setSk

theorem Standing.writeBackAll (h : Standing s t) : Standing s (writeBackAll t) := h.dropBindings.setMem

theorem Standing.clearLldp {p : Fin 32} (h : Standing s t) : Standing s (clearLldp t p) := h.setWin

theorem Standing.dropPort {p : Fin 32} {l : Link} (h : Standing s t) : Standing s (dropPort t p l) := by
  unfold Machine.dropPort
  exact h.setPort.clearLldp

theorem Standing.retrain {p : Fin 32} (h : Standing s t) : Standing s (retrain t p) := by
  unfold Machine.retrain
  exact h.dropPort

theorem Standing.portsUp (h : Standing s t) : Standing s (portsUp t) := by
  unfold Machine.portsUp
  exact h.foldl fun h' => .ite (fun _ => h'.retrain) fun _ => h'

theorem Standing.enterPhase {ph : Boot} (h : Standing s t) : Standing s (enterPhase t ph) := by
  unfold Machine.enterPhase
  exact .ite (fun _ => h.same (by rfl)) fun _ => h.setMgmt (by rfl)

theorem Standing.haltNow (h : Standing s t) : Standing s (haltNow t) := by
  unfold Machine.haltNow
  exact (Standing.ite (fun _ => h.writeBackAll.portsUp) fun _ => h.writeBackAll).enterPhase

theorem Standing.putFrame {n : Fin 2048} {psn : BitVec 32} {retx : Bool} {msg : Msg} {head : Head}
    {data : List Byte} (h : Standing s t) : Standing s (putFrame t n psn retx msg head data) := by
  unfold Machine.putFrame
  exact h.setStrand.say

theorem Standing.touchUnit {a : Nat} {n : Nat} {h0 : Hint} {wr : Bool}
    (h : Standing s t) : Standing s (touchUnit t a n h0 wr) := by
  unfold Machine.touchUnit
  split
  · exact h.foldl Standing.reelLine
  · exact h.setSk.foldl Standing.reelLine

theorem Standing.reelTouch {a : Nat} {n : Nat} {h0 : Hint} {wr : Bool}
    (h : Standing s t) : Standing s (reelTouch t a n h0 wr) := by
  unfold Machine.reelTouch
  exact h.foldl fun h' => h'.touchUnit

theorem Standing.touchSegs {segs : List Seg} {a : Nat} {n : Nat} {wr : Bool}
    (h : Standing s t) : Standing s (touchSegs t segs a n wr) := by
  unfold Machine.touchSegs
  exact h.foldl Standing.reelTouch

theorem Standing.post {n : Fin 2048} {m : Msg} (h : Standing s t) : Standing s (post t n m) := by
  unfold Machine.post
  dsimp only
  split
  · exact h
  · exact h
  · exact h.setStrand

theorem Standing.notify {to_ : Party} {kind : Nat} {queue : Nat} {result : Nat} {body : List Byte}
    (h : Standing s t) : Standing s (notify t to_ kind queue result body) := by
  unfold Machine.notify
  split
  · exact h.post
  · exact h

theorem Standing.addRecord {q : Nat} {ws : List Word} {ten : Bool}
    (h : Standing s t) : Standing s (addRecord t q ws ten) := by
  unfold Machine.addRecord
  exact .ite (fun _ => h.setMgmtRecord.notify.notify) fun _ => h.setMgmtRecord.notify

theorem Standing.record {kind : Nat} {st : Option Status} {unit : Nat} {index : Nat} {args : List Nat}
    (h : Standing s t) : Standing s (record t kind st unit index args) := by
  unfold Machine.record
  exact h.addRecord

theorem Standing.poisonRecord {burst : Option Nat} {q : Nat} {type : Nat}
    (h : Standing s t) : Standing s (poisonRecord t burst q type) := by
  unfold Machine.poisonRecord
  split
  · exact h
  · exact h.record

theorem Standing.setDesc {q : Fin 4096} {seq : Nat} {f : Desc → Desc}
    (h : Standing s t) : Standing s (setDesc t q seq f) := by
  unfold Machine.setDesc
  exact h.setQ

theorem Standing.finish {q : Fin 4096} {seq : Nat} {st : Status} {flags : Flags} {code : Nat} {detail : Nat}
    {value : Nat} (h : Standing s t) : Standing s (finish t q seq st flags code detail value) := by
  unfold Machine.finish
  exact h.setDesc

theorem Standing.ends {q : Fin 4096} {seq : Nat} {st : Status}
    (h : Standing s t) : Standing s (ends t q seq st) := by
  unfold Machine.ends
  exact h.finish

theorem Standing.endRma {r : Rma} {st : Status} (h : Standing s t) : Standing s (endRma t r st) := by
  unfold Machine.endRma
  exact .ite (fun _ => h.twine.free.finish) fun _ => h.twine.ends

theorem Standing.settleRmas (h : Standing s t) : Standing s (settleRmas t) := by
  unfold Machine.settleRmas
  exact h.foldl Standing.endRma

theorem Standing.setRma {q : Fin 4096} {seq : Nat} {f : Rma → Rma}
    (h : Standing s t) : Standing s (setRma t q seq f) := by
  unfold Machine.setRma
  exact h.twine

theorem Standing.sendNew {n : Fin 2048} {msg : Msg} {data : List Byte} {size : Nat}
    (h : Standing s t) : Standing s (sendNew t n msg data size) := by
  unfold Machine.sendNew
  exact h.setStrand.putFrame

theorem Standing.sendHead {n : Fin 2048} (h : Standing s t) : Standing s (sendHead t n) := by
  unfold Machine.sendHead
  dsimp only
  split
  · exact h
  · split
    · split
      · exact h.setStrand
      · split
        · exact h
        · split
          · exact (Standing.ite (fun _ => h) fun _ => h.touchSegs).setStrand.poisonRecord.setRma.settleRmas
          · exact .ite (fun _ => .ite (fun _ => h) fun _ => h.touchSegs) fun _ => (Standing.ite (fun _ =>
              h) fun _ => h.touchSegs).setRma.sendNew
    · exact .ite (fun _ => h.sendNew) fun _ => h

theorem Standing.doFrameTransmit {n : Fin 2048} (h : Standing s t) : Standing s (doFrameTransmit n t) := by
  unfold Machine.doFrameTransmit
  dsimp only
  split
  · exact h
  · split
    · exact h.setStrand.twine.putFrame
    · exact .ite (fun _ => h) fun _ => h.setStrand.sendHead

theorem Standing.sendAccepts {n : Nat} {m : Fin 2048} (h : Standing s t) : Standing s (sendAccepts n t m) := by
  induction n generalizing t with
  | zero => exact h
  | succ n ih => exact .ite (fun _ => ih h.doFrameTransmit) fun _ => h

theorem Standing.earnedAccepts (h : Standing s t) : Standing s (earnedAccepts t) := by
  unfold Machine.earnedAccepts
  exact h.foldl Standing.sendAccepts

theorem Standing.sayCtrl {p : Fin 32} {o : Out} (h : Standing s t) : Standing s (sayCtrl t p o) := by
  unfold Machine.sayCtrl
  exact .ite (fun _ => h.setPort) fun _ => h.say

theorem Standing.putHello {p : Fin 32} {m : HelloMsg} (h : Standing s t) : Standing s (putHello t p m) := by
  unfold Machine.putHello
  exact .ite (fun _ => h) fun _ => h.twine.sayCtrl

theorem Standing.sendHello {p : Fin 32} {pending : Bool} (h : Standing s t) : Standing s (sendHello t p
    pending) := by
  unfold Machine.sendHello
  exact .ite (fun _ => (Standing.ite (fun _ => h.putHello) fun _ => h).putHello) fun _ => .ite (fun _ =>
      h.putHello) fun _ => h

theorem Standing.announceReset (h : Standing s t) : Standing s (announceReset t) := by
  unfold Machine.announceReset
  exact h.foldl Standing.sendHello

theorem Standing.discardStaged (h : Standing s t) : Standing s (discardStaged t) := by
  unfold Machine.discardStaged
  exact h.same (by rfl)

theorem Standing.clearWin {a b : Nat} (h : Standing s t) : Standing s (clearWin t a b) := h.setWin

theorem Standing.clearFwArea (h : Standing s t) : Standing s (clearFwArea t) := by
  unfold Machine.clearFwArea
  exact h.clearWin

theorem Standing.dropHeld (h : Standing s t) : Standing s (dropHeld t) := by
  unfold Machine.dropHeld
  exact h.twine

theorem Standing.keeps_sec_keys (h : Standing s t) : t.sec.keys = s.sec.keys := congrArg (·.1) h
theorem Standing.keeps_sec_tenancyOn (h : Standing s t) : t.sec.tenancyOn = s.sec.tenancyOn := congrArg (·.2.1) h
theorem Standing.keeps_sec_sessions (h : Standing s t) : t.sec.sessions = s.sec.sessions := congrArg (·.2.2.1) h
theorem Standing.keeps_mgmt_run (h : Standing s t) : t.mgmt.run = s.mgmt.run := congrArg (·.2.2.2.1) h
theorem Standing.keeps_mgmt_warms (h : Standing s t) : t.mgmt.warms = s.mgmt.warms := congrArg (·.2.2.2.2.1) h
theorem Standing.keeps_pwr_stopped (h : Standing s t) : t.pwr.stopped = s.pwr.stopped := congrArg (·.2.2.2.2.2) h

end
/-- What the end of a strand leaves: all but the strands, the RMAs, the group operations and the queues. -/
def strandless (s : State) :=
  (s.spindles, s.skeins, s.mem, s.sweeps, s.trans, s.kernels, s.jrn, s.eth, s.sec, s.pwr, s.mgmt, s.out, s.now)

/-- From `s` to `t` the parts of `strandless` have not changed. -/
def Strandless (s t : State) : Prop := strandless t = strandless s

namespace Strandless

section
variable {s t u : State}

theorem refl : Strandless s s := rfl
theorem trans (h : Strandless s t) (h' : Strandless t u) : Strandless s u := Eq.trans h' h
theorem setQ {q : Fin 4096} {x : Queue} (h : Strandless s t) : Strandless s (t.setQ q x) := h
theorem setStrand {n : Fin 2048} {x : Strand} (h : Strandless s t) : Strandless s (t.setStrand n x) := h
theorem queues {x : Vector Queue 4096} (h : Strandless s t) : Strandless s { t with queues := x } := h
theorem twine {x : Twine} (h : Strandless s t) : Strandless s { t with twine := x } := h
theorem ply {x : Groups} (h : Strandless s t) : Strandless s { t with ply := x } := h
theorem free {x : Nat} (h : Strandless s t) : Strandless s { t with free := x } := h

theorem ite {c : Prop} [Decidable c] (ha : c → Strandless s t) (hb : ¬ c → Strandless s u) :
    Strandless s (if c then t else u) := by
  split
  · exact ha ‹_›
  · exact hb ‹_›

theorem foldl {β : Type} {g : State → β → State} {l : List β} (h : Strandless s t)
    (hg : ∀ {u : State} {b : β}, Strandless s u → Strandless s (g u b)) : Strandless s (l.foldl g t) := by
  induction l generalizing t with
  | nil => exact h
  | cons b l ih => exact ih (hg h)

end

end Strandless

section
variable {s t : State}

theorem Strandless.setDesc {q : Fin 4096} {seq : Nat} {f : Desc → Desc}
    (h : Strandless s t) : Strandless s (setDesc t q seq f) := by
  unfold Machine.setDesc
  exact h.setQ

theorem Strandless.finish {q : Fin 4096} {seq : Nat} {st : Status} {flags : Flags} {code : Nat} {detail : Nat}
    {value : Nat} (h : Strandless s t) : Strandless s (finish t q seq st flags code detail value) := by
  unfold Machine.finish
  exact h.setDesc

theorem Strandless.dropOp {o : GOp} (h : Strandless s t) : Strandless s (dropOp t o) := by
  unfold Machine.dropOp
  exact h.ply

theorem Strandless.endOp {o : GOp} {st : Status} (h : Strandless s t) : Strandless s (endOp t o st) := by
  unfold Machine.endOp
  exact h.dropOp.finish

theorem Strandless.endGroupsOn {n : Fin 2048} {st : Status}
    (h : Strandless s t) : Strandless s (endGroupsOn t n st) := by
  unfold Machine.endGroupsOn
  refine h.foldl fun h' => ?_
  split
  · split
    · exact .ite (fun _ => h'.endOp) fun _ => h'
    · exact h'
  · exact h'

theorem Strandless.ends {q : Fin 4096} {seq : Nat} {st : Status}
    (h : Strandless s t) : Strandless s (ends t q seq st) := by
  unfold Machine.ends
  exact h.finish

theorem Strandless.endRma {r : Rma} {st : Status} (h : Strandless s t) : Strandless s (endRma t r st) := by
  unfold Machine.endRma
  exact .ite (fun _ => h.twine.free.finish) fun _ => h.twine.ends

theorem Strandless.endRmasOn {n : Fin 2048} {st : Status} (h : Strandless s t) : Strandless s (endRmasOn t n
    st) := by
  unfold Machine.endRmasOn
  exact h.foldl Strandless.endRma

theorem Strandless.forgetStrand {n : Fin 2048} (h : Strandless s t) : Strandless s (forgetStrand t n) := by
  unfold Machine.forgetStrand
  exact h.queues

theorem Strandless.closeStrand {n : Fin 2048} {st : Status}
    (h : Strandless s t) : Strandless s (closeStrand t n st) := by
  unfold Machine.closeStrand
  exact h.endRmasOn.endGroupsOn.setStrand.forgetStrand

theorem Strandless.keeps_spindles (h : Strandless s t) : t.spindles = s.spindles := congrArg (·.1) h
theorem Strandless.keeps_skeins (h : Strandless s t) : t.skeins = s.skeins := congrArg (·.2.1) h
theorem Strandless.keeps_mem (h : Strandless s t) : t.mem = s.mem := congrArg (·.2.2.1) h
theorem Strandless.keeps_sweeps (h : Strandless s t) : t.sweeps = s.sweeps := congrArg (·.2.2.2.1) h
theorem Strandless.keeps_trans (h : Strandless s t) : t.trans = s.trans := congrArg (·.2.2.2.2.1) h
theorem Strandless.keeps_kernels (h : Strandless s t) : t.kernels = s.kernels := congrArg (·.2.2.2.2.2.1) h
theorem Strandless.keeps_jrn (h : Strandless s t) : t.jrn = s.jrn := congrArg (·.2.2.2.2.2.2.1) h
theorem Strandless.keeps_eth (h : Strandless s t) : t.eth = s.eth := congrArg (·.2.2.2.2.2.2.2.1) h
theorem Strandless.keeps_sec (h : Strandless s t) : t.sec = s.sec := congrArg (·.2.2.2.2.2.2.2.2.1) h
theorem Strandless.keeps_pwr (h : Strandless s t) : t.pwr = s.pwr := congrArg (·.2.2.2.2.2.2.2.2.2.1) h
theorem Strandless.keeps_mgmt (h : Strandless s t) : t.mgmt = s.mgmt := congrArg (·.2.2.2.2.2.2.2.2.2.2.1) h
theorem Strandless.keeps_out (h : Strandless s t) : t.out = s.out := congrArg (·.2.2.2.2.2.2.2.2.2.2.2.1) h
theorem Strandless.keeps_now (h : Strandless s t) : t.now = s.now := congrArg (·.2.2.2.2.2.2.2.2.2.2.2.2) h

end
/-- What a stop by an order leaves: the work, the strands, what was sent, the orders to run. -/
def haltKept (s : State) :=
  (s.spindles, s.sweeps, s.trans, s.queues, s.kernels, s.jrn, s.twine, s.ply, s.sec, s.out, s.mgmt.run, s.mgmt.warms,
    s.pwr.stopped)

/-- From `s` to `t` the parts of `haltKept` have not changed. -/
def HaltKept (s t : State) : Prop := haltKept t = haltKept s

namespace HaltKept

section
variable {s t u : State}

theorem refl : HaltKept s s := rfl
theorem trans (h : HaltKept s t) (h' : HaltKept t u) : HaltKept s u := Eq.trans h' h
theorem same (h : HaltKept s t) (e : haltKept u = haltKept t) : HaltKept s u := e.trans h
theorem setSk {k : Fin 8} {x : Skein} (h : HaltKept s t) : HaltKept s (t.setSk k x) := h
theorem setMem {x : Mem} (h : HaltKept s t) : HaltKept s (t.setMem x) := h
theorem setPort {p : Fin 32} {x : Port} (h : HaltKept s t) : HaltKept s (t.setPort p x) := h
theorem setMgmt {x : Mgmt} (h : HaltKept s t) (e : haltKept (t.setMgmt x) = haltKept t) :
    HaltKept s (t.setMgmt x) := e.trans h
theorem setPwr {x : Pwr} (h : HaltKept s t) (e : haltKept (t.setPwr x) = haltKept t) :
    HaltKept s (t.setPwr x) := e.trans h
theorem setWin {w : List (Nat × Byte)} (h : HaltKept s t) : HaltKept s (t.setMgmt { t.mgmt with win := w }) := h

theorem ite {c : Prop} [Decidable c] (ha : c → HaltKept s t) (hb : ¬ c → HaltKept s u) :
    HaltKept s (if c then t else u) := by
  split
  · exact ha ‹_›
  · exact hb ‹_›

theorem foldl {β : Type} {g : State → β → State} {l : List β} (h : HaltKept s t)
    (hg : ∀ {u : State} {b : β}, HaltKept s u → HaltKept s (g u b)) : HaltKept s (l.foldl g t) := by
  induction l generalizing t with
  | nil => exact h
  | cons b l ih => exact ih (hg h)

end

end HaltKept

section
variable {s t : State}

theorem HaltKept.reelLine {kl : Fin 8 × Nat} {h0 : Hint} {wr : Bool}
    (h : HaltKept s t) : HaltKept s (reelLine t kl h0 wr) := by
  unfold Machine.reelLine
  exact h.setMem

theorem HaltKept.writeBack {k : Fin 8} {b : Binding} {h0 : Hint}
    (h : HaltKept s t) : HaltKept s (writeBack t k b h0) := by
  unfold Machine.writeBack
  exact (h.setMem.foldl HaltKept.reelLine).setSk

theorem HaltKept.dropBindings (h : HaltKept s t) : HaltKept s (dropBindings t) := by
  unfold Machine.dropBindings
  exact h.foldl fun h' => (h'.foldl HaltKept.writeBack).setSk

theorem HaltKept.writeBackAll (h : HaltKept s t) : HaltKept s (writeBackAll t) := h.dropBindings.setMem

theorem HaltKept.clearLldp {p : Fin 32} (h : HaltKept s t) : HaltKept s (clearLldp t p) := h.setWin

theorem HaltKept.dropPort {p : Fin 32} {l : Link} (h : HaltKept s t) : HaltKept s (dropPort t p l) := by
  unfold Machine.dropPort
  exact h.setPort.clearLldp

theorem HaltKept.retrain {p : Fin 32} (h : HaltKept s t) : HaltKept s (retrain t p) := by
  unfold Machine.retrain
  exact h.dropPort

theorem HaltKept.portsUp (h : HaltKept s t) : HaltKept s (portsUp t) := by
  unfold Machine.portsUp
  exact h.foldl fun h' => .ite (fun _ => h'.retrain) fun _ => h'

theorem HaltKept.enterPhase {ph : Boot} (h : HaltKept s t) : HaltKept s (enterPhase t ph) := by
  unfold Machine.enterPhase
  exact .ite (fun _ => h.same (by rfl)) fun _ => h.setMgmt (by rfl)

theorem HaltKept.haltNow (h : HaltKept s t) : HaltKept s (haltNow t) := by
  unfold Machine.haltNow
  exact (HaltKept.ite (fun _ => h.writeBackAll.portsUp) fun _ => h.writeBackAll).enterPhase

theorem HaltKept.startExit (h : HaltKept s t) : HaltKept s (startExit t) := by
  unfold Machine.startExit
  split
  · exact h
  · split
    · exact h.setPwr (by rfl)
    · exact h.setPwr (by rfl)
    · exact h

theorem HaltKept.runAgain (h : HaltKept s t) : HaltKept s (runAgain t) := by
  unfold Machine.runAgain
  exact (h.setMgmt (by rfl)).startExit

theorem HaltKept.settleRun (h : HaltKept s t) : HaltKept s (settleRun t) := by
  unfold Machine.settleRun
  split
  · exact .ite (fun _ => h.haltNow) fun _ => h
  · exact .ite (fun _ => h.haltNow) fun _ => h
  · exact .ite (fun _ => h) fun _ => h.runAgain
  · exact h

theorem HaltKept.keeps_spindles (h : HaltKept s t) : t.spindles = s.spindles := congrArg (·.1) h
theorem HaltKept.keeps_sweeps (h : HaltKept s t) : t.sweeps = s.sweeps := congrArg (·.2.1) h
theorem HaltKept.keeps_trans (h : HaltKept s t) : t.trans = s.trans := congrArg (·.2.2.1) h
theorem HaltKept.keeps_queues (h : HaltKept s t) : t.queues = s.queues := congrArg (·.2.2.2.1) h
theorem HaltKept.keeps_kernels (h : HaltKept s t) : t.kernels = s.kernels := congrArg (·.2.2.2.2.1) h
theorem HaltKept.keeps_jrn (h : HaltKept s t) : t.jrn = s.jrn := congrArg (·.2.2.2.2.2.1) h
theorem HaltKept.keeps_twine (h : HaltKept s t) : t.twine = s.twine := congrArg (·.2.2.2.2.2.2.1) h
theorem HaltKept.keeps_ply (h : HaltKept s t) : t.ply = s.ply := congrArg (·.2.2.2.2.2.2.2.1) h
theorem HaltKept.keeps_sec (h : HaltKept s t) : t.sec = s.sec := congrArg (·.2.2.2.2.2.2.2.2.1) h
theorem HaltKept.keeps_out (h : HaltKept s t) : t.out = s.out := congrArg (·.2.2.2.2.2.2.2.2.2.1) h
theorem HaltKept.keeps_mgmt_run (h : HaltKept s t) : t.mgmt.run = s.mgmt.run := congrArg (·.2.2.2.2.2.2.2.2.2.2.1) h
theorem HaltKept.keeps_mgmt_warms (h : HaltKept s t) : t.mgmt.warms = s.mgmt.warms := congrArg (·.2.2.2.2.2.2.2.2.2.2.2.1) h
theorem HaltKept.keeps_pwr_stopped (h : HaltKept s t) : t.pwr.stopped = s.pwr.stopped := congrArg (·.2.2.2.2.2.2.2.2.2.2.2.2) h

end

/-! ## The exit from a power state and the start of a warm reset -/

theorem startExit_exits {s : State} (h : s.pwr.pstate = .p3 ∨ s.pwr.pstate = .p4) (hp : s.mgmt.phase ≠ .stopped) :
    (startExit s).pwr.exiting = true := by
  rcases h with h | h <;> simp [startExit, hp, h]

theorem Standing.awake {s t : State} (h : Standing s t) :
    Standing s (t.setPwr { t.pwr with pstate := .p0, exiting := false, wake := none }) := h

/-- A warm reset that starts is counted (18 R482). -/
theorem startWarm_counts {s : State} (hp : s.mgmt.phase ≠ .reset) (hr : s.mgmt.phase ≠ .recovery) :
    (startWarm s).mgmt.warming = true ∧ (startWarm s).mgmt.warms = s.mgmt.warms + 1 := by
  unfold startWarm
  split
  · exact absurd ‹_› hp
  · exact absurd ‹_› hr
  · refine ⟨rfl, congrArg (· + 1) (Standing.keeps_mgmt_warms ?_)⟩
    have h := Standing.refl (s := s).earnedAccepts.writeBackAll
    have h := (Standing.ite (c := (writeBackAll (earnedAccepts s)).mgmt.clockLost ||
      (writeBackAll (earnedAccepts s)).pwr.dieOff) (fun _ => h) fun _ => h.announceReset).discardStaged.clearFwArea.dropHeld
    exact (Standing.ite (fun _ => h.portsUp) fun _ => h).awake.setMem

/-! ## The sessions that end -/

theorem dropSession_sessions (s : State) (id : Nat) (st : Status) :
    (dropSession s id st).sec.sessions = s.sec.sessions.filter fun x => x.id != id := by
  unfold dropSession
  split
  · next h =>
    rw [eq_comm, List.filter_eq_self]
    intro x hx
    simpa [sessionOf] using List.find?_eq_none.mp h x hx
  · dsimp only
    split
    · rfl
    · exact congrArg Sec.sessions Strandless.refl.closeStrand.setStrand.keeps_sec

/-- Once every session has been dropped none is left. -/
theorem dropSessions_all (s : State) (st : Status) : (dropSessions s (fun _ => true) st).sec.sessions = [] := by
  have h (l : List Session) (u : State) : (l.foldl (fun s x => dropSession s x.id st) u).sec.sessions =
      u.sec.sessions.filter fun x => l.all fun y => x.id != y.id := by
    induction l generalizing u with
    | nil => simp
    | cons y l ih =>
      rw [List.foldl_cons, ih, dropSession_sessions, List.filter_filter]
      simp [Bool.and_comm]
  unfold dropSessions
  rw [h, List.filter_eq_nil_iff]
  intro x hx
  simpa using ⟨x, hx, rfl⟩

theorem restartMgmt_restarts {s : State} (hp : s.mgmt.phase ≠ .reset) :
    (restartMgmt s).mgmt.restarting = true ∧ (restartMgmt s).sec.sessions = [] := by
  unfold restartMgmt
  split
  · exact absurd ‹_› hp
  · exact ⟨rfl, dropSessions_all s _⟩

/-! ## What a record leaves of the management domain -/

theorem record_mgmt {α : Type} {f : Mgmt → α} (hf : ∀ m r d, f { m with faults := r, dropped := d } = f m) (s : State)
    (kind : Nat) (st : Option Status) (unit index : Nat) (args : List Nat) :
    f (record s kind st unit index args).mgmt = f s.mgmt := by
  obtain ⟨r, d, v, e⟩ := record_form s kind st unit index args
  rw [e]
  exact hf _ _ _

theorem record_phase (s : State) (kind : Nat) (st : Option Status) (unit index : Nat) (args : List Nat) :
    (record s kind st unit index args).mgmt.phase = s.mgmt.phase := record_mgmt (fun _ _ _ => rfl) ..

theorem record_sbEvents (s : State) (kind : Nat) (st : Option Status) (unit index : Nat) (args : List Nat) :
    (record s kind st unit index args).mgmt.sbEvents = s.mgmt.sbEvents := record_mgmt (fun _ _ _ => rfl) ..

end Sys2Proof.Machine
end

section
/-!
PROOFS. The sideband (18 R501 to R505, R507): what a transaction that is served answers and orders, a recovery image,
and the lines that are held. From these the statement O56.
-/

namespace Sys2Proof.Machine

/-! ## The transaction -/

section
variable {s : State} (hp : s.mgmt.phase ≠ .reset) (hr : s.mgmt.restarting = false)
include hp hr

theorem sideband_serves (code : Nat) (f : State → State) : sideband code true s f = f s := by
  simp [sideband, sbServes, hp, hr]

theorem sideband_badPec (code : Nat) (f : State → State) : sideband code false s f = s.say (.nack code) := by
  simp [sideband, sbServes, hp, hr]

theorem doOtherSidebandCode_nack (code : BitVec 8) : doOtherSidebandCode code s = s.say (.nack code.toNat) := by
  simp [doOtherSidebandCode, sbServes, hp, hr]

end

/-! ## The orders -/

theorem endBurst_out (s : State) : (endBurst s).out = s.out := by
  unfold endBurst
  split <;> rfl

/-! ## A recovery image (18 R507) -/

section
variable {s : State} (hp : s.mgmt.phase = .recovery) {data : List Byte} (hlen : data.length = 32)
  (hroom : s.mgmt.recovered + 32 ≤ 0x1000000) (hr : s.mgmt.restarting = false)
include hp hlen hroom hr

/-- The image as far as it has come. -/
theorem doSbRecovery_eq : doSbRecovery true data s =
    let n := s.mgmt.recovered + 32
    let win := cellsWrite s.mgmt.win (fwArea + s.mgmt.recovered) data
    let t := (s.setMgmt { s.mgmt with recovered := n, win }).say (.sideband 0x30 [])
    let img := cellsRead win fwArea n
    if n < Config.imageLen img then t
    else if slotBoots s.mgmt img then
      coldReset (t.setMgmt { t.mgmt with
        lastB := false, marked := false, flash := upd s.mgmt.flash 0 (slotWith img) }) true
    else clearFwArea (t.setMgmt { t.mgmt with recovered := 0 }) := by
  unfold doSbRecovery
  rw [sideband_serves (by rw [hp]; decide) hr, if_neg (by simp [hp, hlen, hroom])]
  rfl

end

/-! ## Held lines (18 R505) -/

/-- The rails of a reading that is missing, and of none that has come. -/
theorem doReadingsMissing_form (r : Fin 7) {s : State} (hp : s.mgmt.phase ≠ .reset) :
    ∃ f d v b c, doReadingsMissing r s = { s with
      mgmt := { s.mgmt with faults := f, dropped := d }, twine := { s.twine with strands := v }
      pwr := { s.pwr with
        rails := upd s.pwr.rails r { s.pwr.rails.get r with missing := true, streak := 0 }, burstAt := b, holdUntil := c } } := by
  unfold doReadingsMissing
  rw [if_neg hp]
  have h : ∃ b c, (if guardBand s then s else endBurst s) =
      { s with pwr := { s.pwr with burstAt := b, holdUntil := c } } := by
    split
    · exact ⟨_, _, rfl⟩
    · unfold endBurst
      split <;> exact ⟨_, _, rfl⟩
  obtain ⟨b, c, h⟩ := h
  dsimp only
  rw [h]
  split
  · exact ⟨_, _, _, b, c, rfl⟩
  · obtain ⟨f, d, v, e⟩ := record_form (setRail { s with pwr := { s.pwr with burstAt := b, holdUntil := c } } r
      { s.pwr.rails.get r with missing := true, streak := 0 }) 0x0C none 6 r.val [1]
    exact ⟨f, d, v, b, c, e⟩

theorem missing_all (l : List (Fin 7)) {s : State} (hp : s.mgmt.phase ≠ .reset) :
    (l.foldl (fun s r => doReadingsMissing r s) s).mgmt.sbEvents = s.mgmt.sbEvents ∧
      ∀ r, r ∈ l ∨ (s.pwr.rails.get r).missing = true →
        ((l.foldl (fun s r => doReadingsMissing r s) s).pwr.rails.get r).missing = true := by
  induction l generalizing s with
  | nil => exact ⟨rfl, fun r h => h.resolve_left List.not_mem_nil⟩
  | cons i l ih =>
    obtain ⟨f, d, v, b, c, e⟩ := doReadingsMissing_form i hp
    obtain ⟨he, hm⟩ := ih (s := doReadingsMissing i s) (by rw [e]; exact hp)
    refine ⟨he.trans (by rw [e]), fun r h => hm r ?_⟩
    rw [List.mem_cons] at h
    by_cases hr : r = i
    · right
      rw [e, hr]
      simp
    · refine h.imp (fun h => h.resolve_left hr) fun h => ?_
      rw [e]
      exact (congrArg Rail.missing (get_upd_ne _ _ hr)).trans h

theorem doPmbusLineHeld_holds {s : State} (hp : s.mgmt.phase ≠ .reset) :
    (doPmbusLineHeld s).mgmt.sbEvents = s.mgmt.sbEvents ||| 4 ∧
      ∀ r, ((doPmbusLineHeld s).pwr.rails.get r).missing = true := by
  unfold doPmbusLineHeld
  rw [if_neg hp]
  have hb : (record (s.setMgmt { s.mgmt with sbEvents := s.mgmt.sbEvents ||| 4 }) 0x0D none 11 0 [6]).mgmt.sbEvents =
      s.mgmt.sbEvents ||| 4 := record_sbEvents ..
  have hp' : (record (s.setMgmt { s.mgmt with sbEvents := s.mgmt.sbEvents ||| 4 }) 0x0D none 11 0 [6]).mgmt.phase ≠
      .reset := by rw [record_phase]; exact hp
  dsimp only
  generalize record (s.setMgmt { s.mgmt with sbEvents := s.mgmt.sbEvents ||| 4 }) 0x0D none 11 0 [6] = t
    at hb hp' ⊢
  have h := missing_all (List.finRange 7) hp'
  exact ⟨h.1.trans hb, fun r => h.2 r (.inl (List.mem_finRange r))⟩

theorem doSmbusLineHeld_holds {s : State} (hp : s.mgmt.phase ≠ .reset) (clk : Bool) :
    (doSmbusLineHeld clk s).mgmt.sbEvents = s.mgmt.sbEvents ||| (if clk = true then 2 else 1) := by
  unfold doSmbusLineHeld
  rw [if_neg hp]
  exact record_sbEvents ..

/-! ## The statement -/

/-- Settles O56: each transaction that is served is its code's function, and each order does what its own rule says. -/
theorem sidebandCodes : Obligations.Sideband := by
  unfold Obligations.Sideband
  intro s hp hr
  have serves {code : Nat} {f : State → State} {c : Instr} (e : exec c s = .next (Machine.sideband code true s f)) :
      exec c s = .next (f s) := e.trans (congrArg _ (sideband_serves hp hr code f))
  have tells {code : Nat} {f : State → State} {c : Instr} {t : State}
      (e : exec c s = .next (Machine.sideband code true s f)) (ht : f s = t) : exec c s = .next t := ht ▸ serves e
  have badPec {code : Nat} {f : State → State} {c : Instr} (e : exec c s = .next (Machine.sideband code false s f)) :
      exec c s = .next (s.say (.nack code)) := e.trans (congrArg _ (sideband_badPec hp hr code f))
  refine ⟨badPec rfl, badPec rfl, tells rfl rfl, tells rfl rfl, tells rfl rfl, tells rfl rfl, tells rfl rfl,
    fun w => ⟨fun hw => ?cap, fun hw => tells rfl (if_neg (by omega))⟩, tells rfl rfl, ?run, ?wake,
    fun hw hrec => ?warm, ⟨_, serves rfl, restartMgmt_restarts hp⟩, tells rfl rfl, tells rfl rfl, fun w => tells rfl rfl,
    fun data hlen hroom hph => ?part, fun data hlen hroom hph => ?whole,
    fun code => congrArg Host.Outcome.next (doOtherSidebandCode_nack hp hr code),
    fun clk => ⟨_, rfl, doSmbusLineHeld_holds hp clk⟩, ⟨_, rfl, doPmbusLineHeld_holds hp⟩⟩
  case cap =>
    refine ⟨_, tells rfl (if_pos hw), rfl, ?_⟩
    have h : (if w.toNat < s.pwr.boardCap then endBurst s else s).out = s.out := by
      split
      · exact endBurst_out s
      · rfl
    exact congrArg (Out.sideband 0x10 [] :: ·) h
  case run =>
    have h := (HaltKept.refl (s := (s.setMgmt { s.mgmt with run := false }).say (.sideband 0x11 []))).settleRun
    exact ⟨_, serves rfl, h.keeps_mgmt_run, h.keeps_out⟩
  case wake => exact ⟨_, serves rfl, HaltKept.refl.startExit.keeps_out, fun h hs => startExit_exits h hs⟩
  case warm =>
    have h : doWarm (s.say (.sideband 0x13 [])) = startWarm (s.say (.sideband 0x13 [])) := if_neg (by simp [hw])
    exact ⟨_, tells rfl h, startWarm_counts (s := s.say _) hp hrec⟩
  case part =>
    intro win hmore
    exact (congrArg Host.Outcome.next (doSbRecovery_eq hph hlen hroom hr)).trans (congrArg _ (if_pos hmore))
  case whole =>
    intro img hend hboots
    refine ⟨_, (congrArg Host.Outcome.next (doSbRecovery_eq hph hlen hroom hr)).trans
      (congrArg _ ((if_neg (Nat.not_lt.mpr hend)).trans (if_pos hboots))), rfl, rfl, rfl, get_upd_same ..⟩

end Sys2Proof.Machine
end

section
/-!
PROOFS. The frames of a port that are not Twine's: bad frames, answers, LLDP areas, pauses, XOFF and XON, and the wake
ports.
-/

namespace Sys2Proof.Machine

/-! ## Frames in their order, and the end of a pause -/

/-- Frames sent one after another stand newest first. -/
theorem sayAll_eq (s : State) (l : List Out) : s.sayAll l = { s with out := l.reverse ++ s.out } := by
  unfold State.sayAll
  induction l generalizing s with
  | nil => rfl
  | cons o l ih =>
    rw [List.foldl_cons, ih]
    simp [State.say]

/-- While the control frames of a port are stopped, what waits goes on waiting (13 R360). -/
theorem releaseCtrl_paused {s : State} {p : Fin 32} (h : ctrlPaused (s.port p) = true) : releaseCtrl s p = s := by
  simp [releaseCtrl, h]

/-- Where the ports do not serve nothing that waits goes out. -/
theorem releaseCtrl_idle {s : State} (h : portsServe s = false) (p : Fin 32) : releaseCtrl s p = s := by
  simp [releaseCtrl, h]

/-- A port whose control frames may leave again sends what waits on it, then the SPDM answers where it carries them. -/
theorem releaseCtrl_sends {s : State} {p : Fin 32} (hs : portsServe s = true) (h : ctrlPaused (s.port p) = false) :
    (releaseCtrl s p).port p = { s.port p with ctrlQ := [] } ∧
    (releaseCtrl s p).out =
      ((s.port p).ctrlQ ++ if spdmPort s p = true then s.sec.spdmQ else []).reverse ++ s.out ∧
    (releaseCtrl s p).sec.spdmQ = if spdmPort s p = true then [] else s.sec.spdmQ := by
  have hport : spdmPort ((s.setPort p { s.port p with ctrlQ := [] }).sayAll (s.port p).ctrlQ) p = spdmPort s p := by
    rw [sayAll_eq]
    simp [spdmPort, State.port, State.setPort, groupLive]
  unfold releaseCtrl
  simp only [hs, h, Bool.not_true, Bool.or_self, Bool.false_eq_true, if_false, hport]
  simp only [sayAll_eq]
  split <;> simp [State.setSec, State.port, State.setPort]

/-- The port after its pauses have changed to `m` (13 R360). -/
theorem releaseCtrl_freed {s : State} {p : Fin 32} (hs : portsServe s = true) (m : BitVec 8) :
    let t := releaseCtrl (s.setPort p { s.port p with xoffRx := m }) p
    if m.getLsbD (s.port p).cfg.ctrlPcp = true then t = s.setPort p { s.port p with xoffRx := m }
    else t.port p = { s.port p with xoffRx := m, ctrlQ := [] } ∧
      t.out = ((s.port p).ctrlQ ++ if spdmPort s p = true then s.sec.spdmQ else []).reverse ++ s.out ∧
      t.sec.spdmQ = if spdmPort s p = true then [] else s.sec.spdmQ := by
  have hport : spdmPort (s.setPort p { s.port p with xoffRx := m }) p = spdmPort s p := by
    simp [spdmPort, groupLive]
  dsimp only
  split
  · next h => exact releaseCtrl_paused (by simpa [ctrlPaused] using h)
  · next h =>
    obtain ⟨h1, h2, h3⟩ := releaseCtrl_sends (s := s.setPort p { s.port p with xoffRx := m }) (p := p) hs
      (by simpa [ctrlPaused] using h)
    rw [hport] at h2 h3
    simp only [State.setPort_port_same] at h1 h2
    exact ⟨h1, h2, h3⟩

/-! ## The bytes of an LLDP area -/

/-- The bytes just written are read back. -/
theorem cellsRead_cellsWrite {m : List Host.Cell} (h : Memory.wf m = true) (a : Nat) (bs : List Byte) :
    cellsRead (cellsWrite m a bs) a bs.length = bs := by
  refine List.ext_getElem (cellsRead_length ..) fun i _ hi => ?_
  simp [cellsRead, cellGet_cellsWrite h, hi]

/-- Clearing an area writes the window of the registers alone. -/
theorem clearLldp_writes (s : State) (p : Fin 32) : ∃ w, clearLldp s p =
    s.setMgmt { s.mgmt with win := cellsWrite s.mgmt.win (lldpBase p) w } := ⟨_, rfl⟩

/-- An LLDPDU too long for the port is a bad frame. -/
theorem doLldpduReceive_long {p : Fin 32} {ttl : Nat} {data : List Byte} {s : State} (hs : portsServe s = true)
    (hl : (s.port p).link = .up) (hlen : (s.port p).cfg.maxFrame < data.length + 18) :
    doLldpduReceive p ttl data s = doFcsBadFrame p false s := by
  unfold doLldpduReceive
  rw [if_neg (by simp [hs, hl]), if_pos hlen]

/-- An LLDPDU that finds no room is counted and dropped. -/
theorem doLldpduReceive_full {p : Fin 32} {ttl : Nat} {data : List Byte} {s : State} (hs : portsServe s = true)
    (hl : (s.port p).link = .up) (hlen : data.length + 18 ≤ (s.port p).cfg.maxFrame)
    (hfull : noRoom s p (data.length + 18) = true) : doLldpduReceive p ttl data s = dropRx s p := by
  unfold doLldpduReceive
  rw [if_neg (by simp [hs, hl]), if_neg (Nat.not_lt.mpr hlen), if_pos hfull]

/-- An LLDPDU that finds room stands in the area of its port behind its header (13 R362). -/
theorem doLldpduReceive_keeps {p : Fin 32} {ttl : Nat} {data : List Byte} {s : State} (hs : portsServe s = true)
    (hl : (s.port p).link = .up) (hlen : data.length + 18 ≤ (s.port p).cfg.maxFrame)
    (hroom : noRoom s p (data.length + 18) = false) (ht : ttl ≠ 0) (hw : Memory.wf s.mgmt.win = true) :
    ((doLldpduReceive p ttl data s).port p).lldp = true ∧
      cellsRead (doLldpduReceive p ttl data s).mgmt.win (0x1000000 + p.val * 0x800) (8 + (data.take 2040).length) =
        leBytes 4 (data.take 2040).length ++ leBytes 4 (s.now / 1000000) ++ data.take 2040 := by
  have hsize : 8 + (data.take 2040).length =
      (leBytes 4 (data.take 2040).length ++ leBytes 4 (s.now / 1000000) ++ data.take 2040).length := by
    simp only [List.length_append, leBytes_length]
  unfold doLldpduReceive
  rw [if_neg (by simp [hs, hl]), if_neg (Nat.not_lt.mpr hlen), if_neg (by simp [hroom]), if_neg ht, hsize]
  obtain ⟨w, hclear⟩ := clearLldp_writes (s.setPort p { s.port p with lldp := ttl != 0 }) p
  rw [hclear]
  exact ⟨by simp [ht], cellsRead_cellsWrite (wf_cellsWrite hw ..) _ _⟩

/-! ## XOFF and XON (13 R359) -/

section
variable {s : State} {p : Fin 32} (hs : portsServe s = true) (hl : (s.port p).link = .up)
  (hc : (s.port p).cfg.pause = true ∨ (s.port p).cfg.pfc ≠ 0)
include hc

/-- The pause frame of a port with a form of flow control. -/
theorem sendPause_says (t : State) (ht : (t.port p).cfg = (s.port p).cfg) (q : Nat) : sendPause t p q =
    t.say (if (s.port p).cfg.pause = true then .mac p 2 [q] else .mac p 3 [(s.port p).cfg.pfc.toNat, q]) := by
  unfold sendPause
  rw [ht]
  dsimp only
  split
  · rfl
  · rw [if_pos (hc.resolve_left ‹_›)]

include hs hl

theorem doXoffResend_says {n : Nat} (hdue : (s.port p).xoffTx = 0 ∧ 6291456 * (s.port p).cfg.xoff ≤ n * 100 ∨
    (s.port p).xoffTx ≠ 0 ∧ 6291456 * (s.port p).cfg.xon < n * 100) :
    doXoffResend p n s = (s.setPort p { s.port p with
        xoffTx := if (s.port p).cfg.pause = true then 1 else (s.port p).cfg.pfc, fill := min 6291456 n }).say
      (if (s.port p).cfg.pause = true then .mac p 2 [0xFFFF] else .mac p 3 [(s.port p).cfg.pfc.toNat, 0xFFFF]) := by
  have due : (if (s.port p).xoffTx = 0 then decide (rxBuffer * (s.port p).cfg.xoff ≤ n * 100)
      else decide (rxBuffer * (s.port p).cfg.xon < n * 100)) = true := by
    rcases hdue with ⟨h0, h⟩ | ⟨h0, h⟩
    · rw [if_pos h0]
      exact decide_eq_true h
    · rw [if_neg h0]
      exact decide_eq_true h
  unfold doXoffResend sendXoff noteFill
  rw [if_pos (by simp [hs, hl])]
  simp only [State.setPort_port_same]
  rw [if_pos due, sendPause_says (s := s) hc _ (by simp)]
  simp [pausing, rxBuffer]

theorem doXon_says {n : Nat} (h0 : (s.port p).xoffTx ≠ 0) (h : n * 100 ≤ 6291456 * (s.port p).cfg.xon) :
    doXon p n s = (s.setPort p { s.port p with xoffTx := 0, fill := min 6291456 n }).say
      (if (s.port p).cfg.pause = true then .mac p 2 [0] else .mac p 3 [(s.port p).cfg.pfc.toNat, 0]) := by
  have hon : decide (n * 100 ≤ rxBuffer * (s.port p).cfg.xon) = true := decide_eq_true h
  unfold doXon noteFill
  rw [if_pos (by simp [hs, hl])]
  simp only [State.setPort_port_same]
  rw [if_pos (Bool.and_eq_true_iff.mpr ⟨bne_iff_ne.mpr h0, hon⟩), sendPause_says (s := s) hc _ (by simp)]
  simp [rxBuffer]

end

/-! ## The wake ports (13 R368) -/

theorem wakeEnOk_iff (mode : Nat) (v : Word) : wakeEnOk mode (v.setWidth 32) = true ↔
    let ports := (List.range 32).filter fun i => v.getLsbD i
    ports.length ≤ 2 ∧ ∀ i ∈ ports, i < portCount mode := by
  have h : ((List.range 32).filter fun i => (v.setWidth 32).getLsbD i) = (List.range 32).filter fun i => v.getLsbD i :=
    List.filter_congr fun i hi => by simp [List.mem_range.mp hi]
  simp only [wakeEnOk, h, Bool.and_eq_true, decide_eq_true_eq, List.all_eq_true]

/-! ## The statement -/

/-- Settles O43: each frame takes one branch of its port, and the control frames that wait leave when the pause of their
priority ends. -/
theorem portFrames : Obligations.PortFrames := by
  unfold Obligations.PortFrames
  intro p s y ctrl counted dropped freed
  refine ⟨fun fec hl => ?bad, rfl, fun hs => ⟨fun ip v6 hr hj hg => ?arp, fun ttl data hl => ⟨fun h => ?long, fun h h' => ?full,
    fun h h' ht hw => ⟨_, rfl, doLldpduReceive_keeps hs hl h (decide_eq_false (Nat.not_lt.mpr h')) ht hw⟩⟩,
    fun hl he => ?timer, fun pfc prios quanta hl => ?pause,
    fun prios => ⟨_, rfl, releaseCtrl_freed hs _⟩, fun n hl hc => ⟨fun h0 h => ?first, fun h0 h => ?again, fun h0 h => ?xon⟩⟩,
    fun h addr data hp hh hf => ?noRoom, ⟨_, rfl, ?ttl⟩, fun hs prios => ?idle, fun v => ?wakeEn⟩
  case bad => exact congrArg Host.Outcome.next (if_neg (not_not.mpr hl))
  case arp => exact congrArg Host.Outcome.next (if_pos (by simp [hs, hr, hg, hj, y]))
  case long =>
    exact congrArg Host.Outcome.next ((doLldpduReceive_long hs hl h).trans (if_neg (not_not.mpr hl)))
  case full => exact congrArg Host.Outcome.next (doLldpduReceive_full hs hl h (decide_eq_true h'))
  case timer => exact congrArg Host.Outcome.next (if_pos (by simp [hs, hl, he, y]))
  case pause =>
    intro m
    refine ⟨_, congrArg Host.Outcome.next (if_neg (by simp [hs, show (s.port p).link = .up from hl])), releaseCtrl_freed hs _⟩
  case first => exact congrArg Host.Outcome.next (doXoffResend_says hs hl hc (.inl ⟨h0, h⟩))
  case again => exact congrArg Host.Outcome.next (doXoffResend_says hs hl hc (.inr ⟨h0, h⟩))
  case xon => exact congrArg Host.Outcome.next (doXon_says hs hl hc h0 h)
  case noRoom =>
    subst hp
    refine congrArg Host.Outcome.next ((if_neg ?_).trans (if_pos hf))
    simp [show frameHere s h (RxBody.write addr data).len = true from hh]
  case ttl =>
    obtain ⟨w, hclear⟩ := clearLldp_writes (s.setPort p { y with lldp := false }) p
    simp [doLldpTtlExpiry, y, hclear]
  case idle => exact congrArg Host.Outcome.next (releaseCtrl_idle (s := s.setPort p _) hs p)
  case wakeEn =>
    intro ports h h'
    exact congrArg Host.Outcome.next (if_neg (by simpa using (wakeEnOk_iff _ v).mpr ⟨h, h'⟩))

end Sys2Proof.Machine
end

section
/-!
PROOFS. The life of a port: the HELLOs it sends, the links that drop, its commit and the ports that join.
-/

namespace Sys2Proof.Machine

/-! ## HELLOs that a port sends one after another (14 R378) -/

/-- The HELLOs go out in their order, or wait behind a pause, and are counted. -/
def saidHellos (s : State) (p : Fin 32) (ms : List HelloMsg) : State :=
  ms.foldl (fun t m =>
    sayCtrl { t with twine := { t.twine with helloCnt := t.twine.helloCnt + 1 } } p (.hello p m (helloFrame s m))) s

/-- The HELLO of a port to all that follows `i` others of it, to an address and a UDP port. -/
def nthHello (s : State) (p : Fin 32) (pending : Bool) (i : Nat) (c : Nat × Nat) : HelloMsg :=
  { helloMsg s p false false pending 0 0 0 c.1 c.2 with count := BitVec.ofNat 64 (s.twine.helloCnt + 1 + i) }

/-- What HELLOs read of the state and what every change to the waiting control frames leaves as it is. -/
def helloView (s : State) (q : Fin 32) := ({ s.port q with ctrlQ := [] }, s.twine.nonce, s.twine.groups, s.twine.udp, s.mgmt,
  s.pwr, s.sec.spdmQ, s.now)

/-- A control frame that is sent or waits changes no more of the ports. -/
theorem helloView_sayCtrl (s : State) (p : Fin 32) (o : Out) : helloView (sayCtrl s p o) = helloView s := by
  funext q
  unfold sayCtrl
  split
  · by_cases h : q = p
    · subst h
      simp [helloView]
    · simp [helloView, State.setPort_port_ne _ _ _ _ h]
  · rfl

theorem helloView_saidHellos (s : State) (p : Fin 32) (ms : List HelloMsg) :
    helloView (saidHellos s p ms) = helloView s := by
  unfold saidHellos
  refine ms.foldlRecOn _ (motive := fun (t : State) => helloView t = helloView s) rfl fun t ht m _ => ?_
  rw [helloView_sayCtrl]
  exact ht

section
variable {s t : State} (h : helloView t = helloView s)
include h

theorem helloView_port (q : Fin 32) : { t.port q with ctrlQ := [] } = { s.port q with ctrlQ := [] } :=
  congrArg (·.1) (congrFun h q)

theorem helloView_ctrlPaused (q : Fin 32) : ctrlPaused (t.port q) = ctrlPaused (s.port q) :=
  (congrArg ctrlPaused (helloView_port h q) :)

theorem helloView_cfg (q : Fin 32) : (t.port q).cfg = (s.port q).cfg :=
  (congrArg Port.cfg (helloView_port h q) :)

theorem helloView_joined (q : Fin 32) : (t.port q).joined = (s.port q).joined :=
  (congrArg Port.joined (helloView_port h q) :)

theorem helloView_nonce : t.twine.nonce = s.twine.nonce := congrArg (·.2.1) (congrFun h 0)

theorem helloView_groups : t.twine.groups = s.twine.groups := congrArg (·.2.2.1) (congrFun h 0)

theorem helloView_udp : t.twine.udp = s.twine.udp := congrArg (·.2.2.2.1) (congrFun h 0)

theorem helloView_mgmt : t.mgmt = s.mgmt := congrArg (·.2.2.2.2.1) (congrFun h 0)

theorem helloView_pwr : t.pwr = s.pwr := congrArg (·.2.2.2.2.2.1) (congrFun h 0)

theorem helloView_spdmQ : t.sec.spdmQ = s.sec.spdmQ := congrArg (·.2.2.2.2.2.2.1) (congrFun h 0)

theorem helloView_now : t.now = s.now := congrArg (·.2.2.2.2.2.2.2) (congrFun h 0)

theorem helloView_frame (m : HelloMsg) : helloFrame t m = helloFrame s m := by
  unfold helloFrame helloKey
  rw [helloView_nonce h, helloView_now h]

theorem helloView_serve (q : Fin 32) : (portsServe t && groupLive t (t.port q).cfg.group) =
    (portsServe s && groupLive s (s.port q).cfg.group) := by
  unfold portsServe groupLive
  rw [helloView_mgmt h, helloView_pwr h, helloView_groups h, helloView_cfg h]

theorem helloView_msg (p : Fin 32) (pending : Bool) (c : Nat × Nat) :
    helloMsg t p false false pending 0 0 0 c.1 c.2 =
      { helloMsg s p false false pending 0 0 0 c.1 c.2 with count := BitVec.ofNat 64 (t.twine.helloCnt + 1) } := by
  simp [helloMsg, helloView_nonce h, helloView_mgmt h, helloView_groups h, helloView_cfg h]

end

/-- HELLOs said in two parts. -/
theorem saidHellos_append (s : State) (p : Fin 32) (ms : List HelloMsg) (m : HelloMsg) :
    saidHellos s p (ms ++ [m]) = sayCtrl { saidHellos s p ms with
      twine := { (saidHellos s p ms).twine with helloCnt := (saidHellos s p ms).twine.helloCnt + 1 } } p
        (.hello p m (helloFrame s m)) := by
  simp [saidHellos]

theorem sayCtrl_helloCnt (s : State) (p : Fin 32) (o : Out) : (sayCtrl s p o).twine.helloCnt = s.twine.helloCnt := by
  unfold sayCtrl
  split <;> rfl

theorem saidHellos_helloCnt (s : State) (p : Fin 32) (ms : List HelloMsg) :
    (saidHellos s p ms).twine.helloCnt = s.twine.helloCnt + ms.length := by
  induction ms using List.reverseRecOn with
  | nil => rfl
  | append_singleton ms m ih =>
    rw [saidHellos_append, sayCtrl_helloCnt]
    simp [ih, Nat.add_assoc]

/-- While control frames may leave, the HELLOs go out. -/
theorem saidHellos_out {s : State} {p : Fin 32} (h : ctrlPaused (s.port p) = false) (ms : List HelloMsg) :
    (saidHellos s p ms).out = (ms.map fun m => Out.hello p m (helloFrame s m)).reverse ++ s.out := by
  induction ms using List.reverseRecOn with
  | nil => rfl
  | append_singleton ms m ih =>
    rw [saidHellos_append, sayCtrl, if_neg]
    · simp [ih]
    · exact ne_true_of_eq_false ((helloView_ctrlPaused (helloView_saidHellos s p ms) p).trans h)

/-- While control frames are stopped, the HELLOs wait. -/
theorem saidHellos_ctrlQ {s : State} {p : Fin 32} (h : ctrlPaused (s.port p) = true) (ms : List HelloMsg) :
    (saidHellos s p ms).out = s.out ∧ ((saidHellos s p ms).port p).ctrlQ =
      (s.port p).ctrlQ ++ ms.map fun m => Out.hello p m (helloFrame s m) := by
  induction ms using List.reverseRecOn with
  | nil => simp [saidHellos]
  | append_singleton ms m ih =>
    obtain ⟨hout, hq⟩ := ih
    rw [saidHellos_append, sayCtrl, if_pos]
    · refine ⟨hout, ?_⟩
      rw [State.setPort_port_same, List.map_append, ← List.append_assoc, ← hq]
      rfl
    · exact (helloView_ctrlPaused (helloView_saidHellos s p ms) p).trans h

/-- HELLOs of one port with rising counts are sent as 14 R378 says. -/
theorem hellosSent_saidHellos {s : State} {p : Fin 32} {ms : List HelloMsg}
    (hcount : ms.map (·.count) = (List.range ms.length).map fun i => BitVec.ofNat 64 (s.twine.helloCnt + 1 + i))
    (hfrom : ∀ m ∈ ms, m.port = p ∧ m.nonce = s.twine.nonce) : hellosSent s (saidHellos s p ms) p ms :=
  ⟨saidHellos_helloCnt s p ms, hcount, hfrom, fun h => saidHellos_out h ms, fun h => saidHellos_ctrlQ h ms⟩

/-- A HELLO on a port whose group carries Twine traffic. -/
theorem putHello_says {s : State} {p : Fin 32} (h : (portsServe s && groupLive s (s.port p).cfg.group) = true) (m : HelloMsg) :
    putHello s p m = saidHellos s p [m] := by
  rw [putHello, if_neg (by simp [h])]
  rfl

/-- HELLOs to several addresses. -/
theorem putHellos_says {s : State} {p : Fin 32} (h : (portsServe s && groupLive s (s.port p).cfg.group) = true)
    (pending : Bool) (l : List (Nat × Nat)) :
    l.foldl (fun t c => putHello t p (helloMsg t p false false pending 0 0 0 c.1 c.2)) s =
      saidHellos s p (l.mapIdx (nthHello s p pending)) := by
  induction l using List.reverseRecOn with
  | nil => rfl
  | append_singleton l c ih =>
    have hview := helloView_saidHellos s p (l.mapIdx (nthHello s p pending))
    have hmsg : helloMsg (saidHellos s p (l.mapIdx (nthHello s p pending))) p false false pending 0 0 0 c.1 c.2 =
        nthHello s p pending l.length c := by
      rw [helloView_msg hview, saidHellos_helloCnt, List.length_mapIdx, Nat.add_right_comm]
      rfl
    rw [List.foldl_append, ih, List.mapIdx_concat, saidHellos_append, List.foldl_cons, List.foldl_nil, hmsg, putHello,
      if_neg (by simp [helloView_serve hview, h]), helloView_frame hview]

/-- The addresses that a HELLO to all goes to, with the UDP port. -/
def allTargets (s : State) (p : Fin 32) : List (Nat × Nat) := (toAll s p).map fun a => (a, s.twine.udp)

theorem allTargets_fst (s : State) (p : Fin 32) : (allTargets s p).map (·.1) = toAll s p := by
  simp [allTargets, Function.comp_def]

theorem sendHello_eq (s : State) (p : Fin 32) (pending : Bool) : sendHello s p pending =
    (allTargets s p).foldl (fun t c => putHello t p (helloMsg t p false false pending 0 0 0 c.1 c.2)) s := by
  have hudp (m : HelloMsg) : (putHello s p m).twine.udp = s.twine.udp := by
    unfold putHello sayCtrl
    split
    · rfl
    · dsimp only
      split <;> rfl
  unfold sendHello allTargets toAll
  dsimp only
  split <;> split <;> simp [*]

theorem hellosSent_nthHello {s : State} {p : Fin 32} (pending : Bool) (l : List (Nat × Nat)) :
    hellosSent s (saidHellos s p (l.mapIdx (nthHello s p pending))) p (l.mapIdx (nthHello s p pending)) := by
  refine hellosSent_saidHellos ?_ fun m hm => ?_
  · refine List.ext_getElem (by simp) fun i hi _ => ?_
    simp [nthHello]
  · obtain ⟨i, hi, rfl⟩ := List.mem_mapIdx.mp hm
    exact ⟨rfl, rfl⟩

theorem dest_nthHello (s : State) (p : Fin 32) (pending : Bool) (l : List (Nat × Nat)) :
    (l.mapIdx (nthHello s p pending)).map (·.dest) = l.map (·.1) := by
  refine List.ext_getElem (by simp) fun i hi _ => ?_
  simp [nthHello, helloMsg]

/-! ## What a port's changes leave of the other state -/

theorem Strand.revived_cfg (x : Strand) (ps : List (Fin 32)) : (x.revived ps).cfg = x.cfg := by
  unfold Strand.revived
  split
  · rfl
  · split <;> rfl

theorem settlePath_cfg (s : State) (n : Fin 2048) (x : Strand) : (settlePath s n x).cfg = x.cfg := by
  unfold settlePath
  split
  · rfl
  · rfl
  · dsimp only
    split
    · exact Strand.revived_cfg ..
    · split <;> exact Strand.revived_cfg ..

/-- When the joined ports change the strands keep their configurations. -/
theorem settlePaths_cfg (s : State) (n : Fin 2048) : ((settlePaths s).strand n).cfg = (s.strand n).cfg := by
  simp [settlePaths, State.strand, settlePath_cfg]

/-- When the joined ports change the strands alone do. -/
theorem settlePaths_form (s : State) : ∃ v, settlePaths s = { s with twine := { s.twine with strands := v } } := ⟨_, rfl⟩

@[simp] theorem settlePaths_port (s : State) (p : Fin 32) : (settlePaths s).port p = s.port p := by
  obtain ⟨v, e⟩ := settlePaths_form s
  rw [e]
  rfl

@[simp] theorem settlePaths_eth (s : State) : (settlePaths s).eth = s.eth := by
  obtain ⟨v, e⟩ := settlePaths_form s
  rw [e]

@[simp] theorem settlePaths_mem (s : State) : (settlePaths s).mem = s.mem := by
  obtain ⟨v, e⟩ := settlePaths_form s
  rw [e]

@[simp] theorem record_port (s : State) (kind : Nat) (st : Option Status) (unit index : Nat) (args : List Nat) (p : Fin 32) :
    (record s kind st unit index args).port p = s.port p := by
  obtain ⟨f, d, v, e⟩ := record_form s kind st unit index args
  rw [e]
  rfl

/-- A port that drops changes itself and its LLDP area. -/
theorem dropPort_form (s : State) (p : Fin 32) (l : Link) : ∃ w, dropPort s p l =
    (s.setPort p ((s.port p).dropped l)).setMgmt { s.mgmt with win := w } := by
  obtain ⟨w, e⟩ := clearLldp_writes (s.setPort p ((s.port p).dropped l)) p
  exact ⟨_, e⟩

theorem dropPort_port_same (s : State) (p : Fin 32) (l : Link) : (dropPort s p l).port p = (s.port p).dropped l := by
  obtain ⟨w, e⟩ := dropPort_form s p l
  simp [e]

theorem dropPort_port_ne (s : State) {p q : Fin 32} (h : q ≠ p) (l : Link) : (dropPort s p l).port q = s.port q := by
  obtain ⟨w, e⟩ := dropPort_form s p l
  simp [e, State.setPort_port_ne _ _ _ _ h]

/-- A port that fails is DOWN. -/
theorem failPort_port (s : State) (p : Fin 32) :
    (failPort s p).port p = { (s.port p).dropped .down with failed := true, storm := false } := by
  simp only [failPort, record_port, settlePaths_port, State.setPort_port_same, dropPort_port_same]

/-- What a port sends after a pause leaves all of the ports but the frames that wait. -/
theorem helloView_releaseCtrl_port (s : State) (p q : Fin 32) :
    { (releaseCtrl s p).port q with ctrlQ := [] } = { s.port q with ctrlQ := [] } := by
  have h : { (s.setPort p { s.port p with ctrlQ := [] }).port q with ctrlQ := [] } = { s.port q with ctrlQ := [] } := by
    by_cases e : q = p
    · subst e
      simp
    · simp [State.setPort_port_ne _ _ _ _ e]
  unfold releaseCtrl
  split
  · rfl
  · simp only [sayAll_eq]
    split <;> exact h

/-- What is true of each port after its own turn, and stays so in the turns of the others, is true of all in the end. -/
theorem foldl_finRange_each {σ : Type} {n : Nat} {f : σ → Fin n → σ} {P : Fin n → σ → Prop} (own : ∀ s i, P i (f s i))
    (keep : ∀ s i j, j ≠ i → P j s → P j (f s i)) (s : σ) (j : Fin n) : P j ((List.finRange n).foldl f s) := by
  have h (l : List (Fin n)) (t : σ) : P j t ∨ j ∈ l → P j (l.foldl f t) := by
    induction l generalizing t with
    | nil => simp
    | cons i l ih =>
      intro ht
      refine ih _ ?_
      by_cases e : j = i
      · exact .inl (e ▸ own t i)
      · refine ht.imp (keep t i j e) fun hm => (List.mem_cons.mp hm).resolve_left e
  exact h _ _ (.inr (List.mem_finRange j))

/-- Every link that drops is DOWN, and one that was OFF stays so. -/
theorem dropPorts_down (s : State) (j : Fin 32) : ((dropPorts s).port j).link = .off ∨
    ((dropPorts s).port j).link = .down ∧ ((dropPorts s).port j).joined = false := by
  unfold dropPorts
  rw [settlePaths_port]
  refine foldl_finRange_each (P := fun (j : Fin 32) (t : State) =>
    (t.port j).link = .off ∨ (t.port j).link = .down ∧ (t.port j).joined = false) (fun t i => ?_) (fun t i j hj h => ?_) s j
  · split
    · exact .inl ‹_›
    · rw [dropPort_port_same]
      exact .inr ⟨rfl, rfl⟩
  · split
    · exact h
    · rw [dropPort_port_ne _ hj]
      exact h

theorem dropPorts_mem (s : State) : (dropPorts s).mem = s.mem := by
  unfold dropPorts
  rw [settlePaths_mem]
  refine List.foldlRecOn _ _ (motive := fun (t : State) => t.mem = s.mem) rfl fun t ht p _ => ?_
  split
  · exact ht
  · obtain ⟨w, e⟩ := dropPort_form t p .down
    rw [e]
    exact ht

/-! ## ETH_COMMIT (13 R352 to R354) -/

theorem sendHello_cfg (s : State) (p : Fin 32) (pending : Bool) (q : Fin 32) :
    ((sendHello s p pending).port q).cfg = (s.port q).cfg := by
  rw [sendHello_eq]
  refine List.foldlRecOn _ _ (motive := fun (t : State) => (t.port q).cfg = (s.port q).cfg) rfl fun t ht c _ => ?_
  unfold putHello
  split
  · exact ht
  · exact (helloView_cfg (helloView_sayCtrl ..) q).trans ht

/-- A port's turn in a commit gives it what is staged for it. -/
theorem commitPort_cfg_same (e : Eth) (moded : Bool) (s : State) (p : Fin 32) :
    ((commitPort e moded s p).port p).cfg = e.stagedPort p := by
  unfold commitPort
  dsimp only
  split
  · rw [retrain, dropPort_port_same, State.setPort_port_same]
    rfl
  · split
    · rw [sendHello_cfg, State.setPort_port_same]
    · rw [State.setPort_port_same]

theorem commitPort_cfg_ne (e : Eth) (moded : Bool) (s : State) {p q : Fin 32} (h : q ≠ p) :
    ((commitPort e moded s p).port q).cfg = (s.port q).cfg := by
  unfold commitPort
  dsimp only
  split
  · rw [retrain, dropPort_port_ne _ h, State.setPort_port_ne _ _ _ _ h]
  · split
    · rw [sendHello_cfg, State.setPort_port_ne _ _ _ _ h]
    · rw [State.setPort_port_ne _ _ _ _ h]

theorem sayCtrl_eth (s : State) (p : Fin 32) (o : Out) : ∃ v, (sayCtrl s p o).eth = { s.eth with ports := v } := by
  unfold sayCtrl
  split
  · exact ⟨_, rfl⟩
  · exact ⟨_, rfl⟩

/-- A commit changes the ports' registers alone, besides the ports. -/
theorem commitPort_eth (e : Eth) (moded : Bool) (s : State) (p : Fin 32) :
    ∃ v, (commitPort e moded s p).eth = { s.eth with ports := v } := by
  unfold commitPort
  dsimp only
  split
  · obtain ⟨w, hw⟩ := dropPort_form (s.setPort p { s.port p with cfg := e.stagedPort p }) p
      (if portExists (s.setPort p { s.port p with cfg := e.stagedPort p }) p then _ else .off)
    rw [retrain, hw]
    exact ⟨_, rfl⟩
  · split
    · rw [sendHello_eq]
      refine List.foldlRecOn _ _ (motive := fun (t : State) => ∃ v, t.eth = { s.eth with ports := v }) ⟨_, rfl⟩ fun t ht c _ => ?_
      unfold putHello
      split
      · exact ht
      · obtain ⟨v, hv⟩ := ht
        obtain ⟨w, hw⟩ := sayCtrl_eth { t with twine := { t.twine with helloCnt := t.twine.helloCnt + 1 } } p
          (.hello p (helloMsg t p false false false 0 0 0 c.1 c.2) (helloFrame t (helloMsg t p false false false 0 0 0 c.1 c.2)))
        exact ⟨w, hw.trans (by rw [show ({ t with twine := { t.twine with helloCnt := t.twine.helloCnt + 1 } } : State).eth =
          t.eth from rfl, hv])⟩
    · exact ⟨_, rfl⟩

/-- Every port takes what is staged for it. -/
theorem doEthCommit_takes {s : State} (hw : s.eth.staged ≠ []) (hgood : ∀ j : Fin 32,
      portCount ((stagedOr s.eth.staged 0x7000 (BitVec.ofNat 64 s.eth.mode)).toNat % 4) ≤ j.val ∨ (s.eth.stagedPort j).ok = true) :
    (doEthCommit s).eth.mode = (stagedOr s.eth.staged 0x7000 (BitVec.ofNat 64 s.eth.mode)).toNat % 4 ∧
      (doEthCommit s).eth.staged = [] ∧ (doEthCommit s).eth.result = .ok ∧
      ∀ j, ((doEthCommit s).port j).cfg = s.eth.stagedPort j := by
  unfold doEthCommit
  dsimp only
  rw [if_neg hw, if_pos (by simpa using hgood)]
  set mode := (stagedOr s.eth.staged 0x7000 (BitVec.ofNat 64 s.eth.mode)).toNat % 4
  set s' : State := { s with eth := { s.eth with mode := mode, staged := [], result := .ok } }
  have heth : ∃ v, ((List.finRange 32).foldl (commitPort s.eth (mode != s.eth.mode)) s').eth = { s'.eth with ports := v } :=
    List.foldlRecOn _ _ (motive := fun (t : State) => ∃ v, t.eth = { s'.eth with ports := v }) ⟨_, rfl⟩
      fun t ⟨v, hv⟩ p _ => by
        obtain ⟨w, hw⟩ := commitPort_eth s.eth (mode != s.eth.mode) t p
        exact ⟨w, hw.trans (by rw [hv])⟩
  obtain ⟨v, hv⟩ := heth
  rw [settlePaths_eth, hv]
  refine ⟨rfl, rfl, rfl, fun j => ?_⟩
  rw [settlePaths_port]
  exact foldl_finRange_each (P := fun (j : Fin 32) (t : State) => (t.port j).cfg = s.eth.stagedPort j)
    (fun t i => commitPort_cfg_same ..) (fun t i j hj h => (commitPort_cfg_ne _ _ _ hj).trans h) s' j

/-! ## A port that joins (13 R364) -/

@[simp] theorem releaseCtrl_twine (s : State) (p : Fin 32) : (releaseCtrl s p).twine = s.twine := by
  unfold releaseCtrl
  split
  · rfl
  · simp only [sayAll_eq]
    split <;> rfl

/-- What is said while nothing waits leaves nothing that waits. -/
theorem saidHellos_nothing_waits {s : State} {p : Fin 32} (h : ctrlPaused (s.port p) = false) (ms : List HelloMsg) :
    ((saidHellos s p ms).port p).ctrlQ = (s.port p).ctrlQ := by
  induction ms using List.reverseRecOn with
  | nil => rfl
  | append_singleton ms m ih =>
    rw [saidHellos_append, sayCtrl, if_neg]
    · exact ih
    · exact ne_true_of_eq_false ((helloView_ctrlPaused (helloView_saidHellos s p ms) p).trans h)

/-- Where nothing waited before, what is sent after the HELLOs are the HELLOs. -/
theorem releaseCtrl_hellos {s : State} {p : Fin 32} (h : (portsServe s && groupLive s (s.port p).cfg.group) = true)
    (hq : (s.port p).ctrlQ = []) (hspdm : s.sec.spdmQ = []) (pending : Bool) (l : List (Nat × Nat)) :
    hellosSent s (releaseCtrl (saidHellos s p (l.mapIdx (nthHello s p pending))) p) p (l.mapIdx (nthHello s p pending)) := by
  obtain ⟨hcnt, hcounts, hfrom, hout, hwait⟩ := hellosSent_nthHello (s := s) (p := p) pending l
  have hview := helloView_saidHellos s p (l.mapIdx (nthHello s p pending))
  have hnone := fun hc => saidHellos_nothing_waits (s := s) (p := p) hc (l.mapIdx (nthHello s p pending))
  set ms := l.mapIdx (nthHello s p pending)
  refine ⟨by rw [releaseCtrl_twine, hcnt], hcounts, hfrom, fun hc => ?_, fun hc => ?_⟩
  · obtain ⟨hserve, -⟩ := Bool.and_eq_true_iff.mp ((helloView_serve hview p).trans h)
    obtain ⟨-, hsent, -⟩ := releaseCtrl_sends hserve ((helloView_ctrlPaused hview p).trans hc)
    rw [hsent, hnone hc, hq, helloView_spdmQ hview, hspdm, hout hc]
    simp
  · rw [releaseCtrl_paused ((helloView_ctrlPaused hview p).trans hc)]
    exact hwait hc

/-- The peers of the strands of a group, each once. -/
def groupPeers (s : State) (g : Fin 8) : List (Nat × Nat) :=
  (((List.finRange 2048).filter fun n =>
    (s.strand n).cfg.enable && (s.strand n).cfg.group == g && (s.strand n).cfg.ip != 0).map fun n =>
      ((s.strand n).cfg.ip, (s.strand n).cfg.udp)).dedup

theorem groupPeers_congr {s t : State} (h : ∀ n, (t.strand n).cfg = (s.strand n).cfg) (g : Fin 8) :
    groupPeers t g = groupPeers s g := by
  simp only [groupPeers, h]

/-- A port that joins says HELLO to all and to the peers of its group, and what waited goes out. -/
theorem joinPort_eq (s : State) (p : Fin 32) : joinPort s p =
    let t := settlePaths (s.setPort p { s.port p with joined := true })
    releaseCtrl ((allTargets t p ++ groupPeers t (t.port p).cfg.group).foldl
      (fun t c => putHello t p (helloMsg t p false false false 0 0 0 c.1 c.2)) t) p := by
  unfold joinPort groupPeers
  dsimp only
  rw [List.foldl_append, ← sendHello_eq]

/-- Of the port itself a join changes the mark and the frames that wait. -/
theorem joinPort_port (s : State) (p : Fin 32) :
    { (joinPort s p).port p with ctrlQ := [] } = { s.port p with joined := true, ctrlQ := [] } := by
  rw [joinPort_eq]
  dsimp only
  rw [helloView_releaseCtrl_port]
  refine List.foldlRecOn _ _
    (motive := fun (t : State) => { t.port p with ctrlQ := [] } = { s.port p with joined := true, ctrlQ := [] })
    ?_ fun t ht c _ => ?_
  · simp only [settlePaths_port, State.setPort_port_same]
  · unfold putHello
    split
    · exact ht
    · exact (helloView_port (helloView_sayCtrl ..) p).trans ht

theorem joinPort_joined (s : State) (p : Fin 32) : ((joinPort s p).port p).joined = true :=
  by simpa only using congrArg Port.joined (joinPort_port s p)

theorem joinPort_storm (s : State) (p : Fin 32) : ((joinPort s p).port p).storm = (s.port p).storm :=
  by simpa only using congrArg Port.storm (joinPort_port s p)

/-- Where nothing waits and the port serves, the HELLOs of a port that joins are what it sends. -/
theorem joinPort_hellos {s : State} {p : Fin 32} (hs : portsServe s = true) (hg : groupLive s (s.port p).cfg.group = true)
    (hq : (s.port p).ctrlQ = []) (hspdm : s.sec.spdmQ = []) :
    ∃ ms, hellosSent s (joinPort s p) p ms ∧
      ms.map (·.dest) = toAll s p ++ (groupPeers s (s.port p).cfg.group).map (·.1) := by
  have hcfg (n : Fin 2048) : ((settlePaths (s.setPort p { s.port p with joined := true })).strand n).cfg =
    (s.strand n).cfg := settlePaths_cfg _ _
  have hpeers := groupPeers_congr hcfg (s.port p).cfg.group
  rw [joinPort_eq]
  obtain ⟨t, ht⟩ : ∃ t, t = settlePaths (s.setPort p { s.port p with joined := true }) := ⟨_, rfl⟩
  obtain ⟨v, ev⟩ := settlePaths_form (s.setPort p { s.port p with joined := true })
  have hport : t.port p = { s.port p with joined := true } := by rw [ht, settlePaths_port, State.setPort_port_same]
  dsimp only
  rw [← ht] at hpeers ⊢
  rw [ev] at ht
  have htwine : t.twine = { s.twine with strands := v } := congrArg State.twine ht
  have hserve : (portsServe t && groupLive t (t.port p).cfg.group) = true := by
    simp only [ht] at hport ⊢
    rw [hport]
    exact Bool.and_eq_true_iff.mpr ⟨hs, hg⟩
  have hall : toAll t p = toAll s p := by
    unfold toAll
    rw [htwine, hport]
  obtain ⟨hcnt, hcounts, hfrom, hout, hwait⟩ :=
    releaseCtrl_hellos hserve (hport ▸ hq) ((congrArg (·.sec.spdmQ) ht).trans hspdm) false
      (allTargets t p ++ groupPeers t (t.port p).cfg.group)
  rw [putHellos_says hserve]
  have hframe (m : HelloMsg) : helloFrame t m = helloFrame s m := by
    unfold helloFrame helloKey
    rw [htwine, show t.now = s.now from (congrArg State.now ht :)]
  have hout' : t.out = s.out := (congrArg State.out ht :)
  generalize hms : (allTargets t p ++ groupPeers t (t.port p).cfg.group).mapIdx (nthHello t p false) = ms at *
  simp only [hframe, htwine, hport, hout'] at hcnt hcounts hfrom hout hwait
  refine ⟨ms, ⟨hcnt, hcounts, hfrom, hout, hwait⟩, ?_⟩
  · rw [← hms, dest_nthHello, List.map_append, hport, hpeers]
    rw [allTargets_fst, hall]

/-! ## The statement -/

/-- Settles O42: the port itself changes as the command says; the HELLOs of a port that joins are a run of numbered ones. -/
theorem portLife : Obligations.PortLife := by
  unfold Obligations.PortLife
  intro p s y
  refine ⟨fun hw => ⟨fun hgood => ⟨_, rfl, doEthCommit_takes hw hgood⟩, fun hbad => ?refused⟩, fun hl => ⟨_, rfl, ?linkUp⟩,
    fun hl hj hst => ⟨_, rfl, ?joins⟩, fun hl => ⟨_, rfl, ?down⟩, fun hl => ⟨fun ha => ?again, fun ha => ⟨_, rfl, ?fails⟩⟩,
    fun hf hl => ⟨_, rfl, ?fail⟩, fun hl hx hc hst => ⟨_, rfl, ?storm⟩, fun hst hx => ⟨_, rfl, ?stormEnd⟩,
    fun hc hp => ⟨_, rfl, ?clock⟩⟩
  case refused =>
    refine congrArg Host.Outcome.next ((if_neg hw).trans (if_neg ?_))
    simpa using hbad
  case linkUp =>
    rw [doPortLinkUp, if_pos hl, State.setPort_port_same]
  case joins =>
    rw [doPortJoin, if_pos (by simp [show (s.port p).link = .up from hl, show (s.port p).joined = false from hj,
      show (s.port p).storm = false from hst])]
    exact ⟨joinPort_joined s p, joinPort_hellos⟩
  case down =>
    have hport : (doPortDown p s).port p = y.dropped (if portExists s p then y.restart else .off) := by
      rw [doPortDown, if_pos hl, settlePaths_port, retrain, dropPort_port_same]
    rw [hport]
    exact ⟨rfl, rfl, if_pos hl, rfl, rfl, rfl⟩
  case again =>
    exact congrArg Host.Outcome.next ((if_neg (not_not.mpr hl)).trans (if_neg (show ¬ 20 ≤ y.attempts + 1 by omega)))
  case fails =>
    rw [doTrainingRestart, if_neg (not_not.mpr hl), if_pos (show 20 ≤ y.attempts + 1 by omega), failPort_port]
    exact ⟨rfl, rfl⟩
  case fail =>
    rw [doPortFail, if_neg (by rintro (h | h); exacts [absurd (h.symm.trans hf) (by decide), hl h]), failPort_port]
    exact ⟨rfl, rfl, rfl⟩
  case storm =>
    rw [doPauseStorm]
    dsimp only
    rw [if_neg (by simp [y] at *; simp [*]), record_port, settlePaths_port, State.setPort_port_same]
  case stormEnd =>
    rw [doStormEnd]
    dsimp only
    rw [if_neg (by simp [y] at *; simp [*]), record_port]
    split
    · next hl =>
      rw [joinPort_storm, State.setPort_port_same]
      exact ⟨rfl, iff_of_true (joinPort_joined ..) (.inl hl)⟩
    · next hl =>
      rw [State.setPort_port_same]
      exact ⟨rfl, (or_iff_right hl).symm⟩
  case clock =>
    rw [doRefclkLoss, if_neg (by rintro (h | h); exacts [absurd (h.symm.trans hc) (by decide), hp h])]
    dsimp only
    rw [State.setMgmt_mgmt, State.setMgmt_mem, dropPorts_mem]
    refine ⟨rfl, rfl, fun j => ?_⟩
    rw [State.setMgmt_port]
    exact dropPorts_down s j

end Sys2Proof.Machine
end

section
/-!
PROOFS. The life of a strand: its opening, its close and its loss, and the HELLOs that are sent and taken.
-/

namespace Sys2Proof.Machine

/-! ## Messages and ends of operations on the strands -/

/-- What messages and ends of operations leave: the ports, the RMAs, all of a strand but the frames that wait on it, and all
of a strand that carries nothing. -/
def silentView (s : State) :=
  (s.twine.rmas, s.eth, s.now, fun n => ({ s.strand n with txq := [] },
    if (s.strand n).st = .closed ∨ (s.strand n).st = .lost then some (s.strand n) else none))

/-- From `s` to `t` the parts of `silentView` have not changed. -/
def Silent (s t : State) : Prop := silentView t = silentView s

namespace Silent

section
variable {s t u : State}

theorem refl : Silent s s := rfl
theorem trans (h : Silent s t) (h' : Silent t u) : Silent s u := Eq.trans h' h
theorem setQ {q : Fin 4096} {x : Queue} (h : Silent s t) : Silent s (t.setQ q x) := h
theorem setSlot {k : Fin 8} {x : Ply} (h : Silent s t) : Silent s (t.setSlot k x) := h
theorem skeins {x : Vector Skein 8} (h : Silent s t) : Silent s { t with skeins := x } := h
theorem queues {x : Vector Queue 4096} (h : Silent s t) : Silent s { t with queues := x } := h
theorem ply {x : Groups} (h : Silent s t) : Silent s { t with ply := x } := h
theorem setMgmtRecord {ws : List Word} (h : Silent s t) : Silent s { t with mgmt := (keepRecord t.mgmt ws).1 } := by
  obtain ⟨f, d, e⟩ := keepRecord_form t.mgmt ws
  rw [e]
  exact h

theorem ite {c : Prop} [Decidable c] (ha : c → Silent s t) (hb : ¬ c → Silent s u) :
    Silent s (if c then t else u) := by
  split
  · exact ha ‹_›
  · exact hb ‹_›

theorem foldl {β : Type} {g : State → β → State} {l : List β} (h : Silent s t)
    (hg : ∀ {u : State} {b : β}, Silent s u → Silent s (g u b)) : Silent s (l.foldl g t) := by
  induction l generalizing t with
  | nil => exact h
  | cons b l ih => exact ih (hg h)

end

end Silent

section
variable {s t : State}

theorem Silent.applyPaces (h : Silent s t) : Silent s (applyPaces t) := by
  unfold Machine.applyPaces
  exact h.skeins

theorem Silent.endPace {k : Fin 8} (h : Silent s t) : Silent s (endPace t k) := by
  unfold Machine.endPace
  exact h.setSlot.applyPaces

theorem Silent.setPeer {e : Fin 64} {x : Peer} (h : Silent s t) : Silent s (State.setPeer t e x) := by
  unfold Machine.State.setPeer
  exact h.ply

theorem Silent.setDesc {q : Fin 4096} {seq : Nat} {f : Desc → Desc}
    (h : Silent s t) : Silent s (setDesc t q seq f) := by
  unfold Machine.setDesc
  exact h.setQ

theorem Silent.finish {q : Fin 4096} {seq : Nat} {st : Status} {flags : Flags} {code : Nat} {detail : Nat}
    {value : Nat} (h : Silent s t) : Silent s (finish t q seq st flags code detail value) := by
  unfold Machine.finish
  exact h.setDesc

theorem Silent.dropOp {o : GOp} (h : Silent s t) : Silent s (dropOp t o) := by
  unfold Machine.dropOp
  exact h.ply

theorem Silent.endOp {o : GOp} {st : Status} (h : Silent s t) : Silent s (endOp t o st) := by
  unfold Machine.endOp
  exact h.dropOp.finish

theorem Silent.post {n : Fin 2048} {m : Msg} (h : Silent s t) : Silent s (post t n m) := by
  unfold Machine.post
  dsimp only
  split
  · exact h
  · exact h
  · next hc hl =>
    have hbusy : ¬ ((t.strand n).st = .closed ∨ (t.strand n).st = .lost) := not_or.mpr ⟨hc, hl⟩
    refine Silent.trans h (Prod.ext rfl (Prod.ext rfl (Prod.ext rfl (funext fun k => ?_))))
    by_cases e : k = n
    · subst e
      simp only [silentView, State.setStrand_strand_same, if_neg hbusy]
    · simp only [silentView, State.setStrand_strand_ne _ _ _ _ e]

theorem Silent.notify {to_ : Party} {kind : Nat} {queue : Nat} {result : Nat} {body : List Byte}
    (h : Silent s t) : Silent s (notify t to_ kind queue result body) := by
  unfold Machine.notify
  split
  · exact h.post
  · exact h

theorem Silent.addRecord {q : Nat} {ws : List Word} {ten : Bool}
    (h : Silent s t) : Silent s (addRecord t q ws ten) := by
  unfold Machine.addRecord
  exact .ite (fun _ => h.setMgmtRecord.notify.notify) fun _ => h.setMgmtRecord.notify

theorem Silent.groupRecord {k : Fin 8} {kind : Nat} {st : Status} {step : Nat} {named : Nat} {info : Nat}
    (h : Silent s t) : Silent s (groupRecord t k kind st step named info) := by
  unfold Machine.groupRecord
  exact h.addRecord

theorem Silent.masterRecord {k : Fin 8} {kind : Nat} {st : Status} {step : Nat} {named : Nat} {info : Nat}
    (h : Silent s t) : Silent s (masterRecord t k kind st step named info) := by
  unfold Machine.masterRecord
  exact .ite (fun _ => h.groupRecord) fun _ => h

theorem Silent.failMember {k : Fin 8} {i : Nat} (h : Silent s t) : Silent s (failMember t k i) := by
  unfold Machine.failMember
  dsimp only
  split
  · exact h
  · refine Silent.masterRecord ?_
    refine Silent.foldl ?_ fun h' => ?_
    · split
      · exact h.setSlot.endPace.setPeer
      · exact h.setSlot.endPace
    · exact h'.endOp

theorem Silent.failStrand {n : Fin 2048} (h : Silent s t) : Silent s (failStrand t n) := by
  unfold Machine.failStrand
  refine h.foldl fun h' => ?_
  split
  · exact h'.failMember
  · exact h'

theorem Silent.endGroupsOn {n : Fin 2048} {st : Status} (h : Silent s t) : Silent s (endGroupsOn t n st) := by
  unfold Machine.endGroupsOn
  refine h.foldl fun h' => ?_
  split
  · split
    · exact .ite (fun _ => h'.endOp) fun _ => h'
    · exact h'
  · exact h'

theorem Silent.forgetStrand {n : Fin 2048} (h : Silent s t) : Silent s (forgetStrand t n) := by
  unfold Machine.forgetStrand
  exact h.queues

theorem Silent.keeps_twine_rmas (h : Silent s t) : t.twine.rmas = s.twine.rmas := congrArg (·.1) h
theorem Silent.keeps_eth (h : Silent s t) : t.eth = s.eth := congrArg (·.2.1) h
theorem Silent.keeps_now (h : Silent s t) : t.now = s.now := congrArg (·.2.2.1) h

end

/-! ## RMAs that end (14 R376, R393) -/

theorem finish_twine (s : State) (q : Fin 4096) (seq : Nat) (st : Status) (fl : Flags) (c d v : Nat) :
    (finish s q seq st fl c d v).twine = s.twine := rfl

/-- An RMA that ends leaves the engine; the strands stay as they are. -/
theorem endRma_twine (s : State) (r : Rma) (st : Status) : (endRma s r st).twine =
    { s.twine with rmas := s.twine.rmas.filter fun x => !(x.queue == r.queue && x.seq == r.seq) } := by
  unfold endRma
  dsimp only
  split
  · exact finish_twine ..
  · exact finish_twine ..

/-- The RMAs that end leave the engine. -/
theorem endRmas_twine (s : State) (l : List Rma) (st : Status) : (l.foldl (fun s r => endRma s r st) s).twine =
    { s.twine with rmas := s.twine.rmas.filter fun x => l.all fun r => !(x.queue == r.queue && x.seq == r.seq) } := by
  induction l generalizing s with
  | nil => simp
  | cons r l ih =>
    rw [List.foldl_cons, ih, endRma_twine]
    simp [List.filter_filter, Bool.and_comm]

theorem endRmasOn_strand (s : State) (n : Fin 2048) (st : Status) (i : Fin 2048) :
    (endRmasOn s n st).strand i = s.strand i :=
  (congrArg (fun t : Twine => t.strands.get i) (endRmas_twine s (s.twine.rmas.filter fun r => r.strand = n) st) :)

/-- No RMA of the strand is left. -/
theorem endRmasOn_rmas (s : State) (n : Fin 2048) (st : Status) : ∀ r ∈ (endRmasOn s n st).twine.rmas, r.strand ≠ n := by
  intro r hr hn
  unfold endRmasOn at hr
  rw [endRmas_twine] at hr
  obtain ⟨hr, hall⟩ := List.mem_filter.mp hr
  have := List.all_eq_true.mp hall r (List.mem_filter.mpr ⟨hr, by simpa using hn⟩)
  simp at this

/-! ## Strands that close or are lost -/

section
variable {s t : State} (h : Silent s t)
include h

theorem Silent.strand (n : Fin 2048) : { t.strand n with txq := [] } = { s.strand n with txq := [] } :=
  congrArg (·.1) (congrFun (congrArg (·.2.2.2) h) n)

/-- A strand that carries nothing is sent nothing. -/
theorem Silent.strand_eq {n : Fin 2048} (hn : (s.strand n).st = .closed ∨ (s.strand n).st = .lost) :
    t.strand n = s.strand n := by
  have hst : (t.strand n).st = (s.strand n).st := (congrArg Strand.st (h.strand n) :)
  have hsome : (if (t.strand n).st = .closed ∨ (t.strand n).st = .lost then some (t.strand n) else none) =
    if (s.strand n).st = .closed ∨ (s.strand n).st = .lost then some (s.strand n) else none :=
    congrArg (·.2) (congrFun (congrArg (·.2.2.2) h) n)
  rw [hst, if_pos hn, if_pos hn] at hsome
  exact Option.some.inj hsome

end

theorem loseStrand_rmas (s : State) (n : Fin 2048) : ∀ r ∈ (loseStrand s n).twine.rmas, r.strand ≠ n := by
  have h : Silent ((endRmasOn s n .pathLost).setStrand n (((endRmasOn s n .pathLost).strand n).emptied .lost))
    (loseStrand s n) := Silent.refl.forgetStrand.failStrand
  rw [h.keeps_twine_rmas]
  exact endRmasOn_rmas s n .pathLost

/-- A strand that is lost carries nothing. -/
theorem loseStrand_strand_same (s : State) (n : Fin 2048) : (loseStrand s n).strand n = (s.strand n).emptied .lost := by
  have h : Silent ((endRmasOn s n .pathLost).setStrand n (((endRmasOn s n .pathLost).strand n).emptied .lost))
    (loseStrand s n) := Silent.refl.forgetStrand.failStrand
  rw [h.strand_eq (.inr (by rw [State.setStrand_strand_same]; rfl)), State.setStrand_strand_same, endRmasOn_strand]

/-- A strand that is lost leaves the others but for what is sent on them. -/
theorem loseStrand_strand_ne (s : State) {n i : Fin 2048} (hi : i ≠ n) :
    { (loseStrand s n).strand i with txq := [] } = { s.strand i with txq := [] } := by
  have h : Silent ((endRmasOn s n .pathLost).setStrand n (((endRmasOn s n .pathLost).strand n).emptied .lost))
    (loseStrand s n) := Silent.refl.forgetStrand.failStrand
  rw [h.strand, State.setStrand_strand_ne _ _ _ _ hi, endRmasOn_strand]

theorem forgetStrand_twine (s : State) (n : Fin 2048) : (forgetStrand s n).twine = s.twine := by
  rw [forgetStrand]

theorem setStrand_rmas (s : State) (n : Fin 2048) (x : Strand) : (s.setStrand n x).twine.rmas = s.twine.rmas := rfl

theorem closeStrand_rmas (s : State) (n : Fin 2048) (st : Status) :
    (closeStrand s n st).twine.rmas = (endRmasOn s n st).twine.rmas := by
  have h : Silent (endRmasOn s n st) (endGroupsOn (endRmasOn s n st) n st) := Silent.refl.endGroupsOn
  rw [closeStrand, forgetStrand_twine, setStrand_rmas, h.keeps_twine_rmas]

/-- A strand that closes carries nothing. -/
theorem closeStrand_strand_same (s : State) (n : Fin 2048) (st : Status) :
    ((closeStrand s n st).strand n).st = .closed ∧ ((closeStrand s n st).strand n).txq = [] := by
  unfold closeStrand
  dsimp only
  rw [State.strand, forgetStrand_twine, ← State.strand, State.setStrand_strand_same]
  exact ⟨rfl, rfl⟩

/-! ## Openings (14 R376, R377) -/

/-- A HELLO changes no strand. -/
theorem putHello_strand (s : State) (p : Fin 32) (m : HelloMsg) (n : Fin 2048) : (putHello s p m).strand n = s.strand n := by
  unfold putHello sayCtrl
  split
  · rfl
  · dsimp only
    split <;> rfl

theorem helloOpen_strand (s : State) (n i : Fin 2048) : (helloOpen s n).strand i = s.strand i := by
  unfold helloOpen
  dsimp only
  split
  · rfl
  · exact putHello_strand ..

theorem joinedPorts_congr {s t : State} (h : ∀ p, (t.port p).joined = (s.port p).joined ∧ (t.port p).cfg = (s.port p).cfg)
    (g : Fin 8) : joinedPorts t g = joinedPorts s g :=
  List.filter_congr fun p _ => by rw [(h p).1, (h p).2]

/-- The port that a path leads to is one of those joined. -/
theorem choosePort_mem {ps : List (Fin 32)} {n : Fin 2048} {path : Nat} {p : Fin 32} (h : choosePort ps n path = some p) :
    p ∈ ps := List.mem_of_getElem? h

theorem choosePort_some {ps : List (Fin 32)} (h : ps ≠ []) (n : Fin 2048) (path : Nat) : ∃ p, choosePort ps n path = some p :=
  ⟨_, List.getElem?_eq_getElem (Nat.mod_lt _ (List.length_pos_iff.mpr h))⟩

/-- A strand that opens begins its sequence anew (14 R376). -/
theorem openStrand_opens (s : State) (n : Fin 2048) : ∃ p g, (openStrand s n).strand n =
    { (s.strand n).opening with rxGen := g, port := p } := by
  unfold openStrand
  rw [State.setStrand_strand_same]
  dsimp only
  split
  · exact ⟨_, _, rfl⟩
  · exact ⟨(s.strand n).port, _, rfl⟩

/-- A strand that opens with a port joined to its group takes one of them. -/
theorem openStrand_port {s : State} {n : Fin 2048} (h : joinedPorts s (s.strand n).cfg.group ≠ []) :
    (s.port ((openStrand s n).strand n).port).cfg.group = (s.strand n).cfg.group := by
  unfold openStrand
  rw [State.setStrand_strand_same]
  dsimp only
  split
  · next p hp =>
    have hmem := (List.mem_filter.mp (choosePort_mem hp)).2
    simp only [Bool.and_eq_true, beq_iff_eq] at hmem
    exact hmem.2
  · next hp =>
    obtain ⟨p, e⟩ := choosePort_some h n (s.strand n).path
    exact absurd (hp.symm.trans e) (by simp)

theorem putHello_helloCnt {s : State} {p : Fin 32} (h : (portsServe s && groupLive s (s.port p).cfg.group) = true)
    (m : HelloMsg) : (putHello s p m).twine.helloCnt = s.twine.helloCnt + 1 := by
  rw [putHello_says h, saidHellos_helloCnt]
  rfl

/-- STRAND_COMMIT puts the staged words into effect and opens an enabled strand (14 R376). -/
theorem doStrandCommit_takes {s : State} {n : Fin 2048} (hw : (s.strand n).staged ≠ [])
    (hok : strandOk s n (s.strand n).stagedCfg = true) :
    ((doStrandCommit n s).strand n).cfg = (s.strand n).stagedCfg ∧ ((doStrandCommit n s).strand n).staged = [] ∧
      ((doStrandCommit n s).strand n).result = .ok ∧
      ((s.strand n).stagedCfg.enable = true → ((doStrandCommit n s).strand n).st = .opening ∧
        ((doStrandCommit n s).strand n).epoch = (s.strand n).epoch + 1 ∧
        ((doStrandCommit n s).strand n).nextPsn = 1 ∧ ((doStrandCommit n s).strand n).rxC = 0) := by
  unfold doStrandCommit
  dsimp only
  rw [if_neg hw, if_pos hok]
  split
  · rw [helloOpen_strand]
    obtain ⟨p, g, e⟩ := openStrand_opens
      (s.setStrand n { s.strand n with cfg := (s.strand n).stagedCfg, staged := [], result := .ok }) n
    rw [e, State.setStrand_strand_same]
    exact ⟨rfl, rfl, rfl, fun _ => ⟨rfl, rfl, rfl, rfl⟩⟩
  · rw [State.setStrand_strand_same]
    exact ⟨rfl, rfl, rfl, fun h => absurd h ‹_›⟩

/-- A lost strand with a joined port opens and asks its peer (14 R377). -/
theorem doOpeningHelloTimer_lost {s : State} {n : Fin 2048} (hl : (s.strand n).st = .lost)
    (hj : joinedPorts s (s.strand n).cfg.group ≠ []) :
    ((doOpeningHelloTimer n s).strand n).st = .opening ∧ ((doOpeningHelloTimer n s).strand n).epoch = (s.strand n).epoch + 1 ∧
      (portsServe s = true → groupLive s (s.strand n).cfg.group = true →
        (doOpeningHelloTimer n s).twine.helloCnt = s.twine.helloCnt + 1) := by
  have hempty : (joinedPorts s (s.strand n).cfg.group).isEmpty = false := by simpa using hj
  have e : doOpeningHelloTimer n s = helloOpen (openStrand s n) n := by
    unfold doOpeningHelloTimer
    dsimp only
    rw [hl]
    exact if_neg (by simp [hempty])
  obtain ⟨p, g, ho⟩ := openStrand_opens s n
  have hport := openStrand_port hj
  rw [e, helloOpen_strand, ho]
  refine ⟨rfl, rfl, fun hs hg => ?_⟩
  unfold helloOpen
  dsimp only
  rw [if_neg, putHello_helloCnt]
  · rfl
  · refine Bool.and_eq_true_iff.mpr ⟨hs, ?_⟩
    exact (congrArg (groupLive s) hport).trans hg
  · rw [ho]
    exact ne_true_of_eq_false hempty

/-- An opening strand asks its peer under the count of the port's HELLOs (14 R378). -/
theorem doOpeningHelloTimer_asks {s : State} {n : Fin 2048} (ho : (s.strand n).st = .opening)
    (hj : joinedPorts s (s.strand n).cfg.group ≠ []) (hs : portsServe s = true)
    (hg : groupLive s (s.port (s.strand n).port).cfg.group = true) :
    ∃ m, hellosSent s (doOpeningHelloTimer n s) (s.strand n).port [m] ∧ m.opens = true ∧ m.reply = false ∧ m.src = n ∧
      m.epoch = (s.strand n).epoch ∧ m.dest = (s.strand n).cfg.ip ∧ m.dport = BitVec.ofNat 16 (s.strand n).cfg.udp := by
  have e : doOpeningHelloTimer n s = helloOpen s n := by
    unfold doOpeningHelloTimer
    dsimp only
    rw [ho]
  rw [e]
  unfold helloOpen
  dsimp only
  rw [if_neg (by simpa using hj), putHello_says (Bool.and_eq_true_iff.mpr ⟨hs, hg⟩)]
  refine ⟨_, hellosSent_saidHellos ?_ ?_, rfl, rfl, rfl, rfl, rfl, rfl⟩
  · rfl
  · simp [helloMsg]

/-- The HELLO of a second goes to all (14 R378). -/
theorem sendHello_hellos {s : State} {p : Fin 32} (h : (portsServe s && groupLive s (s.port p).cfg.group) = true)
    (pending : Bool) : ∃ ms, hellosSent s (sendHello s p pending) p ms ∧ ms.map (·.dest) = toAll s p ∧
      ∀ m ∈ ms, m.opens = false ∧ m.pending = pending ∧ m.dport = BitVec.ofNat 16 s.twine.udp := by
  rw [sendHello_eq, putHellos_says h]
  refine ⟨_, hellosSent_nthHello .., (dest_nthHello ..).trans (allTargets_fst ..), fun m hm => ?_⟩
  obtain ⟨i, hi, rfl⟩ := List.mem_mapIdx.mp hm
  refine ⟨rfl, rfl, ?_⟩
  simp [nthHello, helloMsg, allTargets]

/-! ## A HELLO that is taken (14 R377, R394) -/

/-- One turn decides, the turns before it and after it keep what it decides. -/
theorem foldl_mem_decides {σ α : Type} {f : σ → α → σ} {I P : σ → Prop} {l : List α} {i : α} (hi : i ∈ l)
    (inv : ∀ t j, j ∈ l → I t → I (f t j)) (own : ∀ t, I t → P (f t i))
    (keep : ∀ t j, j ≠ i → I t → P t → P (f t j)) {s : σ} (h : I s) : P (l.foldl f s) := by
  have run (l' : List α) (t : σ) (hl : ∀ j ∈ l', j ∈ l) (ht : I t) (hP : P t ∨ i ∈ l') : P (l'.foldl f t) := by
    induction l' generalizing t with
    | nil => simpa using hP
    | cons j l' ih =>
      refine ih _ (fun k hk => hl k (List.mem_cons_of_mem _ hk)) (inv t j (hl j List.mem_cons_self) ht) ?_
      by_cases e : j = i
      · exact .inl (e ▸ own t ht)
      · exact hP.imp (keep t j e ht) fun hm => (List.mem_cons.mp hm).resolve_left (Ne.symm e)
  exact run l s (fun _ h => h) h (.inr hi)

/-- What a HELLO to others leaves of a strand, and what one to itself from the peer it has leaves too. -/
def Strand.steady (x : Strand) : Strand := { x with txq := [], hold := false, helloAt := none }

theorem Strand.steady_of_txq {x y : Strand} (h : { x with txq := [] } = { y with txq := [] }) : x.steady = y.steady :=
  (congrArg Strand.steady h :)

theorem Strand.steady_keeps {x y : Strand} (h : x.steady = y.steady) : x.cfg = y.cfg ∧ x.st = y.st ∧ x.epoch = y.epoch :=
  ⟨(congrArg Strand.cfg h :), (congrArg Strand.st h :), (congrArg Strand.epoch h :)⟩

/-- What a HELLO tells one strand leaves the others, but for what is sent on them. -/
theorem helloTo_strand_ne (s : State) (m : HelloMsg) {k n : Fin 2048} (h : n ≠ k) :
    { (helloTo s m k).strand n with txq := [] } = { s.strand n with txq := [] } := by
  unfold helloTo
  dsimp only
  split
  · rw [State.setStrand_strand_ne _ _ _ _ h]
    exact loseStrand_strand_ne s h
  · rw [State.setStrand_strand_ne _ _ _ _ h]

/-- A HELLO with the nonce that a strand knows tells it whether a reset is pending. -/
theorem helloTo_strand_same {s : State} {m : HelloMsg} {n : Fin 2048} (h : (s.strand n).peerNonce = some m.nonce) :
    (helloTo s m n).strand n = { s.strand n with hold := m.pending, helloAt := some s.now } := by
  unfold helloTo
  dsimp only
  rw [if_neg (not_not.mpr h), State.setStrand_strand_same]

theorem loseStrand_eth (s : State) (n : Fin 2048) : (loseStrand s n).eth = s.eth := by
  have h : Silent ((endRmasOn s n .pathLost).setStrand n (((endRmasOn s n .pathLost).strand n).emptied .lost))
    (loseStrand s n) := Silent.refl.forgetStrand.failStrand
  exact h.keeps_eth.trans (Strandless.refl.endRmasOn.keeps_eth)

theorem helloTo_eth (s : State) (m : HelloMsg) (n : Fin 2048) : (helloTo s m n).eth = s.eth := by
  unfold helloTo
  dsimp only
  split
  · rw [State.setStrand_eth, loseStrand_eth]
  · rw [State.setStrand_eth]

/-- The state in which the strands that lead to the sender have been told. -/
def told (s : State) (p : Fin 32) (m : HelloMsg) : State :=
  let s := hear (s.setPort p { s.port p with twine := true }) m
  ((List.finRange 2048).filter fun n => (s.strand n).leadsTo m).foldl (fun s n => helloTo s m n) s

theorem doHello_taken {s : State} {p : Fin 32} {m : HelloMsg} (hh : helloHere s p m = true) (hf : freshHello s m = true)
    (hroom : noRoom s p ((if isV6 m.dest = true then 114 else 94) + 48) = false) :
    doHello p m s = helloPeers (helloOpens (told s p m) p m) m := by
  unfold doHello
  rw [if_neg (by simp [hh, hf]), if_neg (by simp [hroom])]
  rfl

theorem told_eth (s : State) (p : Fin 32) (m : HelloMsg) :
    (told s p m).eth = (s.setPort p { s.port p with twine := true }).eth := by
  unfold told
  exact List.foldlRecOn _ _ (motive := fun (t : State) => t.eth = (s.setPort p { s.port p with twine := true }).eth) rfl
    fun t ht k _ => (helloTo_eth t m k).trans ht

section
variable {s : State} {p : Fin 32} {m : HelloMsg} {n : Fin 2048}
  (hn : (s.strand n).peerNonce = none ∨ (s.strand n).peerNonce = some m.nonce)
include hn

/-- A turn of the strands that are told keeps what is steady of a strand whose peer sends the HELLO. -/
theorem helloTo_steady {t : State} (ht : (t.strand n).steady = (s.strand n).steady) {k : Fin 2048}
    (hk : (s.strand k).leadsTo m = true) : ((helloTo t m k).strand n).steady = (s.strand n).steady := by
  by_cases e : n = k
  · subst e
    have hsome : (s.strand n).peerNonce = some m.nonce := by
      refine hn.resolve_left fun h => ?_
      simp [Strand.leadsTo, h] at hk
    have hnonce : (t.strand n).peerNonce = (s.strand n).peerNonce := (congrArg Strand.peerNonce ht :)
    rw [helloTo_strand_same (hnonce.trans hsome)]
    exact ht
  · exact (Strand.steady_of_txq (helloTo_strand_ne t m e)).trans ht

theorem told_steady : ((told s p m).strand n).steady = (s.strand n).steady := by
  unfold told
  refine List.foldlRecOn _ _ (motive := fun (t : State) => (t.strand n).steady = (s.strand n).steady) rfl fun t ht k hk => ?_
  exact helloTo_steady hn ht (List.mem_filter.mp hk).2

/-- A strand that leads to the sender learns whether a reset is pending. -/
theorem told_hold (hl : (s.strand n).leadsTo m = true) : ((told s p m).strand n).hold = m.pending := by
  have hsome : (s.strand n).peerNonce = some m.nonce := by
    refine hn.resolve_left fun h => ?_
    simp [Strand.leadsTo, h] at hl
  unfold told
  refine foldl_mem_decides (l := (List.finRange 2048).filter fun k => (s.strand k).leadsTo m) (i := n)
    (f := fun t k => helloTo t m k) (I := fun t : State => (t.strand n).steady = (s.strand n).steady)
    (P := fun t : State => (t.strand n).hold = m.pending) (List.mem_filter.mpr ⟨List.mem_finRange n, hl⟩)
    (fun t k hk ht => helloTo_steady hn ht (List.mem_filter.mp hk).2) (fun t ht => ?_) (fun t k hk ht hP => ?_) rfl
  · have hnonce : (t.strand n).peerNonce = (s.strand n).peerNonce := (congrArg Strand.peerNonce ht :)
    rw [helloTo_strand_same (hnonce.trans hsome)]
  · exact (congrArg Strand.hold (helloTo_strand_ne t m (Ne.symm hk)) :).trans hP

end

theorem helloPeers_strand (s : State) (m : HelloMsg) (n : Fin 2048) : (helloPeers s m).strand n = s.strand n := by
  rw [helloPeers]
  rfl

theorem helloPeers_port (s : State) (m : HelloMsg) (p : Fin 32) : (helloPeers s m).port p = s.port p := by
  rw [helloPeers]
  rfl

/-- The answer to an opening opens the strand, or leaves it STALLED without a joined port (14 R377). -/
theorem helloOpens_answered {s : State} {p : Fin 32} {m : HelloMsg} {n : Fin 2048} (hd : m.dst = n) (hn0 : n.val ≠ 0)
    (he : (s.strand n).cfg.enable = true) (hpeer : (s.strand n).peerIs m = true) (ho : m.opens = true) (hr : m.reply = true)
    (hst : (s.strand n).st = .opening) (hep : m.epoch = (s.strand n).epoch) :
    (helloOpens s p m).strand n = (s.strand n).answered m (joinedPorts s (s.strand n).cfg.group) s.now := by
  subst hd
  unfold helloOpens
  dsimp only
  rw [if_neg (by simp [ho, hn0, he, hpeer]), if_pos hr, if_pos ⟨hst, hep⟩, State.setStrand_strand_same]

/-! ## The statement -/

/-- Settles O39: each command takes the branch of the strand's state; a HELLO is followed through the strands it is told to. -/
theorem strandLife : Obligations.StrandLife := by
  unfold Obligations.StrandLife
  intro n p m s x
  refine ⟨fun hw => ⟨fun hok => ⟨_, rfl, doStrandCommit_takes hw hok⟩, fun hbad => ?refused⟩, fun hc => ⟨_, rfl, ?close⟩,
    fun hst hh => ⟨_, rfl, ?lost⟩, fun hh => ⟨_, rfl, ?held⟩, fun hl hj => ⟨_, rfl, doOpeningHelloTimer_lost hl hj⟩,
    fun ho hj hs hg => ?asks, fun hj hs hg => ?timer, fun hh hf => ⟨fun hroom => ?noRoom,
    fun hroom hss he hn0 hd hps hip hnonce => ⟨fun ho hr hst hep => ⟨_, rfl, ?answered⟩, fun ho hl => ⟨_, rfl, ?told⟩⟩⟩,
    fun h => ?dropped⟩
  case refused => exact congrArg Host.Outcome.next ((if_neg hw).trans (if_neg (ne_true_of_eq_false hbad)))
  case close =>
    rw [doStrandClose, if_neg hc]
    obtain ⟨h1, h2⟩ := closeStrand_strand_same s n .interrupted
    refine ⟨h1, h2, fun r hr => endRmasOn_rmas s n .interrupted r ?_⟩
    rwa [closeStrand_rmas] at hr
  case lost =>
    rw [doPathLostExpiry, if_pos ⟨hst, by simp [show (s.strand n).hold = false from hh]⟩]
    refine ⟨?_, ?_, loseStrand_rmas s n⟩
    · rw [loseStrand_strand_same]
      rfl
    · rw [loseStrand_strand_same]
      rfl
  case held =>
    unfold doWarmHoldExpiry
    dsimp only
    rw [if_neg (by simp [show (s.strand n).hold = true from hh])]
    split
    · next hst =>
      rw [loseStrand_strand_same]
      exact ⟨rfl, rfl⟩
    · next hst =>
      rw [State.setStrand_strand_same]
      exact ⟨rfl, rfl⟩
  case asks =>
    obtain ⟨h, hsent⟩ := doOpeningHelloTimer_asks ho hj hs hg
    exact ⟨_, h, rfl, hsent⟩
  case timer =>
    obtain ⟨ms, hsent⟩ := sendHello_hellos (Bool.and_eq_true_iff.mpr ⟨hs, hg⟩) false
    exact ⟨_, ms, congrArg Host.Outcome.next (if_pos hj), hsent⟩
  case noRoom => exact congrArg Host.Outcome.next ((if_neg (by simp [hh, hf])).trans (if_pos hroom))
  case answered =>
    have hsteady := told_steady (p := p) hnonce
    obtain ⟨hcfg, hst', hep'⟩ := Strand.steady_keeps hsteady
    have hjoined : joinedPorts (told s p m) ((told s p m).strand n).cfg.group = joinedPorts s x.cfg.group := by
      rw [hcfg]
      refine joinedPorts_congr (fun q => ?_) _
      have hport : (told s p m).port q = (s.setPort p { s.port p with twine := true }).port q :=
        congrArg (·.ports.get q) (told_eth s p m)
      rw [hport]
      by_cases e : q = p
      · subst e
        simp
      · simp [State.setPort_port_ne _ _ _ _ e]
    have hpeer : ((told s p m).strand n).peerIs m = true := by
      simp [Strand.peerIs, hcfg, show (s.strand n).cfg.peerStrand = _ from hps, show (s.strand n).cfg.ip = _ from hip]
    rw [doHello_taken hh hf hroom, helloPeers_strand, helloOpens_answered hd hn0 (by rw [hcfg]; exact he)
      hpeer ho hr (hst'.trans hst) (hep.trans hep'.symm), hjoined]
    exact ⟨rfl, rfl, rfl⟩
  case told =>
    have hopens : helloOpens (told s p m) p m = told s p m := by
      unfold helloOpens
      exact if_pos (.inl (by simp [ho]))
    rw [doHello_taken hh hf hroom, hopens, helloPeers_strand, helloPeers_port]
    refine ⟨told_hold hnonce hl, ?_⟩
    have hport : (told s p m).port p = (s.setPort p { s.port p with twine := true }).port p :=
      congrArg (·.ports.get p) (told_eth s p m)
    rw [hport, State.setPort_port_same]
  case dropped =>
    refine congrArg Host.Outcome.next (if_pos ?_)
    simpa using h

end Sys2Proof.Machine
end

section
/-!
PROOFS. The orders on a queue, its drain and its acceptance.
-/

namespace Sys2Proof.Machine

/-! ## What ends of work leave of the queues, the kernels and what waits -/

/-- What the ends of work leave: the sweeps, the RMAs, the group operations, where each queue's ring stands and whether it
drains, and the moves that wait for a flyer. -/
def drainingView (s : State) :=
  (s.sweeps, s.twine.rmas, s.ply.ops, fun q => ((s.q q).head, decide ((s.q q).st = .draining)), fun j => (s.sk j).fq)

/-- From `s` to `t` the parts of `drainingView` have not changed. -/
def Draining (s t : State) : Prop := drainingView t = drainingView s

namespace Draining

section
variable {s t u : State}

theorem refl : Draining s s := rfl
theorem trans (h : Draining s t) (h' : Draining t u) : Draining s u := Eq.trans h' h
theorem setSp {p : Fin 136} {x : Spindle} (h : Draining s t) : Draining s (t.setSp p x) := h
theorem setTrans {x : Trans} (h : Draining s t) : Draining s (t.setTrans x) := h
theorem setStrand {n : Fin 2048} {x : Strand} (h : Draining s t) (e : drainingView (t.setStrand n x) = drainingView t) :
    Draining s (t.setStrand n x) := e.trans h
theorem setMgmt {x : Mgmt} (h : Draining s t) : Draining s (t.setMgmt x) := h
theorem setSec {x : Sec} (h : Draining s t) : Draining s (t.setSec x) := h
theorem kernels {x : List Kernel} (h : Draining s t) : Draining s { t with kernels := x } := h

theorem ite {c : Prop} [Decidable c] (ha : c → Draining s t) (hb : ¬ c → Draining s u) :
    Draining s (if c then t else u) := by
  split
  · exact ha ‹_›
  · exact hb ‹_›

theorem foldl {β : Type} {g : State → β → State} {l : List β} (h : Draining s t)
    (hg : ∀ {u : State} {b : β}, Draining s u → Draining s (g u b)) : Draining s (l.foldl g t) := by
  induction l generalizing t with
  | nil => exact h
  | cons b l ih => exact ih (hg h)

end

end Draining

/-- A queue may change in all but where its ring stands and whether it drains. -/
theorem Draining.setQueue {s t : State} {q : Fin 4096} {x : Queue} (h : Draining s t) (hh : x.head = (t.q q).head)
    (hd : x.st = .draining ↔ (t.q q).st = .draining) : Draining s (t.setQ q x) := by
  refine Draining.trans h (Prod.ext rfl (Prod.ext rfl (Prod.ext rfl (Prod.ext (funext fun p => ?_) rfl))))
  by_cases e : p = q
  · subst e
    simp only [drainingView, State.setQ_q_same, hh, hd]
  · simp only [drainingView, State.setQ_q_ne _ _ _ _ e]

/-- A skein may change in all but the moves that wait for its flyers. -/
theorem Draining.setSkein {s t : State} {k : Fin 8} {x : Skein} (h : Draining s t) (hf : x.fq = (t.sk k).fq) :
    Draining s (t.setSk k x) := by
  refine Draining.trans h (Prod.ext rfl (Prod.ext rfl (Prod.ext rfl (Prod.ext rfl (funext fun j => ?_)))))
  by_cases e : j = k
  · subst e
    simp only [drainingView, State.setSk_sk_same, hf]
  · simp only [drainingView, State.setSk_sk_ne _ _ _ _ e]

section
variable {s t : State}

theorem Draining.traceKernel {q : Fin 4096} {seq : Nat} (h : Draining s t) : Draining s (traceKernel t q seq) := by
  unfold Machine.traceKernel
  split
  · exact .ite (fun _ => h.setSec) fun _ => h
  · exact h

theorem Draining.setDesc {q : Fin 4096} {seq : Nat} {f : Desc → Desc}
    (h : Draining s t) : Draining s (setDesc t q seq f) := by
  unfold Machine.setDesc
  exact h.setQueue rfl Iff.rfl

theorem Draining.finish {q : Fin 4096} {seq : Nat} {st : Status} {flags : Flags} {code : Nat} {detail : Nat}
    {value : Nat} (h : Draining s t) : Draining s (finish t q seq st flags code detail value) := by
  unfold Machine.finish
  exact h.setDesc

theorem Draining.settleKernel {q : Fin 4096} {seq : Nat} (h : Draining s t) : Draining s (settleKernel t q
    seq) := by
  unfold Machine.settleKernel
  split
  · exact h
  · split
    · exact h
    · dsimp only
      split <;> exact h.kernels.traceKernel.finish

theorem Draining.setKernel {q : Fin 4096} {seq : Nat} {f : Kernel → Kernel}
    (h : Draining s t) : Draining s (setKernel t q seq f) := by
  unfold Machine.setKernel
  exact h.kernels

theorem Draining.reportShare {sh : Share} {st : Status} {cause : Word} {fl : Flags}
    (h : Draining s t) : Draining s (reportShare t sh st cause fl) := by
  unfold Machine.reportShare
  exact h.setKernel.settleKernel

theorem Draining.drainImages {q : Fin 4096} (h : Draining s t) : Draining s (drainImages t q) := by
  unfold Machine.drainImages
  exact h.foldl fun h' => h'.setTrans.reportShare

theorem Draining.settleQueue {q : Fin 4096} (h : Draining s t) : Draining s (settleQueue t q) := by
  unfold Machine.settleQueue
  dsimp only
  split
  · next hw =>
    refine h.setQueue rfl (iff_of_false ?_ ?_)
    · cases (t.q q).held <;> simp
    · simp [hw.1]
  · exact h

theorem Draining.closeRecord {slot : Nat} (h : Draining s t) : Draining s (closeRecord t slot) := by
  unfold Machine.closeRecord
  exact h.setMgmt

theorem Draining.dropFault {id : Nat} (h : Draining s t) : Draining s (dropFault t id) := by
  unfold Machine.dropFault
  split
  · exact h
  · exact (Draining.ite (fun _ => h.setTrans) fun _ => h.setTrans.closeRecord).settleQueue

theorem Draining.drainFaults {q : Fin 4096} (h : Draining s t) : Draining s (drainFaults t q) := by
  unfold Machine.drainFaults
  exact h.foldl Draining.dropFault

theorem Draining.post {n : Fin 2048} {m : Msg} (h : Draining s t) : Draining s (post t n m) := by
  unfold Machine.post
  dsimp only
  split
  · exact h
  · exact h
  · exact h.setStrand (by rfl)

theorem Draining.notify {to_ : Party} {kind : Nat} {queue : Nat} {result : Nat} {body : List Byte}
    (h : Draining s t) : Draining s (notify t to_ kind queue result body) := by
  unfold Machine.notify
  split
  · exact h.post
  · exact h

theorem Draining.notifyUpdate {u : TUpdate} {st : Status} (h : Draining s t) : Draining s (notifyUpdate t u
    st) := by
  unfold Machine.notifyUpdate
  exact h.notify

theorem Draining.drainUpdates {q : Fin 4096} (h : Draining s t) : Draining s (drainUpdates t q) := by
  unfold Machine.drainUpdates
  exact h.foldl fun h' => h'.finish.notifyUpdate

theorem Draining.ends {q : Fin 4096} {seq : Nat} {st : Status}
    (h : Draining s t) : Draining s (ends t q seq st) := by
  unfold Machine.ends
  exact h.finish

theorem Draining.bindEnds {k : Fin 8} {w : BindWait} {st : Status}
    (h : Draining s t) : Draining s (bindEnds t k w st) := by
  unfold Machine.bindEnds
  refine Draining.ends ?_
  exact h.setSkein rfl

theorem Draining.setBinding {k : Fin 8} {b : Binding} {x : Option Binding}
    (h : Draining s t) : Draining s (setBinding t k b x) := by
  unfold Machine.setBinding
  exact h.setSkein rfl

theorem Draining.evict {k : Fin 8} {b : Binding} {blocks : List (Fin 4096 × Nat)}
    {evictor : Option (Fin 4096 × Nat)}
    (h : Draining s t) : Draining s (evict t k b blocks evictor) := by
  unfold Machine.evict
  dsimp only
  refine Draining.setSkein ?_ rfl
  refine Draining.setQueue ?_ rfl Iff.rfl
  exact h.setBinding

theorem Draining.bindAllocate {k : Fin 8} {w : BindWait} {c : CreelBody}
    (h : Draining s t) : Draining s (bindAllocate t k w c) := by
  unfold Machine.bindAllocate
  dsimp only
  refine .ite (fun _ => Draining.evict (Draining.bindEnds ?_)) fun _ => Draining.bindEnds ?_
  · exact h.setSkein rfl
  · exact h.setSkein rfl

theorem Draining.bindStep {n : Nat} {k : Fin 8} {w : BindWait} {b : CreelBody}
    (h : Draining s t) : Draining s (bindStep n t k w b) := by
  induction n generalizing t with
  | zero => exact h
  | succ n ih =>
    unfold Machine.bindStep
    refine .ite (fun _ => h.bindEnds) fun _ => .ite (fun _ => h.bindEnds) fun _ => .ite (fun _ => h) fun _ =>
      .ite (fun _ => ?_) fun _ => .ite (fun _ => .ite (fun _ => h) fun _ => h.bindAllocate) fun _ =>
        .ite (fun _ => h) fun _ => ?_
    · split
      · exact ih h.evict
      · exact h.bindEnds
    · split
      · exact h.evict
      · exact h.bindEnds

theorem Draining.bindRetry {k : Fin 8} (h : Draining s t) : Draining s (bindRetry t k) := by
  unfold Machine.bindRetry
  refine h.foldl fun h' => ?_
  split
  · exact h'.bindStep
  · exact h'

theorem Draining.bindRetryAll (h : Draining s t) : Draining s (bindRetryAll t) := by
  unfold Machine.bindRetryAll
  exact h.foldl Draining.bindRetry

theorem Draining.interruptDescs {q : Fin 4096} {f : Desc → Bool}
    (h : Draining s t) : Draining s (interruptDescs t q f) := by
  unfold Machine.interruptDescs
  exact h.foldl Draining.finish

theorem Draining.reportMove {m : Move} {st : Status} {fl : Flags}
    (h : Draining s t) : Draining s (reportMove t m st fl) := by
  unfold Machine.reportMove
  split
  · exact h.setSp
  · exact h.finish

theorem Draining.keeps_sweeps (h : Draining s t) : t.sweeps = s.sweeps := congrArg (·.1) h
theorem Draining.keeps_twine_rmas (h : Draining s t) : t.twine.rmas = s.twine.rmas := congrArg (·.2.1) h
theorem Draining.keeps_ply_ops (h : Draining s t) : t.ply.ops = s.ply.ops := congrArg (·.2.2.1) h

end
/-- The kernels that run. -/
def kernelsView (s : State) := s.kernels

/-- From `s` to `t` the kernels have not changed. -/
def KernelsKept (s t : State) : Prop := kernelsView t = kernelsView s

namespace KernelsKept

section
variable {s t u : State}

theorem refl : KernelsKept s s := rfl
theorem trans (h : KernelsKept s t) (h' : KernelsKept t u) : KernelsKept s u := Eq.trans h' h
theorem setSp {p : Fin 136} {x : Spindle} (h : KernelsKept s t) : KernelsKept s (t.setSp p x) := h
theorem setSk {k : Fin 8} {x : Skein} (h : KernelsKept s t) : KernelsKept s (t.setSk k x) := h
theorem setQ {q : Fin 4096} {x : Queue} (h : KernelsKept s t) : KernelsKept s (t.setQ q x) := h
theorem setTrans {x : Trans} (h : KernelsKept s t) : KernelsKept s (t.setTrans x) := h
theorem setStrand {n : Fin 2048} {x : Strand} (h : KernelsKept s t) : KernelsKept s (t.setStrand n x) := h
theorem setMgmt {x : Mgmt} (h : KernelsKept s t) : KernelsKept s (t.setMgmt x) := h
theorem skeins {x : Vector Skein 8} (h : KernelsKept s t) : KernelsKept s { t with skeins := x } := h

theorem ite {c : Prop} [Decidable c] (ha : c → KernelsKept s t) (hb : ¬ c → KernelsKept s u) :
    KernelsKept s (if c then t else u) := by
  split
  · exact ha ‹_›
  · exact hb ‹_›

theorem foldl {β : Type} {g : State → β → State} {l : List β} (h : KernelsKept s t)
    (hg : ∀ {u : State} {b : β}, KernelsKept s u → KernelsKept s (g u b)) : KernelsKept s (l.foldl g t) := by
  induction l generalizing t with
  | nil => exact h
  | cons b l ih => exact ih (hg h)

end

end KernelsKept

section
variable {s t : State}

theorem KernelsKept.settleQueue {q : Fin 4096} (h : KernelsKept s t) : KernelsKept s (settleQueue t q) := by
  unfold Machine.settleQueue
  exact .ite (fun _ => h.setQ) fun _ => h

theorem KernelsKept.closeRecord {slot : Nat} (h : KernelsKept s t) : KernelsKept s (closeRecord t slot) := by
  unfold Machine.closeRecord
  exact h.setMgmt

theorem KernelsKept.dropFault {id : Nat} (h : KernelsKept s t) : KernelsKept s (dropFault t id) := by
  unfold Machine.dropFault
  split
  · exact h
  · exact (KernelsKept.ite (fun _ => h.setTrans) fun _ => h.setTrans.closeRecord).settleQueue

theorem KernelsKept.drainFaults {q : Fin 4096} (h : KernelsKept s t) : KernelsKept s (drainFaults t q) := by
  unfold Machine.drainFaults
  exact h.foldl KernelsKept.dropFault

theorem KernelsKept.setDesc {q : Fin 4096} {seq : Nat} {f : Desc → Desc}
    (h : KernelsKept s t) : KernelsKept s (setDesc t q seq f) := by
  unfold Machine.setDesc
  exact h.setQ

theorem KernelsKept.finish {q : Fin 4096} {seq : Nat} {st : Status} {flags : Flags} {code : Nat} {detail : Nat}
    {value : Nat} (h : KernelsKept s t) : KernelsKept s (finish t q seq st flags code detail value) := by
  unfold Machine.finish
  exact h.setDesc

theorem KernelsKept.reportMove {m : Move} {st : Status} {fl : Flags}
    (h : KernelsKept s t) : KernelsKept s (reportMove t m st fl) := by
  unfold Machine.reportMove
  split
  · exact h.setSp
  · exact h.finish

theorem KernelsKept.drainMoves {q : Fin 4096} (h : KernelsKept s t) : KernelsKept s (drainMoves t q) := by
  unfold Machine.drainMoves
  exact h.skeins.setMgmt.foldl KernelsKept.reportMove

theorem KernelsKept.post {n : Fin 2048} {m : Msg} (h : KernelsKept s t) : KernelsKept s (post t n m) := by
  unfold Machine.post
  dsimp only
  split
  · exact h
  · exact h
  · exact h.setStrand

theorem KernelsKept.notify {to_ : Party} {kind : Nat} {queue : Nat} {result : Nat} {body : List Byte}
    (h : KernelsKept s t) : KernelsKept s (notify t to_ kind queue result body) := by
  unfold Machine.notify
  split
  · exact h.post
  · exact h

theorem KernelsKept.notifyUpdate {u : TUpdate} {st : Status}
    (h : KernelsKept s t) : KernelsKept s (notifyUpdate t u st) := by
  unfold Machine.notifyUpdate
  exact h.notify

theorem KernelsKept.drainUpdates {q : Fin 4096} (h : KernelsKept s t) : KernelsKept s (drainUpdates t q) := by
  unfold Machine.drainUpdates
  exact h.foldl fun h' => h'.finish.notifyUpdate

theorem KernelsKept.ends {q : Fin 4096} {seq : Nat} {st : Status}
    (h : KernelsKept s t) : KernelsKept s (ends t q seq st) := by
  unfold Machine.ends
  exact h.finish

theorem KernelsKept.bindEnds {k : Fin 8} {w : BindWait} {st : Status}
    (h : KernelsKept s t) : KernelsKept s (bindEnds t k w st) := by
  unfold Machine.bindEnds
  exact h.setSk.ends

theorem KernelsKept.setBinding {k : Fin 8} {b : Binding} {x : Option Binding}
    (h : KernelsKept s t) : KernelsKept s (setBinding t k b x) := by
  unfold Machine.setBinding
  exact h.setSk

theorem KernelsKept.evict {k : Fin 8} {b : Binding} {blocks : List (Fin 4096 × Nat)}
    {evictor : Option (Fin 4096 × Nat)} (h : KernelsKept s t) : KernelsKept s (evict t k b blocks evictor) := by
  unfold Machine.evict
  exact h.setBinding.setQ.setSk

theorem KernelsKept.bindAllocate {k : Fin 8} {w : BindWait} {c : CreelBody}
    (h : KernelsKept s t) : KernelsKept s (bindAllocate t k w c) := by
  unfold Machine.bindAllocate
  exact .ite (fun _ => h.setSk.bindEnds.evict) fun _ => h.setSk.bindEnds

theorem KernelsKept.bindStep {n : Nat} {k : Fin 8} {w : BindWait} {b : CreelBody}
    (h : KernelsKept s t) : KernelsKept s (bindStep n t k w b) := by
  induction n generalizing t with
  | zero => exact h
  | succ n ih =>
    unfold Machine.bindStep
    refine .ite (fun _ => h.bindEnds) fun _ => .ite (fun _ => h.bindEnds) fun _ => .ite (fun _ => h) fun _ =>
      .ite (fun _ => ?_) fun _ => .ite (fun _ => .ite (fun _ => h) fun _ => h.bindAllocate) fun _ =>
        .ite (fun _ => h) fun _ => ?_
    · split
      · exact ih h.evict
      · exact h.bindEnds
    · split
      · exact h.evict
      · exact h.bindEnds

theorem KernelsKept.bindRetry {k : Fin 8} (h : KernelsKept s t) : KernelsKept s (bindRetry t k) := by
  unfold Machine.bindRetry
  refine h.foldl fun h' => ?_
  split
  · exact h'.bindStep
  · exact h'

theorem KernelsKept.bindRetryAll (h : KernelsKept s t) : KernelsKept s (bindRetryAll t) := by
  unfold Machine.bindRetryAll
  exact h.foldl KernelsKept.bindRetry

theorem KernelsKept.interruptDescs {q : Fin 4096} {f : Desc → Bool}
    (h : KernelsKept s t) : KernelsKept s (interruptDescs t q f) := by
  unfold Machine.interruptDescs
  exact h.foldl KernelsKept.finish

theorem KernelsKept.keeps_kernels (h : KernelsKept s t) : t.kernels = s.kernels := h

end
/-- The queues. -/
def queuesView (s : State) := s.queues

/-- From `s` to `t` the queues have not changed. -/
def QueuesKept (s t : State) : Prop := queuesView t = queuesView s

namespace QueuesKept

section
variable {s t u : State}

theorem refl : QueuesKept s s := rfl
theorem trans (h : QueuesKept s t) (h' : QueuesKept t u) : QueuesKept s u := Eq.trans h' h
theorem setStrand {n : Fin 2048} {x : Strand} (h : QueuesKept s t) : QueuesKept s (t.setStrand n x) := h

end

end QueuesKept

section
variable {s t : State}

theorem QueuesKept.post {n : Fin 2048} {m : Msg} (h : QueuesKept s t) : QueuesKept s (post t n m) := by
  unfold Machine.post
  dsimp only
  split
  · exact h
  · exact h
  · exact h.setStrand

theorem QueuesKept.sayAccepts {n : Nat} {m : Fin 2048} {rs : List AccRec}
    (h : QueuesKept s t) : QueuesKept s (sayAccepts n t m rs) := by
  induction n generalizing t rs with
  | zero => exact h
  | succ n ih =>
    cases rs with
    | nil => exact h
    | cons r rs => exact ih h.post

theorem QueuesKept.sayRings {a : Nat} {rings : List (Nat × Option (Fin 2048))} {rs : List AccRec}
    (h : QueuesKept s t) :
    QueuesKept s (sayRings t a rings rs) := by
  induction rings generalizing t a with
  | nil => exact h
  | cons r rings ih =>
    obtain ⟨tail, n⟩ := r
    cases n with
    | none => exact ih h
    | some n => exact ih h.sayAccepts

theorem QueuesKept.keeps_queues (h : QueuesKept s t) : t.queues = s.queues := h

end

/-! ## Kernels with nothing that waits to be launched -/

/-- The kernels of a queue with no share that waits to be launched. -/
def NoneWaits (q : Fin 4096) (s : State) : Prop := ∀ k ∈ s.kernels, k.queue = q → k.waiting = []

theorem NoneWaits.of_kept {q : Fin 4096} {s t : State} (h : NoneWaits q s) (e : KernelsKept s t) : NoneWaits q t := by
  unfold NoneWaits
  rw [show t.kernels = s.kernels from e]
  exact h

theorem NoneWaits.traceKernel {q p : Fin 4096} {n : Nat} {s : State} (h : NoneWaits q s) :
    NoneWaits q (traceKernel s p n) := by
  unfold Machine.traceKernel
  split
  · split
    · exact h
    · exact h
  · exact h

theorem NoneWaits.settleKernel {q p : Fin 4096} {n : Nat} {s : State} (h : NoneWaits q s) :
    NoneWaits q (settleKernel s p n) := by
  have hless : NoneWaits q { s with kernels := s.kernels.filter fun j => !(j.queue == p && j.seq == n) } :=
    fun k hk => h k (List.mem_filter.mp hk).1
  unfold Machine.settleKernel
  split
  · exact h
  · split
    · exact h
    · dsimp only
      split
      · exact hless.traceKernel
      · exact hless.traceKernel

theorem NoneWaits.reportShare {q : Fin 4096} {s : State} {sh : Share} {st : Status} {c : Word} {fl : Flags}
    (h : NoneWaits q s) : NoneWaits q (reportShare s sh st c fl) := by
  unfold Machine.reportShare
  refine NoneWaits.settleKernel fun k hk hq => ?_
  obtain ⟨j, hj, rfl⟩ := List.mem_map.mp hk
  split at hq
  · rw [if_pos ‹_›]
    exact h j hj hq
  · rw [if_neg ‹_›]
    exact h j hj hq

theorem NoneWaits.foldl {q : Fin 4096} {β : Type} {g : State → β → State} {l : List β} {s : State} (h : NoneWaits q s)
    (hg : ∀ {u : State} {b : β}, NoneWaits q u → NoneWaits q (g u b)) : NoneWaits q (l.foldl g s) := by
  induction l generalizing s with
  | nil => exact h
  | cons b l ih => exact ih (hg h)

theorem NoneWaits.drainImages {q p : Fin 4096} {s : State} (h : NoneWaits q s) : NoneWaits q (drainImages s p) := by
  unfold Machine.drainImages
  exact h.foldl fun h' => NoneWaits.reportShare h'

/-- A drain takes from the kernels of its queue what waits. -/
theorem drainKernels_noneWaits (s : State) (q : Fin 4096) : NoneWaits q (drainKernels s q) := by
  intro k hk hq
  obtain ⟨j, hj, rfl⟩ := List.mem_map.mp hk
  by_cases e : j.queue = q
  · simp [e]
  · simp [e] at hq

/-! ## A drain (12 R333) -/

section
variable {s t : State} (h : Draining s t)
include h

theorem Draining.draining (q : Fin 4096) : (t.q q).st = .draining ↔ (s.q q).st = .draining := by
  have e := congrArg (·.2) (congrFun (congrArg (·.2.2.2.1) h) q)
  simpa [drainingView] using e

theorem Draining.head (q : Fin 4096) : (t.q q).head = (s.q q).head :=
  congrArg (·.1) (congrFun (congrArg (·.2.2.2.1) h) q)

theorem Draining.fq (k : Fin 8) : (t.sk k).fq = (s.sk k).fq := congrFun (congrArg (·.2.2.2.2) h) k

end

/-- A queue that drains, with nothing of it left to start. -/
structure Draining.Stopped (q : Fin 4096) (tail : Nat) (s : State) : Prop where
  draining : (s.q q).st = .draining
  head : (s.q q).head = tail
  none_waits : NoneWaits q s
  no_move : ∀ k, ∀ m ∈ (s.sk k).fq, m.queue ≠ q
  no_sweep : ∀ w ∈ s.sweeps, w.queue ≠ q
  no_rma : ∀ r ∈ s.twine.rmas, r.queue ≠ q
  no_op : ∀ o ∈ s.ply.ops, o.queue ≠ q

/-- The queue drains and its kernels, images, faults, sweeps and group operations have been stopped. -/
def drainBegun (s : State) (q : Fin 4096) : State :=
  let s := s.setQ q { s.q q with st := .draining, head := (s.q q).tail, rings := [], held := false }
  let s := drainFaults (drainImages (drainKernels s q) q) q
  let s := (s.sweeps.filter fun w => w.queue == q).foldl (fun s w => finish s q w.seq .interrupted (sweepFlags s w) 0 0 0) s
  (s.ply.ops.filter fun o => o.queue == q).foldl (fun s o => finish s q o.seq .interrupted o.flags 0 0 0) s

theorem drainBegun_begins (s : State) (q : Fin 4096) : ((drainBegun s q).q q).st = .draining ∧
    ((drainBegun s q).q q).head = (s.q q).tail ∧ NoneWaits q (drainBegun s q) := by
  obtain ⟨t, ht⟩ : ∃ t, t = s.setQ q { s.q q with st := .draining, head := (s.q q).tail, rings := [], held := false } :=
    ⟨_, rfl⟩
  have hq : t.q q = { s.q q with st := .draining, head := (s.q q).tail, rings := [], held := false } := by
    rw [ht, State.setQ_q_same]
  have e : Draining t (drainKernels t q) := Draining.refl
  have hd : Draining t (drainBegun s q) := by
    unfold drainBegun
    rw [← ht]
    exact Draining.foldl (Draining.foldl e.drainImages.drainFaults fun h => h.finish) fun h => h.finish
  have hk : NoneWaits q (drainBegun s q) := by
    unfold drainBegun
    rw [← ht]
    refine NoneWaits.foldl (NoneWaits.foldl ?_ fun h => h.of_kept (KernelsKept.refl.finish)) fun h =>
      h.of_kept (KernelsKept.refl.finish)
    exact (drainKernels_noneWaits t q).drainImages.of_kept KernelsKept.refl.drainFaults
  exact ⟨(hd.draining q).mpr (by rw [hq]), (hd.head q).trans (by rw [hq]), hk⟩

/-- No move of the queue waits for a flyer any more. -/
theorem drainMoves_stops (s : State) (q : Fin 4096) : (∀ p, ((drainMoves s q).q p).head = (s.q p).head ∧
    (((drainMoves s q).q p).st = .draining ↔ (s.q p).st = .draining)) ∧
    ∀ k, ∀ m ∈ ((drainMoves s q).sk k).fq, m.queue ≠ q := by
  obtain ⟨u, hu, hqs, hfq⟩ : ∃ u, Draining u (drainMoves s q) ∧ u.queues = s.queues ∧
      ∀ k, ∀ m ∈ (u.sk k).fq, m.queue ≠ q := by
    unfold drainMoves
    refine ⟨_, Draining.refl.foldl fun h => h.reportMove, rfl, fun k m hm => ?_⟩
    rw [State.setMgmt_sk, sk_map] at hm
    simpa [Move.inQueue] using (List.mem_filter.mp hm).2
  have hq (p : Fin 4096) : u.q p = s.q p := congrArg (·.get p) hqs
  refine ⟨fun p => ⟨(hu.head p).trans (by rw [hq]), (hu.draining p).trans (by rw [hq])⟩, fun k m hm => ?_⟩
  exact hfq k m (hu.fq k ▸ hm)

/-- Sweeps, RMAs and group operations of the queue stop, and nothing else of what is in view changes. -/
theorem drainRest_stops (s : State) (q : Fin 4096) : (∀ p, ((drainRest s q).q p).head = (s.q p).head ∧
    (((drainRest s q).q p).st = .draining ↔ (s.q p).st = .draining)) ∧
    (∀ k, ((drainRest s q).sk k).fq = (s.sk k).fq) ∧ (∀ w ∈ (drainRest s q).sweeps, w.queue ≠ q) ∧
    (∀ r ∈ (drainRest s q).twine.rmas, r.queue ≠ q) ∧ ∀ o ∈ (drainRest s q).ply.ops, o.queue ≠ q := by
  obtain ⟨u, hu, hqs, hfq, hsw, hr, ho⟩ : ∃ u, Draining u (drainRest s q) ∧ u.queues = s.queues ∧
      (∀ k, (u.sk k).fq = (s.sk k).fq) ∧ u.sweeps = s.sweeps.filter (fun w => w.queue != q) ∧
      u.twine.rmas = s.twine.rmas.filter (fun r => r.queue != q) ∧
      u.ply.ops = s.ply.ops.filter (fun o => o.queue != q) := by
    unfold drainRest
    refine ⟨_, Draining.refl.bindRetryAll, rfl, fun k => ?_, rfl, rfl, rfl⟩
    exact (congrArg Skein.fq (sk_map s (fun k => { k with bindWait := k.bindWait.filter fun w => w.queue != q }) k) :)
  have hq (p : Fin 4096) : u.q p = s.q p := congrArg (·.get p) hqs
  refine ⟨fun p => ⟨(hu.head p).trans (by rw [hq]), (hu.draining p).trans (by rw [hq])⟩,
    fun k => (hu.fq k).trans (hfq k), fun w hw => ?_, fun r hr' => ?_, fun o ho' => ?_⟩
  · rw [hu.keeps_sweeps, hsw] at hw
    simpa using (List.mem_filter.mp hw).2
  · rw [hu.keeps_twine_rmas, hr] at hr'
    simpa using (List.mem_filter.mp hr').2
  · rw [hu.keeps_ply_ops, ho] at ho'
    simpa using (List.mem_filter.mp ho').2

theorem drainRest_kernels (s : State) (q : Fin 4096) : KernelsKept s (drainRest s q) := by
  unfold drainRest
  exact KernelsKept.bindRetryAll rfl

/-- What ends after the drain keeps the queue stopped. -/
theorem Draining.Stopped.kept {q : Fin 4096} {tail : Nat} {s t : State} (hs : Draining.Stopped q tail s) (h : Draining s t)
    (hw : NoneWaits q t) : Draining.Stopped q tail t where
  draining := (h.draining q).mpr hs.draining
  head := (h.head q).trans hs.head
  none_waits := hw
  no_move k := h.fq k ▸ hs.no_move k
  no_sweep := h.keeps_sweeps ▸ hs.no_sweep
  no_rma := h.keeps_twine_rmas ▸ hs.no_rma
  no_op := h.keeps_ply_ops ▸ hs.no_op

theorem drainQueue_stops {s : State} {q : Fin 4096} (hoff : (s.q q).st ≠ .off) (hd : (s.q q).st ≠ .draining) :
    Draining.Stopped q (s.q q).tail (drainQueue s q) := by
  have e : drainQueue s q =
      let t := interruptDescs (drainRest (drainUpdates (drainMoves (drainBegun s q) q) q) q) q fun d =>
        !stillRuns (drainRest (drainUpdates (drainMoves (drainBegun s q) q) q) q) q d
      (t.kernels.filter fun k => k.queue == q).foldl (fun s k => settleKernel s q k.seq) t :=
    if_neg (not_or.mpr ⟨hoff, hd⟩)
  obtain ⟨hst, hhead, hwait⟩ := drainBegun_begins s q
  obtain ⟨hq1, hfq⟩ := drainMoves_stops (drainBegun s q) q
  have hu : Draining (drainMoves (drainBegun s q) q) (drainUpdates (drainMoves (drainBegun s q) q) q) :=
    Draining.refl.drainUpdates
  obtain ⟨hq2, hfq2, hsw, hr, ho⟩ := drainRest_stops (drainUpdates (drainMoves (drainBegun s q) q) q) q
  have hw : NoneWaits q (drainRest (drainUpdates (drainMoves (drainBegun s q) q) q) q) := by
    have hk : KernelsKept (drainBegun s q) (drainUpdates (drainMoves (drainBegun s q) q) q) :=
      KernelsKept.refl.drainMoves.drainUpdates
    exact hwait.of_kept (hk.trans (drainRest_kernels ..))
  have stopped : Draining.Stopped q (s.q q).tail (drainRest (drainUpdates (drainMoves (drainBegun s q) q) q) q) :=
    { draining := (hq2 q).2.mpr ((hu.draining q).mpr ((hq1 q).2.mpr hst))
      head := ((hq2 q).1.trans (hu.head q)).trans ((hq1 q).1.trans hhead)
      none_waits := hw
      no_move := fun k m hm => hfq k m (by rwa [hfq2, hu.fq] at hm)
      no_sweep := hsw
      no_rma := hr
      no_op := ho }
  rw [e]
  have hw' : NoneWaits q (interruptDescs (drainRest (drainUpdates (drainMoves (drainBegun s q) q) q) q) q fun d =>
      !stillRuns (drainRest (drainUpdates (drainMoves (drainBegun s q) q) q) q) q d) :=
    hw.of_kept KernelsKept.refl.interruptDescs
  exact (stopped.kept Draining.refl.interruptDescs hw').kept (Draining.refl.foldl fun h => h.settleKernel)
    (hw'.foldl fun h => h.settleKernel)

/-! ## Acceptance (12 R323) -/

/-- A queue accepts more: its descriptors follow those it had, its counts do not fall. -/
def Accepts (q : Fin 4096) (s t : State) : Prop :=
  (s.q q).descs <+: (t.q q).descs ∧ (s.q q).head ≤ (t.q q).head ∧ (s.q q).la ≤ (t.q q).la ∧ (t.q q).tail = (s.q q).tail

theorem Accepts.trans {q : Fin 4096} {s t u : State} (h : Accepts q s t) (h' : Accepts q t u) : Accepts q s u :=
  ⟨h.1.trans h'.1, h.2.1.trans h'.2.1, h.2.2.1.trans h'.2.2.1, h'.2.2.2.trans h.2.2.2⟩

/-- One descriptor of the ring leaves what a queue has accepted in place. -/
theorem acceptOne_accepts {s t : State} {q : Fin 4096} {r : AccRec} (h : acceptOne s q = some (t, r)) : Accepts q s t := by
  unfold acceptOne at h
  split at h
  · cases h
  · split at h
    · cases h
    · dsimp only at h
      split at h
      · cases h
      · split at h
        · cases h
          simp [Accepts, *]
        · split at h
          · cases h
            simp [Accepts]
          · cases h
            have hq (u : State) : (u.draw.2).q q = u.q q := rfl
            simp [Accepts, hq]

theorem acceptAll_accepts (n : Nat) (s : State) (q : Fin 4096) (rs : List AccRec) : Accepts q s (acceptAll n s q rs).1 := by
  induction n generalizing s rs with
  | zero => simp [acceptAll, Accepts]
  | succ n ih =>
    unfold acceptAll
    split
    · exact (acceptOne_accepts ‹_›).trans (ih ..)
    · simp [Accepts]

/-- The next descriptor of the ring, in its sequence, is accepted. -/
theorem acceptOne_next {s : State} {q : Fin 4096} {raw : List Byte} (ha : queueAccepts s q = true) (hp : paused s q = false)
    (hraw : headEntries s q = some raw) (hseq : hdrSeq raw = (s.q q).la + 1)
    (hj : journalUse s + raw.length / 64 ≤ 2097152) : ∃ r, acceptOne s q = some (s.setQ q { s.q q with
      head := (s.q q).head + raw.length / 64, la := hdrSeq raw
      descs := (s.q q).descs ++ [{ seq := hdrSeq raw, raw, dchk := crc32c raw }] }, r) := by
  unfold acceptOne
  rw [if_neg (by simp [ha, hp])]
  simp only [hraw]
  rw [if_neg (by omega), if_pos hseq]
  exact ⟨_, rfl⟩

/-- The acceptance of a queue says the rings and drops those that are done; the descriptors stand as accepted. -/
theorem runAcceptance_accepts (s : State) (q : Fin 4096) :
    Accepts q (acceptAll ((s.q q).tail - (s.q q).head) s q []).1 (runAcceptance s q) := by
  have h : (sayRings (acceptAll ((s.q q).tail - (s.q q).head) s q []).1 (s.q q).head (s.q q).rings
      (acceptAll ((s.q q).tail - (s.q q).head) s q []).2).q q = (acceptAll ((s.q q).tail - (s.q q).head) s q []).1.q q :=
    congrArg (·.get q) (QueuesKept.refl.sayRings : QueuesKept _ _)
  unfold runAcceptance
  dsimp only
  simp [Accepts, h]

theorem doAcceptanceResume_accepts {s : State} {q : Fin 4096} {raw : List Byte} (hw : wantsAccept s q = true)
    (ht : acceptTurn s q = true) (hp : paused s q = false) (hraw : headEntries s q = some raw)
    (hseq : hdrSeq raw = (s.q q).la + 1) (hj : journalUse s + raw.length / 64 ≤ 2097152) :
    (s.q q).descs ++ [{ seq := hdrSeq raw, raw, dchk := crc32c raw }] <+: ((doAcceptanceResume q s).q q).descs ∧
      (s.q q).head + raw.length / 64 ≤ ((doAcceptanceResume q s).q q).head ∧
      (s.q q).la + 1 ≤ ((doAcceptanceResume q s).q q).la ∧ ((doAcceptanceResume q s).q q).tail = (s.q q).tail := by
  have ha : queueAccepts s q = true := by
    unfold wantsAccept at hw
    simp only [Bool.and_eq_true] at hw
    exact hw.1.1
  have hlt : (s.q q).head < (s.q q).tail := by
    unfold headEntries at hraw
    dsimp only at hraw
    by_contra h
    rw [if_pos (by omega)] at hraw
    cases hraw
  obtain ⟨n, hn⟩ : ∃ n, (s.q q).tail - (s.q q).head = n + 1 := ⟨_, (Nat.succ_pred_eq_of_pos (by omega)).symm⟩
  obtain ⟨r, hone⟩ := acceptOne_next ha hp hraw hseq hj
  have hall := (acceptAll_accepts n (s.setQ q { s.q q with
    head := (s.q q).head + raw.length / 64, la := hdrSeq raw
    descs := (s.q q).descs ++ [{ seq := hdrSeq raw, raw, dchk := crc32c raw }] }) q [r]).trans
      (by simpa [hn, acceptAll, hone] using runAcceptance_accepts s q)
  rw [doAcceptanceResume, if_pos (by simp [hw, ht])]
  simpa [Accepts, hseq] using hall

/-! ## The statement -/

/-- Settles O29: the orders change the queue alone; a drain is followed through its stages; acceptance begins with the next
descriptor of the ring and keeps it. -/
theorem queueOrders : Obligations.QueueOrders := by
  unfold Obligations.QueueOrders
  refine ⟨fun q s => ?orders, fun q s => ?drains, fun q raw s hw ht hp hraw hseq hj =>
    ⟨_, rfl, doAcceptanceResume_accepts hw ht hp hraw hseq hj⟩⟩
  case orders =>
    intro x
    refine ⟨fun hst hf => ?_, fun hst => congrArg Host.Outcome.next (if_pos hst), fun hst =>
      congrArg Host.Outcome.next (if_neg hst), ?_⟩
    · have hno : (s.trans.faults.any fun f => !f.brk && f.queue == q) = false := by
        simpa [or_iff_not_imp_left] using hf
      refine congrArg Host.Outcome.next ((if_pos hst).trans ?_)
      rw [hno]
      rfl
    · intro c hst
      exact ⟨fun hok => congrArg Host.Outcome.next ((if_neg hst).trans (if_pos hok)), fun hbad =>
        congrArg Host.Outcome.next ((if_neg hst).trans (if_neg (ne_true_of_eq_false hbad)))⟩
  case drains =>
    intro x
    refine ⟨fun hoff hd => ⟨_, rfl, ?_⟩, fun hst hds hc => ?_, fun hst hds hc => ⟨_, rfl, ?_⟩⟩
    · obtain ⟨h1, h2, h3, h4, h5, h6, h7⟩ := drainQueue_stops hoff hd
      exact ⟨h1, h2, h5, h6, h7, h3, h4⟩
    · exact congrArg Host.Outcome.next ((if_neg (by simp [show (s.q q).st = .draining from hst,
        show (s.q q).descs = [] from hds])).trans (if_neg (ne_true_of_eq_false hc)))
    · rw [doDrainComplete, if_neg (by simp [show (s.q q).st = .draining from hst, show (s.q q).descs = [] from hds]), if_pos hc,
        State.setQ_q_same]
      exact ⟨rfl, rfl, rfl, rfl⟩

end Sys2Proof.Machine
end

section
/-!
PROOFS. The completion of the oldest descriptor of a queue: its record in the reserve, its count, what is settled
after it.
-/

namespace Sys2Proof.Machine

/-! ## Bytes of the reserve, where nothing is bound (09 R232) -/

/-- No skein binds anything. -/
def NoneBound (s : State) : Prop := ∀ k, (s.sk k).bindings = []

theorem physLoc_reserve {m : Mem} {a : Nat} (hlo : ilBase ≤ a) (hhi : a < reserveTop m) (htop : reserveTop m ≤ 0x7000000000) :
    physLoc m a = .reserve a := by
  have hb : (0x1000000000 : Nat) ≤ a := hlo
  unfold physLoc
  rw [dif_neg (by omega), if_neg (by omega), dif_neg (by omega), if_neg (by omega), if_neg (by omega),
    if_neg (by simp only [ilBase]; omega), if_pos (by omega), if_pos hhi]

theorem NoneBound.creelByte {s : State} (h : NoneBound s) (key : Nat) : creelByte s key = none := by
  unfold Machine.creelByte
  have hnil : s.skeins.toList.flatMap (·.bindings) = [] := by
    rw [List.flatMap_eq_nil_iff]
    intro x hx
    obtain ⟨k, hk, rfl⟩ := List.getElem_of_mem hx
    simpa [State.sk, Vector.get_eq_getElem] using h ⟨k, by simpa using hk⟩
  rw [hnil]
  rfl

theorem NoneBound.putByte {s : State} (h : NoneBound s) (key : Nat) (x : Byte) : putByte s key x =
    s.setMem { s.mem with cells := cellSet s.mem.cells key (x ^^^ farBase s.mem key) } := by
  have hnone : (List.finRange 8).findSome? (fun k =>
      (bindingsPut s.mem key x (s.sk k).bindings).map fun bs => (k, bs)) = none := by
    rw [List.findSome?_eq_none_iff]
    intro k _
    rw [h k]
    rfl
  unfold Machine.putByte
  rw [hnone]

/-- Bytes written to the reserve where nothing is bound: the cells of the range hold them, and nothing else changes. -/
theorem writePhys_reserve {s : State} {a : Nat} {bs : List Byte} (h : NoneBound s) (hw : Memory.wf s.mem.cells = true)
    (hlo : ilBase ≤ a) (hhi : a + bs.length ≤ reserveTop s.mem) (htop : reserveTop s.mem ≤ 0x7000000000) :
    ∃ c, writePhys s a bs = s.setMem { s.mem with cells := c } ∧ Memory.wf c = true ∧
      ∀ x, cellGet c x = if a ≤ x ∧ x < a + bs.length then bs.getD (x - a) 0 ^^^ farBase s.mem x
        else cellGet s.mem.cells x := by
  induction bs generalizing s a with
  | nil => exact ⟨s.mem.cells, rfl, hw, fun x => by rw [if_neg (by simp)]⟩
  | cons b bs ih =>
    simp only [List.length_cons] at hhi
    have hone : writeByte s a b = s.setMem { s.mem with cells := cellSet s.mem.cells a (b ^^^ farBase s.mem a) } := by
      unfold writeByte
      rw [physLoc_reserve hlo (by omega) htop]
      exact h.putByte a b
    obtain ⟨c, hc, hwf, hget⟩ := ih (s := s.setMem { s.mem with cells := cellSet s.mem.cells a (b ^^^ farBase s.mem a) })
      (a := a + 1) h (wf_cellSet hw ..) (by omega) (by show a + 1 + bs.length ≤ reserveTop s.mem; omega) htop
    refine ⟨c, by rw [writePhys, hone, hc]; rfl, hwf, fun x => (hget x).trans ?_⟩
    rw [show (s.setMem { s.mem with cells := cellSet s.mem.cells a (b ^^^ farBase s.mem a) }).mem.cells =
      cellSet s.mem.cells a (b ^^^ farBase s.mem a) from rfl, cellGet_cellSet hw]
    simp only [List.length_cons]
    by_cases hx : x = a
    · subst hx
      rw [if_neg (by omega), if_pos rfl, if_pos (by omega)]
      simp
    · by_cases hin : a + 1 ≤ x ∧ x < a + 1 + bs.length
      · rw [if_pos hin, if_pos (by omega), show x - a = x - (a + 1) + 1 by omega]
        rfl
      · rw [if_neg hin, if_neg (by omega), if_neg (by omega)]

/-- Bytes of the reserve read where nothing is bound. -/
theorem readByte_reserve {s : State} {a : Nat} (h : NoneBound s) (hlo : ilBase ≤ a) (hhi : a < reserveTop s.mem)
    (htop : reserveTop s.mem ≤ 0x7000000000) : readByte s a = cellGet s.mem.cells a ^^^ farBase s.mem a := by
  unfold readByte
  rw [physLoc_reserve hlo hhi htop]
  simp only [locKey, memByte, h.creelByte, Option.getD_none]

/-- What was written to the reserve is read back. -/
theorem readPhys_writePhys_reserve {s t : State} {a : Nat} {bs : List Byte} (h : NoneBound s)
    (hw : Memory.wf s.mem.cells = true) (hlo : ilBase ≤ a) (hhi : a + bs.length ≤ reserveTop s.mem)
    (htop : reserveTop s.mem ≤ 0x7000000000) (ht : NoneBound t) (hm : t.mem = (writePhys s a bs).mem) :
    readPhys t a bs.length = bs := by
  obtain ⟨c, hc, -, hget⟩ := writePhys_reserve h hw hlo hhi htop
  rw [hc] at hm
  refine List.ext_getElem (by simp [readPhys]) fun i hi _ => ?_
  have hib : i < bs.length := by simpa [readPhys] using hi
  have htop' : reserveTop t.mem = reserveTop s.mem := by rw [hm]; rfl
  have hread : (readPhys t a bs.length)[i] = readByte t (a + i) := by simp [readPhys]
  rw [hread, readByte_reserve ht (by omega) (by omega) (by omega), hm]
  show cellGet c (a + i) ^^^ farBase s.mem (a + i) = _
  rw [hget, if_pos (by omega), BitVec.xor_assoc, BitVec.xor_self, BitVec.xor_zero]
  simp [hib]

/-! ## The count of a descriptor (12 R329, R330, R332) -/

theorem notify_keeps_q {s : State} (w : Party) (kind q r : Nat) (body : List Byte) :
    (notify s w kind q r body).queues = s.queues ∧ (notify s w kind q r body).mem = s.mem ∧
      (notify s w kind q r body).skeins = s.skeins := by
  obtain ⟨v, e⟩ := notify_form s w kind q r body
  rw [e]
  exact ⟨rfl, rfl, rfl⟩

/-- The queue after its oldest descriptor was counted. -/
def Queue.counted (x : Queue) (seq : Nat) (st : Status) : Queue :=
  { x with
    lc := seq, descs := x.descs.tail, bad := if st != .ok then seq else x.bad
    st := if (st != .ok && x.cfg.stopOnErr) = true ∧ x.st = .opened then .held else x.st
    held := x.held || (st != .ok && x.cfg.stopOnErr && x.st == .waitPage) }

/-- A count writes the record and changes the queue. -/
theorem countDesc_counts (s : State) (q : Fin 4096) (d : Desc) (st : Status) (fl : Flags) (c e : Nat) (v : Word) :
    let t := writePhys s ((s.q q).cfg.cpl d.seq) (cplBytes s d st fl c e v)
    let u := countDesc s q d st fl c e v
    u.q q = (s.q q).counted d.seq st ∧ u.mem = t.mem ∧ u.skeins = t.skeins := by
  intro t u
  have hq : t.q q = s.q q := congrArg (·.get q) (writePhys_keeps offBytes_queues s _ _)
  obtain ⟨w, hw, hwq, hwm, hws⟩ : ∃ w, w = t.setQ q ((t.q q).counted d.seq st) ∧ u.queues = w.queues ∧ u.mem = w.mem ∧
      u.skeins = w.skeins := by
    refine ⟨_, rfl, ?_⟩
    simp only [u, countDesc]
    split
    · split
      · exact notify_keeps_q ..
      · exact ⟨rfl, rfl, rfl⟩
    · exact ⟨rfl, rfl, rfl⟩
  refine ⟨?_, hwm.trans (by rw [hw]; rfl), hws.trans (by rw [hw]; rfl)⟩
  rw [State.q, hwq, ← State.q, hw, State.setQ_q_same, hq]

/-! ## Waits and fences after a count (12 R328) -/

theorem NoneBound.slotBinding {s : State} (h : NoneBound s) (q : Fin 4096) (slot : Fin 64) : slotBinding s q slot = none := by
  unfold Machine.slotBinding
  rw [List.findSome?_eq_none_iff]
  intro k _
  simp [Skein.live, h k]

theorem NoneBound.flushQueue {s : State} (h : NoneBound s) (q : Fin 4096) : flushQueue s q = s := by
  unfold Machine.flushQueue
  refine List.foldlRecOn (motive := (· = s)) _ _ rfl fun t ht slot _ => ?_
  subst ht
  simp only [h.slotBinding]

/-- Memory, skeins and queues are as they were, but for the states of the descriptors. -/
def DescsOnly (s t : State) : Prop :=
  t.mem = s.mem ∧ t.skeins = s.skeins ∧ ∀ q, { t.q q with descs := [] } = { s.q q with descs := [] } ∧
    (t.q q).descs.length = (s.q q).descs.length

theorem DescsOnly.trans {s t u : State} (h : DescsOnly s t) (h' : DescsOnly t u) : DescsOnly s u :=
  ⟨h'.1.trans h.1, h'.2.1.trans h.2.1, fun q => ⟨(h'.2.2 q).1.trans (h.2.2 q).1, (h'.2.2 q).2.trans (h.2.2 q).2⟩⟩

theorem setDesc_descsOnly (s : State) (q : Fin 4096) (n : Nat) (f : Desc → Desc) : DescsOnly s (setDesc s q n f) := by
  refine ⟨rfl, rfl, fun p => ?_⟩
  unfold setDesc
  by_cases e : p = q
  · subst e
    simp
  · simp [State.setQ_q_ne _ _ _ _ e]

theorem settleFence_descsOnly {s : State} (h : NoneBound s) (q : Fin 4096) : DescsOnly s (settleFence s q) := by
  unfold settleFence
  split
  · split
    · rw [h.flushQueue, ite_self]
      exact setDesc_descsOnly ..
    · exact ⟨rfl, rfl, fun _ => ⟨rfl, rfl⟩⟩
  · exact ⟨rfl, rfl, fun _ => ⟨rfl, rfl⟩⟩

theorem settleWaits_q (s : State) (q : Fin 4096) :
    (settleWaits s).q q = { s.q q with descs := (s.q q).descs.map (settleDesc s) } := by
  simp [settleWaits, State.q, Vector.get_eq_getElem]

theorem settleWaits_descsOnly (s : State) : DescsOnly s (settleWaits s) := by
  refine ⟨rfl, rfl, fun q => ?_⟩
  rw [settleWaits_q]
  simp

theorem learn_descsOnly (s : State) (phase a b c : Nat) : DescsOnly s (learn s phase a b c) := by
  unfold learn
  split
  · exact ⟨rfl, rfl, fun _ => ⟨rfl, rfl⟩⟩
  · exact ⟨rfl, rfl, fun _ => ⟨rfl, rfl⟩⟩

/-! ## The statement -/

/-- Settles O28: the record is written to the reserve, the queue is counted, and what is settled after it changes the states
of descriptors alone. -/
theorem descriptorCompletes : Obligations.DescriptorCompletes := by
  unfold Obligations.DescriptorCompletes
  intro q a b c d rest st fl code detail value s hworks hdescs hst hcan hbind hlo hhi htop
  have hlen : (cplBytes s d st fl code detail value).length = 32 := by simp [cplBytes, leBytes_length]
  have hlo' : ilBase ≤ (s.q q).cfg.cpl d.seq := le_trans (by decide) hlo
  obtain ⟨cells, hmem, -, hget⟩ := writePhys_reserve hbind hcan.1 hlo' (hlen ▸ hhi) htop
  obtain ⟨hq, hm, hs⟩ := countDesc_counts s q d st fl code detail value
  have e : doDescriptorComplete q a b c s =
      settleWaits (settleFence (learn (countDesc s q d st fl code detail value) (hdrPhase d.raw) a b c) q) := by
    unfold doDescriptorComplete
    rw [if_neg (by simp [hworks]), hdescs]
    simp only [List.head?_cons, hst]
  set u := countDesc s q d st fl code detail value
  have hlearn := learn_descsOnly u (hdrPhase d.raw) a b c
  have hsk : (learn u (hdrPhase d.raw) a b c).skeins = s.skeins := hlearn.2.1.trans (hs.trans (by rw [hmem]; rfl))
  have hnone : NoneBound (learn u (hdrPhase d.raw) a b c) := fun k =>
    (congrArg (fun v => (v.get k).bindings) hsk).trans (hbind k)
  obtain ⟨htm, hts, htq⟩ := (hlearn.trans (settleFence_descsOnly hnone q)).trans (settleWaits_descsOnly _)
  rw [← e] at htm hts htq
  obtain ⟨hkeep, hlength⟩ := htq q
  have hbt : NoneBound (doDescriptorComplete q a b c s) := fun k =>
    (congrArg (fun v => (v.get k).bindings) (hts.trans (hs.trans (by rw [hmem]; rfl)))).trans (hbind k)
  have hfields : { (doDescriptorComplete q a b c s).q q with descs := [] } = { (s.q q).counted d.seq st with descs := [] } :=
    hkeep.trans (by rw [hq])
  refine ⟨_, rfl, (congrArg Queue.lc hfields :), ?_, ?_, (congrArg Queue.bad hfields :).trans ?_, fun ho =>
    (congrArg Queue.st hfields :).trans ?_, fun x hx => ?_⟩
  · rw [hlength, hq, Queue.counted, hdescs]
    rfl
  · have := readPhys_writePhys_reserve hbind hcan.1 hlo' (hlen ▸ hhi) htop hbt (htm.trans hm)
    rwa [hlen] at this
  · cases st <;> rfl
  · simp [Queue.counted, ho]
  · rw [htm, hm, hmem]
    show cellGet cells x = _
    rw [hget, if_neg (by rw [hlen]; omega)]

end Sys2Proof.Machine
end

section
/-!
PROOFS. The refutation of the statement on WAIT, FENCE, MARK and RESUME: a save image whose share names another queue.
-/

namespace Sys2Proof.Machine

/-! ## An image whose share names another queue -/

/-- A RESUME of fault 1 of queue 16 with ABANDON, accepted on queue 0. -/
def abandonDesc : Desc :=
  { seq := 1, raw := [1, 10, 16 + 2 ^ 32, 1, 0, 0, 0, 0].flatMap (leBytes 8), dchk := 0 }

/-- A save image of queue 16 whose share is one of queue 17. -/
def strayImage : SaveImage :=
  { queue := 16, regs := {}
    share := { queue := 17, seq := 1, index := 0, count := 2, logical := 0, imageLen := 64, owner := .tenant } }

/-- A kernel of queue 16 with two shares, none of which has ended. -/
def strayKernel : Kernel :=
  { queue := 16, seq := 1, segs := [], args := [], seed := 0, warm := false, count := 2, waiting := [], ended := [] }

/-- The device in full service: the kernel runs, its fault has the stray image, and the RESUME is the next to dispatch. -/
def strayState : State :=
  let s := State.reset.setMgmt { State.reset.mgmt with phase := .full }
  let s := s.setQ 0 { s.q 0 with descs := [abandonDesc], la := 1 }
  { s.setTrans { s.trans with faults := [{ id := 1, queue := 16, work := .share 0 1 }], images := [strayImage] } with
    kernels := [strayKernel] }

/-- The abandoned share is reported to the kernel of the queue that the share names: that of queue 16 gains nothing. -/
theorem strayState_abandoned : (kernelOf (doResume 0 strayState) 16 1).map (·.ended) = some [] := by
  decide +kernel

/-- The state satisfies what the statement asks of a share with an image that is abandoned. -/
theorem strayState_asked : mayDispatch strayState 0 10 = some abandonDesc ∧
    strayState.trans.faults.find? (fun f => f.id = 1 ∧ f.queue = 16) = some { id := 1, queue := 16, work := .share 0 1 } ∧
    strayState.trans.images = [strayImage] ∧ imageOf strayState 16 1 0 = some strayImage ∧
    kernelOf strayState 16 1 = some strayKernel := by
  decide +kernel

/-! ## The statement -/

/-- Refutes O27: a save image names its queue twice, once itself and once in its share, and the statement does not say that
the two agree. Where they differ (`strayState`) the fault of queue 16 is abandoned, and the kernel of queue 16, which the
statement lets gain the share's end, is left as it was. -/
theorem not_waitFenceResume : ¬ Obligations.WaitFenceResume := by
  unfold Obligations.WaitFenceResume
  rintro ⟨-, h⟩
  obtain ⟨hd, hfault, himages, himage, hkernel⟩ := strayState_asked
  obtain ⟨-, -, habandon⟩ := h 0 abandonDesc strayState hd (by decide +kernel) (by decide +kernel) (by decide +kernel)
    (.inl (by decide +kernel))
  obtain ⟨-, hshare, -⟩ := habandon _ hfault (by decide +kernel)
  obtain ⟨t, ht, -, -, -, hended⟩ := hshare 0 1 strayImage strayKernel rfl himages himage hkernel (by decide) rfl
  rw [← (Host.Outcome.next.inj ht : doResume 0 strayState = t), show kernelOf (doResume 0 strayState) _ 1 =
    kernelOf (doResume 0 strayState) 16 1 from congrArg (kernelOf _ · 1) (by decide +kernel), strayState_abandoned] at hended
  exact absurd hended (by decide)

end Sys2Proof.Machine
end

section
/-!
PROOFS. The loss of a stack, the rebuild of the mirror and of the interleave, and the links of the far tier.
-/

namespace Sys2Proof.Machine

/-! ## What leaves the memory map -/

/-- The memory map: the stacks, their channels, the far tier, the interleave and what of a migration waits. -/
def mapView (s : State) :=
  (s.mem.stack, s.mem.chan, s.mem.far, s.mem.il, s.mem.ilMib, s.mem.memGen, s.mem.mig, s.mem.migWait, s.mem.heldCtrl)

/-- From `s` to `t` the memory map has not changed. -/
def MapKept (s t : State) : Prop := mapView t = mapView s

namespace MapKept

section
variable {s t u : State}

theorem refl : MapKept s s := rfl
theorem trans (h : MapKept s t) (h' : MapKept t u) : MapKept s u := Eq.trans h' h
theorem same (h : MapKept s t) (e : mapView u = mapView t) : MapKept s u := e.trans h
theorem setSp {p : Fin 136} {x : Spindle} (h : MapKept s t) : MapKept s (t.setSp p x) := h
theorem setSk {k : Fin 8} {x : Skein} (h : MapKept s t) : MapKept s (t.setSk k x) := h
theorem setQ {q : Fin 4096} {x : Queue} (h : MapKept s t) : MapKept s (t.setQ q x) := h
theorem setMem {x : Mem} (h : MapKept s t) (e : mapView (t.setMem x) = mapView t) :
    MapKept s (t.setMem x) := e.trans h
theorem setTrans {x : Trans} (h : MapKept s t) : MapKept s (t.setTrans x) := h
theorem setStrand {n : Fin 2048} {x : Strand} (h : MapKept s t) : MapKept s (t.setStrand n x) := h
theorem setMgmt {x : Mgmt} (h : MapKept s t) : MapKept s (t.setMgmt x) := h
theorem setSec {x : Sec} (h : MapKept s t) : MapKept s (t.setSec x) := h
theorem skeins {x : Vector Skein 8} (h : MapKept s t) : MapKept s { t with skeins := x } := h
theorem kernels {x : List Kernel} (h : MapKept s t) : MapKept s { t with kernels := x } := h
theorem jrn {x : Journal} (h : MapKept s t) : MapKept s { t with jrn := x } := h
theorem twine {x : Twine} (h : MapKept s t) : MapKept s { t with twine := x } := h
theorem ply {x : Groups} (h : MapKept s t) : MapKept s { t with ply := x } := h
theorem free {x : Nat} (h : MapKept s t) : MapKept s { t with free := x } := h
theorem setMgmtRecord {ws : List Word} (h : MapKept s t) : MapKept s { t with mgmt := (keepRecord t.mgmt ws).1 } := by
  obtain ⟨f, d, e⟩ := keepRecord_form t.mgmt ws
  rw [e]
  exact h

theorem ite {c : Prop} [Decidable c] (ha : c → MapKept s t) (hb : ¬ c → MapKept s u) :
    MapKept s (if c then t else u) := by
  split
  · exact ha ‹_›
  · exact hb ‹_›

theorem foldl {β : Type} {g : State → β → State} {l : List β} (h : MapKept s t)
    (hg : ∀ {u : State} {b : β}, MapKept s u → MapKept s (g u b)) : MapKept s (l.foldl g t) := by
  induction l generalizing t with
  | nil => exact h
  | cons b l ih => exact ih (hg h)

theorem foldlPair {α β : Type} {g : State × α → β → State × α} {l : List β} {x : State × α} (h : MapKept s x.1)
    (hg : ∀ {y : State × α} {b : β}, MapKept s y.1 → MapKept s (g y b).1) : MapKept s (l.foldl g x).1 := by
  induction l generalizing x with
  | nil => exact h
  | cons b l ih => exact ih (hg h)

end

end MapKept

section
variable {s t : State}

theorem MapKept.settleQueue {q : Fin 4096} (h : MapKept s t) : MapKept s (settleQueue t q) := by
  unfold Machine.settleQueue
  exact .ite (fun _ => h.setQ) fun _ => h

theorem MapKept.closeRecord {slot : Nat} (h : MapKept s t) : MapKept s (closeRecord t slot) := by
  unfold Machine.closeRecord
  exact h.setMgmt

theorem MapKept.dropFault {id : Nat} (h : MapKept s t) : MapKept s (dropFault t id) := by
  unfold Machine.dropFault
  split
  · exact h
  · exact (MapKept.ite (fun _ => h.setTrans) fun _ => h.setTrans.closeRecord).settleQueue

theorem MapKept.traceKernel {q : Fin 4096} {seq : Nat} (h : MapKept s t) : MapKept s (traceKernel t q seq) := by
  unfold Machine.traceKernel
  split
  · exact .ite (fun _ => h.setSec) fun _ => h
  · exact h

theorem MapKept.setDesc {q : Fin 4096} {seq : Nat} {f : Desc → Desc}
    (h : MapKept s t) : MapKept s (setDesc t q seq f) := by
  unfold Machine.setDesc
  exact h.setQ

theorem MapKept.finish {q : Fin 4096} {seq : Nat} {st : Status} {flags : Flags} {code : Nat} {detail : Nat}
    {value : Nat} (h : MapKept s t) : MapKept s (finish t q seq st flags code detail value) := by
  unfold Machine.finish
  exact h.setDesc

theorem MapKept.settleKernel {q : Fin 4096} {seq : Nat} (h : MapKept s t) : MapKept s (settleKernel t q seq) := by
  unfold Machine.settleKernel
  split
  · exact h
  · split
    · exact h
    · dsimp only
      split <;> exact h.kernels.traceKernel.finish

theorem MapKept.setKernel {q : Fin 4096} {seq : Nat} {f : Kernel → Kernel}
    (h : MapKept s t) : MapKept s (setKernel t q seq f) := by
  unfold Machine.setKernel
  exact h.kernels

theorem MapKept.reportShare {sh : Share} {st : Status} {cause : Word} {fl : Flags}
    (h : MapKept s t) : MapKept s (reportShare t sh st cause fl) := by
  unfold Machine.reportShare
  exact h.setKernel.settleKernel

theorem MapKept.markReplayed {q : Fin 4096} {seq : Nat} (h : MapKept s t) : MapKept s (markReplayed t q seq) := by
  unfold Machine.markReplayed
  exact h.setDesc

theorem MapKept.loseImage {i : SaveImage} (h : MapKept s t) : MapKept s (loseImage t i) := by
  unfold Machine.loseImage
  dsimp only
  split
  · exact (h.setTrans.foldl MapKept.dropFault).reportShare
  · split
    · exact (h.setTrans.foldl MapKept.dropFault).markReplayed.setKernel
    · exact (h.setTrans.foldl MapKept.dropFault).markReplayed.reportShare

theorem MapKept.loseImages {k : Fin 8} (h : MapKept s t) : MapKept s (loseImages t k) := by
  unfold Machine.loseImages
  exact h.foldl MapKept.loseImage

theorem MapKept.haltSpindle {p : Fin 136} (h : MapKept s t) : MapKept s (haltSpindle t p) := by
  unfold Machine.haltSpindle
  exact h.setSp

theorem MapKept.putByte {key : Nat} {x : Byte} (h : MapKept s t) : MapKept s (putByte t key x) := by
  unfold Machine.putByte
  split
  · exact h.setSk
  · exact h.setMem (by rfl)

theorem MapKept.writeByte {a : Nat} {x : Byte} (h : MapKept s t) : MapKept s (writeByte t a x) := by
  unfold Machine.writeByte
  split
  · exact h.setSp
  · split
    · exact h.putByte
    · exact h

theorem MapKept.writePhys {a : Nat} {bs : List Byte} (h : MapKept s t) : MapKept s (writePhys t a bs) := by
  induction bs generalizing t a with
  | nil => exact h
  | cons b bs ih => exact ih h.writeByte

theorem MapKept.clearPoison {a : Nat} {n : Nat} (h : MapKept s t) : MapKept s (clearPoison t a n) := by
  unfold Machine.clearPoison
  exact h.setMem (by rfl)

theorem MapKept.writeChecked {a : Nat} {bs : List Byte} (h : MapKept s t) : MapKept s (writeChecked t a bs).1 := by
  unfold Machine.writeChecked
  split
  · exact h
  · exact h.clearPoison.writePhys

theorem MapKept.writeSegs {segs : List Seg} {a : Nat} {bs : List Byte}
    (h : MapKept s t) : MapKept s (writeSegs t segs a bs).1 := by
  unfold Machine.writeSegs
  exact MapKept.foldlPair h writeChecked

theorem MapKept.applyWrites {segs : List Seg} {ws : List (Nat × List Byte)} (h : MapKept s t) :
    MapKept s (applyWrites t segs ws).1 := by
  unfold Machine.applyWrites
  exact MapKept.foldlPair h writeSegs

theorem MapKept.spoil {m : Move} (h : MapKept s t) : MapKept s (spoil t m) := by
  unfold Machine.spoil
  exact h.applyWrites.free

theorem MapKept.cutMoves {f : Move → Bool} (h : MapKept s t) : MapKept s (cutMoves t f) := by
  unfold Machine.cutMoves
  exact (h.foldl MapKept.spoil).skeins

theorem MapKept.stopShares {q : Fin 4096} {seq : Nat} (h : MapKept s t) : MapKept s (stopShares t q seq) := by
  unfold Machine.stopShares
  exact h.cutMoves.foldl MapKept.haltSpindle

theorem MapKept.post {n : Fin 2048} {m : Msg} (h : MapKept s t) : MapKept s (post t n m) := by
  unfold Machine.post
  dsimp only
  split
  · exact h
  · exact h
  · exact h.setStrand

theorem MapKept.notify {to_ : Party} {kind : Nat} {queue : Nat} {result : Nat} {body : List Byte}
    (h : MapKept s t) : MapKept s (notify t to_ kind queue result body) := by
  unfold Machine.notify
  split
  · exact h.post
  · exact h

theorem MapKept.addRecord {q : Nat} {ws : List Word} {ten : Bool}
    (h : MapKept s t) : MapKept s (addRecord t q ws ten) := by
  unfold Machine.addRecord
  exact .ite (fun _ => h.setMgmtRecord.notify.notify) fun _ => h.setMgmtRecord.notify

theorem MapKept.record {kind : Nat} {st : Option Status} {unit : Nat} {index : Nat} {args : List Nat}
    (h : MapKept s t) : MapKept s (record t kind st unit index args) := by
  unfold Machine.record
  exact h.addRecord

theorem MapKept.applyChange {k : Fin 8} {c : MapChange} (h : MapKept s t) : MapKept s (applyChange t k c) := by
  unfold Machine.applyChange
  dsimp only
  split
  · exact h.setSk.setSp.record
  · exact h.setSk

theorem MapKept.settleMap {k : Fin 8} (h : MapKept s t) : MapKept s (settleMap t k) := by
  unfold Machine.settleMap
  exact h.foldl fun h' => .ite (fun _ => h'.applyChange) fun _ => h'

theorem MapKept.boundary {p : Fin 136} (h : MapKept s t) : MapKept s (boundary t p) := by
  unfold Machine.boundary
  split
  · exact h
  · dsimp only
    split
    · exact h.foldl MapKept.settleMap
    · exact (h.foldl MapKept.settleMap).setTrans.setSp

theorem MapKept.boundaries {ps : List (Fin 136)} (h : MapKept s t) : MapKept s (boundaries t ps) := by
  unfold Machine.boundaries
  exact h.foldl MapKept.boundary

theorem MapKept.stopKernel {q : Fin 4096} {seq : Nat} (h : MapKept s t) : MapKept s (stopKernel t q seq) := by
  unfold Machine.stopKernel
  exact (h.stopShares.kernels.setTrans.foldl MapKept.dropFault).boundaries

theorem MapKept.redo {q : Fin 4096} {seq : Nat} {fl : Flags} (h : MapKept s t) : MapKept s (redo t q seq fl) := by
  unfold Machine.redo
  exact .ite (fun _ => h.finish) fun _ => h.setDesc

theorem MapKept.interruptKernel {q : Fin 4096} {seq : Nat} (h : MapKept s t) : MapKept s (interruptKernel t q
    seq) := by
  unfold Machine.interruptKernel
  exact .ite (fun _ => h.stopKernel.redo) fun _ => h.stopKernel.finish

theorem MapKept.countMove {m : Move} {st : Status} (h : MapKept s t) : MapKept s (countMove t m st) := by
  unfold Machine.countMove
  exact h.setQ

theorem MapKept.interruptStack {k : Fin 8} (h : MapKept s t) : MapKept s (interruptStack t k) := by
  unfold Machine.interruptStack
  refine (h.foldl MapKept.interruptKernel).foldl fun h' => ?_
  split
  · exact .ite (fun _ => h'.cutMoves.redo) fun _ => h'.cutMoves.finish.countMove
  · exact h'

theorem MapKept.dropOp {o : GOp} (h : MapKept s t) : MapKept s (dropOp t o) := by
  unfold Machine.dropOp
  exact h.ply

theorem MapKept.endOp {o : GOp} {st : Status} (h : MapKept s t) : MapKept s (endOp t o st) := by
  unfold Machine.endOp
  exact h.dropOp.finish

theorem MapKept.ends {q : Fin 4096} {seq : Nat} {st : Status} (h : MapKept s t) : MapKept s (ends t q seq st) := by
  unfold Machine.ends
  exact h.finish

theorem MapKept.endRma {r : Rma} {st : Status} (h : MapKept s t) : MapKept s (endRma t r st) := by
  unfold Machine.endRma
  exact .ite (fun _ => h.twine.free.finish) fun _ => h.twine.ends

theorem MapKept.endReach {f : List Seg → Bool} {rst : Status} {st : Status}
    (h : MapKept s t) : MapKept s (endReach t f rst st) := by
  unfold Machine.endReach
  exact (h.foldl MapKept.endRma).foldl MapKept.endOp

theorem MapKept.memPartRecord {unit : Nat} {index : Nat} {cause : Nat}
    (h : MapKept s t) : MapKept s (memPartRecord t unit index cause) := by
  unfold Machine.memPartRecord
  exact h.record

theorem MapKept.loseTables (h : MapKept s t) : MapKept s (loseTables t) := by
  unfold Machine.loseTables
  exact h.same (by rfl)

theorem MapKept.loseMirror {k : Fin 8} (h : MapKept s t) : MapKept s (loseMirror t k) := by
  unfold Machine.loseMirror
  exact .ite (fun _ => h) fun _ => .ite (fun _ => (h.loseTables.same (by rfl)).record) fun _ => h.jrn

theorem MapKept.releaseMoves (h : MapKept s t) : MapKept s (releaseMoves t) := by
  unfold Machine.releaseMoves
  exact h.skeins

theorem MapKept.keeps_mem_stack (h : MapKept s t) : t.mem.stack = s.mem.stack := congrArg (·.1) h
theorem MapKept.keeps_mem_chan (h : MapKept s t) : t.mem.chan = s.mem.chan := congrArg (·.2.1) h
theorem MapKept.keeps_mem_far (h : MapKept s t) : t.mem.far = s.mem.far := congrArg (·.2.2.1) h
theorem MapKept.keeps_mem_il (h : MapKept s t) : t.mem.il = s.mem.il := congrArg (·.2.2.2.1) h
theorem MapKept.keeps_mem_ilMib (h : MapKept s t) : t.mem.ilMib = s.mem.ilMib := congrArg (·.2.2.2.2.1) h
theorem MapKept.keeps_mem_memGen (h : MapKept s t) : t.mem.memGen = s.mem.memGen := congrArg (·.2.2.2.2.2.1) h
theorem MapKept.keeps_mem_mig (h : MapKept s t) : t.mem.mig = s.mem.mig := congrArg (·.2.2.2.2.2.2.1) h
theorem MapKept.keeps_mem_migWait (h : MapKept s t) : t.mem.migWait = s.mem.migWait := congrArg (·.2.2.2.2.2.2.2.1) h
theorem MapKept.keeps_mem_heldCtrl (h : MapKept s t) : t.mem.heldCtrl = s.mem.heldCtrl := congrArg (·.2.2.2.2.2.2.2.2) h

end

/-! ## The mirror of the journal (12 R341) -/

/-- Where there is room a record is one more. -/
theorem record_faults_length {s : State} (h : s.mgmt.faults.length < 256) (kind : Nat) (st : Option Status)
    (unit index : Nat) (args : List Nat) :
    (record s kind st unit index args).mgmt.faults.length = s.mgmt.faults.length + 1 := by
  unfold record addRecord
  dsimp only
  rw [if_neg (by decide)]
  refine (congrArg (·.faults.length)
    (notify_keeps (f := fun s => s.mgmt) (fun _ _ _ => rfl) _ .controller 2 0 0 _)).trans ?_
  unfold keepRecord
  rw [if_pos h]
  exact List.length_append

/-- Another stack in service is found where there is one. -/
theorem otherStack_some {s : State} {k : Fin 8}
    (h : ∃ j, j ≠ k ∧ (s.mem.stack.get j).up = true ∧ (s.mem.stack.get j).lost = false) :
    ∃ j, otherStack s k = some j ∧ j ≠ k ∧ (s.mem.stack.get j).lost = false := by
  obtain ⟨j, hj⟩ := Option.isSome_iff_exists.mp (show (otherStack s k).isSome = true from
    List.find?_isSome.mpr (h.imp fun j ⟨hne, hup, hl⟩ => ⟨List.mem_finRange j, by simp [hne, hup, hl]⟩))
  have hp := List.find?_some hj
  simp only [Bool.and_eq_true, bne_iff_ne, Bool.not_eq_true'] at hp
  exact ⟨j, hj, hp.1.1, hp.2⟩

/-- The half of the mirror on a lost stack moves to another one. -/
theorem doMirrorRebuildComplete_moves {s : State} {k : Fin 8} (hr : s.jrn.rebuilding = true)
    (ha : (s.mem.stack.get s.jrn.mirrorA).lost = true) (hb : (s.mem.stack.get s.jrn.mirrorB).lost = false)
    (hk : otherStack s s.jrn.mirrorB = some k) : doMirrorRebuildComplete s =
      record { s with jrn := { s.jrn with mirrorA := k, rebuilding := false } } 0x0E none 4 k.val [1] := by
  unfold doMirrorRebuildComplete
  simp [hr, ha, hb, hk]

theorem record_jrn (s : State) (kind : Nat) (st : Option Status) (unit index : Nat) (args : List Nat) :
    (record s kind st unit index args).jrn = s.jrn := by
  obtain ⟨f, d, v, e⟩ := record_form s kind st unit index args
  rw [e]

/-! ## A stack that is lost (09 R243) -/

/-- The map without a stack: nothing is interleaved, the channels of the stack are out. -/
def Mem.without (m : Mem) (k : Fin 8) (y : Stack) : Mem :=
  { m with
    il := [], ilKept := [], mig := m.mig.filter fun g => stackOf g.chan != k
    migWait := m.migWait.filter fun g => stackOf g.chan != k
    stack := upd m.stack k { y with
      up := false, lost := true, trained := false, channels := 0, distRedo := false, distWait := false, granule := 0 }
    chan := vecOf 256 fun c => if stackOf c = k then (m.chan.get c).gone (m.outCause c) else m.chan.get c }

/-- The stack leaves the map, and the sweeps that had a part on it lose that part. -/
def stackOut (s : State) (k : Fin 8) (y : Stack) : State :=
  let hurt (g : SweepSeg) : SweepSeg := if g.stack = k then { g with lost := true } else g
  let cut (w : Sweep) : Sweep :=
    if w.parts.any (fun g => g.stack == k) then { w with bad := true, parts := w.parts.map hurt } else w
  { s with sweeps := s.sweeps.map cut }.setMem (s.mem.without k y).resized

theorem stackOut_mem (s : State) (k : Fin 8) (y : Stack) : (stackOut s k y).mem = (s.mem.without k y).resized := by
  rw [stackOut, State.setMem_mem]

/-- What is recorded of the loss, and what it lets go. -/
def afterLoss (s : State) (k : Fin 8) : State :=
  let s := loseMirror (memPartRecord s 4 k.val 2) k
  afterMigration (s.mem.migWait.length + s.mem.heldCtrl.length + 1) s

theorem doStackLost_eq {k : Fin 8} {s : State} (hup : (s.mem.stack.get k).up = true)
    (hl : (s.mem.stack.get k).lost = false) : doStackLost k s = afterLoss (stackOut (endReach (interruptStack
      (loseImages s k) k) (segsInStack s.mem k) .faulted .access) k (s.mem.stack.get k)) k := by
  unfold doStackLost
  rw [if_neg (by simp [hup, hl])]
  rfl

/-- With no migration that waits and no order held, the end of one lets the moves go alone. -/
theorem afterMigration_none {s : State} (hw : s.mem.migWait = []) (hh : s.mem.heldCtrl = []) (n : Nat) :
    afterMigration (n + 1) s = releaseMoves s := by
  unfold afterMigration
  rw [hw, hh, ite_self]

theorem mapKept_afterLoss {s : State} (hw : s.mem.migWait = []) (hh : s.mem.heldCtrl = []) (k : Fin 8) :
    MapKept s (afterLoss s k) := by
  have h : MapKept s (loseMirror (memPartRecord s 4 k.val 2) k) := MapKept.refl.memPartRecord.loseMirror
  unfold afterLoss
  dsimp only
  rw [afterMigration_none (h.keeps_mem_migWait.trans hw) (h.keeps_mem_heldCtrl.trans hh)]
  exact h.releaseMoves

/-- A stack that is lost leaves the map, whatever its work comes to. -/
theorem doStackLost_loses {k : Fin 8} {s : State} (hup : (s.mem.stack.get k).up = true)
    (hl : (s.mem.stack.get k).lost = false) (hw : s.mem.migWait = []) (hh : s.mem.heldCtrl = []) :
    ∃ u v, MapKept s u ∧ v.mem = (u.mem.without k (s.mem.stack.get k)).resized ∧ MapKept v (doStackLost k s) := by
  have hu : MapKept s (endReach (interruptStack (loseImages s k) k) (segsInStack s.mem k) .faulted .access) :=
    MapKept.refl.loseImages.interruptStack.endReach
  rw [doStackLost_eq hup hl]
  refine ⟨_, _, hu, stackOut_mem .., mapKept_afterLoss ?_ ?_ k⟩
  · rw [stackOut_mem]
    show List.filter _ _ = []
    rw [hu.keeps_mem_migWait, hw]
    rfl
  · have hheld (m : Mem) (x : Stack) : (m.without k x).resized.heldCtrl = m.heldCtrl := rfl
    rw [stackOut_mem, hheld, hu.keeps_mem_heldCtrl, hh]

/-- The size of an interleave over stacks with as many channels each (09 R232). -/
theorem ilSizeOf_even {m : Mem} {n : Nat} (hne : m.il ≠ []) (hn : ∀ k ∈ m.il, (m.stack.get k).channels = n) :
    ilSizeOf m = m.il.length * (n * 1536) := by
  obtain ⟨k, ks, hil⟩ := List.exists_cons_of_ne_nil hne
  rw [hil] at hn
  have hmib (j : Fin 8) (hj : j ∈ k :: ks) : aliasMib m j = n * 1536 := by rw [aliasMib, hn j hj]
  have hmin : ks.foldl (fun n j => min n (aliasMib m j)) (aliasMib m k) = n * 1536 :=
    List.foldlRecOn (motive := (· = n * 1536)) _ _ (hmib k List.mem_cons_self) fun x hx j hj => by
      rw [hx, hmib j (List.mem_cons_of_mem _ hj), min_self]
  unfold ilSizeOf
  rw [hil]
  simp only [hmin]

/-! ## The statement -/

/-- Settles O30: the work that a lost part ends leaves the memory map, which changes as the command says. -/
theorem stackLoss : Obligations.StackLoss := by
  unfold Obligations.StackLoss
  refine ⟨fun s hr hab ha hb hother hroom => ⟨_, rfl, ?mirror⟩, fun k i s => ⟨fun hup hl hw hh => ⟨_, rfl, ?lost⟩,
    fun hmig hil hphase hlost => ⟨_, rfl, ?rebuild⟩, fun hl => ⟨_, rfl, ?drop⟩, fun up => ⟨_, rfl, ?retrain⟩,
    fun hl => ⟨_, rfl, ?again⟩⟩⟩
  case mirror =>
    obtain ⟨k, hk, hne, hkl⟩ := otherStack_some hother
    rw [doMirrorRebuildComplete_moves hr ha hb hk, record_jrn]
    exact ⟨rfl, rfl, hne, hkl, record_faults_length (s := { s with jrn := { s.jrn with
      mirrorA := k, rebuilding := false } }) hroom ..⟩
  case lost =>
    obtain ⟨u, v, hu, hv, ht⟩ := doStackLost_loses hup hl hw hh
    have hstack : (doStackLost k s).mem.stack.get k = { s.mem.stack.get k with
        up := false, lost := true, trained := false, channels := 0, distRedo := false, distWait := false, granule := 0 } := by
      rw [ht.keeps_mem_stack, hv]
      exact get_upd_same ..
    refine ⟨by rw [hstack], by rw [hstack], ?_, ?_, ?_, fun c hc => ?_⟩
    · rw [ht.keeps_mem_il, hv]
      rfl
    · rw [ht.keeps_mem_ilMib, hv]
      rfl
    · rw [ht.keeps_mem_memGen, hv, ← hu.keeps_mem_memGen]
      rfl
    · rw [ht.keeps_mem_chan, hv]
      show ((vecOf 256 fun c => if stackOf c = k then (u.mem.chan.get c).gone (u.mem.outCause c) else u.mem.chan.get c).get
        c).st = _
      rw [get_vecOf, if_pos hc]
      rfl
  case rebuild =>
    obtain ⟨j, hj⟩ := hlost
    have hany : s.mem.stack.toList.any (·.lost) = true :=
      List.any_eq_true.mpr ⟨s.mem.stack.get j, by simp [Vector.get_eq_getElem], hj⟩
    have e : doRebuild s = s.setMem ({ s.mem with
        il := (List.finRange 8).filter fun k => (s.mem.stack.get k).up && !(s.mem.stack.get k).lost }.resized) := by
      unfold doRebuild rebuildNow
      rw [hmig]
      simp [hil, hany, hphase]
    rw [e]
    refine ⟨rfl, rfl, fun n hne hn => ?_⟩
    exact ilSizeOf_even hne hn
  case drop =>
    unfold doCxlLinkDrop
    dsimp only
    rw [if_neg hl, record_mem, State.setMem_mem, Mem.setFar, get_upd_same]
    exact ⟨rfl, rfl⟩
  case retrain =>
    unfold doCxlRetrain
    dsimp only
    split
    · rw [State.setMem_mem]
      exact ⟨rfl, get_upd_same ..⟩
    · exact ⟨rfl, rfl⟩
  case again =>
    unfold doFarReenable
    dsimp only
    rw [if_pos hl]
    exact ⟨rfl, get_upd_same ..⟩

end Sys2Proof.Machine
end

section
/-!
PROOFS. The dispatch of RMA work and the commit of the Twine group.
-/

namespace Sys2Proof.Machine

/-! ## Checks that an RMA fails (12 R322, 14 R381) -/

theorem walkFirst_keeps {α : Type} {f : State → α} (hf : OffWalk f) (s : State) (q : Fin 4096) (tw : Bool)
    (rs : List (Perm × Nat × Nat)) : f (walkFirst s q tw rs) = f s := by
  unfold walkFirst
  split
  · exact walkPage_keeps hf ..
  · rfl

/-- A descriptor that ends with a status, the strands and the bytes of memory as they were. -/
def EndsWith (q : Fin 4096) (d : Desc) (st : Status) (s t : State) : Prop :=
  t.twine = s.twine ∧ t.mem.cells = s.mem.cells ∧ (descOf t q d.seq).map (·.st) = some (.finished st {} 0 0 0)

/-- A descriptor that fails after look-ups ends with the status alone. -/
theorem failDesc_endsWith {s t : State} {q : Fin 4096} {d : Desc} (hd : d ∈ (s.q q).descs) (htw : t.twine = s.twine)
    (hc : t.mem.cells = s.mem.cells) (hq : t.queues = s.queues) (st : Status) :
    EndsWith q d st s (failDesc t q d.seq st) := by
  obtain ⟨e, he⟩ := descOf_of_mem hd
  have hstart {α : Type} {f : State → α} (h1 : ∀ s n x, f (State.setQ s n x) = f s)
      (h2 : ∀ s x, f (State.setPwr s x) = f s) : f (failDesc t q d.seq st) = f t :=
    (h1 _ _ _).trans (startDesc_keeps h1 h2 t q d.seq)
  exact ⟨(hstart (f := fun s => s.twine) (fun _ _ _ => rfl) fun _ _ => rfl).trans htw,
    (hstart (f := fun s => s.mem.cells) (fun _ _ _ => rfl) fun _ _ => rfl).trans hc,
    failDesc_finishes ((descOf_congr hq q d.seq).trans he) st⟩

/-! ## An RMA that dispatches -/

/-- The strand of an RMA. -/
def rmaStrand (d : Desc) : Fin 2048 := ⟨fieldAt d.raw 0x20 32 42 % 2048, Nat.mod_lt _ (by omega)⟩

section
variable {s : State} {q : Fin 4096} {d : Desc} {mine : Nat → Bool} (hd : mayDispatch s q 2 = some d)
  (hmine : mine (rmaRop d.raw) = true) (hform : rmaFormOk d.raw = true)
include hd hmine hform

theorem dispatchRma_refused (ho : strandOwned s q (rmaStrand d) = false) :
    EndsWith q d .refused s (dispatchRma q mine s) := by
  have e : dispatchRma q mine s = failDesc s q d.seq .refused := by
    unfold dispatchRma
    simp only [hd]
    rw [if_neg (by simp [hmine]), if_neg (by simp [hform]), if_pos (by simpa [rmaStrand] using ho)]
  rw [e]
  exact failDesc_endsWith (mem_of_mayDispatch hd) rfl rfl rfl _

theorem dispatchRma_owned (ho : strandOwned s q (rmaStrand d) = true) : dispatchRma q mine s =
    match rmaBody s q d (rmaStrand d) with
    | none => failDesc (walkFirst s q true (rmaRanges d.raw)) q d.seq .access
    | some r =>
      let x := s.strand (rmaStrand d)
      if x.st = .closed ∨ x.st = .lost ∨ r.d = 0 then failDesc s q d.seq .pathLost else
      let s := startDesc (walkSegs s (queueOwner q) (r.segs ++ r.resSegs)) q d.seq
      let s := { s with twine := { s.twine with rmas := s.twine.rmas ++ [r] } }
      s.setStrand (rmaStrand d) { x with txq := x.txq ++ (List.range r.frames).map fun i => .rma q d.seq i } := by
  unfold dispatchRma
  simp only [hd]
  rw [if_neg (by simp [hmine]), if_neg (by simp [hform]), if_neg (by simpa [rmaStrand] using ho)]
  rfl

theorem dispatchRma_access (ho : strandOwned s q (rmaStrand d) = true) (hb : rmaBody s q d (rmaStrand d) = none) :
    EndsWith q d .access s (dispatchRma q mine s) := by
  rw [dispatchRma_owned hd hmine hform ho, hb]
  exact failDesc_endsWith (mem_of_mayDispatch hd) (walkFirst_keeps offWalk_twine ..) (walkFirst_keeps offWalk_cells ..)
    (walkFirst_keeps offWalk_queues ..) _

theorem dispatchRma_pathLost (ho : strandOwned s q (rmaStrand d) = true) {r : Rma}
    (hb : rmaBody s q d (rmaStrand d) = some r)
    (hst : (s.strand (rmaStrand d)).st = .closed ∨ (s.strand (rmaStrand d)).st = .lost) :
    EndsWith q d .pathLost s (dispatchRma q mine s) := by
  rw [dispatchRma_owned hd hmine hform ho, hb]
  dsimp only
  rw [if_pos (or_assoc.mp (.inl hst))]
  exact failDesc_endsWith (mem_of_mayDispatch hd) rfl rfl rfl _

/-- An RMA on a strand that carries frames captures its ranges and queues its frames. -/
theorem dispatchRma_queues (ho : strandOwned s q (rmaStrand d) = true) {r : Rma}
    (hb : rmaBody s q d (rmaStrand d) = some r) (hc : (s.strand (rmaStrand d)).st ≠ .closed)
    (hl : (s.strand (rmaStrand d)).st ≠ .lost) (h0 : r.d ≠ 0) :
    (dispatchRma q mine s).twine.rmas = s.twine.rmas ++ [r] ∧ (dispatchRma q mine s).mem.cells = s.mem.cells ∧
      ((dispatchRma q mine s).strand (rmaStrand d)).txq =
        (s.strand (rmaStrand d)).txq ++ (List.range r.frames).map fun i => .rma q d.seq i := by
  have hstart {α : Type} {f : State → α} (h1 : ∀ s n x, f (State.setQ s n x) = f s)
      (h2 : ∀ s x, f (State.setPwr s x) = f s) (h3 : OffWalk f) :
      f (startDesc (walkSegs s (queueOwner q) (r.segs ++ r.resSegs)) q d.seq) = f s :=
    (startDesc_keeps h1 h2 _ q d.seq).trans (walkSegs_keeps h3 ..)
  rw [dispatchRma_owned hd hmine hform ho, hb]
  dsimp only
  rw [if_neg (by simp [hc, hl, h0]), State.setStrand_strand_same]
  refine ⟨?_, hstart (f := fun s => s.mem.cells) (fun _ _ _ => rfl) (fun _ _ => rfl) offWalk_cells, rfl⟩
  exact congrArg (·.rmas ++ [r]) (hstart (f := fun s => s.twine) (fun _ _ _ => rfl) (fun _ _ => rfl) offWalk_twine)

end

/-! ## The Twine group (14 R395) -/

theorem twineRanges_iff (c : Nat) : twineRanges c = true ↔ 1024 ≤ bitsOf c 0 16 ∧ 1 ≤ bitsOf c 16 10 ∧
    bitsOf c 16 10 ≤ 1000 ∧ 100 ≤ bitsOf c 32 16 ∧ bitsOf c 32 16 ≤ 60000 ∧ 1 ≤ bitsOf c 48 8 ∧ 10 ≤ bitsOf c 56 8 := by
  simp only [twineRanges, Bool.and_eq_true, decide_eq_true_eq, and_assoc]

theorem groupsOk_iff (g : Fin 8 → GroupAddr) : groupsOk g = true ↔
    ∀ i, ((g i).v4en = true → v4Ok (g i).v4 = true) ∧ ((g i).v6en = true → v6Ok (g i).v6 = true) ∧
      ∀ j, j ≠ i → ¬((g i).v4en = true ∧ (g j).v4en = true ∧ (g i).v4 = (g j).v4) ∧
        ¬((g i).v6en = true ∧ (g j).v6en = true ∧ (g i).v6 = (g j).v6) := by
  have himp (a b : Bool) : (!a || b) = true ↔ (a = true → b = true) := by cases a <;> simp
  have hne (i j : Fin 8) (b : Bool) : (j == i || b) = true ↔ (j ≠ i → b = true) := by
    rw [Bool.or_eq_true, beq_iff_eq, or_iff_not_imp_left]
  have hnot (a b : Bool) (x y : Nat) : (!(a && b && x == y)) = true ↔ ¬(a = true ∧ b = true ∧ x = y) := by
    simp only [Bool.not_eq_true', Bool.eq_false_iff, ne_eq, Bool.and_eq_true, beq_iff_eq, and_assoc]
  simp only [groupsOk, List.all_eq_true, List.mem_finRange, true_imp_iff, Bool.and_eq_true, himp, hne, hnot, and_assoc]

/-! ## The statement -/

/-- Settles O38: the four forms run one dispatch, which takes the branch of the strand; the commit of the Twine group takes
the words whose ranges it checks. -/
theorem rmaDispatch : Obligations.RmaDispatch := by
  unfold Obligations.RmaDispatch
  refine ⟨fun q d c s hd hform hc => ?rma, fun s => ?commit⟩
  case rma =>
    obtain ⟨mine, hmine, hexec⟩ : ∃ mine : Nat → Bool, mine (rmaRop d.raw) = true ∧
        exec c s = .next (dispatchRma q mine s) := by
      rcases hc with ⟨rfl, h⟩ | ⟨rfl, h⟩ | ⟨rfl, h⟩ | ⟨rfl, h⟩
      · exact ⟨fun r => r == 0 || decide (4 ≤ r), by simp [h], rfl⟩
      · exact ⟨(· == 1), by simp [h], rfl⟩
      · exact ⟨(· == 2), by simp [h], rfl⟩
      · exact ⟨(· == 3), by simp [h], rfl⟩
    exact ⟨fun ho => ⟨_, hexec, dispatchRma_refused hd hmine hform ho⟩, fun ho =>
      ⟨fun hb => ⟨_, hexec, dispatchRma_access hd hmine hform ho hb⟩, fun r hb =>
        ⟨fun hst => ⟨_, hexec, dispatchRma_pathLost hd hmine hform ho hb hst⟩, fun hcl hl h0 =>
          ⟨_, hexec, dispatchRma_queues hd hmine hform ho hb hcl hl h0⟩⟩⟩⟩
  case commit =>
    intro w c g good hst
    have hgood : (twineRanges c && groupsOk g) = true ↔ good := by
      rw [Bool.and_eq_true, twineRanges_iff, groupsOk_iff]
      simp only [good, and_assoc]
    by_cases h : good
    · refine ⟨_, congrArg Host.Outcome.next ((if_neg hst).trans (if_pos (hgood.mpr h))), rfl, rfl, fun _ =>
        ⟨rfl, rfl, rfl, rfl, rfl, rfl, fun i => get_vecOf ..⟩, fun hn => absurd h hn⟩
    · exact ⟨_, congrArg Host.Outcome.next ((if_neg hst).trans (if_neg (mt hgood.mp h))), rfl, rfl,
        fun hy => absurd hy h, fun _ => ⟨rfl, rfl, rfl⟩⟩

end Sys2Proof.Machine
end

section
/-!
PROOFS. What a strand sends, its timers and its acknowledgements (14; O40).
-/

namespace Sys2Proof.Machine

/-! ## What a frame is made of (14 R370, R372, R379) -/

/-- The parts of a strand that a frame on it reads. -/
def Strand.wire (x : Strand) : Strand := { x with txq := [], unacked := [], nextPsn := 0, ackDue := 0 }

/-- Two states of which a strand would put the same frames on the wire. -/
structure SameWire (n : Fin 2048) (s t : State) : Prop where
  strand : (t.strand n).wire = (s.strand n).wire
  eth : t.eth = s.eth
  sec : t.sec = s.sec
  now : t.now = s.now
  nonce : t.twine.nonce = s.twine.nonce
  groups : t.twine.groups = s.twine.groups

theorem Strand.wire_keeps {x y : Strand} (h : y.wire = x.wire) : y.cfg = x.cfg ∧ y.port = x.port ∧ y.path = x.path ∧
    y.txc = x.txc ∧ y.txPhase = x.txPhase ∧ y.rxC = x.rxC ∧ y.tsEcho = x.tsEcho ∧ y.tsAt = x.tsAt ∧ y.peerId = x.peerId ∧
    y.peerNonce = x.peerNonce ∧ y.epoch = x.epoch ∧ y.peerEpoch = x.peerEpoch :=
  ⟨(congrArg Strand.cfg h :), (congrArg Strand.port h :), (congrArg Strand.path h :), (congrArg Strand.txc h :),
    (congrArg Strand.txPhase h :), (congrArg Strand.rxC h :), (congrArg Strand.tsEcho h :), (congrArg Strand.tsAt h :),
    (congrArg Strand.peerId h :), (congrArg Strand.peerNonce h :), (congrArg Strand.epoch h :),
    (congrArg Strand.peerEpoch h :)⟩

section
variable {n : Fin 2048} {s t : State} (h : SameWire n s t)
include h

theorem SameWire.frameHdr (psn : Nat) (retx : Bool) (hd : Head) (len : Nat) :
    frameHdr t n psn retx hd len = frameHdr s n psn retx hd len := by
  obtain ⟨hcfg, -, -, htxc, hphase, hrxc, hecho, hat, -⟩ := Strand.wire_keeps h.strand
  simp only [Machine.frameHdr, Strand.echo, hcfg, htxc, hphase, hrxc, hecho, hat, h.now]

theorem SameWire.sendKey : sendKey t n = sendKey s n := by
  obtain ⟨hcfg, -, -, -, hphase, -, -, -, hid, hnonce, hep, hpep⟩ := Strand.wire_keeps h.strand
  simp only [Machine.sendKey, strandKey, strandSecret, hcfg, hphase, hid, hnonce, hep, hpep, h.sec, h.nonce]

theorem SameWire.sealed (ctrl : Bool) (hdr data : List Byte) : sealed_ t n ctrl hdr data = sealed_ s n ctrl hdr data := by
  obtain ⟨hcfg, hport, hpath, htxc, -⟩ := Strand.wire_keeps h.strand
  have hp : t.port (s.strand n).port = s.port (s.strand n).port := congrArg (fun e : Eth => e.ports.get (s.strand n).port) h.eth
  unfold sealed_ encap
  dsimp only
  rw [h.sendKey, hport, hp, hcfg, hpath, htxc, h.groups]

/-- A frame that goes out is the one that the first state would have put on the wire. -/
theorem SameWire.putFrame (psn : BitVec 32) (retx : Bool) (m : Msg) (hd : Head) (data : List Byte) :
    (putFrame t n psn retx m hd data).out =
      .frame (s.strand n).port n psn retx m data (Machine.frameHdr s n psn.toNat retx hd data.length)
        (sealed_ s n false (Machine.frameHdr s n psn.toNat retx hd data.length) data) :: t.out := by
  obtain ⟨-, hport, -⟩ := Strand.wire_keeps h.strand
  unfold Machine.putFrame
  simp only [h.frameHdr, h.sealed, hport]
  rfl

end

/-- What a frame that goes out changes of its strand. -/
theorem putFrame_strand (s : State) (n : Fin 2048) (psn : BitVec 32) (retx : Bool) (m : Msg) (hd : Head) (data : List Byte) :
    ∃ c a, (putFrame s n psn retx m hd data).strand n = { s.strand n with txc := c, ackDue := a } :=
  ⟨_, _, State.setStrand_strand_same ..⟩

/-! ## Frames sent again (14 R387) -/

theorem maySend_of_serves {s : State} (h : mgmtOnly s = false) (m : Msg) : maySend s m = true := by simp [maySend, h]

/-- A frame of the strand is marked as sent again. -/
def sentAgain (s : State) (n : Fin 2048) (f : TxFrame) : State :=
  let sent (g : TxFrame) : TxFrame := if g = f then { g with again := false, retx := true, sent := s.now } else g
  let s := s.setStrand n { s.strand n with unacked := (s.strand n).unacked.map sent }
  { s with twine := { s.twine with retx := satAdd 24 s.twine.retx } }

theorem sentAgain_strand (s : State) (n : Fin 2048) (f : TxFrame) : ∃ l, l.length = (s.strand n).unacked.length ∧
    (sentAgain s n f).strand n = { s.strand n with unacked := l } :=
  ⟨_, List.length_map .., State.setStrand_strand_same ..⟩

theorem sameWire_sentAgain (s : State) (n : Fin 2048) (f : TxFrame) : SameWire n s (sentAgain s n f) := by
  obtain ⟨l, -, e⟩ := sentAgain_strand s n f
  exact ⟨by rw [e]; rfl, rfl, rfl, rfl, rfl, rfl⟩

theorem doFrameTransmit_repeats {s : State} {n : Fin 2048} {f : TxFrame} {fs : List TxFrame}
    (hs : canSend s (s.strand n) = true) (hm : mgmtOnly s = false) (ho : (s.strand n).st = .opened ∨ (s.strand n).st = .stalled)
    (hr : (s.strand n).repeats = f :: fs) :
    doFrameTransmit n s = putFrame (sentAgain s n f) n f.psn true f.msg f.head f.data := by
  unfold doFrameTransmit
  dsimp only
  rw [if_neg (by simpa [hs, or_iff_not_imp_left] using ho), hr,
    List.find?_cons_of_pos (p := fun f : TxFrame => maySend s f.msg) (maySend_of_serves hm _)]
  rfl

/-! ## New frames (14 R390) -/

theorem doFrameTransmit_new {s : State} {n : Fin 2048} (hs : canSend s (s.strand n) = true) (ho : (s.strand n).st = .opened)
    (hr : (s.strand n).repeats = []) (hu : (s.strand n).unacked.length < 1024)
    (hm : (((s.strand n).sendable s).txq.head?.all (mayFrame s)) = true) :
    doFrameTransmit n s = sendHead (s.setStrand n ((s.strand n).sendable s)) n := by
  unfold doFrameTransmit
  dsimp only
  rw [if_neg (by simp [hs, ho]), hr, List.find?_nil]
  dsimp only
  rw [if_neg (by simp [ho, hm, hu])]

theorem Strand.sendable_eq (x : Strand) (s : State) : ∃ l, x.sendable s = { x with txq := l } := by
  unfold Strand.sendable
  split
  · exact ⟨_, rfl⟩
  · exact ⟨_, rfl⟩

/-- A new frame takes the next PSN and is kept until it is acknowledged. -/
theorem sendNew_strand (s : State) (n : Fin 2048) (m : Msg) (data : List Byte) (size : Nat) :
    ((sendNew s n m data size).strand n).txq = (s.strand n).txq.tail ∧
      ((sendNew s n m data size).strand n).nextPsn = (s.strand n).nextPsn + 1 ∧
      ((sendNew s n m data size).strand n).unacked.length = (s.strand n).unacked.length + 1 := by
  unfold sendNew
  dsimp only
  obtain ⟨c, a, e⟩ := putFrame_strand (s.setStrand n { s.strand n with
    nextPsn := (s.strand n).nextPsn + 1, txq := (s.strand n).txq.tail, unacked := (s.strand n).unacked ++
      [{ psn := (s.strand n).nextPsn, msg := m, head := msgHead s m, data, size, sent := s.now }] }) n (s.strand n).nextPsn
    false m (msgHead s m) data
  rw [e, State.setStrand_strand_same]
  exact ⟨rfl, rfl, List.length_append⟩

theorem sendNew_out {s t : State} {n : Fin 2048} (h : SameWire n s t) (m : Msg) (data : List Byte) (size : Nat) :
    (sendNew t n m data size).out = .frame (s.strand n).port n (t.strand n).nextPsn false m data
      (frameHdr s n (t.strand n).nextPsn.toNat false (msgHead t m) data.length)
      (sealed_ s n false (frameHdr s n (t.strand n).nextPsn.toNat false (msgHead t m) data.length) data) :: t.out := by
  unfold sendNew
  dsimp only
  refine SameWire.putFrame (s := s) (t := t.setStrand n { t.strand n with
    nextPsn := (t.strand n).nextPsn + 1, txq := (t.strand n).txq.tail, unacked := (t.strand n).unacked ++
      [{ psn := (t.strand n).nextPsn, msg := m, head := msgHead t m, data, size, sent := t.now }] })
    ⟨?_, h.eth, h.sec, h.now, h.nonce, h.groups⟩ ..
  rw [State.setStrand_strand_same]
  exact h.strand

/-- What a strand's queue reordered changes of the state is the order alone. -/
theorem sameWire_setTxq (s : State) (n : Fin 2048) (l : List Msg) :
    SameWire n s (s.setStrand n { s.strand n with txq := l }) :=
  ⟨by rw [State.setStrand_strand_same]; rfl, rfl, rfl, rfl, rfl, rfl⟩

theorem SameWire.trans {n : Fin 2048} {s t u : State} (h : SameWire n s t) (h' : SameWire n t u) : SameWire n s u :=
  ⟨h'.strand.trans h.strand, h'.eth.trans h.eth, h'.sec.trans h.sec, h'.now.trans h.now, h'.nonce.trans h.nonce,
    h'.groups.trans h.groups⟩

/-- A message that carries no memory goes out as soon as the window has room for it. -/
theorem sendHead_plain {s : State} {n : Fin 2048} {m : Msg} {rest : List Msg} (hq : (s.strand n).txq = m :: rest)
    (hm : ∀ q seq i, m ≠ .rma q seq i)
    (hroom : (s.strand n).flight + overhead s (s.strand n) + (msgData m).length ≤ (s.strand n).window) :
    sendHead s n = sendNew s n m (msgData m) (overhead s (s.strand n) + (msgData m).length) := by
  unfold sendHead
  dsimp only
  rw [hq]
  cases m with
  | rma q seq i => exact absurd rfl (hm q seq i)
  | _ => exact if_pos (decide_eq_true hroom)

/-- The state in which the bytes of a frame of an RMA have been read. -/
def rmaTouched (s : State) (r : Rma) (i : Nat) : State :=
  if r.rop = 2 then s else touchSegs s r.segs (r.base + i * r.d) (r.size i) false

/-- The responses that an RMA waits for after its frame `i` has gone. -/
def Rma.wants (r : Rma) (psn : BitVec 32) (i : Nat) (all : Rma) : Rma :=
  { all with resp := if (r.rop = 2 ∨ r.fetch = true) ∧ r.size i ≠ 0 then all.resp ++ [(psn, i, all.size i)] else all.resp }

theorem sendHead_rma {s : State} {n : Fin 2048} {q : Fin 4096} {seq i : Nat} {rest : List Msg} {r : Rma} {data : List Byte}
    (hq : (s.strand n).txq = .rma q seq i :: rest) (hr : rmaOf s q seq = some r) (hk : keyWaits s r = false)
    (hd : rmaData (rmaTouched s r i) r i = .ok data)
    (hroom : (s.strand n).flight + overhead s (s.strand n) + data.length ≤ (s.strand n).window) :
    ∃ size, sendHead s n =
      sendNew (setRma (rmaTouched s r i) q seq (r.wants (s.strand n).nextPsn i)) n (.rma q seq i) data size := by
  unfold sendHead
  unfold rmaTouched at hd ⊢
  simp only [hq, hr]
  rw [if_neg (by simp [hk])]
  rw [hd]
  dsimp only
  rw [if_neg (by simpa using hroom)]
  exact ⟨_, rfl⟩

theorem rmaTouched_keeps {α : Type} {f : State → α} (hf : OffReel f) (s : State) (r : Rma) (i : Nat) :
    f (rmaTouched s r i) = f s := by
  unfold rmaTouched
  split
  · rfl
  · exact touchSegs_keeps hf ..

theorem sameWire_rmaTouched (s : State) (n : Fin 2048) (r : Rma) (i : Nat) : SameWire n s (rmaTouched s r i) := by
  have htwine := rmaTouched_keeps offWalk_twine.toOffReel s r i
  refine ⟨?_, rmaTouched_keeps offWalk_eth.toOffReel s r i, rmaTouched_keeps offWalk_sec.toOffReel s r i,
    rmaTouched_keeps offWalk_now.toOffReel s r i, congrArg Twine.nonce htwine, congrArg Twine.groups htwine⟩
  exact congrArg (fun t : Twine => (t.strands.get n).wire) htwine

theorem sameWire_setRma (s : State) (n : Fin 2048) (q : Fin 4096) (seq : Nat) (f : Rma → Rma) :
    SameWire n s (setRma s q seq f) := ⟨rfl, rfl, rfl, rfl, rfl, rfl⟩

/-- An RMA changed under its number. -/
theorem rmaOf_setRma {s : State} {q : Fin 4096} {seq : Nat} {f : Rma → Rma}
    (hf : ∀ r, (f r).queue = r.queue ∧ (f r).seq = r.seq) : rmaOf (setRma s q seq f) q seq = (rmaOf s q seq).map f := by
  have hkey (r : Rma) : (decide ((if r.queue = q ∧ r.seq = seq then f r else r).queue = q ∧
      (if r.queue = q ∧ r.seq = seq then f r else r).seq = seq)) = decide (r.queue = q ∧ r.seq = seq) := by
    split <;> simp [hf]
  unfold rmaOf setRma
  dsimp only
  rw [List.find?_map]
  simp only [Function.comp_def, hkey]
  cases hr : s.twine.rmas.find? fun r => decide (r.queue = q ∧ r.seq = seq) with
  | none => rfl
  | some r =>
    have := List.find?_some hr
    simp only [decide_eq_true_eq] at this
    simp [this]

/-- What a frame takes of its RMA does not change while responses are counted. -/
theorem msgHead_wants {s t : State} {q : Fin 4096} {seq i : Nat} {r : Rma} {psn : BitVec 32} {j : Nat}
    (hs : rmaOf s q seq = some r) (ht : rmaOf t q seq = some (r.wants psn j r)) :
    msgHead t (.rma q seq i) = msgHead s (.rma q seq i) := by
  simp only [msgHead, hs, ht]
  rfl

section
variable {s : State} {n : Fin 2048}

/-- The frame of an RMA at the head of a strand's queue goes out with its bytes. -/
theorem doFrameTransmit_rma {q : Fin 4096} {seq i : Nat} {rest : List Msg} {r : Rma} {data : List Byte}
    (hs : canSend s (s.strand n) = true) (ho : (s.strand n).st = .opened) (hrep : (s.strand n).repeats = [])
    (hu : (s.strand n).unacked.length < 1024) (hq : ((s.strand n).sendable s).txq = .rma q seq i :: rest)
    (hm : mayFrame s (.rma q seq i) = true) (hr : rmaOf s q seq = some r) (hk : keyWaits s r = false)
    (hd : rmaData (rmaTouched (s.setStrand n ((s.strand n).sendable s)) r i) r i = .ok data)
    (hroom : (s.strand n).flight + overhead s (s.strand n) + data.length ≤ (s.strand n).window) :
    let t := doFrameTransmit n s
    let hdr := frameHdr s n (s.strand n).nextPsn.toNat false (msgHead s (.rma q seq i)) data.length
    t.out = .frame (s.strand n).port n (s.strand n).nextPsn false (.rma q seq i) data hdr (sealed_ s n false hdr data) ::
        s.out ∧ (t.strand n).txq = rest ∧ (t.strand n).nextPsn = (s.strand n).nextPsn + 1 ∧
      (t.strand n).unacked.length = (s.strand n).unacked.length + 1 := by
  obtain ⟨l, hl⟩ := Strand.sendable_eq (s.strand n) s
  rw [hl] at hq hd
  obtain ⟨u, hu'⟩ : ∃ u, u = s.setStrand n { s.strand n with txq := l } := ⟨_, rfl⟩
  have hstrand : u.strand n = { s.strand n with txq := l } := by rw [hu', State.setStrand_strand_same]
  have hkey : keyWaits u r = false := by
    have hcap : (u.strand r.strand).capturesTransit = (s.strand r.strand).capturesTransit := by
      by_cases e : r.strand = n
      · rw [e, hstrand]
        rfl
      · rw [hu', State.setStrand_strand_ne _ _ _ _ e]
    unfold keyWaits at hk ⊢
    rw [hcap, hu']
    exact hk
  obtain ⟨size, hsend⟩ := sendHead_rma (s := u) (by rw [hstrand]; exact hq) (by rw [hu']; exact hr) hkey (hu' ▸ hd)
    (by rw [hstrand, hu']; exact hroom)
  have e : doFrameTransmit n s = sendNew (setRma (rmaTouched u r i) q seq (r.wants (u.strand n).nextPsn i)) n
      (.rma q seq i) data size := by
    rw [doFrameTransmit_new hs ho hrep hu (by rw [hl]; simp [show l = _ from hq, hm]), hl, ← hu', hsend]
  have htwine := rmaTouched_keeps offWalk_twine.toOffReel u r i
  have hout : (rmaTouched u r i).out = s.out := (rmaTouched_keeps offWalk_out.toOffReel u r i).trans (by rw [hu']; rfl)
  have hwire := ((hu' ▸ sameWire_setTxq s n l : SameWire n s u).trans (sameWire_rmaTouched u n r i)).trans
    (sameWire_setRma _ n q seq (r.wants (u.strand n).nextPsn i))
  have hthere : (setRma (rmaTouched u r i) q seq (r.wants (u.strand n).nextPsn i)).strand n = { s.strand n with txq := l } :=
    (congrArg (fun t : Twine => t.strands.get n) htwine).trans hstrand
  have hhead : msgHead (setRma (rmaTouched u r i) q seq (r.wants (u.strand n).nextPsn i)) (.rma q seq i) =
      msgHead s (.rma q seq i) := by
    have h1 := rmaOf_setRma (s := rmaTouched u r i) (q := q) (seq := seq) (f := r.wants (u.strand n).nextPsn i)
      fun _ => ⟨rfl, rfl⟩
    refine msgHead_wants (psn := (u.strand n).nextPsn) (j := i) hr (h1.trans ?_)
    rw [show rmaOf (rmaTouched u r i) q seq = rmaOf s q seq by unfold rmaOf; rw [htwine, hu']; rfl, hr]
    rfl
  obtain ⟨h1, h2, h3⟩ := sendNew_strand (setRma (rmaTouched u r i) q seq (r.wants (u.strand n).nextPsn i)) n
    (.rma q seq i) data size
  have h4 := sendNew_out hwire (.rma q seq i) data size
  rw [hthere] at h1 h2 h3 h4
  rw [hhead] at h4
  rw [e]
  refine ⟨h4.trans ?_, h1.trans (congrArg List.tail hq), h2, h3⟩
  exact congrArg _ hout

/-- A NOTIFY at the head of a strand's queue goes out. -/
theorem doFrameTransmit_notify {kind q r : Nat} {body : List Byte} {rest : List Msg}
    (hs : canSend s (s.strand n) = true) (hm : mgmtOnly s = false) (ho : (s.strand n).st = .opened)
    (hrep : (s.strand n).repeats = []) (hu : (s.strand n).unacked.length < 1024)
    (hq : ((s.strand n).sendable s).txq = .notify kind q r body :: rest)
    (hroom : (s.strand n).flight + overhead s (s.strand n) + (msgData (.notify kind q r body)).length ≤ (s.strand n).window) :
    let t := doFrameTransmit n s
    let data := msgData (.notify kind q r body)
    let hdr := frameHdr s n (s.strand n).nextPsn.toNat false { type := 0x13 } data.length
    t.out = .frame (s.strand n).port n (s.strand n).nextPsn false (.notify kind q r body) data hdr
        (sealed_ s n false hdr data) :: s.out ∧ (t.strand n).txq = rest ∧
      (t.strand n).nextPsn = (s.strand n).nextPsn + 1 := by
  obtain ⟨l, hl⟩ := Strand.sendable_eq (s.strand n) s
  rw [hl] at hq
  obtain ⟨u, hu'⟩ : ∃ u, u = s.setStrand n { s.strand n with txq := l } := ⟨_, rfl⟩
  have hstrand : u.strand n = { s.strand n with txq := l } := by rw [hu', State.setStrand_strand_same]
  have hwire : SameWire n s u := hu' ▸ sameWire_setTxq s n l
  have e : doFrameTransmit n s = sendNew u n (.notify kind q r body) (msgData (.notify kind q r body))
      (overhead u (u.strand n) + (msgData (.notify kind q r body)).length) := by
    rw [doFrameTransmit_new hs ho hrep hu (by rw [hl]; simp [show l = _ from hq, mayFrame, maySend_of_serves hm]), hl, ← hu']
    exact sendHead_plain (by rw [hstrand]; exact hq) (by simp) (by rw [hstrand, hu']; exact hroom)
  obtain ⟨h1, h2, -⟩ := sendNew_strand u n (.notify kind q r body) (msgData (.notify kind q r body))
    (overhead u (u.strand n) + (msgData (.notify kind q r body)).length)
  have h4 := sendNew_out hwire (.notify kind q r body) (msgData (.notify kind q r body))
    (overhead u (u.strand n) + (msgData (.notify kind q r body)).length)
  have hout : u.out = s.out := by rw [hu']; rfl
  rw [← e, hstrand] at h1 h2 h4
  rw [hout] at h4
  exact ⟨h4, h1.trans (congrArg List.tail hq), h2⟩

end

/-! ## Timeouts (14 R387, R393) -/

/-- What a strand keeps when its path and its measurements change. -/
def Strand.offPath (x : Strand) : Strand :=
  { x with port := 0, path := 0, srtt := none, rttvar := 0, samples := [], cut := none, window := 0, pathExp := 0,
           rechoose := false }

theorem Strand.choose_offPath (x : Strand) (s : State) (n : Fin 2048) : (x.choose s n).offPath = x.offPath := by
  unfold Strand.choose
  repeat' split
  all_goals rfl

theorem Strand.choose_settled {x : Strand} (h : x.rechoose = false) (s : State) (n : Fin 2048) : x.choose s n = x := by
  simp [Strand.choose, h]

/-- A strand on another path after three timeouts (14 R387). -/
def Strand.moved (x : Strand) (ps : List (Fin 32)) (n : Fin 2048) : Strand :=
  if 3 ≤ x.pathExp then
    match choosePort ps n (x.path + 1) with
    | some p => x.onPath p (x.path + 1)
    | none => { x with path := x.path + 1, pathExp := 0 }
  else x

theorem Strand.moved_offPath (x : Strand) (ps : List (Fin 32)) (n : Fin 2048) : (x.moved ps n).offPath = x.offPath := by
  unfold Strand.moved
  repeat' split
  all_goals rfl

theorem Strand.moved_stays {x : Strand} (h : x.pathExp < 3) (ps : List (Fin 32)) (n : Fin 2048) : x.moved ps n = x :=
  if_neg (by omega)

/-- The strand whose retransmission timer has run out. -/
def Strand.timedOut (x : Strand) (s : State) : Strand :=
  { x with backoff := x.backoff + 1, pathExp := x.pathExp + 1, expired := x.port :: x.expired, window := mtu s x }

/-- What becomes of the frames of a strand whose timer has run out. -/
def Strand.resends (x : Strand) (ps : List (Fin 32)) : Strand :=
  if x.usable ps = true then ({ x with st := .opened }).again else ({ x with st := .stalled }).probe

theorem doRetransmitTimeout_strand {s : State} {n : Fin 2048} (hu : (s.strand n).unacked ≠ [])
    (ho : (s.strand n).st = .opened) :
    let ps := joinedPorts s (s.strand n).cfg.group
    (doRetransmitTimeout n s).strand n = ((((s.strand n).timedOut s).choose s n).moved ps n).resends ps := by
  have hst : ((((s.strand n).timedOut s).choose s n).moved (joinedPorts s (s.strand n).cfg.group) n).st = .opened :=
    ((congrArg Strand.st ((Strand.moved_offPath ..).trans (Strand.choose_offPath ..)) :)).trans ho
  unfold doRetransmitTimeout
  dsimp only
  rw [if_neg (by simp [hu, ho]), State.setStrand_strand_same, Strand.resends]
  change ite _ _ _ = _
  have hfold : ∀ y : Strand, y.st = .opened → ∀ ps,
      (if { y with st := if y.usable ps then y.st else .stalled }.st = .stalled then
        { y with st := if y.usable ps then y.st else .stalled }.probe
      else { y with st := if y.usable ps then y.st else .stalled }.again) =
      if y.usable ps = true then ({ y with st := .opened }).again else ({ y with st := .stalled }).probe := by
    intro y hy ps
    by_cases h : y.usable ps = true <;> simp [h, hy]
  exact hfold _ hst _

theorem Strand.resends_opens {x : Strand} {ps : List (Fin 32)} (h : x.usable ps = true) :
    x.resends ps = ({ x with st := .opened }).again := if_pos h

theorem Strand.resends_stalls {x : Strand} {ps : List (Fin 32)} (h : x.usable ps = false) :
    x.resends ps = ({ x with st := .stalled }).probe := if_neg (by simp [h])

theorem Strand.resends_keeps (x : Strand) (ps : List (Fin 32)) :
    (x.resends ps).usable ps = x.usable ps ∧ (x.resends ps).backoff = x.backoff ∧ (x.resends ps).window = x.window ∧
      (x.resends ps).pathExp = x.pathExp := by
  unfold Strand.resends
  split <;> exact ⟨rfl, rfl, rfl, rfl⟩

theorem Strand.resends_st (x : Strand) (ps : List (Fin 32)) :
    (x.resends ps).st = if (x.resends ps).usable ps = true then .opened else .stalled := by
  rw [(x.resends_keeps ps).1]
  unfold Strand.resends
  split <;> rfl

theorem Strand.resends_all {x : Strand} {ps : List (Fin 32)} (h : (x.resends ps).st = .opened) :
    ∀ f ∈ (x.resends ps).unacked, f.again = true := by
  cases hu : x.usable ps with
  | true =>
    rw [Strand.resends_opens hu]
    simp [Strand.again]
  | false =>
    rw [Strand.resends_stalls hu] at h
    exact nomatch h

theorem Strand.resends_oldest {x : Strand} {ps : List (Fin 32)} (h : (x.resends ps).st = .stalled) :
    (x.resends ps).unacked = x.probe.unacked := by
  cases hu : x.usable ps with
  | true =>
    rw [Strand.resends_opens hu] at h
    exact nomatch h
  | false => rw [Strand.resends_stalls hu]; rfl

theorem Strand.probe_unacked_congr {x y : Strand} (h : y.unacked = x.unacked) : y.probe.unacked = x.probe.unacked := by
  simp only [Strand.probe, h]

/-! ## Acknowledgements sent (14 R386) -/

theorem sendAck_sends {s : State} {n : Fin 2048} (hj : (s.port (s.strand n).port).joined = true)
    (hc : ctrlSends s (s.strand n).port = true) :
    let x := s.strand n
    let bits := x.rxBits.map fun p => (p - x.rxC - 1).toNat
    let sts := x.rxSt.take 16
    let hdr := frameHdr s n 0 false { type := 0x10 } (128 + 8 * sts.length)
    sendAck s n [] = (s.setStrand n { x with txc := x.txc + 1, ackDue := 0 }).say (.ack x.port n x.rxC bits sts hdr
      (sealed_ s n true hdr (ackData bits sts))) := by
  unfold sendAck
  dsimp only
  rw [if_neg (by simp [hj]), if_neg (by simp [hc])]
  simp

theorem sendAck_waits {s : State} {n : Fin 2048} (hj : (s.port (s.strand n).port).joined = true)
    (hc : ctrlSends s (s.strand n).port = false) :
    sendAck s n [] = s.setStrand n { s.strand n with ackDue := max 1 (s.strand n).ackDue } := by
  unfold sendAck
  dsimp only
  rw [if_neg (by simp [hj]), if_pos (by simp [hc])]

/-! ## Acknowledgements received (14 R386) -/

/-- The PSNs that a strand waits to see acknowledged. -/
def Strand.pending (x : Strand) : List (BitVec 32) := x.unacked.map (·.psn)

theorem Strand.pending_of_offPath {x y : Strand} (h : y.offPath = x.offPath) : y.pending = x.pending :=
  congrArg (·.map (·.psn)) (congrArg Strand.unacked h :)

theorem Strand.choose_pending (x : Strand) (s : State) (n : Fin 2048) : (x.choose s n).pending = x.pending :=
  Strand.pending_of_offPath (x.choose_offPath s n)

theorem Strand.sample_offPath (x : Strand) (now r : Nat) : (x.sample now r).offPath = x.offPath := by
  unfold Strand.sample
  dsimp only
  split <;> rfl

theorem Strand.adjust_offPath (x : Strand) (s : State) (r k : Nat) : (x.adjust s r k).offPath = x.offPath := by
  unfold Strand.adjust
  dsimp only
  repeat' split
  all_goals rfl

theorem Strand.fast_pending (x : Strand) (s : State) (n : Fin 2048) (psn : BitVec 32) (bits : List (Fin 1024)) :
    (x.fast s n psn bits).pending = x.pending := by
  have hmap (p : TxFrame → Bool) (l : List TxFrame) :
      (l.map fun f => if p f then { f with again := true } else f).map (·.psn) = l.map (·.psn) := by
    rw [List.map_map]
    refine List.map_congr_left fun f _ => ?_
    simp only [Function.comp_apply]
    split <;> rfl
  unfold Strand.fast
  dsimp only
  split
  · rfl
  split
  · exact (Strand.choose_pending ..).trans (hmap _ _)
  · exact hmap _ _

/-- What a sample of the round trip time changes of a strand. -/
def Strand.measured (x : Strand) (s : State) (n : Fin 2048) (newest : Option TxFrame) (echo : Option (BitVec 32))
    (bytes : Nat) : Strand :=
  match newest, echo with
  | some f, some e =>
    if f.retx ∨ e = 0 then x
    else
      let r := (BitVec.ofNat 32 s.now - e).toNat
      (((x.sample s.now r).adjust s r bytes).choose s n)
  | _, _ => x

theorem Strand.measured_pending (x : Strand) (s : State) (n : Fin 2048) (newest : Option TxFrame)
    (echo : Option (BitVec 32)) (bytes : Nat) : (x.measured s n newest echo bytes).pending = x.pending := by
  unfold Strand.measured
  split
  · split
    · rfl
    · exact Strand.pending_of_offPath (((Strand.choose_offPath ..).trans (Strand.adjust_offPath ..)).trans
        (Strand.sample_offPath ..))
  · rfl

/-- The strand without what an ACK covers. -/
def Strand.relieved (x : Strand) (psn : BitVec 32) (bits : List (Fin 1024)) : Strand :=
  let done := x.unacked.filter fun f => covers psn bits f.psn
  let x := { x with unacked := x.unacked.filter fun f => !covers psn bits f.psn }
  if done = [] then x else
    { x with backoff := 0, pathExp := 0, expired := [], st := if x.st = .stalled then .opened else x.st }

theorem Strand.relieved_pending (x : Strand) (psn : BitVec 32) (bits : List (Fin 1024)) :
    (x.relieved psn bits).pending = (x.unacked.filter fun f => !covers psn bits f.psn).map (·.psn) := by
  unfold Strand.relieved
  dsimp only
  split <;> rfl

theorem tellRma_strand (sts : List (BitVec 32 × BitVec 8)) (s : State) (f : TxFrame) (n : Fin 2048) :
    (tellRma sts s f).strand n = s.strand n := by
  unfold tellRma
  split <;> rfl

theorem settleRmas_strand (s : State) (n : Fin 2048) : (settleRmas s).strand n = s.strand n :=
  foldl_keeps (f := (·.strand n)) (fun u r => endRma u r r.st)
    (fun u r => (congrArg (fun t : Twine => t.strands.get n) (endRma_twine u r r.st) :)) _ s

theorem takeAck_eq (s : State) (n : Fin 2048) (psn : BitVec 32) (bits : List (Fin 1024))
    (sts : List (BitVec 32 × BitVec 8)) (echo : Option (BitVec 32)) :
    let done := (s.strand n).unacked.filter fun f => covers psn bits f.psn
    takeAck s n psn bits sts echo = settleRmas (done.foldl (tellRma sts) (s.setStrand n
      ((((s.strand n).relieved psn bits).measured s n done.getLast? echo
        ((done.map fun (f : TxFrame) => f.size).sum)).fast s n psn bits))) := rfl

theorem takeAck_pending (s : State) (n : Fin 2048) (psn : BitVec 32) (bits : List (Fin 1024))
    (sts : List (BitVec 32 × BitVec 8)) (echo : Option (BitVec 32)) :
    ((takeAck s n psn bits sts echo).strand n).pending =
      ((s.strand n).unacked.filter fun f => !covers psn bits f.psn).map (·.psn) := by
  rw [takeAck_eq, settleRmas_strand, foldl_keeps (f := (·.strand n)) (tellRma sts) (fun u f => tellRma_strand sts u f n),
    State.setStrand_strand_same, Strand.fast_pending, Strand.measured_pending, Strand.relieved_pending]

theorem Strand.phased_unacked (x : Strand) (s : State) (k : Bool) : (x.phased s k).unacked = x.unacked := by
  unfold Strand.phased
  dsimp only
  repeat' split
  all_goals rfl

theorem admitFrame_unacked {s : State} {h : FrameHdr} {len : Nat} {y : Strand} (hy : admitFrame s h len = some y) :
    y.unacked = (s.strand h.strand).unacked := by
  unfold admitFrame at hy
  dsimp only at hy
  split at hy
  · exact nomatch hy
  split at hy
  · cases hy
    exact Strand.phased_unacked ..
  · exact nomatch hy

theorem doAck_pending {s : State} {h : FrameHdr} {bits : List (Fin 1024)} {sts : List (BitVec 32 × BitVec 8)} {y : Strand}
    (hf : frameHere s h (128 + 8 * sts.length) = true) (hn : noRoom s h.port (frameBytes h (128 + 8 * sts.length)) = false)
    (hp : s.pwr.pstate ≠ .p3) (hy : admitFrame s h (128 + 8 * sts.length) = some y) :
    ((doAck h bits sts s).strand h.strand).pending =
      ((s.strand h.strand).unacked.filter fun f => !covers h.ackPsn bits f.psn).map (·.psn) := by
  unfold doAck
  dsimp only
  rw [if_neg (by simp [hf]), if_neg (by simp [hn]), if_neg hp, hy]
  dsimp only
  rw [takeAck_pending, State.setStrand_strand_same, admitFrame_unacked hy]

/-! ## The statement -/

/-- Settles O40: each clause by the lemma about its command above. -/
theorem strandSending : Obligations.StrandSending := by
  intro n p s x y s'
  refine ⟨fun hs hm ho => ⟨fun f fs hr => ?_, fun ho hrep hu => ⟨?_, ?_⟩⟩, fun hu ho => ?_, fun ha hj => ⟨?_, ?_⟩,
    fun h bits sts y hn hf hr hp hy => ?_, fun h => ?_, rfl, fun hf hg => ?_⟩
  · refine ⟨_, rfl, ?_⟩
    obtain ⟨l, hl, e⟩ := sentAgain_strand s n f
    rw [doFrameTransmit_repeats hs hm ho hr]
    refine ⟨(sameWire_sentAgain s n f).putFrame .., rfl, ?_⟩
    obtain ⟨c, a, e'⟩ := putFrame_strand (sentAgain s n f) n f.psn true f.msg f.head f.data
    rw [e', e]
    exact hl
  · intro q seq i rest r data hq hmay hr hk hd hroom
    exact ⟨_, rfl, doFrameTransmit_rma hs ho hrep hu hq hmay hr hk hd hroom⟩
  · intro kind q res body rest hq data hdr hroom
    exact ⟨_, rfl, doFrameTransmit_notify hs hm ho hrep hu hq hroom⟩
  · obtain ⟨z, hz⟩ : ∃ z, z = ((x.timedOut s).choose s n).moved (joinedPorts s x.cfg.group) n := ⟨_, rfl⟩
    have hsame : z.offPath = (x.timedOut s).offPath := hz ▸ (Strand.moved_offPath ..).trans (Strand.choose_offPath ..)
    obtain ⟨-, hback, hwin, hexp⟩ := z.resends_keeps (joinedPorts s x.cfg.group)
    refine ⟨_, rfl, ?_⟩
    rw [doRetransmitTimeout_strand hu ho, ← hz]
    refine ⟨Strand.resends_st .., Strand.resends_all, fun h => ?_, hback.trans (congrArg Strand.backoff hsame :),
      fun he hr => ?_⟩
    · exact (Strand.resends_oldest h).trans (Strand.probe_unacked_congr (congrArg Strand.unacked hsame :))
    · have e : z = x.timedOut s := by
        rw [hz, Strand.choose_settled (x := x.timedOut s) hr, Strand.moved_stays (show x.pathExp + 1 < 3 by omega)]
      rw [hwin, hexp, e]
      exact ⟨rfl, rfl⟩
  · intro hc
    refine ⟨_, rfl, ?_⟩
    rw [doAckDelayExpiry, if_neg ha, sendAck_sends hj hc]
    exact ⟨congrArg Strand.ackDue (State.setStrand_strand_same ..), rfl⟩
  · intro hc
    refine ⟨_, rfl, ?_⟩
    rw [doAckDelayExpiry, if_neg ha, sendAck_waits hj hc]
    refine ⟨(congrArg Strand.ackDue (State.setStrand_strand_same ..)).trans ?_, rfl⟩
    show max 1 x.ackDue = x.ackDue
    omega
  · cases hn
    exact ⟨_, rfl, doAck_pending hf hr hp hy⟩
  · exact congrArg Host.Outcome.next (if_pos h)
  · exact congrArg Host.Outcome.next (if_pos (by simp [hf, hg]))

end Sys2Proof.Machine
end

section
/-!
PROOFS. What a received frame does, and the snapshot of a TALLY (14, 12; O41).
-/

namespace Sys2Proof.Machine

/-! ## What an acknowledgement tells the work that waits for it (14 R386) -/

/-- Work of queues has ended: only descriptors, RMAs and what the free values of their flags take have changed. -/
def WorkEnded (s t : State) : Prop :=
  ∃ qs fr rs, t = { s with queues := qs, free := fr, twine := { s.twine with rmas := rs } } ∧
    ∀ q, { t.q q with descs := [] } = { s.q q with descs := [] }

theorem WorkEnded.refl (s : State) : WorkEnded s s := ⟨_, _, _, rfl, fun _ => rfl⟩

theorem WorkEnded.trans {s t u : State} (h : WorkEnded s t) (h' : WorkEnded t u) : WorkEnded s u := by
  obtain ⟨qs, fr, rs, e, hq⟩ := h
  obtain ⟨qs', fr', rs', e', hq'⟩ := h'
  exact ⟨qs', fr', rs', by rw [e', e], fun q => (hq' q).trans (hq q)⟩

theorem WorkEnded.foldl {β : Type} {g : State → β → State} (h : ∀ s b, WorkEnded s (g s b)) (l : List β) (s : State) :
    WorkEnded s (l.foldl g s) := by
  induction l generalizing s with
  | nil => exact .refl s
  | cons b l ih => exact (h s b).trans (ih _)

theorem setDesc_workEnded (s : State) (q : Fin 4096) (n : Nat) (f : Desc → Desc) : WorkEnded s (setDesc s q n f) :=
  ⟨_, _, _, rfl, fun p => ((setDesc_descsOnly s q n f).2.2 p).1⟩

theorem endRma_workEnded (s : State) (r : Rma) (st : Status) : WorkEnded s (endRma s r st) := by
  unfold endRma
  dsimp only
  have h : ∀ rs fr, WorkEnded s { s with free := fr, twine := { s.twine with rmas := rs } } := fun _ _ =>
    ⟨_, _, _, rfl, fun _ => rfl⟩
  split
  · exact (h _ _).trans (setDesc_workEnded ..)
  · exact (h _ _).trans (setDesc_workEnded ..)

theorem settleRmas_workEnded (s : State) : WorkEnded s (settleRmas s) :=
  WorkEnded.foldl (fun s r => endRma_workEnded s r r.st) _ s

theorem tellRma_workEnded (sts : List (BitVec 32 × BitVec 8)) (s : State) (f : TxFrame) : WorkEnded s (tellRma sts s f) := by
  unfold tellRma
  split
  · exact ⟨_, _, _, rfl, fun _ => rfl⟩
  · exact .refl s

theorem WorkEnded.mem {s t : State} (h : WorkEnded s t) : t.mem = s.mem := by
  obtain ⟨qs, fr, rs, rfl, -⟩ := h
  rfl

/-! ## What the sending side of a strand does not touch (14 R383, R388) -/

/-- What a strand has received, and whose it is. -/
def Strand.inbound (x : Strand) : StrandCfg × Nat × BitVec 32 × List (BitVec 32) × List RxFrame :=
  (x.cfg, x.peerId, x.rxC, x.rxBits, x.held)

theorem Strand.inbound_keeps {x y : Strand} (h : y.inbound = x.inbound) :
    y.cfg = x.cfg ∧ y.peerId = x.peerId ∧ y.rxC = x.rxC ∧ y.rxBits = x.rxBits ∧ y.held = x.held := by
  simpa only [Strand.inbound, Prod.mk.injEq] using h

theorem Strand.inbound_of_offPath {x y : Strand} (h : y.offPath = x.offPath) :
    y.inbound = x.inbound ∧ y.st = x.st :=
  ⟨(congrArg Strand.inbound h :), (congrArg Strand.st h :)⟩

theorem Strand.choose_inbound (x : Strand) (s : State) (n : Fin 2048) :
    (x.choose s n).inbound = x.inbound ∧ (x.choose s n).st = x.st :=
  Strand.inbound_of_offPath (x.choose_offPath s n)

theorem Strand.measured_inbound (x : Strand) (s : State) (n : Fin 2048) (newest : Option TxFrame)
    (echo : Option (BitVec 32)) (bytes : Nat) :
    (x.measured s n newest echo bytes).inbound = x.inbound ∧ (x.measured s n newest echo bytes).st = x.st := by
  unfold Strand.measured
  split
  · split
    · exact ⟨rfl, rfl⟩
    · exact Strand.inbound_of_offPath (((Strand.choose_offPath ..).trans (Strand.adjust_offPath ..)).trans
        (Strand.sample_offPath ..))
  · exact ⟨rfl, rfl⟩

theorem Strand.fast_inbound (x : Strand) (s : State) (n : Fin 2048) (psn : BitVec 32) (bits : List (Fin 1024)) :
    (x.fast s n psn bits).inbound = x.inbound ∧ (x.fast s n psn bits).st = x.st := by
  unfold Strand.fast
  dsimp only
  split
  · exact ⟨rfl, rfl⟩
  split
  · exact Strand.choose_inbound ..
  · exact ⟨rfl, rfl⟩

theorem Strand.relieved_inbound (x : Strand) (psn : BitVec 32) (bits : List (Fin 1024)) :
    (x.relieved psn bits).inbound = x.inbound ∧ (x.st = .opened → (x.relieved psn bits).st = .opened) := by
  unfold Strand.relieved
  dsimp only
  split
  · exact ⟨rfl, id⟩
  · exact ⟨rfl, fun h => by rw [if_neg (by rw [h]; exact nofun)]; exact h⟩

/-- An acknowledgement ends work and changes the sending side of its strand. -/
theorem takeAck_form (s : State) (n : Fin 2048) (psn : BitVec 32) (bits : List (Fin 1024))
    (sts : List (BitVec 32 × BitVec 8)) (echo : Option (BitVec 32)) :
    ∃ x, x.inbound = (s.strand n).inbound ∧ ((s.strand n).st = .opened → x.st = .opened) ∧
      WorkEnded (s.setStrand n x) (takeAck s n psn bits sts echo) := by
  rw [takeAck_eq]
  refine ⟨_, ?_, fun h => ?_, (WorkEnded.foldl (tellRma_workEnded sts) _ _).trans (settleRmas_workEnded _)⟩
  · rw [(Strand.fast_inbound ..).1, (Strand.measured_inbound ..).1, (Strand.relieved_inbound ..).1]
  · rw [(Strand.fast_inbound ..).2, (Strand.measured_inbound ..).2, (Strand.relieved_inbound ..).2 h]

/-! ## A frame that comes in its turn (14 R374, R379, R388) -/

/-- The state in which the frame of a header is applied: its strand has advanced its counter, and its acknowledgement has
been taken. -/
def turnState (s : State) (h : FrameHdr) : State :=
  takeAck (s.setStrand h.strand { s.strand h.strand with rxc := rebuiltTxc (s.strand h.strand).rxc h.txcLo }) h.strand
    h.ackPsn [] [] none

/-- A frame comes in its turn on a strand that is open: what the statement asks of every frame. -/
structure InTurn (s : State) (h : FrameHdr) : Prop where
  from_ : (s.strand h.strand).sentBy h = true
  awake : s.pwr.pstate ≠ .p3
  going : s.pwr.stopped = false
  manages : s.mgmt.restarting = false
  used : h.strand.val ≠ 0
  opened : (s.strand h.strand).st = .opened
  phase : h.kphase = decide ((s.strand h.strand).rxPhase % 2 = 1)
  keyed : (s.strand h.strand).keyed s (s.strand h.strand).rxGen = true
  next : h.psn = (s.strand h.strand).rxC + 1
  noBits : (s.strand h.strand).rxBits = []
  noHeld : (s.strand h.strand).held = []

section
variable {s : State} {h : FrameHdr}

theorem InTurn.admitFrame (ht : InTurn s h) {len : Nat} (hl : len ≤ 8176) : Machine.admitFrame s h len =
    some { s.strand h.strand with rxc := rebuiltTxc (s.strand h.strand).rxc h.txcLo } := by
  have hsame : (h.kphase == decide ((s.strand h.strand).rxPhase % 2 = 1)) = true := beq_iff_eq.2 ht.phase
  have hphase : (s.strand h.strand).phased s h.kphase = s.strand h.strand := by rw [Strand.phased, if_pos hsame]
  unfold Machine.admitFrame
  dsimp only
  rw [if_neg (by simp [ht.used, ht.opened, ht.from_, hl]), hphase, Strand.genOf, if_pos hsame, if_pos ht.keyed]

theorem turnState_strand (s : State) (h : FrameHdr) :
    ((turnState s h).strand h.strand).inbound = (s.strand h.strand).inbound ∧
      ((s.strand h.strand).st = .opened → ((turnState s h).strand h.strand).st = .opened) := by
  obtain ⟨x, hx, hst, qs, fr, rs, e, -⟩ := takeAck_form
    (s.setStrand h.strand { s.strand h.strand with rxc := rebuiltTxc (s.strand h.strand).rxc h.txcLo }) h.strand
    h.ackPsn [] [] none
  have he : (turnState s h).strand h.strand = x := by rw [turnState, e]; exact State.setStrand_strand_same ..
  rw [State.setStrand_strand_same] at hx hst
  rw [he]
  exact ⟨hx, hst⟩

/-- What the acknowledgement that a frame carries leaves as it was. -/
theorem turnState_keeps (s : State) (h : FrameHdr) : (turnState s h).mem = s.mem ∧ (turnState s h).mgmt = s.mgmt ∧
    (turnState s h).ply = s.ply ∧ (turnState s h).twine.viol = s.twine.viol ∧
    ∀ q, { (turnState s h).q q with descs := [] } = { s.q q with descs := [] } := by
  obtain ⟨x, -, -, qs, fr, rs, e, hq⟩ := takeAck_form
    (s.setStrand h.strand { s.strand h.strand with rxc := rebuiltTxc (s.strand h.strand).rxc h.txcLo }) h.strand
    h.ackPsn [] [] none
  refine ⟨?_, ?_, ?_, ?_, hq⟩ <;> rw [turnState, e] <;> rfl

/-- A frame in its turn is applied and marked. -/
theorem InTurn.sequence (ht : InTurn s h) {f : RxFrame} (hf : f.h = h) (hadd : addHeld (turnState s h) h.strand f.body = false)
    (hresp : respHeld (turnState s h) h.strand f.body = false) :
    sequence (turnState s h) h.strand f = applyMark (turnState s h) h.strand f := by
  obtain ⟨-, -, hc, hb, hh⟩ := Strand.inbound_keeps (turnState_strand s h).1
  have hahead : ((turnState s h).strand h.strand).ahead f.h.psn = 1 := by
    unfold Strand.ahead
    rw [hf, ht.next, hc]
    simp
  have hseen : ((turnState s h).strand h.strand).seen f.h.psn = false := by
    simp [Strand.seen, hahead, hb, ht.noBits]
  unfold Machine.sequence
  dsimp only
  rw [if_neg (by simp [hseen]), if_neg (by simp [hahead, hadd, hresp]), hh, ht.noHeld]
  rw [if_neg (by simp), if_neg (by simp [hahead])]
  rfl

/-- A frame in its turn, for which there is room, is applied and marked. -/
theorem InTurn.applied (ht : InTurn s h) {b : RxBody} (hlen : b.len ≤ 8176) (hhere : frameHere s h b.len = true)
    (hroom : dataFull s h.port (frameBytes h b.len) = false) (hadd : addHeld (turnState s h) h.strand b = false)
    (hresp : respHeld (turnState s h) h.strand b = false) :
    receive s h b = applyMark (turnState s h) h.strand { h, body := b, at_ := s.now } := by
  have hawake : (s.pwr.pstate == PState.p3) = false := by simpa using ht.awake
  unfold receive
  dsimp only
  rw [if_neg (by simp [hhere]), if_neg (by simp [hroom]), if_neg (by simp [ht.going, ht.manages]), hawake]
  simp only [Bool.false_eq_true, if_false, Bool.false_and, takeFrame, ht.admitFrame hlen]
  exact ht.sequence rfl hadd hresp

end

/-! ## The mark of a frame and its acknowledgement (14 R386, R388) -/

theorem advanceC_txq (k : Nat) (x : Strand) : (advanceC k x).txq = x.txq := by
  induction k generalizing x with
  | zero => rfl
  | succ k ih =>
    unfold advanceC
    split
    · exact ih _
    · rfl

theorem Strand.mark_txq (x : Strand) (psn : BitVec 32) (st : Option Status) : (x.mark psn st).txq = x.txq :=
  advanceC_txq ..

/-- The frame that is next advances what has been received by one. -/
theorem Strand.mark_next {x : Strand} (hb : x.rxBits = []) (st : Option Status) :
    (x.mark (x.rxC + 1) st).rxC = x.rxC + 1 := by
  show (advanceC (x.rxBits.length + 1) { x with rxBits := (x.rxC + 1) :: x.rxBits, ackDue := x.ackDue + 1 }).rxC = x.rxC + 1
  simp [hb, advanceC]

theorem sendAck_form (s : State) (n : Fin 2048) (first : List (BitVec 32 × Nat)) : ∃ x o,
    sendAck s n first = { s.setStrand n x with out := o } ∧ x.txq = (s.strand n).txq ∧ x.rxC = (s.strand n).rxC := by
  unfold sendAck
  dsimp only
  split
  · exact ⟨s.strand n, s.out, by rw [State.setStrand, State.strand, upd_get_self], rfl, rfl⟩
  split
  · exact ⟨_, s.out, rfl, rfl, rfl⟩
  · exact ⟨_, _, rfl, rfl, rfl⟩

/-- The state in which a frame that has been applied is marked and acknowledged. -/
def markApplied (s : State) (n : Fin 2048) (f : RxFrame) (st : Option Status) : State :=
  let x := { (s.strand n).mark f.h.psn st with tsEcho := f.h.ts, tsAt := some f.at_ }
  let s := s.setStrand n x
  if f.h.ackReq || st.isSome || decide (16 ≤ x.ackDue) then sendAck s n [] else s

theorem applyMark_eq (s : State) (n : Fin 2048) (f : RxFrame) :
    applyMark s n f = markApplied (applyFrame s n f).1 n f (applyFrame s n f).2 := rfl

theorem markApplied_form (s : State) (n : Fin 2048) (f : RxFrame) (st : Option Status) : ∃ x o,
    markApplied s n f st = { s.setStrand n x with out := o } ∧ x.txq = (s.strand n).txq ∧
      x.rxC = ((s.strand n).mark f.h.psn st).rxC := by
  have hq' := Strand.mark_txq (s.strand n) f.h.psn st
  unfold markApplied
  generalize (s.strand n).mark f.h.psn st = y at hq' ⊢
  dsimp only
  split
  · obtain ⟨x, o, e, hq, hc⟩ := sendAck_form (s.setStrand n { y with tsEcho := f.h.ts, tsAt := some f.at_ }) n []
    rw [State.setStrand_strand_same] at hq hc
    exact ⟨x, o, by rw [e, State.setStrand, State.setStrand, State.setStrand, upd_upd], hq.trans hq', hc⟩
  · exact ⟨_, _, rfl, hq', rfl⟩

/-- What the mark of a frame changes of the state in which it has been applied. -/
theorem applyMark_form (s : State) (n : Fin 2048) (f : RxFrame) : ∃ x o,
    applyMark s n f = { (applyFrame s n f).1.setStrand n x with out := o } ∧
      x.txq = ((applyFrame s n f).1.strand n).txq ∧
      x.rxC = (((applyFrame s n f).1.strand n).mark f.h.psn (applyFrame s n f).2).rxC := by
  rw [applyMark_eq]
  exact markApplied_form ..

/-- The marked frame leaves what no strand and no answer enters as its application left it. -/
theorem applyMark_keeps {α : Type} (g : State → α)
    (hg : ∀ s v o, g { s with twine := { s.twine with strands := v }, out := o } = g s) (s : State) (n : Fin 2048)
    (f : RxFrame) : g (applyMark s n f) = g (applyFrame s n f).1 := by
  obtain ⟨x, o, e, -⟩ := applyMark_form s n f
  rw [e]
  exact hg (applyFrame s n f).1 _ o

theorem applyMark_txq (s : State) (n : Fin 2048) (f : RxFrame) :
    ((applyMark s n f).strand n).txq = ((applyFrame s n f).1.strand n).txq := by
  obtain ⟨x, o, e, hq, -⟩ := applyMark_form s n f
  rw [e]
  exact (congrArg Strand.txq (State.setStrand_strand_same ..) :).trans hq

/-- A frame in its turn that leaves what its strand has received advances it. -/
theorem applyMark_rxC {s : State} {n : Fin 2048} {f : RxFrame} (hin : ((applyFrame s n f).1.strand n).inbound =
    (s.strand n).inbound) (hb : (s.strand n).rxBits = []) (hn : f.h.psn = (s.strand n).rxC + 1) :
    ((applyMark s n f).strand n).rxC = f.h.psn := by
  obtain ⟨x, o, e, -, hc⟩ := applyMark_form s n f
  obtain ⟨-, -, hc', hb', -⟩ := Strand.inbound_keeps hin
  rw [e]
  refine (congrArg Strand.rxC (State.setStrand_strand_same ..) :).trans (hc.trans ?_)
  rw [hn, ← hc', Strand.mark_next (hb'.trans hb)]

/-! ## What records and answers leave of a strand -/

theorem post_inbound (s : State) (m n : Fin 2048) (msg : Msg) :
    ((post s m msg).strand n).inbound = (s.strand n).inbound := by
  unfold post
  dsimp only
  split
  · rfl
  · rfl
  · by_cases e : n = m
    · subst e
      rw [State.setStrand_strand_same]
      rfl
    · rw [State.setStrand_strand_ne _ _ _ _ e]

theorem notify_inbound (s : State) (w : Party) (kind q r : Nat) (body : List Byte) (n : Fin 2048) :
    ((notify s w kind q r body).strand n).inbound = (s.strand n).inbound := by
  unfold notify
  split
  · exact post_inbound ..
  · rfl

theorem record_inbound (s : State) (kind : Nat) (st : Option Status) (unit index : Nat) (args : List Nat) (n : Fin 2048) :
    ((record s kind st unit index args).strand n).inbound = (s.strand n).inbound := by
  unfold record addRecord
  exact notify_inbound ..

theorem poisonRecord_inbound (s : State) (a : Option Nat) (q type : Nat) (n : Fin 2048) :
    ((poisonRecord s a q type).strand n).inbound = (s.strand n).inbound := by
  unfold poisonRecord
  split
  · rfl
  · exact record_inbound ..

theorem poisonRecord_mem (s : State) (a : Option Nat) (q type : Nat) : (poisonRecord s a q type).mem = s.mem := by
  unfold poisonRecord
  split
  · rfl
  · obtain ⟨f, d, v, e⟩ := record_form s 0x02 (some .faulted)
      (if ((locKey (physLoc s.mem ‹Nat›)).bind (keyChan s.mem)).isSome then 3 else 8)
      ((((locKey (physLoc s.mem ‹Nat›)).bind (keyChan s.mem)).map (·.val)).getD 0) [‹Nat›, q + 4096 * type]
    exact (congrArg State.mem e :)

theorem respond_keeps {α : Type} {g : State → α} (hg : ∀ s v, g { s with twine := { s.twine with strands := v } } = g s)
    (s : State) (n : Fin 2048) (psn : BitVec 32) (bs : List Byte) (mg : Bool) : g (respond s n psn bs mg) = g s := by
  unfold respond
  dsimp only
  refine foldl_keeps g _ (fun u i => ?_) _ s
  obtain ⟨v, e⟩ := post_form u n (.readResp psn (i * max 16 (frameData s (s.strand n)))
    (i + 1 == (bs.length + max 16 (frameData s (s.strand n)) - 1) / max 16 (frameData s (s.strand n)))
    ((bs.drop (i * max 16 (frameData s (s.strand n)))).take (max 16 (frameData s (s.strand n)))) mg)
  rw [e]
  exact hg ..

theorem walkTarget_keeps {α : Type} {g : State → α} (hg : OffWalk g) (s : State) (n : Fin 2048) (w : Need) (a len : Nat) :
    g (walkTarget s n w a len) = g s := by
  unfold walkTarget
  split
  · unfold walkReach
    split
    · exact walkSegs_keeps hg ..
    · exact walkPage_keeps hg ..
    · rfl
  · rfl

/-! ## The effect of each frame (14 R383 to R385; 12 R315, R345; 15 R421) -/

section
variable {s : State} {n : Fin 2048} {f : RxFrame}

theorem applyWrite_mem {a : Nat} {bs : List Byte} {segs : List Seg} (hb : bs ≠ [])
    (ht : targetOf (walkTarget s n .write a bs.length) n .write a bs.length = .mem segs) :
    let b := touchSegs (walkTarget s n .write a bs.length) segs a bs.length true
    (applyWrite s n f a bs).1.mem = (writeSegs b segs a bs).1.mem ∧
      ((applyWrite s n f a bs).1.strand n).inbound = (s.strand n).inbound := by
  intro b
  have hstrand : ((writeSegs b segs a bs).1.strand n) = s.strand n := by
    have h : (writeSegs b segs a bs).1.twine = s.twine :=
      (writeSegs_keeps (f := State.twine) ⟨fun _ _ _ => rfl, fun _ _ _ => rfl, fun _ _ => rfl⟩ _ segs a bs).trans
        ((touchSegs_keeps offWalk_twine.toOffReel ..).trans
        (walkTarget_keeps offWalk_twine ..))
    exact (congrArg (fun t : Twine => t.strands.get n) h :)
  unfold applyWrite
  dsimp only
  rw [if_neg hb, ht]
  dsimp only
  split
  · exact ⟨rfl, congrArg Strand.inbound hstrand⟩
  · exact ⟨poisonRecord_mem .., (poisonRecord_inbound ..).trans (congrArg Strand.inbound hstrand)⟩

theorem refuseFrame_counts (s : State) (n : Fin 2048) (f : RxFrame) (c : Nat) :
    (refuseFrame s n f c).1.mem = s.mem ∧ (refuseFrame s n f c).1.twine.viol = satAdd 8 s.twine.viol := by
  unfold refuseFrame
  dsimp only
  obtain ⟨fl, d, v, e⟩ := record_form { s with twine := { s.twine with viol := satAdd 8 s.twine.viol } } 0x06 (some .access) 9
    n.val [(s.strand n).peerId % 2 ^ 64, (s.strand n).peerId / 2 ^ 64, f.body.addr.toNat,
      fld f.h.psn.toNat 0 32 + fld f.body.type 32 8 + fld c 40 8]
  exact ⟨(congrArg State.mem e :), (congrArg (fun t : State => t.twine.viol) e :)⟩

theorem applyWrite_fails {a c : Nat} {bs : List Byte} (hb : bs ≠ [])
    (ht : targetOf (walkTarget s n .write a bs.length) n .write a bs.length = .fail c) :
    (applyWrite s n f a bs).1.mem.cells = s.mem.cells ∧
      (applyWrite s n f a bs).1.twine.viol = satAdd 8 s.twine.viol := by
  unfold applyWrite
  dsimp only
  rw [if_neg hb, ht]
  obtain ⟨hm, hv⟩ := refuseFrame_counts (walkTarget s n .write a bs.length) n f c
  refine ⟨(congrArg Mem.cells hm).trans (walkTarget_keeps offWalk_cells ..), hv.trans ?_⟩
  rw [show (walkTarget s n .write a bs.length).twine = s.twine from walkTarget_keeps offWalk_twine ..]

theorem post_txq_congr {s t : State} {n : Fin 2048}
    (h : (t.strand n).txq = (s.strand n).txq ∧ (t.strand n).st = (s.strand n).st)
    (m : Msg) : ((post t n m).strand n).txq = ((post s n m).strand n).txq ∧
      ((post t n m).strand n).st = ((post s n m).strand n).st := by
  obtain ⟨hq, hs⟩ := h
  unfold post
  dsimp only
  rw [hs]
  split
  · exact ⟨hq, hs⟩
  · exact ⟨hq, hs⟩
  · rw [State.setStrand_strand_same, State.setStrand_strand_same]
    exact ⟨congrArg (· ++ [m]) hq, rfl⟩

theorem respond_congr {s t : State} (h : t.twine = s.twine) (he : t.eth = s.eth) (n : Fin 2048) (psn : BitVec 32)
    (bs : List Byte) : ((respond t n psn bs).strand n).txq = ((respond s n psn bs).strand n).txq := by
  have hstrand : t.strand n = s.strand n := congrArg (fun t : Twine => t.strands.get n) h
  have hframe : frameData t (t.strand n) = frameData s (s.strand n) := by
    rw [hstrand]
    unfold frameData joinedPorts overhead State.port
    rw [he]
  have hfold : ∀ (g : Nat → Msg) (l : List Nat) (s t : State), (t.strand n).txq = (s.strand n).txq ∧
      (t.strand n).st = (s.strand n).st → ((l.foldl (fun u i => post u n (g i)) t).strand n).txq =
        ((l.foldl (fun u i => post u n (g i)) s).strand n).txq := by
    intro g l
    induction l with
    | nil => exact fun s t h => h.1
    | cons i l ih => exact fun s t h => ih _ _ (post_txq_congr h _)
  unfold respond
  dsimp only
  rw [hframe]
  exact hfold _ _ _ _ ⟨congrArg Strand.txq hstrand, congrArg Strand.st hstrand⟩

theorem applyRead_mem {a len : Nat} {segs : List Seg} (hl : len ≠ 0)
    (ht : targetOf (walkTarget s n .read a len) n .read a len = .mem segs)
    (hp : firstPoison (walkTarget s n .read a len) segs a len = none) :
    (applyRead s n f a len).1.mem.cells = s.mem.cells ∧ ((applyRead s n f a len).1.strand n).txq =
      ((respond (walkTarget s n .read a len) n f.h.psn (readSegs (walkTarget s n .read a len) segs a len)).strand n).txq := by
  unfold applyRead
  dsimp only
  rw [if_neg hl, ht]
  dsimp only
  rw [hp]
  refine ⟨(respond_keeps (g := fun s => s.mem.cells) (fun _ _ => rfl) ..).trans
    ((touchSegs_keeps offWalk_cells.toOffReel ..).trans (walkTarget_keeps offWalk_cells ..)), ?_⟩
  exact respond_congr (touchSegs_keeps offWalk_twine.toOffReel ..) (touchSegs_keeps offWalk_eth.toOffReel ..) ..

theorem applyResp_mem {a : Word} {bs : List Byte} {r : Rma} {e : BitVec 32 × Nat × Nat}
    (hr : s.twine.rmas.find? (fun r => r.strand = n ∧ r.resp.any fun e => e.1 = BitVec.ofNat 32 (a.toNat / 2 ^ 32)) = some r)
    (he : r.resp.find? (fun e => e.1 = BitVec.ofNat 32 (a.toNat / 2 ^ 32)) = some e) (hop : r.rop = 2)
    (hg : segsMapped s r.segs = true) :
    let base := r.base + e.2.1 * r.d + a.toNat % 2 ^ 32
    (applyResp s n a bs).mem = (writeSegs (touchSegs s r.segs base bs.length true) r.segs base bs).1.mem := by
  intro base
  unfold applyResp
  dsimp only
  rw [hr]
  dsimp only
  rw [he]
  simp only [hop, hg, if_true]
  refine ((settleRmas_workEnded _).mem.trans ?_)
  exact poisonRecord_mem ..

theorem readPoisoned_of_firstPoison {segs : List Seg} {a k : Nat} (h : firstPoison s segs a k = none) :
    segsPoisoned s segs a k = false := by
  unfold firstPoison at h
  rw [List.findSome?_eq_none_iff] at h
  unfold segsPoisoned readPoisoned
  rw [List.any_eq_false]
  intro y hy hany
  obtain ⟨i, hi, hs⟩ := List.any_eq_true.1 hany
  have hnone := List.findSome?_eq_none_iff.1 (h y hy) i hi
  rw [Option.map_eq_none_iff.1 hnone] at hs
  exact nomatch hs

theorem applyAdd_mem {aty a : Nat} {fetch : Bool} {bs : List Byte} {segs : List Seg} (hb : bs ≠ [])
    (ht : addTarget (walkTarget s n .add a bs.length) n aty a bs.length = .mem segs)
    (hp : firstPoison (walkTarget s n .add a bs.length) segs a bs.length = none) :
    let w := walkTarget s n .add a bs.length
    let b := (pieces segs a bs.length).foldl (fun s y => addTouch s y.1 y.2.2) w
    (applyAdd s n f aty fetch a bs).1.mem =
      (writeSegs b segs a (addBytes aty (readSegs w segs a bs.length) bs).1).1.mem := by
  intro w b
  have hadd : (addSegs w segs aty a bs).1 = (writeSegs b segs a (addBytes aty (readSegs w segs a bs.length) bs).1).1 := by
    rw [addSegs, if_neg (by simp [w, readPoisoned_of_firstPoison hp])]
  unfold applyAdd
  dsimp only
  rw [if_neg hb, ht]
  dsimp only
  rw [hp]
  dsimp only
  rw [← hadd]
  split
  · exact respond_keeps (g := State.mem) (fun _ _ => rfl) ..
  · rfl

theorem applyDoorbell_rings {q : Fin 4096} {tail : Nat} (hm : mayRing s n q = true) (hst : (s.q q).st = .opened)
    (ht : tail ≤ (s.q q).head + (s.q q).cfg.n) :
    ((applyDoorbell s n q false false tail).q q).tail = max (s.q q).tail tail := by
  have hring : ((ringTail s n q tail).q q).tail = max (s.q q).tail tail := by
    unfold ringTail
    dsimp only
    rw [if_neg (by omega), State.setQ_q_same]
  unfold applyDoorbell
  simp only [Bool.false_eq_true, if_false]
  rw [if_neg (by simp [hm, hst])]
  split
  · obtain ⟨-, -, -, h⟩ := (acceptAll_accepts _ (ringTail s n q tail) q []).trans (runAcceptance_accepts _ q)
    exact h.trans hring
  · exact hring

end

theorem takeTally_lease {s : State} {n : Fin 2048} (h : leaseStrand s n = true) (id : BitVec 32) :
    (takeTally s n id).mgmt.tally = s.mgmt.tally ++ [(id, n)] ∧ (takeTally s n id).mem = s.mem := by
  rw [takeTally, if_pos h]
  exact ⟨rfl, rfl⟩

/-! ## Which application a frame has -/

section
variable (s : State) (n : Fin 2048) (h : FrameHdr) (time : Nat)

theorem applyFrame_write (a : Word) (d : List Byte) :
    applyFrame s n ⟨h, .write a d, time⟩ = applyWrite s n ⟨h, .write a d, time⟩ a.toNat d := rfl
theorem applyFrame_writeFlagged (a : Word) (d : List Byte) :
    applyFrame s n ⟨h, .writeFlagged a d, time⟩ = applyWrite s n ⟨h, .writeFlagged a d, time⟩ a.toNat d := rfl
theorem applyFrame_read (a : Word) (len : BitVec 32) :
    applyFrame s n ⟨h, .read a len, time⟩ = applyRead s n ⟨h, .read a len, time⟩ a.toNat len.toNat := rfl
theorem applyFrame_readResp (a : Word) (d : List Byte) :
    (applyFrame s n ⟨h, .readResp a d, time⟩).1 = applyResp s n a d := rfl
theorem applyFrame_atomicAdd (t : Nat) (fe : Bool) (a : Word) (d : List Byte) :
    applyFrame s n ⟨h, .atomicAdd t fe a d, time⟩ = applyAdd s n ⟨h, .atomicAdd t fe a d, time⟩ t fe a.toNat d := rfl
theorem applyFrame_doorbell (q : Fin 4096) (t : Word) :
    (applyFrame s n ⟨h, .doorbell q false false t, time⟩).1 = applyDoorbell s n q false false t.toNat := rfl
theorem applyFrame_tally (id : BitVec 32) : (applyFrame s n ⟨h, .tally id, time⟩).1 = takeTally s n id := rfl
theorem applyFrame_lag (w0 w1 : Word) : (applyFrame s n ⟨h, .lag w0 w1, time⟩).1 = lagFrame s n w0 w1 := rfl
theorem applyFrame_pace (w0 w1 : Word) : (applyFrame s n ⟨h, .pace w0 w1, time⟩).1 = paceFrame s n w0 w1 := rfl

end

/-! ## LAG and PACE (15 R420 to R423) -/

theorem applyPaces_ply (s : State) : (applyPaces s).ply = s.ply := rfl

theorem setPace_slot (s : State) (k : Fin 8) (rate dur : Nat) : ((setPace s k rate dur).slot k) =
    { s.slot k with pacing := decide (rate < 1000), pacePm := min 1000 rate, paceDur := dur } :=
  State.setSlot_slot_same ..

theorem paceFrame_paces {s : State} {n : Fin 2048} {w0 w1 : Word} {k : Fin 8} (hk : slotOf s (bitsOf w0.toNat 0 16) = some k)
    (hm : memberStrand s (s.slot k) (s.slot k).masterNow = some n) (hp : (s.slot k).paceIn ≤ bitsOf w0.toNat 32 32)
    (hst : (s.slot k).st = .ready) : ((paceFrame s n w0 w1).slot k).pacePm = min 1000 (bitsOf w1.toNat 0 10) ∧
      ((paceFrame s n w0 w1).slot k).paceIn = bitsOf w0.toNat 32 32 := by
  unfold paceFrame
  dsimp only
  rw [hk]
  dsimp only
  rw [if_pos ⟨hm, hp, hst⟩, setPace_slot, State.setSlot_slot_same]
  exact ⟨rfl, rfl⟩

/-- A view of a slot that no pace enters. -/
def OffPace {α : Type} (g : Ply → α) : Prop :=
  ∀ x a b c d e, g { x with pacing := a, pacePm := b, paceDur := c, paceOut := d, paceOn := e } = g x

theorem setPace_keeps {α : Type} {g : Ply → α} (hg : OffPace g) (s : State) (k j : Fin 8) (rate dur : Nat) :
    g ((setPace s k rate dur).slot j) = g (s.slot j) := by
  by_cases h : j = k
  · subst h
    rw [setPace_slot]
    exact hg (s.slot j) _ _ _ _ _
  · exact congrArg g (State.setSlot_slot_ne _ _ _ _ h)

theorem post_ply (s : State) (n : Fin 2048) (m : Msg) : (post s n m).ply = s.ply := by
  obtain ⟨v, e⟩ := post_form s n m
  rw [e]

theorem sendPace_keeps {α : Type} {g : Ply → α} (hg : OffPace g) (s : State) (k j : Fin 8) (lagger rate dur : Nat)
    (dst : List Nat) : g ((sendPace s k lagger rate dur dst).slot j) = g (s.slot j) := by
  unfold sendPace
  dsimp only
  refine (foldl_keeps (fun u : State => g (u.slot j)) _ (fun u i => ?_) _ _).trans ?_
  · split
    · exact setPace_keeps hg ..
    split
    · exact congrArg (fun p => g (p.slots.get j)) (post_ply ..)
    · rfl
  · by_cases h : j = k
    · subst h
      rw [State.setSlot_slot_same]
      exact hg (s.slot j) _ _ _ _ _
    · exact congrArg g (State.setSlot_slot_ne _ _ _ _ h)

theorem offPace_lags : OffPace Ply.lags := fun _ _ _ _ _ _ => rfl

/-- A LAG that is taken changes what the slot keeps of LAGs, and the pace. -/
theorem takeLag_slot (s : State) (k : Fin 8) (i rate dur cause : Nat) {α : Type} {g : Ply → α} (hg : OffPace g) :
    g ((takeLag s k i rate dur cause).slot k) = 
      g { s.slot k with lags := if cause = 4 then (s.slot k).lags.filter fun l => l.member != i
                                else ((s.slot k).lags.filter fun l => l.member != i) ++ [{ member := i, rate, dur }] } := by
  have hset : ∀ x : Ply, g ((s.setSlot k x).slot k) = g x := fun x => by rw [State.setSlot_slot_same]
  obtain ⟨l, hl⟩ : ∃ l, l = if cause = 4 then (s.slot k).lags.filter fun l => l.member != i
      else ((s.slot k).lags.filter fun l => l.member != i) ++ [{ member := i, rate, dur }] := ⟨_, rfl⟩
  unfold takeLag
  dsimp only
  rw [← hl]
  split
  · exact hset _
  split
  · exact (sendPace_keeps hg ..).trans (hset _)
  split
  · exact (sendPace_keeps hg ..).trans (hset _)
  · exact hset _

theorem takeLag_lags (s : State) (k : Fin 8) (i rate dur cause : Nat) (hc : cause ≠ 4) :
    (⟨i, rate, dur⟩ : Lag) ∈ ((takeLag s k i rate dur cause).slot k).lags := by
  rw [takeLag_slot s k i rate dur cause offPace_lags, if_neg hc]
  simp

/-- The state in which the rate that a LAG tells stands in the peer table. -/
def rateNoted (s : State) (n : Fin 2048) (rate : Nat) : State :=
  match (List.finRange 64).find? fun e => (s.peer e).strand = n with
  | some e => s.setPeer e { s.peer e with lagPm := rate }
  | none => s

theorem rateNoted_slot (s : State) (n : Fin 2048) (rate : Nat) (k : Fin 8) : (rateNoted s n rate).slot k = s.slot k := by
  unfold rateNoted
  split <;> rfl

theorem rateNoted_memberStrand (s : State) (n : Fin 2048) (rate : Nat) (x : Ply) (i : Nat) :
    memberStrand (rateNoted s n rate) x i = memberStrand s x i := by
  have h (e : Fin 64) : ((rateNoted s n rate).peer e).strand = (s.peer e).strand := by
    unfold rateNoted
    split
    next j _ =>
      simp only [State.peer, State.setPeer, get_upd]
      split
      next he => rw [he]
      · rfl
    · rfl
  simp only [memberStrand, h]

theorem lagFrame_kept {s : State} {n : Fin 2048} {w0 w1 : Word} {k : Fin 8} (hk : slotOf s (bitsOf w0.toNat 0 16) = some k)
    (hm : memberStrand s (s.slot k) (bitsOf w0.toNat 16 6) = some n) (hc : bitsOf w1.toNat 32 3 ≠ 4) :
    (⟨bitsOf w0.toNat 16 6, bitsOf w1.toNat 0 10, bitsOf w1.toNat 16 16⟩ : Lag) ∈ ((lagFrame s n w0 w1).slot k).lags := by
  have hslot : slotOf (rateNoted s n (bitsOf w1.toNat 0 10)) (bitsOf w0.toNat 0 16) = some k := by
    rw [← hk]
    simp only [slotOf, rateNoted_slot]
  have hmember : memberStrand (rateNoted s n (bitsOf w1.toNat 0 10)) ((rateNoted s n (bitsOf w1.toNat 0 10)).slot k)
      (bitsOf w0.toNat 16 6) = some n := by rw [rateNoted_slot, rateNoted_memberStrand, hm]
  have e : lagFrame s n w0 w1 = takeLag (rateNoted s n (bitsOf w1.toNat 0 10)) k (bitsOf w0.toNat 16 6)
      (bitsOf w1.toNat 0 10) (bitsOf w1.toNat 16 16) (bitsOf w1.toNat 32 3) := by
    change (match slotOf (rateNoted s n (bitsOf w1.toNat 0 10)) (bitsOf w0.toNat 0 16) with | none => _ | some k => _) = _
    rw [hslot]
    exact if_pos hmember
  rw [e]
  exact takeLag_lags _ _ _ _ _ _ hc

/-! ## The snapshot of a TALLY (12 R345 to R347) -/

theorem post_opened {s : State} {n : Fin 2048} (h : (s.strand n).st = .opened) (m : Msg) :
    post s n m = s.setStrand n { s.strand n with txq := (s.strand n).txq ++ [m] } := by
  unfold post
  dsimp only
  rw [h]

/-- The state with a snapshot in the window. -/
def snapped (s : State) (win : List Host.Cell) (rest : List (BitVec 32 × Fin 2048)) : State :=
  s.setMgmt { s.mgmt with win, frozen := true, tally := rest }

/-- A message on a strand that is open, after the snapshot was taken. -/
theorem post_snapped {s : State} {n : Fin 2048} (ho : (s.strand n).st = .opened) (win : List Host.Cell)
    (rest : List (BitVec 32 × Fin 2048)) (m : Msg) : let t := post (snapped s win rest) n m
    t.mgmt.frozen = true ∧ t.mgmt.tally = rest ∧ t.mgmt.win = win ∧ (t.strand n).txq = (s.strand n).txq ++ [m] ∧
      t.mem = s.mem := by
  rw [post_opened (s := snapped s win rest) ho]
  exact ⟨rfl, rfl, rfl, congrArg Strand.txq (State.setStrand_strand_same ..), rfl⟩

theorem notify_strand (s : State) (n : Fin 2048) (kind q r : Nat) (body : List Byte) :
    notify s (.strand n) kind q r body = post s n (.notify kind q r body) := rfl

theorem doTallyFreeze_eq {s : State} {id : BitVec 32} {n : Fin 2048} {rest : List (BitVec 32 × Fin 2048)}
    (ht : s.mgmt.tally = (id, n) :: rest) (ha : attests s = true) : doTallyFreeze s =
      post (snapped s (cellsWrite s.mgmt.win 0x8000000 (snapshot s id)) rest) n
        (.notify 4 0 Status.ok.code (tallyBody id)) := by
  unfold doTallyFreeze
  rw [ht]
  dsimp only
  rw [if_neg (by simp [ha]), notify_strand, ← snapped]

/-! ## The frames in their turn -/

/-- There is room for a frame for the engine. -/
def Finds (s : State) (h : FrameHdr) (b : RxBody) : Prop :=
  frameHere s h b.len = true ∧ dataFull s h.port (frameBytes h b.len) = false

section
variable {s : State} {h : FrameHdr} (ht : InTurn s h)
include ht

theorem InTurn.receive_mem {b : RxBody} (hlen : b.len ≤ 8176) (hb : Finds s h b)
    (hadd : addHeld (turnState s h) h.strand b = false) (hresp : respHeld (turnState s h) h.strand b = false) :
    (receive s h b).mem = (applyFrame (turnState s h) h.strand ⟨h, b, s.now⟩).1.mem := by
  rw [ht.applied hlen hb.1 hb.2 hadd hresp, applyMark_keeps State.mem fun _ _ _ => rfl]

theorem InTurn.receive_slot {b : RxBody} (hlen : b.len ≤ 8176) (hb : Finds s h b)
    (hadd : addHeld (turnState s h) h.strand b = false) (hresp : respHeld (turnState s h) h.strand b = false) (k : Fin 8) :
    (receive s h b).slot k = (applyFrame (turnState s h) h.strand ⟨h, b, s.now⟩).1.slot k := by
  rw [ht.applied hlen hb.1 hb.2 hadd hresp, applyMark_keeps (fun s => s.slot k) fun _ _ _ => rfl]

theorem InTurn.receive_rxC {b : RxBody} (hlen : b.len ≤ 8176) (hb : Finds s h b)
    (hadd : addHeld (turnState s h) h.strand b = false) (hresp : respHeld (turnState s h) h.strand b = false)
    (hin : ((applyFrame (turnState s h) h.strand ⟨h, b, s.now⟩).1.strand h.strand).inbound =
      ((turnState s h).strand h.strand).inbound) : ((receive s h b).strand h.strand).rxC = h.psn := by
  obtain ⟨-, -, hc, hbits, -⟩ := Strand.inbound_keeps (turnState_strand s h).1
  rw [ht.applied hlen hb.1 hb.2 hadd hresp]
  exact applyMark_rxC hin (hbits.trans ht.noBits) (ht.next.trans (by rw [hc]))

theorem InTurn.write_fails {addr : Word} {data : List Byte} {c : Nat} (hl : data.length ≤ 8176) (hne : data ≠ [])
    (hf : Finds s h (.write addr data)) (htarget : targetOf (walkTarget (turnState s h) h.strand .write addr.toNat data.length)
      h.strand .write addr.toNat data.length = .fail c) :
    (receive s h (.write addr data)).mem.cells = s.mem.cells ∧
      (receive s h (.write addr data)).twine.viol = satAdd 8 s.twine.viol := by
  obtain ⟨hmem, -, -, hviol, -⟩ := turnState_keeps s h
  obtain ⟨hm, hv⟩ := applyWrite_fails (f := ⟨h, .write addr data, s.now⟩) hne htarget
  refine ⟨?_, ?_⟩
  · rw [ht.receive_mem (b := .write addr data) hl hf rfl rfl, applyFrame_write]
    exact hm.trans (congrArg Mem.cells hmem)
  · rw [ht.applied (b := .write addr data) hl hf.1 hf.2 rfl rfl, applyMark_keeps (fun s => s.twine.viol) fun _ _ _ => rfl,
      applyFrame_write]
    exact hv.trans (by rw [hviol])

theorem InTurn.read {addr : Word} {len : BitVec 32} {segs : List Seg} (hl : len ≠ 0) (hf : Finds s h (.read addr len))
    (htarget : targetOf (walkTarget (turnState s h) h.strand .read addr.toNat len.toNat) h.strand .read addr.toNat len.toNat =
      .mem segs)
    (hp : firstPoison (walkTarget (turnState s h) h.strand .read addr.toNat len.toNat) segs addr.toNat len.toNat = none) :
    (receive s h (.read addr len)).mem.cells = s.mem.cells ∧ ((receive s h (.read addr len)).strand h.strand).txq =
      ((respond (walkTarget (turnState s h) h.strand .read addr.toNat len.toNat) h.strand h.psn
        (readSegs (walkTarget (turnState s h) h.strand .read addr.toNat len.toNat) segs addr.toNat len.toNat)).strand
          h.strand).txq := by
  obtain ⟨hmem, -⟩ := turnState_keeps s h
  obtain ⟨hm, hq⟩ := applyRead_mem (f := ⟨h, .read addr len, s.now⟩) (fun h0 => hl (BitVec.eq_of_toNat_eq h0)) htarget hp
  have hlen : (RxBody.read addr len).len ≤ 8176 := by simp [RxBody.len]
  refine ⟨?_, ?_⟩
  · rw [ht.receive_mem hlen hf rfl rfl, applyFrame_read]
    exact hm.trans (congrArg Mem.cells hmem)
  · rw [ht.applied hlen hf.1 hf.2 rfl rfl, applyMark_txq, applyFrame_read]
    exact hq

theorem InTurn.readResp {addr : Word} {data : List Byte} {r : Rma} {e : BitVec 32 × Nat × Nat} (hl : data.length ≤ 8176)
    (hf : Finds s h (.readResp addr data)) (hheld : respHeld (turnState s h) h.strand (.readResp addr data) = false)
    (hr : (turnState s h).twine.rmas.find? (fun r => r.strand = h.strand ∧
      r.resp.any fun e => e.1 = BitVec.ofNat 32 (addr.toNat / 2 ^ 32)) = some r)
    (he : r.resp.find? (fun e => e.1 = BitVec.ofNat 32 (addr.toNat / 2 ^ 32)) = some e) (hop : r.rop = 2)
    (hg : segsMapped (turnState s h) r.segs = true) :
    let base := r.base + e.2.1 * r.d + addr.toNat % 2 ^ 32
    (receive s h (.readResp addr data)).mem =
      (writeSegs (touchSegs (turnState s h) r.segs base data.length true) r.segs base data).1.mem := by
  intro base
  rw [ht.receive_mem (b := .readResp addr data) hl hf rfl hheld, applyFrame_readResp]
  exact applyResp_mem hr he hop hg

theorem InTurn.atomicAdd {aty : Nat} {fetch : Bool} {addr : Word} {data : List Byte} {segs : List Seg}
    (hl : data.length ≤ 8176) (hne : data ≠ []) (hf : Finds s h (.atomicAdd aty fetch addr data))
    (hadd : addHeld (turnState s h) h.strand (.atomicAdd aty fetch addr data) = false)
    (htarget : addTarget (walkTarget (turnState s h) h.strand .add addr.toNat data.length) h.strand aty addr.toNat data.length =
      .mem segs)
    (hp : firstPoison (walkTarget (turnState s h) h.strand .add addr.toNat data.length) segs addr.toNat data.length = none) :
    let w := walkTarget (turnState s h) h.strand .add addr.toNat data.length
    let b := (pieces segs addr.toNat data.length).foldl (fun s y => addTouch s y.1 y.2.2) w
    (receive s h (.atomicAdd aty fetch addr data)).mem = (writeSegs b segs addr.toNat
      (addBytes aty (readSegs w segs addr.toNat data.length) data).1).1.mem := by
  intro w b
  rw [ht.receive_mem (b := .atomicAdd aty fetch addr data) hl hf hadd rfl, applyFrame_atomicAdd]
  exact applyAdd_mem hne htarget hp

theorem InTurn.pace {w0 w1 : Word} {k : Fin 8} (hf : Finds s h (.pace w0 w1))
    (hk : slotOf (turnState s h) (bitsOf w0.toNat 0 16) = some k)
    (hm : memberStrand (turnState s h) ((turnState s h).slot k) ((turnState s h).slot k).masterNow = some h.strand)
    (hp : (s.slot k).paceIn ≤ bitsOf w0.toNat 32 32) (hst : (s.slot k).st = .ready) :
    ((receive s h (.pace w0 w1)).slot k).pacePm = min 1000 (bitsOf w1.toNat 0 10) ∧
      ((receive s h (.pace w0 w1)).slot k).paceIn = bitsOf w0.toNat 32 32 := by
  have hsame : (turnState s h).slot k = s.slot k := congrArg (fun p => p.slots.get k) (turnState_keeps s h).2.2.1
  rw [ht.receive_slot (by simp [RxBody.len]) hf rfl rfl, applyFrame_pace]
  exact paceFrame_paces hk hm (by rw [hsame]; exact hp) (by rw [hsame]; exact hst)

theorem InTurn.lag {w0 w1 : Word} {k : Fin 8} (hf : Finds s h (.lag w0 w1))
    (hk : slotOf (turnState s h) (bitsOf w0.toNat 0 16) = some k)
    (hm : memberStrand (turnState s h) ((turnState s h).slot k) (bitsOf w0.toNat 16 6) = some h.strand)
    (hc : bitsOf w1.toNat 32 3 ≠ 4) :
    (⟨bitsOf w0.toNat 16 6, bitsOf w1.toNat 0 10, bitsOf w1.toNat 16 16⟩ : Lag) ∈ ((receive s h (.lag w0 w1)).slot k).lags := by
  rw [ht.receive_slot (by simp [RxBody.len]) hf rfl rfl, applyFrame_lag]
  exact lagFrame_kept hk hm hc

theorem InTurn.doorbell {q : Fin 4096} {tail : Word} (hf : Finds s h (.doorbell q false false tail))
    (hm : mayRing (turnState s h) h.strand q = true) (hst : (s.q q).st = .opened)
    (htail : tail.toNat ≤ (s.q q).head + (s.q q).cfg.n) :
    ((receive s h (.doorbell q false false tail)).q q).tail = max (s.q q).tail tail.toNat := by
  obtain ⟨-, -, -, -, hqueues⟩ := turnState_keeps s h
  have hsame := hqueues q
  have hhead : ((turnState s h).q q).head = (s.q q).head := (congrArg Queue.head hsame :)
  have hcfg : ((turnState s h).q q).cfg = (s.q q).cfg := (congrArg Queue.cfg hsame :)
  have hkept : ((turnState s h).q q).tail = (s.q q).tail := (congrArg Queue.tail hsame :)
  rw [ht.applied (by simp [RxBody.len]) hf.1 hf.2 rfl rfl, applyMark_keeps (fun s => (s.q q).tail) fun _ _ _ => rfl,
    applyFrame_doorbell, ← hkept]
  exact applyDoorbell_rings hm ((congrArg Queue.st hsame :).trans hst) (by rw [hhead, hcfg]; exact htail)

theorem InTurn.tally {id : BitVec 32} (hf : Finds s h (.tally id)) (hl : leaseStrand (turnState s h) h.strand = true) :
    (receive s h (.tally id)).mgmt.tally = s.mgmt.tally ++ [(id, h.strand)] ∧ (receive s h (.tally id)).mem = s.mem := by
  obtain ⟨hmem, hmgmt, -⟩ := turnState_keeps s h
  have hlen : (RxBody.tally id).len ≤ 8176 := by simp [RxBody.len]
  obtain ⟨htally, hkept⟩ := takeTally_lease hl id
  refine ⟨?_, ?_⟩
  · rw [ht.applied hlen hf.1 hf.2 rfl rfl, applyMark_keeps (fun s => s.mgmt.tally) fun _ _ _ => rfl,
      applyFrame_tally, htally, hmgmt]
  · rw [ht.receive_mem hlen hf rfl rfl, applyFrame_tally, hkept, hmem]

end

/-! ## The statement -/

/-- Settles O41: a frame in its turn is applied to the state that its acknowledgement leaves (`InTurn.applied`), and what it
changes is the lemma about its application. -/
theorem framesApply : Obligations.FramesApply := by
  refine ⟨?_, fun id n rest s ht ha hop => ?_⟩
  · intro h s n x a walked here hfrom hawake hgoing hman hused hop hphase hkey hpsn hbits hheld
    have hturn : InTurn s h := ⟨hfrom, hawake, hgoing, hman, hused, hop, hphase, hkey, hpsn, hbits, hheld⟩
    refine ⟨?_, fun addr data c hl hne hhere htarget => ⟨_, rfl, hturn.write_fails hl hne hhere htarget⟩, ?_, ?_, ?_,
      fun q tail hhere hm hst ht => ⟨_, rfl, hturn.doorbell hhere hm hst ht⟩,
      fun id hhere hl => ⟨_, rfl, hturn.tally hhere hl⟩, ?_, ?_⟩
    · intro addr data segs hl hne hhere a' htarget b i hi
      have hone : ∀ body : RxBody, body = .write addr data ∨ body = .writeFlagged addr data →
          (∀ y, cellGet (receive s h body).mem.cells y = cellGet (writeSegs b segs addr.toNat data).1.mem.cells y) ∧
            ((receive s h body).strand n).rxC = h.psn := by
        rintro body (rfl | rfl)
        · obtain ⟨hm, hin⟩ := applyWrite_mem (f := ⟨h, .write addr data, s.now⟩) hne htarget
          refine ⟨fun y => ?_, hturn.receive_rxC (b := .write addr data) hl hhere rfl rfl hin⟩
          rw [hturn.receive_mem (b := .write addr data) hl hhere rfl rfl]
          exact congrArg (fun m : Mem => cellGet m.cells y) hm
        · obtain ⟨hm, hin⟩ := applyWrite_mem (f := ⟨h, .writeFlagged addr data, s.now⟩) hne htarget
          refine ⟨fun y => ?_, hturn.receive_rxC (b := .writeFlagged addr data) hl hhere rfl rfl hin⟩
          rw [hturn.receive_mem (b := .writeFlagged addr data) hl hhere rfl rfl]
          exact congrArg (fun m : Mem => cellGet m.cells y) hm
      simp only [List.mem_cons, List.not_mem_nil, or_false] at hi
      rcases hi with rfl | rfl
      · exact ⟨_, rfl, hone _ (.inl rfl)⟩
      · exact ⟨_, rfl, hone _ (.inr rfl)⟩
    · intro addr len segs hl hhere a' htarget hp
      exact ⟨_, rfl, hturn.read hl hhere htarget hp⟩
    · intro addr data r e hl hhere hheld hr he hrop base hg
      have hm := hturn.readResp hl hhere hheld hr he hrop hg
      exact ⟨_, rfl, fun y => congrArg (fun m : Mem => cellGet m.cells y) hm⟩
    · intro aty fetch addr data segs hl hne hhere hadd a' htarget hp b
      have hm := hturn.atomicAdd hl hne hhere hadd htarget hp
      exact ⟨_, rfl, fun y => congrArg (fun m : Mem => cellGet m.cells y) hm⟩
    · intro w0 w1 k hhere hk hm hp hst
      exact ⟨_, rfl, hturn.pace hhere hk hm hp hst⟩
    · intro w0 w1 k hhere hk hm hc
      exact ⟨_, rfl, hturn.lag hhere hk hm hc⟩
  · refine ⟨_, rfl, ?_⟩
    rw [doTallyFreeze_eq ht ha]
    exact post_snapped hop ..

end Sys2Proof.Machine
end

section
/-!
PROOFS. Collectives, barriers, skip-step and digest agreement (15; O36).
-/

namespace Sys2Proof.Machine

/-! ## The dispatch of a collective (15 R399, R407, R410) -/

/-- A descriptor that is refused, with the groups and memory as they were. -/
def Refused (q : Fin 4096) (d : Desc) (s t : State) : Prop :=
  t.ply = s.ply ∧ t.mem = s.mem ∧ (descOf t q d.seq).map (·.st) = some (.finished .refused {} 0 0 0)

theorem failDesc_refused {s : State} {q : Fin 4096} {d : Desc} (hd : d ∈ (s.q q).descs) :
    Refused q d s (failDesc s q d.seq .refused) := by
  obtain ⟨e, he⟩ := descOf_of_mem hd
  exact ⟨failDesc_keeps (f := fun s => s.ply) (fun _ _ _ => rfl) (fun _ _ => rfl) .., failDesc_mem ..,
    failDesc_finishes he _⟩

section
variable {s : State} {q : Fin 4096} {d : Desc} {mine : CollBody → Bool} (hd : mayDispatch s q 3 = some d)
  (hform : collFormOk d.raw = true) (hmine : mine (collBody d.raw) = true)
include hd hform hmine

theorem dispatchColl_noSlot (h : slotOf s (collBody d.raw).group = none) : Refused q d s (dispatchColl q mine s) := by
  have e : dispatchColl q mine s = failDesc s q d.seq .refused := by
    unfold dispatchColl
    simp only [hd]
    rw [if_neg (by simp [hmine]), if_neg (by simp [hform]), h]
  exact e ▸ failDesc_refused (mem_of_mayDispatch hd)

theorem dispatchColl_notOwned {k : Fin 8} (h : slotOf s (collBody d.raw).group = some k)
    (ho : groupOwned s (s.slot k) (queueOwner q) = false) : Refused q d s (dispatchColl q mine s) := by
  have e : dispatchColl q mine s = failDesc s q d.seq .refused := by
    unfold dispatchColl
    simp only [hd]
    rw [if_neg (by simp [hmine]), if_neg (by simp [hform]), h]
    exact if_pos (by simp [ho])
  exact e ▸ failDesc_refused (mem_of_mayDispatch hd)

theorem dispatchColl_waits {k : Fin 8} {o : GOp} (h : slotOf s (collBody d.raw).group = some k)
    (ho : groupOwned s (s.slot k) (queueOwner q) = true) (hc : collCheck (s.slot k).cfg (collBody d.raw) = none)
    (hop : collOp s q d.seq k (collBody d.raw) = some o) (ht : collTurn s q k (collBody d.raw).group = true)
    (hst : (s.slot k).st = .forming ∨ (s.slot k).st = .ready) :
    (dispatchColl q mine s).ply.ops = s.ply.ops ++ [o] ∧ (dispatchColl q mine s).mem.cells = s.mem.cells := by
  have hshort : (s.slot k).short = false := by rcases hst with h | h <;> simp [Ply.short, h]
  have hwalk {α : Type} {f : State → α} (hf : OffWalk f) (u : State) : f (collTable u q (s.slot k).cfg (collBody d.raw)) =
      f u := by
    unfold collTable
    dsimp only
    split
    · exact (touchSegs_keeps hf.toOffReel ..).trans (walkSegs_keeps hf ..)
    · rfl
  have hkeep {α : Type} {f : State → α} (hf : OffWalk f) (h1 : ∀ s n x, f (State.setQ s n x) = f s)
      (h2 : ∀ s x, f (State.setPwr s x) = f s) (u : State) (segs : List Seg) :
      f (startDesc (walkSegs (collTable u q (s.slot k).cfg (collBody d.raw)) (queueOwner q) segs) q d.seq) = f u :=
    (startDesc_keeps h1 h2 ..).trans ((walkSegs_keeps hf ..).trans (hwalk hf u))
  unfold dispatchColl
  simp only [hd]
  rw [if_neg (by simp [hmine]), if_neg (by simp [hform]), h]
  dsimp only
  rw [if_neg (by simp [ho]), hc]
  dsimp only
  rw [hop]
  dsimp only
  rw [if_neg (by simp [hshort]), if_neg (by simp [ht])]
  exact ⟨congrArg (fun p => p.ops ++ [o]) (hkeep (f := fun s => s.ply) offWalk_ply (fun _ _ _ => rfl) (fun _ _ => rfl) _ _),
    hkeep (f := fun s => s.mem.cells) offWalk_cells (fun _ _ _ => rfl) (fun _ _ => rfl) _ _⟩

end

/-- A collective's operation is one of its slot, with what its descriptor names. -/
theorem collOp_fields {s : State} {q : Fin 4096} {seq : Nat} {k : Fin 8} {b : CollBody} {o : GOp}
    (h : collOp s q seq k b = some o) : o.slot = k ∧ o.kind = .collective b.cop ∧ o.step = b.step ∧ o.count = b.count := by
  unfold collOp at h
  dsimp only at h
  split at h
  · cases h
    exact ⟨rfl, rfl, rfl, rfl⟩
  · exact nomatch h

/-! ## The end of a group operation -/

theorem endOp_finishes {s : State} {o : GOp} (h : (descOf s o.queue o.seq).map (·.st) = some .running) (st : Status) :
    (descOf (endOp s o st) o.queue o.seq).map (·.st) = some (.finished st o.flags 0 0 0) :=
  finish_finishes (s := dropOp s o) h st o.flags 0 0 0

theorem poisonRecord_keeps {α : Type} {g : State → α}
    (hg : ∀ s m v, g { s with mgmt := m, twine := { s.twine with strands := v } } = g s) (s : State) (a : Option Nat)
    (q type : Nat) : g (poisonRecord s a q type) = g s := by
  unfold poisonRecord
  split
  · rfl
  next b =>
    obtain ⟨f, d, v, e⟩ := record_form s 0x02 (some .faulted)
      (if ((locKey (physLoc s.mem b)).bind (keyChan s.mem)).isSome then 3 else 8)
      ((((locKey (physLoc s.mem b)).bind (keyChan s.mem)).map (·.val)).getD 0) [b, q + 4096 * type]
    exact (congrArg g e).trans (hg ..)

/-- The slots of the groups, and the queues of the descriptors, that a transfer of bytes leaves. -/
theorem offBytes_slots : OffBytes fun s => s.ply.slots := ⟨fun _ _ _ => rfl, fun _ _ _ => rfl, fun _ _ => rfl⟩

/-! ## The copy of a member's own data (15 R408; log 108) -/

/-- The state in which a member writes its own copy. -/
def copyStarts (s : State) (o : GOp) (a b n : Nat) : State :=
  let v := (pieces o.dstSegs b n).foldl (fun s y => reelTouch s y.1 y.2.2 .stream true) (touchSegs s o.srcSegs a n false)
  poisonRecord v (firstPart v o.dstSegs b n) o.queue.val 3

theorem copyStarts_keeps {α : Type} {g : State → α} (hg : OffBytes g)
    (hr : ∀ s m v, g { s with mgmt := m, twine := { s.twine with strands := v } } = g s) (s : State) (o : GOp) (a b n : Nat) :
    g (copyStarts s o a b n) = g s :=
  (poisonRecord_keeps hr ..).trans ((foldl_keeps g (fun s (y : Nat × Nat × Nat) => reelTouch s y.1 y.2.2 .stream true)
    (fun s _ => hg.offTraffic.reelTouch s ..) _ _).trans (foldl_keeps g _ (fun s _ => hg.offTraffic.reelTouch s ..) _ s))

/-- A collective whose transfers are done ends, with the member's own copy written. -/
theorem settleColl_done {s : State} {k : Fin 8} {o : GOp} {cop : Nat} (hp : o.plan = []) :
    settleColl s k o cop = match ownCopy (s.slot k).cfg cop o.alg o.root o.src o.dst (collBytes o.fmt o.count) with
      | none => endOp s o .ok
      | some (a, b, n) =>
        if segsPoisoned s o.srcSegs a n then endOp (poisonRecord s (firstPoison s o.srcSegs a n) o.queue.val 3) o .faulted
        else
          let r := writeSegs (copyStarts s o a b n) o.dstSegs b (readSegs s o.srcSegs a n)
          endOp r.1 o (if r.2 then .ok else .faulted) :=
  if_neg (by simp [hp])

theorem settleColl_slots (s : State) (k : Fin 8) (o : GOp) (cop : Nat) :
    (settleColl s k o cop).ply.slots = s.ply.slots := by
  by_cases hp : o.plan = []
  · rw [settleColl_done hp]
    split
    · rfl
    split
    · exact poisonRecord_keeps (g := fun s => s.ply.slots) (fun _ _ _ => rfl) ..
    · exact (writeSegs_keeps offBytes_slots ..).trans (copyStarts_keeps offBytes_slots (fun _ _ _ => rfl) ..)
  · rw [settleColl, if_pos hp]

/-- The operation whose transfers are done has an end. -/
theorem settleColl_finishes {s : State} {k : Fin 8} {o : GOp} {cop : Nat} (hp : o.plan = [])
    (h : (descOf s o.queue o.seq).map (·.st) = some .running) :
    ∃ st fl, (descOf (settleColl s k o cop) o.queue o.seq).map (·.st) = some (.finished st fl 0 0 0) := by
  have hsame {t : State} (hq : t.queues = s.queues) : (descOf t o.queue o.seq).map (·.st) = some .running := by
    rw [descOf_congr hq, h]
  rw [settleColl_done hp]
  split
  · exact ⟨_, _, endOp_finishes h _⟩
  split
  · exact ⟨_, _, endOp_finishes (hsame (poisonRecord_keeps (g := fun s => s.queues) (fun _ _ _ => rfl) ..)) _⟩
  · exact ⟨_, _, endOp_finishes (hsame ((writeSegs_keeps offBytes_queues ..).trans
      (copyStarts_keeps offBytes_queues (fun _ _ _ => rfl) ..))) _⟩

/-- The memory that the member's own copy leaves. -/
theorem settleColl_mem {s : State} {k : Fin 8} {o : GOp} {cop a b n : Nat} (hp : o.plan = [])
    (hc : ownCopy (s.slot k).cfg cop o.alg o.root o.src o.dst (collBytes o.fmt o.count) = some (a, b, n))
    (hs : segsPoisoned s o.srcSegs a n = false) : (settleColl s k o cop).mem =
      (writeSegs (copyStarts s o a b n) o.dstSegs b (readSegs s o.srcSegs a n)).1.mem := by
  rw [settleColl_done hp, hc]
  dsimp only
  rw [if_neg (by simp [hs])]
  rfl

theorem settleColl_goes {s : State} {k : Fin 8} {o : GOp} {cop : Nat} (hp : o.plan ≠ []) : settleColl s k o cop = s :=
  if_pos hp

/-! ## The head of a slot -/

/-- The head of a slot changed under its number is still its head. -/
theorem headOp_setOp {s t : State} {k : Fin 8} {o o' : GOp} (h : headOp s k = some o) (ht : t.ply.ops = s.ply.ops)
    (ho : o'.slot = o.slot) : headOp (setOp t o o') k = some o' := by
  have hk : o.slot = k := by simpa using List.find?_some h
  have hfind : ∀ l : List GOp, l.find? (fun o => decide (o.slot = k)) = some o →
      (l.map fun x => if x.queue = o.queue ∧ x.seq = o.seq then o' else x).find? (fun o => decide (o.slot = k)) = some o' := by
    intro l
    induction l with
    | nil => exact nofun
    | cons x l ih =>
      intro hl
      rw [List.map_cons]
      by_cases hx : x.queue = o.queue ∧ x.seq = o.seq
      · rw [if_pos hx, List.find?_cons_of_pos (by simp [ho, hk])]
      · rw [if_neg hx]
        by_cases hs : x.slot = k
        · rw [List.find?_cons_of_pos (by simp [hs])] at hl
          cases hl
          exact absurd ⟨rfl, rfl⟩ hx
        · rw [List.find?_cons_of_neg (by simp [hs])] at hl ⊢
          exact ih hl
  unfold headOp setOp
  dsimp only
  rw [ht]
  exact hfind _ h

/-! ## The signature round (15 R406, R410, R412) -/

theorem matched_slot (s : State) (k : Fin 8) (o : GOp) :
    (matched s k o).slot k = { s.slot k with match_ := (s.slot k).match_ + 1, lastStep := o.step } :=
  State.setSlot_slot_same ..

section
variable {s : State} {k : Fin 8} {o : GOp} {cop : Nat} {parts : List SigPart}

/-- What the round of a READY group does once every member has signed. -/
theorem doSignatureRoundComplete_round (ho : headOp s k = some o) (hst : (s.slot k).st = .ready)
    (hw : s.worksFor o.queue = true) (hk : o.kind = .collective cop) (hd : o.data = false)
    (hall : ∀ i ∈ (s.slot k).others, ∃ p ∈ parts, p.member.val = i) :
    let ps := parts.filter fun p => (s.slot k).others.contains p.member.val
    doSignatureRoundComplete k parts s =
      if ps.any (fun p => p.step != o.step) then endOp (matched s k o) o .staleGeneration
      else if ps.any (fun p => p.crc.isSome && o.crc.isSome && p.crc != o.crc) then
        let bad := ps.filter fun p => p.crc.isSome && o.crc.isSome && p.crc != o.crc
        masterRecord (endOp (matched s k o) o .digestMismatch) k 0x08 .digestMismatch o.step
          (memberBits (bad.map (·.member.val))) 0
      else if ps.any (fun p => !sigSame p o cop) then endOp (matched s k o) o .format
      else beginData (matched s k o) k o cop (nextEpoch (s.slot k) ps) := by
  intro ps
  have hthere : ((s.slot k).others.all fun i => ps.any fun p => p.member.val == i) = true := by
    rw [List.all_eq_true]
    intro i hi
    obtain ⟨p, hp, rfl⟩ := hall i hi
    exact List.any_eq_true.2 ⟨p, List.mem_filter.2 ⟨hp, by simpa using hi⟩, by simp⟩
  unfold doSignatureRoundComplete
  simp only [ho, hk]
  exact if_neg (by simpa [ps, hst, hd, hw] using hthere)

theorem mem_signed {p : SigPart} : (p ∈ parts.filter fun p => (s.slot k).others.contains p.member.val) ↔
    p ∈ parts ∧ p.member.val ∈ (s.slot k).others := by simp

theorem doSignatureRoundComplete_agrees (ho : headOp s k = some o) (hst : (s.slot k).st = .ready)
    (hw : s.worksFor o.queue = true) (hk : o.kind = .collective cop) (hd : o.data = false)
    (hall : ∀ i ∈ (s.slot k).others, ∃ p ∈ parts, p.member.val = i)
    (hsame : ∀ p ∈ parts, p.member.val ∈ (s.slot k).others → p.step = o.step ∧ p.crc = o.crc ∧ sigSame p o cop = true) :
    doSignatureRoundComplete k parts s = beginData (matched s k o) k o cop
      (nextEpoch (s.slot k) (parts.filter fun p => (s.slot k).others.contains p.member.val)) := by
  have hnone (f : SigPart → Bool) (hf : ∀ p, p.step = o.step → p.crc = o.crc → sigSame p o cop = true → f p = false) :
      ¬ (parts.filter fun p => (s.slot k).others.contains p.member.val).any f = true := by
    rw [List.any_eq_true]
    rintro ⟨p, hp, h⟩
    obtain ⟨hin, hmem⟩ := mem_signed.1 hp
    obtain ⟨h1, h2, h3⟩ := hsame p hin hmem
    rw [hf p h1 h2 h3] at h
    exact nomatch h
  rw [doSignatureRoundComplete_round ho hst hw hk hd hall, if_neg (hnone _ fun p h _ _ => by simp [h]),
    if_neg (hnone _ fun p _ h _ => by simp [h]), if_neg (hnone _ fun p _ _ h => by simp [h])]

theorem doSignatureRoundComplete_stale (ho : headOp s k = some o) (hst : (s.slot k).st = .ready)
    (hw : s.worksFor o.queue = true) (hk : o.kind = .collective cop) (hd : o.data = false)
    (hall : ∀ i ∈ (s.slot k).others, ∃ p ∈ parts, p.member.val = i)
    (hstale : ∃ p ∈ parts, p.member.val ∈ (s.slot k).others ∧ p.step ≠ o.step) :
    doSignatureRoundComplete k parts s = endOp (matched s k o) o .staleGeneration := by
  obtain ⟨p, hp, hin, hne⟩ := hstale
  rw [doSignatureRoundComplete_round ho hst hw hk hd hall]
  exact if_pos (List.any_eq_true.2 ⟨p, mem_signed.2 ⟨hp, hin⟩, by simpa using hne⟩)

/-- A barrier completes; a checkpoint barrier takes the epoch. -/
theorem beginData_barrier (hc : o.count = 0) (e : BitVec 32) : beginData s k o cop e =
    endOp (if cop = 3 then s.setSlot k { s.slot k with epoch := e, epochStep := o.step } else s) o .ok :=
  if_pos hc

theorem beginData_barrier_ends (hc : o.count = 0) (hrun : (descOf s o.queue o.seq).map (·.st) = some .running)
    (e : BitVec 32) : (descOf (beginData s k o cop e) o.queue o.seq).map (·.st) = some (.finished .ok o.flags 0 0 0) ∧
      ((beginData s k o cop e).slot k).epoch = if cop = 3 then e else (s.slot k).epoch := by
  have hslot (t : State) (st : Status) : (endOp t o st).slot k = t.slot k := rfl
  rw [beginData_barrier hc, hslot]
  by_cases h3 : cop = 3
  · rw [if_pos h3, if_pos h3, State.setSlot_slot_same]
    exact ⟨endOp_finishes (s := s.setSlot k _) hrun _, rfl⟩
  · rw [if_neg h3, if_neg h3]
    exact ⟨endOp_finishes hrun _, rfl⟩

/-- The state in which the data phase of a collective has begun. -/
def dataStarts (s : State) (k : Fin 8) (o : GOp) (cop : Nat) : State :=
  let c := (s.slot k).cfg
  setOp ((firstSends c cop o.alg o.root o.src (collBytes o.fmt o.count)).foldl
      (fun s r => touchSegs s o.srcSegs r.1 r.2 false) s) o
    { o with data := true, plan := planOf c cop o.alg o.root o.src o.dst (collBytes o.fmt o.count) }

/-- Bytes that a member of a collective reads of its source. -/
def sourceBytes (c : PlyCfg) (o : GOp) (cop : Nat) : Nat :=
  (collBufs c { src := o.src, dst := o.dst, count := o.count, fmt := o.fmt, cop, alg := o.alg, root := o.root
                group := 0, step := 0, btab := 0 }).1.2.1

theorem beginData_data (hc : o.count ≠ 0) (e : BitVec 32) : beginData s k o cop e =
    if !opMapped s o then endOp s o .access
    else if !opReadable s o (sourceBytes (s.slot k).cfg o cop) then
      endOp (poisonRecord s (firstPoison s o.srcSegs o.src (sourceBytes (s.slot k).cfg o cop)) o.queue.val 3) o .faulted
    else settleColl (dataStarts s k o cop) k
      { o with data := true, plan := planOf (s.slot k).cfg cop o.alg o.root o.src o.dst (collBytes o.fmt o.count) } cop :=
  if_neg hc

theorem dataStarts_slots (s : State) (k : Fin 8) (o : GOp) (cop : Nat) : (dataStarts s k o cop).ply.slots = s.ply.slots :=
  foldl_keeps (fun s => s.ply.slots) (fun s (r : Nat × Nat) => touchSegs s o.srcSegs r.1 r.2 false)
    (fun s _ => foldl_keeps (fun s => s.ply.slots) _ (fun s _ => offBytes_slots.offTraffic.reelTouch s ..) _ s) _ s

theorem beginData_match (s : State) (k : Fin 8) (o : GOp) (cop : Nat) (e : BitVec 32) :
    ((beginData s k o cop e).slot k).match_ = (s.slot k).match_ := by
  have hkept {t : State} (h : t.ply.slots = s.ply.slots) : (t.slot k).match_ = (s.slot k).match_ :=
    congrArg (fun v => (v.get k).match_) h
  by_cases hc : o.count = 0
  · rw [beginData_barrier hc]
    split
    · exact (congrArg Ply.match_ (State.setSlot_slot_same s k { s.slot k with epoch := e, epochStep := o.step }) :)
    · rfl
  · rw [beginData_data hc]
    split
    · rfl
    split
    · exact hkept (poisonRecord_keeps (g := fun s => s.ply.slots) (fun _ _ _ => rfl) ..)
    · exact hkept ((settleColl_slots ..).trans (dataStarts_slots ..))

/-- The head of a slot whose data phase begins with transfers. -/
theorem beginData_head (ho : headOp s k = some o) (hc : o.count ≠ 0)
    (hp : planOf (s.slot k).cfg cop o.alg o.root o.src o.dst (collBytes o.fmt o.count) ≠ [])
    (hm : opMapped s o = true) (hr : opReadable s o (sourceBytes (s.slot k).cfg o cop) = true) (e : BitVec 32) :
    headOp (beginData s k o cop e) k = some { o with
      data := true, plan := planOf (s.slot k).cfg cop o.alg o.root o.src o.dst (collBytes o.fmt o.count) } := by
  rw [beginData_data hc, if_neg (by simp [hm]), if_neg (by simp [hr]), settleColl_goes hp]
  refine headOp_setOp ho ?_ rfl
  exact foldl_keeps (fun s => s.ply.ops) (fun s (r : Nat × Nat) => touchSegs s o.srcSegs r.1 r.2 false)
    (fun s r => congrArg (fun p => p.ops) (touchSegs_keeps offWalk_ply.toOffReel s ..)) _ s

end

/-! ## Chunks of the data phase (15 R408, R409) -/

theorem addTouch_keeps {α : Type} {g : State → α} (hg : OffBytes g) (s : State) (a n : Nat) : g (addTouch s a n) = g s := by
  refine foldl_keeps g _ (fun s i => ?_) _ s
  dsimp only
  split
  · exact hg.offTraffic.touchUnit s ..
  split
  · exact (hg.mem _ _).trans (hg.offTraffic.reelDrop s ..)
  · exact hg.offTraffic.reelDrop s ..

theorem addSegs_keeps {α : Type} {g : State → α} (hg : OffBytes g) (s : State) (segs : List Seg) (ty a : Nat)
    (src : List Byte) : g (addSegs s segs ty a src).1 = g s := by
  unfold addSegs
  split
  · rfl
  · exact (writeSegs_keeps hg ..).trans
      (foldl_keeps g (fun s (y : Nat × Nat × Nat) => addTouch s y.1 y.2.2) (fun s y => addTouch_keeps hg s _ _) _ s)

theorem runXfer_keeps {α : Type} {g : State → α} (hg : OffBytes g) {s t : State} {o : GOp} {x : Xfer} {data : List Byte}
    {ok : Bool} {f : Flags} (h : runXfer s o x data = some (t, ok, f)) : g t = g s := by
  unfold runXfer at h
  split at h
  · split at h
    · cases h
      rfl
    · exact nomatch h
  · split at h
    · exact nomatch h
    split at h
    · have e := congrArg Prod.fst (Option.some.inj h)
      rw [← show _ = t from e]
      exact addSegs_keeps hg ..
    · exact nomatch h
  · split at h
    · exact nomatch h
    · cases h
      exact (writeSegs_keeps hg ..).trans (foldl_keeps g (fun s (y : Nat × Nat × Nat) => reelTouch s y.1 y.2.2 .stream true)
        (fun s y => hg.offTraffic.reelTouch s ..) _ s)

theorem doCollectiveChunkAcked_applies {s t : State} {k : Fin 8} {o : GOp} {cop : Nat} {x : Xfer} {rest : List Xfer}
    {data : List Byte} {f : Flags} (ho : headOp s k = some o) (hw : s.worksFor o.queue = true)
    (hk : o.kind = .collective cop) (hp : o.plan = x :: rest) (hm : opMapped s o = true) (hx : xferWaits s o x = false)
    (hr : runXfer s o x data = some (t, true, f)) : doCollectiveChunkAcked k data s =
      settleColl (setOp t o { o with plan := rest, flags := o.flags.or f }) k
        { o with plan := rest, flags := o.flags.or f } cop := by
  unfold doCollectiveChunkAcked
  simp only [ho, hk, hp]
  rw [if_neg (by simp [hw, hx]), if_neg (by simp [hm]), hr]
  rfl

/-! ## Skip-step and digest agreement (15 R413, R414) -/

/-- What a CHECK or DIGEST holds back is written, and it ends. -/
theorem writeOp_writes {s : State} {o : GOp} {ws : List (Nat × List Byte)} (hm : opMapped s o = true)
    (hp : ∀ w ∈ ws, firstPart s (o.resSegs ++ o.decSegs) w.1 w.2.length = none) (st : Status) :
    writeOp s o ws st = endOp (distWrites s (o.resSegs ++ o.decSegs) ws) o st := by
  have hnone : (ws.findSome? fun w => firstPart s (o.resSegs ++ o.decSegs) w.1 w.2.length) = none :=
    List.findSome?_eq_none_iff.2 hp
  unfold writeOp
  dsimp only
  rw [if_neg (by simp [hm]), hnone]
  rfl

theorem writeOp_finishes {s : State} {o : GOp} {ws : List (Nat × List Byte)} (hm : opMapped s o = true)
    (hp : ∀ w ∈ ws, firstPart s (o.resSegs ++ o.decSegs) w.1 w.2.length = none)
    (hr : (descOf s o.queue o.seq).map (·.st) = some .running) (st : Status) :
    (descOf (writeOp s o ws st) o.queue o.seq).map (·.st) = some (.finished st o.flags 0 0 0) ∧
      (writeOp s o ws st).mgmt = s.mgmt ∧ (writeOp s o ws st).mem = (distWrites s (o.resSegs ++ o.decSegs) ws).mem := by
  rw [writeOp_writes hm hp]
  refine ⟨endOp_finishes ?_ st, distWrites_keeps offBytes_mgmt s _ _, rfl⟩
  rw [descOf_congr (distWrites_keeps offBytes_queues s _ _), hr]

section
variable {s : State} {k : Fin 8} {o : GOp}

theorem doSkipDecision_agrees {parts : List SkipPart} (ho : headOp s k = some o) (hst : (s.slot k).st = .ready)
    (hw : s.worksFor o.queue = true) (hk : o.kind = .check)
    (hall : ∀ i ∈ (s.slot k).others, ∃ p ∈ parts, p.member.val = i)
    (hsame : ∀ p ∈ parts, p.member.val ∈ (s.slot k).others → p.step = o.step ∧ p.nb = o.nb) :
    let ps := parts.filter fun p => (s.slot k).others.contains p.member.val
    let map := (ps.foldl (fun m p => orBytes m p.map) o.body).take o.body.length
    doSkipDecision k parts s = writeOp (matched s k o) o
      (o.value ++ [(o.decBase, decisionBytes o.step (o.skip || ps.any (·.skip)) map)]) .ok := by
  intro ps map
  have hthere : ((s.slot k).others.all fun i => ps.any fun p => p.member.val == i) = true := by
    rw [List.all_eq_true]
    intro i hi
    obtain ⟨p, hp, rfl⟩ := hall i hi
    exact List.any_eq_true.2 ⟨p, List.mem_filter.2 ⟨hp, by simpa using hi⟩, by simp⟩
  have hstep : ¬ ps.any (fun p => p.step != o.step || p.nb != o.nb) = true := by
    rw [List.any_eq_true]
    rintro ⟨p, hp, h⟩
    obtain ⟨hin, hmem⟩ := List.mem_filter.1 hp
    obtain ⟨h1, h2⟩ := hsame p hin (by simpa using hmem)
    simp [h1, h2] at h
  unfold doSkipDecision
  simp only [ho]
  rw [if_neg (by simpa [ps, hst, hk, hw] using hthere), if_neg hstep]

theorem digestSame_iff (a b : DigestPart) : digestSame a b = true ↔
    a.mask = b.mask ∧ a.planes = b.planes ∧ a.entries = b.entries := by
  simp [digestSame, and_assoc]

/-- Contributions that agree wherever they are of one shard hold no set that disagrees. -/
theorem badSets_nil {l : List DigestPart} (h : ∀ p ∈ l, ∀ r ∈ l, p.shard = r.shard → digestSame p r = true) :
    badSets l = [] := by
  unfold badSets
  rw [List.filter_eq_nil_iff]
  intro g hg hany
  obtain ⟨sh, -, rfl⟩ := List.mem_map.1 hg
  obtain ⟨a, ha, hany⟩ := List.any_eq_true.1 hany
  obtain ⟨b, hb, hne⟩ := List.any_eq_true.1 hany
  obtain ⟨ha, hsa⟩ := List.mem_filter.1 ha
  obtain ⟨hb, hsb⟩ := List.mem_filter.1 hb
  simp only [decide_eq_true_eq] at hsa hsb
  rw [h a ha b hb (hsa.trans hsb.symm)] at hne
  exact nomatch hne

/-- What this device contributes to a digest comparison. -/
def ownDigest (s : State) (k : Fin 8) (o : GOp) : List DigestPart :=
  ((List.finRange 64).filter fun i => i.val = (s.slot k).cfg.index).map fun i =>
    { member := i, shard := (s.slot k).cfg.shard, step := o.step, mask := o.mask, planes := o.planes, entries := o.body }

theorem mem_ownDigest {p : DigestPart} (h : p ∈ ownDigest s k o) :
    p.shard = (s.slot k).cfg.shard ∧ p.mask = o.mask ∧ p.planes = o.planes ∧ p.entries = o.body := by
  obtain ⟨i, -, rfl⟩ := List.mem_map.1 h
  exact ⟨rfl, rfl, rfl, rfl⟩

theorem doDigestComparison_agrees {parts : List DigestPart} (ho : headOp s k = some o) (hst : (s.slot k).st = .ready)
    (hw : s.worksFor o.queue = true) (hk : o.kind = .digest)
    (hall : ∀ i ∈ (s.slot k).others, ∃ p ∈ parts, p.member.val = i)
    (hown : ∀ p ∈ parts, p.member.val ∈ (s.slot k).others → p.shard = (s.slot k).cfg.shard →
      p.mask = o.mask ∧ p.planes = o.planes ∧ p.entries = o.body)
    (hsame : ∀ p ∈ parts, ∀ r ∈ parts, p.shard = r.shard → digestSame p r = true) :
    doDigestComparison k parts s = writeOp (matched s k o) o o.value .ok := by
  have hthere : ((s.slot k).others.all fun i =>
      (parts.filter fun p => (s.slot k).others.contains p.member.val).any fun p => p.member.val == i) = true := by
    rw [List.all_eq_true]
    intro i hi
    obtain ⟨p, hp, rfl⟩ := hall i hi
    exact List.any_eq_true.2 ⟨p, List.mem_filter.2 ⟨hp, by simpa using hi⟩, by simp⟩
  have hbad : badSets (ownDigest s k o ++ parts.filter fun p => (s.slot k).others.contains p.member.val) = [] := by
    refine badSets_nil fun p hp r hr hs => ?_
    rw [List.mem_append, List.mem_filter] at hp hr
    rcases hp with hp | ⟨hp, hpm⟩ <;> rcases hr with hr | ⟨hr, hrm⟩
    · obtain ⟨-, h1, h2, h3⟩ := mem_ownDigest hp
      obtain ⟨-, h4, h5, h6⟩ := mem_ownDigest hr
      exact (digestSame_iff ..).2 ⟨h1.trans h4.symm, h2.trans h5.symm, h3.trans h6.symm⟩
    · obtain ⟨h0, h1, h2, h3⟩ := mem_ownDigest hp
      obtain ⟨h4, h5, h6⟩ := hown r hr (by simpa using hrm) (hs.symm.trans h0)
      exact (digestSame_iff ..).2 ⟨h1.trans h4.symm, h2.trans h5.symm, h3.trans h6.symm⟩
    · obtain ⟨h0, h1, h2, h3⟩ := mem_ownDigest hr
      obtain ⟨h4, h5, h6⟩ := hown p hp (by simpa using hpm) (hs.trans h0)
      exact (digestSame_iff ..).2 ⟨h4.trans h1.symm, h5.trans h2.symm, h6.trans h3.symm⟩
    · exact hsame p hp r hr hs
  unfold doDigestComparison
  simp only [ho]
  rw [if_neg (by simpa [hst, hk, hw] using hthere), ← ownDigest, hbad]
  simp

end

/-! ## The statement -/

/-- Settles O36: the seven forms run one dispatch (`dispatchColl`); each round of a READY group by the lemma about its
command. -/
theorem collectives : Obligations.Collectives := by
  refine ⟨?_, ?_⟩
  · intro q d c s hd hform b hc refused
    obtain ⟨mine, hmine, hexec⟩ : ∃ mine : CollBody → Bool, mine (collBody d.raw) = true ∧
        exec c s = .next (dispatchColl q mine s) := by
      rcases hc with ⟨rfl, h, h0⟩ | ⟨rfl, h⟩ | ⟨rfl, h⟩ | ⟨rfl, h, h0⟩ | ⟨rfl, h⟩ | ⟨rfl, h, h0⟩ | ⟨rfl, h, h0⟩
      · exact ⟨fun b => (b.cop == 0 && b.count != 0) || decide (5 ≤ b.cop), by simp [show (collBody d.raw).cop = 0 from h,
          show (collBody d.raw).count ≠ 0 from h0], rfl⟩
      · exact ⟨fun b => b.cop == 1, by simp [show (collBody d.raw).cop = 1 from h], rfl⟩
      · exact ⟨fun b => b.cop == 2, by simp [show (collBody d.raw).cop = 2 from h], rfl⟩
      · exact ⟨fun b => b.cop == 3 && b.count != 0, by simp [show (collBody d.raw).cop = 3 from h,
          show (collBody d.raw).count ≠ 0 from h0], rfl⟩
      · exact ⟨fun b => b.cop == 4, by simp [show (collBody d.raw).cop = 4 from h], rfl⟩
      · exact ⟨fun b => b.cop == 0 && b.count == 0, by simp [show (collBody d.raw).cop = 0 from h,
          show (collBody d.raw).count = 0 from h0], rfl⟩
      · exact ⟨fun b => b.cop == 3 && b.count == 0, by simp [show (collBody d.raw).cop = 3 from h,
          show (collBody d.raw).count = 0 from h0], rfl⟩
    refine ⟨fun hslot => ⟨_, hexec, dispatchColl_noSlot hd hform hmine hslot⟩,
      fun k hslot hown => ⟨_, hexec, dispatchColl_notOwned hd hform hmine hslot hown⟩,
      fun k o hslot hown hcheck hop hturn hst => ⟨_, hexec, ?_⟩⟩
    obtain ⟨hops, hcells⟩ := dispatchColl_waits hd hform hmine hslot hown hcheck hop hturn hst
    exact ⟨hops, hcells, collOp_fields hop⟩
  · intro k o s ho hst hw hrun others ends
    have hmatched : (descOf (matched s k o) o.queue o.seq).map (·.st) = some .running := hrun
    refine ⟨fun cop parts hk hdata hall => ⟨fun hsame => ⟨_, rfl, ?_⟩, fun hstale => ⟨_, rfl, ?_⟩⟩, ?_, ?_, ?_⟩
    · rw [doSignatureRoundComplete_agrees ho hst hw hk hdata hall hsame]
      refine ⟨(beginData_match ..).trans (by rw [matched_slot]), fun hc => ?_, ?_⟩
      · obtain ⟨hend, hepoch⟩ := beginData_barrier_ends (k := k) (cop := cop) hc hmatched (nextEpoch (s.slot k)
          (parts.filter fun p => (s.slot k).others.contains p.member.val))
        exact ⟨hend, hepoch.trans (by rw [matched_slot])⟩
      · intro plan n hc hp hm hr
        have hcfg : ((matched s k o).slot k).cfg = (s.slot k).cfg := by rw [matched_slot]
        have hhead := beginData_head (s := matched s k o) (k := k) (cop := cop) ho hc (by rw [hcfg]; exact hp) hm
          (by rw [hcfg]; exact hr) (nextEpoch (s.slot k) (parts.filter fun p => (s.slot k).others.contains p.member.val))
        rw [hcfg] at hhead
        exact hhead
    · rw [doSignatureRoundComplete_stale ho hst hw hk hdata hall hstale]
      exact ⟨endOp_finishes hmatched _, rfl⟩
    · intro cop x rest data s' f hk hp hm hx hr
      have hply : s'.ply = s.ply := runXfer_keeps offBytes_ply hr
      refine ⟨_, rfl, ?_⟩
      rw [doCollectiveChunkAcked_applies ho hw hk hp hm hx hr]
      refine ⟨fun hne => ?_, fun hnil => ⟨?_, ?_⟩⟩
      · rw [settleColl_goes hne]
        exact ⟨headOp_setOp ho (congrArg (fun p => p.ops) hply) rfl, rfl⟩
      · refine settleColl_finishes (o := { o with plan := rest, flags := o.flags.or f }) hnil ?_
        rw [← hrun]
        exact congrArg (Option.map (·.st)) (descOf_congr (runXfer_keeps offBytes_queues hr) o.queue o.seq)
      · intro a b n hc u v hpo y
        subst hnil
        have hslot : (setOp s' o { o with plan := [], flags := o.flags.or f }).slot k = s.slot k :=
          congrArg (fun p => p.slots.get k) hply
        exact congrArg (fun m : Mem => cellGet m.cells y)
          (settleColl_mem (o := { o with plan := [], flags := o.flags.or f }) rfl (by rw [hslot]; exact hc) hpo)
    · intro parts hk hall hsame ps map segs ws hm hparts
      refine ⟨_, rfl, ?_⟩
      rw [doSkipDecision_agrees ho hst hw hk hall hsame]
      obtain ⟨hend, -, hmem⟩ := writeOp_finishes (s := matched s k o) (ws := ws) hm hparts hmatched .ok
      exact ⟨hend, fun x => congrArg (fun m : Mem => cellGet m.cells x) hmem⟩
    · intro parts hk hall hown hsame segs hm hparts
      refine ⟨_, rfl, ?_⟩
      rw [doDigestComparison_agrees ho hst hw hk hall hown hsame]
      obtain ⟨hend, hmgmt, hmem⟩ := writeOp_finishes (s := matched s k o) (ws := o.value) hm hparts hmatched .ok
      exact ⟨hend, hmgmt, fun x => congrArg (fun m : Mem => cellGet m.cells x) hmem⟩

end Sys2Proof.Machine
end

section
/-!
PROOFS. Group slots, the peer table, LAG and PACE (15; O37).
-/

namespace Sys2Proof.Machine

/-! ## Paces that end (15 R423) -/

theorem endPace_slot (s : State) (k : Fin 8) : (endPace s k).slot k =
    { s.slot k with pacing := false, pacePm := 1000, paceDur := 0 } :=
  State.setSlot_slot_same ..

theorem endPace_slot_ne (s : State) {j k : Fin 8} (h : j ≠ k) : (endPace s k).slot j = s.slot j :=
  State.setSlot_slot_ne _ _ _ _ h

/-- Without a pace on any slot no skein is held back. -/
theorem applyPaces_none {s : State} (h : ∀ j, (s.slot j).pacing = false) (j : Fin 8) : ((applyPaces s).sk j).paceDiv = 6 := by
  have hd : (List.finRange 8).foldl (fun d k => if (s.slot k).pacing then max d (paceStep (s.slot k).pacePm) else d) 6 = 6 := by
    refine List.foldlRecOn (motive := fun d => d = 6) _ _ rfl fun d hd k _ => ?_
    simp [h k, hd]
  unfold applyPaces
  dsimp only
  rw [hd, sk_map]

theorem endPace_none {s : State} {k : Fin 8} (h : ∀ j, j ≠ k → (s.slot j).pacing = false) (j : Fin 8) :
    ((endPace s k).sk j).paceDiv = 6 := by
  refine applyPaces_none (fun j => ?_) j
  by_cases e : j = k
  · subst e
    rw [State.setSlot_slot_same]
  · rw [State.setSlot_slot_ne _ _ _ _ e]
    exact h j e

/-- Every slot of a list has no pace. -/
def PaceEnded (s : State) (j : Fin 8) : Prop := (s.slot j).pacing = false ∧ (s.slot j).pacePm = 1000

theorem endPace_ended (s : State) (k : Fin 8) : PaceEnded (endPace s k) k := by
  unfold PaceEnded
  rw [endPace_slot]
  exact ⟨rfl, rfl⟩

theorem PaceEnded.endPace {s : State} {j : Fin 8} (h : PaceEnded s j) (k : Fin 8) : PaceEnded (endPace s k) j := by
  by_cases e : j = k
  · exact e ▸ endPace_ended s k
  · unfold PaceEnded
    rw [endPace_slot_ne s e]
    exact h

theorem foldl_endPace_ended (l : List (Fin 8)) (s : State) (j : Fin 8) (h : j ∈ l ∨ PaceEnded s j) :
    PaceEnded (l.foldl Machine.endPace s) j := by
  induction l generalizing s with
  | nil => exact h.resolve_left nofun
  | cons k l ih =>
    refine ih _ ?_
    rcases h with h | h
    · rcases List.mem_cons.1 h with rfl | h
      · exact .inr (endPace_ended s j)
      · exact .inl h
    · exact .inr (h.endPace k)

theorem doCancelPace_ends (k : Fin 8) (s : State) : (∀ j, PaceEnded (doCancelPace k s) j) ∧
    ∀ j, ((doCancelPace k s).sk j).paceDiv = 6 := by
  have hlist : List.finRange 8 = [0, 1, 2, 3, 4, 5, 6] ++ [7] := by decide
  refine ⟨fun j => foldl_endPace_ended _ _ _ (.inl (List.mem_finRange j)), fun j => ?_⟩
  unfold doCancelPace
  rw [hlist, List.foldl_append]
  refine endPace_none (k := 7) (fun i hi => ?_) j
  refine (foldl_endPace_ended [0, 1, 2, 3, 4, 5, 6] s i (.inl ?_)).1
  revert i
  decide

/-! ## LAG (15 R420) -/

section
variable {s : State} {k : Fin 8}

/-- Whether the device reports its rate. -/
def lagDue (s : State) (k : Fin 8) (recovered : Bool) : Bool :=
  if recovered then (s.slot k).lagSent.isSome && decide (devPace s ≤ ownRate s)
  else decide (ownRate s < devPace s) && (match (s.slot k).lagSent with
    | none => true
    | some r => decide (r + 50 ≤ ownRate s) || decide (ownRate s + 50 ≤ r))

/-- The state of a device that reports its rate: a master takes the LAG itself, another member sends it. -/
def lagReported (s : State) (k : Fin 8) (dur : BitVec 16) (recovered : Bool) : State :=
  let x := s.slot k
  let rate := ownRate s
  let cause := if recovered then 4 else lagCause s
  let s := s.setSlot k { x with lagSent := if recovered then none else some rate }
  if x.mine then takeLag s k x.cfg.index rate (lagDur s cause dur.toNat) cause
  else match memberStrand s x x.masterNow with
    | some n => post s n (.lag
        (BitVec.ofNat 64 (fld x.cfg.group 0 16 + fld x.cfg.index 16 6 + fld x.lastStep 32 32))
        (BitVec.ofNat 64 (fld rate 0 10 + fld (lagDur s cause dur.toNat) 16 16 + fld cause 32 3)))
    | none => s

theorem doLagTrigger_eq (k : Fin 8) (dur : BitVec 16) (recovered : Bool) (s : State) : doLagTrigger k dur recovered s =
    if !(s.slot k).cfg.enable || !lagDue s k recovered then s else lagReported s k dur recovered := rfl

theorem lagReported_sent (s : State) (k : Fin 8) (dur : BitVec 16) (recovered : Bool) :
    ((lagReported s k dur recovered).slot k).lagSent = if recovered then none else some (ownRate s) := by
  have hu : ((s.setSlot k { s.slot k with lagSent := if recovered then none else some (ownRate s) }).slot k).lagSent =
      if recovered then none else some (ownRate s) := (congrArg Ply.lagSent (State.setSlot_slot_same ..) :)
  unfold lagReported
  dsimp only
  split
  · exact (takeLag_slot _ k _ _ _ _ (g := Ply.lagSent) fun _ _ _ _ _ _ => rfl).trans hu
  split
  · exact (congrArg (fun p => (p.slots.get k).lagSent) (post_ply ..) :).trans hu
  · exact hu

theorem lagCause_ne (s : State) : lagCause s ≠ 4 := by
  unfold lagCause
  split <;> decide

theorem doLagTrigger_lags {dur : BitVec 16} (he : (s.slot k).cfg.enable = true) (hn : (s.slot k).lagSent = none)
    (hr : ownRate s < devPace s) : ((doLagTrigger k dur false s).slot k).lagSent = some (ownRate s) ∧
      ((s.slot k).mine = true → (⟨(s.slot k).cfg.index, ownRate s, lagDur s (lagCause s) dur.toNat⟩ : Lag) ∈
        ((doLagTrigger k dur false s).slot k).lags) := by
  rw [doLagTrigger_eq, if_neg (by simp [he, lagDue, hn, hr])]
  refine ⟨lagReported_sent s k dur false, fun hm => ?_⟩
  rw [lagReported, if_pos hm]
  exact takeLag_lags _ _ _ _ _ _ (lagCause_ne s)

theorem doLagTrigger_recovers {dur : BitVec 16} (he : (s.slot k).cfg.enable = true) (hn : (s.slot k).lagSent ≠ none)
    (hr : devPace s ≤ ownRate s) : ((doLagTrigger k dur true s).slot k).lagSent = none := by
  rw [doLagTrigger_eq, if_neg (by simp [he, lagDue, hr, hn])]
  exact lagReported_sent s k dur true

end

/-! ## The commit of a slot and of the peer table (15 R401 to R403) -/

theorem plyAfter_congr {x y : Ply} (hst : y.st = x.st) (hcfg : y.cfg = x.cfg) (hf : y.failed = x.failed) (c : PlyCfg) :
    plyAfter y c = plyAfter x c := by
  unfold plyAfter onlyFailedEntries
  rw [hst, hcfg, hf]

theorem doPlyCommit_takes {s : State} {k : Fin 8} {c : PlyCfg} (hc : (plyCfgOf fun off =>
    stagedOr (s.slot k).staged off ((s.slot k).cfg.word off)) = c) (hst : (s.slot k).staged ≠ [])
    (hg : (s.slot k).cfg.gen < c.gen) (hok : plyOk s k c = true) :
    ((doPlyCommit k s).slot k).cfg = c ∧ ((doPlyCommit k s).slot k).staged = [] ∧ ((doPlyCommit k s).slot k).result = .ok ∧
      ((doPlyCommit k s).slot k).st = plyAfter (s.slot k) c := by
  obtain ⟨t, htst, htcfg, htf, e⟩ : ∃ t : State, (t.slot k).st = (s.slot k).st ∧ (t.slot k).cfg = (s.slot k).cfg ∧
      (t.slot k).failed = (s.slot k).failed ∧ doPlyCommit k s =
        endPace (t.setSlot k ((t.slot k).committed c (newEntries t (s.slot k) c))) k := by
    refine ⟨if (s.slot k).mine && (s.slot k).paceOn then sendPace s k (s.slot k).cfg.index 1000 0 (s.slot k).others else s,
      ?_, ?_, ?_, ?_⟩
    · split
      · exact sendPace_keeps (g := Ply.st) (fun _ _ _ _ _ _ => rfl) ..
      · rfl
    · split
      · exact sendPace_keeps (g := Ply.cfg) (fun _ _ _ _ _ _ => rfl) ..
      · rfl
    · split
      · exact sendPace_keeps (g := Ply.failed) (fun _ _ _ _ _ _ => rfl) ..
      · rfl
    · unfold doPlyCommit
      dsimp only
      rw [hc, if_neg hst, if_neg (by omega), if_pos hok]
  rw [e, endPace_slot, State.setSlot_slot_same]
  exact ⟨rfl, rfl, rfl, plyAfter_congr htst htcfg htf c⟩

theorem stagedPeer_lt (s : State) (e : Fin 64) : stagedPeer s e < 2048 := Nat.mod_lt _ (by decide)

theorem doPeerCommit_takes {s : State} (hst : s.ply.peerSt ≠ []) (hok : peersOk s = true) :
    (doPeerCommit s).ply.peerSt = [] ∧ (doPeerCommit s).ply.peerRes = .ok ∧
      ∀ e, ((doPeerCommit s).peer e).strand.val = stagedPeer s e := by
  unfold doPeerCommit
  rw [if_neg hst, if_pos hok]
  refine ⟨rfl, rfl, fun e => ?_⟩
  rw [show ∀ f : Fin 64 → Peer, ({ s with ply := { s.ply with
    peers := vecOf 64 f, peerSt := [], peerRes := .ok } } : State).peer e = f e from fun f => get_vecOf ..]
  dsimp only
  split
  next h => exact h.symm
  · rw [dif_pos (stagedPeer_lt s e)]

/-! ## A group that is ready, and an adoption (15 R403, R426) -/

theorem doGroupReady_readies {s : State} {k : Fin 8} {parts : List GroupPart} (hst : (s.slot k).st = .forming)
    (hup : ∀ i ∈ (s.slot k).others, ∃ n, memberStrand s (s.slot k) i = some n ∧ (s.strand n).st = .opened)
    (hall : ∀ i ∈ (s.slot k).others, ∃ g ∈ parts, g.member.val = i)
    (hagree : ∀ g ∈ parts, g.member.val ∈ (s.slot k).others → partAgrees g (s.slot k).cfg = true) :
    doGroupReady k parts s = s.setSlot k { s.slot k with st := .ready, match_ := 0 } := by
  have hup' : ((s.slot k).others.all fun i => match memberStrand s (s.slot k) i with
      | some n => (s.strand n).st == .opened
      | none => false) = true := by
    rw [List.all_eq_true]
    intro i hi
    obtain ⟨n, hn, ho⟩ := hup i hi
    rw [hn]
    simp [ho]
  have hall' : ((s.slot k).others.all fun i => parts.any fun g => g.member.val == i) = true := by
    rw [List.all_eq_true]
    intro i hi
    obtain ⟨g, hg, e⟩ := hall i hi
    exact List.any_eq_true.2 ⟨g, hg, by simpa using e⟩
  have hbad : ((s.slot k).others.filter fun i => parts.any fun g => g.member.val == i && !partAgrees g (s.slot k).cfg) =
      [] := by
    rw [List.filter_eq_nil_iff]
    intro i hi h
    obtain ⟨g, hg, h⟩ := List.any_eq_true.1 h
    simp only [Bool.and_eq_true, beq_iff_eq, Bool.not_eq_true'] at h
    rw [hagree g hg (h.1 ▸ hi)] at h
    exact nomatch h.2
  unfold doGroupReady
  dsimp only
  rw [if_neg (by simp [hst]), if_neg, if_pos hbad]
  intro h
  rw [Bool.or_eq_true, Bool.not_eq_true', Bool.not_eq_true'] at h
  rcases h with h | h
  · exact Bool.false_ne_true (h.symm.trans hup')
  · exact Bool.false_ne_true (h.symm.trans hall')

theorem doAdoptionAdmit_admits {s : State} {k : Fin 8} {e : GroupEpoch} (hst : (s.slot k).st = .adopting)
    (he : (s.slot k).adoptFrom = e.epoch) : doAdoptionAdmit k e s = s.setSlot k ((s.slot k).admitted e) := by
  unfold doAdoptionAdmit
  dsimp only
  rw [if_neg (by simp [hst]), if_pos he]

/-! ## The failure of a member (15 R425) -/

theorem addRecord_form (s : State) (q : Nat) (ws : List Word) : ∃ m v,
    addRecord s q ws false = { s with mgmt := m, twine := { s.twine with strands := v } } := by
  obtain ⟨v, e⟩ := notify_form { s with mgmt := (keepRecord s.mgmt ws).1 } .controller 2 q 0 (wordBytes ws)
  exact ⟨_, v, e⟩

theorem masterRecord_keeps {α : Type} {g : State → α}
    (hg : ∀ s m v, g { s with mgmt := m, twine := { s.twine with strands := v } } = g s) (s : State) (k : Fin 8)
    (kind : Nat) (st : Status) (step named info : Nat) : g (masterRecord s k kind st step named info) = g s := by
  unfold masterRecord
  split
  · unfold groupRecord
    obtain ⟨m, v, e⟩ := addRecord_form s 0
      ([fld kind 0 8 + fld st.code 8 8 + fld (s.slot k).cfg.group 16 16 + fld step 32 32, named, info, 0, 0, 0, 0, 0].map
        (BitVec.ofNat 64))
    exact (congrArg g e).trans (hg s m v)
  · rfl

/-- The slot after one of its members has failed. -/
def memberLost (s : State) (k : Fin 8) (i : Nat) : State :=
  let x := s.slot k
  let s := endPace (s.setSlot k { x with failed := x.failed ||| (1#64 <<< i), st := .degraded, paceIn := 0, paceOn := false
                                         spare := false, adopted := x.adopted &&& ~~~(1#64 <<< i)
                                         lags := x.lags.filter fun l => l.member != i }) k
  match x.entry i with
  | some e => s.setPeer e { s.peer e with failed := true }
  | none => s

theorem memberLost_slot (s : State) (k : Fin 8) (i : Nat) : ((memberLost s k i).slot k).st = .degraded ∧
    ((memberLost s k i).slot k).failed = (s.slot k).failed ||| (1#64 <<< i) ∧
    ((memberLost s k i).slot k).pacing = false := by
  have h : ∀ t : State, t.slot k = (endPace (s.setSlot k { s.slot k with
      failed := (s.slot k).failed ||| (1#64 <<< i), st := .degraded, paceIn := 0, paceOn := false
      spare := false, adopted := (s.slot k).adopted &&& ~~~(1#64 <<< i)
      lags := (s.slot k).lags.filter fun l => l.member != i }) k).slot k →
      (t.slot k).st = .degraded ∧ (t.slot k).failed = (s.slot k).failed ||| (1#64 <<< i) ∧ (t.slot k).pacing = false := by
    intro t ht
    rw [ht, endPace_slot, State.setSlot_slot_same]
    exact ⟨rfl, rfl, rfl⟩
  unfold memberLost
  dsimp only
  split
  · exact h _ rfl
  · exact h _ rfl

theorem memberLost_keeps (s : State) (k : Fin 8) (i : Nat) : (memberLost s k i).ply.ops = s.ply.ops ∧
    (memberLost s k i).queues = s.queues := by
  unfold memberLost
  dsimp only
  split <;> exact ⟨rfl, rfl⟩

theorem failMember_eq {s : State} {k : Fin 8} {i : Nat} (he : (s.slot k).cfg.enable = true) (hi : i ≠ (s.slot k).cfg.index)
    (hh : (s.slot k).here i = true) : ∃ step, failMember s k i = masterRecord
      (((memberLost s k i).ply.ops.filter fun o => o.slot = k).foldl (fun s o => endOp s o .pathLost) (memberLost s k i))
      k 0x09 .pathLost step (2 ^ i) 0 := by
  refine ⟨((headOp s k).map (·.step)).getD (s.slot k).lastStep, ?_⟩
  unfold failMember
  dsimp only
  rw [if_neg (by simp [he, hi, hh])]
  rfl

theorem endOps_slots (l : List GOp) (s : State) : (l.foldl (fun s o => endOp s o .pathLost) s).ply.slots = s.ply.slots :=
  foldl_keeps (fun s => s.ply.slots) (fun s o => endOp s o .pathLost) (fun _ _ => rfl) l s

/-- The operations that end leave the engine, and no other. -/
theorem endOps_ops (l : List GOp) (s : State) : (l.foldl (fun s o => endOp s o .pathLost) s).ply.ops =
    s.ply.ops.filter fun x => l.all fun o => !(x.queue == o.queue && x.seq == o.seq) := by
  induction l generalizing s with
  | nil => simp
  | cons o l ih =>
    rw [List.foldl_cons, ih]
    show (s.ply.ops.filter _).filter _ = _
    rw [List.filter_filter]
    simp [Bool.and_comm]

/-- A descriptor changed under its number leaves the others. -/
theorem descOf_setDesc_ne {s : State} {q p : Fin 4096} {seq n : Nat} {f : Desc → Desc} (hf : ∀ d, (f d).seq = d.seq)
    (h : ¬(p = q ∧ n = seq)) : descOf (setDesc s p n f) q seq = descOf s q seq := by
  unfold descOf setDesc
  by_cases hq : q = p
  · subst hq
    have hkey (d : Desc) : (if d.seq = n then f d else d).seq = d.seq := by split <;> simp [hf]
    rw [State.setQ_q_same]
    simp only [List.find?_map, Function.comp_def, hkey]
    cases hd : (s.q q).descs.find? fun d => decide (d.seq = seq) with
    | none => rfl
    | some d =>
      have hs : d.seq = seq := by simpa using List.find?_some hd
      rw [Option.map_some, if_neg fun e => h ⟨rfl, e.symm.trans hs⟩]
  · rw [State.setQ_q_ne _ _ _ _ hq]

/-- The end of another operation leaves a descriptor as it was. -/
theorem endOp_other {s : State} {o : GOp} {q : Fin 4096} {seq : Nat} (h : ¬(o.queue = q ∧ o.seq = seq)) (st : Status) :
    descOf (endOp s o st) q seq = descOf s q seq :=
  descOf_setDesc_ne (s := dropOp s o) (fun d => by split <;> rfl) h

theorem endOp_finished {s : State} {o : GOp} {st : Status} {fl : Flags}
    (h : (descOf s o.queue o.seq).map (·.st) = some (.finished st fl 0 0 0)) (st' : Status) :
    (descOf (endOp s o st') o.queue o.seq).map (·.st) = some (.finished st fl 0 0 0) := by
  obtain ⟨e, he, hst⟩ := Option.map_eq_some_iff.mp h
  show (descOf (finish (dropOp s o) o.queue o.seq st' o.flags 0 0 0) o.queue o.seq).map (·.st) = _
  rw [finish, descOf_setDesc fun d => by split <;> rfl, show descOf (dropOp s o) o.queue o.seq = some e from he]
  simp [hst]

/-- An operation that ends among others, none of which shares its number, ends the descriptor of its own. -/
theorem endOps_finishes {l : List GOp} {s : State} {o : GOp} (ho : o ∈ l)
    (honly : ∀ u ∈ l, u.queue = o.queue → u.seq = o.seq → u = o)
    (hrun : (descOf s o.queue o.seq).map (·.st) = some .running) :
    (descOf (l.foldl (fun s o => endOp s o .pathLost) s) o.queue o.seq).map (·.st) =
      some (.finished .pathLost o.flags 0 0 0) := by
  have hdone : ∀ (l : List GOp) (s : State), (∀ u ∈ l, u.queue = o.queue → u.seq = o.seq → u = o) →
      (descOf s o.queue o.seq).map (·.st) = some (.finished .pathLost o.flags 0 0 0) →
      (descOf (l.foldl (fun s o => endOp s o .pathLost) s) o.queue o.seq).map (·.st) =
        some (.finished .pathLost o.flags 0 0 0) := by
    intro l
    induction l with
    | nil => exact fun _ _ h => h
    | cons u l ih =>
      intro s honly h
      refine ih _ (fun v hv => honly v (List.mem_cons_of_mem _ hv)) ?_
      by_cases e : u.queue = o.queue ∧ u.seq = o.seq
      · obtain rfl := honly u (List.mem_cons_self ..) e.1 e.2
        exact endOp_finished h _
      · rw [endOp_other e, h]
  induction l generalizing s with
  | nil => exact nomatch ho
  | cons u l ih =>
    rw [List.foldl_cons]
    have honly' : ∀ v ∈ l, v.queue = o.queue → v.seq = o.seq → v = o := fun v hv => honly v (List.mem_cons_of_mem _ hv)
    by_cases e : u.queue = o.queue ∧ u.seq = o.seq
    · obtain rfl := honly u (List.mem_cons_self ..) e.1 e.2
      exact hdone l _ honly' (endOp_finishes hrun _)
    · have hne : o ≠ u := fun h => e (h ▸ ⟨rfl, rfl⟩)
      exact ih (List.mem_of_ne_of_mem hne ho) honly' (by rw [endOp_other e, hrun])

/-- What the failure of a member leaves. -/
theorem failMember_fails {s : State} {k : Fin 8} {i : Nat} (he : (s.slot k).cfg.enable = true) (hi : i ≠ (s.slot k).cfg.index)
    (hh : (s.slot k).here i = true) : let t := failMember s k i
    (t.slot k).st = .degraded ∧ (t.slot k).failed = (s.slot k).failed ||| (1#64 <<< i) ∧ (t.slot k).pacing = false ∧
      (∀ o ∈ t.ply.ops, o.slot ≠ k ∧ o ∈ s.ply.ops) ∧
      ∀ o ∈ s.ply.ops, o.slot = k → (∀ u ∈ s.ply.ops, u.queue = o.queue → u.seq = o.seq → u = o) →
        (descOf s o.queue o.seq).map (·.st) = some .running →
        (descOf t o.queue o.seq).map (·.st) = some (.finished .pathLost o.flags 0 0 0) := by
  intro t
  obtain ⟨hops, hqueues⟩ := memberLost_keeps s k i
  obtain ⟨step, e⟩ := failMember_eq he hi hh
  have hslot : t.slot k = (memberLost s k i).slot k := by
    refine congrArg (fun v => v.get k) ((congrArg (fun s => s.ply.slots) e).trans ?_)
    exact (masterRecord_keeps (g := fun s => s.ply.slots) (fun _ _ _ => rfl) ..).trans (endOps_slots ..)
  obtain ⟨h1, h2, h3⟩ := memberLost_slot s k i
  rw [hslot]
  refine ⟨h1, h2, h3, fun o ho => ?_, fun o ho hk honly hrun => ?_⟩
  · have ho' := ho
    rw [show t.ply.ops = _ from (congrArg (fun s => s.ply.ops) e).trans
      ((masterRecord_keeps (g := fun s => s.ply.ops) (fun _ _ _ => rfl) ..).trans (endOps_ops ..)), List.mem_filter, hops]
      at ho'
    refine ⟨fun hk => ?_, ho'.1⟩
    have := List.all_eq_true.1 ho'.2 o (List.mem_filter.2 ⟨ho'.1, by simpa using hk⟩)
    simp at this
  · have hq : t.queues = _ := (congrArg State.queues e).trans
      (masterRecord_keeps (g := State.queues) (fun _ _ _ => rfl) ..)
    rw [descOf_congr hq]
    refine endOps_finishes (List.mem_filter.2 ⟨by rw [hops]; exact ho, by simpa using hk⟩) (fun u hu => ?_) ?_
    · rw [hops] at hu
      exact honly u (List.mem_filter.1 hu).1
    · rw [descOf_congr hqueues, hrun]

/-! ## The statement -/

/-- Settles O37: the commits by the branch that they take, the failure of a member by `failMember_fails`, LAG and PACE by the
lemmas about their commands. -/
theorem groups : Obligations.Groups := by
  refine ⟨?_, ?_⟩
  · intro k m s x c
    refine ⟨fun hst => ⟨fun hg => ?_, fun hg hok => ?_, fun hg hok => ⟨_, rfl, doPlyCommit_takes rfl hst hg hok⟩⟩,
      fun hst => ⟨_, rfl, ?_, fun hok => ?_, fun hok => ?_⟩, fun parts hst hup hall hagree => ?_,
      fun he hi hh i hmem => ?_, fun e step hst he => ?_⟩
    · exact congrArg Host.Outcome.next ((if_neg hst).trans (if_pos hg))
    · have hnew : ¬ c.gen ≤ x.cfg.gen := Nat.not_le.2 hg
      have hbad : ¬ plyOk s k c = true := by simp [hok]
      exact congrArg Host.Outcome.next ((if_neg hst).trans ((if_neg hnew).trans (if_neg hbad)))
    · unfold doPeerCommit
      rw [if_neg hst]
      split <;> rfl
    · exact (doPeerCommit_takes hst hok).2
    · unfold doPeerCommit
      rw [if_neg hst, if_neg (by simp [hok])]
      exact ⟨rfl, rfl⟩
    · exact congrArg Host.Outcome.next (doGroupReady_readies hst hup hall hagree)
    · simp only [List.mem_cons, List.not_mem_nil, or_false] at hmem
      rcases hmem with rfl | rfl
      · exact ⟨_, rfl, failMember_fails he hi hh⟩
      · exact ⟨_, rfl, failMember_fails he hi hh⟩
    · have hadmit := doAdoptionAdmit_admits (e := ⟨e, step⟩) hst he
      exact congrArg Host.Outcome.next hadmit
  · intro k s x
    refine ⟨fun dur rec he => ⟨fun hr hn hlt => ?_, fun hr hn hle => ?_⟩, ?_, fun hp hd => ?_⟩
    · subst hr
      exact ⟨_, rfl, doLagTrigger_lags he hn hlt⟩
    · subst hr
      exact ⟨_, rfl, doLagTrigger_recovers he hn hle⟩
    · exact ⟨_, rfl, doCancelPace_ends k s⟩
    · refine ⟨endPace s k, congrArg Host.Outcome.next (if_pos (by simp [x] at hp hd; simp [hp, hd])), ?_, ?_,
        fun j hj => endPace_slot_ne s hj, fun hnone => endPace_none hnone⟩
      · rw [endPace_slot]
      · rw [endPace_slot]

end Sys2Proof.Machine
end

section
/-!
PROOFS. Rails, droops, readings and regulator faults (17; O44).
-/

namespace Sys2Proof.Machine

/-! ## The 1 µs limits (17 R456, R457) -/

section
variable {s : State} {r : Fin 7}

theorem setRail_rail (s : State) (r : Fin 7) (x : Rail) : (setRail s r x).pwr.rails.get r = x := get_upd_same ..

theorem setRail_rail_ne (s : State) {r m : Fin 7} (x : Rail) (h : m ≠ r) :
    (setRail s r x).pwr.rails.get m = s.pwr.rails.get m := get_upd_ne _ _ h

theorem doEstimatorSample_us (s : State) (r : Fin 7) (amps : Nat) (skeins : BitVec 8) :
    ((doEstimatorSample r amps skeins s).pwr.rails.get r).us = corrected s r amps := by
  have h := congrArg Rail.us (setRail_rail s r { s.pwr.rails.get r with us := corrected s r amps })
  unfold doEstimatorSample
  dsimp only
  split <;> exact h

/-- The skeins after a sample of a rail that feeds the mill die. -/
theorem doEstimatorSample_sk {i : Fin 2} (hi : i.val = r.val) (amps : Nat) (skeins : BitVec 8) (j : Fin 8) :
    (doEstimatorSample r amps skeins s).sk j =
      if ((s.sk j).stretch.get i).isSome || (skeins.getLsbD j.val && decide (guarded s (railLimits r).1 < corrected s r amps))
      then (s.sk j).stretchTo i (some (stretchFor (corrected s r amps) (guarded s (railLimits r).1))) else s.sk j := by
  have hm : millRail r = some i := by
    unfold millRail
    rw [dif_pos (hi ▸ i.isLt)]
    exact congrArg some (Fin.ext hi.symm)
  unfold doEstimatorSample
  dsimp only
  rw [hm]
  exact get_vecOf ..

theorem doEstimatorSample_still (hr : 2 ≤ r.val) (amps : Nat) (skeins : BitVec 8) :
    (doEstimatorSample r amps skeins s).skeins = s.skeins := by
  have hm : millRail r = none := dif_neg (by omega)
  unfold doEstimatorSample
  dsimp only
  rw [hm]
  rfl

/-! ## The 100 µs limits (17 R456, R480) -/

theorem doDividerStepDown_eq (s : State) (r : Fin 7) (amps : Nat) :
    let x := { s.pwr.rails.get r with est := min 65535 (corrected s r amps) }
    let lim := guarded s (railLimits r).2
    doDividerStepDown r amps s =
      if r = 4 then (setRail s r x).setPwr { (setRail s r x).pwr with
        railPacePm := pacedTo s.pwr.railPacePm (corrected s r amps) lim }
      else if 4 < r.val then setRail s r x
      else setRail s r (if lim < corrected s r amps then x.lowered (r == 2 || r == 3) else x.raised) := rfl

/-- A rail's levers after an average over 100 µs. -/
def railAfter (s : State) (r : Fin 7) (amps : Nat) : Rail :=
  let x := { s.pwr.rails.get r with est := min 65535 (corrected s r amps) }
  if 4 ≤ r.val then x
  else if guarded s (railLimits r).2 < corrected s r amps then x.lowered (r == 2 || r == 3) else x.raised

theorem doDividerStepDown_rails (s : State) (r : Fin 7) (amps : Nat) :
    (doDividerStepDown r amps s).pwr.rails = upd s.pwr.rails r (railAfter s r amps) := by
  rw [doDividerStepDown_eq]
  unfold railAfter
  by_cases h4 : r = 4
  · subst h4
    rfl
  · have hv : r.val ≠ 4 := fun e => h4 (Fin.ext e)
    rw [if_neg h4]
    by_cases hlt : 4 < r.val
    · rw [if_pos hlt, if_pos (by omega)]
      rfl
    · rw [if_neg hlt, if_neg (show ¬ 4 ≤ r.val by omega)]
      rfl

theorem doDividerStepDown_skeins (s : State) (r : Fin 7) (amps : Nat) : (doDividerStepDown r amps s).skeins = s.skeins := by
  rw [doDividerStepDown_eq]
  dsimp only
  split
  · rfl
  split <;> rfl

theorem doDividerStepDown_pace (s : State) (r : Fin 7) (amps : Nat) : (doDividerStepDown r amps s).pwr.railPacePm =
    if r.val ≠ 4 then s.pwr.railPacePm else pacedTo s.pwr.railPacePm (corrected s r amps) (guarded s (railLimits r).2) := by
  rw [doDividerStepDown_eq]
  by_cases h4 : r = 4
  · subst h4
    rfl
  · have hv : r.val ≠ 4 := fun e => h4 (Fin.ext e)
    rw [if_neg h4, if_pos hv]
    split <;> rfl

theorem Rail.lowered_est (x : Rail) (b : Bool) : (x.lowered b).est = x.est := by
  unfold Rail.lowered
  split <;> rfl

theorem Rail.raised_est (x : Rail) : x.raised.est = x.est := by
  unfold Rail.raised
  split <;> rfl

theorem Rail.raised_div (x : Rail) : x.raised.div = stepUp x.div := by
  unfold Rail.raised
  split
  next h =>
    rw [h]
    decide
  · rfl

theorem railAfter_est (s : State) (r : Fin 7) (amps : Nat) : (railAfter s r amps).est = min 65535 (corrected s r amps) := by
  unfold railAfter
  dsimp only
  split
  · rfl
  split
  · exact Rail.lowered_est ..
  · exact Rail.raised_est ..

theorem railAfter_core (hr : r.val < 2) (amps : Nat) : (railAfter s r amps).div =
    if guarded s (railLimits r).2 < corrected s r amps then stepDown (s.pwr.rails.get r).div
    else stepUp (s.pwr.rails.get r).div := by
  have hstack : (r == 2 || r == 3) = false := by
    simp only [Bool.or_eq_false_iff, beq_eq_false_iff_ne, ne_eq, Fin.ext_iff]
    exact ⟨fun e => by omega, fun e => by omega⟩
  unfold railAfter
  dsimp only
  rw [if_neg (by omega), hstack]
  split
  · rfl
  · exact Rail.raised_div _

theorem railAfter_stack (hr : r.val = 2 ∨ r.val = 3) (amps : Nat) :
    let x := s.pwr.rails.get r
    let y := railAfter s r amps
    (guarded s (railLimits r).2 < corrected s r amps → x.distPm ≠ 0 → y.distPm = x.distPm - 125 ∧ y.div = x.div) ∧
      (guarded s (railLimits r).2 < corrected s r amps → x.distPm = 0 → y.distPm = 0 ∧ y.div = stepDown x.div) ∧
      (corrected s r amps ≤ guarded s (railLimits r).2 → x.div ≠ 6 → y.distPm = x.distPm ∧ y.div = stepUp x.div) ∧
      (corrected s r amps ≤ guarded s (railLimits r).2 → x.div = 6 → y.distPm = 1000 ∧ y.div = 6) := by
  intro x y
  have hstack : (r == 2 || r == 3) = true := by
    simp only [Bool.or_eq_true, beq_iff_eq, Fin.ext_iff]
    exact hr
  have hlow (h : guarded s (railLimits r).2 < corrected s r amps) :
      y = ({ x with est := min 65535 (corrected s r amps) } : Rail).lowered true := by
    simp only [y, railAfter, hstack]
    rw [if_neg (by omega), if_pos h]
  have hhigh (h : corrected s r amps ≤ guarded s (railLimits r).2) :
      y = ({ x with est := min 65535 (corrected s r amps) } : Rail).raised := by
    simp only [y, railAfter]
    rw [if_neg (by omega), if_neg (by omega)]
  refine ⟨fun h hd => ?_, fun h hd => ?_, fun h hd => ?_, fun h hd => ?_⟩
  · rw [hlow h, Rail.lowered, if_pos (by simp [hd])]
    exact ⟨rfl, rfl⟩
  · rw [hlow h, Rail.lowered, if_neg (by simp [hd])]
    exact ⟨hd, rfl⟩
  · rw [hhigh h, Rail.raised, if_neg hd]
    exact ⟨rfl, rfl⟩
  · rw [hhigh h, Rail.raised, if_pos hd]
    exact ⟨rfl, hd⟩

theorem railAfter_other (hr : 4 ≤ r.val) (amps : Nat) : (railAfter s r amps).div = (s.pwr.rails.get r).div ∧
    (railAfter s r amps).distPm = (s.pwr.rails.get r).distPm := by
  unfold railAfter
  dsimp only
  rw [if_pos hr]
  exact ⟨rfl, rfl⟩

end

/-! ## Stretches that end (17 R457, R458) -/

theorem relax_eq_bind (n : Option Nat) : relax n = n.bind fun n => if n < 32 then some (2 * n) else none := by
  cases n <;> rfl

theorem doStretchEnd_sk (s : State) (k : Fin 8) : ((doStretchEnd k s).sk k).droopN = relax (s.sk k).droopN ∧
    ∀ i : Fin 2, ∀ m : Fin 7, m.val = i.val → ((doStretchEnd k s).sk k).stretch.get i =
      if (s.pwr.rails.get m).us * 100 < guarded s (railLimits m).1 * 97 then none else (s.sk k).stretch.get i := by
  unfold doStretchEnd
  dsimp only
  rw [State.setSk_sk_same]
  refine ⟨rfl, fun i m hm => ?_⟩
  have hm' : (⟨i.val, by omega⟩ : Fin 7) = m := Fin.ext hm.symm
  rw [get_vecOf, hm']
  simp only [decide_eq_true_eq]

/-! ## Readings (17 R459 to R461) -/

/-- The rails after a poll of the status words of some of them. -/
def pollOne (f : BitVec 7) (s : State) (r : Fin 7) : State :=
  let x := s.pwr.rails.get r
  let bad := f.getLsbD r.val
  let s := setRail s r { x with fault := bad }
  if bad && !x.fault then record (s.setPwr { s.pwr with regFault := true }) 0x0C none 6 r.val [2] else s

theorem doStatusWordPoll_polls {s : State} (h : readsBoard s = true) (f : BitVec 7) :
    doStatusWordPoll f s = (List.finRange 7).foldl (pollOne f) s := by
  unfold doStatusWordPoll
  rw [if_neg (by simp [h])]
  rfl

theorem pollOne_pwr (f : BitVec 7) (s : State) (r : Fin 7) :
    (pollOne f s r).pwr.rails = upd s.pwr.rails r { s.pwr.rails.get r with fault := f.getLsbD r.val } ∧
      ((pollOne f s r).pwr.regFault = true ↔ s.pwr.regFault = true ∨
        (f.getLsbD r.val = true ∧ (s.pwr.rails.get r).fault = false)) := by
  unfold pollOne
  dsimp only
  split
  next h =>
    rw [record_pwr]
    rw [Bool.and_eq_true, Bool.not_eq_true'] at h
    exact ⟨rfl, iff_of_true rfl (.inr h)⟩
  next h =>
    rw [Bool.and_eq_true, Bool.not_eq_true'] at h
    exact ⟨rfl, (or_iff_left h).symm⟩

/-- What a poll of a list of rails, none of them twice, leaves of the rails and of the fault. -/
theorem polls (f : BitVec 7) (l : List (Fin 7)) (hl : l.Nodup) (s : State) :
    (∀ j, ((l.foldl (pollOne f) s).pwr.rails.get j).fault =
      if j ∈ l then f.getLsbD j.val else (s.pwr.rails.get j).fault) ∧
      ((l.foldl (pollOne f) s).pwr.regFault = true ↔ s.pwr.regFault = true ∨
        ∃ j ∈ l, f.getLsbD j.val = true ∧ (s.pwr.rails.get j).fault = false) := by
  induction l generalizing s with
  | nil => simp
  | cons r l ih =>
    obtain ⟨hr, hl⟩ := List.nodup_cons.1 hl
    obtain ⟨hrails, hfault⟩ := pollOne_pwr f s r
    obtain ⟨ih1, ih2⟩ := ih hl (pollOne f s r)
    have hsame {j : Fin 7} (h : j ≠ r) : ((pollOne f s r).pwr.rails.get j).fault = (s.pwr.rails.get j).fault := by
      rw [hrails, get_upd_ne _ _ h]
    refine ⟨fun j => ?_, ?_⟩
    · rw [List.foldl_cons, ih1]
      by_cases hj : j = r
      · subst hj
        rw [if_neg hr, if_pos (List.mem_cons_self ..), hrails, get_upd_same]
      · simp only [List.mem_cons, hj, false_or, hsame hj]
    · rw [List.foldl_cons, ih2, hfault, or_assoc]
      refine or_congr_right ?_
      simp only [List.exists_mem_cons_iff]
      refine or_congr_right (exists_congr fun j => and_congr_right fun hj => ?_)
      rw [hsame fun e => hr (e ▸ hj)]

theorem doRegulatorRead_reads {s : State} (h : readsBoard s = true) (r : Fin 7) (amps mv est : Nat) :
    let x := s.pwr.rails.get r
    let c := corrected s r est
    let err : Int := if c = 0 then 0 else (((amps : Int) - c) * 1000).tdiv (8 * c)
    doRegulatorRead r amps mv est s = setRail s r { x with
      reg := min 65535 amps, mv := min 65535 mv, gainErr := toSigned8 err, gain := x.gain + err,
      streak := if x.missing then x.streak + 1 else 0, missing := x.missing && decide (x.streak + 1 < 10) } :=
  if_neg (by simp [h])

theorem doReadingsMissing_misses {s : State} {r : Fin 7} (hp : s.mgmt.phase ≠ .reset)
    (hm : (s.pwr.rails.get r).missing = false) (hl : s.mgmt.faults.length < 256) :
    ((doReadingsMissing r s).pwr.rails.get r).missing = true ∧
      (doReadingsMissing r s).mgmt.faults.length = s.mgmt.faults.length + 1 := by
  obtain ⟨u, hu, e⟩ : ∃ u : State, u.mgmt = s.mgmt ∧ doReadingsMissing r s =
      record (setRail u r { s.pwr.rails.get r with missing := true, streak := 0 }) 0x0C none 6 r.val [1] := by
    refine ⟨if guardBand s then s else endBurst s, ?_, ?_⟩
    · unfold endBurst
      split
      · rfl
      · split <;> rfl
    · unfold doReadingsMissing
      dsimp only
      rw [if_neg hp, if_neg (by simp [hm])]
  rw [e, record_pwr]
  refine ⟨congrArg Rail.missing (setRail_rail ..), ?_⟩
  rw [record_faults_length (s := setRail u r { s.pwr.rails.get r with missing := true, streak := 0 })
    (by show u.mgmt.faults.length < 256; rw [hu]; exact hl)]
  show u.mgmt.faults.length + 1 = _
  rw [hu]

/-! ## The statement -/

/-- Settles O44: the levers of a rail by `railAfter`, the faults of a poll by `polls`, the rest by the lemma about its
command. -/
theorem railControl : Obligations.RailControl := by
  intro k r s x fix
  refine ⟨fun amps skeins i hi => ⟨_, rfl, doEstimatorSample_us .., fun j => ⟨fun h => ?_, fun h hn => ?_⟩⟩,
    fun amps skeins hr => ⟨_, rfl, doEstimatorSample_us .., doEstimatorSample_still hr ..⟩,
    fun amps => ⟨_, rfl, doDividerStepDown_skeins .., ?_⟩, rfl, ⟨_, rfl, fun j hj => State.setSk_sk_ne _ _ _ _ hj, ?_⟩,
    fun hb => ⟨fun amps mv est => ⟨_, rfl, ?_⟩, fun f => ⟨_, rfl, ?_⟩, fun hf => ?_, ?_, fun c => ?_⟩,
    fun hb f c amps mv est i hi => ?_, fun hp hm hl => ⟨_, rfl, doReadingsMissing_misses hp hm hl⟩⟩
  · rw [doEstimatorSample_sk hi, if_pos]
    · exact ⟨get_upd_same .., fun m hm => get_upd_ne _ _ hm⟩
    · rw [Bool.or_eq_true, Bool.and_eq_true, decide_eq_true_eq]
      exact h.symm
  · rw [doEstimatorSample_sk hi, if_neg]
    rw [Bool.or_eq_true, Bool.and_eq_true, decide_eq_true_eq, hn]
    rintro (h' | ⟨h1, h2⟩)
    · exact nomatch h'
    · rcases h with h | h
      · rw [h] at h1
        exact nomatch h1
      · exact absurd h2 (Nat.not_lt.2 h)
  · have hrails := doDividerStepDown_rails s r amps
    have hget : (doDividerStepDown r amps s).pwr.rails.get r = railAfter s r amps := by rw [hrails, get_upd_same]
    refine ⟨fun m hm => by rw [hrails, get_upd_ne _ _ hm], by rw [hget]; exact railAfter_est .., ?_,
      doDividerStepDown_pace ..⟩
    rw [hget]
    exact ⟨fun hr => railAfter_core hr amps, fun hr => railAfter_stack hr amps, fun hr => railAfter_other hr amps⟩
  · obtain ⟨hd, hs⟩ := doStretchEnd_sk s k
    exact ⟨hd.trans (relax_eq_bind _), hs⟩
  · rw [doRegulatorRead_reads hb, setRail_rail]
    refine ⟨rfl, rfl, ?_⟩
    show (x.missing && decide (x.streak + 1 < 10)) = true ↔ _
    rw [Bool.and_eq_true, decide_eq_true_eq]
    exact and_congr_right fun _ => by omega
  · obtain ⟨h1, h2⟩ := polls f (List.finRange 7) (List.nodup_finRange 7) s
    rw [doStatusWordPoll_polls hb]
    exact ⟨fun j => (h1 j).trans (if_pos (List.mem_finRange j)), h2.trans (by simp)⟩
  · refine congrArg Host.Outcome.next (if_neg ?_)
    rintro (h | h)
    · obtain ⟨y, hy, hyf⟩ := List.any_eq_true.1 h
      obtain ⟨i, hi, rfl⟩ := List.getElem_of_mem hy
      have := hf ⟨i, by simpa using hi⟩
      simp [Vector.get_eq_getElem] at this
      simp [this] at hyf
    · simp [hb] at h
  · exact congrArg Host.Outcome.next (if_neg (by simp [hb]))
  · exact congrArg Host.Outcome.next (if_neg (by simp [hb]))
  · have hno : (!readsBoard s) = true := by simp [hb]
    simp only [List.mem_cons, List.not_mem_nil, or_false] at hi
    rcases hi with rfl | rfl | rfl | rfl
    · exact congrArg Host.Outcome.next (if_pos hno)
    · exact congrArg Host.Outcome.next (if_pos hno)
    · exact congrArg Host.Outcome.next (if_pos (.inr hno))
    · exact congrArg Host.Outcome.next (if_pos hno)

end Sys2Proof.Machine
end

section
/-!
PROOFS. The cap, the grants and the end of a burst (17; O45).
-/

namespace Sys2Proof.Machine

/-! ## Bursts and the commit of the cap (17 R462, R463) -/

theorem endBurst_form (s : State) : ∃ b h, endBurst s = s.setPwr { s.pwr with burstAt := b, holdUntil := h } := by
  unfold endBurst
  split
  · exact ⟨_, _, rfl⟩
  · exact ⟨_, _, rfl⟩

theorem doPwrCommit_takes {s : State} {w : Nat} (hw : (stagedOr s.pwr.staged 0xD000 (BitVec.ofNat 64 s.pwr.capWord)).toNat = w)
    (hst : s.pwr.staged ≠ []) (hgood : 200 ≤ bitsOf w 0 10 ∧ bitsOf w 0 10 ≤ 850 ∧ bitsOf w 0 10 ≤ bitsOf w 10 10 ∧
      bitsOf w 10 10 ≤ 950 ∧ 50 ≤ bitsOf w 20 14 ∧ bitsOf w 20 14 ≤ 10000) :
    (doPwrCommit s).pwr.cap = bitsOf w 0 10 ∧ (doPwrCommit s).pwr.burst = bitsOf w 10 10 ∧
      (doPwrCommit s).pwr.window = bitsOf w 20 14 ∧ (doPwrCommit s).pwr.staged = [] ∧ (doPwrCommit s).pwr.result = .ok := by
  unfold doPwrCommit
  dsimp only
  rw [hw, if_neg hst, if_pos hgood]
  exact ⟨rfl, rfl, rfl, rfl, rfl⟩

/-! ## The setting that is taken (17 R466) -/

/-- What a setting is compared by: the sum of its clocks, their spread, the skeins below the fastest. -/
theorem betterSet_iff (a b : List Nat) : betterSet a b = true ↔ clockSum b < clockSum a ∨ clockSum a = clockSum b ∧
    (clockSpread a < clockSpread b ∨ clockSpread a = clockSpread b ∧ slowCount a < slowCount b) := by
  simp only [betterSet, Bool.or_eq_true, Bool.and_eq_true, decide_eq_true_eq, beq_iff_eq]

/-- What is no better than a setting is no better than a better one. -/
theorem betterSet_mono {a b c : List Nat} (h : betterSet a b = false) (hc : betterSet c b = true) : betterSet a c = false := by
  rw [Bool.eq_false_iff, ne_eq, betterSet_iff] at h ⊢
  rw [betterSet_iff] at hc
  omega

theorem betterSet_self (a : List Nat) : betterSet a a = false := by
  rw [Bool.eq_false_iff, ne_eq, betterSet_iff]
  omega

/-- The best of a list and of a first setting is one of them, and none of the list is better. -/
theorem best_of_list (l : List (List Nat)) (b : List Nat) : let best := l.foldl (fun b t => if betterSet t b then t else b) b
    (best ∈ l ∨ best = b) ∧ ∀ u, u ∈ l ∨ betterSet u b = false → betterSet u best = false := by
  induction l generalizing b with
  | nil => exact ⟨.inr rfl, fun u hu => hu.resolve_left nofun⟩
  | cons t l ih =>
    intro best
    obtain ⟨hmem, hbest⟩ := ih (if betterSet t b then t else b)
    refine ⟨?_, fun u hu => hbest u ?_⟩
    · refine hmem.elim (fun h => .inl (List.mem_cons_of_mem _ h)) fun h => ?_
      have hbest : best = if betterSet t b then t else b := h
      by_cases hb : betterSet t b = true
      · rw [if_pos hb] at hbest
        exact .inl (hbest ▸ List.mem_cons_self)
      · rw [if_neg hb] at hbest
        exact .inr hbest
    · by_cases hb : betterSet t b = true
      · rw [if_pos hb]
        rcases hu with hu | hu
        · rcases List.mem_cons.1 hu with rfl | hu
          · exact .inr (betterSet_self u)
          · exact .inl hu
        · exact .inr (betterSet_mono hu hb)
      · rw [if_neg hb]
        rcases hu with hu | hu
        · rcases List.mem_cons.1 hu with rfl | hu
          · exact .inr (by simpa using hb)
          · exact .inl hu
        · exact .inr hu

theorem bestSet_best (order demand : List Nat) (grant : Nat) :
    (settingPower order demand (bestSet order demand grant) ≤ grant * 140 ∨
      bestSet order demand grant = List.replicate 8 24) ∧
      ∀ u ∈ settings 8 steps, settingPower order demand u ≤ grant * 140 → betterSet u (bestSet order demand grant) = false := by
  obtain ⟨hmem, hbest⟩ := best_of_list ((settings 8 steps).filter fun t => decide (settingPower order demand t ≤ grant * 140))
    (List.replicate 8 24)
  rw [← bestSet] at hmem hbest
  refine ⟨hmem.imp_left fun h => ?_, fun u hu hfit => hbest u (.inl (List.mem_filter.2 ⟨hu, by simpa using hfit⟩))⟩
  have hfit := (List.mem_filter.1 h).2
  simpa using hfit

/-! ## The grants (17 R465, R466) -/

theorem burstStep_skeins (s : State) : (burstStep s).skeins = s.skeins := by
  unfold burstStep
  split
  · obtain ⟨b, h, e⟩ := endBurst_form s
    rw [e]
    rfl
  split <;> rfl

section
variable {g : GrantIn} {cap : Nat} {s : State}

/-- Where every demand is met the skeins run at their fastest step. -/
theorem divide_meets (h : g.skeins.sum + g.distaff ≤ remainder g cap) : (divide g cap s).pwr.distPm = 1000 ∧
    (divide g cap s).pwr.pacePm = 1000 ∧ ∀ k, (divide g cap s).sk k = { s.sk k with stepDiv := 6 } := by
  unfold divide
  dsimp only
  rw [if_pos h]
  exact ⟨rfl, rfl, fun k => sk_map ..⟩

/-- The setting that a grant takes. -/
def grantSet (g : GrantIn) (cap : Nat) : List Nat :=
  bestSet (byWork g.work) g.skeins (remainder g cap * g.skeins.sum / (g.skeins.sum + g.distaff))

/-- Where the demands do not fit the skeins take the steps of the best setting. -/
theorem divide_shares (h : remainder g cap < g.skeins.sum + g.distaff) (k : Fin 8) : (divide g cap s).sk k =
    { s.sk k with stepDiv := stepOf (byWork g.work) (grantSet g cap) k.val } := by
  unfold divide
  dsimp only
  rw [if_neg (by omega)]
  exact get_vecOf ..

end

/-! ## The statement -/

/-- Settles O45: the grant divides the cap by `divide`, whose setting is the best one that fits (`bestSet_best`). -/
theorem powerCap : Obligations.PowerCap := by
  intro g s w good s' p rem total
  have hsk (k : Fin 8) : s'.sk k = s.sk k := congrArg (fun v => v.get k) (burstStep_skeins s)
  refine ⟨fun hst => ⟨fun hg => ⟨_, rfl, doPwrCommit_takes rfl hst hg⟩, fun hg => ?_⟩, fun h => ⟨_, rfl, ?_⟩,
    fun h => ⟨_, grantSet p (grantCap s'), rfl, fun k => ?_, bestSet_best ..⟩, fun b hb => ?_⟩
  · exact congrArg Host.Outcome.next ((if_neg hst).trans (if_neg hg))
  · obtain ⟨h1, h2, h3⟩ := divide_meets (g := p) (cap := grantCap s') (s := s') h
    exact ⟨h1, h2, fun k => (h3 k).trans (by rw [hsk])⟩
  · exact (divide_shares (g := p) (cap := grantCap s') (s := s') h k).trans (by rw [hsk])
  · show Host.Outcome.next (endBurst s) = _
    rw [endBurst, hb]
    rfl

end Sys2Proof.Machine
end

section
/-!
PROOFS. Energy: nothing that the package used is lost (17; O46).
-/

namespace Sys2Proof.Machine

/-! ## Energy divided (17 R468) -/

/-- Parts that a number is divided into sum to no more than it. -/
theorem sum_div_le (e k : Nat) {α : Type} (l : List α) (f : α → Nat) (hk : (l.map f).sum ≤ k) :
    (l.map fun x => e * f x / k).sum ≤ e := by
  have h : ∀ l : List α, k * (l.map fun x => e * f x / k).sum ≤ e * (l.map f).sum := by
    intro l
    induction l with
    | nil => simp
    | cons x l ih =>
      simp only [List.map_cons, List.sum_cons, Nat.mul_add]
      exact Nat.add_le_add (Nat.mul_div_le ..) ih
  by_cases h0 : k = 0
  · subst h0
    simp
  · exact Nat.le_of_mul_le_mul_left ((h l).trans ((Nat.mul_comm e _).trans_le (Nat.mul_le_mul_right e hk)))
      (Nat.pos_of_ne_zero h0)

theorem skeinWork_le (s : State) (k : Fin 8) (e : Nat) : ((skeinWork s k e).map (·.2.2)).sum ≤ e := by
  unfold skeinWork
  dsimp only
  rw [List.map_map]
  have h := sum_div_le e (sharesOf s k).length (sharesOf s k) (fun _ => 1) (by simp)
  simpa [Function.comp_def] using h

theorem byBytes_le (e : Nat) (ws : List (Fin 4096 × Nat × Nat)) : ((byBytes e ws).map (·.2.2)).sum ≤ e := by
  unfold byBytes
  rw [List.map_map]
  exact sum_div_le e _ ws (·.2.2) (le_max_right ..)

theorem sum_flatMap_le {α β : Type} (f : α → List β) (g : β → Nat) (h : α → Nat) (hf : ∀ a, ((f a).map g).sum ≤ h a)
    (l : List α) : ((l.flatMap f).map g).sum ≤ (l.map h).sum := by
  induction l with
  | nil => simp
  | cons a l ih =>
    simp only [List.flatMap_cons, List.map_append, List.sum_append, List.map_cons, List.sum_cons]
    exact Nat.add_le_add (hf a) ih

/-! ## Energy charged to queues (17 R469) -/

/-- The energies of the queues together. -/
def queueEnergy (s : State) : Word := (s.queues.toList.map (·.energy)).sum

theorem sum_energy_upd (v : Vector Queue 4096) (q : Fin 4096) (x : Queue) :
    ((upd v q x).toList.map (·.energy)).sum + (v.get q).energy = (v.toList.map (·.energy)).sum + x.energy := by
  have hset : (upd v q x).toList = v.toList.set q.val x := Vector.toList_set ..
  have hlen : q.val < (v.toList.map (·.energy)).length := by simp
  have hget : (v.toList.map (·.energy))[q.val] = (v.get q).energy := by simp [Vector.get_eq_getElem]
  rw [hset, List.map_set, List.sum_set', dif_pos hlen, hget]
  ring

theorem queueEnergy_setQ (s : State) (q : Fin 4096) (x : Queue) :
    queueEnergy (s.setQ q x) + (s.q q).energy = queueEnergy s + x.energy :=
  sum_energy_upd ..

theorem queueEnergy_setDesc (s : State) (q : Fin 4096) (seq : Nat) (f : Desc → Desc) :
    queueEnergy (setDesc s q seq f) = queueEnergy s := by
  have h := queueEnergy_setQ s q { s.q q with descs := (s.q q).descs.map fun d => if d.seq = seq then f d else d }
  exact add_right_cancel h

theorem queueEnergy_charge (s : State) (w : Fin 4096 × Nat × Nat) :
    queueEnergy (charge s w) = queueEnergy s + BitVec.ofNat 64 w.2.2 := by
  have h := queueEnergy_setQ s w.1 { s.q w.1 with energy := (s.q w.1).energy + BitVec.ofNat 64 w.2.2 }
  unfold charge
  dsimp only
  rw [queueEnergy_setDesc]
  exact add_right_cancel (h.trans (by simp only [add_assoc, add_comm (BitVec.ofNat 64 w.2.2)]))

theorem queueEnergy_charges (l : List (Fin 4096 × Nat × Nat)) (s : State) :
    queueEnergy (l.foldl charge s) = queueEnergy s + BitVec.ofNat 64 (l.map (·.2.2)).sum := by
  induction l generalizing s with
  | nil => simp
  | cons w l ih => rw [List.foldl_cons, ih, queueEnergy_charge, List.map_cons, List.sum_cons, BitVec.ofNat_add, add_assoc]

theorem charges_keeps {α : Type} {f : State → α} (hf : ∀ s q x, f (State.setQ s q x) = f s)
    (l : List (Fin 4096 × Nat × Nat)) (s : State) : f (l.foldl charge s) = f s :=
  foldl_keeps f charge (fun _ _ => (hf ..).trans (hf ..)) l s

/-! ## The statement -/

theorem metered_keeps (p : Pwr) (uj : Nat) :
    (p.metered uj).unattr = p.unattr ∧ (p.metered uj).pkgUj = p.pkgUj + BitVec.ofNat 64 uj := by
  unfold Pwr.metered
  dsimp only
  split <;> exact ⟨rfl, rfl⟩

/-- What is given to work. -/
def givenWork (s : State) (skeins : List Nat) (served : List (Nat × List (Fin 4096 × Nat × Nat))) :
    List (Fin 4096 × Nat × Nat) :=
  (List.finRange 8).flatMap (fun k => skeinWork s k (skeins.getD k.val 0)) ++ served.flatMap fun x => byBytes x.1 x.2

theorem givenWork_le (s : State) (skeins : List Nat) (served : List (Nat × List (Fin 4096 × Nat × Nat))) :
    ((givenWork s skeins served).map (·.2.2)).sum ≤
      ((List.finRange 8).map fun k => skeins.getD k.val 0).sum + (served.map (·.1)).sum := by
  unfold givenWork
  rw [List.map_append, List.sum_append]
  exact Nat.add_le_add 
    (sum_flatMap_le (fun k : Fin 8 => skeinWork s k (skeins.getD k.val 0)) (·.2.2) (fun k => skeins.getD k.val 0)
      (fun k => skeinWork_le s k _) (List.finRange 8))
    (sum_flatMap_le (fun x : Nat × List (Fin 4096 × Nat × Nat) => byBytes x.1 x.2) (·.2.2) (·.1)
      (fun x => byBytes_le x.1 x.2) served)

/-- The state in which the skeins and the package have gained what they used. -/
def meteredState (s : State) (skeins : List Nat) (total given : Nat) : State :=
  let s : State := { s with
    skeins := vecOf 8 fun k => { s.sk k with energy := (s.sk k).energy + BitVec.ofNat 64 (skeins.getD k.val 0) } }
  let p := s.pwr.metered total
  s.setPwr { p with unattr := p.unattr + BitVec.ofNat 64 (total - given) }

theorem doEnergyAttribution_eq (skeins : List Nat) (served : List (Nat × List (Fin 4096 × Nat × Nat))) (idle : Nat)
    (s : State) : doEnergyAttribution skeins served idle s = (givenWork s skeins served).foldl charge
      (meteredState s skeins (((List.finRange 8).map fun k => skeins.getD k.val 0).sum + (served.map (·.1)).sum + idle)
        ((givenWork s skeins served).map (·.2.2)).sum) := rfl

theorem meteredState_gains (s : State) (skeins : List Nat) (total given : Nat) : let t := meteredState s skeins total given
    t.pwr.pkgUj = s.pwr.pkgUj + BitVec.ofNat 64 total ∧ t.pwr.unattr = s.pwr.unattr + BitVec.ofNat 64 (total - given) ∧
      (∀ k, (t.sk k).energy = (s.sk k).energy + BitVec.ofNat 64 (skeins.getD k.val 0)) ∧
      queueEnergy t = queueEnergy s ∧ t.mem = s.mem ∧ t.spindles = s.spindles := by
  obtain ⟨h1, h2⟩ := metered_keeps s.pwr total
  exact ⟨h2, congrArg (· + BitVec.ofNat 64 (total - given)) h1, fun k => congrArg Skein.energy (get_vecOf ..), rfl, rfl, rfl⟩

/-- Settles O46: what is given to work is no more than what was used (`givenWork_le`), so the rest and what the queues are
charged make up the whole. -/
theorem energyKept : Obligations.EnergyKept := by
  intro skeins served idle s e total queues
  obtain ⟨hpkg, hun, hsk, hq, hmem, hsp⟩ := meteredState_gains s skeins
    (((List.finRange 8).map e).sum + (served.map (·.1)).sum + idle) ((givenWork s skeins served).map (·.2.2)).sum
  have hle := givenWork_le s skeins served
  refine ⟨_, rfl, ?_⟩
  rw [doEnergyAttribution_eq, charges_keeps (f := State.pwr) (fun _ _ _ => rfl), charges_keeps (f := State.mem) (fun _ _ _ => rfl),
    charges_keeps (f := State.spindles) (fun _ _ _ => rfl)]
  refine ⟨hpkg, fun k => ?_, ?_, hmem, hsp⟩
  · rw [charges_keeps (f := fun s => s.sk k) fun _ _ _ => rfl]
    exact hsk k
  · show queueEnergy _ + _ = queueEnergy s + s.pwr.unattr + total
    rw [queueEnergy_charges, hq, hun]
    have hsum : BitVec.ofNat 64 ((givenWork s skeins served).map (·.2.2)).sum + BitVec.ofNat 64
        (((List.finRange 8).map e).sum + (served.map (·.1)).sum + idle - ((givenWork s skeins served).map (·.2.2)).sum) =
        total := by
      rw [← BitVec.ofNat_add, Nat.add_sub_cancel' (hle.trans (Nat.le_add_right ..))]
    rw [← hsum]
    ring

end Sys2Proof.Machine
end

section
/-!
PROOFS. Entry into and exit from the power states (17; O47).
-/

namespace Sys2Proof.Machine

/-- The power controller. -/
def powerView (s : State) := s.pwr

/-- From `s` to `t` the power controller has not changed. -/
def PowerKept (s t : State) : Prop := powerView t = powerView s

namespace PowerKept

section
variable {s t u : State}

theorem refl : PowerKept s s := rfl
theorem trans (h : PowerKept s t) (h' : PowerKept t u) : PowerKept s u := Eq.trans h' h
theorem same (h : PowerKept s t) (e : powerView u = powerView t) : PowerKept s u := e.trans h
theorem setSp {p : Fin 136} {x : Spindle} (h : PowerKept s t) : PowerKept s (t.setSp p x) := h
theorem setSk {k : Fin 8} {x : Skein} (h : PowerKept s t) : PowerKept s (t.setSk k x) := h
theorem setQ {q : Fin 4096} {x : Queue} (h : PowerKept s t) : PowerKept s (t.setQ q x) := h
theorem setMem {x : Mem} (h : PowerKept s t) : PowerKept s (t.setMem x) := h
theorem setTrans {x : Trans} (h : PowerKept s t) : PowerKept s (t.setTrans x) := h
theorem setStrand {n : Fin 2048} {x : Strand} (h : PowerKept s t) : PowerKept s (t.setStrand n x) := h
theorem setPort {p : Fin 32} {x : Port} (h : PowerKept s t) : PowerKept s (t.setPort p x) := h
theorem setMgmt {x : Mgmt} (h : PowerKept s t) : PowerKept s (t.setMgmt x) := h
theorem setSec {x : Sec} (h : PowerKept s t) : PowerKept s (t.setSec x) := h
theorem skeins {x : Vector Skein 8} (h : PowerKept s t) : PowerKept s { t with skeins := x } := h
theorem queues {x : Vector Queue 4096} (h : PowerKept s t) : PowerKept s { t with queues := x } := h
theorem kernels {x : List Kernel} (h : PowerKept s t) : PowerKept s { t with kernels := x } := h
theorem free {x : Nat} (h : PowerKept s t) : PowerKept s { t with free := x } := h
theorem setWin {w : List (Nat × Byte)} (h : PowerKept s t) : PowerKept s (t.setMgmt { t.mgmt with win := w }) := h
theorem setMgmtRecord {ws : List Word} (h : PowerKept s t) : PowerKept s { t with mgmt := (keepRecord t.mgmt ws).1 } := by
  obtain ⟨f, d, e⟩ := keepRecord_form t.mgmt ws
  rw [e]
  exact h

theorem ite {c : Prop} [Decidable c] (ha : c → PowerKept s t) (hb : ¬ c → PowerKept s u) :
    PowerKept s (if c then t else u) := by
  split
  · exact ha ‹_›
  · exact hb ‹_›

theorem foldl {β : Type} {g : State → β → State} {l : List β} (h : PowerKept s t)
    (hg : ∀ {u : State} {b : β}, PowerKept s u → PowerKept s (g u b)) : PowerKept s (l.foldl g t) := by
  induction l generalizing t with
  | nil => exact h
  | cons b l ih => exact ih (hg h)

theorem foldlPair {α β : Type} {g : State × α → β → State × α} {l : List β} {x : State × α} (h : PowerKept s x.1)
    (hg : ∀ {y : State × α} {b : β}, PowerKept s y.1 → PowerKept s (g y b).1) : PowerKept s (l.foldl g x).1 := by
  induction l generalizing x with
  | nil => exact h
  | cons b l ih => exact ih (hg h)

end

end PowerKept

section
variable {s t : State}

theorem PowerKept.settleQueue {q : Fin 4096} (h : PowerKept s t) : PowerKept s (settleQueue t q) := by
  unfold Machine.settleQueue
  exact .ite (fun _ => h.setQ) fun _ => h

theorem PowerKept.closeRecord {slot : Nat} (h : PowerKept s t) : PowerKept s (closeRecord t slot) := by
  unfold Machine.closeRecord
  exact h.setMgmt

theorem PowerKept.dropFault {id : Nat} (h : PowerKept s t) : PowerKept s (dropFault t id) := by
  unfold Machine.dropFault
  split
  · exact h
  · exact (PowerKept.ite (fun _ => h.setTrans) fun _ => h.setTrans.closeRecord).settleQueue

theorem PowerKept.closeCut (h : PowerKept s t) : PowerKept s (closeCut t) := by
  unfold Machine.closeCut
  exact h.foldl PowerKept.dropFault

theorem PowerKept.haltSpindle {p : Fin 136} (h : PowerKept s t) : PowerKept s (haltSpindle t p) := by
  unfold Machine.haltSpindle
  exact h.setSp

theorem PowerKept.putByte {key : Nat} {x : Byte} (h : PowerKept s t) : PowerKept s (putByte t key x) := by
  unfold Machine.putByte
  split
  · exact h.setSk
  · exact h.setMem

theorem PowerKept.writeByte {a : Nat} {x : Byte} (h : PowerKept s t) : PowerKept s (writeByte t a x) := by
  unfold Machine.writeByte
  split
  · exact h.setSp
  · split
    · exact h.putByte
    · exact h

theorem PowerKept.writePhys {a : Nat} {bs : List Byte} (h : PowerKept s t) : PowerKept s (writePhys t a bs) := by
  induction bs generalizing t a with
  | nil => exact h
  | cons b bs ih => exact ih h.writeByte

theorem PowerKept.clearPoison {a : Nat} {n : Nat} (h : PowerKept s t) : PowerKept s (clearPoison t a n) := by
  unfold Machine.clearPoison
  exact h.setMem

theorem PowerKept.writeChecked {a : Nat} {bs : List Byte} (h : PowerKept s t) : PowerKept s (writeChecked t a
    bs).1 := by
  unfold Machine.writeChecked
  split
  · exact h
  · exact h.clearPoison.writePhys

theorem PowerKept.writeSegs {segs : List Seg} {a : Nat} {bs : List Byte}
    (h : PowerKept s t) : PowerKept s (writeSegs t segs a bs).1 := by
  unfold Machine.writeSegs
  exact PowerKept.foldlPair h writeChecked

theorem PowerKept.applyWrites {segs : List Seg} {ws : List (Nat × List Byte)} (h : PowerKept s t) :
    PowerKept s (applyWrites t segs ws).1 := by
  unfold Machine.applyWrites
  exact PowerKept.foldlPair h writeSegs

theorem PowerKept.spoil {m : Move} (h : PowerKept s t) : PowerKept s (spoil t m) := by
  unfold Machine.spoil
  exact h.applyWrites.free

theorem PowerKept.cutMoves {f : Move → Bool} (h : PowerKept s t) : PowerKept s (cutMoves t f) := by
  unfold Machine.cutMoves
  exact (h.foldl PowerKept.spoil).skeins

theorem PowerKept.stopShares {q : Fin 4096} {seq : Nat} (h : PowerKept s t) : PowerKept s (stopShares t q seq) := by
  unfold Machine.stopShares
  exact h.cutMoves.foldl PowerKept.haltSpindle

theorem PowerKept.post {n : Fin 2048} {m : Msg} (h : PowerKept s t) : PowerKept s (post t n m) := by
  unfold Machine.post
  dsimp only
  split
  · exact h
  · exact h
  · exact h.setStrand

theorem PowerKept.notify {to_ : Party} {kind : Nat} {queue : Nat} {result : Nat} {body : List Byte}
    (h : PowerKept s t) : PowerKept s (notify t to_ kind queue result body) := by
  unfold Machine.notify
  split
  · exact h.post
  · exact h

theorem PowerKept.addRecord {q : Nat} {ws : List Word} {ten : Bool}
    (h : PowerKept s t) : PowerKept s (addRecord t q ws ten) := by
  unfold Machine.addRecord
  exact .ite (fun _ => h.setMgmtRecord.notify.notify) fun _ => h.setMgmtRecord.notify

theorem PowerKept.record {kind : Nat} {st : Option Status} {unit : Nat} {index : Nat} {args : List Nat}
    (h : PowerKept s t) : PowerKept s (record t kind st unit index args) := by
  unfold Machine.record
  exact h.addRecord

theorem PowerKept.applyChange {k : Fin 8} {c : MapChange} (h : PowerKept s t) : PowerKept s (applyChange t k
    c) := by
  unfold Machine.applyChange
  dsimp only
  split
  · exact h.setSk.setSp.record
  · exact h.setSk

theorem PowerKept.settleMap {k : Fin 8} (h : PowerKept s t) : PowerKept s (settleMap t k) := by
  unfold Machine.settleMap
  exact h.foldl fun h' => .ite (fun _ => h'.applyChange) fun _ => h'

theorem PowerKept.boundary {p : Fin 136} (h : PowerKept s t) : PowerKept s (boundary t p) := by
  unfold Machine.boundary
  split
  · exact h
  · dsimp only
    split
    · exact h.foldl PowerKept.settleMap
    · exact (h.foldl PowerKept.settleMap).setTrans.setSp

theorem PowerKept.boundaries {ps : List (Fin 136)} (h : PowerKept s t) : PowerKept s (boundaries t ps) := by
  unfold Machine.boundaries
  exact h.foldl PowerKept.boundary

theorem PowerKept.stopKernel {q : Fin 4096} {seq : Nat} (h : PowerKept s t) : PowerKept s (stopKernel t q seq) := by
  unfold Machine.stopKernel
  exact (h.stopShares.kernels.setTrans.foldl PowerKept.dropFault).boundaries

theorem PowerKept.setDesc {q : Fin 4096} {seq : Nat} {f : Desc → Desc}
    (h : PowerKept s t) : PowerKept s (setDesc t q seq f) := by
  unfold Machine.setDesc
  exact h.setQ

theorem PowerKept.finish {q : Fin 4096} {seq : Nat} {st : Status} {flags : Flags} {code : Nat} {detail : Nat}
    {value : Nat} (h : PowerKept s t) : PowerKept s (finish t q seq st flags code detail value) := by
  unfold Machine.finish
  exact h.setDesc

theorem PowerKept.redo {q : Fin 4096} {seq : Nat} {fl : Flags}
    (h : PowerKept s t) : PowerKept s (redo t q seq fl) := by
  unfold Machine.redo
  exact .ite (fun _ => h.finish) fun _ => h.setDesc

theorem PowerKept.interruptKernel {q : Fin 4096} {seq : Nat}
    (h : PowerKept s t) : PowerKept s (interruptKernel t q seq) := by
  unfold Machine.interruptKernel
  exact .ite (fun _ => h.stopKernel.redo) fun _ => h.stopKernel.finish

theorem PowerKept.setKernel {q : Fin 4096} {seq : Nat} {f : Kernel → Kernel}
    (h : PowerKept s t) : PowerKept s (setKernel t q seq f) := by
  unfold Machine.setKernel
  exact h.kernels

theorem PowerKept.traceKernel {q : Fin 4096} {seq : Nat} (h : PowerKept s t) : PowerKept s (traceKernel t q
    seq) := by
  unfold Machine.traceKernel
  split
  · exact .ite (fun _ => h.setSec) fun _ => h
  · exact h

theorem PowerKept.settleKernel {q : Fin 4096} {seq : Nat} (h : PowerKept s t) : PowerKept s (settleKernel t q
    seq) := by
  unfold Machine.settleKernel
  split
  · exact h
  · split
    · exact h
    · dsimp only
      split <;> exact h.kernels.traceKernel.finish

theorem PowerKept.endShares {k : Kernel} {st : Status} {gone : List (Nat × Fin 128 × Flags)}
    (h : PowerKept s t) : PowerKept s (endShares t k st gone) := by
  unfold Machine.endShares
  exact h.setKernel.settleKernel

theorem PowerKept.markReplayed {q : Fin 4096} {seq : Nat} (h : PowerKept s t) : PowerKept s (markReplayed t q
    seq) := by
  unfold Machine.markReplayed
  exact h.setDesc

theorem PowerKept.replayShares {k : Kernel} {gone : List (Nat × Fin 128 × Flags)}
    (h : PowerKept s t) : PowerKept s (replayShares t k gone) := by
  unfold Machine.replayShares
  split
  · exact h.endShares
  · dsimp only
    split
    · exact h.markReplayed.setKernel
    · exact h.markReplayed.endShares

theorem PowerKept.resetKernel {k : Kernel} (h : PowerKept s t) : PowerKept s (resetKernel t k) := by
  unfold Machine.resetKernel
  exact .ite (fun _ => h.interruptKernel) fun _ => .ite (fun _ => h.setKernel) fun _ => h.setKernel.replayShares

theorem PowerKept.countMove {m : Move} {st : Status} (h : PowerKept s t) : PowerKept s (countMove t m st) := by
  unfold Machine.countMove
  exact h.setQ

theorem PowerKept.reportMove {m : Move} {st : Status} {fl : Flags}
    (h : PowerKept s t) : PowerKept s (reportMove t m st fl) := by
  unfold Machine.reportMove
  split
  · exact h.setSp
  · exact h.finish

theorem PowerKept.finishMove {m : Move} {fl : Flags} (h : PowerKept s t) : PowerKept s (finishMove t m fl) := by
  unfold Machine.finishMove
  split
  · exact h
  · exact .ite (fun _ => h.interruptKernel) fun _ => .ite (fun _ => h.redo) fun _ => h.reportMove.countMove

theorem PowerKept.finishWork (h : PowerKept s t) : PowerKept s (finishWork t) := by
  unfold Machine.finishWork
  exact ((h.closeCut.setMgmt.foldl PowerKept.resetKernel).foldl PowerKept.finishMove).boundaries

theorem PowerKept.rerunMarks (h : PowerKept s t) : PowerKept s (rerunMarks t) := by
  unfold Machine.rerunMarks
  exact ((h.foldl fun h' => .ite (fun _ => h') fun _ => h'.markReplayed).foldl PowerKept.redo).skeins

theorem PowerKept.undoDispatch {m : Move} (h : PowerKept s t) : PowerKept s (undoDispatch t m) := by
  unfold Machine.undoDispatch
  split
  · exact h.setDesc
  · exact h

theorem PowerKept.parkMoves (h : PowerKept s t) : PowerKept s (parkMoves t) := by
  unfold Machine.parkMoves
  exact ((h.foldl PowerKept.spoil).foldl PowerKept.undoDispatch).same (by rfl)

theorem PowerKept.cutKernel {k : Kernel} (h : PowerKept s t) : PowerKept s (cutKernel t k) := by
  unfold Machine.cutKernel
  exact h.stopShares.setKernel

theorem PowerKept.stopWork (h : PowerKept s t) : PowerKept s (stopWork t) := by
  unfold Machine.stopWork
  exact (h.queues.foldl PowerKept.cutKernel).parkMoves.rerunMarks

theorem PowerKept.interruptAll (h : PowerKept s t) : PowerKept s (interruptAll t) := by
  unfold Machine.interruptAll
  exact h.stopWork.finishWork

theorem PowerKept.clearLldp {p : Fin 32} (h : PowerKept s t) : PowerKept s (clearLldp t p) := h.setWin

theorem PowerKept.dropPort {p : Fin 32} {l : Link} (h : PowerKept s t) : PowerKept s (dropPort t p l) := by
  unfold Machine.dropPort
  exact h.setPort.clearLldp

theorem PowerKept.retrain {p : Fin 32} (h : PowerKept s t) : PowerKept s (retrain t p) := by
  unfold Machine.retrain
  exact h.dropPort

theorem PowerKept.portsUp (h : PowerKept s t) : PowerKept s (portsUp t) := by
  unfold Machine.portsUp
  exact h.foldl fun h' => .ite (fun _ => h'.retrain) fun _ => h'

theorem PowerKept.keeps_pwr (h : PowerKept s t) : t.pwr = s.pwr := h

end

/-! ## What an entry into a power state leaves and clears (17 R470, R471) -/

/-- The drain of a skein keeps every bobbin. -/
theorem drain_bobbin (s : State) (k : Fin 8) (l : List (Fin 17)) (p : Fin 136) :
    ((l.foldl (fun s l => s.setSp (physOf k l) (s.sp (physOf k l)).drained) s).sp p).bobbin = (s.sp p).bobbin := by
  refine foldl_keeps (fun s => (s.sp p).bobbin) _ (fun s i => ?_) l s
  by_cases e : p = physOf k i
  · subst e
    exact (congrArg Spindle.bobbin (State.setSp_sp_same s (physOf k i) _)).trans rfl
  · exact congrArg Spindle.bobbin (State.setSp_sp_ne _ _ _ _ e)

/-- The drain of a skein leaves each of its spindles with the s registers of a fresh one. -/
theorem drain_s (s : State) (k : Fin 8) (j : Fin 17) :
    (((List.finRange 17).foldl (fun s l => s.setSp (physOf k l) (s.sp (physOf k l)).drained) s).sp (physOf k j)).s =
      ({} : Spindle).s := by
  refine foldl_finRange_each (P := fun (j : Fin 17) (t : State) => (t.sp (physOf k j)).s = ({} : Spindle).s)
    (fun t i => ?_) (fun t i j _ h => ?_) s j
  · exact (congrArg Spindle.s (State.setSp_sp_same t (physOf k i) _)).trans rfl
  · by_cases e : physOf k j = physOf k i
    · rw [e]
      exact (congrArg Spindle.s (State.setSp_sp_same t (physOf k i) _)).trans rfl
    · exact (congrArg Spindle.s (State.setSp_sp_ne _ _ _ _ e)).trans h

/-- The write-back of the creel of one skein. -/
def dropBindingsOf (s : State) (k : Fin 8) : State :=
  let s := (s.sk k).bindings.foldl (fun s b => writeBack s k b b.hint) s
  s.setSk k { s.sk k with bindings := [] }

theorem dropBindings_eq (s : State) : dropBindings s = (List.finRange 8).foldl dropBindingsOf s := rfl

theorem dropBindingsOf_same (s : State) (k : Fin 8) : ((dropBindingsOf s k).sk k).bindings = [] := by
  unfold dropBindingsOf
  dsimp only
  rw [State.setSk_sk_same]

theorem dropBindingsOf_ne (s : State) {k j : Fin 8} (h : j ≠ k) :
    ((dropBindingsOf s k).sk j).bindings = (s.sk j).bindings := by
  unfold dropBindingsOf
  dsimp only
  rw [State.setSk_sk_ne _ _ _ _ h]
  exact foldl_keeps (fun s => (s.sk j).bindings) _
    (fun t b => writeBack_view t k b b.hint (v := Skein.bindings) (fun _ _ => rfl) j) _ s

/-- The write-back of the creel empties it. -/
theorem dropBindings_none (s : State) (j : Fin 8) : ((dropBindings s).sk j).bindings = [] := by
  rw [dropBindings_eq]
  exact foldl_finRange_each (P := fun (j : Fin 8) (t : State) => (t.sk j).bindings = []) dropBindingsOf_same
    (fun t i j hj h => (dropBindingsOf_ne t hj).trans h) s j

theorem writeBackAll_none (s : State) (j : Fin 8) : ((writeBackAll s).sk j).bindings = [] := by
  unfold writeBackAll
  dsimp only
  rw [State.setMem_sk]
  exact dropBindings_none s j

theorem dropPort_spindles (s : State) (p : Fin 32) (l : Link) : (dropPort s p l).spindles = s.spindles := by
  obtain ⟨w, e⟩ := dropPort_form s p l
  rw [e]
  rfl

theorem settlePaths_spindles (s : State) : (settlePaths s).spindles = s.spindles := by
  obtain ⟨v, e⟩ := settlePaths_form s
  rw [e]

theorem diesOff_spindles (s : State) : (diesOff s).spindles = (millOff s).spindles := by
  refine (settlePaths_spindles _).trans (foldl_keeps State.spindles _ (fun t p => ?_) _ _)
  split
  · rfl
  · exact dropPort_spindles ..

/-- A mill die that is off keeps no bobbin. -/
theorem diesOff_bobbin (s : State) (j : Fin 136) : ((diesOff s).sp j).bobbin = [] := by
  rw [State.sp, diesOff_spindles]
  simp [millOff, Spindle.unpowered]

/-! ## The way out of P4 (17 R471; 14 R394) -/

theorem sendHello_strands (s : State) (p : Fin 32) (pending : Bool) :
    (sendHello s p pending).twine.strands = s.twine.strands := by
  rw [sendHello_eq]
  refine foldl_keeps (fun s => s.twine.strands) _ (fun t c => ?_) _ s
  unfold putHello sayCtrl
  split
  · rfl
  · split <;> rfl

theorem sendHello_pwr (s : State) (p : Fin 32) (pending : Bool) : (sendHello s p pending).pwr = s.pwr := by
  rw [sendHello_eq]
  refine foldl_keeps State.pwr _ (fun t c => ?_) _ s
  unfold putHello sayCtrl
  split
  · rfl
  · split <;> rfl

theorem restoreStrands_pwr (s : State) : (restoreStrands s).pwr = s.pwr :=
  foldl_keeps State.pwr _ (fun t p => sendHello_pwr t p false) _ _

theorem restoreStrands_strands (s : State) : (restoreStrands s).twine.strands =
    (s.twine.strands.map fun x => { x with held := [] }).map Strand.again :=
  foldl_keeps (fun s => s.twine.strands) _ (fun t p => sendHello_strands t p false) _ _

/-- A restored strand holds nothing and sends again all that is unacknowledged. -/
theorem restoreStrands_strand (s : State) (n : Fin 2048) :
    ((restoreStrands s).strand n).held = [] ∧ ∀ f ∈ ((restoreStrands s).strand n).unacked, f.again = true := by
  rw [State.strand, restoreStrands_strands, Vector.get_map, Vector.get_map]
  refine ⟨rfl, fun f hf => ?_⟩
  obtain ⟨g, -, rfl⟩ := List.mem_map.mp hf
  rfl

/-- Whether what woke the device fails its check. -/
def wakeRefused (s : State) : Bool := match s.pwr.wake with
  | some w => !wakeOk s w.2
  | none => false

/-- What a WAKE frame that passes its check counts. -/
def wakeCounted (s : State) : State := match s.pwr.wake with
  | some (_, false, _, ctr) => s.setSec { s.sec with wakeCtr := ctr.toNat }
  | _ => s

/-- The device out of P4, its ports trained again, before its strands are restored. -/
def wokenState (s : State) : State :=
  let t := portsUp ((wakeCounted s).setPwr { s.pwr with pstate := .p0, exiting := false, wake := none })
  { t with skeins := t.skeins.map fun k => { k with pstate := .p0, exiting := false, tlb := [] } }

theorem leaveP4_wakes {s : State} (h : wakeRefused s = false) : leaveP4 s = restoreStrands (wokenState s) :=
  (if_neg (show ¬ wakeRefused s = true by simp [h]) : _)

theorem leaveP4_refuses {s : State} (w : Fin 32 × Bool × Bool × Word) (hw : s.pwr.wake = some w)
    (h : wakeRefused s = true) :
    leaveP4 s = record (s.setPwr { s.pwr with exiting := false, wake := none }) 0x07 none 5 w.1.val [3] := by
  refine (if_pos h : leaveP4 s = _).trans ?_
  rw [hw]

theorem portsUp_pwr (s : State) : (portsUp s).pwr = s.pwr := (PowerKept.refl (s := s)).portsUp.keeps_pwr

theorem interruptAll_pwr (s : State) : (interruptAll s).pwr = s.pwr := (PowerKept.refl (s := s)).interruptAll.keeps_pwr

theorem wokenState_pwr (s : State) : (wokenState s).pwr = { s.pwr with pstate := .p0, exiting := false, wake := none } := by
  unfold wokenState
  dsimp only
  rw [portsUp_pwr]
  rfl

theorem wakeRefused_eq {s : State} {w : Fin 32 × Bool × Bool × Word} (hw : s.pwr.wake = some w) :
    wakeRefused s = !(if w.2.1 = true then s.eth.magic else w.2.2.1 && decide (s.sec.wakeCtr < w.2.2.2.toNat)) := by
  unfold wakeRefused
  rw [hw]
  rfl

/-- The exit from P4 after a frame that passes its check. -/
theorem powerStateExitDone_p4_wakes {s : State} (hp : s.pwr.pstate = .p4) (he : s.pwr.exiting = true)
    (h : wakeRefused s = false) : ∃ t, exec (.powerStateExitDone .p4) s = .next t ∧ t.pwr.pstate = .p0 ∧ t.pwr.wake = none ∧
      ∀ n, (t.strand n).held = [] ∧ ∀ f ∈ (t.strand n).unacked, f.again = true := by
  have e : doPowerStateExitDone .p4 s = restoreStrands (wokenState s) := (if_pos ⟨hp, he⟩).trans (leaveP4_wakes h)
  have hpwr : (restoreStrands (wokenState s)).pwr = { s.pwr with pstate := .p0, exiting := false, wake := none } :=
    (restoreStrands_pwr _).trans (wokenState_pwr s)
  exact ⟨_, congrArg Host.Outcome.next e, congrArg Pwr.pstate hpwr, congrArg Pwr.wake hpwr, restoreStrands_strand _⟩

/-- The exit from P4 after a frame that fails its check. -/
theorem powerStateExitDone_p4_refuses {s : State} {w : Fin 32 × Bool × Bool × Word} (hp : s.pwr.pstate = .p4)
    (he : s.pwr.exiting = true) (hw : s.pwr.wake = some w) (h : wakeRefused s = true) :
    ∃ t, exec (.powerStateExitDone .p4) s = .next t ∧ t.pwr.pstate = .p4 ∧ t.pwr.exiting = false ∧ t.sec = s.sec := by
  have e : doPowerStateExitDone .p4 s =
      record (s.setPwr { s.pwr with exiting := false, wake := none }) 0x07 none 5 w.1.val [3] :=
    (if_pos ⟨hp, he⟩).trans (leaveP4_refuses w hw h)
  obtain ⟨f, d, v, er⟩ := record_form (s.setPwr { s.pwr with exiting := false, wake := none }) 0x07 none 5 w.1.val [3]
  rw [er] at e
  exact ⟨_, congrArg Host.Outcome.next e, hp, rfl, rfl⟩

/-! ## The statement -/

/-- A skein in P2, its spindles drained. -/
def parkedSkein (s : State) (k : Fin 8) : State :=
  let s := (List.finRange 17).foldl (fun s l => s.setSp (physOf k l) (s.sp (physOf k l)).drained) s
  s.setSk k { s.sk k with pstate := .p2 }

theorem parkedSkein_parks (s : State) (k : Fin 8) : ((parkedSkein s k).sk k).pstate = .p2 ∧
    ∀ l : Fin 17, ((parkedSkein s k).sp (physOf k l)).bobbin = (s.sp (physOf k l)).bobbin ∧
      ((parkedSkein s k).sp (physOf k l)).s = ({} : Spindle).s := by
  unfold parkedSkein
  dsimp only
  rw [State.setSk_sk_same]
  refine ⟨rfl, fun l => ?_⟩
  rw [State.setSk_sp]
  exact ⟨drain_bobbin s k _ _, drain_s s k l⟩

/-- The device in P3. -/
def restedState (s : State) : State :=
  let s := writeBackAll s
  s.setPwr { s.pwr with pstate := .p3, exiting := false }

theorem restedState_rests (s : State) : (restedState s).pwr.pstate = .p3 ∧ ∀ j, ((restedState s).sk j).bindings = [] := by
  unfold restedState
  refine ⟨rfl, fun j => ?_⟩
  dsimp only
  rw [State.setPwr_sk]
  exact writeBackAll_none s j

theorem enterP4_rests (s : State) : (enterP4 s).pwr.pstate = .p4 ∧ ∀ j, ((enterP4 s).sp j).bobbin = [] := by
  unfold enterP4
  refine ⟨rfl, fun j => ?_⟩
  dsimp only
  rw [State.setPwr_sp]
  exact diesOff_bobbin _ j

section
variable {k : Fin 8} {s : State}

theorem doPowerStateEntry_p2 (hin : s.inService = true) (h : (skeinIdle s k && ((s.sk k).pstate == .p0 ||
    (s.sk k).pstate == .p1) && !(s.sk k).exiting && decide (40 ≤ s.pwr.latTol)) = true) :
    doPowerStateEntry (.p2 k) s = parkedSkein s k := (if_neg (by simp [hin])).trans (if_pos h)

theorem doPowerStateEntry_p3 (hin : s.inService = true) (h : (deviceIdle s && s.pwr.pstate == .p0 &&
    decide (1500 ≤ s.pwr.latTol)) = true) : doPowerStateEntry .p3 s = restedState s :=
  (if_neg (by simp [hin])).trans (if_pos h)

theorem doPowerStateEntry_p4 (hin : s.inService = true) (h : (deviceIdle s && (s.pwr.pstate == .p0 ||
    s.pwr.pstate == .p3) && !s.pwr.exiting && s.pwr.allowP4 && decide (250000 ≤ s.pwr.latTol)) = true) :
    doPowerStateEntry .p4 s = enterP4 s := (if_neg (by simp [hin])).trans (if_pos h)

end

/-- The entries into P1 to P4. -/
theorem powerStateEntries (k : Fin 8) (s : State) (hin : s.inService = true) :
    (skeinIdle s k = true → (s.sk k).exiting = false →
      ((s.sk k).pstate = .p0 → 1 ≤ s.pwr.latTol →
        exec (.powerStateEntry (.p1 k)) s = .next (s.setSk k { s.sk k with pstate := .p1 })) ∧
      ((s.sk k).pstate = .p0 ∨ (s.sk k).pstate = .p1 → 40 ≤ s.pwr.latTol → ∃ t,
        exec (.powerStateEntry (.p2 k)) s = .next t ∧ (t.sk k).pstate = .p2 ∧
        ∀ l : Fin 17, (t.sp (physOf k l)).bobbin = (s.sp (physOf k l)).bobbin ∧
          (t.sp (physOf k l)).s = ({} : Spindle).s)) ∧
    (deviceIdle s = true → s.pwr.exiting = false →
      (s.pwr.pstate = .p0 → 1500 ≤ s.pwr.latTol → ∃ t, exec (.powerStateEntry .p3) s = .next t ∧ t.pwr.pstate = .p3 ∧
        ∀ j, (t.sk j).bindings = []) ∧
      (s.pwr.pstate = .p0 ∨ s.pwr.pstate = .p3 → s.pwr.allowP4 = true → 250000 ≤ s.pwr.latTol → ∃ t,
        exec (.powerStateEntry .p4) s = .next t ∧ t.pwr.pstate = .p4 ∧ ∀ j, (t.sp j).bobbin = [])) := by
  refine ⟨fun hidle hex => ⟨fun hp hl => ?_, fun hp hl => ?_⟩, fun hidle hex => ⟨fun hp hl => ?_, fun hp h4 hl => ?_⟩⟩
  · exact congrArg Host.Outcome.next ((if_neg (by simp [hin])).trans (if_pos (by simp [hidle, hex, hp, hl])))
  · exact ⟨_, congrArg Host.Outcome.next (doPowerStateEntry_p2 hin (by simpa [hidle, hex, hl] using hp)), parkedSkein_parks s k⟩
  · exact ⟨_, congrArg Host.Outcome.next (doPowerStateEntry_p3 hin (by simp [hidle, hp, hl])), restedState_rests s⟩
  · exact ⟨_, congrArg Host.Outcome.next (doPowerStateEntry_p4 hin (by simpa [hidle, hex, h4, hl] using hp)),
      enterP4_rests s⟩

theorem leaveP3_eq (s : State) : leaveP3 s = s.twine.waiting.foldl takeFrame (interruptAll { s with
    pwr := { s.pwr with pstate := .p0, exiting := false }, twine := { s.twine with waiting := [] } }) := rfl

/-- The exits from P1 to P3. -/
theorem powerStateExits (k : Fin 8) (s : State) :
    ((s.sk k).pstate = .p1 → exec (.powerStateExit (.p1 k)) s = .next (s.setSk k { s.sk k with exiting := true })) ∧
    ((s.sk k).pstate = .p1 → (s.sk k).exiting = true →
      exec (.powerStateExitDone (.p1 k)) s = .next (s.setSk k { s.sk k with pstate := .p0, exiting := false })) ∧
    ((s.sk k).pstate = .p2 → exec (.powerStateExit (.p2 k)) s = .next (s.setSk k { s.sk k with exiting := true })) ∧
    ((s.sk k).pstate = .p2 → (s.sk k).exiting = true →
      exec (.powerStateExitDone (.p2 k)) s = .next (s.setSk k { s.sk k with pstate := .p0, exiting := false })) ∧
    (s.pwr.pstate = .p3 → s.mgmt.phase ≠ .stopped →
      exec (.powerStateExit .p3) s = .next { s with pwr := { s.pwr with exiting := true } }) ∧
    (s.pwr.pstate = .p3 → s.pwr.exiting = true → s.mgmt.phase ≠ .stopped → s.twine.waiting = [] →
      ∃ t, exec (.powerStateExitDone .p3) s = .next t ∧ t.pwr.pstate = .p0 ∧ t.pwr.exiting = false) := by
  refine ⟨fun h => congrArg Host.Outcome.next (if_pos h), fun h he => congrArg Host.Outcome.next (if_pos ⟨h, he⟩),
    fun h => congrArg Host.Outcome.next (if_pos h), fun h he => congrArg Host.Outcome.next (if_pos ⟨h, he⟩), fun h hs => ?_,
    fun h he hs hw => ?_⟩
  · refine congrArg Host.Outcome.next ((if_pos h).trans ((if_neg hs).trans ?_))
    rw [h]
    rfl
  · have e : doPowerStateExitDone .p3 s = leaveP3 s := if_pos ⟨h, he, hs⟩
    have hpwr : (leaveP3 s).pwr = { s.pwr with pstate := .p0, exiting := false } := by
      rw [leaveP3_eq, hw, List.foldl_nil, interruptAll_pwr]
    exact ⟨_, congrArg Host.Outcome.next e, congrArg Pwr.pstate hpwr, congrArg Pwr.exiting hpwr⟩

/-- A wake frame that a port of `WAKE_EN` detects starts the exit from P4. -/
theorem wake_starts {s : State} {p : Fin 32} (h4 : s.pwr.pstate = .p4) (hl : (s.port p).link = .up)
    (hen : s.eth.wakeEn.getLsbD p.val = true) (hex : s.pwr.exiting = false) {magic : Bool}
    (hm : (if magic = true then s.eth.magic else s.eth.twineWake) = true) (genuine : Bool) (ctr : Word) :
    exec (.wake p magic genuine ctr) s =
      .next { s with pwr := { s.pwr with exiting := true, wake := some (p, magic, genuine, ctr) } } := by
  have hask : ¬ (!s.eth.twineWake && !(magic && s.eth.magic)) = true := by cases magic <;> simp_all
  refine congrArg Host.Outcome.next ((if_neg (by simp [hl])).trans ?_)
  rw [h4]
  exact (if_neg (by simp [hen, hex])).trans (if_neg hask)

/-- Settles O47: entries, exits and the end of an exit each by the branch of the model that the state selects; what the
longer ones leave and clear stands in the lemmas above. -/
theorem powerStates : Obligations.PowerStates := by
  intro k p s
  refine ⟨powerStateEntries k s, powerStateExits k s, fun h4 hl hen hex magic genuine ctr hm => ?_,
    fun h4 he w hw => ⟨fun h => ?_, fun h => ?_⟩⟩
  · exact wake_starts h4 hl hen hex hm genuine ctr
  · refine powerStateExitDone_p4_wakes h4 he ?_
    rw [wakeRefused_eq hw]
    rcases h with ⟨hm, hk⟩ | ⟨hm, hg, hc⟩
    · simp [hm, hk]
    · simp [hm, hg, hc]
  · refine powerStateExitDone_p4_refuses h4 he hw ?_
    rw [wakeRefused_eq hw]
    rcases h with ⟨hm, hk⟩ | ⟨hm, hg⟩
    · simp [hm, hk]
    · rcases hg with hg | hc
      · simp [hm, hg]
      · simp [hm, hc]

end Sys2Proof.Machine
end

section
/-!
PROOFS. Attestation, key rewrites and the test port (16, 19; O49).
-/

namespace Sys2Proof.Machine

/-! ## Requests on strand 0 (16 R448) -/

theorem startExit_form (s : State) : ∃ b, startExit s = s.setPwr { s.pwr with exiting := b } := by
  unfold startExit
  split
  · exact ⟨s.pwr.exiting, rfl⟩
  · split <;> exact ⟨_, rfl⟩

/-- A request that reaches the device changes whether it leaves its power state, and nothing else. -/
theorem spdmWakes_form (s : State) : ∃ b, spdmWakes s = s.setPwr { s.pwr with exiting := b } := by
  unfold spdmWakes
  split
  · exact startExit_form s
  · exact ⟨s.pwr.exiting, rfl⟩

theorem spdmWakes_reaches (s : State) : spdmReaches (spdmWakes s) = spdmReaches s := by
  obtain ⟨b, e⟩ := spdmWakes_form s
  rw [e]
  rfl

theorem spdmWakes_now (s : State) : (spdmWakes s).now = s.now := by
  obtain ⟨b, e⟩ := spdmWakes_form s
  rw [e]
  rfl

theorem measurement_spdmWakes (s : State) (i : Nat) : measurement (spdmWakes s) i = measurement s i := by
  obtain ⟨b, e⟩ := spdmWakes_form s
  rw [e]
  rfl

/-- A request that reaches the device is answered. -/
theorem spdm_answers {s : State} (h : spdmReaches s = true) (code : Nat) (body : List Nat) :
    spdm (spdmWakes s) code body =
      sendSpdm (spdmWakes s) (.spdm code body (bareHdr 0x19 s.now (Config.spdmLen code body) 0)) := by
  rw [← spdmWakes_now s]
  exact if_pos ((spdmWakes_reaches s).trans h)

/-- An answer goes out where a port can carry it. -/
theorem sendSpdm_says {s : State} {p : Fin 32} (hp : spdmPort s p = true) (hc : ctrlSends s p = true) (o : Out) :
    sendSpdm s o = s.say o :=
  if_pos (List.any_eq_true.mpr ⟨p, List.mem_finRange p, by simp [hp, hc]⟩)

/-- An answer waits where none can. -/
theorem sendSpdm_waits {s : State} (h : ∀ p, spdmPort s p = true → ctrlSends s p = false) (o : Out) :
    sendSpdm s o = { s with sec := { s.sec with spdmQ := s.sec.spdmQ ++ [o] } } := by
  refine if_neg fun hany => ?_
  obtain ⟨p, -, hp⟩ := List.any_eq_true.mp hany
  rw [Bool.and_eq_true] at hp
  exact absurd hp.2 (by simp [h p hp.1])

/-- A measurement block is answered with its signature. -/
theorem doGetMeasurements_block {s : State} {i : Nat} {b : List Nat} (h0 : i ≠ 0) (hff : i ≠ 0xFF)
    (hb : measurement s i = some b) : doGetMeasurements i s = spdm s 0x60 (b ++ [signed b]) := by
  unfold doGetMeasurements
  rw [if_neg h0, if_neg hff, hb]

theorem getMeasurements_answers {s : State} (h : spdmReaches s = true) {i : Nat} {b : List Nat} (h0 : i ≠ 0)
    (hff : i ≠ 0xFF) (hb : measurement s i = some b) : exec (.getMeasurements i) s = .next (sendSpdm (spdmWakes s)
      (.spdm 0x60 (b ++ [signed b]) (bareHdr 0x19 s.now (Config.spdmLen 0x60 (b ++ [signed b])) 0))) :=
  congrArg Host.Outcome.next
    ((doGetMeasurements_block h0 hff ((measurement_spdmWakes s i).trans hb)).trans (spdm_answers h ..))

/-! ## Key rewrites (16 R435, R436) -/

/-- A tenant-owned peer strand of a new key phase. -/
def Strand.turned (x : Strand) : Strand :=
  if x.cfg.owner = 2 ∧ !x.session ∧ x.st ≠ .closed then { x with txPhase := x.txPhase + 1, phaseAt := x.txc } else x

/-- The state after a rewrite that takes the value `v`, with `vs` to come after it. -/
def rewritten (s : State) (n : Fin 4) (v : List Byte) (vs : List (List Byte)) : State :=
  let st : KeySt := if vs ≠ [] then .draining else if s.sec.transitNext.isSome then .next else .loaded
  let late (r : Rma) : Rma := if r.holdsCurrent s then { r with keyGen := ((s.sec.keys.get 1).gen + 1).toNat } else r
  let rmas := s.twine.rmas.map late
  let s := bumpKey s n st (some (transitKey s.sec.tnKey v))
  let s := s.setSec { s.sec with transit := v, transitPend := vs, rewriteAt := s.now, oldTransit := true }
  { s with twine := { s.twine with rmas, strands := s.twine.strands.map Strand.turned } }

theorem doKeyRewriteDrained_rewrites {s : State} {n : Fin 4} {v : List Byte} {vs : List (List Byte)}
    (hst : (s.sec.keys.get n).st = .draining) (hp : s.sec.transitPend = v :: vs)
    (hd : s.twine.rmas.any (Rma.holdsCurrent s) = false ∨ s.sec.rewriteAt + 50000 ≤ s.now) :
    doKeyRewriteDrained n s = rewritten s n v vs := by
  have hwait : ¬ (s.twine.rmas.any (Rma.holdsCurrent s) && decide (s.now < s.sec.rewriteAt + 50000)) = true := by
    rcases hd with h | h
    · simp [h]
    · simp [Nat.not_lt.mpr h]
  refine (if_neg (not_not_intro hst)).trans ((if_neg hwait).trans ?_)
  rw [hp]
  rfl

theorem rewritten_keys (s : State) (n : Fin 4) (v : List Byte) (vs : List (List Byte)) :
    ((rewritten s n v vs).sec.keys.get n).gen = (s.sec.keys.get n).gen + 1 := by
  unfold rewritten bumpKey
  simp

theorem rewritten_strand (s : State) (n : Fin 4) (v : List Byte) (vs : List (List Byte)) (m : Fin 2048) :
    (rewritten s n v vs).strand m = (s.strand m).turned := Vector.get_map ..

/-- A rewrite waits for the RMAs of the old generation for 50 µs. -/
theorem doKeyRewriteDrained_waits {s : State} (n : Fin 4) (h : s.twine.rmas.any (Rma.holdsCurrent s) = true)
    (ht : s.now < s.sec.rewriteAt + 50000) : doKeyRewriteDrained n s = s := by
  unfold doKeyRewriteDrained
  split
  · rfl
  · exact if_pos (by simp [h, ht])

/-! ## The statement -/

theorem attestation_answers (s : State) (h : spdmReaches s = true) :
    let tells (i : Instr) (code : Nat) (body : List Nat) : Prop := exec i s =
      .next (sendSpdm (spdmWakes s) (.spdm code body (bareHdr 0x19 s.now (Config.spdmLen code body) 0)))
    (∀ p o, spdmPort s p = true → ctrlSends s p = true → sendSpdm s o = s.say o) ∧
    (∀ o, (∀ p, spdmPort s p = true → ctrlSends s p = false) →
      sendSpdm s o = { s with sec := { s.sec with spdmQ := s.sec.spdmQ ++ [o] } }) ∧
    tells .getVersion 0x04 [0x12] ∧ tells .getCapabilities 0x61 [] ∧
    tells (.negotiateAlgorithms true) 0x63 [384, 384, 384, 256] ∧ tells (.negotiateAlgorithms false) 0x7F [] ∧
    tells .getDigests 0x01 [Config.certDigest] ∧ tells (.getCertificate 0) 0x02 [Config.certChain] ∧
    (∀ n, n ≠ 0 → tells (.getCertificate n) 0x7F []) ∧
    (∀ n : BitVec 256, tells (.challenge n) 0x03 [Config.certDigest, signed [Config.certDigest, n.toNat]]) ∧
    (let b : List Nat := [Config.fuseId.toNat, Config.fleetId.toNat, s.sec.ctr, secBits s,
        if s.sec.tenancyOn = true then (Config.sha384 s.sec.tnKey).toNat else 0]
     tells (.getMeasurements 4) 0x60 (b ++ [signed b])) ∧
    (let b : List Nat := [Config.romHash]
     tells (.getMeasurements 1) 0x60 (b ++ [signed b])) := by
  intro tells
  have answers (code : Nat) (body : List Nat) := congrArg (Host.Outcome.next : State → Res) (spdm_answers h code body)
  refine ⟨fun p o hp hc => sendSpdm_says hp hc o, fun o hw => sendSpdm_waits hw o, answers _ _, answers _ _, answers _ _,
    answers _ _, answers _ _, answers _ _, fun n hn => ?_, fun n => answers _ _, ?_, ?_⟩
  · exact (congrArg Host.Outcome.next (if_neg hn)).trans (answers _ _)
  · exact getMeasurements_answers h (by decide) (by decide) rfl
  · exact getMeasurements_answers h (by decide) (by decide) rfl

theorem tap_answers (s : State) :
    let tap (n : Nat) (s : State) : State := { s with sec := { s.sec with tapNow := n } }
    let drawn (n c : Nat) : State := { s with
      sec := { s.sec with tapNow := n, tapCells := c }, out := .tap n (Config.pinSample s.free) :: s.out, free := s.free + 1 }
    exec (.tapInstruction (.trst true)) s = .next { s with sec := { s.sec with trst := true } } ∧
    exec (.tapInstruction (.trst false)) s =
      .next { s with sec := { s.sec with trst := false, tapNow := 1, attached := false } } ∧
    (s.sec.trst = false → ∀ n, ∀ i ∈ [Tap.bypass, .idcode, .sample n, .extest n, .priv n],
      exec (.tapInstruction i) s = .next s) ∧
    (s.sec.trst = true →
      exec (.tapInstruction .bypass) s = .next ((tap 0 s).say (.tap 0 0)) ∧
      exec (.tapInstruction .idcode) s = .next ((tap 1 s).say (.tap 1 0x10C715B3)) ∧
      ∀ n, exec (.tapInstruction (.sample n)) s = .next (drawn 2 n) ∧
        (s.sec.debug = true ∨ s.sec.tenancyOn = false →
          exec (.tapInstruction (.extest n)) s = .next ((drawn 3 n).say (.drive n))) ∧
        (s.sec.debug = false → s.sec.tenancyOn = true → exec (.tapInstruction (.extest n)) s = .next s) ∧
        (s.sec.debug = false → exec (.tapInstruction (.priv n)) s = .next s) ∧
        (s.sec.debug = true → exec (.tapInstruction (.priv n)) s = .next
          { s with
            sec := { s.sec with attached := true, tapNow := 4 + n }
            out := .tap (4 + n) (Config.inspect n (inspected s) s.free) :: s.out, free := s.free + 1 })) := by
  intro tap drawn
  refine ⟨rfl, rfl, fun h n i hi => ?_, fun h => ⟨congrArg Host.Outcome.next (if_pos h), congrArg Host.Outcome.next (if_pos h),
    fun n => ⟨congrArg Host.Outcome.next (if_pos h), fun hc => ?_, fun hd ht => ?_, fun hd => ?_, fun hd => ?_⟩⟩⟩
  · have hf : ¬ s.sec.trst = true := by simp [h]
    simp only [List.mem_cons, List.not_mem_nil, or_false] at hi
    rcases hi with rfl | rfl | rfl | rfl | rfl
    · exact congrArg Host.Outcome.next (if_neg hf)
    · exact congrArg Host.Outcome.next (if_neg hf)
    · exact congrArg Host.Outcome.next (if_neg hf)
    · exact congrArg Host.Outcome.next (if_neg (by simp [h]))
    · exact congrArg Host.Outcome.next (if_neg (by simp [h]))
  · exact congrArg Host.Outcome.next (if_pos (by simpa [h] using hc))
  · exact congrArg Host.Outcome.next (if_neg (by simp [hd, ht]))
  · exact congrArg Host.Outcome.next (if_neg (by simp [hd]))
  · exact congrArg Host.Outcome.next (if_pos (by simp [h, hd]))

/-- Settles O49: a request reaches the device after its wake as before it (`spdmWakes_reaches`), so each answer is the one
that the command names; a rewrite that need not wait is `rewritten`; the test port answers by its branches. -/
theorem attestationAndTap : Obligations.AttestationAndTap := by
  refine ⟨attestation_answers, fun n s => ⟨fun v vs hst hp hd => ?_, fun h ht => ?_, rfl, tap_answers s⟩⟩
  · refine ⟨_, congrArg Host.Outcome.next (doKeyRewriteDrained_rewrites hst hp hd), rfl, rfl, rfl, rewritten_keys .., ?_⟩
    intro m ho hs hc
    rw [rewritten_strand, Strand.turned, if_pos ⟨ho, by simp [hs], hc⟩]
    exact ⟨rfl, rfl⟩
  · exact congrArg Host.Outcome.next (doKeyRewriteDrained_waits n h ht)

end Sys2Proof.Machine
end

section
/-!
PROOFS. Firmware and trim tables, units and fault records (18; O55).
-/

namespace Sys2Proof.Machine

/-! ## Firmware and trim tables (18 R486, R494 to R497) -/

/-- What a record leaves: the firmware's and the trim table's registers, the order on a unit, the skeins, the memory. -/
theorem record_leaves (s : State) (kind : Nat) (st : Option Status) (unit index : Nat) (args : List Nat) :
    ∃ f d, (record s kind st unit index args).mgmt = { s.mgmt with faults := f, dropped := d } ∧
      (record s kind st unit index args).skeins = s.skeins ∧ (record s kind st unit index args).pwr = s.pwr := by
  obtain ⟨f, d, v, e⟩ := record_form s kind st unit index args
  rw [e]
  exact ⟨f, d, rfl, rfl, rfl⟩

/-- What a record leaves of the firmware's registers. -/
theorem record_firmware (s : State) (kind : Nat) (st : Option Status) (unit index : Nat) (args : List Nat) :
    let t := record s kind st unit index args
    t.mgmt.fwRes = s.mgmt.fwRes ∧ t.mgmt.fwStage = s.mgmt.fwStage ∧ t.mgmt.marked = s.mgmt.marked ∧
      t.mgmt.flash = s.mgmt.flash ∧ t.mgmt.minSvn = s.mgmt.minSvn := by
  obtain ⟨f, d, hm, -⟩ := record_leaves s kind st unit index args
  intro t
  rw [hm]
  exact ⟨rfl, rfl, rfl, rfl, rfl⟩

/-- The image that lies in the staging area. -/
def stagedImage (m : Mgmt) : List Byte := cellsRead m.win 0x9000000 (min m.fwLen 0x1000000)

/-- The table that lies in the staging area. -/
def stagedTable (m : Mgmt) : List Byte := cellsRead m.win 0x80A0000 65536

theorem doFwStage_stages {s : State} (hn : s.mgmt.fwStage = none) (h : imageStatus s.mgmt (stagedImage s.mgmt) = .ok) :
    doFwStage s = s.setMgmt { s.mgmt with
      fwStage := some (stagedImage s.mgmt), marked := false, flash := upd s.mgmt.flash (otherSlot s.mgmt) .torn } :=
  (if_neg (by simp [hn])).trans (if_pos h)

theorem doFwStage_refuses {s : State} {st : Status} (hn : s.mgmt.fwStage = none)
    (hst : imageStatus s.mgmt (stagedImage s.mgmt) = st) (h : st ≠ .ok) :
    doFwStage s = record (s.setMgmt { s.mgmt with fwRes := st }) 0x0D (some st) 12 0 [9, st.code] := by
  subst hst
  exact (if_neg (by simp [hn])).trans (if_neg h)

/-- The image stored where the write has been read back the same. -/
def storedImage (same : Bool) (img : List Byte) (s : State) : State :=
  if same then s.setMgmt { s.mgmt with flash := upd s.mgmt.flash (otherSlot s.mgmt) (slotWith img) } else s

theorem doFwStageDone_ends {s : State} {img : List Byte} (h : s.mgmt.fwStage = some img) (same : Bool) :
    doFwStageDone same s = endStage (storedImage same img s) (if same then .ok else .faulted) := by
  unfold doFwStageDone
  rw [h]
  rfl

theorem endStage_ends (s : State) (st : Status) : (endStage s st).mgmt.fwStage = none ∧
    (endStage s st).mgmt.marked = (st == .ok) ∧ (endStage s st).mgmt.fwRes = st ∧
    (endStage s st).mgmt.flash = s.mgmt.flash := by
  unfold endStage
  obtain ⟨hr, hs, hm, hf, -⟩ := record_firmware
    (s.setMgmt { s.mgmt with fwStage := none, fwRes := st, marked := st == .ok }) 0x0D (some st) 12 0 [9, st.code]
  exact ⟨hs, hm, hr, hf⟩

theorem doTrimWrite_writes {s : State} (hb : s.mgmt.trimBusy = false) (h : trimStatus s (stagedTable s.mgmt) = .ok) :
    doTrimWrite s = s.setMgmt { s.mgmt with
      trimBusy := true, trims := upd s.mgmt.trims (otherTrim s.mgmt) .torn
      trimNew := some (stagedTable s.mgmt,
        cellsRead s.mgmt.win 0x80B0000 128 == trailerOf (stagedTable s.mgmt)) } :=
  (if_neg (by simp [hb])).trans (if_pos h)

theorem doTrimWrite_refuses {s : State} {st : Status} (hb : s.mgmt.trimBusy = false)
    (hst : trimStatus s (stagedTable s.mgmt) = st) (h : st ≠ .ok) :
    doTrimWrite s = s.setMgmt { s.mgmt with trimRes := st } := by
  subst hst
  exact (if_neg (by simp [hb])).trans (if_neg h)

/-- The copy of the trim table that is in use is not the other one. -/
theorem otherTrim_ne (m : Mgmt) : (if m.trimB = true then (1 : Fin 2) else 0) ≠ otherTrim m := by
  unfold otherTrim
  split <;> decide

/-- The state in which a trim table has been written. -/
def trimmedState (s : State) (t : List Byte) (factory : Bool) : State :=
  let m := s.mgmt
  let s := s.setMgmt { m with
    trims := upd m.trims (otherTrim m) (.table t factory), trimB := !m.trimB
    trimNew := none, trimBusy := false, trimRes := .ok, calValid := true, calFactory := factory }
  s.setPwr { s.pwr with rails := s.pwr.rails.map fun r => { r with gain := 0 } }

theorem doTrimWriteDone_ends {s : State} {t : List Byte} {factory : Bool} (h : s.mgmt.trimNew = some (t, factory)) :
    doTrimWriteDone s = record (trimmedState s t factory) 0x0D none 13 0 [4] := by
  unfold doTrimWriteDone
  rw [h]
  rfl

/-- The table that is written is then in use, and the one that was is the other. -/
theorem trimmed_copies (m : Mgmt) (x : TrimCopy) :
    (upd m.trims (otherTrim m) x).get (if (!m.trimB) = true then 1 else 0) = x ∧
    (upd m.trims (otherTrim m) x).get (if (!m.trimB) = true then 0 else 1) = trimCopy m := by
  unfold otherTrim trimCopy
  cases m.trimB
  · exact ⟨get_upd_same .., get_upd_ne _ _ (by decide)⟩
  · exact ⟨get_upd_same .., get_upd_ne _ _ (by decide)⟩

theorem doTrimWriteDone_mgmt {s : State} {t : List Byte} {factory : Bool} (h : s.mgmt.trimNew = some (t, factory)) :
    trimCopy (doTrimWriteDone s).mgmt = .table t factory ∧
    (doTrimWriteDone s).mgmt.trims.get (otherTrim (doTrimWriteDone s).mgmt) = trimCopy s.mgmt ∧
    (∀ r, ((doTrimWriteDone s).pwr.rails.get r).gain = 0) ∧ (doTrimWriteDone s).mgmt.trimBusy = false ∧
    (doTrimWriteDone s).mgmt.calValid = true ∧ (doTrimWriteDone s).mgmt.calFactory = factory ∧
    (doTrimWriteDone s).mgmt.trimRes = .ok := by
  obtain ⟨f, d, hm, -, hp⟩ := record_leaves (trimmedState s t factory) 0x0D none 13 0 [4]
  rw [doTrimWriteDone_ends h, hm, hp]
  obtain ⟨h1, h2⟩ := trimmed_copies s.mgmt (.table t factory)
  exact ⟨h1, h2, fun r => congrArg Rail.gain (Vector.get_map ..), rfl, rfl, rfl, rfl⟩

theorem firmware_holds (s : State) :
    let m := s.mgmt
    let img := cellsRead m.win 0x9000000 (min m.fwLen 0x1000000)
    (m.fwStage = none →
      (imageStatus m img = .ok → exec .fwStage s = .next { s with mgmt := { m with
        fwStage := some img, marked := false, flash := upd m.flash (if m.slot = true then 0 else 1) .torn } }) ∧
      (imageStatus m img ≠ .ok → ∃ t, exec .fwStage s = .next t ∧ t.mgmt.fwRes = imageStatus m img ∧
        t.mgmt.fwStage = none ∧ t.mgmt.marked = m.marked)) ∧
    (∀ same img, m.fwStage = some img → ∃ t, exec (.fwStageDone same) s = .next t ∧ t.mgmt.fwStage = none ∧
      t.mgmt.marked = same ∧ t.mgmt.fwRes = (if same = true then .ok else .faulted) ∧
      t.mgmt.flash = if same = true then upd m.flash (if m.slot = true then 0 else 1)
        (.image img (firmwareKey (Config.imageSvn img))) else m.flash) ∧
    (m.phase = .full → ∃ t, exec .fwConfirm s = .next t ∧ t.mgmt.fwRes = .ok ∧
      t.mgmt.minSvn = if m.minSvn < m.svn then min 255 m.svn else m.minSvn) ∧
    exec .fwCancel s = .next { s with mgmt := { m with marked := false, fwRes := .ok } } := by
  intro m img
  refine ⟨fun hn => ⟨fun h => congrArg Host.Outcome.next (doFwStage_stages hn h), fun h => ?_⟩, fun same img h => ?_,
    fun h => ?_, rfl⟩
  · obtain ⟨hr, hs, hm, -⟩ := record_firmware (s.setMgmt { m with fwRes := imageStatus m img }) 0x0D
      (some (imageStatus m img)) 12 0 [9, (imageStatus m img).code]
    exact ⟨_, congrArg Host.Outcome.next (doFwStage_refuses hn rfl h), hr, hs.trans hn, hm⟩
  · obtain ⟨h1, h2, h3, h4⟩ := endStage_ends (storedImage same img s) (if same then .ok else .faulted)
    refine ⟨_, congrArg Host.Outcome.next (doFwStageDone_ends h same), h1, h2.trans ?_, h3, h4.trans ?_⟩
    · cases same <;> rfl
    · cases same <;> rfl
  · by_cases hv : m.svn ≤ m.minSvn
    · refine ⟨_, congrArg Host.Outcome.next ((if_neg (not_not_intro h)).trans (if_pos hv)), rfl, ?_⟩
      rw [if_neg (Nat.not_lt.mpr hv)]
      rfl
    · obtain ⟨hr, -, -, -, hm⟩ := record_firmware (s.setMgmt { m with fwRes := .ok, minSvn := min 255 m.svn }) 0x0D
        (some .ok) 12 0 [10]
      refine ⟨_, congrArg Host.Outcome.next ((if_neg (not_not_intro h)).trans (if_neg hv)), hr, ?_⟩
      rw [if_pos (Nat.lt_of_not_le hv)]
      exact hm

theorem trim_holds (s : State) :
    let m := s.mgmt
    let table := cellsRead m.win 0x80A0000 65536
    (m.trimBusy = false →
      (trimStatus s table = .ok → ∃ t, exec .trimWrite s = .next t ∧ t.mgmt.trimBusy = true ∧
        trimCopy t.mgmt = trimCopy m ∧ t.mgmt.trims.get (otherTrim m) = .torn ∧
        t.mgmt.trimNew = some (table, cellsRead m.win 0x80B0000 128 == trailerOf table)) ∧
      (trimStatus s table ≠ .ok →
        exec .trimWrite s = .next { s with mgmt := { m with trimRes := trimStatus s table } })) ∧
    (∀ tb fac, m.trimNew = some (tb, fac) → ∃ t, exec .trimWriteDone s = .next t ∧ trimCopy t.mgmt = .table tb fac ∧
      t.mgmt.trims.get (otherTrim t.mgmt) = trimCopy m ∧ (∀ r, (t.pwr.rails.get r).gain = 0) ∧ t.mgmt.trimBusy = false ∧
      t.mgmt.calValid = true ∧ t.mgmt.calFactory = fac ∧ t.mgmt.trimRes = .ok) := by
  intro m table
  refine ⟨fun hb => ⟨fun h => ?_, fun h => congrArg Host.Outcome.next (doTrimWrite_refuses hb rfl h)⟩, fun tb fac h => ?_⟩
  · exact ⟨_, congrArg Host.Outcome.next (doTrimWrite_writes hb h), rfl, get_upd_ne _ _ (otherTrim_ne m), get_upd_same ..,
      rfl⟩
  · exact ⟨_, rfl, doTrimWriteDone_mgmt h⟩

/-! ## Units and fault records (18 R508, R512 to R514) -/

theorem feed_flags (k : Skein) (f : Fin 4) :
    ((feed k).fly.get f).failed = (k.fly.get f).failed ∧ ((feed k).fly.get f).retired = (k.fly.get f).retired := by
  unfold feed
  split
  next m i _ _ =>
    by_cases e : f = i
    · subst e
      simp
    · simp [get_upd_ne k.fly _ e]
  · exact ⟨rfl, rfl⟩

theorem feedAll_flags (k : Skein) (f : Fin 4) :
    ((feedAll k).fly.get f).failed = (k.fly.get f).failed ∧ ((feedAll k).fly.get f).retired = (k.fly.get f).retired := by
  unfold feedAll
  exact ⟨by simp only [(feed_flags _ f).1], by simp only [(feed_flags _ f).2]⟩

theorem unitNamed_flyer (k : Fin 8) (f : Fin 4) : unitNamed 2 (4 * k.val + f.val) = .flyer k f := by
  have hk : (⟨(4 * k.val + f.val) / 4, by omega⟩ : Fin 8) = k := Fin.ext (by show _ / 4 = _; omega)
  have hf : (⟨(4 * k.val + f.val) % 4, by omega⟩ : Fin 4) = f := Fin.ext (by show _ % 4 = _; omega)
  unfold unitNamed
  rw [dif_neg (by omega), dif_pos ⟨rfl, by omega⟩, hk, hf]

/-- An order that is not taken while another runs. -/
theorem doRetire_busy {s : State} (h : s.mgmt.unit.busy = true) (u : UnitRef) :
    doRetire u s = setUnit s (UnitRef.code u).1 (UnitRef.code u).2 := if_pos h

theorem doRestore_busy {s : State} (h : s.mgmt.unit.busy = true) (u : UnitRef) :
    doRestore u s = setUnit s (UnitRef.code u).1 (UnitRef.code u).2 := if_pos h

theorem doRetire_flyer {s : State} {k : Fin 8} {f : Fin 4} (hb : s.mgmt.unit.busy = false)
    (hf : ((s.sk k).fly.get f).failed = false) (hr : ((s.sk k).fly.get f).retired = false) :
    doRetire (.flyer k f) s = setOrder (record (setFlyer s k f { (s.sk k).fly.get f with retired := true }) 0x01 none 2
      (4 * k.val + f.val) [(s.sk k).mapGen.toNat, 3]) (.flyer k f) false .ok := by
  have hu : retireUnit s (.flyer k f) = record (setFlyer s k f { (s.sk k).fly.get f with retired := true }) 0x01 none 2
      (4 * k.val + f.val) [(s.sk k).mapGen.toNat, 3] := if_neg (by simp [hf, hr])
  exact (if_neg (by simp [hb])).trans (congrArg (setOrder · (.flyer k f) false .ok) hu)

/-- A skein whose spindle, not joined yet, stays out. -/
def Skein.unjoined (x : Skein) (l : Fin 17) : Skein := { x with changes := x.changes.filter fun c => c != .join l }

theorem doRetire_unjoined {s : State} {p : Fin 136} (hb : s.mgmt.unit.busy = false)
    (h : (s.sk (skeinOf p)).changes.contains (.join (localOf p)) = true) :
    doRetire (.spindle p) s = setOrder (record (s.setSk (skeinOf p) ((s.sk (skeinOf p)).unjoined (localOf p))) 0x01 none 1
      p.val [(s.sk (skeinOf p)).mapGen.toNat, 3]) (.spindle p) false .ok := by
  have hu : retireUnit s (.spindle p) = record (s.setSk (skeinOf p) ((s.sk (skeinOf p)).unjoined (localOf p))) 0x01 none 1
      p.val [(s.sk (skeinOf p)).mapGen.toNat, 3] := if_pos h
  exact (if_neg (by simp [hb])).trans (congrArg (setOrder · (.spindle p) false .ok) hu)

theorem Skein.unjoined_contains (x : Skein) (l : Fin 17) : (x.unjoined l).changes.contains (.join l) = false := by
  simp [Skein.unjoined]

theorem setFlyer_fly (s : State) (k : Fin 8) (f : Fin 4) (y : Flyer) : ((setFlyer s k f y).sk k).fly.get f = y := by
  unfold setFlyer
  rw [State.setSk_sk_same]
  exact get_upd_same ..

theorem doRestore_channel {s : State} {c : Fin 256} (hb : s.mgmt.unit.busy = false) (hl : listed s (.channel c) = true) :
    doRestore (.channel c) s = (setOrder s (.channel c) true s.mgmt.unit.result).setMem
      (s.mem.setChan c { s.mem.chan.get c with st := .restoring }) :=
  (if_neg (by simp [hb])).trans (if_neg (by simp [hl]))

theorem doRestore_refused {s : State} {u : UnitRef} (hb : s.mgmt.unit.busy = false) (hl : listed s u = false) :
    doRestore u s = setOrder s u false .refused := (if_neg (by simp [hb])).trans (if_pos (by simp [hl]))

/-- The self-test of a flyer that it passes. -/
theorem doRestoreSelftestDone_flyer {s : State} {k : Fin 8} {f : Fin 4} (hb : s.mgmt.unit.busy = true)
    (hu : s.mgmt.unit.runUnit = 2) (hi : s.mgmt.unit.runIndex = 4 * k.val + f.val) :
    doRestoreSelftestDone true s = joinUnit (endOrder s .ok) (.flyer k f) := by
  rw [← unitNamed_flyer, ← hu, ← hi]
  exact (if_neg (by simp [hb])).trans (if_pos rfl)

theorem joinUnit_flyer (s : State) (k : Fin 8) (f : Fin 4) : (joinUnit s (.flyer k f)).mgmt = s.mgmt ∧
    (((joinUnit s (.flyer k f)).sk k).fly.get f).failed = false ∧
    (((joinUnit s (.flyer k f)).sk k).fly.get f).retired = false := by
  refine ⟨rfl, ?_⟩
  unfold joinUnit
  dsimp only
  rw [State.setSk_sk_same, (feedAll_flags _ f).1, (feedAll_flags _ f).2, setFlyer_fly]
  exact ⟨rfl, rfl⟩

/-- A unit that fails its self-test: a channel is mapped out again, the others stay as they are. -/
def failedTest (s : State) (u : UnitRef) : State := match u with
  | .channel c => s.setMem (s.mem.setChan c { s.mem.chan.get c with st := .mappedOut })
  | _ => s

theorem failedTest_form (s : State) (u : UnitRef) : ∃ m, failedTest s u = s.setMem m := by
  unfold failedTest
  split <;> exact ⟨_, rfl⟩

theorem doRestoreSelftestDone_fails {s : State} (hb : s.mgmt.unit.busy = true) : doRestoreSelftestDone false s =
    record (failedTest (endOrder s .faulted) (unitNamed s.mgmt.unit.runUnit s.mgmt.unit.runIndex)) 0x0D none
      s.mgmt.unit.runUnit s.mgmt.unit.runIndex [8] :=
  (if_neg (by simp [hb])).trans (if_neg (by decide))

theorem doFaultAck_acks {slot : Fin 256} {s : State} {r : FaultRec}
    (h : s.mgmt.faults.find? (fun r => r.slot = slot.val) = some r) : doFaultAck slot s =
      if !r.isPage && r.words.getD 0 0 == s.mgmt.ackWord then closeRecord s slot.val else s := by
  unfold doFaultAck
  rw [h]

theorem retire_holds (k : Fin 8) (f : Fin 4) (s : State) (hb : s.mgmt.unit.busy = false) :
    let y := (s.sk k).fly.get f
    (y.failed = false → y.retired = false → ∃ t, exec (.retire (.flyer k f)) s = .next t ∧
      (t.sk k).fly.get f = { y with retired := true } ∧ t.mgmt.unit.result = .ok) ∧
    (∀ p : Fin 136, (s.sk (skeinOf p)).changes.contains (.join (localOf p)) = true → ∃ t,
      exec (.retire (.spindle p)) s = .next t ∧ t.mgmt.unit.result = .ok ∧
      (t.sk (skeinOf p)).changes.contains (.join (localOf p)) = false ∧
      (t.sk (skeinOf p)).healthy = (s.sk (skeinOf p)).healthy) ∧
    (∀ u i, exec (.retire (.other u i)) s = .next { s with mgmt := { s.mgmt with unit := ⟨u, i, false, .refused, u, i⟩ } }) := by
  intro y
  refine ⟨fun hf hr => ⟨_, congrArg Host.Outcome.next (doRetire_flyer hb hf hr), ?_, rfl⟩, fun p h =>
    ⟨_, congrArg Host.Outcome.next (doRetire_unjoined hb h), rfl, ?_⟩, fun u i => congrArg Host.Outcome.next
    (if_neg (by simp [hb]))⟩
  · obtain ⟨fs, d, v, e⟩ := record_form (setFlyer s k f { y with retired := true }) 0x01 none 2 (4 * k.val + f.val)
      [(s.sk k).mapGen.toNat, 3]
    rw [e]
    exact setFlyer_fly s k f _
  · obtain ⟨fs, d, v, e⟩ := record_form (s.setSk (skeinOf p) ((s.sk (skeinOf p)).unjoined (localOf p))) 0x01 none 1 p.val
      [(s.sk (skeinOf p)).mapGen.toNat, 3]
    have hsk := State.setSk_sk_same s (skeinOf p) ((s.sk (skeinOf p)).unjoined (localOf p))
    rw [e]
    change (((s.setSk _ _).sk _).changes.contains _ = false) ∧ ((s.setSk _ _).sk _).healthy = _
    rw [hsk]
    exact ⟨Skein.unjoined_contains .., rfl⟩

theorem units_hold (k : Fin 8) (f : Fin 4) (c : Fin 256) (slot : Fin 256) (s : State) :
    (s.mgmt.unit.busy = false →
      (listed s (.channel c) = true → ∃ t, exec (.restore (.channel c)) s = .next t ∧ t.mgmt.unit.busy = true ∧
        (t.mem.chan.get c).st = .restoring) ∧
      (∀ u, listed s u = false → ∃ t, exec (.restore u) s = .next t ∧ t.mgmt.unit.busy = false ∧
        t.mgmt.unit.result = .refused ∧ t.mem = s.mem ∧ t.skeins = s.skeins)) ∧
    (s.mgmt.unit.busy = true → ∀ u, ∀ i ∈ [Instr.retire u, Instr.restore u], exec i s = .next { s with mgmt := { s.mgmt with
      unit := { s.mgmt.unit with unit := (UnitRef.code u).1, index := (UnitRef.code u).2 } } }) ∧
    (s.mgmt.unit.busy = true → s.mgmt.unit.runUnit = 2 → s.mgmt.unit.runIndex = 4 * k.val + f.val →
      ∃ t, exec (.restoreSelftestDone true) s = .next t ∧ t.mgmt.unit.busy = false ∧ t.mgmt.unit.result = .ok ∧
        ((t.sk k).fly.get f).failed = false ∧ ((t.sk k).fly.get f).retired = false) ∧
    (s.mgmt.unit.busy = true → ∃ t, exec (.restoreSelftestDone false) s = .next t ∧ t.mgmt.unit.busy = false ∧
      t.mgmt.unit.result = .faulted ∧ t.skeins = s.skeins) ∧
    (∀ r, s.mgmt.faults.find? (fun r => r.slot = slot.val) = some r →
      (r.isPage = false → r.words.getD 0 0 = s.mgmt.ackWord → exec (.faultAck slot) s =
        .next { s with mgmt := { s.mgmt with faults := s.mgmt.faults.filter fun r => r.slot != slot.val } }) ∧
      (r.isPage = true ∨ r.words.getD 0 0 ≠ s.mgmt.ackWord → exec (.faultAck slot) s = .next s)) := by
  refine ⟨fun hb => ⟨fun hl => ?_, fun u hl => ?_⟩, fun hb u i hi => ?_, fun hb hu hi => ?_, fun hb => ?_,
    fun r hr => ⟨fun hp hw => ?_, fun h => ?_⟩⟩
  · exact ⟨_, congrArg Host.Outcome.next (doRestore_channel hb hl), rfl, congrArg Chan.st (get_upd_same ..)⟩
  · exact ⟨_, congrArg Host.Outcome.next (doRestore_refused hb hl), rfl, rfl, rfl, rfl⟩
  · simp only [List.mem_cons, List.not_mem_nil, or_false] at hi
    rcases hi with rfl | rfl
    · exact congrArg Host.Outcome.next (doRetire_busy hb u)
    · exact congrArg Host.Outcome.next (doRestore_busy hb u)
  · obtain ⟨hm, hf⟩ := joinUnit_flyer (endOrder s .ok) k f
    exact ⟨_, congrArg Host.Outcome.next (doRestoreSelftestDone_flyer hb hu hi), congrArg (·.unit.busy) hm,
      congrArg (·.unit.result) hm, hf⟩
  · obtain ⟨m, e⟩ := failedTest_form (endOrder s .faulted) (unitNamed s.mgmt.unit.runUnit s.mgmt.unit.runIndex)
    have h := doRestoreSelftestDone_fails hb
    rw [e] at h
    obtain ⟨fs, d, hm, hsk, -⟩ := record_leaves ((endOrder s .faulted).setMem m) 0x0D none s.mgmt.unit.runUnit
      s.mgmt.unit.runIndex [8]
    exact ⟨_, congrArg Host.Outcome.next h, congrArg (·.unit.busy) hm, congrArg (·.unit.result) hm, hsk⟩
  · exact congrArg Host.Outcome.next ((doFaultAck_acks hr).trans (if_pos (by simp only [hp, hw]; simp)))
  · refine congrArg Host.Outcome.next ((doFaultAck_acks hr).trans (if_neg fun hc => ?_))
    obtain ⟨hp, hw⟩ := Bool.and_eq_true_iff.mp hc
    rcases h with h | h
    · simp [h] at hp
    · exact h (beq_iff_eq.mp hw)

/-- Settles O55: each order takes the branch that its checks select; the copy of the trim table that is written is the one
not in use (`trimmed_copies`). -/
theorem firmwareAndUnits : Obligations.FirmwareAndUnits := by
  refine ⟨fun s => ?_, fun k f c slot s => ?_⟩
  · obtain ⟨h1, h2, h3, h4⟩ := firmware_holds s
    obtain ⟨h5, h6⟩ := trim_holds s
    exact ⟨h1, h2, h3, h4, h5, h6⟩
  · obtain ⟨h1, h2⟩ := units_hold k f c slot s
    refine ⟨fun hb => ?_, h2⟩
    obtain ⟨hf, hs, ho⟩ := retire_holds k f s hb
    obtain ⟨hc, hl⟩ := h1 hb
    exact ⟨hf, hs, ho, hc, hl⟩

end Sys2Proof.Machine
end

section
/-!
PROOFS. Temperatures, the thermal trip and the airflow fault (17; O48).
-/

namespace Sys2Proof.Machine

/-! ## Bits set by a fold -/

theorem shiftLeft_getLsbD (j k : Fin 8) : (1#8 <<< k.val).getLsbD j.val = decide (j = k) := by
  revert j k
  decide

theorem foldl_bits (hot : Fin 8 → Bool) (l : List (Fin 8)) (b : BitVec 8) (j : Fin 8) :
    (l.foldl (fun b k => if hot k then b ||| (1#8 <<< k.val) else b) b).getLsbD j.val =
      (b.getLsbD j.val || (decide (j ∈ l) && hot j)) := by
  induction l generalizing b with
  | nil => simp
  | cons k l ih =>
    rw [List.foldl_cons, ih]
    by_cases hk : hot k = true
    · rw [if_pos hk, BitVec.getLsbD_or, shiftLeft_getLsbD, Bool.or_assoc]
      by_cases hjk : j = k <;> simp only [List.mem_cons, hjk, hk] <;> simp
    · rw [if_neg hk]
      by_cases hjk : j = k <;> simp only [List.mem_cons, hjk, Bool.not_eq_true _ |>.mp hk] <;> simp

/-- Bits set one by one from none. -/
theorem setBits_getLsbD (hot : Fin 8 → Bool) (j : Fin 8) :
    ((List.finRange 8).foldl (fun b k => if hot k then b ||| (1#8 <<< k.val) else b) (0#8)).getLsbD j.val = hot j := by
  rw [foldl_bits, BitVec.getLsbD_zero, decide_eq_true (List.mem_finRange j), Bool.false_or, Bool.true_and]

/-! ## What a stop and a warm reset leave (17 R475; 18 R481) -/

theorem writeBackAll_keeps {α : Type} {f : State → α} (hsk : ∀ s k x, f (State.setSk s k x) = f s)
    (hmem : ∀ s m, f (State.setMem s m) = f s) (s : State) : f (writeBackAll s) = f s := by
  have hw (s : State) (k : Fin 8) (b : Binding) (h : Hint) : f (writeBack s k b h) = f s := by
    unfold writeBack
    exact (hsk ..).trans ((foldl_keeps f _ (fun t x => (hmem ..)) _ _).trans (hmem ..))
  have hd (s : State) (k : Fin 8) : f (dropBindingsOf s k) = f s := by
    unfold dropBindingsOf
    exact (hsk ..).trans (foldl_keeps f _ (fun t b => hw t k b b.hint) _ _)
  unfold writeBackAll
  refine (hmem ..).trans ?_
  rw [dropBindings_eq]
  exact foldl_keeps f _ hd _ _

theorem portsUp_keeps {α : Type} {f : State → α} (hport : ∀ s p x, f (State.setPort s p x) = f s)
    (hwin : ∀ s w, f (State.setMgmt s { s.mgmt with win := w }) = f s) (s : State) : f (portsUp s) = f s := by
  refine foldl_keeps f _ (fun t p => ?_) _ s
  split
  · unfold retrain
    obtain ⟨w, e⟩ := dropPort_form t p (if portExists t p then (t.port p).restart else .off)
    rw [e]
    exact (hwin (t.setPort p _) w).trans (hport ..)
  · rfl

/-- The controls that decide whether the device runs. -/
def runView (s : State) := (s.mgmt.phase, s.mgmt.stop, s.mgmt.run, s.pwr)

/-- A device that stops, before it enters its phase. -/
def stillState (s : State) : State :=
  let s := writeBackAll s
  if s.pwr.pstate = .p4 then portsUp s else s

theorem haltNow_eq (s : State) : haltNow s = enterPhase (stillState s) (stillState s).mgmt.phase := by
  unfold haltNow stillState
  dsimp only

theorem stillState_runView (s : State) : runView (stillState s) = runView s := by
  have h : runView (writeBackAll s) = runView s := writeBackAll_keeps (fun _ _ _ => rfl) (fun _ _ => rfl) s
  unfold stillState
  dsimp only
  split
  · exact (portsUp_keeps (f := runView) (fun _ _ _ => rfl) (fun _ _ => rfl) _).trans h
  · exact h

theorem pwr_of_runView {s t : State} (h : runView t = runView s) : t.pwr = s.pwr := congrArg (·.2.2.2) h

theorem phase_of_runView {s t : State} (h : runView t = runView s) : t.mgmt.phase = s.mgmt.phase := congrArg (·.1) h

theorem halted_of_runView {s t : State} (h : runView t = runView s) : halted t = halted s := by
  have h1 : t.mgmt.stop = s.mgmt.stop := congrArg (·.2.1) h
  have h2 : t.mgmt.run = s.mgmt.run := congrArg (·.2.2.1) h
  simp only [halted, h1, h2, pwr_of_runView h]

theorem enterPhase_stops {s : State} (h : halted s = true) (ph : Boot) : (enterPhase s ph).mgmt.phase = .stopped ∧
    (enterPhase s ph).mgmt.resume = ph ∧
    (enterPhase s ph).pwr = { s.pwr with pstate := .p3, exiting := false, wake := none } := by
  rw [enterPhase, if_pos h]
  exact ⟨rfl, rfl, rfl⟩

/-- A device in service that may not run is STOPPED, in P3. -/
theorem settleRun_stops {s : State} (hp : s.mgmt.phase = .full ∨ s.mgmt.phase = .warmup) (h : halted s = true) :
    (settleRun s).mgmt.phase = .stopped ∧ (settleRun s).mgmt.resume = s.mgmt.phase ∧
      (settleRun s).pwr = { s.pwr with pstate := .p3, exiting := false, wake := none } := by
  have hv := stillState_runView s
  have e : settleRun s = haltNow s := by
    unfold settleRun
    rcases hp with hp | hp
    · rw [hp]
      exact if_pos h
    · rw [hp]
      exact if_pos h
  have hh : halted (stillState s) = true := (halted_of_runView hv).trans h
  obtain ⟨h1, h2, h3⟩ := enterPhase_stops hh (stillState s).mgmt.phase
  rw [pwr_of_runView hv] at h3
  rw [e, haltNow_eq]
  exact ⟨h1, h2.trans (phase_of_runView hv), h3⟩

theorem settleRun_out (s : State) : (settleRun s).out = s.out := (HaltKept.refl (s := s)).settleRun.keeps_out

theorem settleRun_sec (s : State) : (settleRun s).sec = s.sec := (HaltKept.refl (s := s)).settleRun.keeps_sec

/-- A device that may not run keeps its thermal and airflow state as it stops. -/
theorem settleRun_held {s : State} (h : halted s = true) : (settleRun s).pwr.stopped = s.pwr.stopped ∧
    (settleRun s).pwr.tripped = s.pwr.tripped ∧ (settleRun s).pwr.tripHold = s.pwr.tripHold ∧
    (settleRun s).pwr.airLow = s.pwr.airLow := by
  by_cases hp : s.mgmt.phase = .full ∨ s.mgmt.phase = .warmup
  · rw [(settleRun_stops hp h).2.2]
    exact ⟨rfl, rfl, rfl, rfl⟩
  · have e : settleRun s = s := by
      unfold settleRun
      split
      · exact absurd (.inr ‹_›) hp
      · exact absurd (.inl ‹_›) hp
      · exact if_pos h
      · rfl
    rw [e]
    exact ⟨rfl, rfl, rfl, rfl⟩

/-- The device stopped, with what a TALLY shows noted, before it settles. -/
def airStopped (s : State) : State :=
  let s := noteStop s
  { s with pwr := { s.pwr with stopped := true } }

theorem noteStop_form (s : State) : ∃ a, noteStop s = s.setMgmt { s.mgmt with atStop := a } := by
  unfold noteStop
  split
  · exact ⟨s.mgmt.atStop, rfl⟩
  · exact ⟨_, rfl⟩

theorem airStopped_form (s : State) : ∃ a, airStopped s =
    { s with mgmt := { s.mgmt with atStop := a }, pwr := { s.pwr with stopped := true } } := by
  obtain ⟨a, e⟩ := noteStop_form s
  exact ⟨a, by rw [airStopped, e]; rfl⟩

theorem airStopped_halted (s : State) : halted (airStopped s) = true := by simp [halted, airStopped]

/-- A stop of the device for want of airflow or for its temperature. -/
theorem stopAir_stops (s : State) : (stopAir s).out = s.out ∧ (stopAir s).sec = s.sec ∧ (stopAir s).pwr.stopped = true ∧
    (stopAir s).pwr.tripped = s.pwr.tripped ∧ (stopAir s).pwr.tripHold = s.pwr.tripHold ∧
    (stopAir s).pwr.airLow = s.pwr.airLow := by
  obtain ⟨a, e⟩ := airStopped_form s
  obtain ⟨h1, h2, h3, h4⟩ := settleRun_held (airStopped_halted s)
  have hs : stopAir s = settleRun (airStopped s) := rfl
  rw [hs, settleRun_out, settleRun_sec, h1, h2, h3, h4, e]
  exact ⟨rfl, rfl, rfl, rfl, rfl, rfl⟩

theorem stopAir_served {s : State} (hp : s.mgmt.phase = .full ∨ s.mgmt.phase = .warmup) :
    (stopAir s).mgmt.phase = .stopped ∧ (stopAir s).pwr.pstate = .p3 := by
  obtain ⟨a, e⟩ := airStopped_form s
  have hph : (airStopped s).mgmt.phase = s.mgmt.phase := by rw [e]
  obtain ⟨h1, -, h3⟩ := settleRun_stops (s := airStopped s) (by rwa [hph]) (airStopped_halted s)
  exact ⟨h1, congrArg Pwr.pstate h3⟩


/-- A device in a warm reset, before the reset's own registers are set. -/
def coolState (s : State) : State :=
  let s := writeBackAll (earnedAccepts s)
  let s := if s.mgmt.clockLost || s.pwr.dieOff then s else announceReset s
  let s := dropHeld (clearFwArea (discardStaged s))
  let s := if s.pwr.pstate = .p4 then portsUp s else s
  let s := s.setPwr { s.pwr with pstate := .p0, exiting := false, wake := none }
  s.setMem { s.mem with far := s.mem.far.map Far.warm }

theorem coolState_standing (s : State) : Standing s (coolState s) := by
  unfold coolState
  dsimp only
  have h := Standing.refl (s := s).earnedAccepts.writeBackAll
  have h := (Standing.ite (c := (writeBackAll (earnedAccepts s)).mgmt.clockLost ||
    (writeBackAll (earnedAccepts s)).pwr.dieOff) (fun _ => h) fun _ => h.announceReset).discardStaged.clearFwArea.dropHeld
  exact (Standing.ite (fun _ => h.portsUp) fun _ => h).awake.setMem

/-- The registers of a warm reset that begins. -/
def Mgmt.warmed (m : Mgmt) (now : Nat) (far : Vector Far 2) : Mgmt :=
  { m with
    phase := .mgmt, warmBoot := true, resetAt := now, warms := m.warms + 1, clockLost := false
    cxlDone := m.cxlDone && far.toList.all (fun x => x.link != .training)
    warming := true, frozen := false, tally := [] }

theorem startWarm_eq {s : State} (hp : s.mgmt.phase ≠ .reset) (hr : s.mgmt.phase ≠ .recovery) : startWarm s =
    (coolState s).setMgmt ((coolState s).mgmt.warmed (coolState s).now (coolState s).mem.far) := by
  unfold startWarm
  split
  · exact absurd ‹_› hp
  · exact absurd ‹_› hr
  · unfold coolState Mgmt.warmed
    dsimp only

theorem warmed_shows {s t : State} (h : Standing s t) (now : Nat) (far : Vector Far 2) :
    let w := t.setMgmt (t.mgmt.warmed now far)
    w.mgmt.phase = .mgmt ∧ w.mgmt.warming = true ∧ w.mgmt.warms = s.mgmt.warms + 1 ∧ w.pwr.stopped = s.pwr.stopped ∧
      w.sec.keys = s.sec.keys ∧ w.sec.tenancyOn = s.sec.tenancyOn :=
  ⟨rfl, rfl, congrArg (· + 1) h.keeps_mgmt_warms, h.keeps_pwr_stopped, h.keeps_sec_keys, h.keeps_sec_tenancyOn⟩

/-- A warm reset that starts: it shows in `PHASE`, is counted, and leaves what `standing` lists. -/
theorem startWarm_starts {s : State} (hp : s.mgmt.phase ≠ .reset) (hr : s.mgmt.phase ≠ .recovery) :
    (startWarm s).mgmt.phase = .mgmt ∧ (startWarm s).mgmt.warming = true ∧ (startWarm s).mgmt.warms = s.mgmt.warms + 1 ∧
    (startWarm s).pwr.stopped = s.pwr.stopped ∧ (startWarm s).sec.keys = s.sec.keys ∧
    (startWarm s).sec.tenancyOn = s.sec.tenancyOn := by
  rw [startWarm_eq hp hr]
  exact warmed_shows (coolState_standing s) _ _

/-- A device that resumes, before its warm reset. -/
def airResumed (s : State) : State :=
  let s := if s.pwr.dieOff then portsUp s else s
  { s with pwr := { s.pwr with stopped := false, dieOff := false } }

theorem airResumed_keeps (s : State) : (airResumed s).mgmt.phase = s.mgmt.phase ∧
    (airResumed s).mgmt.warms = s.mgmt.warms ∧ (airResumed s).pwr.stopped = false := by
  have h : (fun s : State => (s.mgmt.phase, s.mgmt.warms)) (airResumed s) = (s.mgmt.phase, s.mgmt.warms) := by
    unfold airResumed
    dsimp only
    split
    · exact portsUp_keeps (f := fun s => (s.mgmt.phase, s.mgmt.warms)) (fun _ _ _ => rfl) (fun _ _ => rfl) s
    · rfl
  exact ⟨congrArg Prod.fst h, congrArg Prod.snd h, rfl⟩

/-- The device that resumes does so through a warm reset (17 R476). -/
theorem resumeAir_warms {s : State} (hp : s.mgmt.phase = .stopped) : (resumeAir s).pwr.stopped = false ∧
    (resumeAir s).mgmt.phase = .mgmt ∧ (resumeAir s).mgmt.warming = true ∧
    (resumeAir s).mgmt.warms = s.mgmt.warms + 1 := by
  obtain ⟨h1, h2, h3⟩ := airResumed_keeps s
  rw [hp] at h1
  obtain ⟨w1, w2, w3, w4, -⟩ := startWarm_starts (s := airResumed s) (by simp [h1]) (by simp [h1])
  have e : resumeAir s = startWarm (airResumed s) := rfl
  rw [e]
  exact ⟨w4.trans h3, w1, w2, w3.trans (congrArg (· + 1) h2)⟩

/-! ## The statement -/

/-- The state after the thresholds have acted, before an override ends. -/
def thermRead (s : State) (t : ThermIn) : State :=
  let o := if s.mgmt.calValid then 0 else 5
  let tj (k : Fin 8) : Nat := hottest s t.skeins (4 * k.val) 4 (4 * k.val)
  let io := hottest s t.io 0 2 32
  let tb (k : Fin 8) : Nat := hottest s t.bases k.val 1 (34 + k.val)
  let p := s.pwr
  let hot (k : Fin 8) : Bool := decide (95 < tb k + o) || (p.distHot.getLsbD k.val && decide (90 ≤ tb k + o))
  let distHot := (List.finRange 8).foldl (fun b k => if hot k then b ||| (1#8 <<< k.val) else b) (0#8)
  let burns (k : Fin 8) : Bool := decide (100 < tb k + o) || (p.baseHot.getLsbD k.val && decide (95 ≤ tb k + o))
  let baseHot := (List.finRange 8).foldl (fun b k => if burns k then b ||| (1#8 <<< k.val) else b) (0#8)
  let ioHot := decide (105 < io + o) || (p.ioHot && decide (97 ≤ io + o))
  let s := s.setPwr { p with tj := vecOf 8 tj, tjIo := io, tBase := vecOf 8 tb, distHot, baseHot, ioHot }
  let cool (k : Fin 8) : Skein := if 105 < tj k + o ∨ 105 < io + o then { s.sk k with thermDiv := 24 } else s.sk k
  { s with skeins := vecOf 8 cool }

theorem doThermalThreshold_reads {s : State} (t : ThermIn) (ho : s.sec.override = false) (hp : s.mgmt.phase ≠ .reset) :
    doThermalThreshold t s = thermRead s t :=
  (if_neg hp).trans (if_neg fun h => by simp [show s.sec.override = true from h.1] at ho)

theorem hottest_one (s : State) (l : List Nat) (i base : Nat) : hottest s l i 1 base = sensed s base (l.getD i 0) :=
  Nat.zero_max _

theorem hottest_two (s : State) (l : List Nat) (i base : Nat) : hottest s l i 2 base =
    max (sensed s base (l.getD i 0)) (sensed s (base + 1) (l.getD (i + 1) 0)) :=
  congrArg (max · _) (Nat.zero_max _)

/-- What the thresholds read and set. -/
theorem thermRead_sets (s : State) (t : ThermIn) :
    let o := if s.mgmt.calValid = true then 0 else 5
    let io := hottest s t.io 0 2 32
    let base (j : Fin 8) := hottest s t.bases j.val 1 (34 + j.val)
    let u := thermRead s t
    u.mem = s.mem ∧ u.queues = s.queues ∧ (∀ j : Fin 8, u.pwr.tj.get j = hottest s t.skeins (4 * j.val) 4 (4 * j.val)) ∧
    (∀ j : Fin 8, (u.sk j).thermDiv =
      if 105 < hottest s t.skeins (4 * j.val) 4 (4 * j.val) + o ∨ 105 < io + o then 24 else (s.sk j).thermDiv) ∧
    (∀ j : Fin 8, u.pwr.distHot.getLsbD j.val =
      (decide (95 < base j + o) || s.pwr.distHot.getLsbD j.val && decide (90 ≤ base j + o))) := by
  intro o io base u
  refine ⟨rfl, rfl, fun j => get_vecOf .., fun j => ?_, fun j => ?_⟩
  · have e : u.sk j = if 105 < hottest s t.skeins (4 * j.val) 4 (4 * j.val) + o ∨ 105 < io + o then
        { s.sk j with thermDiv := 24 } else s.sk j := get_vecOf ..
    rw [e]
    by_cases h : 105 < hottest s t.skeins (4 * j.val) 4 (4 * j.val) + o ∨ 105 < io + o
    · rw [if_pos h, if_pos h]
    · rw [if_neg h, if_neg h]
  · exact setBits_getLsbD (fun j => decide (95 < base j + o) || s.pwr.distHot.getLsbD j.val && decide (90 ≤ base j + o)) j

theorem thermalThreshold_holds (th : ThermIn) (s : State) (ho : s.sec.override = false) (hp : s.mgmt.phase ≠ .reset) :
    let o := if s.mgmt.calValid = true then 0 else 5
    let hot (j : Fin 8) : Nat :=
      ((List.range 4).map fun i => sensed s (4 * j.val + i) (th.skeins.getD (4 * j.val + i) 0)).foldl max 0
    let io : Nat := max (sensed s 32 (th.io.getD 0 0)) (sensed s 33 (th.io.getD 1 0))
    let base (j : Fin 8) : Nat := sensed s (34 + j.val) (th.bases.getD j.val 0)
    ∃ t, exec (.thermalThreshold th) s = .next t ∧ t.mem = s.mem ∧
      t.queues = s.queues ∧ (∀ j, t.pwr.tj.get j = hot j) ∧
      (∀ j : Fin 8, (t.sk j).thermDiv = if 105 < hot j + o ∨ 105 < io + o then 24 else (s.sk j).thermDiv) ∧
      (∀ j : Fin 8, t.pwr.distHot.getLsbD j.val = (decide (95 < base j + o) ||
        s.pwr.distHot.getLsbD j.val && decide (90 ≤ base j + o))) := by
  intro o hot io base
  have h := thermRead_sets s th
  simp only [hottest_one, hottest_two] at h
  exact ⟨_, congrArg Host.Outcome.next (doThermalThreshold_reads th ho hp), h⟩

/-- The state in which a trip has stopped the device, before its record. -/
def trippedState (s : State) : State :=
  (stopAir (s.setPwr { s.pwr with tripped := true, tripHold := true })).say (.pin 0 false)

theorem doThermtrip_trips {s : State} (hr : s.mgmt.resetN = true) (ht : s.pwr.tripped = false) : doThermtrip s =
    if (trippedState s).mgmt.phase = .reset then trippedState s else record (trippedState s) 0x0C none 0 0 [4] :=
  if_neg (by simp [hr, ht])

theorem thermtrip_holds {s : State} (hr : s.mgmt.resetN = true) (ht : s.pwr.tripped = false) :
    ∃ t, exec .thermtrip s = .next t ∧ t.pwr.tripped = true ∧ t.pwr.tripHold = true ∧ t.pwr.stopped = true ∧
      t.out = .pin 0 false :: s.out ∧ (s.mgmt.phase = .full ∨ s.mgmt.phase = .warmup → t.mgmt.phase = .stopped) := by
  obtain ⟨h1, -, h3, h4, h5, -⟩ := stopAir_stops (s.setPwr { s.pwr with tripped := true, tripHold := true })
  have hs (hp : s.mgmt.phase = .full ∨ s.mgmt.phase = .warmup) : (trippedState s).mgmt.phase = .stopped :=
    (stopAir_served (s := s.setPwr { s.pwr with tripped := true, tripHold := true }) hp).1
  have hout : (trippedState s).out = .pin 0 false :: s.out := congrArg (List.cons (Out.pin 0 false)) h1
  refine ⟨_, congrArg Host.Outcome.next (doThermtrip_trips hr ht), ?_⟩
  split
  · exact ⟨h4, h5, h3, hout, hs⟩
  · obtain ⟨f, d, v, e⟩ := record_form (trippedState s) 0x0C none 0 0 [4]
    rw [e]
    exact ⟨h4, h5, h3, hout, hs⟩

theorem stopWork_pwr (s : State) : (stopWork s).pwr = s.pwr := (PowerKept.refl (s := s)).stopWork.keeps_pwr

theorem millOff_pwr (s : State) : (millOff s).pwr = s.pwr := by
  unfold millOff
  dsimp only
  exact stopWork_pwr s

theorem settlePaths_pwr (s : State) : (settlePaths s).pwr = s.pwr := by
  obtain ⟨v, e⟩ := settlePaths_form s
  rw [e]

theorem dropPort_pwr (s : State) (p : Fin 32) (l : Link) : (dropPort s p l).pwr = s.pwr := by
  obtain ⟨w, e⟩ := dropPort_form s p l
  rw [e]
  rfl

theorem diesOff_pwr (s : State) : (diesOff s).pwr = s.pwr := by
  unfold diesOff
  rw [settlePaths_pwr]
  refine (foldl_keeps State.pwr _ (fun t p => ?_) _ _).trans (millOff_pwr s)
  split
  · rfl
  · exact dropPort_pwr ..

theorem airFaultPowerDown_holds {s : State} (hs : s.pwr.stopped = true) (hd : s.pwr.dieOff = false) :
    ∃ t, exec .airFaultPowerDown s = .next t ∧ t.pwr.dieOff = true := by
  refine ⟨_, congrArg Host.Outcome.next (if_neg (by simp [hs, hd])), ?_⟩
  have h := congrArg Pwr.dieOff (diesOff_pwr (s.setPwr { s.pwr with dieOff := true }))
  dsimp only
  split
  · exact h
  · exact (congrArg Pwr.dieOff (record_pwr ..)).trans h

/-- An override that ends with AIR_FAULT_N low stops the device. -/
theorem overrideExpiry_holds {s : State} (ho : s.sec.override = true)
    (hp : s.mgmt.phase = .full ∨ s.mgmt.phase = .warmup) : ∃ t, exec .overrideExpiry s = .next t ∧ t.sec.override = false ∧
      (s.pwr.airLow = true → t.mgmt.phase = .stopped) := by
  refine ⟨_, congrArg Host.Outcome.next (if_neg (by simp [ho])), ?_⟩
  dsimp only
  split
  · exact ⟨congrArg Sec.override (stopAir_stops _).2.1,
      fun _ => (stopAir_served (s := s.setSec { s.sec with override := false }) hp).1⟩
  · exact ⟨rfl, fun h => absurd h ‹_›⟩

/-- Settles O48: the thresholds by `thermRead_sets`, each stop by `stopAir_stops` and `stopAir_served`, the resume by
`resumeAir_warms`. -/
theorem heatAndAir : Obligations.HeatAndAir := by
  intro k th s o served hot io base
  refine ⟨thermalThreshold_holds th s, fun h => ?_, fun h hio => ?_, thermtrip_holds, fun h => ?_, fun hp ho => ?_,
    airFaultPowerDown_holds, fun ha ho => ?_, fun ha hs ht hp => ?_, fun ho hp => overrideExpiry_holds ho hp⟩
  · exact congrArg Host.Outcome.next (if_pos h)
  · exact congrArg Host.Outcome.next ((if_neg (by omega)).trans (if_pos ⟨h, by simp [hio]⟩))
  · exact congrArg Host.Outcome.next (if_pos (.inr (by simp [h])))
  · obtain ⟨-, -, h3, -, -, h6⟩ := stopAir_stops (s.setPwr { s.pwr with airLow := true })
    exact ⟨_, congrArg Host.Outcome.next (if_neg (by simp [ho])), h6, h3,
      stopAir_served (s := s.setPwr { s.pwr with airLow := true }) hp⟩
  · refine congrArg Host.Outcome.next ((if_neg (by simp [ha])).trans ((if_neg (by simp [ho])).trans ?_))
    rw [← ho]
    rfl
  · obtain ⟨h1, h2⟩ := resumeAir_warms hp
    refine ⟨_, congrArg Host.Outcome.next (if_neg (by simp [ha, hs, ht])), ?_⟩
    obtain ⟨f, d, v, e⟩ := record_form (resumeAir s) 0x0C none 0 0 [5]
    rw [e]
    exact ⟨h1, h2⟩

end Sys2Proof.Machine
end

section
/-!
PROOFS. Sessions and the controller lease (16, 18; O50).
-/

namespace Sys2Proof.Machine

/-! ## Sessions by their number (16 R448) -/

theorem sessionOf_id {s : State} {id : Nat} {x : Session} (h : sessionOf s id = some x) : x.id = id := by
  simpa using List.find?_some h

/-- A change of the sessions that keeps their numbers changes the one that a number names. -/
theorem find?_session_map {f : Session → Session} (hf : ∀ y, (f y).id = y.id) (l : List Session) (id : Nat) :
    (l.map f).find? (fun y => y.id = id) = (l.find? fun y => y.id = id).map f := by
  rw [List.find?_map]
  simp [hf]

/-- A session that has ended is not found. -/
theorem sessionOf_dropSession (s : State) (id : Nat) (st : Status) : sessionOf (dropSession s id st) id = none := by
  rw [sessionOf, dropSession_sessions, List.find?_eq_none]
  intro x hx
  simpa using (List.mem_filter.mp hx).2

/-- A strand that is no session's any more. -/
def freedStrand (s : State) (n : Fin 2048) : State := s.setStrand n { s.strand n with session := false, cfg := {} }

theorem freedStrand_frees (s : State) (n : Fin 2048) :
    ((freedStrand s n).strand n).st = (s.strand n).st ∧ ((freedStrand s n).strand n).session = false := by
  rw [freedStrand, State.setStrand_strand_same]
  exact ⟨rfl, rfl⟩

theorem dropSession_eq {s : State} {id : Nat} {x : Session} {n : Fin 2048} (h : sessionOf s id = some x)
    (hn : x.strand = some n) (st : Status) : dropSession s id st =
      freedStrand (closeStrand (s.setSec { s.sec with sessions := s.sec.sessions.filter fun y => y.id != id }) n st) n := by
  unfold dropSession
  rw [h]
  dsimp only
  rw [hn]
  rfl

/-- The strand of a session that ends is closed and no session's. -/
theorem dropSession_strand {s : State} {id : Nat} {x : Session} {n : Fin 2048} (h : sessionOf s id = some x)
    (hn : x.strand = some n) (st : Status) : ((dropSession s id st).strand n).st = .closed ∧
      ((dropSession s id st).strand n).session = false := by
  rw [dropSession_eq h hn]
  obtain ⟨h1, h2⟩ := freedStrand_frees
    (closeStrand (s.setSec { s.sec with sessions := s.sec.sessions.filter fun y => y.id != id }) n st) n
  exact ⟨h1.trans (closeStrand_strand_same ..).1, h2⟩

/-! ## What answers leave -/

theorem sendSpdm_form (s : State) (o : Out) : ∃ q v, sendSpdm s o = { s with sec := { s.sec with spdmQ := q }, out := v } := by
  unfold sendSpdm
  split
  · exact ⟨s.sec.spdmQ, o :: s.out, rfl⟩
  · exact ⟨_, s.out, rfl⟩

theorem sessionOf_sendSpdm (s : State) (o : Out) (id : Nat) : sessionOf (sendSpdm s o) id = sessionOf s id := by
  obtain ⟨q, v, e⟩ := sendSpdm_form s o
  rw [e]
  rfl

theorem sendSpdm_strand (s : State) (o : Out) (n : Fin 2048) : (sendSpdm s o).strand n = s.strand n := by
  obtain ⟨q, v, e⟩ := sendSpdm_form s o
  rw [e]
  rfl

theorem sendSpdm_now (s : State) (o : Out) : (sendSpdm s o).now = s.now := by
  obtain ⟨q, v, e⟩ := sendSpdm_form s o
  rw [e]

/-- An answer on strand 0 bears the time. -/
theorem spdmSay_eq {s : State} {now : Nat} (h : s.now = now) (code : Nat) (body : List Nat) : spdmSay s code body =
    sendSpdm s (.spdm code body (bareHdr 0x19 now (Config.spdmLen code body) 0)) := by
  subst h
  rfl

/-- An answer within a session bears the time. -/
theorem sessionSay_eq {s : State} {now : Nat} (h : s.now = now) (id code : Nat) (body : List Nat) :
    sessionSay s id code body = sendSpdm s (.session id code body (bareHdr 0x19 now (Config.spdmLen code body) 0)) := by
  subst h
  rfl

theorem sessionOf_spdmWakes (s : State) (id : Nat) : sessionOf (spdmWakes s) id = sessionOf s id := by
  obtain ⟨b, e⟩ := spdmWakes_form s
  rw [e]
  rfl

theorem spdmWakes_sec (s : State) : (spdmWakes s).sec = s.sec := by
  obtain ⟨b, e⟩ := spdmWakes_form s
  rw [e]
  rfl

theorem spdmWakes_out (s : State) : (spdmWakes s).out = s.out := by
  obtain ⟨b, e⟩ := spdmWakes_form s
  rw [e]
  rfl

theorem freeStrand_spdmWakes (s : State) : freeStrand (spdmWakes s) = freeStrand s := by
  obtain ⟨b, e⟩ := spdmWakes_form s
  rw [e]
  rfl

/-! ## The requests of a session that reaches the device -/

section
variable {s : State} {id : Nat}

/-- A session that begins. -/
def exchanged (s : State) (id : Nat) (cred : Cred) : State := s.setSec { s.sec with
  sessions := s.sec.sessions ++ [{ id, party := credParty cred, no := s.sec.nextSession }]
  nextSession := s.sec.nextSession + 1
  ended := s.sec.ended.filter (· != id) }

theorem doKeyExchange_begins (h : spdmReaches s = true) (hs : sessionOf s id = none) {cred : Cred}
    (hm : mayExchange s cred = true) : doKeyExchange id cred s = spdmSay (exchanged s id cred) 0x64 [id] := by
  unfold doKeyExchange
  rw [if_neg (by simp [h]), hs]
  exact if_neg (by simp [hm])

theorem doKeyExchange_refuses (h : spdmReaches s = true) (hs : sessionOf s id = none) {cred : Cred}
    (hm : mayExchange s cred = false) : doKeyExchange id cred s = spdmSay s 0x7F [] := by
  unfold doKeyExchange
  rw [if_neg (by simp [h]), hs]
  exact if_pos (by simp [hm])

theorem doKeyExchange_repeats (h : spdmReaches s = true) {x : Session} (hs : sessionOf s id = some x) {cred : Cred}
    (hr : x.ready = false) (hp : x.party = credParty cred) : doKeyExchange id cred s = spdmSay s 0x64 [id] := by
  unfold doKeyExchange
  rw [if_neg (by simp [h]), hs]
  exact if_pos (by simp [hr, hp])

theorem doEndSession_repeats (h : spdmReaches s = true) (hs : sessionOf s id = none) (he : id ∈ s.sec.ended) :
    doEndSession id s = sessionSay s id 0x6C [] := by
  unfold doEndSession
  rw [if_neg (by simp [h]), hs]
  exact (if_neg (by simp)).trans (if_pos (by simpa using he))

/-- A session that has ended, before the answer. -/
def endedSession (s : State) (id : Nat) : State :=
  let s := dropSession s id .interrupted
  s.setSec { s.sec with ended := id :: s.sec.ended.filter (· != id) }

theorem setEnded_sessions (s : State) (l : List Nat) (n : Fin 2048) :
    sessionOf (s.setSec { s.sec with ended := l }) id = sessionOf s id ∧
      (s.setSec { s.sec with ended := l }).strand n = s.strand n := ⟨rfl, rfl⟩

/-- A session that has ended is not found, and its strand is closed. -/
theorem endedSession_ends {x : Session} (hs : sessionOf s id = some x) : sessionOf (endedSession s id) id = none ∧
    ∀ n, x.strand = some n →
      ((endedSession s id).strand n).st = .closed ∧ ((endedSession s id).strand n).session = false := by
  unfold endedSession
  dsimp only
  refine ⟨((setEnded_sessions _ _ 0).1).trans (sessionOf_dropSession ..), fun n hn => ?_⟩
  rw [(setEnded_sessions (id := id) _ _ n).2]
  exact dropSession_strand hs hn _

theorem doEndSession_ends (h : spdmReaches s = true) {x : Session} (hs : sessionOf s id = some x) :
    doEndSession id s = sessionSay (endedSession s id) id 0x6C [] := by
  unfold doEndSession
  rw [if_neg (by simp [h]), hs]
  exact if_pos rfl

theorem inSession_answers (h : spdmReaches s = true) {x : Session} (hs : sessionOf s id = some x) (hr : x.ready = true)
    (code : Nat) : inSession s id code = sessionSay s id code [] := by
  unfold inSession
  rw [hs]
  exact if_pos (by simp [h, hr])

theorem doWakeKeyFetch_answers (h : spdmReaches s = true) {x : Session} (hs : sessionOf s id = some x)
    (hr : x.ready = true) : doWakeKeyFetch id s =
      sessionSay s id (if x.holds = true then 3 else 0x7F) (if x.holds = true then [wakeKey] else []) := by
  have hl : holdsLease s id = x.holds := by
    unfold holdsLease
    rw [hs]
  unfold doWakeKeyFetch
  rw [hs]
  refine (if_neg (by simp [h, hr])).trans ?_
  rw [hl]
  split <;> rfl

/-- The session that becomes ready, with its strand. -/
def Session.readied (id : Nat) (n : Option (Fin 2048)) (y : Session) : Session :=
  if y.id = id then { y with ready := true, strand := n } else y

/-- The state in which a session is ready and its strand opens. -/
def finished (s : State) (id : Nat) (n : Fin 2048) (o : Owner) : State :=
  openSession (s.setSec { s.sec with sessions := s.sec.sessions.map (Session.readied id (some n)) }) n o

theorem doFinish_opens (h : spdmReaches s = true) {x : Session} (hs : sessionOf s id = some x) (hr : x.ready = false)
    {o : Owner} (hp : x.party = some o) {n : Fin 2048} (hf : freeStrand s = some n) :
    doFinish id s = sessionSay (sessionSay (finished s id n o) id 0x65 []) id 2 [n.val] := by
  unfold doFinish
  rw [hs]
  refine (if_neg (by simp [h])).trans ((if_neg (by simp [hr])).trans ?_)
  rw [hp]
  dsimp only
  rw [hf]
  rfl

end

/-! ## The strand that a session receives (16 R448; 14 R377) -/

theorem putHello_form (s : State) (p : Fin 32) (m : HelloMsg) : ∃ c e o, putHello s p m =
    { s with twine := { s.twine with helloCnt := c }, eth := { s.eth with ports := e }, out := o } := by
  unfold putHello sayCtrl
  split
  · exact ⟨s.twine.helloCnt, s.eth.ports, s.out, rfl⟩
  · split
    · exact ⟨_, _, s.out, rfl⟩
    · exact ⟨_, s.eth.ports, _, rfl⟩

theorem helloOpen_form (s : State) (n : Fin 2048) : ∃ c e o, helloOpen s n =
    { s with twine := { s.twine with helloCnt := c }, eth := { s.eth with ports := e }, out := o } := by
  unfold helloOpen
  dsimp only
  split
  · exact ⟨s.twine.helloCnt, s.eth.ports, s.out, rfl⟩
  · exact putHello_form ..

theorem helloOpen_keeps {α : Type} {f : State → α} (hf : ∀ (s : State) c e o,
    f { s with twine := { s.twine with helloCnt := c }, eth := { s.eth with ports := e }, out := o } = f s) (s : State)
    (n : Fin 2048) : f (helloOpen s n) = f s := by
  obtain ⟨c, e, o, h⟩ := helloOpen_form s n
  rw [h]
  exact hf s c e o

theorem ownerNum_who (o : Owner) (x : Strand) (h : x.cfg.owner = ownerNum o) : x.who = some o := by
  unfold Strand.who
  rw [h]
  cases o <;> rfl

/-- The strand of a session opens, as its owner's. -/
theorem openSession_opens (s : State) (n : Fin 2048) (o : Owner) : (openSession s n o).sec = s.sec ∧
    (openSession s n o).now = s.now ∧ ((openSession s n o).strand n).st = .opening ∧
    ((openSession s n o).strand n).session = true ∧ ((openSession s n o).strand n).who = some o := by
  unfold openSession
  rw [helloOpen_strand, helloOpen_keeps (f := State.sec) (fun _ _ _ _ => rfl),
    helloOpen_keeps (f := State.now) (fun _ _ _ _ => rfl)]
  obtain ⟨p, g, e⟩ := openStrand_opens
    (s.setStrand n { s.strand n with session := true, cfg := { owner := ownerNum o, enable := true } }) n
  rw [e, State.setStrand_strand_same]
  exact ⟨rfl, rfl, rfl, rfl, ownerNum_who o _ rfl⟩

/-- The session that FINISH completes. -/
theorem finished_session {s : State} {id : Nat} {x : Session} (hs : sessionOf s id = some x) (n : Fin 2048) (o : Owner) :
    sessionOf (finished s id n o) id = some { x with ready := true, strand := some n } := by
  unfold finished sessionOf
  rw [(openSession_opens _ n o).1]
  refine (find?_session_map (f := Session.readied id (some n)) (fun y => ?_) _ id).trans ?_
  · unfold Session.readied
    split <;> rfl
  · rw [show s.sec.sessions.find? (fun y => y.id = id) = some x from hs]
    exact congrArg some (if_pos (sessionOf_id hs))

/-! ## The lease (18 R498, R499) -/

section
variable {s : State} {id : Nat} {x : Session} {epoch : BitVec 32} {ctrl : BitVec 16}

/-- The state in which the lease is granted. -/
def granted (s : State) (id e c : Nat) : State :=
  let passes := leasePasses s e c
  let grant (y : Session) : Session := { y with holds := y.id == id || (y.holds && !passes) }
  s.setSec { s.sec with lease := some (e, c, id), leaseEpoch := e, sessions := s.sec.sessions.map grant }

/-- The state in which the lease is granted and what its passing discards is gone. -/
def leased (s : State) (id e c : Nat) : State :=
  if leasePasses s e c then passLease (granted s id e c) else granted s id e c

theorem doLeaseRequest_refuses (h : spdmReaches s = true) (hs : sessionOf s id = some x) (hr : x.ready = true)
    (hp : x.party = some .controller) (hg : leaseGranted s epoch.toNat ctrl.toNat = false) :
    doLeaseRequest id epoch ctrl s = sessionSay s id 4 (0x09 :: leasePair s) := by
  unfold doLeaseRequest
  rw [hs]
  exact (if_neg (by simp [h, hr, hp])).trans (if_pos (by simp [hg]))

theorem doLeaseRequest_grants (h : spdmReaches s = true) (hs : sessionOf s id = some x) (hr : x.ready = true)
    (hp : x.party = some .controller) (hg : leaseGranted s epoch.toNat ctrl.toNat = true) :
    doLeaseRequest id epoch ctrl s = sessionSay (leased s id epoch.toNat ctrl.toNat) id 4
      (0 :: leasePair (leased s id epoch.toNat ctrl.toNat)) := by
  unfold doLeaseRequest
  rw [hs]
  exact (if_neg (by simp [h, hr, hp])).trans (if_neg (by simp [hg]))

end

theorem passLease_passes (s : State) : (passLease s).sec = { s.sec with scrubSt := [] } ∧ (passLease s).now = s.now ∧
    (passLease s).mgmt.frozen = false ∧ (passLease s).mgmt.tally = [] ∧ ∀ q, ((passLease s).q q).staged = [] := by
  have h (t : State) : ∃ f d v, record t 0x0D none 14 0 [7] =
    { t with mgmt := { t.mgmt with faults := f, dropped := d }, twine := { t.twine with strands := v } } := record_form ..
  unfold passLease
  dsimp only
  obtain ⟨f, d, v, e⟩ := h ((clearFwArea (discardStaged s)).setMgmt { (clearFwArea (discardStaged s)).mgmt with
    frozen := false, tally := [] })
  rw [e]
  exact ⟨rfl, rfl, rfl, rfl, fun q => congrArg Queue.staged (Vector.get_map ..)⟩

theorem granted_grants (s : State) (id e c : Nat) : let passes := leasePasses s e c
    (granted s id e c).sec.lease = some (e, c, id) ∧ (granted s id e c).sec.leaseEpoch = e ∧
    (granted s id e c).now = s.now ∧ (granted s id e c).sec.sessions =
      s.sec.sessions.map (fun y => { y with holds := y.id == id || (y.holds && !passes) }) := ⟨rfl, rfl, rfl, rfl⟩

/-- What a grant sets, and what the passing of the lease clears. -/
theorem leased_grants (s : State) (id e c : Nat) : let passes := leasePasses s e c
    (leased s id e c).sec.lease = some (e, c, id) ∧ (leased s id e c).sec.leaseEpoch = e ∧
    (leased s id e c).now = s.now ∧ (leased s id e c).sec.sessions =
      s.sec.sessions.map (fun y => { y with holds := y.id == id || (y.holds && !passes) }) ∧
    (passes = true → (leased s id e c).mgmt.frozen = false ∧ (leased s id e c).mgmt.tally = [] ∧
      ∀ q, ((leased s id e c).q q).staged = []) := by
  intro passes
  obtain ⟨h1, h2, h3, h4⟩ := granted_grants s id e c
  by_cases hp : leasePasses s e c = true
  · obtain ⟨g1, g2, g3⟩ := passLease_passes (granted s id e c)
    rw [leased, if_pos hp, g1, g2]
    exact ⟨h1, h2, h3, h4, fun _ => g3⟩
  · rw [leased, if_neg hp]
    exact ⟨h1, h2, h3, h4, fun h => absurd h hp⟩

theorem leasePair_leased (s : State) (id e c : Nat) : leasePair (leased s id e c) = [e, c] := by
  rw [leasePair, (leased_grants s id e c).1]

/-! ## The statement -/

theorem mayExchange_iff (s : State) (cred : Cred) : mayExchange s cred = true ↔
    s.sec.sessions.length < 8 ∧ (cred = .tenant → s.sec.tenancyOn = true ∧ s.sec.phase ≠ .scrubbing) := by
  unfold mayExchange
  by_cases h : cred = .tenant <;> simp [h]

theorem session_exchanges (id : Nat) (cred : Cred) (s : State) (h : spdmReaches s = true) :
    let w := spdmWakes s
    let hdr (code : Nat) (body : List Nat) : List Byte := bareHdr 0x19 s.now (Config.spdmLen code body) 0
    let open_ (u : State) (code : Nat) (body : List Nat) : State := sendSpdm u (.spdm code body (hdr code body))
    let inside (u : State) (code : Nat) (body : List Nat) : State := sendSpdm u (.session id code body (hdr code body))
    (s.sec.sessions.length < 8 → sessionOf s id = none →
      (cred = .tenant → s.sec.tenancyOn = true ∧ s.sec.phase ≠ .scrubbing) →
      ∃ u, exec (.keyExchange id cred) s = .next (open_ u 0x64 [id]) ∧ u.out = s.out ∧
        u.sec.sessions = s.sec.sessions ++ [{ id := id, party := credParty cred, no := s.sec.nextSession }] ∧
        u.sec.nextSession = s.sec.nextSession + 1) ∧
    (sessionOf s id = none → 8 ≤ s.sec.sessions.length ∨ cred = .tenant ∧ s.sec.tenancyOn = false →
      exec (.keyExchange id cred) s = .next (open_ w 0x7F [])) ∧
    (sessionOf s id = none → id ∈ s.sec.ended → exec (.endSession id) s = .next (inside w 0x6C [])) := by
  intro w hdr open_ inside
  have hr := (spdmWakes_reaches s).trans h
  have hnow := spdmWakes_now s
  refine ⟨fun hl hs ht => ?_, fun hs hl => ?_, fun hs he => ?_⟩
  · have hm : mayExchange (spdmWakes s) cred = true := (mayExchange_iff _ _).mpr (by rw [spdmWakes_sec]; exact ⟨hl, ht⟩)
    refine ⟨exchanged (spdmWakes s) id cred, congrArg Host.Outcome.next ((doKeyExchange_begins hr ((sessionOf_spdmWakes ..).trans
      hs) hm).trans (spdmSay_eq (s := exchanged (spdmWakes s) id cred) hnow ..)), spdmWakes_out s, ?_, ?_⟩
    · rw [exchanged, spdmWakes_sec]
      rfl
    · rw [exchanged, spdmWakes_sec]
      rfl
  · have hm : mayExchange (spdmWakes s) cred = false := by
      rw [← Bool.not_eq_true, mayExchange_iff, spdmWakes_sec]
      rintro ⟨h8, ht⟩
      rcases hl with hl | ⟨hc, hl⟩
      · omega
      · exact absurd (ht hc).1 (by simp [hl])
    exact congrArg Host.Outcome.next
      ((doKeyExchange_refuses hr ((sessionOf_spdmWakes ..).trans hs) hm).trans (spdmSay_eq hnow ..))
  · have he' : id ∈ (spdmWakes s).sec.ended := by rwa [spdmWakes_sec]
    exact congrArg Host.Outcome.next
      ((doEndSession_repeats hr ((sessionOf_spdmWakes ..).trans hs) he').trans (sessionSay_eq hnow ..))

theorem session_requests (id : Nat) (cred : Cred) (s : State) (h : spdmReaches s = true) (x : Session)
    (hs : sessionOf s id = some x) :
    let w := spdmWakes s
    let hdr (code : Nat) (body : List Nat) : List Byte := bareHdr 0x19 s.now (Config.spdmLen code body) 0
    let open_ (u : State) (code : Nat) (body : List Nat) : State := sendSpdm u (.spdm code body (hdr code body))
    let inside (u : State) (code : Nat) (body : List Nat) : State := sendSpdm u (.session id code body (hdr code body))
    (x.ready = false → x.party = credParty cred → exec (.keyExchange id cred) s = .next (open_ w 0x64 [id])) ∧
    (∀ o n, x.ready = false → x.party = some o → freeStrand s = some n → ∃ u,
      exec (.finish id) s = .next (inside (inside u 0x65 []) 2 [n.val]) ∧
      sessionOf u id = some { x with ready := true, strand := some n } ∧ (u.strand n).st = .opening ∧
      (u.strand n).session = true ∧ (u.strand n).who = some o) ∧
    (∀ i ∈ [Instr.endSession id, Instr.sessionIdleTimeout id], ∃ t, exec i s = .next t ∧ sessionOf t id = none ∧
      ∀ n, x.strand = some n → (t.strand n).st = .closed ∧ (t.strand n).session = false) ∧
    (x.ready = true → exec (.keyUpdate id) s = .next (inside w 0x69 []) ∧
      exec (.heartbeat id) s = .next (inside w 0x68 []) ∧
      exec (.wakeKeyFetch id) s =
        .next (inside w (if x.holds = true then 3 else 0x7F) (if x.holds = true then [wakeKey] else []))) := by
  intro w hdr open_ inside
  have hr := (spdmWakes_reaches s).trans h
  have hnow := spdmWakes_now s
  have hw : sessionOf (spdmWakes s) id = some x := (sessionOf_spdmWakes ..).trans hs
  refine ⟨fun h1 h2 => congrArg Host.Outcome.next ((doKeyExchange_repeats hr hw h1 h2).trans (spdmSay_eq hnow ..)),
    fun o n h1 h2 h3 => ?_, fun i hi => ?_, fun h1 => ⟨?_, ?_, ?_⟩⟩
  · obtain ⟨hsec, ht, h4⟩ := openSession_opens ((spdmWakes s).setSec { (spdmWakes s).sec with
      sessions := (spdmWakes s).sec.sessions.map (Session.readied id (some n)) }) n o
    have ht : (finished (spdmWakes s) id n o).now = s.now := ht.trans hnow
    refine ⟨finished (spdmWakes s) id n o, congrArg Host.Outcome.next ((doFinish_opens hr hw h1 h2
      ((freeStrand_spdmWakes s).trans h3)).trans ?_), finished_session hw n o, h4⟩
    rw [sessionSay_eq ht, sessionSay_eq ((sendSpdm_now ..).trans ht)]
  · simp only [List.mem_cons, List.not_mem_nil, or_false] at hi
    rcases hi with rfl | rfl
    · obtain ⟨h1, h2⟩ := endedSession_ends hw
      refine ⟨_, congrArg Host.Outcome.next (doEndSession_ends hr hw), (sessionOf_sendSpdm ..).trans h1, fun n hn => ?_⟩
      rw [sessionSay, sendSpdm_strand]
      exact h2 n hn
    · exact ⟨_, rfl, sessionOf_dropSession .., fun n hn => dropSession_strand hs hn _⟩
  · exact congrArg Host.Outcome.next ((inSession_answers hr hw h1 _).trans (sessionSay_eq hnow ..))
  · exact congrArg Host.Outcome.next ((inSession_answers hr hw h1 _).trans (sessionSay_eq hnow ..))
  · exact congrArg Host.Outcome.next ((doWakeKeyFetch_answers hr hw h1).trans (sessionSay_eq hnow ..))

theorem lease_requests (id : Nat) (x : Session) (epoch : BitVec 32) (ctrl : BitVec 16) (s : State)
    (h : spdmReaches s = true) (hs : sessionOf s id = some x) (hx : x.ready = true) (hp : x.party = some .controller) :
    let inside (u : State) (body : List Nat) : State :=
      sendSpdm u (.session id 4 body (bareHdr 0x19 s.now (Config.spdmLen 4 body) 0))
    (leaseGranted s epoch.toNat ctrl.toNat = false → exec (.leaseRequest id epoch ctrl) s =
      .next (inside (spdmWakes s) (0x09 :: leasePair s))) ∧
    (leaseGranted s epoch.toNat ctrl.toNat = true → ∃ u,
      exec (.leaseRequest id epoch ctrl) s = .next (inside u [0, epoch.toNat, ctrl.toNat]) ∧
      u.sec.lease = some (epoch.toNat, ctrl.toNat, id) ∧ u.sec.leaseEpoch = epoch.toNat ∧
      let passes := leasePasses s epoch.toNat ctrl.toNat
      u.sec.sessions = s.sec.sessions.map (fun y => { y with holds := y.id == id || (y.holds && !passes) }) ∧
      (passes = true → u.mgmt.frozen = false ∧ u.mgmt.tally = [] ∧ ∀ q, (u.q q).staged = [])) := by
  intro inside
  have hr := (spdmWakes_reaches s).trans h
  have hnow := spdmWakes_now s
  have hw : sessionOf (spdmWakes s) id = some x := (sessionOf_spdmWakes ..).trans hs
  have hsec := spdmWakes_sec s
  have hg (e c : Nat) : leaseGranted (spdmWakes s) e c = leaseGranted s e c := by rw [leaseGranted, hsec]; rfl
  have hpair : leasePair (spdmWakes s) = leasePair s := by rw [leasePair, hsec]; rfl
  have hpass (e c : Nat) : leasePasses (spdmWakes s) e c = leasePasses s e c := by rw [leasePasses, hsec]; rfl
  refine ⟨fun hn => ?_, fun hy => ?_⟩
  · rw [← hpair]
    exact congrArg Host.Outcome.next
      ((doLeaseRequest_refuses hr hw hx hp ((hg ..).trans hn)).trans (sessionSay_eq hnow ..))
  · obtain ⟨h1, h2, h3, h4, h5⟩ := leased_grants (spdmWakes s) id epoch.toNat ctrl.toNat
    rw [hpass] at h4 h5
    rw [hsec] at h4
    refine ⟨_, congrArg Host.Outcome.next ((doLeaseRequest_grants hr hw hx hp ((hg ..).trans hy)).trans ?_), h1, h2, h4, h5⟩
    rw [leasePair_leased]
    exact sessionSay_eq (h3.trans hnow) ..

/-- Settles O50: a request that reaches the device finds it as it was but for its wake, so each answer is that of the branch
its session selects. -/
theorem sessionsAndLease : Obligations.SessionsAndLease := by
  constructor
  · intro id cred s h w hdr open_ inside party
    obtain ⟨h1, h2, h3⟩ := session_exchanges id cred s h
    exact ⟨h1, h2, h3, fun x hs => session_requests id cred s h x hs⟩
  · exact fun id x epoch ctrl s h hs hx hp => lease_requests id x epoch ctrl s h hs hx hp

end Sys2Proof.Machine
end

section
/-!
PROOFS. Authorisations, their checks and the effect of each kind (16; O51).
-/

namespace Sys2Proof.Machine

/-- The tenancy, the consents, the keys and the authorisations, with the time: all of the security controller but the traces
and what is staged. -/
def secView (s : State) := ({ s.sec with trace := [], scrubSt := [] }, s.now)

/-- From `s` to `t` the parts of `secView` have not changed. -/
def SecKept (s t : State) : Prop := secView t = secView s

namespace SecKept

section
variable {s t u : State}

theorem refl : SecKept s s := rfl
theorem trans (h : SecKept s t) (h' : SecKept t u) : SecKept s u := Eq.trans h' h
theorem same (h : SecKept s t) (e : secView u = secView t) : SecKept s u := e.trans h
theorem setSp {p : Fin 136} {x : Spindle} (h : SecKept s t) : SecKept s (t.setSp p x) := h
theorem setSk {k : Fin 8} {x : Skein} (h : SecKept s t) : SecKept s (t.setSk k x) := h
theorem setQ {q : Fin 4096} {x : Queue} (h : SecKept s t) : SecKept s (t.setQ q x) := h
theorem setMem {x : Mem} (h : SecKept s t) : SecKept s (t.setMem x) := h
theorem setTrans {x : Trans} (h : SecKept s t) : SecKept s (t.setTrans x) := h
theorem setStrand {n : Fin 2048} {x : Strand} (h : SecKept s t) : SecKept s (t.setStrand n x) := h
theorem setPort {p : Fin 32} {x : Port} (h : SecKept s t) : SecKept s (t.setPort p x) := h
theorem setMgmt {x : Mgmt} (h : SecKept s t) : SecKept s (t.setMgmt x) := h
theorem setSec {x : Sec} (h : SecKept s t) (e : secView (t.setSec x) = secView t) :
    SecKept s (t.setSec x) := e.trans h
theorem setPwr {x : Pwr} (h : SecKept s t) : SecKept s (t.setPwr x) := h
theorem say {o : Out} (h : SecKept s t) : SecKept s (t.say o) := h
theorem skeins {x : Vector Skein 8} (h : SecKept s t) : SecKept s { t with skeins := x } := h
theorem queues {x : Vector Queue 4096} (h : SecKept s t) : SecKept s { t with queues := x } := h
theorem kernels {x : List Kernel} (h : SecKept s t) : SecKept s { t with kernels := x } := h
theorem twine {x : Twine} (h : SecKept s t) : SecKept s { t with twine := x } := h
theorem ply {x : Groups} (h : SecKept s t) : SecKept s { t with ply := x } := h
theorem free {x : Nat} (h : SecKept s t) : SecKept s { t with free := x } := h
theorem setWin {w : List (Nat × Byte)} (h : SecKept s t) : SecKept s (t.setMgmt { t.mgmt with win := w }) := h
theorem setMgmtRecord {ws : List Word} (h : SecKept s t) : SecKept s { t with mgmt := (keepRecord t.mgmt ws).1 } := by
  obtain ⟨f, d, e⟩ := keepRecord_form t.mgmt ws
  rw [e]
  exact h

theorem ite {c : Prop} [Decidable c] (ha : c → SecKept s t) (hb : ¬ c → SecKept s u) :
    SecKept s (if c then t else u) := by
  split
  · exact ha ‹_›
  · exact hb ‹_›

theorem foldl {β : Type} {g : State → β → State} {l : List β} (h : SecKept s t)
    (hg : ∀ {u : State} {b : β}, SecKept s u → SecKept s (g u b)) : SecKept s (l.foldl g t) := by
  induction l generalizing t with
  | nil => exact h
  | cons b l ih => exact ih (hg h)

theorem foldlPair {α β : Type} {g : State × α → β → State × α} {l : List β} {x : State × α} (h : SecKept s x.1)
    (hg : ∀ {y : State × α} {b : β}, SecKept s y.1 → SecKept s (g y b).1) : SecKept s (l.foldl g x).1 := by
  induction l generalizing x with
  | nil => exact h
  | cons b l ih => exact ih (hg h)

end

end SecKept

section
variable {s t : State}

theorem SecKept.settleQueue {q : Fin 4096} (h : SecKept s t) : SecKept s (settleQueue t q) := by
  unfold Machine.settleQueue
  exact .ite (fun _ => h.setQ) fun _ => h

theorem SecKept.closeRecord {slot : Nat} (h : SecKept s t) : SecKept s (closeRecord t slot) := by
  unfold Machine.closeRecord
  exact h.setMgmt

theorem SecKept.dropFault {id : Nat} (h : SecKept s t) : SecKept s (dropFault t id) := by
  unfold Machine.dropFault
  split
  · exact h
  · exact (SecKept.ite (fun _ => h.setTrans) fun _ => h.setTrans.closeRecord).settleQueue

theorem SecKept.drainFaults {q : Fin 4096} (h : SecKept s t) : SecKept s (drainFaults t q) := by
  unfold Machine.drainFaults
  exact h.foldl SecKept.dropFault

theorem SecKept.traceKernel {q : Fin 4096} {seq : Nat} (h : SecKept s t) : SecKept s (traceKernel t q seq) := by
  unfold Machine.traceKernel
  split
  · exact .ite (fun _ => h.setSec (by rfl)) fun _ => h
  · exact h

theorem SecKept.setDesc {q : Fin 4096} {seq : Nat} {f : Desc → Desc}
    (h : SecKept s t) : SecKept s (setDesc t q seq f) := by
  unfold Machine.setDesc
  exact h.setQ

theorem SecKept.finish {q : Fin 4096} {seq : Nat} {st : Status} {flags : Flags} {code : Nat} {detail : Nat}
    {value : Nat} (h : SecKept s t) : SecKept s (finish t q seq st flags code detail value) := by
  unfold Machine.finish
  exact h.setDesc

theorem SecKept.settleKernel {q : Fin 4096} {seq : Nat} (h : SecKept s t) : SecKept s (settleKernel t q seq) := by
  unfold Machine.settleKernel
  split
  · exact h
  · split
    · exact h
    · dsimp only
      split <;> exact h.kernels.traceKernel.finish

theorem SecKept.setKernel {q : Fin 4096} {seq : Nat} {f : Kernel → Kernel}
    (h : SecKept s t) : SecKept s (setKernel t q seq f) := by
  unfold Machine.setKernel
  exact h.kernels

theorem SecKept.reportShare {sh : Share} {st : Status} {cause : Word} {fl : Flags}
    (h : SecKept s t) : SecKept s (reportShare t sh st cause fl) := by
  unfold Machine.reportShare
  exact h.setKernel.settleKernel

theorem SecKept.drainImages {q : Fin 4096} (h : SecKept s t) : SecKept s (drainImages t q) := by
  unfold Machine.drainImages
  exact h.foldl fun h' => h'.setTrans.reportShare

theorem SecKept.drainKernels {q : Fin 4096} (h : SecKept s t) : SecKept s (drainKernels t q) := by
  unfold Machine.drainKernels
  exact h.same (by rfl)

theorem SecKept.ends {q : Fin 4096} {seq : Nat} {st : Status} (h : SecKept s t) : SecKept s (ends t q seq st) := by
  unfold Machine.ends
  exact h.finish

theorem SecKept.bindEnds {k : Fin 8} {w : BindWait} {st : Status}
    (h : SecKept s t) : SecKept s (bindEnds t k w st) := by
  unfold Machine.bindEnds
  exact h.setSk.ends

theorem SecKept.setBinding {k : Fin 8} {b : Binding} {x : Option Binding}
    (h : SecKept s t) : SecKept s (setBinding t k b x) := by
  unfold Machine.setBinding
  exact h.setSk

theorem SecKept.evict {k : Fin 8} {b : Binding} {blocks : List (Fin 4096 × Nat)} {evictor : Option (Fin 4096 × Nat)}
    (h : SecKept s t) : SecKept s (evict t k b blocks evictor) := by
  unfold Machine.evict
  exact h.setBinding.setQ.setSk

theorem SecKept.bindAllocate {k : Fin 8} {w : BindWait} {c : CreelBody}
    (h : SecKept s t) : SecKept s (bindAllocate t k w c) := by
  unfold Machine.bindAllocate
  exact .ite (fun _ => h.setSk.bindEnds.evict) fun _ => h.setSk.bindEnds

theorem SecKept.bindStep {n : Nat} {k : Fin 8} {w : BindWait} {b : CreelBody}
    (h : SecKept s t) : SecKept s (bindStep n t k w b) := by
  induction n generalizing t with
  | zero => exact h
  | succ n ih =>
    unfold Machine.bindStep
    refine .ite (fun _ => h.bindEnds) fun _ => .ite (fun _ => h.bindEnds) fun _ => .ite (fun _ => h) fun _ =>
      .ite (fun _ => ?_) fun _ => .ite (fun _ => .ite (fun _ => h) fun _ => h.bindAllocate) fun _ =>
        .ite (fun _ => h) fun _ => ?_
    · split
      · exact ih h.evict
      · exact h.bindEnds
    · split
      · exact h.evict
      · exact h.bindEnds

theorem SecKept.bindRetry {k : Fin 8} (h : SecKept s t) : SecKept s (bindRetry t k) := by
  unfold Machine.bindRetry
  refine h.foldl fun h' => ?_
  split
  · exact h'.bindStep
  · exact h'

theorem SecKept.bindRetryAll (h : SecKept s t) : SecKept s (bindRetryAll t) := by
  unfold Machine.bindRetryAll
  exact h.foldl SecKept.bindRetry

theorem SecKept.drainRest {q : Fin 4096} (h : SecKept s t) : SecKept s (drainRest t q) := by
  unfold Machine.drainRest
  exact (h.same (by rfl)).bindRetryAll

theorem SecKept.post {n : Fin 2048} {m : Msg} (h : SecKept s t) : SecKept s (post t n m) := by
  unfold Machine.post
  dsimp only
  split
  · exact h
  · exact h
  · exact h.setStrand

theorem SecKept.notify {to_ : Party} {kind : Nat} {queue : Nat} {result : Nat} {body : List Byte}
    (h : SecKept s t) : SecKept s (notify t to_ kind queue result body) := by
  unfold Machine.notify
  split
  · exact h.post
  · exact h

theorem SecKept.notifyUpdate {u : TUpdate} {st : Status} (h : SecKept s t) : SecKept s (notifyUpdate t u st) := by
  unfold Machine.notifyUpdate
  exact h.notify

theorem SecKept.drainUpdates {q : Fin 4096} (h : SecKept s t) : SecKept s (drainUpdates t q) := by
  unfold Machine.drainUpdates
  exact h.foldl fun h' => h'.finish.notifyUpdate

theorem SecKept.reportMove {m : Move} {st : Status} {fl : Flags}
    (h : SecKept s t) : SecKept s (reportMove t m st fl) := by
  unfold Machine.reportMove
  split
  · exact h.setSp
  · exact h.finish

theorem SecKept.drainMoves {q : Fin 4096} (h : SecKept s t) : SecKept s (drainMoves t q) := by
  unfold Machine.drainMoves
  exact h.skeins.setMgmt.foldl SecKept.reportMove

theorem SecKept.interruptDescs {q : Fin 4096} {f : Desc → Bool}
    (h : SecKept s t) : SecKept s (interruptDescs t q f) := by
  unfold Machine.interruptDescs
  exact h.foldl SecKept.finish

theorem SecKept.drainQueue {q : Fin 4096} (h : SecKept s t) : SecKept s (drainQueue t q) := by
  unfold Machine.drainQueue
  exact .ite (fun _ => h) fun _ => ((h.setQ.drainKernels.drainImages.drainFaults.foldl SecKept.finish).foldl
      SecKept.finish).drainMoves.drainUpdates.drainRest.interruptDescs.foldl SecKept.settleKernel

theorem SecKept.reelLine {kl : Fin 8 × Nat} {h0 : Hint} {wr : Bool}
    (h : SecKept s t) : SecKept s (reelLine t kl h0 wr) := by
  unfold Machine.reelLine
  exact h.setMem

theorem SecKept.writeBack {k : Fin 8} {b : Binding} {h0 : Hint}
    (h : SecKept s t) : SecKept s (writeBack t k b h0) := by
  unfold Machine.writeBack
  exact (h.setMem.foldl SecKept.reelLine).setSk

theorem SecKept.dropBindings (h : SecKept s t) : SecKept s (dropBindings t) := by
  unfold Machine.dropBindings
  exact h.foldl fun h' => (h'.foldl SecKept.writeBack).setSk

theorem SecKept.writeBackAll (h : SecKept s t) : SecKept s (writeBackAll t) := h.dropBindings.setMem

theorem SecKept.putFrame {n : Fin 2048} {psn : BitVec 32} {retx : Bool} {msg : Msg} {head : Head} {data : List Byte}
    (h : SecKept s t) : SecKept s (putFrame t n psn retx msg head data) := by
  unfold Machine.putFrame
  exact h.setStrand.say

theorem SecKept.touchUnit {a : Nat} {n : Nat} {h0 : Hint} {wr : Bool}
    (h : SecKept s t) : SecKept s (touchUnit t a n h0 wr) := by
  unfold Machine.touchUnit
  split
  · exact h.foldl SecKept.reelLine
  · exact h.setSk.foldl SecKept.reelLine

theorem SecKept.reelTouch {a : Nat} {n : Nat} {h0 : Hint} {wr : Bool}
    (h : SecKept s t) : SecKept s (reelTouch t a n h0 wr) := by
  unfold Machine.reelTouch
  exact h.foldl fun h' => h'.touchUnit

theorem SecKept.touchSegs {segs : List Seg} {a : Nat} {n : Nat} {wr : Bool}
    (h : SecKept s t) : SecKept s (touchSegs t segs a n wr) := by
  unfold Machine.touchSegs
  exact h.foldl SecKept.reelTouch

theorem SecKept.addRecord {q : Nat} {ws : List Word} {ten : Bool}
    (h : SecKept s t) : SecKept s (addRecord t q ws ten) := by
  unfold Machine.addRecord
  exact .ite (fun _ => h.setMgmtRecord.notify.notify) fun _ => h.setMgmtRecord.notify

theorem SecKept.record {kind : Nat} {st : Option Status} {unit : Nat} {index : Nat} {args : List Nat}
    (h : SecKept s t) : SecKept s (record t kind st unit index args) := by
  unfold Machine.record
  exact h.addRecord

theorem SecKept.poisonRecord {burst : Option Nat} {q : Nat} {type : Nat}
    (h : SecKept s t) : SecKept s (poisonRecord t burst q type) := by
  unfold Machine.poisonRecord
  split
  · exact h
  · exact h.record

theorem SecKept.endRma {r : Rma} {st : Status} (h : SecKept s t) : SecKept s (endRma t r st) := by
  unfold Machine.endRma
  exact .ite (fun _ => h.twine.free.finish) fun _ => h.twine.ends

theorem SecKept.settleRmas (h : SecKept s t) : SecKept s (settleRmas t) := by
  unfold Machine.settleRmas
  exact h.foldl SecKept.endRma

theorem SecKept.setRma {q : Fin 4096} {seq : Nat} {f : Rma → Rma}
    (h : SecKept s t) : SecKept s (setRma t q seq f) := by
  unfold Machine.setRma
  exact h.twine

theorem SecKept.sendNew {n : Fin 2048} {msg : Msg} {data : List Byte} {size : Nat}
    (h : SecKept s t) : SecKept s (sendNew t n msg data size) := by
  unfold Machine.sendNew
  exact h.setStrand.putFrame

theorem SecKept.sendHead {n : Fin 2048} (h : SecKept s t) : SecKept s (sendHead t n) := by
  unfold Machine.sendHead
  dsimp only
  split
  · exact h
  · split
    · split
      · exact h.setStrand
      · split
        · exact h
        · split
          · exact (SecKept.ite (fun _ => h) fun _ => h.touchSegs).setStrand.poisonRecord.setRma.settleRmas
          · exact .ite (fun _ => .ite (fun _ => h) fun _ => h.touchSegs) fun _ => (SecKept.ite (fun _ => h) fun _ =>
              h.touchSegs).setRma.sendNew
    · exact .ite (fun _ => h.sendNew) fun _ => h

theorem SecKept.doFrameTransmit {n : Fin 2048} (h : SecKept s t) : SecKept s (doFrameTransmit n t) := by
  unfold Machine.doFrameTransmit
  dsimp only
  split
  · exact h
  · split
    · exact h.setStrand.twine.putFrame
    · exact .ite (fun _ => h) fun _ => h.setStrand.sendHead

theorem SecKept.sendAccepts {n : Nat} {m : Fin 2048} (h : SecKept s t) : SecKept s (sendAccepts n t m) := by
  induction n generalizing t with
  | zero => exact h
  | succ n ih => exact .ite (fun _ => ih h.doFrameTransmit) fun _ => h

theorem SecKept.earnedAccepts (h : SecKept s t) : SecKept s (earnedAccepts t) := by
  unfold Machine.earnedAccepts
  exact h.foldl SecKept.sendAccepts

theorem SecKept.sayCtrl {p : Fin 32} {o : Out} (h : SecKept s t) : SecKept s (sayCtrl t p o) := by
  unfold Machine.sayCtrl
  exact .ite (fun _ => h.setPort) fun _ => h.say

theorem SecKept.putHello {p : Fin 32} {m : HelloMsg} (h : SecKept s t) : SecKept s (putHello t p m) := by
  unfold Machine.putHello
  exact .ite (fun _ => h) fun _ => h.twine.sayCtrl

theorem SecKept.sendHello {p : Fin 32} {pending : Bool} (h : SecKept s t) : SecKept s (sendHello t p pending) := by
  unfold Machine.sendHello
  exact .ite (fun _ => (SecKept.ite (fun _ => h.putHello) fun _ => h).putHello) fun _ => .ite (fun _ =>
      h.putHello) fun _ => h

theorem SecKept.announceReset (h : SecKept s t) : SecKept s (announceReset t) := by
  unfold Machine.announceReset
  exact h.foldl SecKept.sendHello

theorem SecKept.dropHeld (h : SecKept s t) : SecKept s (dropHeld t) := by
  unfold Machine.dropHeld
  exact h.twine

theorem SecKept.clearWin {a b : Nat} (h : SecKept s t) : SecKept s (clearWin t a b) := h.setWin

theorem SecKept.clearFwArea (h : SecKept s t) : SecKept s (clearFwArea t) := by
  unfold Machine.clearFwArea
  exact h.clearWin

theorem SecKept.discardStaged (h : SecKept s t) : SecKept s (discardStaged t) := by
  unfold Machine.discardStaged
  exact h.same (by rfl)

theorem SecKept.clearLldp {p : Fin 32} (h : SecKept s t) : SecKept s (clearLldp t p) := h.setWin

theorem SecKept.dropPort {p : Fin 32} {l : Link} (h : SecKept s t) : SecKept s (dropPort t p l) := by
  unfold Machine.dropPort
  exact h.setPort.clearLldp

theorem SecKept.retrain {p : Fin 32} (h : SecKept s t) : SecKept s (retrain t p) := by
  unfold Machine.retrain
  exact h.dropPort

theorem SecKept.portsUp (h : SecKept s t) : SecKept s (portsUp t) := by
  unfold Machine.portsUp
  exact h.foldl fun h' => .ite (fun _ => h'.retrain) fun _ => h'

theorem SecKept.startWarm (h : SecKept s t) : SecKept s (startWarm t) := by
  unfold Machine.startWarm
  split
  · exact h
  · exact h
  · exact (SecKept.ite (fun _ => (SecKept.ite (fun _ => h.earnedAccepts.writeBackAll) fun _ =>
      h.earnedAccepts.writeBackAll.announceReset).discardStaged.clearFwArea.dropHeld.portsUp) fun _ =>
      (SecKept.ite (fun _ => h.earnedAccepts.writeBackAll) fun _ =>
      h.earnedAccepts.writeBackAll.announceReset).discardStaged.clearFwArea.dropHeld).setPwr.setMem.setMgmt

theorem SecKept.endBurst (h : SecKept s t) : SecKept s (endBurst t) := by
  unfold Machine.endBurst
  split
  · exact h.setPwr
  · exact h

theorem SecKept.dropOp {o : GOp} (h : SecKept s t) : SecKept s (dropOp t o) := by
  unfold Machine.dropOp
  exact h.ply

theorem SecKept.endOp {o : GOp} {st : Status} (h : SecKept s t) : SecKept s (endOp t o st) := by
  unfold Machine.endOp
  exact h.dropOp.finish

theorem SecKept.endGroupsOn {n : Fin 2048} {st : Status} (h : SecKept s t) : SecKept s (endGroupsOn t n st) := by
  unfold Machine.endGroupsOn
  refine h.foldl fun h' => ?_
  split
  · split
    · exact .ite (fun _ => h'.endOp) fun _ => h'
    · exact h'
  · exact h'

theorem SecKept.endRmasOn {n : Fin 2048} {st : Status} (h : SecKept s t) : SecKept s (endRmasOn t n st) := by
  unfold Machine.endRmasOn
  exact h.foldl SecKept.endRma

theorem SecKept.forgetStrand {n : Fin 2048} (h : SecKept s t) : SecKept s (forgetStrand t n) := by
  unfold Machine.forgetStrand
  exact h.queues

theorem SecKept.closeStrand {n : Fin 2048} {st : Status} (h : SecKept s t) : SecKept s (closeStrand t n st) := by
  unfold Machine.closeStrand
  exact h.endRmasOn.endGroupsOn.setStrand.forgetStrand

theorem SecKept.closeTenantStrands {peers : Bool} (h : SecKept s t) : SecKept s (closeTenantStrands t peers) := by
  unfold Machine.closeTenantStrands
  exact h.foldl SecKept.closeStrand

theorem SecKept.dropFrames {rs : List Rma} (h : SecKept s t) : SecKept s (dropFrames t rs) := by
  unfold Machine.dropFrames
  exact .ite (fun _ => h) fun _ => h.twine

theorem SecKept.eraseRmas {f : Rma → Bool} (h : SecKept s t) : SecKept s (eraseRmas t f) := by
  unfold Machine.eraseRmas
  exact h.dropFrames.foldl SecKept.endRma

theorem SecKept.authRecord {kind : Nat} {aseq : Nat} {st : Status}
    (h : SecKept s t) : SecKept s (authRecord t kind aseq st) := by
  unfold Machine.authRecord
  exact h.record

theorem SecKept.endApplied {q : Fin 4096} (h : SecKept s t) : SecKept s (endApplied t q) := by
  unfold Machine.endApplied
  exact h.foldl fun h' => h'.finish.notifyUpdate

theorem SecKept.haltSpindle {p : Fin 136} (h : SecKept s t) : SecKept s (haltSpindle t p) := by
  unfold Machine.haltSpindle
  exact h.setSp

theorem SecKept.putByte {key : Nat} {x : Byte} (h : SecKept s t) : SecKept s (putByte t key x) := by
  unfold Machine.putByte
  split
  · exact h.setSk
  · exact h.setMem

theorem SecKept.writeByte {a : Nat} {x : Byte} (h : SecKept s t) : SecKept s (writeByte t a x) := by
  unfold Machine.writeByte
  split
  · exact h.setSp
  · split
    · exact h.putByte
    · exact h

theorem SecKept.writePhys {a : Nat} {bs : List Byte} (h : SecKept s t) : SecKept s (writePhys t a bs) := by
  induction bs generalizing t a with
  | nil => exact h
  | cons b bs ih => exact ih h.writeByte

theorem SecKept.clearPoison {a : Nat} {n : Nat} (h : SecKept s t) : SecKept s (clearPoison t a n) := by
  unfold Machine.clearPoison
  exact h.setMem

theorem SecKept.writeChecked {a : Nat} {bs : List Byte} (h : SecKept s t) : SecKept s (writeChecked t a bs).1 := by
  unfold Machine.writeChecked
  split
  · exact h
  · exact h.clearPoison.writePhys

theorem SecKept.writeSegs {segs : List Seg} {a : Nat} {bs : List Byte}
    (h : SecKept s t) : SecKept s (writeSegs t segs a bs).1 := by
  unfold Machine.writeSegs
  exact SecKept.foldlPair h writeChecked

theorem SecKept.applyWrites {segs : List Seg} {ws : List (Nat × List Byte)} (h : SecKept s t) :
    SecKept s (applyWrites t segs ws).1 := by
  unfold Machine.applyWrites
  exact SecKept.foldlPair h writeSegs

theorem SecKept.spoil {m : Move} (h : SecKept s t) : SecKept s (spoil t m) := by
  unfold Machine.spoil
  exact h.applyWrites.free

theorem SecKept.cutMoves {f : Move → Bool} (h : SecKept s t) : SecKept s (cutMoves t f) := by
  unfold Machine.cutMoves
  exact (h.foldl SecKept.spoil).skeins

theorem SecKept.stopShares {q : Fin 4096} {seq : Nat} (h : SecKept s t) : SecKept s (stopShares t q seq) := by
  unfold Machine.stopShares
  exact h.cutMoves.foldl SecKept.haltSpindle

theorem SecKept.applyChange {k : Fin 8} {c : MapChange} (h : SecKept s t) : SecKept s (applyChange t k c) := by
  unfold Machine.applyChange
  dsimp only
  split
  · exact h.setSk.setSp.record
  · exact h.setSk

theorem SecKept.settleMap {k : Fin 8} (h : SecKept s t) : SecKept s (settleMap t k) := by
  unfold Machine.settleMap
  exact h.foldl fun h' => .ite (fun _ => h'.applyChange) fun _ => h'

theorem SecKept.boundary {p : Fin 136} (h : SecKept s t) : SecKept s (boundary t p) := by
  unfold Machine.boundary
  split
  · exact h
  · dsimp only
    split
    · exact h.foldl SecKept.settleMap
    · exact (h.foldl SecKept.settleMap).setTrans.setSp

theorem SecKept.boundaries {ps : List (Fin 136)} (h : SecKept s t) : SecKept s (boundaries t ps) := by
  unfold Machine.boundaries
  exact h.foldl SecKept.boundary

theorem SecKept.stopKernel {q : Fin 4096} {seq : Nat} (h : SecKept s t) : SecKept s (stopKernel t q seq) := by
  unfold Machine.stopKernel
  exact (h.stopShares.kernels.setTrans.foldl SecKept.dropFault).boundaries

theorem SecKept.dropMoves {f : Move → Bool} (h : SecKept s t) : SecKept s (dropMoves t f) := by
  unfold Machine.dropMoves
  exact h.skeins

theorem SecKept.eraseQueue {q : Fin 4096} (h : SecKept s t) : SecKept s (eraseQueue t q) := by
  unfold Machine.eraseQueue
  exact .ite (fun _ => h) fun _ => ((h.endApplied.foldl SecKept.stopKernel).dropMoves.setMgmt.foldl
      SecKept.dropFault).drainRest.setTrans.setQ

theorem SecKept.countMove {m : Move} {st : Status} (h : SecKept s t) : SecKept s (countMove t m st) := by
  unfold Machine.countMove
  exact h.setQ

theorem SecKept.eraseControllers (h : SecKept s t) : SecKept s (eraseControllers t) := by
  unfold Machine.eraseControllers
  exact ((((h.dropMoves.foldl fun h' => h'.reportMove.countMove).foldl SecKept.finish).eraseRmas.foldl
      SecKept.finish).same (by rfl)).bindRetryAll

theorem SecKept.settleCreel (h : SecKept s t) : SecKept s (settleCreel t) := by
  unfold Machine.settleCreel
  exact h.setMem

theorem SecKept.dropTenantBindings (h : SecKept s t) : SecKept s (dropTenantBindings t) := by
  unfold Machine.dropTenantBindings
  exact h.skeins.settleCreel.bindRetryAll

theorem SecKept.resetCounters (h : SecKept s t) : SecKept s (resetCounters t) := by
  unfold Machine.resetCounters
  exact h.same (by rfl)

theorem SecKept.scrubUnits (h : SecKept s t) : SecKept s (scrubUnits t) := by
  unfold Machine.scrubUnits
  exact (h.same (by rfl)).settleCreel.bindRetryAll

theorem SecKept.closeTenantQueues (h : SecKept s t) : SecKept s (closeTenantQueues t) := by
  unfold Machine.closeTenantQueues
  exact h.queues

theorem SecKept.cryptoErase (h : SecKept s t) : SecKept s (cryptoErase t) := by
  unfold Machine.cryptoErase
  exact h.setMem.free


end

/-- What of the security controller neither traces nor staged words enter is kept. -/
theorem SecKept.keeps {α : Type} {f : Sec → α} (hf : ∀ x : Sec, f { x with trace := [], scrubSt := [] } = f x) {s t : State}
    (h : SecKept s t) : f t.sec = f s.sec := (hf _).symm.trans ((congrArg (fun v => f v.1) h).trans (hf _))

/-! ## What an order's effect leaves (16 R436, R439 to R443, R451) -/

theorem SecKept.airResumed {s t : State} (h : SecKept s t) : SecKept s (airResumed t) := by
  unfold Machine.airResumed
  exact SecKept.setPwr (.ite (fun _ => h.portsUp) fun _ => h)

theorem SecKept.resumeAir {s t : State} (h : SecKept s t) : SecKept s (resumeAir t) := h.airResumed.startWarm

/-- The override begins in the security controller's own registers. -/
theorem beginOverride_keeps (s : State) (secs : Nat) :
    SecKept (s.setSec { s.sec with override := true, overrideEnd := s.now + secs * 1000000000 }) (beginOverride s secs) := by
  unfold beginOverride
  exact .ite (fun _ => SecKept.refl.endBurst.resumeAir) fun _ => SecKept.refl.endBurst

/-- The end of an override changes that alone of the security controller's registers. -/
theorem endOverride_sec (s : State) : (endOverride s).sec = { s.sec with override := false } := by
  unfold endOverride
  split
  · next h =>
    have hf : s.sec.override = false := by simpa using h
    rw [← hf]
  · dsimp only
    split
    · exact (stopAir_stops _).2.1
    · rfl

/-- The drain that the end of a tenancy begins. -/
theorem endTenancy_keeps (s : State) (b : List Byte) :
    SecKept (s.setSec { s.sec with phase := .draining, authNow := (authKind b, authSeq b) }) (endTenancy s b) := by
  unfold endTenancy
  exact SecKept.refl.foldl fun h => .ite (fun _ => h) fun _ => h.drainQueue.setQ

/-- The security controller after TRANSIT_ERASE. -/
def Sec.transitErased (x : Sec) : Sec :=
  { x with
    keys := upd x.keys 1 { st := .empty, gen := (x.keys.get 1).gen + 1, key := none }
    transitNext := none, transitPend := [], transit := [], oldTransit := false }

/-- The RMAs that hold TRANSIT have ended. -/
def transitDropped (s : State) : State := eraseRmas (bumpKey s 1 .empty none) (Rma.holdsTransit s)

/-- No TRANSIT value is held. -/
def Sec.noTransit (x : Sec) : Sec := { x with transitNext := none, transitPend := [], transit := [], oldTransit := false }

theorem SecKept.noTransit {s t : State} (h : SecKept s t) : SecKept (s.setSec s.sec.noTransit) (t.setSec t.sec.noTransit) :=
  congrArg (fun v : Sec × Nat => (v.1.noTransit, v.2)) h

theorem eraseTransit_eq (s : State) : eraseTransit s =
    closeTenantStrands ((transitDropped s).setSec (transitDropped s).sec.noTransit) true := rfl

theorem eraseTransit_keeps (s : State) : SecKept (s.setSec s.sec.transitErased) (eraseTransit s) := by
  have h : SecKept (bumpKey s 1 .empty none) (transitDropped s) := SecKept.refl.eraseRmas
  rw [eraseTransit_eq]
  exact h.noTransit.closeTenantStrands

/-! ## The strands and RMAs of the tenant (14 R380) -/

theorem strand_identity {x y : Strand} (h : { x with txq := [] } = { y with txq := [] }) :
    x.cfg = y.cfg ∧ x.session = y.session ∧ x.st = y.st :=
  ⟨(congrArg Strand.cfg h :), (congrArg Strand.session h :), (congrArg Strand.st h :)⟩

theorem emptied_identity (s : State) (n : Fin 2048) (st : StrandSt) (m : Fin 2048) :
    let t := s.setStrand n ((s.strand n).emptied st)
    (t.strand m).cfg = (s.strand m).cfg ∧ (t.strand m).session = (s.strand m).session ∧
      (t.strand m).st = if m = n then st else (s.strand m).st := by
  intro t
  by_cases e : m = n
  · subst e
    rw [State.setStrand_strand_same, if_pos rfl]
    exact ⟨rfl, rfl, rfl⟩
  · rw [State.setStrand_strand_ne _ _ _ _ e, if_neg e]
    exact ⟨rfl, rfl, rfl⟩

/-- A strand that closes stays the strand it was, and the others keep their state. -/
theorem closeStrand_identity (s : State) (n : Fin 2048) (st : Status) (m : Fin 2048) :
    ((closeStrand s n st).strand m).cfg = (s.strand m).cfg ∧
    ((closeStrand s n st).strand m).session = (s.strand m).session ∧
    ((closeStrand s n st).strand m).st = if m = n then .closed else (s.strand m).st := by
  have h : { (endGroupsOn (endRmasOn s n st) n st).strand m with txq := [] } = { s.strand m with txq := [] } := by
    rw [(Silent.refl (s := endRmasOn s n st)).endGroupsOn.strand, endRmasOn_strand]
  obtain ⟨h1, h2, h3⟩ := strand_identity h
  have hs : (closeStrand s n st).strand m = ((endGroupsOn (endRmasOn s n st) n st).setStrand n
      (((endGroupsOn (endRmasOn s n st) n st).strand n).emptied .closed)).strand m := by
    rw [closeStrand, State.strand, forgetStrand_twine, ← State.strand]
  obtain ⟨g1, g2, g3⟩ := emptied_identity (endGroupsOn (endRmasOn s n st) n st) n .closed m
  rw [hs]
  exact ⟨g1.trans h1, g2.trans h2, g3.trans (by rw [h3])⟩

/-- The strands of a list close. -/
def closeStrands (s : State) (l : List (Fin 2048)) : State := l.foldl (fun s n => closeStrand s n .keyErased) s

theorem closeStrands_cons (s : State) (n : Fin 2048) (l : List (Fin 2048)) :
    closeStrands s (n :: l) = closeStrands (closeStrand s n .keyErased) l := by
  unfold closeStrands
  rw [List.foldl_cons]

theorem closeStrands_identity (l : List (Fin 2048)) (m : Fin 2048) (s : State) :
    ((closeStrands s l).strand m).cfg = (s.strand m).cfg ∧ ((closeStrands s l).strand m).session = (s.strand m).session ∧
      ((closeStrands s l).strand m).st = if m ∈ l then .closed else (s.strand m).st := by
  induction l generalizing s with
  | nil => exact ⟨rfl, rfl, (if_neg (by simp)).symm⟩
  | cons n l ih =>
    obtain ⟨h1, h2, h3⟩ := ih (closeStrand s n .keyErased)
    obtain ⟨g1, g2, g3⟩ := closeStrand_identity s n .keyErased m
    rw [closeStrands_cons, h1, h2, h3, g1, g2, g3]
    refine ⟨rfl, rfl, ?_⟩
    by_cases hm : m ∈ l <;> by_cases e : m = n <;> simp [hm, e]

/-- The strands of the tenant that stand, or those to peers alone. -/
def tenantStrands (s : State) (peers : Bool) : List (Fin 2048) := (List.finRange 2048).filter fun n =>
  (s.strand n).cfg.owner == 2 && (s.strand n).st != .closed && !(peers && (s.strand n).session)

theorem closeTenantStrands_eq (s : State) (peers : Bool) :
    closeTenantStrands s peers = closeStrands s (tenantStrands s peers) := rfl

/-- The strands of the tenant that a close of them names are closed. -/
theorem closeTenantStrands_closed (s : State) (peers : Bool) (m : Fin 2048)
    (ho : ((closeTenantStrands s peers).strand m).cfg.owner = 2)
    (hp : peers = true → ((closeTenantStrands s peers).strand m).session = false) :
    ((closeTenantStrands s peers).strand m).st = .closed := by
  obtain ⟨h1, h2, h3⟩ := closeStrands_identity (tenantStrands s peers) m s
  rw [closeTenantStrands_eq] at ho hp ⊢
  rw [h1] at ho
  rw [h2] at hp
  rw [h3]
  split
  · rfl
  · next hm =>
    by_contra hc
    refine hm (List.mem_filter.mpr ⟨List.mem_finRange m, ?_⟩)
    cases peers
    · simp [ho, hc]
    · simp [ho, hc, hp]

theorem closeStrand_rmas_sub (s : State) (n : Fin 2048) (st : Status) :
    ∀ r ∈ (closeStrand s n st).twine.rmas, r ∈ s.twine.rmas := by
  intro r hr
  rw [closeStrand_rmas, endRmasOn, endRmas_twine] at hr
  exact (List.mem_filter.mp hr).1

theorem closeStrands_rmas_sub (l : List (Fin 2048)) (s : State) :
    ∀ r ∈ (closeStrands s l).twine.rmas, r ∈ s.twine.rmas := by
  induction l generalizing s with
  | nil => exact fun r hr => hr
  | cons n l ih =>
    intro r hr
    rw [closeStrands_cons] at hr
    exact closeStrand_rmas_sub s n .keyErased r (ih _ r hr)

theorem dropFrames_rmas (s : State) (rs : List Rma) : (dropFrames s rs).twine.rmas = s.twine.rmas := by
  unfold dropFrames
  dsimp only
  split <;> rfl

/-- The RMAs that a condition names are gone. -/
theorem eraseRmas_rmas (s : State) (f : Rma → Bool) : ∀ r ∈ (eraseRmas s f).twine.rmas, r ∈ s.twine.rmas ∧ f r = false := by
  intro r hr
  unfold eraseRmas at hr
  rw [endRmas_twine] at hr
  obtain ⟨hr, hall⟩ := List.mem_filter.mp hr
  rw [dropFrames_rmas] at hr
  refine ⟨hr, Bool.eq_false_iff.mpr fun hf => ?_⟩
  have := List.all_eq_true.mp hall r (List.mem_filter.mpr ⟨hr, hf⟩)
  simp at this

/-- After TRANSIT_ERASE no RMA is left on a strand of the tenant. -/
theorem eraseTransit_rmas (s : State) : ∀ r ∈ (eraseTransit s).twine.rmas, (s.strand r.strand).cfg.owner ≠ 2 := by
  intro r hr
  rw [eraseTransit_eq, closeTenantStrands_eq] at hr
  have hd := closeStrands_rmas_sub _ _ r hr
  rw [State.setSec_twine] at hd
  have hf : Rma.holdsTransit s r = false := (eraseRmas_rmas _ _ r hd).2
  simpa [Rma.holdsTransit, Strand.capturesTransit] using hf

/-! ## An authorisation submitted (16 R438 to R441) -/

/-- The `ASEQ` of an accepted order counts. -/
def seqTaken (s : State) (b : List Byte) : State := s.setSec { s.sec with lastAseq := authSeq b }

/-- The state in which an accepted order has taken effect. -/
def authActed (s : State) (b : List Byte) : State := authEffect (seqTaken s b) b

theorem checkAuth_ok {s : State} {b : List Byte} (h : authStatus s.sec b = .ok) (via : Option Nat) : checkAuth s via b =
    authRecord (authAnswer (authActed s b) via .ok) (authKind b) (authSeq b) .ok := by
  unfold checkAuth
  dsimp only
  rw [h]
  rfl

theorem checkAuth_fails {s : State} {b : List Byte} {st : Status} (hst : authStatus s.sec b = st) (h : st ≠ .ok)
    (via : Option Nat) : checkAuth s via b = authRecord (authAnswer s via st) (authKind b) (authSeq b) st := by
  unfold checkAuth
  dsimp only
  rw [hst, if_neg h]

theorem runAuth_waits {s : State} (h : s.sec.phase ≠ .none) (n : Nat) : runAuth n s = s := by
  cases n with
  | zero => rfl
  | succ n => exact if_pos h

theorem runAuth_one {s : State} {w : Option Nat × List Byte} (h : s.sec.phase = .none) (hw : s.sec.authWait = [w]) :
    runAuth 1 s = checkAuth (s.setSec { s.sec with authWait := [] }) w.1 w.2 := by
  unfold runAuth
  rw [if_neg (not_not_intro h), hw]
  rfl

/-- An authorisation that has been lodged waits last. -/
def lodgedAuth (s : State) (via : Option Nat) (b : List Byte) : State :=
  s.setSec { s.sec with authWait := s.sec.authWait ++ [(via, b)] }

theorem lodgedAuth_eq {s : State} (h : s.sec.authWait = []) (via : Option Nat) (b : List Byte) :
    lodgedAuth s via b = s.setSec { s.sec with authWait := [(via, b)] } := by
  rw [lodgedAuth, h, List.nil_append]

/-- One lodged while none waits is checked at once where no tenancy starts or ends. -/
theorem runAuth_lodged {s : State} (h : s.sec.authWait = []) (hp : s.sec.phase = .none) (via : Option Nat) (b : List Byte) :
    runAuth (s.sec.authWait.length + 1) (lodgedAuth s via b) = checkAuth s via b := by
  have hs : s.setSec { s.sec with authWait := [] } = s := by
    rw [← h]
    rfl
  rw [lodgedAuth_eq h, h]
  exact (runAuth_one (s := s.setSec { s.sec with authWait := [(via, b)] }) hp rfl).trans (congrArg (checkAuth · via b) hs)

/-- One lodged while a tenancy starts or ends waits. -/
theorem runAuth_lodged_waits {s : State} (h : s.sec.authWait = []) (hp : s.sec.phase ≠ .none) (via : Option Nat)
    (b : List Byte) : runAuth (s.sec.authWait.length + 1) (lodgedAuth s via b) =
      s.setSec { s.sec with authWait := [(via, b)] } := by
  have hl : (lodgedAuth s via b).sec.phase ≠ .none := hp
  rw [runAuth_waits hl, lodgedAuth_eq h]

theorem doSubmit_lodges {s : State} (ha : attests s = true) (h : s.sec.authWait = []) (bytes : List Byte) :
    doSubmit none bytes s = runAuth (s.sec.authWait.length + 1) (lodgedAuth s none (cellsRead s.mgmt.win 0x8040000 384)) :=
  if_neg (by simp [ha, h])

theorem doSubmit_unknown {s : State} {id : Nat} (hs : sessionOf s id = none) (bytes : List Byte) :
    doSubmit (some id) bytes s = s := by
  unfold doSubmit
  dsimp only
  rw [hs]

section
variable {s : State} {id : Nat} {x : Session} {bytes : List Byte}

theorem doSubmit_format (hs : sessionOf s id = some x) (h : spdmReaches s = true) (hr : x.ready = true)
    (hp : x.party ≠ none) (hb : bytes.length ≠ 384) : doSubmit (some id) bytes s = authAnswer s (some id) .format := by
  unfold doSubmit
  dsimp only
  rw [hs]
  exact (if_neg (by simp [h, hr, hp])).trans (if_pos hb)

theorem doSubmit_session (hs : sessionOf s id = some x) (h : spdmReaches s = true) (hr : x.ready = true)
    (hp : x.party ≠ none) (hb : bytes.length = 384) :
    doSubmit (some id) bytes s = runAuth (s.sec.authWait.length + 1) (lodgedAuth s (some id) bytes) := by
  unfold doSubmit
  dsimp only
  rw [hs]
  exact (if_neg (by simp [h, hr, hp])).trans (if_neg (not_not_intro hb))

end

/-! ## The effects, kind by kind -/

section
variable {s : State} {b : List Byte}

/-- An accepted order that does not start a tenancy leaves the counter and the last accepted `ASEQ`. -/
theorem authEffect_counts (h : authKind b ≠ 0x01) :
    (authEffect s b).sec.lastAseq = s.sec.lastAseq ∧ (authEffect s b).sec.ctr = s.sec.ctr := by
  unfold authEffect
  split
  case h_1 h1 => exact absurd h1 h
  case h_2 => exact ⟨(endTenancy_keeps s b).keeps (f := Sec.lastAseq) fun _ => rfl,
    (endTenancy_keeps s b).keeps (f := Sec.ctr) fun _ => rfl⟩
  case h_3 => exact ⟨rfl, rfl⟩
  case h_4 => exact ⟨rfl, rfl⟩
  case h_5 => exact ⟨rfl, rfl⟩
  case h_6 =>
    split
    · rw [endOverride_sec]
      exact ⟨rfl, rfl⟩
    · exact ⟨(beginOverride_keeps s _).keeps (f := Sec.lastAseq) fun _ => rfl,
        (beginOverride_keeps s _).keeps (f := Sec.ctr) fun _ => rfl⟩
  case h_7 => exact ⟨rfl, rfl⟩
  case h_8 =>
    unfold activateTransit
    split <;> exact ⟨rfl, rfl⟩
  case h_9 =>
    unfold withdrawConsent
    dsimp only
    split <;> exact ⟨rfl, rfl⟩
  case h_10 => exact ⟨(eraseTransit_keeps s).keeps (f := Sec.lastAseq) fun _ => rfl,
    (eraseTransit_keeps s).keeps (f := Sec.ctr) fun _ => rfl⟩
  case h_11 => exact ⟨rfl, rfl⟩
  case h_12 => exact ⟨rfl, rfl⟩

/-- TENANCY_START. -/
theorem authEffect_start (h : authKind b = 0x01) : (authEffect s b).sec.phase = .starting ∧
    (authEffect s b).sec.tnKey = slice b 0x40 0x71 ∧ ((authEffect s b).sec.ctr = s.sec.ctr ∧
      (authEffect s b).sec.lastAseq = s.sec.lastAseq ∨
      (authEffect s b).sec.ctr = s.sec.ctr + 1 ∧ (authEffect s b).sec.lastAseq = 0) := by
  have e : authEffect s b = startTenancy s b := by
    unfold authEffect
    rw [h]
    rfl
  rw [e]
  unfold startTenancy startCtr
  dsimp only
  split
  · exact ⟨rfl, rfl, .inr ⟨rfl, rfl⟩⟩
  · exact ⟨rfl, rfl, .inl ⟨rfl, rfl⟩⟩

/-- TENANCY_END. -/
theorem authEffect_end (h : authKind b = 0x02) : (authEffect s b).sec.phase = .draining := by
  have e : authEffect s b = endTenancy s b := by
    unfold authEffect
    rw [h]
    rfl
  rw [e]
  exact (endTenancy_keeps s b).keeps (f := Sec.phase) fun _ => rfl

/-- AIRFLOW_OVERRIDE. -/
theorem authEffect_override (h : authKind b = 0x06) : let secs := fieldAt b 0x40 0 31
    (authEffect s b).sec.override = decide (secs ≠ 0) ∧
      (secs ≠ 0 → (authEffect s b).sec.overrideEnd = s.now + secs * 1000000000) := by
  have e : authEffect s b = if fieldAt b 0x40 0 31 = 0 then endOverride s else beginOverride s (fieldAt b 0x40 0 31) := by
    unfold authEffect
    rw [h]
    rfl
  intro secs
  rw [e]
  by_cases h0 : secs = 0
  · rw [if_pos h0, endOverride_sec]
    exact ⟨by simp [h0], fun hn => absurd h0 hn⟩
  · rw [if_neg h0]
    exact ⟨((beginOverride_keeps s _).keeps (f := Sec.override) fun _ => rfl).trans (by simp [h0]),
      fun _ => (beginOverride_keeps s _).keeps (f := Sec.overrideEnd) fun _ => rfl⟩

/-- TRANSIT_ACTIVATE. -/
theorem authEffect_activate (h : authKind b = 0x08) {v : List Byte} (hv : s.sec.transitNext = some v) :
    (authEffect s b).sec.transitNext = none ∧ (authEffect s b).sec.transitPend = s.sec.transitPend ++ [v] ∧
      ((authEffect s b).sec.keys.get 1).st = .draining := by
  have e : authEffect s b = activateTransit s := by
    unfold authEffect
    rw [h]
    rfl
  rw [e, activateTransit, hv]
  exact ⟨rfl, rfl, congrArg KeySlot.st (get_upd_same ..)⟩

/-- CONSENT_WITHDRAW. -/
theorem authEffect_withdraw (h : authKind b = 0x09) :
    let d := fieldAt b 0x40 0 0 = 1
    let p := fieldAt b 0x40 1 1 = 1
    let t := authEffect s b
    (t.sec.debug = true ↔ s.sec.debug = true ∧ ¬ d) ∧ (t.sec.profile = true ↔ s.sec.profile = true ∧ ¬ p) ∧
      (d ∨ p → t.sec.attached = false ∧ t.sec.trace = []) := by
  have e : authEffect s b = withdrawConsent s b := by
    unfold authEffect
    rw [h]
    rfl
  intro d p t
  have hd : (fieldAt b 0x40 0 0 == 1) = decide d := rfl
  have hp : (fieldAt b 0x40 1 1 == 1) = decide p := rfl
  have ht : t = withdrawConsent s b := e
  rw [ht, withdrawConsent, hd, hp]
  by_cases h1 : d <;> by_cases h2 : p <;> simp [h1, h2, Sec.detached]

/-- The orders that change one register: consent, a lodged kernel, a value held, the operator's key. -/
theorem authEffect_registers :
    (authKind b = 0x03 → (authEffect s b).sec.debug = true) ∧ (authKind b = 0x04 → (authEffect s b).sec.profile = true) ∧
    (authKind b = 0x05 → ∃ l, (authEffect s b).sec.lodged = s.sec.lodged ++ [l] ∧ l.aseq = authSeq b) ∧
    (authKind b = 0x07 → (authEffect s b).sec.transitNext = some (slice b 0x40 0x50)) ∧
    (authKind b = 0x0B → (authEffect s b).sec.opKey = some (slice b 0x40 0x71)) := by
  unfold authEffect
  refine ⟨fun h => ?_, fun h => ?_, fun h => ?_, fun h => ?_, fun h => ?_⟩
  · rw [h]
    rfl
  · rw [h]
    rfl
  · rw [h]
    exact ⟨_, rfl, rfl⟩
  · rw [h]
    rfl
  · rw [h]
    rfl

/-- TRANSIT_ERASE. -/
theorem authEffect_erase (h : authKind b = 0x0A) : let t := authEffect s b
    (t.sec.keys.get 1).st = .empty ∧ t.sec.transitNext = none ∧ t.sec.transitPend = [] ∧
      (∀ n, (t.strand n).cfg.owner = 2 → (t.strand n).session = false → (t.strand n).st = .closed) ∧
      ∀ r ∈ t.twine.rmas, (s.strand r.strand).cfg.owner ≠ 2 := by
  have e : authEffect s b = eraseTransit s := by
    unfold authEffect
    rw [h]
    rfl
  intro t
  have ht : t = eraseTransit s := e
  have hk := eraseTransit_keeps s
  rw [ht]
  refine ⟨?_, hk.keeps (f := Sec.transitNext) fun _ => rfl, hk.keeps (f := Sec.transitPend) fun _ => rfl, ?_,
    eraseTransit_rmas s⟩
  · rw [hk.keeps (f := Sec.keys) fun _ => rfl]
    exact congrArg KeySlot.st (get_upd_same ..)
  · rw [eraseTransit_eq]
    exact fun n ho hn => closeTenantStrands_closed _ true n ho fun _ => hn

end

/-! ## The statement -/

/-- What the record of an authorisation leaves. -/
theorem authRecord_leaves (s : State) (kind aseq : Nat) (st : Status) : (authRecord s kind aseq st).sec = s.sec ∧
    (authRecord s kind aseq st).mem = s.mem ∧ (authRecord s kind aseq st).queues = s.queues ∧
    (authRecord s kind aseq st).twine.rmas = s.twine.rmas := by
  unfold authRecord
  obtain ⟨f, d, v, e⟩ := record_form s 0x0B (some st) 0 kind [aseq]
  rw [e]
  exact ⟨rfl, rfl, rfl, rfl⟩

theorem authRecord_strand (s : State) (kind aseq : Nat) (st : Status) (n : Fin 2048) :
    { (authRecord s kind aseq st).strand n with txq := [] } = { s.strand n with txq := [] } := by
  unfold authRecord record
  exact (Silent.refl (s := s)).addRecord.strand n

/-- An order accepted from the lodging area, with its answer and its record. -/
def authDone (s : State) (b : List Byte) : State :=
  authRecord ((authActed s b).setSec { (authActed s b).sec with authRes := .ok }) (authKind b) (authSeq b) .ok

theorem authDone_sec (s : State) (b : List Byte) : (authDone s b).sec = { (authActed s b).sec with authRes := .ok } :=
  (authRecord_leaves ..).1

/-- TRANSIT_ERASE accepted. -/
theorem authDone_erases {s : State} {b : List Byte} (h : authKind b = 0x0A) : let t := authDone s b
    (t.sec.keys.get 1).st = .empty ∧ t.sec.transitNext = none ∧ t.sec.transitPend = [] ∧
      (∀ n, (t.strand n).cfg.owner = 2 → (t.strand n).session = false → (t.strand n).st = .closed) ∧
      ∀ r ∈ t.twine.rmas, (s.strand r.strand).cfg.owner ≠ 2 := by
  obtain ⟨h1, h2, h3, h4, h5⟩ := authEffect_erase (s := seqTaken s b) h
  intro t
  have hsec : t.sec = { (authActed s b).sec with authRes := .ok } := authDone_sec s b
  have hrma : t.twine.rmas = (authActed s b).twine.rmas := (authRecord_leaves ..).2.2.2
  rw [hsec, hrma]
  refine ⟨h1, h2, h3, fun n ho hn => ?_, h5⟩
  have hst : { t.strand n with txq := [] } = { (authActed s b).strand n with txq := [] } := authRecord_strand ..
  have e1 : (t.strand n).cfg = ((authActed s b).strand n).cfg := (congrArg Strand.cfg hst :)
  have e2 : (t.strand n).session = ((authActed s b).strand n).session := (congrArg Strand.session hst :)
  have e3 : (t.strand n).st = ((authActed s b).strand n).st := (congrArg Strand.st hst :)
  rw [e1] at ho
  rw [e2] at hn
  exact e3.trans (h4 n ho hn)

/-- An order accepted from the lodging area takes the effect of its kind. -/
theorem authDone_acts (s : State) (b : List Byte) : let t := authDone s b
    t.sec.authRes = .ok ∧ (authKind b ≠ 0x01 → t.sec.lastAseq = authSeq b ∧ t.sec.ctr = s.sec.ctr) ∧
    (authKind b = 0x01 → t.sec.phase = .starting ∧ t.sec.tnKey = slice b 0x40 0x71 ∧
      (t.sec.ctr = s.sec.ctr ∧ t.sec.lastAseq = authSeq b ∨ t.sec.ctr = s.sec.ctr + 1 ∧ t.sec.lastAseq = 0)) ∧
    (authKind b = 0x02 → t.sec.phase = .draining) ∧
    (authKind b = 0x03 → t.sec.debug = true) ∧
    (authKind b = 0x04 → t.sec.profile = true) ∧
    (authKind b = 0x05 → ∃ l, t.sec.lodged = s.sec.lodged ++ [l] ∧ l.aseq = authSeq b) ∧
    (authKind b = 0x06 → let secs := fieldAt b 0x40 0 31
      t.sec.override = decide (secs ≠ 0) ∧ (secs ≠ 0 → t.sec.overrideEnd = s.now + secs * 1000000000)) ∧
    (authKind b = 0x07 → t.sec.transitNext = some (slice b 0x40 0x50)) ∧
    (authKind b = 0x08 → ∀ v, s.sec.transitNext = some v → t.sec.transitNext = none ∧
      t.sec.transitPend = s.sec.transitPend ++ [v] ∧ (t.sec.keys.get 1).st = .draining) ∧
    (authKind b = 0x09 →
      let d := fieldAt b 0x40 0 0 = 1
      let p := fieldAt b 0x40 1 1 = 1
      (t.sec.debug = true ↔ s.sec.debug = true ∧ ¬ d) ∧ (t.sec.profile = true ↔ s.sec.profile = true ∧ ¬ p) ∧
      (d ∨ p → t.sec.attached = false ∧ t.sec.trace = [])) := by
  intro t
  have hsec : t.sec = { (authActed s b).sec with authRes := .ok } := authDone_sec s b
  rw [hsec]
  obtain ⟨h3, h4, h5, h7, -⟩ := authEffect_registers (s := seqTaken s b) (b := b)
  exact ⟨rfl, fun h => authEffect_counts h, fun h => authEffect_start h, fun h => authEffect_end h, h3, h4, h5,
    fun h => authEffect_override h, h7, fun h v hv => authEffect_activate h hv, fun h => authEffect_withdraw h⟩

theorem authActed_now (s : State) (b : List Byte) : (authActed s b).now = s.now :=
  (Kept.refl (s := seqTaken s b)).authEffect.2.1

/-- An authorisation checked for a session is answered within it. -/
theorem checkAuth_session (s : State) (id : Nat) (b : List Byte) : ∃ u, checkAuth s (some id) b =
    authRecord (sessionSay u id 1 [(authStatus s.sec b).code]) (authKind b) (authSeq b) (authStatus s.sec b) ∧
      u.now = s.now ∧ (authStatus s.sec b ≠ .ok → u = s) := by
  by_cases h : authStatus s.sec b = .ok
  · refine ⟨authActed s b, ?_, authActed_now s b, fun hn => absurd h hn⟩
    rw [checkAuth_ok h, h]
    rfl
  · exact ⟨s, checkAuth_fails rfl h _, rfl, fun _ => rfl⟩

/-- The statement's clauses on an authorisation from the lodging area. -/
theorem lodged_holds {s : State} (bytes : List Byte) (ha : attests s = true) (hw : s.sec.authWait = []) :
    let b := cellsRead s.mgmt.win 0x8040000 384
    (s.sec.phase ≠ .none → exec (.submit none bytes) s = .next { s with sec := { s.sec with authWait := [(none, b)] } }) ∧
    (s.sec.phase = .none → exec (.submit none bytes) s = .next (checkAuth s none b)) := by
  intro b
  have h := doSubmit_lodges ha hw bytes
  exact ⟨fun hp => congrArg Host.Outcome.next (h.trans (runAuth_lodged_waits hw hp ..)),
    fun hp => congrArg Host.Outcome.next (h.trans (runAuth_lodged hw hp ..))⟩

/-- The statement's clauses on an authorisation that a session submits. -/
theorem submitted_holds {s : State} {id : Nat} {x : Session} (bytes : List Byte) (hw : s.sec.authWait = [])
    (hs : sessionOf s id = some x) (h : spdmReaches s = true) (hr : x.ready = true) (hp : x.party ≠ none) :
    let inside (u : State) (body : List Nat) : State :=
      sendSpdm u (.session id 1 body (bareHdr 0x19 s.now (Config.spdmLen 1 body) 0))
    (bytes.length ≠ 384 →
      exec (.submit (some id) bytes) s = .next (inside (spdmWakes s) [Status.format.code])) ∧
    (bytes.length = 384 → s.sec.phase ≠ .none → ∃ t, exec (.submit (some id) bytes) s = .next t ∧
      t.sec = { s.sec with authWait := [(some id, bytes)] } ∧ t.out = s.out) ∧
    (bytes.length = 384 → s.sec.phase = .none → ∃ u, exec (.submit (some id) bytes) s =
        .next (authRecord (inside u [(authStatus s.sec bytes).code]) (authKind bytes) (authSeq bytes)
          (authStatus s.sec bytes)) ∧
      (authStatus s.sec bytes ≠ .ok → u.sec = s.sec ∧ u.out = s.out)) := by
  intro inside
  have hsec := spdmWakes_sec s
  have hs' : sessionOf (spdmWakes s) id = some x := (sessionOf_spdmWakes ..).trans hs
  have h' : spdmReaches (spdmWakes s) = true := (spdmWakes_reaches s).trans h
  have hw' : (spdmWakes s).sec.authWait = [] := by rw [hsec, hw]
  refine ⟨fun hb => ?_, fun hb hph => ?_, fun hb hph => ?_⟩
  · exact congrArg Host.Outcome.next
      ((doSubmit_format hs' h' hr hp hb).trans (sessionSay_eq (spdmWakes_now s) ..))
  · refine ⟨_, congrArg Host.Outcome.next ((doSubmit_session hs' h' hr hp hb).trans
      (runAuth_lodged_waits hw' (by rwa [hsec]) ..)), ?_, spdmWakes_out s⟩
    rw [hsec]
    rfl
  · obtain ⟨u, e, hn, hu⟩ := checkAuth_session (spdmWakes s) id bytes
    rw [hsec] at e hu
    refine ⟨u, congrArg Host.Outcome.next ((doSubmit_session hs' h' hr hp hb).trans
      ((runAuth_lodged hw' (by rwa [hsec]) ..).trans (e.trans ?_))), fun hne => ?_⟩
    · rw [sessionSay_eq (hn.trans (spdmWakes_now s))]
    · rw [hu hne]
      exact ⟨hsec, spdmWakes_out s⟩

/-- Settles O51: an order lodged while none waits is checked at once or waits (`runAuth_lodged`); one that passes has the
effect of its kind (`authDone_acts`), one that fails has its status alone. -/
theorem authorisation : Obligations.Authorisation := by
  intro id x bytes s ha hw b inside
  obtain ⟨h1, h2⟩ := lodged_holds bytes ha hw
  refine ⟨h1, fun hs => ?_, fun hs h hr hp => submitted_holds bytes hw hs h hr hp, fun hph st hst hne => ?_, fun hph hok => ?_⟩
  · exact congrArg Host.Outcome.next (doSubmit_unknown ((sessionOf_spdmWakes ..).trans hs) bytes)
  · obtain ⟨e1, e2, e3, -⟩ := authRecord_leaves (s.setSec { s.sec with authRes := st }) (authKind b) (authSeq b) st
    exact ⟨_, (h2 hph).trans (congrArg Host.Outcome.next (checkAuth_fails hst hne none)), e1, e2, e3⟩
  · obtain ⟨r0, r1, r2, r3, r4, r5, r6, r7, r8, r9, r10⟩ := authDone_acts s b
    refine ⟨authDone s b, (h2 hph).trans (congrArg Host.Outcome.next (checkAuth_ok hok none)), r0, r1, r2, r3, r4, r5, r6, r7,
      r8, r9, r10, fun h => authDone_erases h, fun h => ?_⟩
    rw [authDone_sec]
    exact authEffect_registers.2.2.2.2 h

end Sys2Proof.Machine
end

section
/-!
PROOFS. The start and the end of a tenancy (16; O52).
-/

namespace Sys2Proof.Machine

/-- What the creel leaves: the spindles, the tables, the strands, and of each queue its state, its ring and whether it holds
descriptors. -/
def ringsView (s : State) :=
  (s.spindles, s.trans, s.twine, fun q => ((s.q q).st, (s.q q).head, (s.q q).tail, (s.q q).descs.isEmpty))

/-- From `s` to `t` the parts of `ringsView` have not changed. -/
def RingsKept (s t : State) : Prop := ringsView t = ringsView s

namespace RingsKept

section
variable {s t u : State}

theorem refl : RingsKept s s := rfl
theorem trans (h : RingsKept s t) (h' : RingsKept t u) : RingsKept s u := Eq.trans h' h
theorem setSk {k : Fin 8} {x : Skein} (h : RingsKept s t) : RingsKept s (t.setSk k x) := h
theorem setMem {x : Mem} (h : RingsKept s t) : RingsKept s (t.setMem x) := h

theorem ite {c : Prop} [Decidable c] (ha : c → RingsKept s t) (hb : ¬ c → RingsKept s u) :
    RingsKept s (if c then t else u) := by
  split
  · exact ha ‹_›
  · exact hb ‹_›

theorem foldl {β : Type} {g : State → β → State} {l : List β} (h : RingsKept s t)
    (hg : ∀ {u : State} {b : β}, RingsKept s u → RingsKept s (g u b)) : RingsKept s (l.foldl g t) := by
  induction l generalizing t with
  | nil => exact h
  | cons b l ih => exact ih (hg h)

end

end RingsKept

/-- A queue may change in all but its state, its ring and whether it holds descriptors. -/
theorem RingsKept.setQueue {s t : State} {q : Fin 4096} {x : Queue} (h : RingsKept s t) (hs : x.st = (t.q q).st)
    (hh : x.head = (t.q q).head) (ht : x.tail = (t.q q).tail) (hd : x.descs.isEmpty = (t.q q).descs.isEmpty) :
    RingsKept s (t.setQ q x) := by
  refine RingsKept.trans h (Prod.ext rfl (Prod.ext rfl (Prod.ext rfl (funext fun p => ?_))))
  by_cases e : p = q
  · subst e
    simp only [ringsView, State.setQ_q_same, hs, hh, ht, hd]
  · simp only [ringsView, State.setQ_q_ne _ _ _ _ e]

section
variable {s t : State}

theorem RingsKept.setDesc {q : Fin 4096} {seq : Nat} {f : Desc → Desc}
    (h : RingsKept s t) : RingsKept s (setDesc t q seq f) := by
  unfold Machine.setDesc
  exact h.setQueue rfl rfl rfl (by simp)

theorem RingsKept.finish {q : Fin 4096} {seq : Nat} {st : Status} {flags : Flags} {code : Nat} {detail : Nat}
    {value : Nat} (h : RingsKept s t) : RingsKept s (finish t q seq st flags code detail value) := by
  unfold Machine.finish
  exact h.setDesc

theorem RingsKept.ends {q : Fin 4096} {seq : Nat} {st : Status}
    (h : RingsKept s t) : RingsKept s (ends t q seq st) := by
  unfold Machine.ends
  exact h.finish

theorem RingsKept.bindEnds {k : Fin 8} {w : BindWait} {st : Status}
    (h : RingsKept s t) : RingsKept s (bindEnds t k w st) := by
  unfold Machine.bindEnds
  exact h.setSk.ends

theorem RingsKept.setBinding {k : Fin 8} {b : Binding} {x : Option Binding}
    (h : RingsKept s t) : RingsKept s (setBinding t k b x) := by
  unfold Machine.setBinding
  exact h.setSk

theorem RingsKept.evict {k : Fin 8} {b : Binding} {blocks : List (Fin 4096 × Nat)}
    {evictor : Option (Fin 4096 × Nat)}
    (h : RingsKept s t) : RingsKept s (evict t k b blocks evictor) := by
  unfold Machine.evict
  dsimp only
  refine RingsKept.setSk ?_
  refine RingsKept.setQueue ?_ rfl rfl rfl rfl
  exact h.setBinding

theorem RingsKept.bindAllocate {k : Fin 8} {w : BindWait} {c : CreelBody}
    (h : RingsKept s t) : RingsKept s (bindAllocate t k w c) := by
  unfold Machine.bindAllocate
  exact .ite (fun _ => h.setSk.bindEnds.evict) fun _ => h.setSk.bindEnds

theorem RingsKept.bindStep {n : Nat} {k : Fin 8} {w : BindWait} {b : CreelBody}
    (h : RingsKept s t) : RingsKept s (bindStep n t k w b) := by
  induction n generalizing t with
  | zero => exact h
  | succ n ih =>
    unfold Machine.bindStep
    refine .ite (fun _ => h.bindEnds) fun _ => .ite (fun _ => h.bindEnds) fun _ => .ite (fun _ => h) fun _ =>
      .ite (fun _ => ?_) fun _ => .ite (fun _ => .ite (fun _ => h) fun _ => h.bindAllocate) fun _ =>
        .ite (fun _ => h) fun _ => ?_
    · split
      · exact ih h.evict
      · exact h.bindEnds
    · split
      · exact h.evict
      · exact h.bindEnds

theorem RingsKept.bindRetry {k : Fin 8} (h : RingsKept s t) : RingsKept s (bindRetry t k) := by
  unfold Machine.bindRetry
  refine h.foldl fun h' => ?_
  split
  · exact h'.bindStep
  · exact h'

theorem RingsKept.bindRetryAll (h : RingsKept s t) : RingsKept s (bindRetryAll t) := by
  unfold Machine.bindRetryAll
  exact h.foldl RingsKept.bindRetry

theorem RingsKept.settleCreel (h : RingsKept s t) : RingsKept s (settleCreel t) := by
  unfold Machine.settleCreel
  exact h.setMem

theorem RingsKept.keeps_spindles (h : RingsKept s t) : t.spindles = s.spindles := congrArg (·.1) h
theorem RingsKept.keeps_trans (h : RingsKept s t) : t.trans = s.trans := congrArg (·.2.1) h
theorem RingsKept.keeps_twine (h : RingsKept s t) : t.twine = s.twine := congrArg (·.2.2.1) h

end

theorem RingsKept.queue {s t : State} (h : RingsKept s t) (q : Fin 4096) : (t.q q).st = (s.q q).st ∧
    (t.q q).head = (s.q q).head ∧ (t.q q).tail = (s.q q).tail ∧ (t.q q).descs.isEmpty = (s.q q).descs.isEmpty := by
  have hq : (ringsView t).2.2.2 q = (ringsView s).2.2.2 q := congrFun (congrArg (·.2.2.2) h) q
  simpa only [ringsView, Prod.mk.injEq] using hq

/-! ## The keys of a tenancy that starts (16 R442) -/

/-- The counter has shown its new value. -/
theorem endCtr_shows (s : State) : (endCtr s).sec.ctr = (if s.sec.ctrDue = true then s.sec.ctr + 1 else s.sec.ctr) ∧
    (endCtr s).sec.tenancyOn = s.sec.tenancyOn ∧ (endCtr s).sec.authWait = s.sec.authWait ∧
    (endCtr s).sec.sessions = s.sec.sessions ∧ (endCtr s).sec.override = s.sec.override := by
  unfold endCtr
  by_cases h : s.sec.ctrDue = true
  · rw [if_pos h, if_pos h]
    exact ⟨rfl, rfl, rfl, rfl, rfl⟩
  · rw [if_neg h, if_neg h]
    exact ⟨rfl, rfl, rfl, rfl, rfl⟩

theorem endCtr_trans (s : State) : (endCtr s).trans = s.trans := by
  unfold endCtr
  split <;> rfl

/-- TENANT and TRANSIT loaded, stage 1 empty. -/
def keysLoaded (s : State) : State :=
  let s := bumpKey s 0 .loaded (some (tenantKey s.sec.ctr))
  let s := bumpKey s 1 .loaded (some (transitKey s.sec.tnKey s.sec.transit))
  let s := cryptoErase s
  (s.setTrans { s.trans with s1 := [], gen1 := 0 }).setSec { s.sec with keysDue := none, debug := false, profile := false }

theorem loadKeys_due {s : State} (h : s.sec.keysDue.isSome = true) : loadKeys s = keysLoaded (endCtr s) :=
  if_neg (by simp [Option.isSome_iff_ne_none.mp h])

theorem loadKeys_none {s : State} (h : s.sec.keysDue = none) : loadKeys s = s := if_pos (by simp [h])

theorem keysLoaded_loads (s : State) : ((keysLoaded s).sec.keys.get 0).st = .loaded ∧
    ((keysLoaded s).sec.keys.get 1).st = .loaded ∧ (keysLoaded s).trans.s1 = [] ∧ (keysLoaded s).trans.gen1 = 0 ∧
    (keysLoaded s).trans.s2 = s.trans.s2 ∧ (keysLoaded s).sec.keysDue = none ∧
    (keysLoaded s).sec.tenancyOn = s.sec.tenancyOn ∧ (keysLoaded s).sec.ctr = s.sec.ctr ∧
    (keysLoaded s).sec.authWait = s.sec.authWait := by
  refine ⟨?_, congrArg KeySlot.st (get_upd_same ..), rfl, rfl, rfl, rfl, rfl, rfl, rfl⟩
  exact (congrArg KeySlot.st (get_upd_ne _ _ (by decide))).trans (congrArg KeySlot.st (get_upd_same ..))

/-- The load of the keys when they are due. -/
theorem loadKeys_loads {s : State} (h : s.sec.keysDue.isSome = true) : ((loadKeys s).sec.keys.get 0).st = .loaded ∧
    ((loadKeys s).sec.keys.get 1).st = .loaded ∧ (loadKeys s).trans.s1 = [] ∧ (loadKeys s).trans.gen1 = 0 ∧
    (loadKeys s).trans.s2 = s.trans.s2 ∧ (loadKeys s).sec.keysDue = none ∧
    (loadKeys s).sec.tenancyOn = s.sec.tenancyOn ∧
    (loadKeys s).sec.ctr = (if s.sec.ctrDue = true then s.sec.ctr + 1 else s.sec.ctr) ∧
    (loadKeys s).sec.authWait = s.sec.authWait := by
  obtain ⟨h1, h2, h3, h4, h5, h6, h7, h8, h9⟩ := keysLoaded_loads (endCtr s)
  obtain ⟨e1, e2, e3, -⟩ := endCtr_shows s
  rw [loadKeys_due h, h5, h7, h8, h9, endCtr_trans, e1, e2, e3]
  exact ⟨h1, h2, h3, h4, rfl, h6, rfl, rfl, rfl⟩

/-- The counter at an instant at which it may show its new value. -/
def ctrTick (s : State) : State := if s.sec.ctrDue && Config.ctrShows s.now then bumpCtr s else s

theorem ctrTick_keeps (s : State) : (ctrTick s).sec.keysDue = s.sec.keysDue ∧ (ctrTick s).now = s.now ∧
    (ctrTick s).sec.tenancyOn = s.sec.tenancyOn ∧
    (if (ctrTick s).sec.ctrDue = true then (ctrTick s).sec.ctr + 1 else (ctrTick s).sec.ctr) =
      if s.sec.ctrDue = true then s.sec.ctr + 1 else s.sec.ctr := by
  unfold ctrTick
  by_cases h : (s.sec.ctrDue && Config.ctrShows s.now) = true
  · have hd : s.sec.ctrDue = true := (Bool.and_eq_true_iff.mp h).1
    rw [if_pos h, if_pos hd]
    exact ⟨rfl, rfl, rfl, rfl⟩
  · rw [if_neg h]
    exact ⟨rfl, rfl, rfl, rfl⟩

theorem secTick_loads {s : State} {t0 : Nat} (hk : s.sec.keysDue = some t0) (ht : t0 + 500000 ≤ s.now) :
    secTick s = loadKeys (ctrTick s) := by
  obtain ⟨h1, h2, -⟩ := ctrTick_keeps s
  have e : secTick s = match (ctrTick s).sec.keysDue with
    | some t => if t + 500000 ≤ (ctrTick s).now then loadKeys (ctrTick s) else ctrTick s
    | none => ctrTick s := rfl
  rw [e, h1, hk, h2]
  exact if_pos ht

/-! ## The start of a tenancy -/

/-- With none that waits nothing is checked. -/
theorem runAuth_none {s : State} (h : s.sec.authWait = []) (n : Nat) : runAuth n s = s := by
  cases n with
  | zero => rfl
  | succ n =>
    unfold runAuth
    split
    · rfl
    · rw [h]

/-- What starts and ends a tenancy is recorded. -/
def authNowRecord (s : State) : State := authRecord s s.sec.authNow.1 s.sec.authNow.2 .ok

theorem authNowRecord_keeps (s : State) : (authNowRecord s).sec = s.sec ∧ (authNowRecord s).trans = s.trans ∧
    (authNowRecord s).queues = s.queues ∧ (authNowRecord s).spindles = s.spindles ∧
    (authNowRecord s).twine.viol = s.twine.viol := by
  unfold authNowRecord authRecord
  obtain ⟨f, d, v, e⟩ := record_form s 0x0B (some .ok) 0 s.sec.authNow.1 [s.sec.authNow.2]
  rw [e]
  exact ⟨rfl, rfl, rfl, rfl, rfl⟩

theorem cleared_leaves (s : State) : (discardStaged (resetCounters s)).trans = s.trans ∧
    (discardStaged (resetCounters s)).twine.viol = 0 := ⟨rfl, rfl⟩

/-- The tenancy in force, before its record. -/
def tenancyStarted (s : State) : State :=
  let s := discardStaged (resetCounters (loadKeys s))
  let s := s.setTrans { s.trans with footprint := s.trans.s2.map fun g => footEntry s g.out g.size }
  s.setSec { s.sec with tenancyOn := true, phase := .none, transitNext := none, transitPend := [], oldTransit := false }

theorem doTenancyOnSet_starts {s : State} (h : s.sec.phase = .starting)
    (hw : (authNowRecord (tenancyStarted s)).sec.authWait = []) :
    doTenancyOnSet s = authNowRecord (tenancyStarted s) := by
  refine (if_neg (not_not_intro h)).trans ?_
  exact runAuth_none hw _

/-- What the tenancy's start leaves as the load of its keys has made it. -/
theorem tenancyStarted_starts (s : State) : (tenancyStarted s).sec.tenancyOn = true ∧
    (tenancyStarted s).sec.phase = .none ∧ (tenancyStarted s).trans.s2 = (loadKeys s).trans.s2 ∧
    (tenancyStarted s).twine.viol = 0 ∧ (tenancyStarted s).sec.keys = (loadKeys s).sec.keys ∧
    (tenancyStarted s).trans.s1 = (loadKeys s).trans.s1 ∧ (tenancyStarted s).trans.gen1 = (loadKeys s).trans.gen1 ∧
    (tenancyStarted s).sec.ctr = (loadKeys s).sec.ctr ∧
    (tenancyStarted s).sec.authWait = (loadKeys s).sec.authWait := by
  unfold tenancyStarted
  have hk : SecKept (loadKeys s) (discardStaged (resetCounters (loadKeys s))) := SecKept.refl.resetCounters.discardStaged
  obtain ⟨ht, hv⟩ := cleared_leaves (loadKeys s)
  generalize discardStaged (resetCounters (loadKeys s)) = u at hk ht hv ⊢
  exact ⟨rfl, rfl, (congrArg Trans.s2 ht :), hv, hk.keeps (f := Sec.keys) fun _ => rfl, (congrArg Trans.s1 ht :),
    (congrArg Trans.gen1 ht :), hk.keeps (f := Sec.ctr) fun _ => rfl, hk.keeps (f := Sec.authWait) fun _ => rfl⟩

theorem tenancyOnSet_holds {s : State} (h : s.sec.phase = .starting) (hw : s.sec.authWait = []) :
    ∃ t, exec .tenancyOnSet s = .next t ∧ t.sec.tenancyOn = true ∧
      t.sec.phase = .none ∧ t.trans.s2 = s.trans.s2 ∧ t.twine.viol = 0 ∧
      (s.sec.keysDue.isSome = true → (t.sec.keys.get 0).st = .loaded ∧ (t.sec.keys.get 1).st = .loaded ∧
        t.trans.s1 = [] ∧ t.trans.gen1 = 0 ∧ t.sec.ctr = (if s.sec.ctrDue = true then s.sec.ctr + 1 else s.sec.ctr)) ∧
      (s.sec.keysDue = none → t.sec.keys = s.sec.keys ∧ t.trans.s1 = s.trans.s1) := by
  obtain ⟨h1, h2, h3, h4, h5, h6, h7, h8, h9⟩ := tenancyStarted_starts s
  obtain ⟨r1, r2, -, -, r5⟩ := authNowRecord_keeps (tenancyStarted s)
  have hl : (loadKeys s).trans.s2 = s.trans.s2 ∧ (loadKeys s).sec.authWait = [] := by
    by_cases hk : s.sec.keysDue.isSome = true
    · obtain ⟨-, -, -, -, l5, -, -, -, l9⟩ := loadKeys_loads hk
      exact ⟨l5, l9.trans hw⟩
    · rw [loadKeys_none (by simpa using hk)]
      exact ⟨rfl, hw⟩
  have hw' : (authNowRecord (tenancyStarted s)).sec.authWait = [] := by rw [r1, h9, hl.2]
  refine ⟨_, congrArg Host.Outcome.next (doTenancyOnSet_starts h hw'), ?_⟩
  rw [r1, r2, r5, h3, h4, h5, h6, h7, h8]
  refine ⟨h1, h2, hl.1, rfl, fun hk => ?_, fun hk => ?_⟩
  · obtain ⟨l1, l2, l3, l4, -, -, -, l8, -⟩ := loadKeys_loads hk
    exact ⟨l1, l2, l3, l4, l8⟩
  · rw [loadKeys_none hk]
    exact ⟨rfl, rfl⟩

theorem secTick_holds {s : State} {t0 : Nat} (hk : s.sec.keysDue = some t0) (ht : t0 + 500000 ≤ s.now) :
    ((secTick s).sec.keys.get 0).st = .loaded ∧ ((secTick s).sec.keys.get 1).st = .loaded ∧ (secTick s).trans.s1 = [] ∧
      (secTick s).sec.keysDue = none ∧ (secTick s).sec.tenancyOn = s.sec.tenancyOn ∧
      (secTick s).sec.ctr = (if s.sec.ctrDue = true then s.sec.ctr + 1 else s.sec.ctr) := by
  obtain ⟨c1, -, c3, c4⟩ := ctrTick_keeps s
  obtain ⟨h1, h2, h3, -, -, h6, h7, h8, -⟩ := loadKeys_loads (s := ctrTick s) (by rw [c1, hk]; rfl)
  rw [secTick_loads hk ht]
  exact ⟨h1, h2, h3, h6, h7.trans c3, h8.trans c4⟩

/-! ## The end of a tenancy: the erasure of its keys (16 R443) -/

/-- A session that ends changes the sessions alone of the security controller. -/
theorem dropSession_sec (s : State) (id : Nat) (st : Status) :
    (dropSession s id st).sec = { s.sec with sessions := s.sec.sessions.filter fun x => x.id != id } := by
  cases h : sessionOf s id with
  | none =>
    have hf : s.sec.sessions.filter (fun x => x.id != id) = s.sec.sessions := by
      refine List.filter_eq_self.mpr fun x hx => ?_
      simpa [sessionOf] using List.find?_eq_none.mp h x hx
    unfold dropSession
    rw [h, hf]
  | some x =>
    cases hn : x.strand with
    | none =>
      unfold dropSession
      rw [h]
      dsimp only
      rw [hn]
      rfl
    | some n =>
      rw [dropSession_eq h hn, freedStrand, State.setStrand_sec]
      exact (Strandless.refl (s := s.setSec { s.sec with sessions := s.sec.sessions.filter fun x => x.id != id
        })).closeStrand.keeps_sec

/-- Sessions that end change the sessions alone, and leave of them those that are not named. -/
theorem dropSessions_sec (s : State) (f : Session → Bool) (st : Status) : ∃ l, (dropSessions s f st).sec =
    { s.sec with sessions := l } ∧ ∀ x ∈ l, f x = false := by
  have h (ids : List Session) (u : State) : (ids.foldl (fun s x => dropSession s x.id st) u).sec =
      { u.sec with sessions := u.sec.sessions.filter fun x => ids.all fun y => x.id != y.id } := by
    induction ids generalizing u with
    | nil => simp
    | cons y ids ih =>
      rw [List.foldl_cons, ih, dropSession_sec, List.filter_filter]
      simp [Bool.and_comm]
  refine ⟨_, h _ s, fun x hx => ?_⟩
  obtain ⟨hx, hall⟩ := List.mem_filter.mp hx
  refine Bool.eq_false_iff.mpr fun hf => ?_
  simpa using List.all_eq_true.mp hall x (List.mem_filter.mpr ⟨hx, hf⟩)

/-- The tenant's work has ended with KEY_ERASED. -/
def tenantStopped (s : State) : State := dropTenantBindings (eraseControllers (tenantQueues.foldl eraseQueue s))

theorem tenantStopped_keeps (s : State) : SecKept s (tenantStopped s) :=
  (SecKept.refl.foldl SecKept.eraseQueue).eraseControllers.dropTenantBindings

/-- The tenant's keys are erased, and its sessions and strands closed. -/
def tenantErased (s : State) : State :=
  closeTenantStrands (dropSessions (eraseTransit (bumpKey s 0 .empty none)) (fun x => x.party == some .tenant) .keyErased)
    false

/-- The scrub begins. -/
def scrubBegun (s : State) : State := (cryptoErase s).setSec { (cryptoErase s).sec with phase := .scrubbing }

theorem doTenancyKeyErase_erases {s : State} (h : s.sec.phase = .draining) :
    doTenancyKeyErase s = startCtr (scrubBegun (tenantErased (tenantStopped s))) := by
  unfold doTenancyKeyErase scrubBegun tenantErased tenantStopped
  rw [if_neg (not_not_intro h)]

theorem scrubBegun_keeps (s : State) : (scrubBegun s).sec = { s.sec with phase := .scrubbing } ∧
    (scrubBegun s).twine = s.twine := ⟨rfl, rfl⟩

/-- The counter begins to move on: it shows its new value, or will. -/
theorem startCtr_shows (s : State) : (startCtr s).sec.phase = s.sec.phase ∧ (startCtr s).sec.keys = s.sec.keys ∧
    (startCtr s).sec.transit = s.sec.transit ∧ (startCtr s).twine = s.twine ∧
    ((startCtr s).sec.ctr = s.sec.ctr ∧ (startCtr s).sec.ctrDue = true ∨
      (startCtr s).sec.ctr = s.sec.ctr + 1 ∧ (startCtr s).sec.ctrDue = false) := by
  unfold startCtr
  dsimp only
  split
  · exact ⟨rfl, rfl, rfl, rfl, .inr ⟨rfl, rfl⟩⟩
  · exact ⟨rfl, rfl, rfl, rfl, .inl ⟨rfl, rfl⟩⟩

theorem transitErased_bumped (x : Sec) (k : KeySlot) (hk : k.st = .empty) :
    (({ x with keys := upd x.keys 0 k } : Sec).transitErased.keys.get 0).st = .empty ∧
    (({ x with keys := upd x.keys 0 k } : Sec).transitErased.keys.get 1).st = .empty := by
  refine ⟨?_, congrArg KeySlot.st (get_upd_same ..)⟩
  exact (congrArg KeySlot.st (get_upd_ne _ _ (by decide))).trans ((congrArg KeySlot.st (get_upd_same ..)).trans hk)

/-- What the erasure leaves of the security controller. -/
theorem tenantErased_sec (s : State) : ((tenantErased s).sec.keys.get 0).st = .empty ∧
    ((tenantErased s).sec.keys.get 1).st = .empty ∧ (tenantErased s).sec.transit = [] ∧
    (tenantErased s).sec.ctr = s.sec.ctr := by
  have he := eraseTransit_keeps (bumpKey s 0 .empty none)
  unfold tenantErased
  generalize eraseTransit (bumpKey s 0 .empty none) = u at he ⊢
  obtain ⟨l, hl, -⟩ := dropSessions_sec u (fun x => x.party == some .tenant) .keyErased
  generalize dropSessions u (fun x => x.party == some .tenant) .keyErased = v at hl ⊢
  have hc : SecKept v (closeTenantStrands v false) := SecKept.refl.closeTenantStrands
  rw [hc.keeps (f := Sec.keys) fun _ => rfl, hc.keeps (f := Sec.transit) fun _ => rfl,
    hc.keeps (f := Sec.ctr) fun _ => rfl, hl]
  dsimp only
  rw [he.keeps (f := Sec.keys) fun _ => rfl, he.keeps (f := Sec.transit) fun _ => rfl, he.keeps (f := Sec.ctr) fun _ => rfl]
  obtain ⟨h0, h1⟩ := transitErased_bumped s.sec { st := .empty, gen := (s.sec.keys.get 0).gen + 1, key := none } rfl
  exact ⟨h0, h1, rfl, rfl⟩

theorem tenantErased_strand (s : State) (n : Fin 2048) (h : ((tenantErased s).strand n).cfg.owner = 2) :
    ((tenantErased s).strand n).st = .closed := by
  unfold tenantErased at h ⊢
  generalize dropSessions _ _ _ = u at h ⊢
  exact closeTenantStrands_closed u false n h fun hf => absurd hf Bool.false_ne_true

theorem scrubBegun_strand (s : State) (n : Fin 2048) : (startCtr (scrubBegun s)).strand n = s.strand n := by
  rw [State.strand, (startCtr_shows _).2.2.2.1, (scrubBegun_keeps s).2]
  rfl

/-- What the scrub that begins finds. -/
theorem scrubBegun_finds {n : Nat} {v : State} (k0 : (v.sec.keys.get 0).st = .empty) (k1 : (v.sec.keys.get 1).st = .empty)
    (htr : v.sec.transit = []) (hctr : v.sec.ctr = n)
    (hstr : ∀ m, (v.strand m).cfg.owner = 2 → (v.strand m).st = .closed) :
    let t := startCtr (scrubBegun v)
    t.sec.phase = .scrubbing ∧ (t.sec.keys.get 0).st = .empty ∧ (t.sec.keys.get 1).st = .empty ∧ t.sec.transit = [] ∧
      (∀ m, (t.strand m).cfg.owner = 2 → (t.strand m).st = .closed) ∧
      (t.sec.ctr = n ∧ t.sec.ctrDue = true ∨ t.sec.ctr = n + 1 ∧ t.sec.ctrDue = false) := by
  intro t
  obtain ⟨c1, c2, c3, -, c5⟩ := startCtr_shows (scrubBegun v)
  rw [(scrubBegun_keeps v).1] at c1 c2 c3 c5
  refine ⟨c1, (congrArg (fun k : Vector KeySlot 4 => (k.get 0).st) c2).trans k0,
    (congrArg (fun k : Vector KeySlot 4 => (k.get 1).st) c2).trans k1, c3.trans htr, fun m ho => ?_, ?_⟩
  · have e : t.strand m = v.strand m := scrubBegun_strand v m
    rw [e] at ho ⊢
    exact hstr m ho
  · rw [← hctr]
    exact c5

theorem tenancyKeyErase_holds {s : State} (h : s.sec.phase = .draining) :
    ∃ t, exec .tenancyKeyErase s = .next t ∧ t.sec.phase = .scrubbing ∧
      (t.sec.keys.get 0).st = .empty ∧ (t.sec.keys.get 1).st = .empty ∧ t.sec.transit = [] ∧
      (∀ n, (t.strand n).cfg.owner = 2 → (t.strand n).st = .closed) ∧
      (t.sec.ctr = s.sec.ctr ∧ t.sec.ctrDue = true ∨ t.sec.ctr = s.sec.ctr + 1 ∧ t.sec.ctrDue = false) := by
  obtain ⟨k0, k1, htr, hu⟩ := tenantErased_sec (tenantStopped s)
  have hctr : (tenantStopped s).sec.ctr = s.sec.ctr := (tenantStopped_keeps s).keeps (f := Sec.ctr) fun _ => rfl
  exact ⟨_, congrArg Host.Outcome.next (doTenancyKeyErase_erases h),
    scrubBegun_finds k0 k1 htr (hu.trans hctr) (tenantErased_strand _)⟩

/-! ## The scrub (16 R445, R447) -/

/-- The tenant's sessions, strands and queues are closed. -/
def tenantClosed (s : State) : State :=
  closeTenantQueues (closeTenantStrands (dropSessions s (fun x => x.party == some .tenant) .keyErased) false)

/-- The units are scrubbed, the counters at their reset values, what was staged is gone. -/
def unitsScrubbed (s : State) : State := discardStaged (resetCounters (scrubUnits (endCtr s)))

theorem tenantClosed_sec (s : State) : (∀ x ∈ (tenantClosed s).sec.sessions, x.party ≠ some .tenant) ∧
    (tenantClosed s).sec.authWait = s.sec.authWait ∧ (tenantClosed s).sec.override = s.sec.override := by
  obtain ⟨l, hl, hn⟩ := dropSessions_sec s (fun x => x.party == some .tenant) .keyErased
  have hc : SecKept (dropSessions s (fun x => x.party == some .tenant) .keyErased) (tenantClosed s) :=
    SecKept.refl.closeTenantStrands.closeTenantQueues
  have hs := hc.keeps (f := Sec.sessions) fun _ => rfl
  have hw := hc.keeps (f := Sec.authWait) fun _ => rfl
  have ho := hc.keeps (f := Sec.override) fun _ => rfl
  rw [hl] at hs hw ho
  refine ⟨fun x hx => ?_, hw, ho⟩
  rw [hs] at hx
  simpa using hn x hx

/-- The tenant's queues after the close are empty and OFF. -/
theorem tenantClosed_queue (s : State) {q : Fin 4096} (h : 16 ≤ q.val) : ((tenantClosed s).q q).descs = [] ∧
    ((tenantClosed s).q q).st = .off ∧ ((tenantClosed s).q q).head = 0 ∧ ((tenantClosed s).q q).tail = 0 := by
  unfold tenantClosed closeTenantQueues
  generalize closeTenantStrands _ false = u
  have e : (({ u with
      queues := vecOf 4096 fun q => if q.val < 16 then u.q q else { (u.q q).closed with descs := [] } } : State).q
      q) = { (u.q q).closed with descs := [] } := (get_vecOf ..).trans (if_neg (by omega))
  rw [e]
  exact ⟨rfl, rfl, rfl, rfl⟩

theorem unitsScrubbed_sec (s : State) : (unitsScrubbed s).sec.sessions = s.sec.sessions ∧
    (unitsScrubbed s).sec.authWait = s.sec.authWait ∧ (unitsScrubbed s).sec.override = s.sec.override := by
  obtain ⟨-, -, e3, e4, e5⟩ := endCtr_shows s
  have hc : SecKept (endCtr s) (unitsScrubbed s) := SecKept.refl.scrubUnits.resetCounters.discardStaged
  exact ⟨(hc.keeps (f := Sec.sessions) fun _ => rfl).trans e4, (hc.keeps (f := Sec.authWait) fun _ => rfl).trans e3,
    (hc.keeps (f := Sec.override) fun _ => rfl).trans e5⟩

theorem resetCounters_queue (s : State) (q : Fin 4096) : ((resetCounters s).q q).descs = (s.q q).descs ∧
    ((resetCounters s).q q).st = (s.q q).st ∧ ((resetCounters s).q q).head = (s.q q).head ∧
    ((resetCounters s).q q).tail = (s.q q).tail := by
  have e : (resetCounters s).q q = { s.q q with
      miss := 0, shadows := 0, dropped := 0, evicted := 0, energy := if q.val < 16 then (s.q q).energy else 0 } := get_vecOf ..
  rw [e]
  exact ⟨rfl, rfl, rfl, rfl⟩

theorem discardStaged_queue (s : State) (q : Fin 4096) :
    (discardStaged s).q q = { s.q q with staged := [], quotaSt := none } := Vector.get_map ..

/-- The reset of the counters and the discard of what is staged leave of a queue its state, its ring and its descriptors. -/
theorem cleared_queue (s : State) (q : Fin 4096) : ((discardStaged (resetCounters s)).q q).descs = (s.q q).descs ∧
    ((discardStaged (resetCounters s)).q q).st = (s.q q).st ∧
    ((discardStaged (resetCounters s)).q q).head = (s.q q).head ∧
    ((discardStaged (resetCounters s)).q q).tail = (s.q q).tail := by
  rw [discardStaged_queue]
  dsimp only
  exact resetCounters_queue s q

theorem cleared_spindles (s : State) : (discardStaged (resetCounters s)).spindles = s.spindles := rfl

theorem endCtr_queues (s : State) : (endCtr s).queues = s.queues := by
  unfold endCtr
  split <;> rfl

theorem scrubbed_bobbin (x : Spindle) : x.scrubbed.bobbin = [] := by
  unfold Spindle.scrubbed
  split <;> rfl

/-- The scrub of the units keeps the queues' rings and leaves no bobbin and no stage-1 page. -/
theorem scrubUnits_scrubs (s : State) : (scrubUnits s).trans.s1 = [] ∧ (∀ p, ((scrubUnits s).sp p).bobbin = []) ∧
    ∀ q, ((scrubUnits s).q q).st = (s.q q).st ∧ ((scrubUnits s).q q).head = (s.q q).head ∧
      ((scrubUnits s).q q).tail = (s.q q).tail ∧ ((scrubUnits s).q q).descs.isEmpty = (s.q q).descs.isEmpty := by
  unfold scrubUnits
  dsimp only
  have h (u : State) : RingsKept u (bindRetryAll (settleCreel u)) := RingsKept.refl.settleCreel.bindRetryAll
  refine ⟨(congrArg Trans.s1 (h _).keeps_trans).trans rfl, fun p => ?_, fun q => (h _).queue q⟩
  rw [State.sp, (h _).keeps_spindles, Vector.get_map]
  exact scrubbed_bobbin _

/-- After the scrub no stage-1 page and no byte of a bobbin is left, and the queues' rings stand as they did. -/
theorem unitsScrubbed_scrubs (s : State) : (unitsScrubbed s).trans.s1 = [] ∧
    (∀ p, ((unitsScrubbed s).sp p).bobbin = []) ∧ ∀ q, ((unitsScrubbed s).q q).st = (s.q q).st ∧
      ((unitsScrubbed s).q q).head = (s.q q).head ∧ ((unitsScrubbed s).q q).tail = (s.q q).tail ∧
      ((unitsScrubbed s).q q).descs.isEmpty = (s.q q).descs.isEmpty := by
  obtain ⟨h1, h2, h3⟩ := scrubUnits_scrubs (endCtr s)
  unfold unitsScrubbed
  refine ⟨(congrArg Trans.s1 (cleared_leaves _).1).trans h1, fun p => ?_, fun q => ?_⟩
  · rw [State.sp, cleared_spindles]
    exact h2 p
  · obtain ⟨c1, c2, c3, c4⟩ := cleared_queue (scrubUnits (endCtr s)) q
    rw [c1, c2, c3, c4]
    have hq := h3 q
    rwa [State.q, State.q, endCtr_queues] at hq

/-- The tenancy at its end, before its record. -/
def tenancyEnded (s : State) : State :=
  let s := endOverride (s.setMgmt { s.mgmt with faults := [] })
  s.setSec { s.sec.detached with
    tenancyOn := false, phase := .none, lodged := [], debug := false, profile := false, tnKey := [] }

theorem tenancyEnded_of {s : State} (h : s.sec.override = false) : tenancyEnded s = (s.setMgmt { s.mgmt with
    faults := [] }).setSec { s.sec.detached with
      tenancyOn := false, phase := .none, lodged := [], debug := false, profile := false, tnKey := [] } := by
  have e : endOverride (s.setMgmt { s.mgmt with faults := [] }) = s.setMgmt { s.mgmt with faults := [] } :=
    if_pos (by simp [h])
  unfold tenancyEnded
  rw [e]
  rfl

theorem doScrubEnd_ends {s : State} (h : s.sec.phase = .scrubbing)
    (hw : (authNowRecord (tenancyEnded (unitsScrubbed (tenantClosed s)))).sec.authWait = []) :
    doScrubEnd s = authNowRecord (tenancyEnded (unitsScrubbed (tenantClosed s))) := by
  rw [← runAuth_none hw ((authNowRecord (tenancyEnded (unitsScrubbed (tenantClosed s)))).sec.authWait.length + 1)]
  unfold doScrubEnd authNowRecord tenancyEnded unitsScrubbed tenantClosed
  rw [if_neg (not_not_intro h)]

theorem scrubEnd_holds {s : State} (h : s.sec.phase = .scrubbing) (hw : s.sec.authWait = [])
    (ho : s.sec.override = false) : ∃ t, exec .scrubEnd s = .next t ∧
      t.sec.tenancyOn = false ∧ t.sec.phase = .none ∧ t.sec.debug = false ∧ t.sec.profile = false ∧ t.sec.tnKey = [] ∧
      t.sec.lodged = [] ∧ t.trans.s1 = [] ∧ (∀ x ∈ t.sec.sessions, x.party ≠ some .tenant) ∧
      (∀ q, 16 ≤ q.val → (t.q q).descs = [] ∧ (t.q q).st = .off ∧ (t.q q).head = 0 ∧ (t.q q).tail = 0) ∧
      ∀ p, (t.sp p).bobbin = [] := by
  obtain ⟨s1, s2, s3⟩ := tenantClosed_sec s
  obtain ⟨u1, u2, u3⟩ := unitsScrubbed_sec (tenantClosed s)
  obtain ⟨v1, v2, v3⟩ := unitsScrubbed_scrubs (tenantClosed s)
  have hq {q : Fin 4096} (hq : 16 ≤ q.val) := tenantClosed_queue s hq
  have hend := doScrubEnd_ends h
  generalize tenantClosed s = v at *
  generalize unitsScrubbed v = w at *
  have he := tenancyEnded_of (u3.trans (s3.trans ho))
  obtain ⟨r1, r2, r3, r4, -⟩ := authNowRecord_keeps (tenancyEnded w)
  have hw' : (authNowRecord (tenancyEnded w)).sec.authWait = [] := by
    rw [r1, he]
    exact u2.trans (s2.trans hw)
  refine ⟨_, congrArg Host.Outcome.next (hend hw'), ?_⟩
  rw [r1, r2]
  simp only [State.q, State.sp, r3, r4]
  rw [he]
  refine ⟨rfl, rfl, rfl, rfl, rfl, rfl, v1, fun x hx => s1 x (u1 ▸ hx), fun q hq16 => ?_, v2⟩
  obtain ⟨g1, g2, g3, g4⟩ := v3 q
  obtain ⟨f1, f2, f3, f4⟩ := hq hq16
  refine ⟨List.isEmpty_iff.mp (g4.trans (List.isEmpty_iff.mpr f1)), g1.trans f2, g2.trans f3, g3.trans f4⟩

/-! ## The statement -/

/-- Settles O52: the start by `tenancyStarted_starts` and `loadKeys_loads`, the erasure by `tenantErased_sec`, the scrub by
`unitsScrubbed_scrubs`. -/
theorem tenancyLife : Obligations.TenancyLife := by
  intro s
  refine ⟨tenancyOnSet_holds, fun t0 hk ht t e => ?_, tenancyKeyErase_holds, scrubEnd_holds, fun hs => ⟨fun ht => ?_,
    fun ht => ?_⟩⟩
  · rw [e]
    exact secTick_holds hk ht
  · exact congrArg Host.Outcome.next ((if_neg hs).trans (if_pos ht))
  · exact ⟨_, congrArg Host.Outcome.next ((if_neg hs).trans (if_neg (by simp [ht]))), rfl, rfl⟩

end Sys2Proof.Machine
end

section
/-!
PROOFS. Cold reset, power loss, warm reset and management restart (18; O53).
-/

namespace Sys2Proof.Machine

/-- What the end of interrupted work leaves: where the device stands, the stacks, the interleave and the far tier, and of each
queue where its ring stands. -/
def resumeView (s : State) :=
  (s.mgmt.phase, s.mgmt.warming, s.mgmt.stop, s.mgmt.run, s.mem.il, s.mem.stack, s.mem.far,
    fun q => ((s.q q).head, (s.q q).tail, (s.q q).rings))

/-- From `s` to `t` the parts of `resumeView` have not changed. -/
def ResumeKept (s t : State) : Prop := resumeView t = resumeView s

namespace ResumeKept

section
variable {s t u : State}

theorem refl : ResumeKept s s := rfl
theorem trans (h : ResumeKept s t) (h' : ResumeKept t u) : ResumeKept s u := Eq.trans h' h
theorem same (h : ResumeKept s t) (e : resumeView u = resumeView t) : ResumeKept s u := e.trans h
theorem setSp {p : Fin 136} {x : Spindle} (h : ResumeKept s t) : ResumeKept s (t.setSp p x) := h
theorem setSk {k : Fin 8} {x : Skein} (h : ResumeKept s t) : ResumeKept s (t.setSk k x) := h
theorem setMem {x : Mem} (h : ResumeKept s t) (e : resumeView (t.setMem x) = resumeView t) :
    ResumeKept s (t.setMem x) := e.trans h
theorem setTrans {x : Trans} (h : ResumeKept s t) : ResumeKept s (t.setTrans x) := h
theorem setStrand {n : Fin 2048} {x : Strand} (h : ResumeKept s t) : ResumeKept s (t.setStrand n x) := h
theorem setPort {p : Fin 32} {x : Port} (h : ResumeKept s t) : ResumeKept s (t.setPort p x) := h
theorem setMgmt {x : Mgmt} (h : ResumeKept s t) (e : resumeView (t.setMgmt x) = resumeView t) :
    ResumeKept s (t.setMgmt x) := e.trans h
theorem setSec {x : Sec} (h : ResumeKept s t) : ResumeKept s (t.setSec x) := h
theorem say {o : Out} (h : ResumeKept s t) : ResumeKept s (t.say o) := h
theorem skeins {x : Vector Skein 8} (h : ResumeKept s t) : ResumeKept s { t with skeins := x } := h
theorem queues {x : Vector Queue 4096} (h : ResumeKept s t) (e : resumeView { t with queues := x } = resumeView t) :
    ResumeKept s { t with queues := x } := e.trans h
theorem kernels {x : List Kernel} (h : ResumeKept s t) : ResumeKept s { t with kernels := x } := h
theorem twine {x : Twine} (h : ResumeKept s t) : ResumeKept s { t with twine := x } := h
theorem free {x : Nat} (h : ResumeKept s t) : ResumeKept s { t with free := x } := h
theorem setMgmtRecord {ws : List Word} (h : ResumeKept s t) : ResumeKept s { t with mgmt := (keepRecord t.mgmt ws).1 } := by
  obtain ⟨f, d, e⟩ := keepRecord_form t.mgmt ws
  rw [e]
  exact h

theorem ite {c : Prop} [Decidable c] (ha : c → ResumeKept s t) (hb : ¬ c → ResumeKept s u) :
    ResumeKept s (if c then t else u) := by
  split
  · exact ha ‹_›
  · exact hb ‹_›

theorem foldl {β : Type} {g : State → β → State} {l : List β} (h : ResumeKept s t)
    (hg : ∀ {u : State} {b : β}, ResumeKept s u → ResumeKept s (g u b)) : ResumeKept s (l.foldl g t) := by
  induction l generalizing t with
  | nil => exact h
  | cons b l ih => exact ih (hg h)

theorem foldlPair {α β : Type} {g : State × α → β → State × α} {l : List β} {x : State × α} (h : ResumeKept s x.1)
    (hg : ∀ {y : State × α} {b : β}, ResumeKept s y.1 → ResumeKept s (g y b).1) : ResumeKept s (l.foldl g x).1 := by
  induction l generalizing x with
  | nil => exact h
  | cons b l ih => exact ih (hg h)

end

end ResumeKept

/-- A queue may change in all but where its ring stands. -/
theorem ResumeKept.setQueue {s t : State} {q : Fin 4096} {x : Queue} (h : ResumeKept s t) (hh : x.head = (t.q q).head)
    (ht : x.tail = (t.q q).tail) (hr : x.rings = (t.q q).rings) : ResumeKept s (t.setQ q x) := by
  refine ResumeKept.trans h (Prod.ext rfl (Prod.ext rfl (Prod.ext rfl (Prod.ext rfl (Prod.ext rfl (Prod.ext rfl
    (Prod.ext rfl (funext fun p => ?_))))))))
  by_cases e : p = q
  · subst e
    simp only [resumeView, State.setQ_q_same, hh, ht, hr]
  · simp only [resumeView, State.setQ_q_ne _ _ _ _ e]

/-- Every queue may change in all but where its ring stands. -/
theorem ResumeKept.queuesMap {s t : State} {g : Queue → Queue} (h : ResumeKept s t)
    (hg : ∀ x, (g x).head = x.head ∧ (g x).tail = x.tail ∧ (g x).rings = x.rings) :
    ResumeKept s { t with queues := t.queues.map g } := by
  refine ResumeKept.trans h (Prod.ext rfl (Prod.ext rfl (Prod.ext rfl (Prod.ext rfl (Prod.ext rfl (Prod.ext rfl
    (Prod.ext rfl (funext fun p => ?_))))))))
  have e : ({ t with queues := t.queues.map g } : State).q p = g (t.q p) := Vector.get_map ..
  obtain ⟨h1, h2, h3⟩ := hg (t.q p)
  simp only [resumeView, e, h1, h2, h3]

section
variable {s t : State}

theorem ResumeKept.settleQueue {q : Fin 4096} (h : ResumeKept s t) : ResumeKept s (settleQueue t q) := by
  unfold Machine.settleQueue
  dsimp only
  exact .ite (fun _ => h.setQueue rfl rfl rfl) fun _ => h

theorem ResumeKept.closeRecord {slot : Nat} (h : ResumeKept s t) : ResumeKept s (closeRecord t slot) := by
  unfold Machine.closeRecord
  exact h.setMgmt (by rfl)

theorem ResumeKept.dropFault {id : Nat} (h : ResumeKept s t) : ResumeKept s (dropFault t id) := by
  unfold Machine.dropFault
  split
  · exact h
  · exact (ResumeKept.ite (fun _ => h.setTrans) fun _ => h.setTrans.closeRecord).settleQueue

theorem ResumeKept.closeCut (h : ResumeKept s t) : ResumeKept s (closeCut t) := by
  unfold Machine.closeCut
  exact h.foldl ResumeKept.dropFault

theorem ResumeKept.haltSpindle {p : Fin 136} (h : ResumeKept s t) : ResumeKept s (haltSpindle t p) := by
  unfold Machine.haltSpindle
  exact h.setSp

theorem ResumeKept.putByte {key : Nat} {x : Byte} (h : ResumeKept s t) : ResumeKept s (putByte t key x) := by
  unfold Machine.putByte
  split
  · exact h.setSk
  · exact h.setMem (by rfl)

theorem ResumeKept.writeByte {a : Nat} {x : Byte} (h : ResumeKept s t) : ResumeKept s (writeByte t a x) := by
  unfold Machine.writeByte
  split
  · exact h.setSp
  · split
    · exact h.putByte
    · exact h

theorem ResumeKept.writePhys {a : Nat} {bs : List Byte} (h : ResumeKept s t) : ResumeKept s (writePhys t a bs) := by
  induction bs generalizing t a with
  | nil => exact h
  | cons b bs ih => exact ih h.writeByte

theorem ResumeKept.clearPoison {a : Nat} {n : Nat} (h : ResumeKept s t) : ResumeKept s (clearPoison t a n) := by
  unfold Machine.clearPoison
  exact h.setMem (by rfl)

theorem ResumeKept.writeChecked {a : Nat} {bs : List Byte} (h : ResumeKept s t) : ResumeKept s (writeChecked t a
    bs).1 := by
  unfold Machine.writeChecked
  split
  · exact h
  · exact h.clearPoison.writePhys

theorem ResumeKept.writeSegs {segs : List Seg} {a : Nat} {bs : List Byte}
    (h : ResumeKept s t) : ResumeKept s (writeSegs t segs a bs).1 := by
  unfold Machine.writeSegs
  exact ResumeKept.foldlPair h writeChecked

theorem ResumeKept.applyWrites {segs : List Seg} {ws : List (Nat × List Byte)} (h : ResumeKept s t) :
    ResumeKept s (applyWrites t segs ws).1 := by
  unfold Machine.applyWrites
  exact ResumeKept.foldlPair h writeSegs

theorem ResumeKept.spoil {m : Move} (h : ResumeKept s t) : ResumeKept s (spoil t m) := by
  unfold Machine.spoil
  exact h.applyWrites.free

theorem ResumeKept.cutMoves {f : Move → Bool} (h : ResumeKept s t) : ResumeKept s (cutMoves t f) := by
  unfold Machine.cutMoves
  exact (h.foldl ResumeKept.spoil).skeins

theorem ResumeKept.stopShares {q : Fin 4096} {seq : Nat} (h : ResumeKept s t) : ResumeKept s (stopShares t q
    seq) := by
  unfold Machine.stopShares
  exact h.cutMoves.foldl ResumeKept.haltSpindle

theorem ResumeKept.post {n : Fin 2048} {m : Msg} (h : ResumeKept s t) : ResumeKept s (post t n m) := by
  unfold Machine.post
  dsimp only
  split
  · exact h
  · exact h
  · exact h.setStrand

theorem ResumeKept.notify {to_ : Party} {kind : Nat} {queue : Nat} {result : Nat} {body : List Byte}
    (h : ResumeKept s t) : ResumeKept s (notify t to_ kind queue result body) := by
  unfold Machine.notify
  split
  · exact h.post
  · exact h

theorem ResumeKept.addRecord {q : Nat} {ws : List Word} {ten : Bool}
    (h : ResumeKept s t) : ResumeKept s (addRecord t q ws ten) := by
  unfold Machine.addRecord
  exact .ite (fun _ => h.setMgmtRecord.notify.notify) fun _ => h.setMgmtRecord.notify

theorem ResumeKept.record {kind : Nat} {st : Option Status} {unit : Nat} {index : Nat} {args : List Nat}
    (h : ResumeKept s t) : ResumeKept s (record t kind st unit index args) := by
  unfold Machine.record
  exact h.addRecord

theorem ResumeKept.applyChange {k : Fin 8} {c : MapChange} (h : ResumeKept s t) : ResumeKept s (applyChange t k
    c) := by
  unfold Machine.applyChange
  dsimp only
  split
  · exact h.setSk.setSp.record
  · exact h.setSk

theorem ResumeKept.settleMap {k : Fin 8} (h : ResumeKept s t) : ResumeKept s (settleMap t k) := by
  unfold Machine.settleMap
  exact h.foldl fun h' => .ite (fun _ => h'.applyChange) fun _ => h'

theorem ResumeKept.boundary {p : Fin 136} (h : ResumeKept s t) : ResumeKept s (boundary t p) := by
  unfold Machine.boundary
  split
  · exact h
  · dsimp only
    split
    · exact h.foldl ResumeKept.settleMap
    · exact (h.foldl ResumeKept.settleMap).setTrans.setSp

theorem ResumeKept.boundaries {ps : List (Fin 136)} (h : ResumeKept s t) : ResumeKept s (boundaries t ps) := by
  unfold Machine.boundaries
  exact h.foldl ResumeKept.boundary

theorem ResumeKept.stopKernel {q : Fin 4096} {seq : Nat} (h : ResumeKept s t) : ResumeKept s (stopKernel t q
    seq) := by
  unfold Machine.stopKernel
  exact (h.stopShares.kernels.setTrans.foldl ResumeKept.dropFault).boundaries

theorem ResumeKept.setDesc {q : Fin 4096} {seq : Nat} {f : Desc → Desc}
    (h : ResumeKept s t) : ResumeKept s (setDesc t q seq f) := by
  unfold Machine.setDesc
  exact h.setQueue rfl rfl rfl

theorem ResumeKept.finish {q : Fin 4096} {seq : Nat} {st : Status} {flags : Flags} {code : Nat} {detail : Nat}
    {value : Nat} (h : ResumeKept s t) : ResumeKept s (finish t q seq st flags code detail value) := by
  unfold Machine.finish
  exact h.setDesc

theorem ResumeKept.redo {q : Fin 4096} {seq : Nat} {fl : Flags}
    (h : ResumeKept s t) : ResumeKept s (redo t q seq fl) := by
  unfold Machine.redo
  exact .ite (fun _ => h.finish) fun _ => h.setDesc

theorem ResumeKept.interruptKernel {q : Fin 4096} {seq : Nat}
    (h : ResumeKept s t) : ResumeKept s (interruptKernel t q seq) := by
  unfold Machine.interruptKernel
  exact .ite (fun _ => h.stopKernel.redo) fun _ => h.stopKernel.finish

theorem ResumeKept.setKernel {q : Fin 4096} {seq : Nat} {f : Kernel → Kernel}
    (h : ResumeKept s t) : ResumeKept s (setKernel t q seq f) := by
  unfold Machine.setKernel
  exact h.kernels

theorem ResumeKept.traceKernel {q : Fin 4096} {seq : Nat} (h : ResumeKept s t) : ResumeKept s (traceKernel t q
    seq) := by
  unfold Machine.traceKernel
  split
  · exact .ite (fun _ => h.setSec) fun _ => h
  · exact h

theorem ResumeKept.settleKernel {q : Fin 4096} {seq : Nat} (h : ResumeKept s t) : ResumeKept s (settleKernel t q
    seq) := by
  unfold Machine.settleKernel
  split
  · exact h
  · split
    · exact h
    · dsimp only
      split <;> exact h.kernels.traceKernel.finish

theorem ResumeKept.endShares {k : Kernel} {st : Status} {gone : List (Nat × Fin 128 × Flags)}
    (h : ResumeKept s t) : ResumeKept s (endShares t k st gone) := by
  unfold Machine.endShares
  exact h.setKernel.settleKernel

theorem ResumeKept.markReplayed {q : Fin 4096} {seq : Nat} (h : ResumeKept s t) : ResumeKept s (markReplayed t q
    seq) := by
  unfold Machine.markReplayed
  exact h.setDesc

theorem ResumeKept.replayShares {k : Kernel} {gone : List (Nat × Fin 128 × Flags)}
    (h : ResumeKept s t) : ResumeKept s (replayShares t k gone) := by
  unfold Machine.replayShares
  split
  · exact h.endShares
  · dsimp only
    split
    · exact h.markReplayed.setKernel
    · exact h.markReplayed.endShares

theorem ResumeKept.resetKernel {k : Kernel} (h : ResumeKept s t) : ResumeKept s (resetKernel t k) := by
  unfold Machine.resetKernel
  exact .ite (fun _ => h.interruptKernel) fun _ => .ite (fun _ => h.setKernel) fun _ => h.setKernel.replayShares

theorem ResumeKept.countMove {m : Move} {st : Status} (h : ResumeKept s t) : ResumeKept s (countMove t m st) := by
  unfold Machine.countMove
  exact h.setQueue rfl rfl rfl

theorem ResumeKept.reportMove {m : Move} {st : Status} {fl : Flags}
    (h : ResumeKept s t) : ResumeKept s (reportMove t m st fl) := by
  unfold Machine.reportMove
  split
  · exact h.setSp
  · exact h.finish

theorem ResumeKept.finishMove {m : Move} {fl : Flags} (h : ResumeKept s t) : ResumeKept s (finishMove t m fl) := by
  unfold Machine.finishMove
  split
  · exact h
  · exact .ite (fun _ => h.interruptKernel) fun _ => .ite (fun _ => h.redo) fun _ => h.reportMove.countMove

theorem ResumeKept.finishWork (h : ResumeKept s t) : ResumeKept s (finishWork t) := by
  unfold Machine.finishWork
  exact (((h.closeCut.setMgmt (by rfl)).foldl ResumeKept.resetKernel).foldl ResumeKept.finishMove).boundaries

theorem ResumeKept.dropHeld (h : ResumeKept s t) : ResumeKept s (dropHeld t) := by
  unfold Machine.dropHeld
  exact h.twine

theorem ResumeKept.sayCtrl {p : Fin 32} {o : Out} (h : ResumeKept s t) : ResumeKept s (sayCtrl t p o) := by
  unfold Machine.sayCtrl
  exact .ite (fun _ => h.setPort) fun _ => h.say

theorem ResumeKept.putHello {p : Fin 32} {m : HelloMsg} (h : ResumeKept s t) : ResumeKept s (putHello t p m) := by
  unfold Machine.putHello
  exact .ite (fun _ => h) fun _ => h.twine.sayCtrl

theorem ResumeKept.sendHello {p : Fin 32} {pending : Bool} (h : ResumeKept s t) : ResumeKept s (sendHello t p
    pending) := by
  unfold Machine.sendHello
  exact .ite (fun _ => (ResumeKept.ite (fun _ => h.putHello) fun _ => h).putHello) fun _ => .ite (fun _ =>
      h.putHello) fun _ => h

theorem ResumeKept.restoreStrands (h : ResumeKept s t) : ResumeKept s (restoreStrands t) := by
  unfold Machine.restoreStrands
  exact h.dropHeld.twine.foldl ResumeKept.sendHello

theorem ResumeKept.rerunMarks (h : ResumeKept s t) : ResumeKept s (rerunMarks t) := by
  unfold Machine.rerunMarks
  exact ((h.foldl fun h' => .ite (fun _ => h') fun _ => h'.markReplayed).foldl ResumeKept.redo).skeins

theorem ResumeKept.undoDispatch {m : Move} (h : ResumeKept s t) : ResumeKept s (undoDispatch t m) := by
  unfold Machine.undoDispatch
  split
  · exact h.setDesc
  · exact h

theorem ResumeKept.parkMoves (h : ResumeKept s t) : ResumeKept s (parkMoves t) := by
  unfold Machine.parkMoves
  exact ((h.foldl ResumeKept.spoil).foldl ResumeKept.undoDispatch).same (by rfl)

theorem ResumeKept.cutKernel {k : Kernel} (h : ResumeKept s t) : ResumeKept s (cutKernel t k) := by
  unfold Machine.cutKernel
  exact h.stopShares.setKernel

theorem ResumeKept.stopWork (h : ResumeKept s t) : ResumeKept s (stopWork t) := by
  unfold Machine.stopWork
  have hq (g : Desc → Desc) : ResumeKept s
      { t with queues := t.queues.map fun x => { x with descs := x.descs.map g } } :=
    h.queuesMap fun _ => ⟨rfl, rfl, rfl⟩
  exact ((hq _).foldl ResumeKept.cutKernel).parkMoves.rerunMarks

theorem ResumeKept.rehome (h : ResumeKept s t) : ResumeKept s (rehome t) := by
  unfold Machine.rehome
  exact h.skeins.foldl fun h' => h'.setSk

theorem ResumeKept.keeps_mgmt_phase (h : ResumeKept s t) : t.mgmt.phase = s.mgmt.phase := congrArg (·.1) h
theorem ResumeKept.keeps_mgmt_warming (h : ResumeKept s t) : t.mgmt.warming = s.mgmt.warming := congrArg (·.2.1) h
theorem ResumeKept.keeps_mgmt_stop (h : ResumeKept s t) : t.mgmt.stop = s.mgmt.stop := congrArg (·.2.2.1) h
theorem ResumeKept.keeps_mgmt_run (h : ResumeKept s t) : t.mgmt.run = s.mgmt.run := congrArg (·.2.2.2.1) h
theorem ResumeKept.keeps_mem_il (h : ResumeKept s t) : t.mem.il = s.mem.il := congrArg (·.2.2.2.2.1) h
theorem ResumeKept.keeps_mem_stack (h : ResumeKept s t) : t.mem.stack = s.mem.stack := congrArg (·.2.2.2.2.2.1) h
theorem ResumeKept.keeps_mem_far (h : ResumeKept s t) : t.mem.far = s.mem.far := congrArg (·.2.2.2.2.2.2.1) h

end

theorem ResumeKept.queue {s t : State} (h : ResumeKept s t) (q : Fin 4096) :
    (t.q q).head = (s.q q).head ∧ (t.q q).tail = (s.q q).tail ∧ (t.q q).rings = (s.q q).rings := by
  have hq : (resumeView t).2.2.2.2.2.2.2 q = (resumeView s).2.2.2.2.2.2.2 q :=
    congrFun (congrArg (·.2.2.2.2.2.2.2) h) q
  simpa only [resumeView, Prod.mk.injEq] using hq

/-! ## Cold reset (18 R481, R482; 19 R519) -/

/-- What is at its reset value after a cold reset, and what it keeps. -/
theorem coldReset_resets (s : State) (resetN : Bool) : let t := coldReset s resetN
    t.mgmt.phase = .reset ∧ t.mgmt.resetN = resetN ∧ t.queues = State.reset.queues ∧
      t.spindles = State.reset.spindles ∧ t.kernels = [] ∧ t.trans = State.reset.trans ∧ t.sec.tenancyOn = false ∧
      t.sec.sessions = [] ∧ t.mgmt.faults = [] ∧ t.sec.ctr = s.sec.ctr ∧ t.sec.opKey = s.sec.opKey ∧
      t.sec.leaseEpoch = s.sec.leaseEpoch ∧ t.mgmt.minSvn = s.mgmt.minSvn ∧ t.mgmt.trims = s.mgmt.trims ∧
      t.mgmt.trimB = s.mgmt.trimB ∧ t.mgmt.flash = s.mgmt.flash ∧ t.pending = s.pending ∧
      t.mgmt.testEn = s.mgmt.testEn :=
  ⟨rfl, rfl, rfl, rfl, rfl, rfl, rfl, rfl, rfl, rfl, rfl, rfl, rfl, rfl, rfl, rfl, rfl, rfl⟩

theorem cold_holds (s : State) : ∀ i ∈ [Instr.coldReset, Instr.packagePowerLoss, Instr.testEnHigh], ∃ t,
    exec i s = .next t ∧ t.mgmt.phase = .reset ∧
      t.mgmt.resetN = false ∧ t.queues = State.reset.queues ∧ t.spindles = State.reset.spindles ∧ t.kernels = [] ∧
      t.trans = State.reset.trans ∧ t.sec.tenancyOn = false ∧ t.sec.sessions = [] ∧ t.mgmt.faults = [] ∧
      t.sec.ctr = s.sec.ctr ∧ t.sec.opKey = s.sec.opKey ∧ t.sec.leaseEpoch = s.sec.leaseEpoch ∧
      t.mgmt.minSvn = s.mgmt.minSvn ∧ t.mgmt.trims = s.mgmt.trims ∧ t.mgmt.trimB = s.mgmt.trimB ∧
      t.mgmt.flash = s.mgmt.flash ∧ t.pending = s.pending ∧ (i = .testEnHigh → t.mgmt.testEn = true) ∧
      (i = .packagePowerLoss → t.mgmt.testEn = false ∧ t.sec.trst = false) := by
  intro i hi
  simp only [List.mem_cons, List.not_mem_nil, or_false] at hi
  rcases hi with rfl | rfl | rfl
  · obtain ⟨h1, h2, h3, h4, h5, h6, h7, h8, h9, h10, h11, h12, h13, h14, h15, h16, h17, -⟩ := coldReset_resets s false
    exact ⟨_, rfl, h1, h2, h3, h4, h5, h6, h7, h8, h9, h10, h11, h12, h13, h14, h15, h16, h17, nofun, nofun⟩
  · obtain ⟨h1, h2, h3, h4, h5, h6, h7, h8, h9, h10, h11, h12, h13, h14, h15, h16, h17, h18⟩ :=
      coldReset_resets (s.setMgmt { s.mgmt with testEn := false }) false
    exact ⟨_, rfl, h1, h2, h3, h4, h5, h6, h7, h8, h9, h10, h11, h12, h13, h14, h15, h16, h17, nofun, fun _ => ⟨h18, rfl⟩⟩
  · obtain ⟨h1, h2, h3, h4, h5, h6, h7, h8, h9, h10, h11, h12, h13, h14, h15, h16, h17, h18⟩ :=
      coldReset_resets (s.setMgmt { s.mgmt with testEn := true }) false
    exact ⟨_, rfl, h1, h2, h3, h4, h5, h6, h7, h8, h9, h10, h11, h12, h13, h14, h15, h16, h17, fun _ => h18, nofun⟩

/-! ## Warm reset: its start (12 R340) -/

/-- Whether a message is an acceptance record. -/
def Msg.isAccept : Msg → Bool
  | .accept _ => true
  | _ => false

theorem sendAccepts_none {s : State} {n : Fin 2048} (h : ∀ m ∈ (s.strand n).txq, ∀ l, m ≠ .accept l) (fuel : Nat) :
    sendAccepts fuel s n = s := by
  cases fuel with
  | zero => rfl
  | succ fuel =>
    refine if_neg fun hany => ?_
    obtain ⟨m, hm, hw⟩ := List.any_eq_true.mp hany
    cases m with
    | accept l => exact h _ hm l rfl
    | _ => simp at hw

/-- Where no strand holds an acceptance record none is sent. -/
theorem earnedAccepts_none {s : State} (h : ∀ n, ∀ m ∈ (s.strand n).txq, ∀ l, m ≠ .accept l) : earnedAccepts s = s := by
  unfold earnedAccepts
  have hl (l : List (Fin 2048)) :
      l.foldl (fun s n => sendAccepts ((s.strand n).txq.length + (s.strand n).unacked.length) s n) s = s := by
    induction l with
    | nil => rfl
    | cons n l ih => rw [List.foldl_cons, sendAccepts_none (h n), ih]
  exact hl _

theorem announceReset_queues (s : State) : (announceReset s).queues = s.queues := by
  refine foldl_keeps State.queues _ (fun t p => ?_) _ s
  rw [sendHello_eq]
  refine foldl_keeps State.queues _ (fun u c => ?_) _ t
  unfold putHello sayCtrl
  split
  · rfl
  · split <;> rfl

section
variable (s : State) (q : Fin 4096)

theorem portsUp_ite_queue (c : Prop) [Decidable c] : (if c then portsUp s else s).q q = s.q q := by
  split
  · rw [State.q, portsUp_keeps (f := State.queues) (fun _ _ _ => rfl) (fun _ _ => rfl) s]
    rfl
  · rfl

theorem announceReset_ite_queue (c : Prop) [Decidable c] : (if c then s else announceReset s).q q = s.q q := by
  split
  · rfl
  · rw [State.q, announceReset_queues]
    rfl

theorem dropHeld_queue : (dropHeld s).q q = s.q q := rfl

theorem clearFwArea_queue : (clearFwArea s).q q = s.q q := rfl

theorem writeBackAll_queue : (writeBackAll s).q q = s.q q := by
  rw [State.q, writeBackAll_keeps (f := State.queues) (fun _ _ _ => rfl) (fun _ _ => rfl) s]
  rfl

/-- The warm reset's work on the queues: what is staged is discarded. -/
theorem coolState_queue : (coolState s).q q = { (earnedAccepts s).q q with staged := [], quotaSt := none } := by
  unfold coolState
  dsimp only
  rw [State.setMem_q, State.setPwr_q, portsUp_ite_queue, dropHeld_queue, clearFwArea_queue, discardStaged_queue,
    announceReset_ite_queue, writeBackAll_queue]

end

theorem startWarm_queue {s : State} (hp : s.mgmt.phase ≠ .reset) (hr : s.mgmt.phase ≠ .recovery) (q : Fin 4096) :
    (startWarm s).q q = { (earnedAccepts s).q q with staged := [], quotaSt := none } := by
  rw [startWarm_eq hp hr, State.setMgmt_q, coolState_queue]

theorem warm_holds {s : State} (hw : s.mgmt.warming = false) (hp : s.mgmt.phase ≠ .reset) (hr : s.mgmt.phase ≠ .recovery) :
    ∃ t, exec .warm s = .next t ∧
      t.mgmt.phase = .mgmt ∧ t.mgmt.warming = true ∧ t.mgmt.warms = s.mgmt.warms + 1 ∧ t.sec.keys = s.sec.keys ∧
      t.sec.tenancyOn = s.sec.tenancyOn ∧ (∀ q, (t.q q).staged = []) ∧
      ((∀ n, ∀ m ∈ (s.strand n).txq, ∀ l, m ≠ .accept l) →
        ∀ q, (t.q q).descs = (s.q q).descs ∧ (t.q q).lc = (s.q q).lc) := by
  obtain ⟨h1, h2, h3, -, h5, h6⟩ := startWarm_starts hp hr
  refine ⟨_, congrArg Host.Outcome.next (if_neg (by simp [hw])), h1, h2, h3, h5, h6, fun q => ?_, fun h q => ?_⟩
  · rw [startWarm_queue hp hr]
  · rw [startWarm_queue hp hr, earnedAccepts_none h]
    exact ⟨rfl, rfl⟩

/-! ## Warm reset: its end (12 R340; 09 R233) -/

theorem releaseTrip_none {s : State} (h : s.pwr.tripHold = false) : releaseTrip s = s := if_neg (by simp [h])

/-- The map of the warm-up service. -/
theorem warmed_maps (m : Mem) : m.warmed.il = [] ∧ ∀ k : Fin 8, 2 ≤ k.val → (m.warmed.stack.get k).up = false := by
  have hk (v : Vector Stack 8) (k : Fin 8) (h : 2 ≤ k.val) :
      ((vecOf 8 fun i => { v.get i with up := (v.get i).up && decide (i.val < 2) } : Vector Stack 8).get k).up = false := by
    rw [get_vecOf]
    simp [show ¬ k.val < 2 by omega]
  unfold Mem.warmed
  dsimp only
  split
  · next h => exact ⟨h, hk _⟩
  · exact ⟨rfl, hk _⟩

/-- A device whose warm reset ends, before its interrupted work is finished: the map of warm-up, every ring at its head. -/
def resumed (s : State) : State :=
  let s := stopWork s
  { s with
    mem := s.mem.warmed
    queues := s.queues.map fun x => { x with tail := x.head, rings := [] }
    trans := { s.trans with walker := [] }
    skeins := s.skeins.map fun k => { k with tlb := [], pstate := .p0, exiting := false } }

theorem resumed_resumes (s : State) : (resumed s).mem.il = [] ∧
    (∀ k : Fin 8, 2 ≤ k.val → ((resumed s).mem.stack.get k).up = false) ∧
    (∀ q, ((resumed s).q q).tail = ((resumed s).q q).head ∧ ((resumed s).q q).rings = []) ∧
    (resumed s).mgmt.stop = s.mgmt.stop ∧ (resumed s).mgmt.run = s.mgmt.run ∧ (resumed s).pwr = s.pwr := by
  have hv : ResumeKept s (stopWork s) := ResumeKept.refl.stopWork
  have hp := stopWork_pwr s
  unfold resumed
  generalize stopWork s = u at hv hp ⊢
  obtain ⟨h1, h2⟩ := warmed_maps u.mem
  refine ⟨h1, h2, fun q => ?_, hv.keeps_mgmt_stop, hv.keeps_mgmt_run, hp⟩
  have e : (({ u with
      mem := u.mem.warmed
      queues := u.queues.map fun x => { x with tail := x.head, rings := [] }
      trans := { u.trans with walker := [] }
      skeins := u.skeins.map fun k => { k with tlb := [], pstate := .p0, exiting := false } } : State).q q) =
      { u.q q with tail := (u.q q).head, rings := [] } := Vector.get_map ..
  rw [e]
  exact ⟨rfl, rfl⟩

/-- Once the device may run, warm-up is entered. -/
theorem enterPhase_runs {s : State} (h : halted s = false) (ph : Boot) :
    enterPhase s ph = s.setMgmt { s.mgmt with phase := ph } := if_neg (by simp [h])

/-- The device in warm-up, its strands restored, with what it was doing still to be finished. -/
def warmedUp (s : State) : State := restoreStrands (enterPhase (s.setMgmt { s.mgmt with warming := false }) .warmup)

theorem doWarmResetResume_resumes {s : State} (hw : s.mgmt.warming = true) (hc : s.mgmt.clockLost = false)
    (hs : s.pwr.stopped = false) (ht : s.pwr.tripHold = false) :
    doWarmResetResume s = finishWork (warmedUp (resumed s)) := by
  unfold doWarmResetResume warmedUp resumed
  rw [if_neg (by simp [hw, hc]), releaseTrip_none ht]
  dsimp only
  rw [if_neg (by simp [hs])]

theorem warmedUp_view {s : State} (h : halted s = false) :
    (warmedUp s).mgmt.warming = false ∧ (warmedUp s).mgmt.phase = .warmup ∧ (warmedUp s).mem.il = s.mem.il ∧
      (warmedUp s).mem.stack = s.mem.stack ∧ ∀ q, ((warmedUp s).q q).head = (s.q q).head ∧
        ((warmedUp s).q q).tail = (s.q q).tail ∧ ((warmedUp s).q q).rings = (s.q q).rings := by
  have hv : ResumeKept ((s.setMgmt { s.mgmt with warming := false }).setMgmt { s.mgmt with
      warming := false, phase := .warmup }) (warmedUp s) := by
    unfold warmedUp
    rw [enterPhase_runs (s := s.setMgmt { s.mgmt with warming := false }) h]
    exact ResumeKept.refl.restoreStrands
  exact ⟨hv.keeps_mgmt_warming, hv.keeps_mgmt_phase, hv.keeps_mem_il, hv.keeps_mem_stack, hv.queue⟩

theorem warmResetResume_holds {s : State} (hw : s.mgmt.warming = true) (hc : s.mgmt.clockLost = false)
    (hs : s.pwr.stopped = false) (ht : s.pwr.tripHold = false) (hstop : s.mgmt.stop = false) (hrun : s.mgmt.run = true) :
    ∃ t, exec .warmResetResume s = .next t ∧ t.mgmt.warming = false ∧ t.mgmt.phase = .warmup ∧
      t.mem.il = [] ∧ (∀ k : Fin 8, 2 ≤ k.val → (t.mem.stack.get k).up = false) ∧
      ∀ q, (t.q q).tail = (t.q q).head ∧ (t.q q).rings = [] := by
  refine ⟨_, congrArg Host.Outcome.next (doWarmResetResume_resumes hw hc hs ht), ?_⟩
  obtain ⟨r1, r2, r3, r4, r5, r6⟩ := resumed_resumes s
  generalize resumed s = u at *
  have hu : halted u = false := by simp [halted, r4, r5, r6, hstop, hrun, hs]
  obtain ⟨w1, w2, w3, w4, w5⟩ := warmedUp_view hu
  generalize warmedUp u = v at *
  have hf : ResumeKept v (finishWork v) := ResumeKept.refl.finishWork
  refine ⟨hf.keeps_mgmt_warming.trans w1, hf.keeps_mgmt_phase.trans w2, hf.keeps_mem_il.trans (w3.trans r1), fun k hk => ?_,
    fun q => ?_⟩
  · rw [hf.keeps_mem_stack, w4]
    exact r2 k hk
  · obtain ⟨f1, f2, f3⟩ := hf.queue q
    obtain ⟨g1, g2, g3⟩ := w5 q
    rw [f1, f2, f3, g1, g2, g3]
    exact r3 q

/-! ## Management restart (18 R481) -/

theorem dropSession_strandless (s : State) (id : Nat) (st : Status) : (dropSession s id st).spindles = s.spindles ∧
    (dropSession s id st).mem = s.mem := by
  unfold dropSession
  split
  · exact ⟨rfl, rfl⟩
  · dsimp only
    split
    · exact ⟨rfl, rfl⟩
    · exact ⟨Strandless.refl.closeStrand.setStrand.keeps_spindles, Strandless.refl.closeStrand.setStrand.keeps_mem⟩

theorem dropSessions_strandless (s : State) (f : Session → Bool) (st : Status) :
    (dropSessions s f st).spindles = s.spindles ∧ (dropSessions s f st).mem = s.mem :=
  ⟨foldl_keeps State.spindles _ (fun t (x : Session) => (dropSession_strandless t x.id st).1) _ s,
    foldl_keeps State.mem _ (fun t (x : Session) => (dropSession_strandless t x.id st).2) _ s⟩

theorem clearFwArea_leaves (s : State) (m : Mgmt) : ((clearFwArea s).setMgmt m).spindles = s.spindles ∧
    ((clearFwArea s).setMgmt m).mem = s.mem := ⟨rfl, rfl⟩

theorem restartMgmt_keeps (s : State) : (restartMgmt s).spindles = s.spindles ∧ (restartMgmt s).mem = s.mem := by
  unfold restartMgmt
  split
  · exact ⟨rfl, rfl⟩
  · dsimp only
    rw [(clearFwArea_leaves _ _).1, (clearFwArea_leaves _ _).2]
    exact dropSessions_strandless s _ _

/-! ## The statement -/

/-- Settles O53: a cold reset by the fresh state that it makes, a warm one by what it begins (`startWarm_starts`,
`startWarm_queue`) and ends with (`resumed_resumes`), a management restart by the sessions that it drops. -/
theorem resets : Obligations.Resets := by
  intro s
  refine ⟨cold_holds s, warm_holds, fun h => congrArg Host.Outcome.next (if_pos h), warmResetResume_holds,
    fun hp i hi => ?_, rfl⟩
  have h := restartMgmt_restarts hp
  have hk := restartMgmt_keeps s
  simp only [List.mem_cons, List.not_mem_nil, or_false] at hi
  rcases hi with rfl | rfl
  · exact ⟨_, rfl, h.1, h.2, hk⟩
  · exact ⟨_, rfl, h.1, h.2, hk⟩

end Sys2Proof.Machine
end

section
/-!
PROOFS. Bring-up, full service and the STOP order (18; O54).
-/

namespace Sys2Proof.Machine

/-! ## The boot of the firmware (18 R484, R485, R488) -/

theorem bootable_iff {m : Mgmt} {misread : BitVec 2} {b : Bool} {img : List Byte} : bootable m misread b = some img ↔
    misread.getLsbD b.toNat = false ∧ slotImage m b = some img ∧ slotBoots m img = true := by
  unfold bootable
  cases h : misread.getLsbD b.toNat
  · simp [Option.filter_eq_some_iff]
  · simp

/-- A slot boots none of the images. -/
theorem bootable_none {m : Mgmt} {misread : BitVec 2} {b : Bool} (h : ∀ img, ¬ (misread.getLsbD b.toNat = false ∧
    slotImage m b = some img ∧ slotBoots m img = true)) : bootable m misread b = none :=
  Option.eq_none_iff_forall_not_mem.mpr fun img hi => h img (bootable_iff.mp hi)

/-- The slot that is tried first. -/
def firstSlot (m : Mgmt) : Bool := m.lastB != m.marked

theorem bootSlot_none {m : Mgmt} {misread : BitVec 2} (h : ∀ b, bootable m misread b = none) :
    bootSlot m misread = none := by
  unfold bootSlot
  dsimp only
  rw [h, h]
  rfl

/-- The first slot boots if it may, else the other one. -/
theorem bootSlot_some {m : Mgmt} {misread : BitVec 2} {b : Bool} {img : List Byte} (h : bootable m misread b = some img)
    (hb : b = firstSlot m ∨ bootable m misread (firstSlot m) = none) :
    bootSlot m misread = some (b, b != firstSlot m, img) := by
  have e : bootSlot m misread = match bootable m misread (firstSlot m) with
    | some img => some (firstSlot m, false, img)
    | none => (bootable m misread !firstSlot m).map fun img => (!firstSlot m, true, img) := rfl
  by_cases hf : b = firstSlot m
  · subst hf
    rw [e, h]
    simp
  · have hn : b = !firstSlot m := by cases b <;> simp_all
    subst hn
    rw [e, hb.resolve_left hf, h]
    simp

/-! ## The trim table and the board's settings (18 R485, R493) -/

theorem torn_good : TrimCopy.torn.good = false := rfl

/-- The trim table in use is good where one of the copies that read back is. -/
theorem bootTrim_calValid (m : Mgmt) (lost : BitVec 2) : (bootTrim m lost).calValid = true ↔
    ∃ i : Fin 2, lost.getLsbD i.val = false ∧ (m.trims.get i).good = true := by
  have hg (i : Fin 2) : ((vecOf 2 fun i => if lost.getLsbD i.val then TrimCopy.torn else m.trims.get i : Vector TrimCopy 2).get
      i).good = true ↔ lost.getLsbD i.val = false ∧ (m.trims.get i).good = true := by
    rw [get_vecOf]
    cases lost.getLsbD i.val <;> simp [torn_good]
  simp only [← hg]
  unfold bootTrim trimCopy otherTrim
  dsimp only
  generalize (vecOf 2 fun i => if lost.getLsbD i.val then TrimCopy.torn else m.trims.get i : Vector TrimCopy 2) = v
  rw [Fin.exists_fin_two]
  cases m.trimB <;> cases h0 : (v.get 0).good <;> cases h1 : (v.get 1).good <;> simp [h0, h1]

/-- The registers that the boot of the trim table sets. -/
theorem bootTrim_form (m : Mgmt) (lost : BitVec 2) : ∃ t b v f,
    bootTrim m lost = { m with trims := t, trimB := b, calValid := v, calFactory := f } := by
  unfold bootTrim
  dsimp only
  split
  · exact ⟨_, m.trimB, _, _, rfl⟩
  · split
    · exact ⟨_, _, _, _, rfl⟩
    · exact ⟨_, m.trimB, _, _, rfl⟩

/-- The first copy whose check holds is taken. -/
theorem bootCopy_some {bad rest : List CfgCopy} {c : CfgCopy} (hb : ∀ x ∈ bad, x.crc ≠ crc32c (Config.cfgBytes x.cfg))
    (hc : c.crc = crc32c (Config.cfgBytes c.cfg)) : bootCopy (bad ++ c :: rest) = some c.cfg := by
  unfold bootCopy
  rw [List.find?_append, List.find?_eq_none.mpr (fun x hx => by simpa using hb x hx), Option.none_or,
    List.find?_cons_of_pos (by simpa using hc)]
  rfl

theorem bootCopy_none {copies : List CfgCopy} (h : ∀ c ∈ copies, c.crc ≠ crc32c (Config.cfgBytes c.cfg)) :
    bootCopy copies = none := by
  unfold bootCopy
  rw [List.find?_eq_none.mpr (fun x hx => by simpa using h x hx)]
  rfl

/-- What the board's settings leave as it was. -/
theorem bootConfig_leaves (s : State) (cfg : Option BoardCfg) : ∃ a, (bootConfig s cfg).mgmt = { s.mgmt with sbAddr := a } ∧
    (bootConfig s cfg).mem.far = s.mem.far ∧ (bootConfig s cfg).sec.keys = s.sec.keys ∧
    (bootConfig s cfg).sec.stale = s.sec.stale ∧ (bootConfig s cfg).sec.ctr = s.sec.ctr ∧
    ∀ p, ((bootConfig s cfg).port p).cfg.enable = (s.port p).cfg.enable ∧
      ((bootConfig s cfg).port p).failed = (s.port p).failed ∧
      ((bootConfig s cfg).port p).retired = (s.port p).retired := by
  cases cfg with
  | none => exact ⟨s.mgmt.sbAddr, rfl, rfl, rfl, rfl, rfl, fun p => ⟨rfl, rfl, rfl⟩⟩
  | some c =>
    refine ⟨c.sbAddr, rfl, rfl, rfl, rfl, rfl, fun p => ?_⟩
    have e : (bootConfig s (some c)).port p = { s.port p with cfg := { (s.port p).cfg with pmd := c.pmd.getD p.val 1 } } :=
      get_vecOf ..
    rw [e]
    exact ⟨rfl, rfl, rfl⟩

/-! ## What the firmware's start records, and the ports that it trains -/

theorem closeStale_form (s : State) : ∃ f d v, closeStale s = { s with
    mgmt := { s.mgmt with faults := f, dropped := d }, twine := { s.twine with strands := v }
    sec := { s.sec with stale := false, ctr := if s.sec.stale = true then s.sec.ctr + 1 else s.sec.ctr } } := by
  unfold closeStale
  by_cases h : s.sec.stale = true
  · rw [if_neg (by simp [h]), if_pos h]
    exact record_form (s.setSec { s.sec with stale := false, ctr := s.sec.ctr + 1 }) 0x0B (some .ok) 0 0x02 [0]
  · rw [if_pos (by simp [h]), if_neg h]
    refine ⟨s.mgmt.faults, s.mgmt.dropped, s.twine.strands, ?_⟩
    rw [← Bool.not_eq_true _ |>.mp h]

theorem record_ite_form (s : State) (c : Prop) [Decidable c] (kind unit index : Nat) (args : List Nat) : ∃ f d v,
    (if c then record s kind none unit index args else s) =
      { s with mgmt := { s.mgmt with faults := f, dropped := d }, twine := { s.twine with strands := v } } := by
  split
  · exact record_form ..
  · exact ⟨s.mgmt.faults, s.mgmt.dropped, s.twine.strands, rfl⟩

/-- The records of a boot: of the slot, of the settings, of the trim table. -/
def bootRecords (s : State) (fallback : Bool) (cfg : Option BoardCfg) : State :=
  let s := if fallback then record s 0x0D none 12 0 [1] else s
  let s := if cfg.isNone then record s 0x0D none 12 0 [2] else s
  if s.mgmt.calValid then s else record s 0x0D none 13 0 [3]

theorem bootRecords_form (s : State) (fallback : Bool) (cfg : Option BoardCfg) : ∃ f d v, bootRecords s fallback cfg =
    { s with mgmt := { s.mgmt with faults := f, dropped := d }, twine := { s.twine with strands := v } } := by
  unfold bootRecords
  dsimp only
  obtain ⟨f1, d1, v1, e1⟩ := record_ite_form s (fallback = true) 0x0D 12 0 [1]
  rw [e1]
  generalize hu : ({ s with mgmt := { s.mgmt with faults := f1, dropped := d1 }, twine := { s.twine with strands := v1 } } :
    State) = u
  obtain ⟨f2, d2, v2, e2⟩ := record_ite_form u (cfg.isNone = true) 0x0D 12 0 [2]
  rw [e2]
  generalize hw : ({ u with mgmt := { u.mgmt with faults := f2, dropped := d2 }, twine := { u.twine with strands := v2 } } :
    State) = w
  obtain ⟨f3, d3, v3, e3⟩ := record_ite_form w (¬ w.mgmt.calValid = true) 0x0D 13 0 [3]
  refine ⟨f3, d3, v3, (ite_not ..).symm.trans (e3.trans ?_)⟩
  rw [← hw, ← hu]

theorem retrain_port_same (s : State) (p : Fin 32) :
    (retrain s p).port p = (s.port p).dropped (if portExists s p then (s.port p).restart else .off) := by
  unfold retrain
  exact dropPort_port_same ..

theorem retrain_port_ne (s : State) {p q : Fin 32} (h : q ≠ p) : (retrain s p).port q = s.port q := by
  unfold retrain
  exact dropPort_port_ne s h _

theorem retrain_mode (s : State) (p : Fin 32) : (retrain s p).eth.mode = s.eth.mode := by
  unfold retrain
  obtain ⟨w, e⟩ := dropPort_form s p (if portExists s p then (s.port p).restart else .off)
  rw [e]
  rfl

theorem Port.restart_dropped (y : Port) (l : Link) : (y.dropped l).restart = y.restart := rfl

theorem Port.link_dropped (y : Port) (l : Link) : (y.dropped l).link = l := rfl

/-- Every port that the mode has trains where it is enabled and in service. -/
theorem startPorts_link (s : State) (p : Fin 32) : ((startPorts s).port p).link =
    if p.val < portCount (startPorts s).eth.mode then ((startPorts s).port p).restart else .off := by
  refine foldl_finRange_each (P := fun (j : Fin 32) (t : State) => (t.port j).link =
    if j.val < portCount t.eth.mode then (t.port j).restart else .off) (fun t i => ?_) (fun t i j hj h => ?_) s p
  · rw [retrain_port_same, retrain_mode, Port.restart_dropped, Port.link_dropped]
    simp [portExists]
  · rw [retrain_port_ne t hj, retrain_mode]
    exact h

theorem startPorts_keeps {α : Type} {f : State → α} (hport : ∀ s p x, f (State.setPort s p x) = f s)
    (hwin : ∀ s w, f (State.setMgmt s { s.mgmt with win := w }) = f s) (s : State) : f (startPorts s) = f s := by
  refine foldl_keeps f _ (fun t p => ?_) _ s
  unfold retrain
  obtain ⟨w, e⟩ := dropPort_form t p (if portExists t p then (t.port p).restart else .off)
  rw [e]
  exact (hwin (t.setPort p _) w).trans (hport ..)

/-- What of a port the start of training leaves. -/
theorem startPorts_port {α : Type} {f : Port → α} (hf : ∀ y l, f (Port.dropped y l) = f y) (s : State) (p : Fin 32) :
    f ((startPorts s).port p) = f (s.port p) := by
  refine foldl_keeps (fun t => f (t.port p)) _ (fun t i => ?_) _ s
  by_cases e : p = i
  · subst e
    exact (congrArg f (retrain_port_same t p)).trans (hf ..)
  · exact congrArg f (retrain_port_ne t e)

/-! ## The firmware's start (18 R484, R488) -/

/-- The security controller is up and the expanders are out of reset, before the board's settings are taken. -/
def firmwareUp (s : State) (slotB fallback : Bool) (cfg : Option BoardCfg) (image : List Byte) : State :=
  let s := s.setMgmt { s.mgmt with
    phase := .mgmt, slot := slotB, lastB := slotB, fallback, cfgDefault := cfg.isNone, marked := false,
    fwHash := Config.sha384 image, svn := Config.imageSvn image, fwVersion := Config.imageVersion image }
  let s := s.setMem { s.mem with far := s.mem.far.map fun x => { x with link := .training, perst := false } }
  let s := bumpKey s 2 .loaded (some (firmwareKey s.mgmt.svn))
  bumpKey s 3 .loaded (some (journalKey s.twine.nonce))

/-- What follows the board's settings. -/
def portsStarted (s : State) (fallback : Bool) (cfg : Option BoardCfg) : State :=
  startPorts (bootRecords (closeStale s) fallback cfg)

theorem runFirmware_eq (s : State) (b fallback : Bool) (cfg : Option BoardCfg) (img : List Byte) :
    runFirmware s b fallback cfg img = portsStarted (bootConfig (firmwareUp s b fallback cfg img) cfg) fallback cfg := by
  unfold runFirmware portsStarted firmwareUp bootRecords
  rfl

theorem firmwareUp_ups (s : State) (b fallback : Bool) (cfg : Option BoardCfg) (img : List Byte) :
    let t := firmwareUp s b fallback cfg img
    t.mgmt = { s.mgmt with
      phase := .mgmt, slot := b, lastB := b, fallback, cfgDefault := cfg.isNone, marked := false
      fwHash := Config.sha384 img, svn := Config.imageSvn img, fwVersion := Config.imageVersion img } ∧
    (∀ i : Fin 2, (t.mem.far.get i).link = .training ∧ (t.mem.far.get i).perst = false) ∧
    (t.sec.keys.get 2).st = .loaded ∧ (t.sec.keys.get 3).st = .loaded ∧ t.sec.stale = s.sec.stale ∧
    t.sec.ctr = s.sec.ctr ∧ t.eth = s.eth := by
  intro t
  refine ⟨rfl, fun i => ?_, ?_, congrArg KeySlot.st (get_upd_same ..), rfl, rfl, rfl⟩
  · have e : t.mem.far.get i = { s.mem.far.get i with link := .training, perst := false } := Vector.get_map ..
    rw [e]
    exact ⟨rfl, rfl⟩
  · exact (congrArg KeySlot.st (get_upd_ne _ _ (by decide))).trans (congrArg KeySlot.st (get_upd_same ..))

/-- What the records and the training of the ports leave. -/
theorem recorded_leaves (s : State) (fallback : Bool) (cfg : Option BoardCfg) : ∃ f d v,
    bootRecords (closeStale s) fallback cfg = { s with
      mgmt := { s.mgmt with faults := f, dropped := d }, twine := { s.twine with strands := v }
      sec := { s.sec with stale := false, ctr := if s.sec.stale = true then s.sec.ctr + 1 else s.sec.ctr } } := by
  obtain ⟨f1, d1, v1, e1⟩ := closeStale_form s
  obtain ⟨f2, d2, v2, e2⟩ := bootRecords_form (closeStale s) fallback cfg
  exact ⟨f2, d2, v2, by rw [e2, e1]⟩

theorem portsStarted_mgmt {α : Type} {f : Mgmt → α} (hr : ∀ m r d, f { m with faults := r, dropped := d } = f m)
    (hw : ∀ m w, f { m with win := w } = f m) (s : State) (fallback : Bool) (cfg : Option BoardCfg) :
    f (portsStarted s fallback cfg).mgmt = f s.mgmt := by
  obtain ⟨r, d, v, e⟩ := recorded_leaves s fallback cfg
  unfold portsStarted
  rw [startPorts_keeps (f := fun s => f s.mgmt) (fun _ _ _ => rfl) (fun _ _ => hw ..), e]
  exact hr ..

theorem portsStarted_leaves (s : State) (fallback : Bool) (cfg : Option BoardCfg) :
    let t := portsStarted s fallback cfg
    t.mem = s.mem ∧ t.pwr = s.pwr ∧ t.eth.mode = s.eth.mode ∧
    t.sec = { s.sec with stale := false, ctr := if s.sec.stale = true then s.sec.ctr + 1 else s.sec.ctr } := by
  obtain ⟨r, d, v, e⟩ := recorded_leaves s fallback cfg
  have hk {α : Type} {f : State → α} (hport : ∀ s p x, f (State.setPort s p x) = f s)
      (hwin : ∀ s w, f (State.setMgmt s { s.mgmt with win := w }) = f s) : f (portsStarted s fallback cfg) =
      f (bootRecords (closeStale s) fallback cfg) := startPorts_keeps hport hwin _
  rw [e] at hk
  exact ⟨hk (f := State.mem) (fun _ _ _ => rfl) fun _ _ => rfl, hk (f := State.pwr) (fun _ _ _ => rfl) fun _ _ => rfl,
    hk (f := fun s => s.eth.mode) (fun _ _ _ => rfl) fun _ _ => rfl,
    hk (f := State.sec) (fun _ _ _ => rfl) fun _ _ => rfl⟩

/-- A port that the mode has, enabled and in service, trains. -/
theorem portsStarted_trains (s : State) (fallback : Bool) (cfg : Option BoardCfg) (p : Fin 32)
    (hp : p.val < portCount (portsStarted s fallback cfg).eth.mode) (he : (s.port p).cfg.enable = true)
    (hf : (s.port p).failed = false) (hr : (s.port p).retired = false) :
    ((portsStarted s fallback cfg).port p).link = .training := by
  obtain ⟨r, d, v, e⟩ := recorded_leaves s fallback cfg
  have hport : (bootRecords (closeStale s) fallback cfg).port p = s.port p := congrArg (·.port p) e
  unfold portsStarted at hp ⊢
  rw [startPorts_link, if_pos hp, startPorts_port (f := Port.restart) (fun _ _ => rfl), hport]
  simp [Port.restart, he, hf, hr]

/-- What the start of the firmware sets. -/
theorem runFirmware_runs (s : State) (b fallback : Bool) (cfg : Option BoardCfg) (img : List Byte) :
    let t := runFirmware s b fallback cfg img
    t.mgmt.phase = .mgmt ∧ t.mgmt.slot = b ∧ t.mgmt.fallback = fallback ∧ t.mgmt.lastB = b ∧
      t.mgmt.fwHash = Config.sha384 img ∧ (t.sec.keys.get 2).st = .loaded ∧ (t.sec.keys.get 3).st = .loaded ∧
      t.sec.ctr = (if s.sec.stale = true then s.sec.ctr + 1 else s.sec.ctr) ∧ t.mgmt.calValid = s.mgmt.calValid ∧
      t.mgmt.cfgDefault = cfg.isNone ∧ t.mgmt.skeinsUp = s.mgmt.skeinsUp ∧
      (∀ i : Fin 2, (t.mem.far.get i).link = .training ∧ (t.mem.far.get i).perst = false) ∧
      ∀ p : Fin 32, p.val < portCount t.eth.mode → (s.port p).cfg.enable = true → (s.port p).failed = false →
        (s.port p).retired = false → (t.port p).link = .training := by
  obtain ⟨u1, u2, u3, u4, u5, u6, u7⟩ := firmwareUp_ups s b fallback cfg img
  intro t
  have ht : t = portsStarted (bootConfig (firmwareUp s b fallback cfg img) cfg) fallback cfg := runFirmware_eq ..
  rw [ht]
  clear ht t
  generalize firmwareUp s b fallback cfg img = u at *
  obtain ⟨a, c1, c2, c3, c4, c5, c6⟩ := bootConfig_leaves u cfg
  generalize bootConfig u cfg = v at *
  obtain ⟨l1, -, -, l4⟩ := portsStarted_leaves v fallback cfg
  have hm {α : Type} {f : Mgmt → α} (hr : ∀ m r d, f { m with faults := r, dropped := d } = f m)
      (hw : ∀ m w, f { m with win := w } = f m) : f (portsStarted v fallback cfg).mgmt = f { u.mgmt with sbAddr := a } :=
    (portsStarted_mgmt hr hw v fallback cfg).trans (congrArg f c1)
  rw [u1] at hm
  rw [l1, l4, c2, c3, c4, c5, u5, u6]
  refine ⟨hm (f := Mgmt.phase) (fun _ _ _ => rfl) fun _ _ => rfl, hm (f := Mgmt.slot) (fun _ _ _ => rfl) fun _ _ => rfl,
    hm (f := Mgmt.fallback) (fun _ _ _ => rfl) fun _ _ => rfl, hm (f := Mgmt.lastB) (fun _ _ _ => rfl) fun _ _ => rfl,
    hm (f := Mgmt.fwHash) (fun _ _ _ => rfl) fun _ _ => rfl, u3, u4, rfl,
    hm (f := Mgmt.calValid) (fun _ _ _ => rfl) fun _ _ => rfl,
    hm (f := Mgmt.cfgDefault) (fun _ _ _ => rfl) fun _ _ => rfl,
    hm (f := Mgmt.skeinsUp) (fun _ _ _ => rfl) fun _ _ => rfl, u2, fun p hp he hf hr => ?_⟩
  obtain ⟨p1, p2, p3⟩ := c6 p
  have hu : u.port p = s.port p := congrArg (fun e : Eth => e.ports.get p) u7
  rw [hu] at p1 p2 p3
  exact portsStarted_trains v fallback cfg p hp (p1.trans he) (p2.trans hf) (p3.trans hr)

/-- Without a good copy of the board's settings the mode stays and every rail's readings are missing. -/
theorem runFirmware_default (s : State) (b fallback : Bool) (img : List Byte) :
    (runFirmware s b fallback none img).eth.mode = s.eth.mode ∧
      ∀ r, ((runFirmware s b fallback none img).pwr.rails.get r).missing = true := by
  rw [runFirmware_eq]
  obtain ⟨-, -, -, -, -, -, u7⟩ := firmwareUp_ups s b fallback none img
  generalize firmwareUp s b fallback none img = u at *
  obtain ⟨-, l2, l3, -⟩ := portsStarted_leaves (bootConfig u none) fallback none
  rw [l2, l3]
  exact ⟨congrArg Eth.mode u7, fun r => congrArg Rail.missing (Vector.get_map ..)⟩

/-- The board's settings are in effect. -/
theorem runFirmware_settings (s : State) (b fallback : Bool) (c : BoardCfg) (img : List Byte) :
    let t := runFirmware s b fallback (some c) img
    t.eth.mode = c.mode ∧ t.mgmt.sbAddr = c.sbAddr ∧ t.mem.bifur = c.bifur ∧ t.sec.scrubMode = c.scrub ∧
      t.pwr.pmbus = c.pmbus ∧ t.pwr.avs = c.avs := by
  intro t
  have ht : t = portsStarted (bootConfig (firmwareUp s b fallback (some c) img) (some c)) fallback (some c) :=
    runFirmware_eq ..
  rw [ht]
  clear ht t
  generalize firmwareUp s b fallback (some c) img = u
  obtain ⟨l1, l2, l3, l4⟩ := portsStarted_leaves (bootConfig u (some c)) fallback (some c)
  rw [l1, l2, l3, l4, portsStarted_mgmt (f := Mgmt.sbAddr) (fun _ _ _ => rfl) fun _ _ => rfl]
  exact ⟨rfl, rfl, rfl, rfl, rfl, rfl⟩

/-! ## The order of bring-up (18 R488, R490) -/

theorem warmReady_of_phase {s : State} (h : bootPhase s ≠ .mgmt) : warmReady s = false := by
  unfold warmReady
  rw [beq_eq_false_iff_ne.mpr h]
  rfl

theorem warmReady_of_skein {s : State} (h : s.mgmt.skeinsUp.getLsbD 0 = false) : warmReady s = false := by
  unfold warmReady
  dsimp only
  rw [h, Bool.and_false]

theorem bootPhase_of_ne {s : State} {ph : Boot} (h : s.mgmt.phase = ph) (hp : ph ≠ .stopped) : bootPhase s = ph := by
  unfold bootPhase
  rw [h, if_neg hp]

/-- The firmware's start does not itself bring the device to warm-up. -/
theorem advance_firmware {s t : State} {misread lost : BitVec 2} {copies : List CfgCopy}
    (h : bootFirmware s misread copies lost = t) (hw : warmReady t = false) :
    exec (.bringupPhaseAdvance (.firmware misread copies lost)) s = .next t := by
  have e : doBringupPhaseAdvance (.firmware misread copies lost) s = t := by
    unfold doBringupPhaseAdvance
    dsimp only
    rw [h, if_neg (by simp [hw])]
  exact congrArg Host.Outcome.next e

theorem bootTurn_mgmt {s : State} (h : bootPhase s = .mgmt) (early : Bool) : bootTurn s early = early := by
  unfold bootTurn
  rw [h]
  cases early <;> rfl

/-- Before warm-up no other stack than 0 and 1 comes. -/
theorem advance_stack_late {s : State} (h : bootPhase s = .mgmt) (hw : warmReady s = false) (k : Fin 8) (c : BitVec 32)
    (hk : 2 ≤ k.val) : exec (.bringupPhaseAdvance (.stack k c)) s = .next s := by
  have hs : bootStack s k c = s := by
    unfold bootStack
    dsimp only
    rw [bootTurn_mgmt h, if_pos (by simp [show ¬ k.val < 2 by omega])]
  have e : doBringupPhaseAdvance (.stack k c) s = s := by
    unfold doBringupPhaseAdvance
    dsimp only
    rw [hs, if_neg (by simp [hw])]
  exact congrArg Host.Outcome.next e

/-- Before warm-up no other skein than 0 comes. -/
theorem advance_skein_late {s : State} (h : bootPhase s = .mgmt) (hw : warmReady s = false) (k : Fin 8) (sp : BitVec 17)
    (fl : BitVec 4) (hk : k ≠ 0) : exec (.bringupPhaseAdvance (.skein k sp fl)) s = .next s := by
  have hs : bootSkein s k sp fl = s := by
    unfold bootSkein
    dsimp only
    rw [bootTurn_mgmt h, if_pos (by simp [hk])]
  have e : doBringupPhaseAdvance (.skein k sp fl) s = s := by
    unfold doBringupPhaseAdvance
    dsimp only
    rw [hs, if_neg (by simp [hw])]
  exact congrArg Host.Outcome.next e

/-- The state but for the skeins and the fault records. -/
def partView (s : State) : Mem × Pwr × Mgmt := (s.mem, s.pwr, { s.mgmt with faults := [], dropped := 0 })

theorem record_partView (s : State) (kind : Nat) (st : Option Status) (unit index : Nat) (args : List Nat) :
    partView (record s kind st unit index args) = partView s := by
  obtain ⟨f, d, v, e⟩ := record_form s kind st unit index args
  rw [e]
  rfl

/-- A skein that is tested counts as up; its lost spindles and flyers are recorded. -/
theorem bootSkein_partView {s : State} {k : Fin 8} (hu : s.mgmt.skeinsUp.getLsbD k.val = false)
    (ht : bootTurn s (k == 0) = true) (sp : BitVec 17) (fl : BitVec 4) : partView (bootSkein s k sp fl) =
      partView (s.setMgmt { s.mgmt with skeinsUp := s.mgmt.skeinsUp ||| (1#8 <<< k.val) }) := by
  unfold bootSkein
  dsimp only
  rw [hu, ht, if_neg (by decide)]
  rw [foldl_keeps partView _ fun t f => ?_]
  · refine foldl_keeps partView _ (fun t l => ?_) _ _
    split
    · exact record_partView ..
    · rfl
  · split
    · exact record_partView ..
    · rfl

/-- With stacks 0 and 1 done, skein 0 begins warm-up. -/
theorem advance_skein_warms {s : State} (h : bootPhase s = .mgmt) (hw : s.mgmt.warming = false)
    (h0 : (s.mem.stack.get 0).trained = true ∨ (s.mem.stack.get 0).lost = true)
    (h1 : (s.mem.stack.get 1).trained = true ∨ (s.mem.stack.get 1).lost = true)
    (hu : s.mgmt.skeinsUp.getLsbD 0 = false) (hh : halted s = false) (sp : BitVec 17) (fl : BitVec 4) :
    ∃ t, exec (.bringupPhaseAdvance (.skein 0 sp fl)) s = .next t ∧ t.mgmt.phase = .warmup ∧
      t.mgmt.skeinsUp = s.mgmt.skeinsUp ||| 1 := by
  have hv := bootSkein_partView (k := 0) hu (bootTurn_mgmt h _) sp fl
  have hmem : (bootSkein s 0 sp fl).mem = s.mem := congrArg (·.1) hv
  have hpwr : (bootSkein s 0 sp fl).pwr = s.pwr := congrArg (·.2.1) hv
  have hm {α : Type} {f : Mgmt → α} (hf : ∀ m, f { m with faults := [], dropped := 0 } = f m) :
      f (bootSkein s 0 sp fl).mgmt = f { s.mgmt with skeinsUp := s.mgmt.skeinsUp ||| (1#8 <<< 0) } :=
    (hf _).symm.trans ((congrArg (fun v => f v.2.2) hv).trans (hf _))
  have e : doBringupPhaseAdvance (.skein 0 sp fl) s =
      if warmReady (bootSkein s 0 sp fl) then enterPhase (bootSkein s 0 sp fl) .warmup else bootSkein s 0 sp fl := by
    unfold doBringupPhaseAdvance
    rfl
  generalize bootSkein s 0 sp fl = t at *
  have hup : t.mgmt.skeinsUp = s.mgmt.skeinsUp ||| 1 := hm (f := Mgmt.skeinsUp) fun _ => rfl
  have hr : warmReady t = true := by
    have hb : bootPhase t = .mgmt := by
      unfold bootPhase at h ⊢
      rw [hm (f := Mgmt.phase) fun _ => rfl, hm (f := Mgmt.resume) fun _ => rfl]
      exact h
    unfold warmReady
    dsimp only
    rw [hb, hmem, hup, hm (f := Mgmt.warming) fun _ => rfl]
    simp [hw, h0, h1]
  have ht : halted t = false := by
    unfold halted at hh ⊢
    rw [hpwr, hm (f := Mgmt.stop) fun _ => rfl, hm (f := Mgmt.run) fun _ => rfl]
    exact hh
  rw [if_pos hr, enterPhase_runs ht] at e
  exact ⟨_, congrArg Host.Outcome.next e, rfl, hup⟩

/-! ## Full service (09 R233, 18 R490) -/

/-- A far link that nobody uses gets no clock; the rest of the state stays. -/
theorem clockOut_leaves (s : State) (i : Fin 2) : (clockOut s i).mgmt = s.mgmt ∧ (clockOut s i).pwr = s.pwr ∧
    ∃ f, (clockOut s i).mem = { s.mem with far := f } := by
  unfold clockOut
  dsimp only
  split
  · exact ⟨rfl, rfl, _, rfl⟩
  · exact ⟨rfl, rfl, s.mem.far, rfl⟩

theorem clockOut_far_same (s : State) (i : Fin 2) : ((clockOut s i).mem.far.get i).gib = (s.mem.far.get i).gib ∧
    ((s.mem.far.get i).gib = 0 → ((clockOut s i).mem.far.get i).clkOut = false) := by
  unfold clockOut
  dsimp only
  split
  · next h =>
    have e : (((s.setMem (s.mem.setFar i { s.mem.far.get i with clkOut := false })).say (.pin (1 + i.val) false)).mem.far.get
        i) = { s.mem.far.get i with clkOut := false } := get_upd_same ..
    rw [e]
    exact ⟨rfl, fun _ => rfl⟩
  · next h =>
    exact ⟨rfl, fun hg => by simpa [hg] using h⟩

theorem clockOut_far_ne (s : State) {i j : Fin 2} (h : j ≠ i) : (clockOut s i).mem.far.get j = s.mem.far.get j := by
  unfold clockOut
  dsimp only
  split
  · exact get_upd_ne _ _ h
  · rfl

/-- The clocks of both far links follow what stands behind them. -/
theorem clockOuts_far (s : State) (i : Fin 2) (h : (s.mem.far.get i).gib = 0) :
    ((clockOut (clockOut s 0) 1).mem.far.get i).clkOut = false := by
  rcases (by decide : ∀ i : Fin 2, i = 0 ∨ i = 1) i with rfl | rfl
  · rw [clockOut_far_ne _ (by decide)]
    exact (clockOut_far_same s 0).2 h
  · refine (clockOut_far_same _ 1).2 ?_
    rw [clockOut_far_ne _ (by decide)]
    exact h

/-- The memory of full service: every stack that trained is in service, under the interleave. -/
def fullMem (m : Mem) : Mem :=
  let il := fullInterleave m
  let stack := m.stack.map fun (y : Stack) => { y with up := y.trained && !y.lost }
  let m := { m with stack, il, ilKept := [] }
  if il = [] then m else m.resized

theorem fullMem_leaves (m : Mem) : (fullMem m).il = fullInterleave m ∧ (fullMem m).far = m.far ∧
    (fullMem m).stack = m.stack.map fun (y : Stack) => { y with up := y.trained && !y.lost } := by
  unfold fullMem
  dsimp only
  split <;> exact ⟨rfl, rfl, rfl⟩

/-- The memory mapped and the clocks set. -/
def mappedOut (s : State) : State := clockOut (clockOut (s.setMem (fullMem s.mem)) 0) 1

theorem mappedOut_leaves (s : State) : (mappedOut s).mgmt = s.mgmt ∧ (mappedOut s).pwr = s.pwr ∧
    ∃ f, (mappedOut s).mem = { fullMem s.mem with far := f } := by
  unfold mappedOut
  obtain ⟨a1, a2, f, a3⟩ := clockOut_leaves (s.setMem (fullMem s.mem)) 0
  obtain ⟨b1, b2, g, b3⟩ := clockOut_leaves (clockOut (s.setMem (fullMem s.mem)) 0) 1
  exact ⟨b1.trans a1, b2.trans a2, g, by rw [b3, a3]; rfl⟩

/-- A rebuild that waited for full service is done. -/
def rebuiltFull (s : State) (due : Bool) : State :=
  let s := enterPhase s .full
  if due then rebuildNow (s.setMem { s.mem with rebuildDue := false }) else s

theorem rebuildNow_leaves (s : State) : (rebuildNow s).mgmt = s.mgmt ∧ (rebuildNow s).mem.stack = s.mem.stack ∧
    (rebuildNow s).mem.far = s.mem.far := by
  unfold rebuildNow
  split
  · split <;> exact ⟨rfl, rfl, rfl⟩
  · exact ⟨rfl, rfl, rfl⟩

theorem rebuiltFull_leaves {s : State} (h : halted s = false) (due : Bool) : (rebuiltFull s due).mgmt.phase = .full ∧
    (rebuiltFull s due).mem.stack = s.mem.stack ∧ (rebuiltFull s due).mem.far = s.mem.far ∧
    (due = false → (rebuiltFull s due).mem.il = s.mem.il) := by
  unfold rebuiltFull
  rw [enterPhase_runs h]
  cases due with
  | false => exact ⟨rfl, rfl, rfl, fun _ => rfl⟩
  | true =>
    obtain ⟨r1, r2, r3⟩ := rebuildNow_leaves ((s.setMgmt { s.mgmt with phase := .full }).setMem
      { s.mem with rebuildDue := false })
    exact ⟨congrArg Mgmt.phase r1, r2, r3, nofun⟩

theorem fullReady_of {s : State} (h : bootPhase s = .warmup) (hw : s.mgmt.warming = false) (hu : s.mgmt.skeinsUp = 0xFF)
    (hd : ∀ k, (s.mem.stack.get k).trained = true ∨ (s.mem.stack.get k).lost = true) (hc : s.mgmt.cxlDone = true) :
    fullReady s = true := by
  have hall : (s.mem.stack.toList.all fun y => y.trained || y.lost) = true := by
    rw [List.all_eq_true]
    intro y hy
    obtain ⟨k, hk, rfl⟩ := List.getElem_of_mem hy
    simpa [Vector.get] using hd ⟨k, by simpa using hk⟩
  unfold fullReady
  rw [h, hw, hu, hc, hall]
  rfl

theorem doFullService_serves {s : State} (h : fullReady s = true) : doFullService s =
    finishWork (boundaries (rehome (rebuiltFull (mappedOut s) s.mem.rebuildDue)) (List.finRange 136)) := by
  unfold doFullService
  rw [if_neg (by simp [h])]
  rfl

/-- Full service: the stacks that trained serve, under the interleave that was kept or that of all stacks. -/
theorem fullService_serves {s : State} (h : fullReady s = true) (hh : halted s = false) :
    ∃ t, exec .fullService s = .next t ∧ t.mgmt.phase = .full ∧
      (∀ k : Fin 8, (t.mem.stack.get k).up = ((s.mem.stack.get k).trained && !(s.mem.stack.get k).lost)) ∧
      (∀ i : Fin 2, (s.mem.far.get i).gib = 0 → (t.mem.far.get i).clkOut = false) ∧
      (s.mem.rebuildDue = false → t.mem.il = fullInterleave s.mem) := by
  have hfar (i : Fin 2) (hg : (s.mem.far.get i).gib = 0) : ((mappedOut s).mem.far.get i).clkOut = false := by
    refine clockOuts_far (s.setMem (fullMem s.mem)) i ?_
    rw [← hg]
    exact congrArg (fun v : Vector Far 2 => (v.get i).gib) (fullMem_leaves s.mem).2.1
  obtain ⟨u1, u2, f, u3⟩ := mappedOut_leaves s
  obtain ⟨i1, -, i3⟩ := fullMem_leaves s.mem
  have hd := doFullService_serves h
  have hu : halted (mappedOut s) = false := by
    unfold halted at hh ⊢
    rw [u1, u2]
    exact hh
  generalize mappedOut s = u at *
  obtain ⟨r1, r2, r3, r4⟩ := rebuiltFull_leaves hu s.mem.rebuildDue
  have hv : ResumeKept (rebuiltFull u s.mem.rebuildDue) (doFullService s) := by
    rw [hd]
    exact ResumeKept.refl.rehome.boundaries.finishWork
  refine ⟨doFullService s, rfl, hv.keeps_mgmt_phase.trans r1, fun k => ?_, fun i hg => ?_, fun hr => ?_⟩
  · rw [hv.keeps_mem_stack, r2, u3, i3]
    exact congrArg Stack.up (Vector.get_map ..)
  · rw [hv.keeps_mem_far, r3]
    exact hfar i hg
  · rw [hv.keeps_mem_il, r4 hr, u3]
    exact i1

theorem fullInterleave_kept {m : Mem} (h : m.ilKept ≠ []) : fullInterleave m = m.ilKept := if_pos h

theorem fullInterleave_all {m : Mem} (h : m.ilKept = [])
    (hk : ∀ k, (m.stack.get k).trained = true ∧ (m.stack.get k).lost = false) : fullInterleave m = List.finRange 8 := by
  have hall : (m.stack.toList.all fun y => y.trained && !y.lost) = true := by
    rw [List.all_eq_true]
    intro y hy
    obtain ⟨k, hlt, rfl⟩ := List.getElem_of_mem hy
    simpa [Vector.get] using hk ⟨k, by simpa using hlt⟩
  unfold fullInterleave
  rw [if_neg (by simp [h]), if_pos hall]

/-! ## The pins of bring-up and the STOP order (18 R484, R504) -/

theorem resetNRise_samples {s : State} (g : PowerGood) (h : s.mgmt.phase = .reset) (hn : s.mgmt.resetN = false) :
    ∃ t, exec (.resetNRise g) s = .next t ∧ t.mgmt.resetN = true ∧ t.mgmt.clockLost = !g.refclk ∧
      t.mgmt.railsOk = g.rails ∧ t.mgmt.testEn = g.testEn ∧ t.mgmt.phase = .reset := by
  have e : doResetNRise g s = s.setMgmt { s.mgmt with
      resetN := true, clockLost := !g.refclk, railsOk := g.rails, testEn := g.testEn, resetAt := s.now, coldAt := s.now } :=
    if_neg (by simp [h, hn])
  exact ⟨_, congrArg Host.Outcome.next e, rfl, rfl, rfl, rfl, h⟩

theorem heldInReset_iff {m : Mgmt} : heldInReset m = true ↔ m.clockLost = true ∨ m.railsOk = false ∨ m.testEn = true := by
  simp [heldInReset, or_assoc]

theorem whorlLockRetry_samples {s : State} (g : PowerGood) (h : s.mgmt.phase = .reset) (hn : s.mgmt.resetN = true)
    (hh : heldInReset s.mgmt = true) : exec (.whorlLockRetry g) s = .next { s with
      mgmt := { s.mgmt with clockLost := !g.refclk, railsOk := g.rails, testEn := g.testEn } } := by
  have e : doWhorlLockRetry g s = s.setMgmt { s.mgmt with
      clockLost := !g.refclk, railsOk := g.rails, testEn := g.testEn } := if_pos ⟨h, hn, hh⟩
  exact congrArg Host.Outcome.next e

theorem mgmtStop_stops {s : State} (h : s.mgmt.phase = .full ∨ s.mgmt.phase = .warmup) :
    ∃ t, exec (.mgmtStop true) s = .next t ∧ t.mgmt.phase = .stopped ∧ t.mgmt.resume = s.mgmt.phase ∧
      t.pwr.pstate = .p3 := by
  obtain ⟨h1, h2, h3⟩ := settleRun_stops (s := s.setMgmt { s.mgmt with stop := true }) h rfl
  exact ⟨_, rfl, h1, h2, congrArg Pwr.pstate h3⟩

theorem mgmtStop_runs {s : State} (h : s.mgmt.phase = .stopped) (hr : s.mgmt.run = true) (hs : s.pwr.stopped = false)
    (hp : s.mgmt.resume ≠ .stopped) (h3 : s.pwr.pstate = .p3) :
    ∃ t, exec (.mgmtStop false) s = .next t ∧ t.mgmt.phase = s.mgmt.resume ∧ t.pwr.exiting = true := by
  have e : doMgmtStop false s = startExit (s.setMgmt { s.mgmt with stop := false, phase := s.mgmt.resume }) := by
    have hh : halted (s.setMgmt { s.mgmt with stop := false }) = false := by
      unfold halted
      dsimp only [State.setMgmt]
      rw [hr, hs]
      rfl
    unfold doMgmtStop settleRun
    rw [show (s.setMgmt { s.mgmt with stop := false }).mgmt.phase = .stopped from h]
    dsimp only
    rw [hh]
    rfl
  obtain ⟨x, hx⟩ := startExit_form (s.setMgmt { s.mgmt with stop := false, phase := s.mgmt.resume })
  exact ⟨_, congrArg Host.Outcome.next e, (congrArg (·.mgmt.phase) hx :), startExit_exits (.inl h3) hp⟩

/-! ## The boot ROM (18 R484, R485, R488) -/

theorem bootFirmware_held {s : State} (misread lost : BitVec 2) (copies : List CfgCopy)
    (h : s.mgmt.resetN = false ∨ heldInReset s.mgmt = true) : bootFirmware s misread copies lost = s := by
  have hr : romRuns s.mgmt = false := by
    unfold romRuns
    rcases h with h | h <;> simp [h]
  unfold bootFirmware
  rw [hr]
  rfl

section

variable {s : State} {misread lost : BitVec 2} {copies : List CfgCopy} (hr : romRuns s.mgmt = true)
include hr

theorem bootFirmware_none (h : bootSlot s.mgmt misread = none) :
    bootFirmware s misread copies lost = s.setMgmt { s.mgmt with phase := .recovery } := by
  unfold bootFirmware
  rw [hr, h]
  rfl

theorem bootFirmware_some {b fallback : Bool} {img : List Byte} (h : bootSlot s.mgmt misread = some (b, fallback, img)) :
    bootFirmware s misread copies lost = runFirmware (s.setMgmt (bootTrim s.mgmt lost)) b fallback (bootCopy copies) img := by
  unfold bootFirmware
  rw [hr, h]
  rfl

end

theorem romRuns_of {m : Mgmt} (h : m.phase = .reset) (hn : m.resetN = true) (hh : heldInReset m = false) :
    romRuns m = true := by
  unfold romRuns
  rw [h, hn, hh]
  rfl

/-- Without a slot that boots the device is in RECOVERY. -/
theorem advance_firmware_recovers {s : State} {misread : BitVec 2} (hr : romRuns s.mgmt = true)
    (h : ∀ b, bootable s.mgmt misread b = none) (lost : BitVec 2) (copies : List CfgCopy) :
    exec (.bringupPhaseAdvance (.firmware misread copies lost)) s =
      .next { s with mgmt := { s.mgmt with phase := .recovery } } :=
  advance_firmware (bootFirmware_none hr (bootSlot_none h)) 
    (warmReady_of_phase (ne_of_eq_of_ne (bootPhase_of_ne (ph := .recovery) rfl (by decide)) (by decide)))

/-- The firmware of the slot that boots runs. -/
theorem advance_firmware_boots {s : State} {misread : BitVec 2} (hr : romRuns s.mgmt = true) (hu : s.mgmt.skeinsUp = 0)
    {b : Bool} {img : List Byte} (h : bootable s.mgmt misread b = some img)
    (hb : b = firstSlot s.mgmt ∨ bootable s.mgmt misread (firstSlot s.mgmt) = none) (lost : BitVec 2)
    (copies : List CfgCopy) : exec (.bringupPhaseAdvance (.firmware misread copies lost)) s =
      .next (runFirmware (s.setMgmt (bootTrim s.mgmt lost)) b (b != firstSlot s.mgmt) (bootCopy copies) img) := by
  refine advance_firmware (bootFirmware_some hr (bootSlot_some h hb)) (warmReady_of_skein ?_)
  obtain ⟨-, -, -, -, -, -, -, -, -, -, hk, -, -⟩ := runFirmware_runs (s.setMgmt (bootTrim s.mgmt lost)) b
    (b != firstSlot s.mgmt) (bootCopy copies) img
  obtain ⟨t, c, v, f, e⟩ := bootTrim_form s.mgmt lost
  have hs : (bootTrim s.mgmt lost).skeinsUp = 0 := (congrArg Mgmt.skeinsUp e).trans hu
  rw [hk.trans hs]
  rfl

/-- Settles O54: each step of bring-up does what its function does on a state that meets its conditions; the boot is that of
the slot that `bootSlot` finds. -/
theorem bringUp : Obligations.BringUp := by
  unfold Obligations.BringUp
  intro g misread lost copies s done held
  refine ⟨fun h hn => resetNRise_samples g h hn,
    fun h hn hh => whorlLockRetry_samples g h hn (heldInReset_iff.mpr hh), fun h hh => ?_, fun h hn hh hu => ?_,
    fun h hw => ⟨advance_stack_late h hw, advance_skein_late h hw⟩,
    fun h hw h0 h1 hu hh sp fl => advance_skein_warms h hw h0 h1 hu hh sp fl, fun h hw hu hd hc hh => ?_,
    fun h => mgmtStop_stops h, fun h hr hs hp h3 => mgmtStop_runs h hr hs hp h3⟩
  · exact advance_firmware (bootFirmware_held misread lost copies (hh.imp_right heldInReset_iff.mpr))
      (warmReady_of_phase (ne_of_eq_of_ne (bootPhase_of_ne h (by decide)) (by decide)))
  · intro boots first
    have hr : romRuns s.mgmt = true := romRuns_of h hn (by simpa using mt heldInReset_iff.mp hh)
    refine ⟨fun hb => advance_firmware_recovers hr (fun b => bootable_none (hb b)) lost copies, fun b img hb hf =>
      ⟨_, advance_firmware_boots hr hu (bootable_iff.mpr hb) (hf.imp_right bootable_none) lost copies, ?_⟩⟩
    have hcal := bootTrim_calValid s.mgmt lost
    generalize hw : s.setMgmt (bootTrim s.mgmt lost) = w
    obtain ⟨hwc, hws, hwe⟩ : w.mgmt.calValid = (bootTrim s.mgmt lost).calValid ∧ w.sec = s.sec ∧ w.eth = s.eth := by
      rw [← hw]
      exact ⟨rfl, rfl, rfl⟩
    clear hw
    have hport (p : Fin 32) : w.port p = s.port p := congrArg (fun e : Eth => e.ports.get p) hwe
    obtain ⟨r1, r2, r3, r4, r5, r6, r7, r8, r9, r10, -, r12, r13⟩ :=
      runFirmware_runs w b (b != firstSlot s.mgmt) (bootCopy copies) img
    refine ⟨r1, r2, r3, r4, r5, r6, r7, fun hst => ?_, ?_, fun hc => ?_, fun bad c rest he hbad hc => ?_, r12,
      fun p hp he hf hq => ?_⟩
    · rw [r8, hws, if_pos hst]
    · rw [r9, hwc]
      exact hcal
    · rw [bootCopy_none hc] at r10 ⊢
      obtain ⟨d1, d2⟩ := runFirmware_default w b (b != firstSlot s.mgmt) img
      exact ⟨r10, d1.trans (congrArg Eth.mode hwe), d2⟩
    · subst he
      rw [bootCopy_some hbad hc] at r10 ⊢
      exact ⟨r10, runFirmware_settings w b (b != firstSlot s.mgmt) c.cfg img⟩
    · exact r13 p hp (by rwa [hport]) (by rwa [hport]) (by rwa [hport])
  · obtain ⟨t, ht, h1, h2, h3, h4⟩ := fullService_serves (fullReady_of h hw hu hd hc) hh
    exact ⟨t, ht, h1, h2, h3, fun hr hk => (h4 hr).trans (fullInterleave_kept hk),
      fun hr hk ha => (h4 hr).trans (fullInterleave_all hk ha)⟩

end Sys2Proof.Machine
end
